-- ==== Sys2Proof/Word.lean ====
section
/-! DEFINITION. The index types of the device's replicated units (R15, R16) and the byte. -/
namespace Sys2Proof

/-- One octet. -/
abbrev Byte := BitVec 8

/-- Port number, P00 to P63. -/
abbrev Port := Fin 64

/-- Port tile and lath link number, T0 to T7. -/
abbrev Tile := Fin 8

/-- Converter and hod lane number, CV00 to CV17. -/
abbrev Conv := Fin 18

/-- Rail number, RAIL00 to RAIL31. -/
abbrev Rail := Fin 32

/-- Comparator number of Table 5.1. -/
abbrev Cmp := Fin 164

/-- Feed number: 0 is FEED_A, 1 is FEED_B. -/
abbrev Feed := Fin 2

/-- Metering channel: 0 to 63 the ports, 64 and 65 the feeds. -/
abbrev Chan := Fin 66

/-- Strip slot number, ST0 to ST7. -/
abbrev Slot := Fin 8

/-- Core number: 0 to 16 the engines PE00 to PE16, 17 the plumb pair. -/
abbrev CoreId := Fin 18

/-- Engine number, PE00 to PE16. -/
abbrev Eng := Fin 17

/-- Host transport: 0 CANA, 1 CANB, 2 TW0, 3 TW1. -/
abbrev Transport := Fin 4

/-- Two-wire bus number. -/
abbrev Bus := Fin 2

/-- Native counter number, CT00 to CT31. -/
abbrev Ctr := Fin 32

/-- TB compare channel number, TBC0 to TBC31. -/
abbrev Tbc := Fin 32

/-- Trigger generator number, TG0 to TG7. -/
abbrev Tg := Fin 8

/-- Who reads TB in two words (R336): PE00 to PE16, 17 the plumb pair, 18 to 21 the transports. -/
abbrev Requester := Fin 22

end Sys2Proof
end

