-- ==== Sys2Proof/Syntax.lean ====
section
/-! DEFINITION. The commands of the device, one constructor per row of the table of operations and events, with the
operands that the events carry: which unit, what was measured, what was received. -/

namespace Sys2Proof

/-- The reference that REFCLK_IN carries, as the start-up measurement finds it (R29). -/
inductive RefFound where
  | ref10 | ref25 | none
  deriving DecidableEq, Repr

/-- The digital-protection judgement behind a trip block (Table 4.2). -/
inductive DpCause where
  | i2t | soa | fetOt | rcp
  deriving DecidableEq, Repr

/-- The causes of a feed loss (Table 4.4). -/
inductive LossCause where
  | inputLow | reverse | unseat | fault | command
  deriving DecidableEq, Repr

/-- The voltages of a port's shunt and FET pair at one instant, µV: at Pnn_ISP, Pnn_ISN and Pnn_VBSN (R107). -/
structure FetSample where
  isp : Int
  isn : Int
  vbs : Int
  deriving DecidableEq, Repr

/-- The outputs H and L of a comparator in the three steps of a self-check (Table 5.3). -/
structure CheckOut where
  h1 : Bool
  l1 : Bool
  h2 : Bool
  l2 : Bool
  h3 : Bool
  l3 : Bool
  deriving DecidableEq, Repr

/-- A received ledger frame (R98, Table 3.4): the controller that it came in on (0 CANA, 1 CANB), its identifier of 11 bits, and its
data field: `raw` the first 56 octets and `tag` the last 8. -/
structure LedgerFrame where
  bus : Fin 2
  id : Nat
  raw : List Nat
  tag : List Nat
  deriving DecidableEq, Repr

/-- What a CC pin sees (Table 2.1); `rp` where the port presents Rd. -/
inductive Term where
  | opn | rd | ra | rp
  deriving DecidableEq, Repr

/-- The two power and role swaps and the VCONN swap (R62, R63). -/
inductive SwapKind where
  | pr | dr | vconn
  deriving DecidableEq, Repr

/-- The requests for functions the device does not have (Table 2.5). -/
inductive Absent where
  | vdmCommand | vdmAttention | vdmUnstructured | enterUsb | dataReset | batteryCap | batteryStatus
  | countryCodes | countryInfo | firmwareUpdate | securityRequest | getSinkCapSourceRole | getSourceCapSinkRole
  | getSinkCapExtended | bistSharedTest | eprEnterDisabled
  deriving DecidableEq, Repr

/-- The VDO of a cable that answered Discover Identity: passive or active VDO, its current (10 mA), its voltage
(10 mV) and its EPR Capable bit (R51). -/
structure CableVdo where
  vdo : Nat
  current : Nat
  voltage : Nat
  eprCapable : Bool
  deriving DecidableEq, Repr

/-- The BIST modes (Table 2.4); `unknown` an unrecognised mode. -/
inductive BistMode where
  | carrier | testData | unknown
  deriving DecidableEq, Repr

/-- The messages a port receives, with the fields that the device judges. Voltages are in 10 mV, currents in 10 mA. -/
inductive RxMsg where
  /-- Request or EPR_Request: object position, voltage and current requested, the copied PDO of an EPR_Request. -/
  | request (epr : Bool) (pos : Nat) (v : Nat) (i : Nat) (pdo : Nat)
  | eprEnter (pdp : Nat)
  | eprExit
  | keepAlive
  | prSwap
  | drSwap
  | vconnSwap
  | softReset
  | discoverIdentity
  | absent (a : Absent)
  | unsupported (bist : Bool)
  | ping
  | alert
  | unexpected
  | sinkCapabilities (frsCurrent : Nat)
  | security (last : Bool)
  | sourceCapabilities (pdos : List Nat)
  | accept
  | reject
  | wait
  | psRdy
  | getSourceCap
  | getSinkCap
  | getStatus
  | getPpsStatus
  | getRevision
  | getManufacturerInfo
  | getSourceInfo
  | getSourceCapExtended
  | frSwap
  | bist (m : BistMode)
  | cableIdentity (c : CableVdo)
  deriving DecidableEq, Repr

/-- A supported message that the present state does not expect (Table 2.9). -/
inductive Unx where
  | ping | alert | other
  deriving DecidableEq, Repr

/-- The correction factors of a converter (R188): offsets in codes and gain factors in 2⁻³¹ for the five gains, twelve
stage trims in 1/64 LSB. -/
structure CalFactors where
  offset : List Int
  gain : List Nat
  trim : List Int
  deriving DecidableEq, Repr

/-- Where a command reaches the OTP controller from (R432): the keeper IO path, the dictionary, the debug port. -/
inductive OtpVia where
  | keeper | dictionary | debug
  deriving DecidableEq, Repr

/-- How attempts that did not verify left the cells of a word (R424, R433): those burned at all three references, those that are marginal,
and of these the ones that the nominal reference reads burned. Only cells that the value requires burned are pulsed. -/
structure BurnLeft where
  firm : BitVec 39
  soft : BitVec 39
  nom : BitVec 39
  deriving DecidableEq, Repr

/-- What the attempts on one word came to (R433): how many were made beyond the first, and how they left the cells, none where the word
verified. -/
structure Burn where
  more : Fin 9
  left : Option BurnLeft
  deriving DecidableEq, Repr

/-- The instructions of the test access port (R417). -/
inductive TapIns where
  | bypass | sample | extest
  deriving DecidableEq, Repr

/-- What the SFDP of the device on one chip select states (R268), in octets. -/
structure WallFound where
  size : Nat
  page : Nat
  erase : Nat
  deriving DecidableEq, Repr

/-- What a CAN controller meets on its bus between frames that it takes (R374, R382): an error of its own transmission, an error that it sees as
receiver (`dominant` where its error flag is followed by a dominant bit), a frame of its own that has gone out, a bus-idle, and 11 recessive
bits. -/
inductive CanEv where
  | txError
  | rxError (dominant : Bool)
  | sent
  | idle
  | recessive
  deriving DecidableEq, Repr

/-- The format of a received CAN frame (R374). -/
inductive CanForm where
  | fd | classical | extended | remote
  deriving DecidableEq, Repr

/-- How a controller transaction ended on the bus (Table 14.3); an address not acknowledged is that of the START, or (`read`) of the repeated
START after every write octet. -/
inductive TwEnd where
  | ok (rdata : List Byte)
  | nackAddr (read : Bool)
  | nackData (acked : Nat)
  deriving DecidableEq, Repr

/-- The plain body of a READ item and of a WRITE item (Table 13.3): index, subindex, value. -/
structure OdItem where
  idx : BitVec 16
  sub : BitVec 8
  val : List Byte
  deriving DecidableEq, Repr

/-- A request to the dictionary: who sends it, its SEQ, and whether it came sealed under the sender's session. -/
structure ReqHead where
  src : Requester
  seq : BitVec 16
  secure : Bool
  deriving DecidableEq, Repr

/-- What the error correction of the memories finds while a core runs an instruction (R299): nothing, a single-bit error that it
corrects, a double-bit error in a word of local data SRAM that the instruction reads, or one in the fetch or the core page. -/
inductive ZEcc where
  | clean | corrected | operand | fatal
  deriving DecidableEq, Repr

/-- The fields of a Zamor-32 instruction beside its opcode (Tables 11.1 and 11.2). A short form has DN in `d` and SN in `s1`; B and
CALL have their offset in `off`. -/
structure ZIns where
  short : Bool
  cond : Fin 8
  size : Fin 4
  d : BitVec 6
  s1 : BitVec 6
  s2 : BitVec 6
  sub : Fin 4
  off : BitVec 20
  ecc : ZEcc
  deriving DecidableEq, Repr

/-- The commands the device takes: one constructor per row of the table of operations and events. -/
inductive Instr where
  /-- LATH_BLOCK_FAIL (R20): A lath block fails decoding; a converter result slot in it is delivered tagged SETTLE and LATH_ERR counts the block time. Link n; a and b: the failed block held a result slot of CV(2n), of CV(2n+1). -/
  | lathBlockFail (n : Tile) (a : Bool) (b : Bool)
  /-- LATH_LOCK_LOSS (R22): A link loses block lock for 64 consecutive blocks; the tile enters link hold, LATH_HOLDS counts and metering goes UNCERTAIN. -/
  | lathLockLoss (n : Tile)
  /-- LINK_HOLD_EXPIRY (R22): LINK_HOLD of 2 ms passes without the link returning; the tile is declared failed and its eight ports enter SAFE_OFF. -/
  | linkHoldExpiry (n : Tile)
  /-- LATH_LINK_UP (R22): A retrained link comes up within LINK_HOLD; port-shadow updates resume and no port changes state. -/
  | lathLinkUp (n : Tile)
  /-- DP_TRIP_BLOCK (R19): A digital-protection trip block reaches the tile scrim slice and asserts DP_TRIP for the port, turning its gate off. -/
  | dpTripBlock (p : Port) (c : DpCause)
  /-- REFCLK_MEASURE (R29): The 1 ms start-up measurement of REFCLK_IN ends and the PLLs lock to 10 MHz, 25 MHz or the 32 MHz oscillator. -/
  | refclkMeasure (r : RefFound)
  /-- REFCLK_LOSS (R30): The REFCLK monitor declares the reference lost and PLL_A and PLL_B enter holdover. -/
  | refclkLoss
  /-- HOLDOVER_EXPIRY (R30): After 10 ms of holdover both PLLs move phase-continuously to the 32 MHz oscillator. -/
  | holdoverExpiry
  /-- REFCLK_RETURN (R30): REFCLK_IN has been valid for 100 ms; both PLLs return to it and CLK_STATUS[0] to [3] clear. -/
  | refclkReturn
  /-- AON_CRYSTAL_STOP (R31): The AONCLK crystal stops for more than 4 ms; AONCLK switches to the internal oscillator and CLK_STATUS[4] sets. -/
  | aonCrystalStop
  /-- HOD_WORD (R198): A converter result word reaches its hod lane and passes to metering and digital protection in the same cycle, with result register and lane-buffer handling. x: the input of the channel that the converter samples, 0.1 µV, on a channel whose input the device makes itself (ZERO, CHK) what stands on it beside that; cyc: the hod cycle, counted in CNVCLK cycles; sense: the temperature sensor of the tile, µV. -/
  | hodWord (c : Conv) (x : Int) (cyc : Nat) (sense : Int)
  /-- TQ_WRITE (R201): The tagged-queue write port takes the oldest entry of the next lane buffer in round-robin order. -/
  | tqWrite
  /-- POWER_SAMPLE (R215): Metering forms a power sample at a current result's instant once the bracketing voltage result has arrived. -/
  | powerSample (x : Chan)
  /-- CC_TERMINATION_CHANGE (R41): The tile sees a change of partner termination on a CC pin and moves the Type-C state machine toward AttachWait or detach. what CCA and CCB see now. -/
  | ccTerminationChange (p : Port) (a : Term) (b : Term)
  /-- CC_DEBOUNCE_EXPIRY (R38): tCCDebounce runs out in AttachWait and the port becomes attached, starts its ramp and reports orientation. -/
  | ccDebounceExpiry (p : Port)
  /-- DETACH_CONFIRMED (R45): A detach is confirmed after tPDDebounce; the gate turns off, the contract is dropped and discharge starts. -/
  | detachConfirmed (p : Port)
  /-- DRP_TOGGLE (R42): The DRP toggle timer switches an unattached DRP port between Rp and Rd. -/
  | drpToggle (p : Port)
  /-- TRY_TIMER_EXPIRY (R38): A Try or TryWait timer (tDRPTry, tTryCCDebounce, tTryTimeout) runs out and the Type-C state machine moves on. -/
  | tryTimerExpiry (p : Port)
  /-- ERROR_RECOVERY_END (R44): tErrorRecovery ends and the port leaves ErrorRecovery unless a cut, lockout or disable holds it. -/
  | errorRecoveryEnd (p : Port)
  /-- PORT_RESET (R44): A port reset runs Type-C ErrorRecovery on one port, clearing protocol, contract and its comparator latches. -/
  | portReset (p : Port)
  /-- VCONN_LIMIT_EXPIRY (R47): The VCONN switch stays in current limit for 2 ms, turns off and records VCONN_OC. -/
  | vconnLimitExpiry (p : Port)
  /-- RX_REQUEST (R54): A Request or EPR_Request is checked against the offer, the cable and the ledger and answered Soft_Reset, Reject, Accept or Wait. id, rev3: MessageID and revision of the header; v 10 mV, i 10 mA; pdo: the copied object of an EPR_Request. -/
  | rxRequest (p : Port) (id : Fin 8) (rev3 : Bool) (epr : Bool) (pos : Nat) (v : Nat) (i : Nat) (pdo : Nat)
  /-- RX_EPR_MODE_ENTER (R59): An EPR_Mode (Enter) is acknowledged, the cable rediscovered and entry succeeds or fails. pdp: EPR Sink Operational PDP, W. -/
  | rxEprModeEnter (p : Port) (id : Fin 8) (rev3 : Bool) (pdp : Nat)
  /-- RX_EPR_MODE_EXIT (R60): An EPR_Mode (Exit) from the partner ends EPR mode. -/
  | rxEprModeExit (p : Port) (id : Fin 8) (rev3 : Bool)
  /-- RX_EPR_KEEPALIVE (R60): An EPR_KeepAlive is answered with EPR_KeepAlive_Ack and the keep-alive timer restarts. -/
  | rxEprKeepalive (p : Port) (id : Fin 8) (rev3 : Bool)
  /-- RX_PR_SWAP (R62): An incoming PR_Swap is accepted, rejected or answered Hard Reset per SWAP_POLICY and state. -/
  | rxPrSwap (p : Port) (id : Fin 8) (rev3 : Bool)
  /-- RX_DR_SWAP (R62): An incoming DR_Swap is accepted or rejected per SWAP_POLICY and state. -/
  | rxDrSwap (p : Port) (id : Fin 8) (rev3 : Bool)
  /-- RX_VCONN_SWAP (R62): An incoming VCONN_Swap is accepted or rejected per SWAP_POLICY and the bars of R46. -/
  | rxVconnSwap (p : Port) (id : Fin 8) (rev3 : Bool)
  /-- RX_HARD_RESET (R69): A Hard Reset from the partner ends any transmission, cancels pending requests and starts the Hard Reset sequence. -/
  | rxHardReset (p : Port)
  /-- RX_SOFT_RESET (R71): A Soft_Reset from the partner resets the protocol layer and records PROTOCOL_ERROR. -/
  | rxSoftReset (p : Port) (id : Fin 8) (rev3 : Bool)
  /-- RX_DISCOVER_IDENTITY (R50): Discover Identity on SOP is answered with the ID Header VDO, or NAK while USB_VID is 0. -/
  | rxDiscoverIdentity (p : Port) (id : Fin 8) (rev3 : Bool)
  /-- RX_ABSENT_FUNCTION (R49): A request for an absent function gets the fixed answer of Table 2.5. -/
  | rxAbsentFunction (p : Port) (id : Fin 8) (rev3 : Bool) (a : Absent)
  /-- RX_UNSUPPORTED (R48): A message the device does not support is answered Not_Supported, or ignored for an unknown BIST mode. bist: a BIST message of an unrecognised mode. -/
  | rxUnsupported (p : Port) (id : Fin 8) (rev3 : Bool) (bist : Bool)
  /-- RX_UNEXPECTED (R484): A supported message unexpected in the present state is taken, or answered Soft_Reset or Hard Reset per Table 2.9. -/
  | rxUnexpected (p : Port) (id : Fin 8) (rev3 : Bool) (m : Unx)
  /-- RX_SINK_CAPABILITIES (R64): Sink_Capabilities advertising Fast Role Swap lead to FR_Swap arming once the ledger grants the current. frs: the Fast Role Swap current named, 10 mA; 0 none. -/
  | rxSinkCapabilities (p : Port) (id : Fin 8) (rev3 : Bool) (frs : Nat)
  /-- RX_SECURITY_RESPONSE (R65): A Security_Response answers an authentication step and is passed to the security block for verification. last: the answer is complete. -/
  | rxSecurityResponse (p : Port) (id : Fin 8) (rev3 : Bool) (last : Bool)
  /-- PD_GOODCRC_RX (R66): GoodCRC is received for a transmitted message, ending its retry timer. -/
  | pdGoodcrcRx (p : Port) (rev3 : Bool)
  /-- PD_RETRY_TIMEOUT (R66): tReceive passes without GoodCRC and the tile retransmits, or after nRetryCount the failure is handled per Table 2.9. -/
  | pdRetryTimeout (p : Port)
  /-- SENDER_RESPONSE_EXPIRY (R483): T_SENDER_RESPONSE passes without a required answer; NO_RESPONSE is recorded and Hard Reset or AMS end follows. -/
  | senderResponseExpiry (p : Port)
  /-- SOURCE_CAP_REPEAT (R66): tTypeCSendSourceCap passes without GoodCRC and Source_Capabilities is sent again, up to nCapsCount. -/
  | sourceCapRepeat (p : Port)
  /-- CABLE_DISCOVERY (R51): tVCONNStable after VCONN is applied the engine sends SOP' Discover Identity. -/
  | cableDiscovery (p : Port)
  /-- CABLE_DISCOVERY_RETRY (R51): 45 ms after an unanswered Discover Identity it is repeated, up to four attempts, then cable defaults apply. -/
  | cableDiscoveryRetry (p : Port)
  /-- TRANSITION_START (R56): T_SRC_TRANSITION after the Accept's GoodCRC the tile starts moving VSET and the current limit toward the new contract. -/
  | transitionStart (p : Port)
  /-- VSET_SLEW_END (R56): VSET reaches the new code, moving the WIN_V lower threshold and opening the PG_QUAL window. -/
  | vsetSlewEnd (p : Port)
  /-- TRANS_DONE (R56): The PG_QUAL window of a transition completes and TRANS_DONE sets in PP_EVENT. -/
  | transDone (p : Port)
  /-- PS_RDY_SEND (R56): The engine sends PS_RDY within 200 µs of the PG report and the contract becomes explicit. -/
  | psRdySend (p : Port)
  /-- TRANSITION_TIMEOUT (R56): PG is not reported within 40 ms of the transition start; the engine sends Hard Reset and records TRANSITION_FAIL. -/
  | transitionTimeout (p : Port)
  /-- PPS_TIMEOUT (R57): No PPS Request arrives within T_PPS_TIMEOUT; Hard Reset is sent and PPS_TIMEOUT recorded. -/
  | ppsTimeout (p : Port)
  /-- EPR_KEEPALIVE_TIMEOUT (R60): No EPR_KeepAlive arrives within T_EPR_KEEPALIVE; Hard Reset is sent and the timeout recorded. -/
  | eprKeepaliveTimeout (p : Port)
  /-- FR_SWAP_SIGNAL (R64): An armed sink port detects the FR_Swap signal on CC in hardware. -/
  | frSwapSignal (p : Port)
  /-- FRS_GATE_ON (R64): Once VBUS falls below vSafe5V after FR_Swap detection, the tile turns the gate on at 5 V with the 5 V limit. -/
  | frsGateOn (p : Port)
  /-- FRS_FAIL (R71): No valid VBUS within 150 µs of an FR_Swap signal records FRS_FAIL. -/
  | frsFail (p : Port)
  /-- AUTH_VERIFY_DONE (R65): The security block finishes a certificate or signature verification and AUTH_STATE and the offer follow AUTH_POLICY. ok: the signatures verify; root: the SHA-256 hash of the chain's root certificate. -/
  | authVerifyDone (p : Port) (ok : Bool) (root : List Nat)
  /-- PS_HARD_RESET_EXPIRY (R69): tPSHardReset after the Hard Reset signalling the source starts taking VBUS to vSafe0V. -/
  | psHardResetExpiry (p : Port)
  /-- SRC_RECOVER_EXPIRY (R69): tSrcRecover after VBUS reached vSafe0V the source restores vSafe5V. -/
  | srcRecoverExpiry (p : Port)
  /-- HARD_RESET_COMPLETE (R69): tHardResetComplete after a signalled Hard Reset reception and transmission resume with MessageIDs reset. -/
  | hardResetComplete (p : Port)
  /-- SINK_TX_WAIT_END (R63): The tSinkTx collision-avoidance wait ends and the engine may send its AMS-starting message. -/
  | sinkTxWaitEnd (p : Port)
  /-- BIST_CARRIER_END (R66): BIST Carrier Mode ends after tBISTContMode of 45 ms. -/
  | bistCarrierEnd (p : Port)
  /-- PORT_CMD_HARD_RESET (R73): PORT_CMD 0x01 makes the engine send Hard Reset on the port. -/
  | portCmdHardReset (p : Port)
  /-- PORT_CMD_SOFT_RESET (R73): PORT_CMD 0x02 makes the engine send Soft_Reset on the port. -/
  | portCmdSoftReset (p : Port)
  /-- PORT_CMD_READVERTISE (R72): PORT_CMD 0x03 sends a new Source_Capabilities, applying pending SRC_PDO and EPR_PDO. -/
  | portCmdReadvertise (p : Port)
  /-- PORT_CMD_PR_SWAP (R63): PORT_CMD 0x04 requests a PR_Swap, its response held until GoodCRC or cancellation. -/
  | portCmdPrSwap (p : Port)
  /-- PORT_CMD_DR_SWAP (R63): PORT_CMD 0x05 requests a DR_Swap, its response held until GoodCRC or cancellation. -/
  | portCmdDrSwap (p : Port)
  /-- PORT_CMD_VCONN_SWAP (R63): PORT_CMD 0x06 requests a VCONN_Swap, refused BUSY where R46 bars it. -/
  | portCmdVconnSwap (p : Port)
  /-- PORT_CMD_ERROR_RECOVERY (R44): PORT_CMD 0x07 starts a port reset. -/
  | portCmdErrorRecovery (p : Port)
  /-- PORT_CMD_CLEAR_COUNTERS (R73): PORT_CMD 0x08 clears the port's PD counters. -/
  | portCmdClearCounters (p : Port)
  /-- PORT_CMD_DISABLE (R73): PORT_CMD 0x09 takes the port through ERROR_RECOVERY into DISABLED without recording PD_FAULT. -/
  | portCmdDisable (p : Port)
  /-- PORT_CMD_ENABLE (R73): PORT_CMD 0x0A returns a disabled port to the role given by ROLE. -/
  | portCmdEnable (p : Port)
  /-- PORT_CMD_AUTHENTICATE (R65): PORT_CMD 0x0B starts partner authentication as initiator. -/
  | portCmdAuthenticate (p : Port)
  /-- LQ_ADMIT (R77): An ADMIT query is evaluated by the ledger to GRANT, DENY_ALLOT or DENY_BUDGET and sets DONE. w: P in LW. -/
  | lqAdmit (p : Port) (w : Nat)
  /-- LQ_RESERVE (R80): A RESERVE query books power against the budget exactly as ADMIT does. -/
  | lqReserve (p : Port) (w : Nat)
  /-- LQ_RELEASE (R80): A RELEASE query sets the port's booking to 0. -/
  | lqRelease (p : Port)
  /-- LQ_LOWER (R80): A LOWER query always grants and sets the booking to the lower of P and the present booking. -/
  | lqLower (p : Port) (w : Nat)
  /-- WAIT_READVERTISE (R81): On BUDGET_FREE the engine re-advertises to the waiting port. -/
  | waitReadvertise (p : Port)
  /-- STRIP_RECOMPUTE (R84): Under STRIP_MODE AUTO the plumb pair recomputes every non-MANUAL strip slot within 1 ms of a relevant change. -/
  | stripRecompute
  /-- SLOT_ARMED (R85): All copies of a strip slot or scrim mask read back matching and the shadow becomes the armed copy. t: the slot, or none for the scrim masks; ok: every copy read back matches. -/
  | slotArmed (t : Option Slot) (ok : Bool)
  /-- FEED_LOSS_TERM (R144): A feed-loss term asserts in the central slice, turning the feed gate off and triggering its strip slot. -/
  | feedLossTerm (f : Feed) (c : LossCause)
  /-- TILE_SLICE_APPLY (R163): A tile slice receiving a strobe applies the armed slots of that trigger, cutting or limiting ports, or cuts every source-role port with none armed. t: trigger code. -/
  | tileSliceApply (n : Tile) (t : Nat)
  /-- LEDGER_SHED_APPLY (R87): The synchronised trigger reaches the ledger, which zeroes cut bookings, lowers others, caps BUDGET and raises SHED. -/
  | ledgerShedApply (t : Nat)
  /-- PEER_SHED_IN (R83): A filtered SHED_N falling edge from a peer triggers the PEER strip slot. -/
  | peerShedIn
  /-- SHED_N_RELEASE (R97): After holding SHED_N low for 10 µs the device releases it. -/
  | shedNRelease
  /-- SHED_N_STUCK (R97): SHED_N held low beyond 10 ms sets SHED_N_STUCK. -/
  | shedNStuck
  /-- DERATE_SAMPLE (R95): The derate temperature is read every 1 ms and the derate step is entered or left, triggering TH1 to TH3. -/
  | derateSample
  /-- SHELF_TEMP_EXPIRY (R95): A written SHELF_TEMP expires 10 s after its last write. -/
  | shelfTempExpiry
  /-- SECOND_STAGE (R86): With RUNNING_SUM still above CAP_AFTER after a shed, the plumb pair computes and applies a follow-up table or lowers allotments. -/
  | secondStage
  /-- SHED_READVERTISE (R92): On SHED the owning engine sends reduced Source_Capabilities within 20 ms to each remaining port whose objects change. -/
  | shedReadvertise (p : Port)
  /-- RESTORE_START (R93): Every cause in force has been absent for RESTORE_DELAY; the BUDGET cap lifts and restoration begins. -/
  | restoreStart
  /-- RESTORE_STEP (R94): Each STAGGER one limited port regains its allotment or one cut port is released with RESTART_RESERVE. -/
  | restoreStep
  /-- LEDGER_CMD_RECOMPUTE (R84): LEDGER_CMD 0x01 makes the plumb pair recompute the strip slots. -/
  | ledgerCmdRecompute
  /-- LEDGER_CMD_FORGET_PEER (R102): LEDGER_CMD 0x02 stops counting the lost member named in LEDGER_ARG. -/
  | ledgerCmdForgetPeer
  /-- LEDGER_CMD_CLEAR_FLAGS (R104): LEDGER_CMD 0x03 clears the ledger flags. -/
  | ledgerCmdClearFlags
  /-- LEDGER_CMD_ABORT_RESTORE (R94): LEDGER_CMD 0x04 stops a running restoration after the step in progress and holds the remaining shed. -/
  | ledgerCmdAbortRestore
  /-- LEDGER_CMD_RESUME_RESTORE (R94): LEDGER_CMD 0x05 ends a restoration hold so that restoration may start again. -/
  | ledgerCmdResumeRestore
  /-- SHED_CMD_APPLY (R89): SHED_CMD 0x00-0x07 applies an armed MANUAL slot, or is refused NOT_READY or MODE. -/
  | shedCmdApply (n : Slot)
  /-- SHED_CMD_RELEASE (R93): SHED_CMD 0x80+n releases a MANUAL slot's part of the shed. -/
  | shedCmdRelease (n : Slot)
  /-- LEDGER_FRAME_RX (R98): A ledger frame is received, its tag checked, and it is taken into the round or discarded and counted. -/
  | ledgerFrameRx (f : LedgerFrame)
  /-- LEDGER_FRAME_TX (R99): The device sends its ledger frame in its slot of the round. -/
  | ledgerFrameTx
  /-- RECON_ROUND_OPEN (R99): The lowest member opens a reconciliation round every RECON_PERIOD. -/
  | reconRoundOpen
  /-- RECON_SLOT_EXPIRY (R99): A member's 0.4 ms slot expires without its frame and the round moves on. -/
  | reconSlotExpiry (node : Nat)
  /-- OPENER_SILENT (R99): The opener is silent for two RECON_PERIODs and the next lowest member opens. -/
  | openerSilent
  /-- RECON_ROUND_END (R100): At the round's end every member computes and applies its BUDGET and overcommit state. -/
  | reconRoundEnd
  /-- OVERCOMMIT_LOWERING (R101): While overcommit is set the plumb pair lowers allotments lowest class first and re-advertises until the sum fits. -/
  | overcommitLowering
  /-- RESTORE_TURN_TIMEOUT (R103): The lower member's restoration-done frame fails to arrive and the member starts its restoration after 64 x STAGGER + 10 ms. -/
  | restoreTurnTimeout
  /-- PP_CTRL_EN (R126): A write requesting the path on in the source direction sets VSET and starts a ramp after the pre-turn-on check. -/
  | ppCtrlEn (p : Port)
  /-- PP_CTRL_SINK (R129): A write requesting the path on in the sink direction turns the gate on with a ramp once VBUS is inside the 5 V window. -/
  | ppCtrlSink (p : Port)
  /-- PP_ARM (R147): Setting ARM starts the transition to PP_TARGET under R56. -/
  | ppArm (p : Port)
  /-- PP_FRS_ARM (R64): Setting FRS_ARM arms the port's FR_Swap switch-over after a comparator check. -/
  | ppFrsArm (p : Port)
  /-- VSET_TRIM_STEP (R109): Every 100 µs the tile moves the VSET code one step when the 10 µs VBUS average is off target. -/
  | vsetTrimStep (p : Port)
  /-- RAMP_GATE_RISE (R126): 100 µs after VSET is set the gate rises at RAMP_DVDT and the inrush timer starts. -/
  | rampGateRise (p : Port)
  /-- RAMP_TIMEOUT (R127): VBUS has not entered its PG window by T_RAMP_MAX and the gate turns off with RAMP_TIMEOUT. -/
  | rampTimeout (p : Port)
  /-- PG_QUAL_COMPLETE (R133): The PG_QUAL window completes with VBUS inside and the fault timer idle, and port PG asserts. ftStarts: the fault timer starts in the same cycle. -/
  | pgQualComplete (p : Port) (ftStarts : Bool)
  /-- PG_DEGLITCH_DROP (R133): VBUS stays outside the window for PG_DEGLITCH and port PG drops. -/
  | pgDeglitchDrop (p : Port)
  /-- FAULT_TIMER_EXPIRY (R115): The fault timer reaches FAULT_TIME (or SHED_GRACE) and the gate turns off with OVERCURRENT. -/
  | faultTimerExpiry (p : Port)
  /-- FAULT_TIMER_IDLE (R115): The limit has stayed released for FT_CLEAR and the fault timer returns to idle with count 0. -/
  | faultTimerIdle (p : Port)
  /-- SOA_UPDATE (R118): Every 10 µs the SOA guard integrates FET dissipation above SOA_P0 and trips at SOA_E_MAX. l: the samples of the interval. -/
  | soaUpdate (p : Port) (l : List FetSample)
  /-- THERMAL_UPDATE (R119): Every 10 µs the FET thermal model updates TJ_MODEL, warning at FET_TWARN and tripping at FET_TMAX. l: the samples of the interval, oldest first. -/
  | thermalUpdate (p : Port) (l : List FetSample)
  /-- NTC_READ (R119): T_NTC is read from Pnn_TSN once per millisecond and judged valid or invalid. x: the reading. -/
  | ntcRead (p : Port) (x : Nat)
  /-- NTC_START_WINDOW_END (R121): The 2 s start window with an invalid NTC ends and normal limits and the FET_TWARN judgement return. -/
  | ntcStartWindowEnd (p : Port)
  /-- PATH_R_ESTIMATE (R120): Every 1 ms with at least 1 A the estimator filters VFET/I into R_PATH_EST and flags PATH_R_HIGH. m: the sample. -/
  | pathREstimate (p : Port) (m : FetSample)
  /-- DP_BLIND (R124): No usable current result for 10 µs sets DP_BLIND and holds the digital-protection integrals. -/
  | dpBlind (p : Port)
  /-- FAULT_PROTOCOL_RESET (R136): After a fault turns off a contracted source port the engine resets protocol and contract without signalling Hard Reset. -/
  | faultProtocolReset (p : Port)
  /-- TILE_RESULT (R482): A port's VBUS or current result reaches tile logic ahead of the link and is judged for trim, thresholds, PG and discharge. volt: a VBUS result in 20 µV, otherwise a current result in 100 µA. -/
  | tileResult (p : Port) (volt : Bool) (x : Int)
  /-- DSCH_MAX_EXPIRY (R131): VBUS is still above 0.8 V after DSCH_MAX and DSCH_FAIL leads to lockout. -/
  | dschMaxExpiry (p : Port)
  /-- FET_STUCK (R132): Current stays above 0.2 A for 1 ms after turn-off; VSET goes to 0 and the port locks out. -/
  | fetStuck (p : Port)
  /-- RETRY_DELAY_EXPIRY (R137): RETRY_DELAY after a fault's gate-off a retry ramp starts and the count drops. -/
  | retryDelayExpiry (p : Port)
  /-- RETRY_RESET_EXPIRY (R137): After RETRY_RESET of PG without a fault the retry count is restored. -/
  | retryResetExpiry (p : Port)
  /-- PP_CMD_CLEAR_LOCKOUT (R138): PP_CMD 0x01 ends lockout and the port attaches normally. -/
  | ppCmdClearLockout (p : Port)
  /-- PP_CMD_CLEAR_FAULT_SET (R148): PP_CMD 0x02 clears PP_FAULT_SET. -/
  | ppCmdClearFaultSet (p : Port)
  /-- PP_CMD_FORCE_OFF (R161): PP_CMD 0x03 asserts FORCE for the port, turning its gate off and suspending retries. -/
  | ppCmdForceOff (p : Port)
  /-- PP_CMD_RELEASE_FORCE_OFF (R137): PP_CMD 0x04 releases FORCE_OFF and a suspended retry starts RETRY_DELAY later. -/
  | ppCmdReleaseForceOff (p : Port)
  /-- SEAT_CHANGE (R141): A feed seat pin changes level, restarting the seat debounce or asserting the feed-loss term. pin1: SEAT_X1, otherwise SEAT_X0. -/
  | seatChange (f : Feed) (pin1 : Bool) (seated : Bool)
  /-- FEED_START (R141): The start conditions hold for SEAT_DEBOUNCE and the feed stage ramps FX_VOUT at FEED_DVDT. vin: FX_VIN, 10 mV. -/
  | feedStart (f : Feed) (vin : Int)
  /-- FEED_RAMP_TIMEOUT (R142): FX_VOUT has not reached its window by FEED_T_RAMP_MAX and the stage turns off with FEED_RAMP_TIMEOUT. -/
  | feedRampTimeout (f : Feed)
  /-- FEED_PG_QUAL_COMPLETE (R142): FEED_PG_QUAL completes and feed PG asserts, making the feed available. -/
  | feedPgQualComplete (f : Feed)
  /-- FEED_PG_DROP (R142): FX_VOUT stays outside its window for 10 µs and feed PG drops. -/
  | feedPgDrop (f : Feed)
  /-- FEED_FAULT_TIMER_EXPIRY (R143): The feed fault timer reaches FEED_FAULT_TIME and the stage turns off with FEED_OVERCURRENT. -/
  | feedFaultTimerExpiry (f : Feed)
  /-- FEED_FAULT_TIMER_IDLE (R143): Feed current stays below FEED_ILIM for 100 µs and the feed fault timer returns to idle. -/
  | feedFaultTimerIdle (f : Feed)
  /-- FEED_SOA_UPDATE (R143): The feed SOA guard integrates stage dissipation every 10 µs and trips FEED_SOA. means over the interval: vin and vout in 10 mV, d the shunt voltage in µV. -/
  | feedSoaUpdate (f : Feed) (vin : Int) (vout : Int) (d : Int)
  /-- FEED_UV_WARN (R144): The input stays between FEED_LOSS_V and FEED_UV for 1 ms and FEED_UV_WARN sets, or clears after 1 ms above. low: the input stood between FEED_LOSS_V and FEED_UV for 1 ms, otherwise at or above FEED_UV. -/
  | feedUvWarn (f : Feed) (low : Bool)
  /-- FEED_STAGE_OFF (R145): The lost feed's gate falls below 1.0 V and FEED_HS_STATE leaves LOST per the loss cause. -/
  | feedStageOff (f : Feed)
  /-- FEED_CMD_CLEAR (R145): FEED_CMD 0x01 clears a latched feed FAULT. -/
  | feedCmdClear (f : Feed)
  /-- FEED_CMD_OFF (R145): FEED_CMD 0x02 asserts loss cause COMMAND and holds the stage off. -/
  | feedCmdOff (f : Feed)
  /-- FEED_CMD_ON (R145): FEED_CMD 0x03 ends a COMMAND hold so the feed may start. -/
  | feedCmdOn (f : Feed)
  /-- COMPARATOR_CROSSING (R150): A comparator input crosses a threshold or leaves its hysteresis band, moving an output bit, its latch and the scrim terms. x: the input, in DAC steps. -/
  | comparatorCrossing (c : Cmp) (x : Int)
  /-- LATCH_PERIOD_BOUNDARY (R154): At each EVAL_PERIOD boundary a PERIOD-mode latch loads its live bit. -/
  | latchPeriodBoundary (c : Cmp)
  /-- CMP_CMD_CLEAR_LATCH (R154): CMP_CMD 0x01 clears the comparator's latches. -/
  | cmpCmdClearLatch (c : Cmp)
  /-- CMP_CMD_SELFCHK (R157): CMP_CMD 0x02 runs a self-check, refused BUSY while the watched path is live. -/
  | cmpCmdSelfchk (c : Cmp)
  /-- CMP_SELFCHK_GO (R157): Setting GO in CMP_SELFCHK starts a self-check of a local port's WIN_I or WIN_V. local port q of engine e; v: WIN_V, otherwise WIN_I. -/
  | cmpSelfchkGo (e : Eng) (q : Fin 4) (v : Bool)
  /-- SELF_CHECK_END (R159): A self-check finishes; a pass lets the path start, a failure sets CHK_FAIL with SAFE_OFF, feed WAIT or rail fault. x: the input when it is connected again, in DAC steps. -/
  | selfCheckEnd (c : Cmp) (o : CheckOut) (x : Int)
  /-- COMPARATOR_SETTLE_END (R153): After a change to MODE the comparator has settled for twice its response time and starts without history. -/
  | comparatorSettleEnd (c : Cmp) (x : Int)
  /-- CV_CMD_CAL (R189): CV_CMD 0x01 schedules self-calibration of the named converters, or is refused NOT_READY or BUSY. -/
  | cvCmdCal
  /-- CV_CMD_START (R182): CV_CMD 0x02 starts or arms the named converters on one edge. -/
  | cvCmdStart
  /-- CV_CMD_STOP (R183): CV_CMD 0x03 stops the named converters at their next sequence boundary. -/
  | cvCmdStop
  /-- CV_CMD_SAVE (R191): CV_CMD 0x04 copies the factors in force into CAL_IMAGE with die temperature and CRC. -/
  | cvCmdSave
  /-- CV_CMD_LOAD (R191): CV_CMD 0x05 loads a checked CAL_IMAGE into the factors at the next boundary. -/
  | cvCmdLoad
  /-- CV_CMD_CLEAR_COUNTERS (R207): CV_CMD 0x06 clears the saturating converter counters of the named converters. -/
  | cvCmdClearCounters
  /-- CAL_START (R189): At the converter's sequence boundary, after any held injected request, CAL begins and the lane carries CAL tags. -/
  | calStart (c : Conv)
  /-- CAL_END (R190): CAL ends after 336,000 cycles; factors are replaced or kept and the converter resumes its prior state. f: the factors that the calibration found. -/
  | calEnd (c : Conv) (f : CalFactors)
  /-- PASS_TRIGGER (R182): A trigger event reaches a converter's source synchroniser and starts a pass or is ignored as TRIG_OVRN. src: source code of Table 6.8. -/
  | passTrigger (src : Nat)
  /-- PASS_START (R182): E + 32 + SEQ_DELAY cycles after the trigger the pass's first conversion is sampled and PASS_COUNT increments. -/
  | passStart (c : Conv)
  /-- PASS_END (R183): A pass's last conversion completes, forming a sequence boundary at which the configuration group applies. -/
  | passEnd (c : Conv)
  /-- INJ_REQ_GO (R185): An engine's INJ_REQ GO reaches the converter and is accepted or dropped under INJ_POLICY. room: conversions left before the first sample instant of the pass that has been triggered. -/
  | injReqGo (c : Conv) (room : Nat)
  /-- INJ_TRIGGER (R185): An INJ_TRIG event delivers an injected request with INJ_ENTRY fields. room: as for INJ_REQ_GO. -/
  | injTrigger (c : Conv) (room : Nat)
  /-- REF_SETTLED (R193): 8.0-8.1 ms after REFBUF_EN a reference buffer sets REF_SETTLED. -/
  | refSettled (b : Fin 9)
  /-- REF_MONITOR_SAMPLE (R194): Every 1 ms the monitor samples REF_A/REF_B, updating REF_DIFF, REF_AGE and the divergence and ageing flags. ratio: REF_A ÷ REF_B. -/
  | refMonitorSample (ratio : Rat)
  /-- REF_AGE_SAVE (R194): REF_AGE is written to NVM every hour. -/
  | refAgeSave
  /-- REF_REBASE (R194): A write of 0x01 sets REF_AGE to the present REF_DIFF. -/
  | refRebase
  /-- PLAUS_TIMEOUT_EXPIRY (R196): A running converter takes part in no comparison for PLAUS_TIMEOUT and PLAUS_STALE sets. -/
  | plausTimeoutExpiry (c : Conv)
  /-- TQ_POP (R205): A read of TQ_POP removes the oldest entry and latches its info and time stamp. -/
  | tqPop (c : Conv)
  /-- WINDOW_BOUNDARY (R219): At a 100 µs, 1 ms or 100 ms TB boundary the window's V, I and P and flags are latched. w: 100 µs, 1 ms, 100 ms. -/
  | windowBoundary (w : Fin 3)
  /-- SKIM_CMD_NOW (R224): SKIM_CMD 0x01 schedules a skim at the present TB, or is refused BUSY. -/
  | skimCmdNow
  /-- SKIM_CMD_AT (R224): SKIM_CMD 0x02 schedules a skim at SKIM_T, or is refused RANGE or BUSY. -/
  | skimCmdAt
  /-- SKIM_CMD_CANCEL (R226): SKIM_CMD 0x03 withdraws a scheduled skim whose S has not passed. -/
  | skimCmdCancel
  /-- SKIM_INSTANT (R222): The skim instant S arrives and every accumulator is cut there; SYNC_OUT pulses if selected. -/
  | skimInstant
  /-- SKIM_BANK_COMPLETE (R223): The skim bank is complete and SKIM_STATE reads READY; a SKIM record is made for signing. -/
  | skimBankComplete
  /-- MET_CMD_CLEAR_ACC (R226): MET_CMD 0x01 cuts and zeroes every accumulator, refused BUSY during a skim. -/
  | metCmdClearAcc
  /-- MET_CMD_CLEAR_FLAGS (R232): MET_CMD 0x02 clears the sticky OVR and GAP flags. -/
  | metCmdClearFlags
  /-- MET_CMD_RECORD_NOW (R227): MET_CMD 0x03 cuts an ON_DEMAND record, or counts REC_SKIP if one is waiting. -/
  | metCmdRecordNow
  /-- INTERVAL_CUT (R227): At each TB multiple of REC_PERIOD an INTERVAL record is cut. -/
  | intervalCut
  /-- RECORD_SIGNED (R230): The security block finishes signing a record, which becomes readable and is appended to the journal. k: 0 SKIM, 1 INTERVAL, 2 ON_DEMAND. -/
  | recordSigned (k : Fin 3)
  /-- RECORD_SIGN_FAIL (R230): The security block cannot sign and the record is discarded and REC_FAIL counted. -/
  | recordSignFail (k : Fin 3)
  /-- SEQ_CMD_UP (R237): SEQ_CMD 0x01 starts power-up through the phases in ascending order. -/
  | seqCmdUp
  /-- SEQ_CMD_DOWN (R241): SEQ_CMD 0x02 drops the PWRGD composite and runs power-down in descending phase order. -/
  | seqCmdDown
  /-- SEQ_CMD_CLEAR_FAULT (R245): SEQ_CMD 0x03 takes the sequencer from FAULT to OFF and releases FAULT_N bit 5. -/
  | seqCmdClearFault
  /-- SEQ_CMD_RESTART (R245): SEQ_CMD 0x04 clears a fault and powers up in the same cycle. -/
  | seqCmdRestart
  /-- PHASE_START (R237): PHASE_GAP after the previous phase completes the next used phase starts. -/
  | phaseStart
  /-- RAIL_START_DELAY_EXPIRY (R237): At phase start + START_DELAY the rail runs its pre-enable check and asserts EN when it passes. -/
  | railStartDelayExpiry (n : Rail)
  /-- RISE_TIMEOUT (R238): A rail has not asserted PG by RISE_TIMEOUT after EN and its fault action applies. -/
  | riseTimeout (n : Rail)
  /-- RAIL_PG_QUAL_COMPLETE (R239): A rail's PG_QUAL completes and its PG asserts, possibly completing its phase. ftStarts: the rail fault timer starts in the same cycle. -/
  | railPgQualComplete (n : Rail) (ftStarts : Bool)
  /-- RAIL_FAULT_TIMER_EXPIRY (R239): The rail fault timer reaches RAIL_FAULT_TIME, recording UV or OV and dropping PG. -/
  | railFaultTimerExpiry (n : Rail)
  /-- RAIL_FAULT_TIMER_IDLE (R239): The rail has stayed inside its window for RAIL_FT_CLEAR and its fault timer returns to idle. -/
  | railFaultTimerIdle (n : Rail)
  /-- RAIL_STOP_DELAY_EXPIRY (R241): At phase-down start + STOP_DELAY the rail deasserts EN. -/
  | railStopDelayExpiry (n : Rail)
  /-- PHASE_DOWN_COMPLETE (R241): Every rail of a phase reads below OFF_TH and the phase is down. -/
  | phaseDownComplete
  /-- FALL_TIMEOUT (R241): FALL_TIMEOUT ends a phase-down, recording FALL_TIMEOUT for rails still above OFF_TH. -/
  | fallTimeout
  /-- AUTO_RESTART_EXPIRY (R246): RESTART_DELAY after reaching FAULT with restarts left the sequencer runs RESTART. -/
  | autoRestartExpiry
  /-- RESTART_COUNT_RELOAD (R246): After 60 s of continuous UP the restart count is reloaded from AUTO_RESTART. -/
  | restartCountReload
  /-- SEQ_AUTO_START (R247): With SEQ_AUTO set the sequencer runs UP once after leaving reset and applying stored values. -/
  | seqAutoStart
  /-- PWRGD_QUAL_COMPLETE (R248): The PWRGD composite qualifies over PWRGD_QUAL and asserts. ftStarts: a selected rail's fault timer starts in the same cycle. -/
  | pwrgdQualComplete (ftStarts : Bool)
  /-- MGN_MODE_WRITE (R250): A MGN_MODE write starts or ends margining, widening the window first, or is refused BUSY. m: 0 OFF, 1 OPEN, 2 CLOSED. -/
  | mgnModeWrite (n : Rail) (m : Fin 3)
  /-- MGN_STEP (R250): Every MGN_STEP_T in CLOSED mode the code moves one step toward MGN_TARGET and MGN_STATUS updates. -/
  | mgnStep (n : Rail)
  /-- MGN_DAC_STEP (R249): Every 10 µs the margin DAC moves one step toward its code. -/
  | mgnDacStep (n : Rail)
  /-- MGN_TIMEOUT (R250): MGN_TIMEOUT passes unlocked or with no in-window average; MGN_FAIL or the window narrows. -/
  | mgnTimeout (n : Rail)
  /-- FF_LOG_WRITTEN (R254): The first-fault entry becomes valid in NVM within 2 ms of the fault. -/
  | ffLogWritten
  /-- FF_CMD_CLEAR (R255): FF_CMD 0x01 erases the first-fault entry and zeroes FF_LATER. -/
  | ffCmdClear
  /-- RECORDER_SAMPLE (R258): Once per millisecond the recorder adds each channel's values to histograms and extremes. -/
  | recorderSample
  /-- FLUSH_START (R265): A flush cause arrives with no flush running or pending gap and a flush begins by freezing the image. -/
  | flushStart
  /-- FLUSH_PERIOD_EXPIRY (R265): FLUSH_PERIOD seconds of operating time pass and a PERIOD flush cause arises. -/
  | flushPeriodExpiry
  /-- FLUSH_PENDING_START (R265): The running flush and FLUSH_MIN_GAP end and the pending flush starts. -/
  | flushPendingStart
  /-- IMAGE_FREEZE_DONE (R264): The copy of the active image into the frozen image completes and sampling resumes. -/
  | imageFreezeDone
  /-- LEAF_WRITTEN (R266): A 4 KiB leaf finishes programming on the wall, or fails and is skipped into WALL_ERR. ok: the leaf was programmed; otherwise it failed or timed out. -/
  | leafWritten (ok : Bool)
  /-- FLUSH_COMPLETE (R267): All 17 image leaves of a flush are valid and LAST_FLUSH moves to it. -/
  | flushComplete
  /-- WALL_ERASE_DONE (R269): A background erase ahead of a ring head completes. jrnl: the journal ring, otherwise the histogram ring; ok: as for LEAF_WRITTEN. -/
  | wallEraseDone (jrnl : Bool) (ok : Bool)
  /-- JOURNAL_APPEND (R270): A signed record is appended to journal staging in REC_SEQ order, or counted in JRNL_DROP. -/
  | journalAppend
  /-- JOURNAL_LEAF_WRITE (R270): A journal leaf is written when its payload fills, at a flush or at power-fail. ok: as for LEAF_WRITTEN. -/
  | journalLeafWrite (ok : Bool)
  /-- POWER_FAIL_DECLARED (R271): VHOLD below 1.200 V for 2 µs declares power-fail and the emergency flush and NVM writes run. -/
  | powerFailDeclared
  /-- POWER_FAIL_REARM (R453): VHOLD rises above 1.250 V before brown-out and the device carries on. -/
  | powerFailRearm
  /-- OP_SECONDS_TICK (R273): Each second out of POR and BOR OP_SECONDS increments. -/
  | opSecondsTick
  /-- OP_SECONDS_SAVE (R273): OP_SECONDS and FF_LATER are written to NVM every hour. -/
  | opSecondsSave
  /-- REC_CMD_FLUSH (R265): REC_CMD 0x01 raises a DEMAND flush cause. -/
  | recCmdFlush
  /-- REC_CLEAR_IMAGE (R262): REC_CLEAR 0x01 flushes with cause CLEAR and then empties the image. -/
  | recClearImage
  /-- REC_CLEAR_WALL_ERASE (R275): REC_CLEAR 0x02 erases both wall rings, refused BUSY while a flush runs. -/
  | recClearWallErase
  /-- MOV (R319): MOV copies source 1 to the destination at the given size. -/
  | zMov (c : CoreId) (z : ZIns)
  /-- ADD (R319): ADD adds two sources and sets Z, N, C, V. -/
  | zAdd (c : CoreId) (z : ZIns)
  /-- ADC (R319): ADC adds two sources and the carry and sets Z, N, C, V. -/
  | zAdc (c : CoreId) (z : ZIns)
  /-- SUB (R319): SUB subtracts source 2 from source 1 and sets Z, N, C, V. -/
  | zSub (c : CoreId) (z : ZIns)
  /-- SBC (R319): SBC subtracts with borrow and sets Z, N, C, V. -/
  | zSbc (c : CoreId) (z : ZIns)
  /-- AND (R319): AND forms the bitwise AND and sets Z, N. -/
  | zAnd (c : CoreId) (z : ZIns)
  /-- ANDN (R319): ANDN forms source 1 AND NOT source 2 and sets Z, N. -/
  | zAndn (c : CoreId) (z : ZIns)
  /-- OR (R319): OR forms the bitwise OR and sets Z, N. -/
  | zOr (c : CoreId) (z : ZIns)
  /-- XOR (R319): XOR forms the bitwise XOR and sets Z, N. -/
  | zXor (c : CoreId) (z : ZIns)
  /-- NOT (R319): NOT complements source 1 and sets Z, N. -/
  | zNot (c : CoreId) (z : ZIns)
  /-- NEG (R319): NEG negates source 1 and sets Z, N, C, V. -/
  | zNeg (c : CoreId) (z : ZIns)
  /-- SHL (R320): SHL shifts left by a count from source 2 with the count rules of R320. -/
  | zShl (c : CoreId) (z : ZIns)
  /-- SHR (R320): SHR shifts right logically by a count from source 2. -/
  | zShr (c : CoreId) (z : ZIns)
  /-- SAR (R320): SAR shifts right arithmetically by a count from source 2. -/
  | zSar (c : CoreId) (z : ZIns)
  /-- ROR (R320): ROR rotates right by the count mod size. -/
  | zRor (c : CoreId) (z : ZIns)
  /-- MUL (R319): MUL writes the low half of the product. -/
  | zMul (c : CoreId) (z : ZIns)
  /-- MULHU (R319): MULHU writes the high half of the unsigned product. -/
  | zMulhu (c : CoreId) (z : ZIns)
  /-- MULHS (R319): MULHS writes the high half of the signed product. -/
  | zMulhs (c : CoreId) (z : ZIns)
  /-- DIVU (R320): DIVU writes the unsigned quotient, with the division-by-zero rule. -/
  | zDivu (c : CoreId) (z : ZIns)
  /-- DIVS (R320): DIVS writes the signed quotient truncated toward zero, with overflow and zero rules. -/
  | zDivs (c : CoreId) (z : ZIns)
  /-- REMU (R320): REMU writes the unsigned remainder. -/
  | zRemu (c : CoreId) (z : ZIns)
  /-- REMS (R320): REMS writes the signed remainder with the sign of source 1. -/
  | zRems (c : CoreId) (z : ZIns)
  /-- CMP (R319): CMP sets flags from source 1 minus source 2 without writing. -/
  | zCmp (c : CoreId) (z : ZIns)
  /-- TST (R319): TST sets Z, N from source 1 AND source 2 without writing. -/
  | zTst (c : CoreId) (z : ZIns)
  /-- EXTZ (R319): EXTZ zero-extends a byte or half to a word. -/
  | zExtz (c : CoreId) (z : ZIns)
  /-- EXTS (R319): EXTS sign-extends a byte or half to a word. -/
  | zExts (c : CoreId) (z : ZIns)
  /-- SWAB (R319): SWAB swaps bytes or halves as its SUB selects. -/
  | zSwab (c : CoreId) (z : ZIns)
  /-- BREV (R319): BREV reverses the bits of source 1 across the access width. -/
  | zBrev (c : CoreId) (z : ZIns)
  /-- PAR (R319): PAR writes the parity of source 1 and sets PF and Z. -/
  | zPar (c : CoreId) (z : ZIns)
  /-- CRC (R323): CRC runs one CRC step over source 1 in the CRC unit. -/
  | zCrc (c : CoreId) (z : ZIns)
  /-- IN (R330): IN reads a word from the core's IO-space, clearing RCL registers when its condition holds. -/
  | zIn (c : CoreId) (z : ZIns)
  /-- OUT (R330): OUT writes a word to the core's IO-space, posted to tiles where tile-backed. -/
  | zOut (c : CoreId) (z : ZIns)
  /-- IRD (R331): IRD reads a half or word from I-space. -/
  | zIrd (c : CoreId) (z : ZIns)
  /-- IWR (R331): IWR writes keeper I-space SRAM on the plumb pair and raises SPACE on an engine. -/
  | zIwr (c : CoreId) (z : ZIns)
  /-- MOVS (R326): MOVS copies elements from SRC to DST, repeated under RPT. lim: the iterations after which an interrupt line stops the repeat, if one does. -/
  | zMovs (c : CoreId) (z : ZIns) (lim : Option Nat)
  /-- FILS (R326): FILS fills elements at DST with source 1, repeated under RPT. lim: the iterations after which an interrupt line stops the repeat, if one does. -/
  | zFils (c : CoreId) (z : ZIns) (lim : Option Nat)
  /-- CMPS (R326): CMPS compares SRC and DST elements with optional early end. lim: the iterations after which an interrupt line stops the repeat, if one does. -/
  | zCmps (c : CoreId) (z : ZIns) (lim : Option Nat)
  /-- SCNS (R326): SCNS compares SRC elements with source 1 with optional early end. lim: the iterations after which an interrupt line stops the repeat, if one does. -/
  | zScns (c : CoreId) (z : ZIns) (lim : Option Nat)
  /-- CRCS (R326): CRCS runs CRC steps over elements at SRC. lim: the iterations after which an interrupt line stops the repeat, if one does. -/
  | zCrcs (c : CoreId) (z : ZIns) (lim : Option Nat)
  /-- PARS (R326): PARS accumulates the parity of elements at SRC into PF. lim: the iterations after which an interrupt line stops the repeat, if one does. -/
  | zPars (c : CoreId) (z : ZIns) (lim : Option Nat)
  /-- B (R322): B branches relative with two delay slots. -/
  | zB (c : CoreId) (z : ZIns)
  /-- BR (R322): BR branches to the address in source 1 with two delay slots. -/
  | zBr (c : CoreId) (z : ZIns)
  /-- CALL (R322): CALL pushes the return address and branches relative. -/
  | zCall (c : CoreId) (z : ZIns)
  /-- CALLR (R322): CALLR pushes the return address and branches to source 1. -/
  | zCallr (c : CoreId) (z : ZIns)
  /-- RET (R322): RET pops the return address from SP and branches with two delay slots. -/
  | zRet (c : CoreId) (z : ZIns)
  /-- RETE (R294): RETE resumes at EPC, restores IE and EXL, finishes pending delay slots or re-enters a repeat. -/
  | zRete (c : CoreId) (z : ZIns)
  /-- RPT (R325): RPT loads RC and pairs with the next string instruction, or raises ILLRPT. -/
  | zRpt (c : CoreId) (z : ZIns)
  /-- PULL (R332): PULL starts a block transfer from shared to local SRAM on a tag, or is DENIED. -/
  | zPull (c : CoreId) (z : ZIns)
  /-- PUSH (R332): PUSH starts a block transfer from local to shared SRAM on a tag, or is DENIED. -/
  | zPush (c : CoreId) (z : ZIns)
  /-- CRCSET (R323): CRCSET loads a CRC preset into CRCP, CRCF and CRCV. -/
  | zCrcset (c : CoreId) (z : ZIns)
  /-- PSET (R321): PSET sets, ANDs, ORs or inverts PF from a condition. -/
  | zPset (c : CoreId) (z : ZIns)
  /-- WAIT (R330): WAIT stops issue until an enabled interrupt line is pending. -/
  | zWait (c : CoreId) (z : ZIns)
  /-- NOP (R321): NOP does nothing. -/
  | zNop (c : CoreId) (z : ZIns)
  /-- ADDI (R321): Short-form ADDI adds an immediate 0-15. -/
  | zAddi (c : CoreId) (z : ZIns)
  /-- SUBI (R321): Short-form SUBI subtracts an immediate 0-15. -/
  | zSubi (c : CoreId) (z : ZIns)
  /-- MOVI (R321): Short-form MOVI loads an immediate 0-15. -/
  | zMovi (c : CoreId) (z : ZIns)
  /-- CMPI (R321): Short-form CMPI sets flags from a frame word minus an immediate. -/
  | zCmpi (c : CoreId) (z : ZIns)
  /-- SHLI (R321): Short-form SHLI shifts left by an immediate. -/
  | zShli (c : CoreId) (z : ZIns)
  /-- SHRI (R321): Short-form SHRI shifts right logically by an immediate. -/
  | zShri (c : CoreId) (z : ZIns)
  /-- INTERRUPT_ENTRY (R296): The highest pending enabled line is taken at an allowed boundary while IE is set. -/
  | interruptEntry (c : CoreId)
  /-- XF_COMPLETE (R289): A block transfer's last byte lands, setting its DONE bit and asserting line 9. -/
  | xfComplete (c : CoreId) (t : Fin 4)
  /-- WD_KICK (R298): A write to WD_KICK restarts and arms the watchdog with the right key, or counts as an expiry. -/
  | wdKick (e : Eng) (key : BitVec 32)
  /-- WD_FIRST_EXPIRY (R298): The engine watchdog expires a first time, raising WDOG and setting FIRST. -/
  | wdFirstExpiry (e : Eng)
  /-- WD_SECOND_EXPIRY (R298): No correct kick within 100 µs of the first expiry declares the engine failed with cause WD. -/
  | wdSecondExpiry (e : Eng)
  /-- CKPT_LATE_EXPIRY (R300): No checkpoint commit within CKPT_LATE declares the engine failed. -/
  | ckptLateExpiry (e : Eng)
  /-- ENG_CTRL_FAIL (R300): Setting ENG_CTRL FAIL declares the engine failed with cause SELF. -/
  | engCtrlFail (e : Eng)
  /-- ENG_CMD_FAIL_ENGINE (R310): ENG_CMD 0x01 declares the engine in ENG_ARG failed, or is refused BUSY. -/
  | engCmdFailEngine
  /-- CK_COMMIT (R301): A write to CK_COMMIT makes a checkpoint half committed and records TB, or is refused. -/
  | ckCommit (e : Eng) (half : Fin 2)
  /-- ADOPT_DONE_WRITE (R302): PE16 writes ADOPT DONE and the engine-owned deadlines hold again for the adopted ports. -/
  | adoptDoneWrite
  /-- ADOPT_TIMEOUT (R302): DONE is not written within 2 ms; PE16 is declared failed and the adopted ports enter SAFE_OFF. -/
  | adoptTimeout
  /-- BARRIER_OPEN (R305): The plumb pair opens a barrier by sending KCMD to each engine of a set. -/
  | barrierOpen (set : List Eng)
  /-- BAR_ARRIVE (R305): An engine sets BAR ARRIVE at the open barrier. -/
  | barArrive (e : Eng)
  /-- BARRIER_RELEASE (R305): After the last arrival RELEASED sets in every engine of the set and line 13 asserts. -/
  | barrierRelease
  /-- MB_TX_WRITE (R309): A word written to MB_TX joins the request DF, or is dropped with TX_OVF; a complete DF goes to the dictionary. -/
  | mbTxWrite (e : Eng) (w : BitVec 32)
  /-- MB_RX_READ (R297): A read of MB_RX removes the next response word. -/
  | mbRxRead (e : Eng)
  /-- MB_ABORT (R297): Setting MB_STAT ABORT discards the request in progress. -/
  | mbAbort (e : Eng)
  /-- KCMD_READ (R297): A read of KCMD returns and clears the command word from the plumb pair. -/
  | kcmdRead (e : Eng)
  /-- LOCKSTEP_MISMATCH (R307): Core A and B outputs differ; both halt, LOCKSTEP_COUNT counts and a KWDOG reset follows. -/
  | lockstepMismatch
  /-- KEEPER_WD_EXPIRY (R457): The keeper watchdog expires and a KWDOG reset with cause KWD follows. -/
  | keeperWdExpiry
  /-- KWD_KICK (R457): A write to KWD_KICK restarts the keeper watchdog, or with a wrong key expires it. -/
  | kwdKick (key : BitVec 32)
  /-- TB_LO_READ (R336): A read of TB_LO returns TB[31:0] and latches TB[63:32] for that requester. -/
  | tbLoRead (r : Requester)
  /-- PPS_IN_EDGE (R339): A PPS_IN edge is stamped and, when selected, disciplines TB and updates TB_LOCK. rise: whether it rises; frac: the fraction of the stamp, 1.25 ns. -/
  | ppsInEdge (rise : Bool) (frac : Fin 8)
  /-- SYNC_IN_EDGE (R339): A SYNC_IN edge is stamped and may discipline TB, start a skim, capture or wake. rise, frac: as for PPS_IN_EDGE. -/
  | syncInEdge (rise : Bool) (frac : Fin 8)
  /-- TB_DISC_NO_EDGE (R337): No disciplining edge for 2 s clears TB_LOCK and holds the rate. -/
  | tbDiscNoEdge
  /-- TB_STEP_WRITE (R338): A TB_STEP write schedules a forward step, or is refused BUSY. -/
  | tbStepWrite (n : Nat)
  /-- TB_STEP_APPLY (R338): On the next edge TB moves forward by N, as a burst for compares and generators. -/
  | tbStepApply
  /-- TBC_HI_WRITE (R340): A TBC_HI write arms the compare channel with the 64-bit value. -/
  | tbcHiWrite (c : CoreId) (m : Tbc) (v : BitVec 32)
  /-- TBC_FIRE (R340): TB reaches an armed compare value; FIRED sets, the event goes out and the channel disarms or steps. -/
  | tbcFire (m : Tbc)
  /-- COUNTER_WRAP (R341): A native counter wraps from 0xFFFF to 0, setting WRAP and counting its chained neighbour. -/
  | counterWrap (k : Ctr)
  /-- CT_COMPARE_MATCH (R343): A counter becomes equal to CMPA or CMPB and the compare event fires. b: CMPB, otherwise CMPA. -/
  | ctCompareMatch (k : Ctr) (b : Bool)
  /-- CT_CAPTURE (R344): A capture input arrives and CT_CAP takes the counter value, setting CAPF or OVRN. -/
  | ctCapture (k : Ctr)
  /-- CT_VAL_CHAIN_READ (R342): A read of a chain's lowest CT_VAL latches every higher counter into CT_SNAP. -/
  | ctValChainRead (c : CoreId) (k : Ctr)
  /-- CT_CAP_READ (R344): The owner's read of CT_CAP returns the capture and clears CAPF. -/
  | ctCapRead (c : CoreId) (k : Ctr)
  /-- TG_CMD_START (R345): TG_CMD 0x01 schedules the generator to start at TG_T0. -/
  | tgCmdStart (g : Tg)
  /-- TG_CMD_STOP (R345): TG_CMD 0x02 stops the generator on the next edge. -/
  | tgCmdStop (g : Tg)
  /-- TG_START_EDGE (R345): TB reaches TG_T0, the count is set to 0 and an event is emitted, with LATE if already passed. -/
  | tgStartEdge (g : Tg)
  /-- TG_EVENT (R345): The generator count becomes 0, emitting an event and taking any shadowed period. -/
  | tgEvent (g : Tg)
  /-- TG_PERIOD_WRITE (R346): A TG_PERIOD write is shadowed, or with IMMEDIATE takes effect at once, possibly restarting the count. -/
  | tgPeriodWrite (c : CoreId) (g : Tg) (v : BitVec 32)
  /-- AON_CATCHUP_TICK (R347): With PLL_B stopped each AONCLK tick advances TB and TBCLK counters in a burst. -/
  | aonCatchupTick
  /-- DF_READ (R362): A READ request returns each item's status, type and value, clearing RCL entries read. -/
  | dfRead (r : ReqHead) (items : List OdItem)
  /-- DF_WRITE (R365): A WRITE is checked whole and all items are written in one cycle, or nothing is written. -/
  | dfWrite (r : ReqHead) (items : List OdItem)
  /-- DF_WRITE_BROADCAST (R366): A WRITE with BROADCAST writes each port-0 item to all 64 ports, issuing broadcast PORT_CMDs. -/
  | dfWriteBroadcast (r : ReqHead) (items : List OdItem)
  /-- DF_STORE (R369): A STORE request, or 0x5354_4F52 at OD 0x1F00, snapshots stored values and starts writing the inactive bank. -/
  | dfStore (r : ReqHead)
  /-- STORE_COMPLETE (R369): The written bank is verified and made valid in a final write; the response and ALERT bit 13 follow. ok: the written bank verified. -/
  | storeComplete (ok : Bool)
  /-- DF_BULK_READ (R362): A BULK_READ returns up to 2,000 octets of a value from an offset. -/
  | dfBulkRead (r : ReqHead) (idx : BitVec 16) (sub : BitVec 8) (off : BitVec 32) (count : BitVec 16)
  /-- DF_CURSOR (R274): A CURSOR request sets the requester's cursor and returns the 256-octet window. -/
  | dfCursor (r : ReqHead) (cursor : BitVec 64)
  /-- DF_SKIM (R362): A SKIM request schedules a skim now or at T, as SKIM_CMD does. at_: T of an AT, none for NOW. -/
  | dfSkim (r : ReqHead) (at_ : Option (BitVec 64))
  /-- SESSION_OPEN (R357): SESSION OPEN exchanges ephemeral keys and nonces and derives the session key. -/
  | sessionOpen (r : ReqHead) (level : BitVec 8) (pub : List Byte) (nonce : List Byte)
  /-- SESSION_CONFIRM (R357): SESSION CONFIRM proves the host key and sets the session level, or fails with SESSION. plain: the opened body: the host's public key of 97 octets, three octets of padding, its signature. -/
  | sessionConfirm (r : ReqHead) (plain : List Byte)
  /-- SESSION_CLOSE (R359): SESSION CLOSE ends the session and erases its key. -/
  | sessionClose (r : ReqHead)
  /-- SESSION_IDLE_EXPIRY (R359): SESSION_IDLE seconds without an accepted sealed frame close the session. -/
  | sessionIdleExpiry (t : Transport)
  /-- DF_TOKEN (R415): A TOKEN request is checked and, if accepted, grants its scopes in the L2 session. -/
  | dfToken (r : ReqHead) (token : List Byte)
  /-- APPLY_STROBE (R367): The plumb pair issues an apply strobe and every group whose apply point holds takes its shadow values. -/
  | applyStrobe
  /-- RESTORE_DEFAULTS (R372): 0x4446_4C54 at OD 0x1F01 sets every RW and RWS entry outside the security area to its default. -/
  | restoreDefaults
  /-- RESET_REQUEST (R373): 0x5253_4554 at OD 0x1F10 causes a SOFT reset 1 ms after the response has left. -/
  | resetRequest
  /-- CAN_SEGMENT_RX (R376): A DF segment frame is received and added to the partial DF, completing or discarding it. seen: what CANA or CANB has met on its bus since the command before; form, id, octets: format, identifier and data field of the frame. -/
  | canSegmentRx (c : Fin 2) (seen : List CanEv) (form : CanForm) (id : BitVec 11) (octets : List Byte)
  /-- CAN_SEGMENT_TIMEOUT (R376): A gap of more than CAN_SEG_TIMEOUT discards the partial DF and counts DF_ERR. -/
  | canSegmentTimeout (c : Fin 2)
  /-- CAN_NODE0_SKIM (R377): An unsealed SKIM AT to node 0 schedules a skim at L0 with no response. at_: T of the SKIM; none where the request to node 0 is any other. -/
  | canNode0Skim (c : Fin 2) (at_ : Option (BitVec 64))
  /-- CAN_BUS_OFF (R374): A CAN controller reaches bus-off and CAN_BUSOFF counts. -/
  | canBusOff (c : Fin 2)
  /-- CAN_BUS_OFF_RECOVERY (R374): After 128 occurrences of 11 recessive bits the controller recovers from bus-off. -/
  | canBusOffRecovery (c : Fin 2)
  /-- TW_TARGET_WRITE (R378): A two-wire write transaction to the device's address streams octets into the request DF. -/
  | twTargetWrite (b : Bus) (octets : List Byte)
  /-- TW_TARGET_READ (R379): A two-wire read transaction streams the response DF from octet 0. n: octets that the controller takes. -/
  | twTargetRead (b : Bus) (n : Nat)
  /-- TW_DF_TIMEOUT (R378): A partial two-wire DF not completed within TW_DF_TIMEOUT is discarded and counted. -/
  | twDfTimeout (b : Bus)
  /-- ALERT_ACK (R380): Writing 1 to ALERT_ACK bits clears those ALERT_SRC bits. -/
  | alertAck (m : BitVec 32)
  /-- TW_CTL_GO (R390): TW_CTL_CMD 0x01 starts a controller transaction, or is refused. -/
  | twCtlGo (b : Bus)
  /-- TW_CTL_ABORT (R390): TW_CTL_CMD 0x02 ends the transaction after the octet in progress with result ABORTED. -/
  | twCtlAbort (b : Bus)
  /-- TW_BUS_FREE (R391): The bus becomes free and a waiting controller transaction or retry starts. taken: another node's START takes the bus first. -/
  | twBusFree (b : Bus) (taken : Bool)
  /-- TW_BUS_BUSY_TIMEOUT (R391): No free bus within 1 s ends the transaction with BUS_BUSY. -/
  | twBusBusyTimeout (b : Bus)
  /-- TW_CTL_COMPLETE (R392): The controller transaction ends with STOP and TW_CTL_RESULT, DONE and RDATA are set. -/
  | twCtlComplete (b : Bus) (o : TwEnd)
  /-- TW_ARB_LOST (R393): The device sends 1 while SDA reads 0, releases the lines and schedules a retry or ends ARB_LOST. mine: the winner addresses the device's own target, to read it or to write it. -/
  | twArbLost (b : Bus) (byte : Nat) (bit : Fin 8) (mine : Option Bool)
  /-- TW_COND_LOST (R395): Arbitration is lost during a STOP or repeated START and the transaction ends COND_LOST. -/
  | twCondLost (b : Bus) (acked : Nat)
  /-- TW_TARGET_START_AT_ACK (R389): A START where the target's acknowledge was due aborts the transaction and discards the partial DF. -/
  | twTargetStartAtAck (b : Bus)
  /-- TW_CTL_START_AT_ACK (R396): As controller, a START at a target ACK bit is taken as an arbitration loss with a retry. -/
  | twCtlStartAtAck (b : Bus) (byte : Nat)
  /-- TW_STRETCH_TIMEOUT (R397): SCL held low for TW_STRETCH_MAX self-resets the block with result STRETCH_TO. acked: write octets acknowledged. -/
  | twStretchTimeout (b : Bus) (acked : Nat)
  /-- TW_SCL_LOW_TIMEOUT (R398): SCL low for TW_SCL_LOW_TO sets SCL_STUCK and releases driven lines. acked: write octets of a controller transaction acknowledged. -/
  | twSclLowTimeout (b : Bus) (acked : Nat)
  /-- TW_SDA_LOW_TIMEOUT (R398): SDA low for TW_SDA_LOW_TO sets SDA_STUCK and may run a bus clear. freed: SDA reads high after the pulses of a bus clear. acked: as for TW_SCL_LOW_TIMEOUT. -/
  | twSdaLowTimeout (b : Bus) (freed : Bool) (acked : Nat)
  /-- TW_CMD_CLEAR_FLAGS (R398): TW_CMD 0x01 clears the sticky two-wire flags except ADDR_RESERVED. -/
  | twCmdClearFlags (b : Bus)
  /-- TW_CMD_CLEAR_COUNTERS (R400): TW_CMD 0x02 clears the two-wire counters. -/
  | twCmdClearCounters (b : Bus)
  /-- DEVICE_BOOT (R407): After a device-wide reset releases, the keeper ROM runs the boot steps to running firmware, the loader, or a held state. rom: step 1 passed; cs0, cs1: what the SFDP of the device on each chip select states, none where it is not fitted; copyOk: the engine copy still matched. -/
  | deviceBoot (rom : Bool) (cs0 cs1 : Option WallFound) (copyOk : Bool)
  /-- SEC_CMD_ADVANCE_FLOORS (R411): SEC_CMD 0x01 raises CNT1 and CNT2 to the image's security versions bit by bit. -/
  | secCmdAdvanceFloors (vpp : Bool)
  /-- SEC_CMD_ROTATE_IMAGE_KEY (R412): SEC_CMD 0x02 advances CNT4 to the next integrator image key slot, or is refused. -/
  | secCmdRotateImageKey (vpp : Bool)
  /-- SEC_CMD_REVOKE_TOKENS (R415): SEC_CMD 0x03 at L3 advances CNT3 so older tokens fail. -/
  | secCmdRevokeTokens (vpp : Bool)
  /-- SEC_CMD_DROP_TOKEN (R416): SEC_CMD 0x04 ends every token scope at once. -/
  | secCmdDropToken
  /-- CNT_ADVANCE (R439): A CNT_ADVANCE write advances an integrator counter CNT5-CNT31 by one. vpp: as for OTP_CMD_PROGRAM. -/
  | cntAdvance (k : Nat) (vpp : Bool)
  /-- TOKEN_EXPIRY (R416): NOT_AFTER passes and the token's scopes end. -/
  | tokenExpiry
  /-- IMG_CMD_ERASE (R413): IMG_CMD 0x01 erases the first 4 MiB of the spare slot. -/
  | imgCmdErase
  /-- IMG_ERASE_DONE (R413): The spare-slot erase completes and IMG_STATE reads EMPTY. -/
  | imgEraseDone
  /-- IMG_CHUNK (R413): An IMG_CHUNK write programs 1,024 octets at its offset in the spare slot. -/
  | imgChunk (off : Nat) (octets : List Byte)
  /-- IMG_CMD_VERIFY (R413): IMG_CMD 0x02 checks the spare slot and sets IMG_STATE VALID or INVALID. -/
  | imgCmdVerify
  /-- JTAG_TAP_INSTRUCTION (R417): A TAP instruction is loaded; BYPASS, SAMPLE/PRELOAD or EXTEST runs, EXTEST falling back to BYPASS unless allowed. -/
  | jtagTapInstruction (i : TapIns)
  /-- DEBUG_HALT (R417): The debug port halts a core, suspending its watchdog and CKPT_LATE. -/
  | debugHalt (c : CoreId)
  /-- OTP_CMD_READ (R424): OTP_CMD READ reads a word afresh at three references and reports its state. -/
  | otpCmdRead (via : OtpVia)
  /-- OTP_CMD_PROGRAM (R433): OTP_CMD PROGRAM burns a blank word in attempts, redirecting its row if it will not verify. raw: the RAW bit of the OTP_CMD word. vpp: the pump stands at 6.3 to 6.7 V within 2 ms. -/
  | otpCmdProgram (via : OtpVia) (raw : Bool) (vpp : Bool)
  /-- OTP_CMD_REPAIR (R435): OTP_CMD REPAIR redirects the row of a WEAK or BAD word without changing a finalised value. vpp: as for OTP_CMD_PROGRAM. -/
  | otpCmdRepair (via : OtpVia) (vpp : Bool)
  /-- OTP_CMD_FINALISE (R436): OTP_CMD FINALISE checks a region and burns its SHA-256 digest words. arg: the ARG field of the OTP_CMD word. vpp: as for OTP_CMD_PROGRAM. -/
  | otpCmdFinalise (via : OtpVia) (arg : Fin 32) (vpp : Bool)
  /-- OTP_CMD_ADVANCE (R439): OTP_CMD ADVANCE burns the lowest unset bit of a thermometer counter. arg: the ARG field of the OTP_CMD word. vpp: as for OTP_CMD_PROGRAM. -/
  | otpCmdAdvance (via : OtpVia) (arg : Fin 32) (vpp : Bool)
  /-- OTP_PUMP_STOP (R433): The OTP_VPP pump stops 100 ms after the last burning command. -/
  | otpPumpStop
  /-- LOCK_APP_SET (R431): A LOCK_APP_SET write sets sticky APP block locks. -/
  | lockAppSet (m : BitVec 16)
  /-- PS_CMD_ENTER (R448): PS_CMD ENTER starts entry to the target low-power state, or is refused with a reason. -/
  | psCmdEnter
  /-- PS_ENTRY_COMPLETE (R449): The last entry step for the target completes and the state is reached. -/
  | psEntryComplete
  /-- PS_CMD_EXIT (R450): PS_CMD EXIT in S1 or S2 acts as a wake event. -/
  | psCmdExit
  /-- WAKE_EVENT (R450): An enabled wake source acts and the exit to S0 begins, or an entry in progress unwinds. -/
  | wakeEvent (src : Fin 12)
  /-- PS_EXIT_COMPLETE (R450): The device reaches S0 with the plumb pair and engines executing. -/
  | psExitComplete
  /-- POR (R454): VAON rising through its power-on threshold resets the whole device. -/
  | por
  /-- BOR (R454): A supply below its brown-out threshold for 1 µs resets the whole device. -/
  | bor
  /-- PIN_RESET (R454): RESET_N low for at least 1 µs resets the device except the always-on domain. -/
  | pinReset
  /-- SOFT_RESET (R454): The SOFT reset requested through OD 0x1F10 takes place. -/
  | softReset
  /-- DEG_CMD_CLEAR_SAFE (R461): DEG_CMD 0x01 rechecks a port in SAFE_OFF with cause CHECK and returns it to UNATTACHED if both pass. -/
  | degCmdClearSafe
  /-- DEG_CMD_RETURN_ENGINE (R461): DEG_CMD 0x02 reloads an engine and hands its ports back from PE16 or starts them fresh. -/
  | degCmdReturnEngine
  /-- HANDBACK_REPORT (R461): PE16 reports completion of a handback and ownership moves back to the original engine. -/
  | handbackReport
  /-- HANDBACK_TIMEOUT (R461): PE16 has not reported within 2 ms and the handback is abandoned. -/
  | handbackTimeout
  /-- DEG_CMD_RESET_TILE (R461): DEG_CMD 0x03 asserts TRST on a failed tile and retrains its link. -/
  | degCmdResetTile
  /-- TILE_TRST_WRITE (R463): A TILE_TRST write asserts TRST to the named tiles for 10 µs. -/
  | tileTrstWrite (m : BitVec 8)
  /-- VDD_FE_UNDERVOLTAGE (R473): A tile's VDD_FE falls below its threshold; gates turn off and the tile is declared failed. -/
  | vddFeUndervoltage (n : Tile)
  /-- VCONN_UNDERVOLTAGE (R473): VCONN_Tn falls below its threshold; VCONN is removed and VCONN_UV recorded. -/
  | vconnUndervoltage (n : Tile)
  /-- VCONN_RECOVERY (R473): VCONN_Tn stands above its threshold for 10 µs and VCONN is reapplied to attached ports. -/
  | vconnRecovery (n : Tile)
  /-- REGISTER_WRITE (R11): A write to a register with no row of its own updates its RW, W1C or W1S fields per its access code. -/
  | registerWrite (c : CoreId) (addr : BitVec 16) (val : BitVec 32)
  /-- SHED_N_HIGH (R93): A peer releases SHED_N and the line goes high, starting the absence of the PEER cause and the 1 µs rearm of a stuck line. -/
  | shedNHigh
  /-- TURN_OFF_COMPLETE (R111): The gate-source voltage of a port's FET pair falls below 1.0 V, completing turn-off, after which discharge turns on and the FET_STUCK watch begins. x: VBUS at WIN_V, a DAC code. -/
  | turnOffComplete (p : Port) (x : Int)
  /-- DEBUG_RESUME (R417): The debug port releases a halted core, which resumes with its watchdog and CKPT_LATE running again. mem: the words that the port has written while the core was halted, in its core page and local memory: address, value. -/
  | debugResume (c : CoreId) (mem : List (BitVec 32 × BitVec 32))
  /-- OTP_COMMAND_END (R442): A running OTP command ends, setting OTP_STAT RESULT and OTP_EVENT DONE and releasing the held dictionary response. burns: the words burned, in the order in which the controller burns them. -/
  | otpCommandEnd (burns : List Burn)
  /-- RX_SOURCE_CAPABILITIES (R62): A sink-role port receives Source_Capabilities and answers with a Request drawn from SNK_PDO. -/
  | rxSourceCapabilities (p : Port) (id : Fin 8) (rev3 : Bool) (pdos : List Nat)
  /-- RX_ACCEPT (R63): Accept arrives for the device's own Request, swap or Soft_Reset and the AMS moves on. -/
  | rxAccept (p : Port) (id : Fin 8) (rev3 : Bool)
  /-- RX_REJECT (R63): Reject arrives for the device's own Request or swap and the AMS ends with roles unchanged. -/
  | rxReject (p : Port) (id : Fin 8) (rev3 : Bool)
  /-- RX_WAIT (R63): Wait arrives for the device's own Request or swap and the AMS ends for now. -/
  | rxWait (p : Port) (id : Fin 8) (rev3 : Bool)
  /-- RX_PS_RDY (R62): PS_RDY arrives from the partner during a PR_Swap, VCONN_Swap or sink contract and the swap or transition completes. -/
  | rxPsRdy (p : Port) (id : Fin 8) (rev3 : Bool)
  /-- RX_GET_SOURCE_CAP (R53): Get_Source_Cap on a source-capable port is answered with Source_Capabilities built under R53. -/
  | rxGetSourceCap (p : Port) (id : Fin 8) (rev3 : Bool)
  /-- RX_GET_SINK_CAP (R72): Get_Sink_Cap on a sink-capable port is answered with Sink_Capabilities, applying pending SNK_PDO. -/
  | rxGetSinkCap (p : Port) (id : Fin 8) (rev3 : Bool)
  /-- RX_GET_STATUS (R48): Get_Status is answered with Status carrying the thermal model temperature and power-path flags. -/
  | rxGetStatus (p : Port) (id : Fin 8) (rev3 : Bool)
  /-- RX_GET_PPS_STATUS (R48): Get_PPS_Status is answered with PPS_Status including the current-limit operating mode. -/
  | rxGetPpsStatus (p : Port) (id : Fin 8) (rev3 : Bool)
  /-- RX_GET_REVISION (R48): Get_Revision is answered with Revision 3.2. -/
  | rxGetRevision (p : Port) (id : Fin 8) (rev3 : Bool)
  /-- RX_GET_MANUFACTURER_INFO (R48): Get_Manufacturer_Info is answered with VID, PID and MFR_STRING. -/
  | rxGetManufacturerInfo (p : Port) (id : Fin 8) (rev3 : Bool)
  /-- RX_GET_SOURCE_INFO (R48): Get_Source_Info is answered with Source_Info of port type Shared from the ledger. -/
  | rxGetSourceInfo (p : Port) (id : Fin 8) (rev3 : Bool)
  /-- RX_GET_SOURCE_CAP_EXTENDED (R48): Get_Source_Cap_Extended is answered with Source_Capabilities_Extended from dictionary and ledger. -/
  | rxGetSourceCapExtended (p : Port) (id : Fin 8) (rev3 : Bool)
  /-- RX_FR_SWAP (R64): The FR_Swap message after the switch-over is received and the engine completes the Fast Role Swap exchange. -/
  | rxFrSwap (p : Port) (id : Fin 8) (rev3 : Bool)
  /-- RX_BIST (R48): A BIST message starts BIST Carrier Mode or Test Data in tile hardware, or is ignored for an unknown mode. -/
  | rxBist (p : Port) (id : Fin 8) (rev3 : Bool) (m : BistMode)
  /-- RX_CABLE_IDENTITY (R51): The cable's answer to SOP' Discover Identity arrives and sets CABLE_VDO, current, voltage and EPR qualification. -/
  | rxCableIdentity (p : Port) (c : CableVdo)
  deriving DecidableEq, Repr

end Sys2Proof
end

