-- ==== Sys2Proof/Decode.lean ====
section
/-! DEFINITION. The decoder of words by the table's bits: no row of the table gives bits, since the commands are events and operations
of a block, so no word spells one. Beside it, how the words of the Zamor-32 are cut into fields and which of them are defined (R311 to
R313, Tables 11.1 to 11.6). -/

namespace Sys2Proof

/-- The command that a word of `nbits` bits spells by the table: none. -/
def decodeTableWord (_ _ : Nat) : Option Instr := none

/-- Bit 15 of the first halfword tells a long form (R311). -/
def zIsLong (first : Nat) : Bool := first.testBit 15

/-- Bits `hi` to `lo` of a word. -/
def zBits (w hi lo : Nat) : Nat := w / 2 ^ lo % 2 ^ (hi + 1 - lo)

/-- The condition of an instruction of either width (R312). -/
def zCondOf (first : Nat) : Nat := zBits first 14 12

/-- A row of Tables 11.4 and 11.5: an opcode of the long form with the SIZE and SUB values that it defines and the specifiers that it
uses; an offset uses every field. -/
structure ZRow where
  op : Nat
  sizes : List Nat
  subs : List Nat
  s1 : Bool
  s2 : Bool
  d : Bool
  deriving DecidableEq, Repr

/-- The rows of Table 11.4, but for the string instructions. -/
def zDataRows : List ZRow :=
  [⟨0x00, [0, 1, 2], [0], true, false, true⟩, ⟨0x01, [0, 1, 2], [0, 1], true, true, true⟩,
    ⟨0x02, [0, 1, 2], [0, 1], true, true, true⟩, ⟨0x03, [0, 1, 2], [0, 1], true, true, true⟩,
    ⟨0x04, [0, 1, 2], [0], true, true, true⟩, ⟨0x05, [0, 1, 2], [0], true, true, true⟩,
    ⟨0x06, [0, 1, 2], [0, 1], true, false, true⟩, ⟨0x07, [0, 1, 2], [0, 1, 2, 3], true, true, true⟩,
    ⟨0x08, [0, 1, 2], [0, 1, 2], true, true, true⟩, ⟨0x09, [0, 1, 2], [0, 1, 2, 3], true, true, true⟩,
    ⟨0x0A, [0, 1, 2], [0, 1], true, true, false⟩, ⟨0x0B, [0, 1], [0, 1], true, false, true⟩,
    ⟨0x0C, [1], [0], true, false, true⟩, ⟨0x0C, [2], [0, 1, 2], true, false, true⟩,
    ⟨0x0D, [0, 1, 2], [0], true, false, true⟩, ⟨0x0E, [0, 1, 2], [0], true, false, true⟩,
    ⟨0x0F, [0, 1, 2], [0], true, false, false⟩, ⟨0x10, [2], [0], true, false, true⟩,
    ⟨0x11, [2], [0], true, true, false⟩, ⟨0x12, [1, 2], [0], true, false, true⟩, ⟨0x13, [1, 2], [0], true, true, false⟩]

/-- The string instructions (Tables 11.4 and 11.8). -/
def zStringRows : List ZRow :=
  [⟨0x18, [0, 1, 2], [0], false, false, false⟩, ⟨0x19, [0, 1, 2], [0], true, false, false⟩,
    ⟨0x1A, [0, 1, 2], [0, 1, 2], false, false, false⟩, ⟨0x1B, [0, 1, 2], [0, 1, 2], true, false, false⟩,
    ⟨0x1C, [0, 1, 2], [0], false, false, false⟩, ⟨0x1D, [0, 1, 2], [0], false, false, false⟩]

/-- The rows of Table 11.5. -/
def zControlRows : List ZRow :=
  [⟨0x00, [3], [0, 1, 2, 3], true, true, true⟩, ⟨0x01, [3], [0], true, false, false⟩,
    ⟨0x02, [3], [0, 1, 2, 3], true, true, true⟩, ⟨0x03, [3], [0], true, false, false⟩,
    ⟨0x04, [3], [0], false, false, false⟩, ⟨0x05, [3], [0], false, false, false⟩, ⟨0x06, [3], [0], true, false, false⟩,
    ⟨0x07, [3], [0, 1, 2, 3], true, true, true⟩, ⟨0x08, [3], [0, 1, 2, 3], true, true, true⟩,
    ⟨0x09, [3], [0, 1, 2], false, false, false⟩, ⟨0x0A, [3], [0, 1, 2, 3], false, false, true⟩,
    ⟨0x0B, [3], [0], false, false, false⟩, ⟨0x0C, [3], [0], false, false, false⟩]

/-- A long word that a row defines: its OP, SIZE and SUB, and 0 in every specifier that the row does not use (R313). -/
def ZRow.covers (r : ZRow) (w : Nat) : Bool :=
  decide (zBits w 27 22 = r.op) && r.sizes.contains (zBits w 21 20) && r.subs.contains (zBits w 1 0) &&
    (r.d || decide (zBits w 19 14 = 0)) && (r.s1 || decide (zBits w 13 8 = 0)) && (r.s2 || decide (zBits w 7 2 = 0))

/-- A defined short word (Table 11.6): every opcode but Misc, and Misc by its DN. -/
def zShortDefined (w : Nat) : Bool :=
  let dn := zBits w 7 4
  decide (zBits w 11 8 ≠ 15) || decide (dn < 2) || decide (dn = 5) || (decide (dn < 5) && decide (zBits w 3 0 = 0))

/-- A defined encoding (R313), from its first halfword and the next. -/
def zWordDefined (first next : Nat) : Bool :=
  if zIsLong first then (zDataRows ++ zStringRows ++ zControlRows).any fun r => r.covers (first % 65536 * 65536 + next % 65536)
  else zShortDefined first

end Sys2Proof
end

