-- ==== Sys2Proof/Config.lean ====
section
/-! DEFINITION. What the manual leaves open: values without a body, so that no proof can see what they are. A draw is
applied to the model's own counter `State.fresh`; the others to what the result depends on. -/

namespace Sys2Proof

/-- A free natural number, one per draw. -/
opaque Config.freeNat : Nat → Nat

/-- A free integer, one per draw. -/
opaque Config.freeInt : Nat → Int

/-- Which object of the offered Source_Capabilities a sink port requests, from the offer and its SNK_PDO entries: the
manual says only that the request is drawn from SNK_PDO (R62). -/
opaque Config.sinkPick : List Nat → List Int → Nat

/-- The AES-256-GCM tag over additional data with an empty plaintext: key, nonce, data (R98). -/
opaque Config.gcmTag : List Nat → List Nat → List Nat → List Nat

/-- The deterministic ECDSA signature on P-384 with SHA-384 of a message under a private key: r and s, 48 octets each (R230). -/
opaque Config.ecdsaSign : Nat → List Nat → List Nat

/-- SHA-256 of an octet string (R436). -/
opaque Config.sha256 : List Nat → List Nat

/-- SHA-384 of an octet string (R402, R405). -/
opaque Config.sha384 : List Nat → List Nat

/-- Whether an ECDSA signature on P-384 with SHA-384 verifies: public key, message, signature (R406, R415). -/
opaque Config.ecdsaVerify : List Nat → List Nat → List Nat → Bool

/-- The public key of a private key on P-384: 97 octets (R403). -/
opaque Config.identityPub : Nat → List Nat

/-- The default correction factors of a converter, from the words of the CAL bank in force: offsets, gains, stage trims. The manual
has the bank hold them and lays them out nowhere (R188, Table 7.1). -/
opaque Config.otpFactors : Nat → List (Option Nat) → List Int

/-- What the correction factors in force and the noise add to a conversion, in codes: converter, gain, factors, draw. The manual gives
the factors no arithmetic (R172, R188) and the noise a deviation only (R173). -/
opaque Config.convResidue : Nat → Nat → List Int → Nat → Int

/-- R0, c1 and c2 of the reference model, from the TRIMS words that hold them: the manual lays no trim out (R194, Table 16.3). -/
opaque Config.refModel : List (Option Nat) → Rat × Rat × Rat

/-- AES-256-GCM decryption: key, nonce, additional data, ciphertext, tag; none where the tag fails (R358). -/
opaque Config.gcmOpen : List Nat → List Nat → List Nat → List Nat → List Nat → Option (List Nat)

/-- AES-256-GCM encryption: key, nonce, additional data, plaintext; the ciphertext and the tag (R358). -/
opaque Config.gcmSeal : List Nat → List Nat → List Nat → List Nat → List Nat × List Nat

/-- The public key of an ephemeral key pair of the device, by the draw that chose it: 97 octets (R357). -/
opaque Config.ephemeralPub : Nat → List Nat

/-- The ECDH shared value, the 48-octet x-coordinate, of the ephemeral key of a draw and the host's public key (R357). -/
opaque Config.ecdh : Nat → List Nat → List Nat

/-- How many counters past the last accepted one the device tries on a sealed frame: the frame carries none (R358). -/
opaque Config.counterTries : Nat

/-- Free octets, so many of one draw. -/
opaque Config.freeOctets : Nat → Nat → List Nat

end Sys2Proof
end

