-- ==== Sys2Proof/Machine/Entries.lean ====
section
/-! DEFINITION. The entries of the object dictionary: one row per entry of the manual's entry tables (columns
Index:Sub, Name, Type, Access, Level, Default, Stored, with the permitted range of the Meaning column), the index
areas of Table 13.5 (R381), and a key for every entry by its name. A key is index × 256 + subindex; the key of an
entry that exists once per port, rail, converter, ... is relative to the area of its instance. -/

namespace Sys2Proof.Machine

/-- Table 13.1, the types of entry values (R354). -/
inductive Ty where
  | bool | u8 | u16 | u32 | u64 | i16 | i32 | i64 | q16 | q32
  | octets (n : Nat)
  | visible (n : Nat)
  deriving DecidableEq, Repr

/-- The access rights of R355. -/
inductive Access where
  | ro | rw | rws | wo | const | rcl
  deriving DecidableEq, Repr

/-- The index areas that repeat an entry per instance, and the area of single entries (R381). -/
inductive Area where
  | glob | port | slot | feed | cmp | conv | met | railMet | skimBank | rail | ct | tbc | tg | tw
  deriving DecidableEq, Repr

/-- One row of an entry table: the relative key of its first subindex, the number of subindices, and the row's
columns. `dflt` lists the defaults by subindex, its last element serving the rest. `lo` and `hi` bound the written
value and `mask` holds the defined bits of a bit-field entry (0 where the entry is a number). -/
structure Row where
  off : Nat
  n : Nat
  ty : Ty
  acc : Access
  lvl : Nat
  dflt : List Int
  stored : Bool
  lo : Int
  hi : Int
  mask : Nat
  deriving DecidableEq, Repr

/-! Keys of the glob area. -/
namespace K
/-- 0x1000:01 VENDOR_ID -/
abbrev vendorId : Nat := 0x100001
/-- 0x1000:02 PART_NUMBER -/
abbrev partNumber : Nat := 0x100002
/-- 0x1000:03 GRADE -/
abbrev grade : Nat := 0x100003
/-- 0x1000:04 SILICON_REV -/
abbrev siliconRev : Nat := 0x100004
/-- 0x1000:05 CAL_CERT_ID -/
abbrev calCertId : Nat := 0x100005
/-- 0x1000:06 SERIAL -/
abbrev serial : Nat := 0x100006
/-- 0x1000:07 FACTORY_CERT_ID -/
abbrev factoryCertId : Nat := 0x100007
/-- 0x5810:01–08 LATH_STATE -/
abbrev lathState : Nat := 0x581001
/-- 0x5811:01–08 LATH_ERR -/
abbrev lathErr : Nat := 0x581101
/-- 0x5811:09–10 LATH_HOLDS -/
abbrev lathHolds : Nat := 0x581109
/-- 0x5812:01 CLK_STATUS -/
abbrev clkStatus : Nat := 0x581201
/-- 0x3200:01 FEED_CAP_A -/
abbrev feedCapA : Nat := 0x320001
/-- 0x3200:02 FEED_CAP_B -/
abbrev feedCapB : Nat := 0x320002
/-- 0x3200:03 RESERVE -/
abbrev reserve : Nat := 0x320003
/-- 0x3200:04 SHED_MARGIN -/
abbrev shedMargin : Nat := 0x320004
/-- 0x3200:05 STAGGER -/
abbrev stagger : Nat := 0x320005
/-- 0x3200:06 RESTORE_DELAY -/
abbrev restoreDelay : Nat := 0x320006
/-- 0x3200:07 SHED_OUT_MASK -/
abbrev shedOutMask : Nat := 0x320007
/-- 0x3200:08 SHED_IN_EN -/
abbrev shedInEn : Nat := 0x320008
/-- 0x3200:09 STRIP_MODE -/
abbrev stripMode : Nat := 0x320009
/-- 0x3200:0A RESTART_HELD -/
abbrev restartHeld : Nat := 0x32000A
/-- 0x3201:01 LOCAL_LIMIT -/
abbrev localLimit : Nat := 0x320101
/-- 0x3201:02 BUDGET -/
abbrev budget : Nat := 0x320102
/-- 0x3201:03 RUNNING_SUM -/
abbrev runningSum : Nat := 0x320103
/-- 0x3201:04 FREE -/
abbrev free : Nat := 0x320104
/-- 0x3201:05 DEMAND -/
abbrev demand : Nat := 0x320105
/-- 0x3201:06 FEED_STATE -/
abbrev feedState : Nat := 0x320106
/-- 0x3201:07 LEDGER_FLAGS -/
abbrev ledgerFlags : Nat := 0x320107
/-- 0x3201:08 SHED_COUNT -/
abbrev shedCount : Nat := 0x320108
/-- 0x3201:09 SECOND_STAGE -/
abbrev secondStage : Nat := 0x320109
/-- 0x3201:0A LAST_SHED_TB -/
abbrev lastShedTb : Nat := 0x32010A
/-- 0x3202:01–03 DERATE_T1–T3 -/
abbrev derateT1 : Nat := 0x320201
/-- 0x3202:04–06 DERATE_PCT1–3 -/
abbrev deratePct1 : Nat := 0x320204
/-- 0x3202:07 SHELF_TEMP -/
abbrev shelfTemp : Nat := 0x320207
/-- 0x3202:08 DERATE_STEP -/
abbrev derateStep : Nat := 0x320208
/-- 0x3203:01 PEER_MASK -/
abbrev peerMask : Nat := 0x320301
/-- 0x3203:02 SHELF_CAP -/
abbrev shelfCap : Nat := 0x320302
/-- 0x3203:03 FLOOR -/
abbrev floor : Nat := 0x320303
/-- 0x3203:04 PEER_PCT -/
abbrev peerPct : Nat := 0x320304
/-- 0x3203:05 RECON_PERIOD -/
abbrev reconPeriod : Nat := 0x320305
/-- 0x3203:06 LEDGER_BUS -/
abbrev ledgerBus : Nat := 0x320306
/-- 0x3203:07 LEDGER_CAN_BASE -/
abbrev ledgerCanBase : Nat := 0x320307
/-- 0x3203:08 SHELF_KEY -/
abbrev shelfKey : Nat := 0x320308
/-- 0x3203:09 LEDGER_FRAME_ERR -/
abbrev ledgerFrameErr : Nat := 0x320309
/-- 0x3203:0A ROUND -/
abbrev round : Nat := 0x32030A
/-- 0x3204:01 LEDGER_CMD -/
abbrev ledgerCmd : Nat := 0x320401
/-- 0x3204:02 LEDGER_ARG -/
abbrev ledgerArg : Nat := 0x320402
/-- 0x3205:01 SHED_CMD -/
abbrev shedCmd : Nat := 0x320501
/-- 0x48C0:01 FAULT_MASK -/
abbrev faultMask : Nat := 0x48C001
/-- 0x48C0:02 PWRGD_KILL -/
abbrev pwrgdKill : Nat := 0x48C002
/-- 0x48C0:03 FAULT_SRC -/
abbrev faultSrc : Nat := 0x48C003
/-- 0x48C0:04 MASK_STATE -/
abbrev maskState : Nat := 0x48C004
/-- 0x48C0:05 SHD_COUNT -/
abbrev shdCount : Nat := 0x48C005
/-- 0x3580:01 CV_CMD -/
abbrev cvCmd : Nat := 0x358001
/-- 0x3580:02 CV_MASK -/
abbrev cvMask : Nat := 0x358002
/-- 0x3580:03 CAL_STATE -/
abbrev calState : Nat := 0x358003
/-- 0x3581:01–09 REFBUF_EN -/
abbrev refbufEn : Nat := 0x358101
/-- 0x3581:0A–12 REF_SETTLED -/
abbrev refSettled : Nat := 0x35810A
/-- 0x3582:01 REF_SEL -/
abbrev refSel : Nat := 0x358201
/-- 0x3582:02 REF_DIFF -/
abbrev refDiff : Nat := 0x358202
/-- 0x3582:03 REF_DIVERGE -/
abbrev refDiverge : Nat := 0x358203
/-- 0x3582:04 REF_DIVERGE_COUNT -/
abbrev refDivergeCount : Nat := 0x358204
/-- 0x3582:05 REF_AGE -/
abbrev refAge : Nat := 0x358205
/-- 0x3582:06 REF_AGED -/
abbrev refAged : Nat := 0x358206
/-- 0x3582:07 REF_REBASE -/
abbrev refRebase : Nat := 0x358207
/-- 0x3583:01 PLAUS_TOL -/
abbrev plausTol : Nat := 0x358301
/-- 0x3583:02 PLAUS_ABS -/
abbrev plausAbs : Nat := 0x358302
/-- 0x3583:03 PLAUS_N -/
abbrev plausN : Nat := 0x358303
/-- 0x3583:04 PLAUS_TIMEOUT -/
abbrev plausTimeout : Nat := 0x358304
/-- 0x35C0:01–12 TQ_CAP -/
abbrev tqCap : Nat := 0x35C001
/-- 0x35C1:01–12 TQ_LEVEL -/
abbrev tqLevel : Nat := 0x35C101
/-- 0x35C2:01–12 TQ_HIGH -/
abbrev tqHigh : Nat := 0x35C201
/-- 0x3600:01 REC_MASK -/
abbrev recMask : Nat := 0x360001
/-- 0x3600:02 REC_FEEDS -/
abbrev recFeeds : Nat := 0x360002
/-- 0x3600:03 INTERP_MAX -/
abbrev interpMax : Nat := 0x360003
/-- 0x3600:04 GAP_MAX -/
abbrev gapMax : Nat := 0x360004
/-- 0x3600:05 REC_PERIOD -/
abbrev recPeriod : Nat := 0x360005
/-- 0x3600:06 MET_CMD -/
abbrev metCmd : Nat := 0x360006
/-- 0x3601:01 ACC_START_TB -/
abbrev accStartTb : Nat := 0x360101
/-- 0x3601:02 CAL_GEN -/
abbrev calGen : Nat := 0x360102
/-- 0x3601:03 CAL_BANK -/
abbrev calBank : Nat := 0x360103
/-- 0x3601:04 CAL_DIGEST -/
abbrev calDigest : Nat := 0x360104
/-- 0x3601:05 COEF_STATE -/
abbrev coefState : Nat := 0x360105
/-- 0x3610:01 SKIM_CMD -/
abbrev skimCmd : Nat := 0x361001
/-- 0x3610:02 SKIM_T -/
abbrev skimT : Nat := 0x361002
/-- 0x3610:03 SKIM_STATE -/
abbrev skimState : Nat := 0x361003
/-- 0x3610:04 SKIM_SEQ -/
abbrev skimSeq : Nat := 0x361004
/-- 0x3610:05 SKIM_S -/
abbrev skimS : Nat := 0x361005
/-- 0x3610:06 SYNC_MODE -/
abbrev syncMode : Nat := 0x361006
/-- 0x3610:07 SKIM_MISSED -/
abbrev skimMissed : Nat := 0x361007
/-- 0x3620:01 REC_SKIM -/
abbrev recSkim : Nat := 0x362001
/-- 0x3620:02 REC_INTERVAL -/
abbrev recInterval : Nat := 0x362002
/-- 0x3620:03 REC_DEMAND -/
abbrev recDemand : Nat := 0x362003
/-- 0x3620:04 REC_SEQ -/
abbrev recSeq : Nat := 0x362004
/-- 0x3620:05 REC_FAIL -/
abbrev recFail : Nat := 0x362005
/-- 0x3620:06 REC_SKIP -/
abbrev recSkip : Nat := 0x362006
/-- 0x3008:01 SEQ_CMD -/
abbrev seqCmd : Nat := 0x300801
/-- 0x3008:02 SEQ_STATE -/
abbrev seqState : Nat := 0x300802
/-- 0x3008:03 SEQ_PHASE -/
abbrev seqPhase : Nat := 0x300803
/-- 0x3008:04 SEQ_AUTO -/
abbrev seqAuto : Nat := 0x300804
/-- 0x3008:05 PHASE_GAP -/
abbrev phaseGap : Nat := 0x300805
/-- 0x3008:06 AUTO_RESTART -/
abbrev autoRestart : Nat := 0x300806
/-- 0x3008:07 RESTART_DELAY -/
abbrev restartDelay : Nat := 0x300807
/-- 0x3008:08 RESTARTS_LEFT -/
abbrev restartsLeft : Nat := 0x300808
/-- 0x3009:01 PWRGD_SEL -/
abbrev pwrgdSel : Nat := 0x300901
/-- 0x3009:02 PWRGD_QUAL -/
abbrev pwrgdQual : Nat := 0x300902
/-- 0x3009:03 PWRGD_STRICT -/
abbrev pwrgdStrict : Nat := 0x300903
/-- 0x3009:04 PWRGD_STATE -/
abbrev pwrgdState : Nat := 0x300904
/-- 0x3009:05 PWRGD_PIN -/
abbrev pwrgdPin : Nat := 0x300905
/-- 0x300C:01 FF_LOG -/
abbrev ffLog : Nat := 0x300C01
/-- 0x300C:02 FF_VALID -/
abbrev ffValid : Nat := 0x300C02
/-- 0x300C:03 FF_LATER -/
abbrev ffLater : Nat := 0x300C03
/-- 0x300C:04 FF_CMD -/
abbrev ffCmd : Nat := 0x300C04
/-- 0x3800:01 FLUSH_ON -/
abbrev flushOn : Nat := 0x380001
/-- 0x3800:02 FLUSH_PERIOD -/
abbrev flushPeriod : Nat := 0x380002
/-- 0x3800:03 FLUSH_MIN_GAP -/
abbrev flushMinGap : Nat := 0x380003
/-- 0x3800:04 PF_EN -/
abbrev pfEn : Nat := 0x380004
/-- 0x3800:05 REC_CMD -/
abbrev recCmd : Nat := 0x380005
/-- 0x3800:06 REC_CLEAR -/
abbrev recClear : Nat := 0x380006
/-- 0x3801:01 HIST_BASE -/
abbrev histBase : Nat := 0x380101
/-- 0x3801:02 HIST_SIZE -/
abbrev histSize : Nat := 0x380102
/-- 0x3801:03 JRNL_BASE -/
abbrev jrnlBase : Nat := 0x380103
/-- 0x3801:04 JRNL_SIZE -/
abbrev jrnlSize : Nat := 0x380104
/-- 0x3801:05 WALL_SIZE -/
abbrev wallSize : Nat := 0x380105
/-- 0x3802:01 REC_STATE -/
abbrev recState : Nat := 0x380201
/-- 0x3802:02 FLUSH_SEQ -/
abbrev flushSeq : Nat := 0x380202
/-- 0x3802:03 LAST_FLUSH -/
abbrev lastFlush : Nat := 0x380203
/-- 0x3802:04 LAST_CAUSE -/
abbrev lastCause : Nat := 0x380204
/-- 0x3802:05 JRNL_HEAD -/
abbrev jrnlHead : Nat := 0x380205
/-- 0x3802:06 JRNL_DROP -/
abbrev jrnlDrop : Nat := 0x380206
/-- 0x3802:07 WALL_ERR -/
abbrev wallErr : Nat := 0x380207
/-- 0x3802:08 PF_COUNT -/
abbrev pfCount : Nat := 0x380208
/-- 0x3802:09 PF_LAST_US -/
abbrev pfLastUs : Nat := 0x380209
/-- 0x3802:0A OP_SECONDS -/
abbrev opSeconds : Nat := 0x38020A
/-- 0x3802:0B POWER_CYCLES -/
abbrev powerCycles : Nat := 0x38020B
/-- 0x3802:0C IMAGE_START -/
abbrev imageStart : Nat := 0x38020C
/-- 0x3810:01 CURSOR -/
abbrev cursor : Nat := 0x381001
/-- 0x3810:02 WINDOW -/
abbrev window : Nat := 0x381002
/-- 0x5820:01–11 ENG_STATE -/
abbrev engState : Nat := 0x582001
/-- 0x5821:01–11 ENG_CAUSE -/
abbrev engCause : Nat := 0x582101
/-- 0x5822:01–11 ENG_ECC -/
abbrev engEcc : Nat := 0x582201
/-- 0x5823:01–11 ENG_DENY -/
abbrev engDeny : Nat := 0x582301
/-- 0x5824:01 ADOPT_ENG -/
abbrev adoptEng : Nat := 0x582401
/-- 0x5824:02 ADOPT_TIME -/
abbrev adoptTime : Nat := 0x582402
/-- 0x5824:03 ADOPT_COUNT -/
abbrev adoptCount : Nat := 0x582403
/-- 0x5824:04 CKPT_LATE -/
abbrev ckptLate : Nat := 0x582404
/-- 0x5824:05 ENG_ARG -/
abbrev engArg : Nat := 0x582405
/-- 0x5824:06 ENG_CMD -/
abbrev engCmd : Nat := 0x582406
/-- 0x5825:01 LOCKSTEP_COUNT -/
abbrev lockstepCount : Nat := 0x582501
/-- 0x4400:01 TB -/
abbrev tb : Nat := 0x440001
/-- 0x4400:02 TB_SOURCE -/
abbrev tbSource : Nat := 0x440002
/-- 0x4400:03 TB_DISC -/
abbrev tbDisc : Nat := 0x440003
/-- 0x4400:04 TB_STEP -/
abbrev tbStep : Nat := 0x440004
/-- 0x4400:05 TB_RATE -/
abbrev tbRate : Nat := 0x440005
/-- 0x4400:06 TB_ERR -/
abbrev tbErr : Nat := 0x440006
/-- 0x4400:07 TB_LOCK -/
abbrev tbLock : Nat := 0x440007
/-- 0x4401:01 PPS_STAMP -/
abbrev ppsStamp : Nat := 0x440101
/-- 0x4401:02 PPS_FRAC -/
abbrev ppsFrac : Nat := 0x440102
/-- 0x4401:03 PPS_COUNT -/
abbrev ppsCount : Nat := 0x440103
/-- 0x4401:04 PPS_POL -/
abbrev ppsPol : Nat := 0x440104
/-- 0x4401:05 SYNC_STAMP -/
abbrev syncStamp : Nat := 0x440105
/-- 0x4401:06 SYNC_FRAC -/
abbrev syncFrac : Nat := 0x440106
/-- 0x4401:07 SYNC_COUNT -/
abbrev syncCount : Nat := 0x440107
/-- 0x4401:08 SYNC_POL -/
abbrev syncPol : Nat := 0x440108
/-- 0x1010:01 STORE_STATE -/
abbrev storeState : Nat := 0x101001
/-- 0x1010:02 STORE_COUNT_A -/
abbrev storeCountA : Nat := 0x101002
/-- 0x1010:03 STORE_COUNT_B -/
abbrev storeCountB : Nat := 0x101003
/-- 0x1010:04 NVM_STATE -/
abbrev nvmState : Nat := 0x101004
/-- 0x1010:05 LOAD_FIXUPS -/
abbrev loadFixups : Nat := 0x101005
/-- 0x1011:01–04 DF_ERR -/
abbrev dfErr : Nat := 0x101101
/-- 0x1011:05–08 SESSION_LEVEL -/
abbrev sessionLevel : Nat := 0x101105
/-- 0x1011:09 SESSION_IDLE -/
abbrev sessionIdle : Nat := 0x101109
/-- 0x1011:0A SESSION_FAILS -/
abbrev sessionFails : Nat := 0x10110A
/-- 0x1012:01 ALERT_SRC -/
abbrev alertSrc : Nat := 0x101201
/-- 0x1012:02 ALERT_MASK -/
abbrev alertMask : Nat := 0x101202
/-- 0x1012:03 ALERT_ACK -/
abbrev alertAck : Nat := 0x101203
/-- 0x1012:04 ALERT_PORTS -/
abbrev alertPorts : Nat := 0x101204
/-- 0x1013:01 TW_DF_TIMEOUT -/
abbrev twDfTimeout : Nat := 0x101301
/-- 0x1F00:01 STORE -/
abbrev store : Nat := 0x1F0001
/-- 0x1F01:01 RESTORE_DEFAULTS -/
abbrev restoreDefaults : Nat := 0x1F0101
/-- 0x1F10:01 RESET -/
abbrev reset : Nat := 0x1F1001
/-- 0x4200:01 CAN_NODE -/
abbrev canNode : Nat := 0x420001
/-- 0x4200:02 CAN_EN -/
abbrev canEn : Nat := 0x420002
/-- 0x4200:03 DF_REQ_BASE -/
abbrev dfReqBase : Nat := 0x420003
/-- 0x4200:04 DF_RSP_BASE -/
abbrev dfRspBase : Nat := 0x420004
/-- 0x4200:05 CAN_NOM_RATE -/
abbrev canNomRate : Nat := 0x420005
/-- 0x4200:06 CAN_DATA_RATE -/
abbrev canDataRate : Nat := 0x420006
/-- 0x4200:07 CAN_NOM_SP -/
abbrev canNomSp : Nat := 0x420007
/-- 0x4200:08 CAN_DATA_SP -/
abbrev canDataSp : Nat := 0x420008
/-- 0x4200:09 CAN_SEG_TIMEOUT -/
abbrev canSegTimeout : Nat := 0x420009
/-- 0x4200:0A CAN_BCAST_EN -/
abbrev canBcastEn : Nat := 0x42000A
/-- 0x4201:01–02 CAN_STATE -/
abbrev canState : Nat := 0x420101
/-- 0x4201:03–04 CAN_TEC -/
abbrev canTec : Nat := 0x420103
/-- 0x4201:05–06 CAN_REC -/
abbrev canRec : Nat := 0x420105
/-- 0x4202:01–02 CAN_BUSOFF -/
abbrev canBusoff : Nat := 0x420201
/-- 0x3C00:01 LIFECYCLE -/
abbrev lifecycle : Nat := 0x3C0001
/-- 0x3C00:02 BOOT_SLOT -/
abbrev bootSlot : Nat := 0x3C0002
/-- 0x3C00:03 IMAGE_VERSION -/
abbrev imageVersion : Nat := 0x3C0003
/-- 0x3C00:04 KEEPER_SVN -/
abbrev keeperSvn : Nat := 0x3C0004
/-- 0x3C00:05 ENGINE_SVN -/
abbrev engineSvn : Nat := 0x3C0005
/-- 0x3C00:06 KEEPER_FLOOR -/
abbrev keeperFloor : Nat := 0x3C0006
/-- 0x3C00:07 ENGINE_FLOOR -/
abbrev engineFloor : Nat := 0x3C0007
/-- 0x3C00:08 BOOT_FLAGS -/
abbrev bootFlags : Nat := 0x3C0008
/-- 0x3C01:01 DEVICE_PUB -/
abbrev devicePub : Nat := 0x3C0101
/-- 0x3C01:02 DEVICE_CERT -/
abbrev deviceCert : Nat := 0x3C0102
/-- 0x3C01:03 CA_CERT -/
abbrev caCert : Nat := 0x3C0103
/-- 0x3C02:01–08 OPERATOR_KEYS -/
abbrev operatorKeys : Nat := 0x3C0201
/-- 0x3C02:09–0C INTEGRATOR_KEYS -/
abbrev integratorKeys : Nat := 0x3C0209
/-- 0x3C03:01 TOKEN_CHALLENGE -/
abbrev tokenChallenge : Nat := 0x3C0301
/-- 0x3C03:02 TOKEN_EXPIRY -/
abbrev tokenExpiry : Nat := 0x3C0302
/-- 0x3C03:03 TOKEN_SCOPE -/
abbrev tokenScope : Nat := 0x3C0303
/-- 0x3C04:01–07 CAP -/
abbrev cap : Nat := 0x3C0401
/-- 0x3C05:01–07 OTP_CEIL -/
abbrev otpCeil : Nat := 0x3C0501
/-- 0x3C05:08 CLAMP_COUNT -/
abbrev clampCount : Nat := 0x3C0508
/-- 0x3C06:01 SEC_CMD -/
abbrev secCmd : Nat := 0x3C0601
/-- 0x3C06:02 CNT_ADVANCE -/
abbrev cntAdvance : Nat := 0x3C0602
/-- 0x3C06:03 CNT_VALUE -/
abbrev cntValue : Nat := 0x3C0603
/-- 0x3C07:01 IMG_CMD -/
abbrev imgCmd : Nat := 0x3C0701
/-- 0x3C07:02 IMG_CHUNK -/
abbrev imgChunk : Nat := 0x3C0702
/-- 0x3C07:03 IMG_STATE -/
abbrev imgState : Nat := 0x3C0703
/-- 0x5000:01 OTP_ADDR -/
abbrev otpAddr : Nat := 0x500001
/-- 0x5000:02 OTP_DATA -/
abbrev otpData : Nat := 0x500002
/-- 0x5000:03 OTP_ARG -/
abbrev otpArg : Nat := 0x500003
/-- 0x5000:04 OTP_CMD -/
abbrev otpCmd : Nat := 0x500004
/-- 0x5000:05 OTP_STAT -/
abbrev otpStat : Nat := 0x500005
/-- 0x5001:01–04 REGION_STATE -/
abbrev regionState : Nat := 0x500101
/-- 0x5002:01 LOCK_APP -/
abbrev lockApp : Nat := 0x500201
/-- 0x5002:02 LOCK_APP_SET -/
abbrev lockAppSet : Nat := 0x500202
/-- 0x5003:01 OTP_WEAK -/
abbrev otpWeak : Nat := 0x500301
/-- 0x5003:02 WEAK_COUNT -/
abbrev weakCount : Nat := 0x500302
/-- 0x5003:03 WEAK_LOG -/
abbrev weakLog : Nat := 0x500303
/-- 0x5003:04 CRIT_OUTVOTED -/
abbrev critOutvoted : Nat := 0x500304
/-- 0x5003:05 SPARE_USED -/
abbrev spareUsed : Nat := 0x500305
/-- 0x5003:06 REDIRECT -/
abbrev redirect : Nat := 0x500306
/-- 0x5004:01–20 CNT -/
abbrev cnt : Nat := 0x500401
/-- 0x5830:01 PS_TARGET -/
abbrev psTarget : Nat := 0x583001
/-- 0x5830:02 PS_CMD -/
abbrev psCmd : Nat := 0x583002
/-- 0x5830:03 PS_STATE -/
abbrev psState : Nat := 0x583003
/-- 0x5830:04 PS_REFUSE -/
abbrev psRefuse : Nat := 0x583004
/-- 0x5830:05 WAKE_EN -/
abbrev wakeEn : Nat := 0x583005
/-- 0x5830:06 LAST_WAKE -/
abbrev lastWake : Nat := 0x583006
/-- 0x5830:07 ENTRY_ABORTS -/
abbrev entryAborts : Nat := 0x583007
/-- 0x5831:01 RESET_CAUSE -/
abbrev resetCause : Nat := 0x583101
/-- 0x5831:02–06 RESET_COUNT -/
abbrev resetCount : Nat := 0x583102
/-- 0x5831:07 KWD_PERIOD -/
abbrev kwdPeriod : Nat := 0x583107
/-- 0x5832:01 DEG_FLAGS -/
abbrev degFlags : Nat := 0x583201
/-- 0x5832:02 SAFE_PORTS -/
abbrev safePorts : Nat := 0x583202
/-- 0x5832:03 DEG_CMD -/
abbrev degCmd : Nat := 0x583203
/-- 0x5832:04 DEG_ARG -/
abbrev degArg : Nat := 0x583204
/-- 0x5832:05 DEG_RESULT -/
abbrev degResult : Nat := 0x583205
/-- 0x5833:01–40 SAFE_CAUSE -/
abbrev safeCause : Nat := 0x583301
end K

/-! Keys of the port area. -/
namespace Kp
/-- Base+0x00:01 ROLE -/
abbrev role : Nat := 0x000001
/-- Base+0x00:02 TRY -/
abbrev tryE : Nat := 0x000002
/-- Base+0x00:03 RP_LEVEL -/
abbrev rpLevel : Nat := 0x000003
/-- Base+0x00:04 DRP_PERIOD -/
abbrev drpPeriod : Nat := 0x000004
/-- Base+0x00:05 DRP_DUTY -/
abbrev drpDuty : Nat := 0x000005
/-- Base+0x00:06 VCONN_EN -/
abbrev vconnEn : Nat := 0x000006
/-- Base+0x00:07 SWAP_POLICY -/
abbrev swapPolicy : Nat := 0x000007
/-- Base+0x00:08 EPR_EN -/
abbrev eprEn : Nat := 0x000008
/-- Base+0x00:09 DEBUG_VBUS -/
abbrev debugVbus : Nat := 0x000009
/-- Base+0x00:0A WAIT_ON_BUDGET -/
abbrev waitOnBudget : Nat := 0x00000A
/-- Base+0x01:01–07 SRC_PDO -/
abbrev srcPdo : Nat := 0x000101
/-- Base+0x02:01–04 EPR_PDO -/
abbrev eprPdo : Nat := 0x000201
/-- Base+0x03:01–07 SNK_PDO -/
abbrev snkPdo : Nat := 0x000301
/-- Base+0x04:01 USB_VID -/
abbrev usbVid : Nat := 0x000401
/-- Base+0x04:02 USB_PID -/
abbrev usbPid : Nat := 0x000402
/-- Base+0x04:03 BCD_DEVICE -/
abbrev bcdDevice : Nat := 0x000403
/-- Base+0x04:04 XID -/
abbrev xid : Nat := 0x000404
/-- Base+0x04:05 MFR_STRING -/
abbrev mfrString : Nat := 0x000405
/-- Base+0x05:01 ATTACH_STATE -/
abbrev attachState : Nat := 0x000501
/-- Base+0x05:02 ORIENT -/
abbrev orient : Nat := 0x000502
/-- Base+0x05:03 POWER_ROLE -/
abbrev powerRole : Nat := 0x000503
/-- Base+0x05:04 DATA_ROLE -/
abbrev dataRole : Nat := 0x000504
/-- Base+0x05:05 VCONN_STATE -/
abbrev vconnState : Nat := 0x000505
/-- Base+0x05:06 CONTRACT -/
abbrev contract : Nat := 0x000506
/-- Base+0x05:07 CONTRACT_POS -/
abbrev contractPos : Nat := 0x000507
/-- Base+0x05:08 CONTRACT_V -/
abbrev contractV : Nat := 0x000508
/-- Base+0x05:09 CONTRACT_I -/
abbrev contractI : Nat := 0x000509
/-- Base+0x05:0A PD_REV -/
abbrev pdRev : Nat := 0x00050A
/-- Base+0x05:0B PARTNER_FLAGS -/
abbrev partnerFlags : Nat := 0x00050B
/-- Base+0x05:0C PD_FAULT -/
abbrev pdFault : Nat := 0x00050C
/-- Base+0x05:0D AUTH_STATE -/
abbrev authState : Nat := 0x00050D
/-- Base+0x06:01 CABLE_VDO -/
abbrev cableVdo : Nat := 0x000601
/-- Base+0x06:02 CABLE_I_MAX -/
abbrev cableIMax : Nat := 0x000602
/-- Base+0x06:03 CABLE_V_MAX -/
abbrev cableVMax : Nat := 0x000603
/-- Base+0x06:04 CABLE_EPR -/
abbrev cableEpr : Nat := 0x000604
/-- Base+0x06:05 CABLE_STATE -/
abbrev cableState : Nat := 0x000605
/-- Base+0x07:01–0A PD_COUNTERS -/
abbrev pdCounters : Nat := 0x000701
/-- Base+0x08:01 T_CC_DEBOUNCE -/
abbrev tCcDebounce : Nat := 0x000801
/-- Base+0x08:02 T_SRC_TRANSITION -/
abbrev tSrcTransition : Nat := 0x000802
/-- Base+0x08:03 VBUS_SLEW -/
abbrev vbusSlew : Nat := 0x000803
/-- Base+0x08:04 T_EPR_KEEPALIVE -/
abbrev tEprKeepalive : Nat := 0x000804
/-- Base+0x08:05 T_PPS_TIMEOUT -/
abbrev tPpsTimeout : Nat := 0x000805
/-- Base+0x08:06 T_SENDER_RESPONSE -/
abbrev tSenderResponse : Nat := 0x000806
/-- Base+0x09:01 AUTH_POLICY -/
abbrev authPolicy : Nat := 0x000901
/-- Base+0x09:02–05 AUTH_ROOT -/
abbrev authRoot : Nat := 0x000902
/-- Base+0x0A:01 PORT_CMD -/
abbrev portCmd : Nat := 0x000A01
/-- Base+0x30:01 CLASS -/
abbrev classE : Nat := 0x003001
/-- Base+0x30:02 ALLOT -/
abbrev allot : Nat := 0x003002
/-- Base+0x30:03 ALLOT_SHED -/
abbrev allotShed : Nat := 0x003003
/-- Base+0x30:04 BOOKING -/
abbrev booking : Nat := 0x003004
/-- Base+0x30:05 LEDGER_STATE -/
abbrev ledgerState : Nat := 0x003005
/-- Base+0x30:06 DENY_COUNT -/
abbrev denyCount : Nat := 0x003006
/-- Base+0x30:07 RESTART_RESERVE -/
abbrev restartReserve : Nat := 0x003007
/-- Base+0x10:01 RSHUNT -/
abbrev rshunt : Nat := 0x001001
/-- Base+0x10:02 VSET_RT -/
abbrev vsetRt : Nat := 0x001002
/-- Base+0x10:03 VSET_RB -/
abbrev vsetRb : Nat := 0x001003
/-- Base+0x10:04 VSET_VFB -/
abbrev vsetVfb : Nat := 0x001004
/-- Base+0x10:05 GATE_ISINK -/
abbrev gateIsink : Nat := 0x001005
/-- Base+0x11:01 LIM_PCT -/
abbrev limPct : Nat := 0x001101
/-- Base+0x11:02 ILIM_MAX -/
abbrev ilimMax : Nat := 0x001102
/-- Base+0x11:03 SHORT_TH -/
abbrev shortTh : Nat := 0x001103
/-- Base+0x11:04 FAULT_TIME -/
abbrev faultTime : Nat := 0x001104
/-- Base+0x11:05 FT_CLEAR -/
abbrev ftClear : Nat := 0x001105
/-- Base+0x11:06 SHED_GRACE -/
abbrev shedGrace : Nat := 0x001106
/-- Base+0x11:07 KNEE_PCT -/
abbrev kneePct : Nat := 0x001107
/-- Base+0x11:08 I2T_LIMIT -/
abbrev i2tLimit : Nat := 0x001108
/-- Base+0x11:09 RCP_TH -/
abbrev rcpTh : Nat := 0x001109
/-- Base+0x12:01 RAMP_DVDT -/
abbrev rampDvdt : Nat := 0x001201
/-- Base+0x12:02 I_RAMP -/
abbrev iRamp : Nat := 0x001202
/-- Base+0x12:03 T_RAMP_MAX -/
abbrev tRampMax : Nat := 0x001203
/-- Base+0x12:04 PG_PCT -/
abbrev pgPct : Nat := 0x001204
/-- Base+0x12:05 OVP_PCT -/
abbrev ovpPct : Nat := 0x001205
/-- Base+0x12:06 PG_QUAL -/
abbrev pgQual : Nat := 0x001206
/-- Base+0x12:07 PG_STRICT -/
abbrev pgStrict : Nat := 0x001207
/-- Base+0x12:08 PG_DEGLITCH -/
abbrev pgDeglitch : Nat := 0x001208
/-- Base+0x12:09 DSCH_MAX -/
abbrev dschMax : Nat := 0x001209
/-- Base+0x13:01 SOA_P0 -/
abbrev soaP0 : Nat := 0x001301
/-- Base+0x13:02 SOA_E_MAX -/
abbrev soaEMax : Nat := 0x001302
/-- Base+0x13:03 NTC_RNOM -/
abbrev ntcRnom : Nat := 0x001303
/-- Base+0x13:04 NTC_BETA -/
abbrev ntcBeta : Nat := 0x001304
/-- Base+0x13:05 RTH_JN -/
abbrev rthJn : Nat := 0x001305
/-- Base+0x13:06 TAU_TH -/
abbrev tauTh : Nat := 0x001306
/-- Base+0x13:07 FET_TWARN -/
abbrev fetTwarn : Nat := 0x001307
/-- Base+0x13:08 FET_TMAX -/
abbrev fetTmax : Nat := 0x001308
/-- Base+0x13:09 NTC_DEFAULT_T -/
abbrev ntcDefaultT : Nat := 0x001309
/-- Base+0x13:0A R_PATH_MAX -/
abbrev rPathMax : Nat := 0x00130A
/-- Base+0x14:01 RETRY_COUNT -/
abbrev retryCount : Nat := 0x001401
/-- Base+0x14:02 RETRY_DELAY -/
abbrev retryDelay : Nat := 0x001402
/-- Base+0x14:03 RETRY_RESET -/
abbrev retryReset : Nat := 0x001403
/-- Base+0x15:01 PP_STATE -/
abbrev ppState : Nat := 0x001501
/-- Base+0x15:02 PP_FAULT -/
abbrev ppFault : Nat := 0x001502
/-- Base+0x15:03 PP_FAULT_SET -/
abbrev ppFaultSet : Nat := 0x001503
/-- Base+0x15:04 PG -/
abbrev pg : Nat := 0x001504
/-- Base+0x15:05 TJ_MODEL -/
abbrev tjModel : Nat := 0x001505
/-- Base+0x15:06 T_NTC -/
abbrev tNtc : Nat := 0x001506
/-- Base+0x15:07 I2T_NOW -/
abbrev i2tNow : Nat := 0x001507
/-- Base+0x15:08 SOA_NOW -/
abbrev soaNow : Nat := 0x001508
/-- Base+0x15:09 RETRY_LEFT -/
abbrev retryLeft : Nat := 0x001509
/-- Base+0x15:0A PP_FLAGS -/
abbrev ppFlags : Nat := 0x00150A
/-- Base+0x15:0B R_PATH_EST -/
abbrev rPathEst : Nat := 0x00150B
/-- Base+0x16:01–0E PP_FAULT_COUNT -/
abbrev ppFaultCount : Nat := 0x001601
/-- Base+0x1F:01 PP_CMD -/
abbrev ppCmd : Nat := 0x001F01
end Kp

/-! Keys of the slot area. -/
namespace Ks
/-- 0x3210+s:01 ST_TRIGGER -/
abbrev stTrigger : Nat := 0x000001
/-- 0x3210+s:02 ST_CUT -/
abbrev stCut : Nat := 0x000002
/-- 0x3210+s:03 ST_CAP_AFTER -/
abbrev stCapAfter : Nat := 0x000003
/-- 0x3210+s:04 ST_STATE -/
abbrev stState : Nat := 0x000004
/-- 0x3210+s:05 ST_SEQ -/
abbrev stSeq : Nat := 0x000005
/-- 0x3210+s:10–4F ST_ALLOT -/
abbrev stAllot : Nat := 0x000010
/-- 0x3210+s:50–8F ST_LIMIT -/
abbrev stLimit : Nat := 0x000050
end Ks

/-! Keys of the feed area. -/
namespace Kf
/-- F:01 FEED_EN -/
abbrev feedEn : Nat := 0x000001
/-- F:02 FEED_RSHUNT -/
abbrev feedRshunt : Nat := 0x000002
/-- F:03 FEED_ILIM -/
abbrev feedIlim : Nat := 0x000003
/-- F:04 FEED_SHORT -/
abbrev feedShort : Nat := 0x000004
/-- F:05 FEED_FAULT_TIME -/
abbrev feedFaultTime : Nat := 0x000005
/-- F:06 FEED_DVDT -/
abbrev feedDvdt : Nat := 0x000006
/-- F:07 FEED_I_RAMP -/
abbrev feedIRamp : Nat := 0x000007
/-- F:08 FEED_T_RAMP_MAX -/
abbrev feedTRampMax : Nat := 0x000008
/-- F:09 FEED_UV -/
abbrev feedUv : Nat := 0x000009
/-- F:0A FEED_OV -/
abbrev feedOv : Nat := 0x00000A
/-- F:0B FEED_LOSS_V -/
abbrev feedLossV : Nat := 0x00000B
/-- F:0C FEED_RCP -/
abbrev feedRcp : Nat := 0x00000C
/-- F:0D FEED_PG_DROP -/
abbrev feedPgDrop : Nat := 0x00000D
/-- F:0E FEED_PG_QUAL -/
abbrev feedPgQual : Nat := 0x00000E
/-- F:0F SEAT_DEBOUNCE -/
abbrev seatDebounce : Nat := 0x00000F
/-- F:10 FEED_SOA_P0 -/
abbrev feedSoaP0 : Nat := 0x000010
/-- F:11 FEED_SOA_E -/
abbrev feedSoaE : Nat := 0x000011
/-- F:20 FEED_HS_STATE -/
abbrev feedHsState : Nat := 0x000020
/-- F:21 FEED_FAULT -/
abbrev feedFault : Nat := 0x000021
/-- F:22 LOSS_CAUSE -/
abbrev lossCause : Nat := 0x000022
/-- F:23 FEED_FLAGS -/
abbrev feedFlags : Nat := 0x000023
/-- F:24 FEED_LOSS_COUNT -/
abbrev feedLossCount : Nat := 0x000024
/-- F:30 FEED_CMD -/
abbrev feedCmd : Nat := 0x000030
end Kf

/-! Keys of the cmp area. -/
namespace Kc
/-- 0x4800+c:01 MODE -/
abbrev mode : Nat := 0x000001
/-- 0x4800+c:02 IDLE_MODE -/
abbrev idleMode : Nat := 0x000002
/-- 0x4800+c:03 HYST_H -/
abbrev hystH : Nat := 0x000003
/-- 0x4800+c:04 HYST_L -/
abbrev hystL : Nat := 0x000004
/-- 0x4800+c:05 LATCH_CLR -/
abbrev latchClr : Nat := 0x000005
/-- 0x4800+c:06 EVAL_PERIOD -/
abbrev evalPeriod : Nat := 0x000006
/-- 0x4800+c:07 HI_CODE -/
abbrev hiCode : Nat := 0x000007
/-- 0x4800+c:08 LO_CODE -/
abbrev loCode : Nat := 0x000008
/-- 0x4800+c:09 CMP_STATUS -/
abbrev cmpStatus : Nat := 0x000009
/-- 0x4800+c:0A CMP_CMD -/
abbrev cmpCmd : Nat := 0x00000A
/-- 0x4800+c:0B CHK_COUNT -/
abbrev chkCount : Nat := 0x00000B
end Kc

/-! Keys of the conv area. -/
namespace Kv
/-- CVB+0x0:01 SEQ_LEN -/
abbrev seqLen : Nat := 0x000001
/-- CVB+0x0:02 SEQ_TRIG -/
abbrev seqTrig : Nat := 0x000002
/-- CVB+0x0:03 SEQ_DELAY -/
abbrev seqDelay : Nat := 0x000003
/-- CVB+0x0:04 INJ_POLICY -/
abbrev injPolicy : Nat := 0x000004
/-- CVB+0x0:05 INJ_TRIG -/
abbrev injTrig : Nat := 0x000005
/-- CVB+0x0:06 INJ_ENTRY -/
abbrev injEntry : Nat := 0x000006
/-- CVB+0x1:01–20 SEQ_ENTRY -/
abbrev seqEntry : Nat := 0x000101
/-- CVB+0x2:01–20 RESULT -/
abbrev result : Nat := 0x000201
/-- CVB+0x3:01 CV_STATUS -/
abbrev cvStatus : Nat := 0x000301
/-- CVB+0x3:02 TRIG_OVRN -/
abbrev trigOvrn : Nat := 0x000302
/-- CVB+0x3:03–06 INJ_DROP -/
abbrev injDrop : Nat := 0x000303
/-- CVB+0x3:07 TAGQ_DROP -/
abbrev tagqDrop : Nat := 0x000307
/-- CVB+0x3:08 OVR_COUNT -/
abbrev ovrCount : Nat := 0x000308
/-- CVB+0x3:09 PLAUS_FAILS -/
abbrev plausFails : Nat := 0x000309
/-- CVB+0x3:0A PLAUS_SKEW -/
abbrev plausSkew : Nat := 0x00030A
/-- CVB+0x3:0B PASS_COUNT -/
abbrev passCount : Nat := 0x00030B
/-- CVB+0x3:0C MIRROR_LOST -/
abbrev mirrorLost : Nat := 0x00030C
/-- CVB+0x4:01–05 CAL_OFFSET -/
abbrev calOffset : Nat := 0x000401
/-- CVB+0x4:06–0A CAL_GAIN -/
abbrev calGain : Nat := 0x000406
/-- CVB+0x4:0B–16 STAGE_TRIM -/
abbrev stageTrim : Nat := 0x00040B
/-- CVB+0x5:01 CAL_IMAGE -/
abbrev calImage : Nat := 0x000501
end Kv

/-! Keys of the met area. -/
namespace Km
/-- 0x3640+ch:01–03 V_NOW, I_NOW, P_NOW -/
abbrev vNow : Nat := 0x000001
/-- 0x3640+ch:01–03 V_NOW, I_NOW, P_NOW -/
abbrev iNow : Nat := 0x000002
/-- 0x3640+ch:01–03 V_NOW, I_NOW, P_NOW -/
abbrev pNow : Nat := 0x000003
/-- 0x3640+ch:04–06 V_AVG -/
abbrev vAvg : Nat := 0x000004
/-- 0x3640+ch:07–09 I_AVG -/
abbrev iAvg : Nat := 0x000007
/-- 0x3640+ch:0A–0C P_AVG -/
abbrev pAvg : Nat := 0x00000A
/-- 0x3640+ch:0D–0E E_FWD, E_REV -/
abbrev eFwd : Nat := 0x00000D
/-- 0x3640+ch:0D–0E E_FWD, E_REV -/
abbrev eRev : Nat := 0x00000E
/-- 0x3640+ch:0F–10 Q_FWD, Q_REV -/
abbrev qFwd : Nat := 0x00000F
/-- 0x3640+ch:0F–10 Q_FWD, Q_REV -/
abbrev qRev : Nat := 0x000010
/-- 0x3640+ch:11 EPOCH -/
abbrev epoch : Nat := 0x000011
/-- 0x3640+ch:12 MET_FLAGS -/
abbrev metFlags : Nat := 0x000012
/-- 0x3640+ch:13–14 UNCERTAIN_TIME, GAP_TIME -/
abbrev uncertainTime : Nat := 0x000013
/-- 0x3640+ch:13–14 UNCERTAIN_TIME, GAP_TIME -/
abbrev gapTime : Nat := 0x000014
/-- 0x3640+ch:15 VOUT_AVG -/
abbrev voutAvg : Nat := 0x000015
/-- 0x3640+ch:20–21 USER_GAIN_V, USER_GAIN_I -/
abbrev userGainV : Nat := 0x000020
/-- 0x3640+ch:20–21 USER_GAIN_V, USER_GAIN_I -/
abbrev userGainI : Nat := 0x000021
end Km

/-! Keys of the railMet area. -/
namespace Kq
/-- 0x36A0+n:01–03 RAIL_V_AVG -/
abbrev railVAvg : Nat := 0x000001
/-- 0x36A0+n:04 RAIL_FLAGS -/
abbrev railFlags : Nat := 0x000004
end Kq

/-! Keys of the skimBank area. -/
namespace Kb
/-- 0x3700+ch:01–08 SKIM_BANK -/
abbrev skimBank : Nat := 0x000001
end Kb

/-! Keys of the rail area. -/
namespace Kr
/-- RB+0x0:01 RAIL_PHASE -/
abbrev railPhase : Nat := 0x000001
/-- RB+0x0:02 START_DELAY -/
abbrev startDelay : Nat := 0x000002
/-- RB+0x0:03 STOP_DELAY -/
abbrev stopDelay : Nat := 0x000003
/-- RB+0x0:04 EN_POL -/
abbrev enPol : Nat := 0x000004
/-- RB+0x0:05 FAULT_ACTION -/
abbrev faultAction : Nat := 0x000005
/-- RB+0x0:06 OV_FAST -/
abbrev ovFast : Nat := 0x000006
/-- RB+0x1:01 V_NOM -/
abbrev vNom : Nat := 0x000101
/-- RB+0x1:02 SNS_GAIN -/
abbrev snsGain : Nat := 0x000102
/-- RB+0x1:03 PG_LO_PCT -/
abbrev pgLoPct : Nat := 0x000103
/-- RB+0x1:04 PG_HI_PCT -/
abbrev pgHiPct : Nat := 0x000104
/-- RB+0x1:05 RISE_TIMEOUT -/
abbrev riseTimeout : Nat := 0x000105
/-- RB+0x1:06 PG_QUAL -/
abbrev pgQual : Nat := 0x000106
/-- RB+0x1:07 RAIL_FAULT_TIME -/
abbrev railFaultTime : Nat := 0x000107
/-- RB+0x1:08 RAIL_FT_CLEAR -/
abbrev railFtClear : Nat := 0x000108
/-- RB+0x1:09 PG_STRICT -/
abbrev pgStrict : Nat := 0x000109
/-- RB+0x1:0A OFF_TH -/
abbrev offTh : Nat := 0x00010A
/-- RB+0x1:0B FALL_TIMEOUT -/
abbrev fallTimeout : Nat := 0x00010B
/-- RB+0x2:01 MGN_MODE -/
abbrev mgnMode : Nat := 0x000201
/-- RB+0x2:02 MGN_CODE -/
abbrev mgnCode : Nat := 0x000202
/-- RB+0x2:03 MGN_TARGET -/
abbrev mgnTarget : Nat := 0x000203
/-- RB+0x2:04 MGN_POL -/
abbrev mgnPol : Nat := 0x000204
/-- RB+0x2:05 MGN_LIMIT_LO -/
abbrev mgnLimitLo : Nat := 0x000205
/-- RB+0x2:06 MGN_LIMIT_HI -/
abbrev mgnLimitHi : Nat := 0x000206
/-- RB+0x2:07 MGN_STEP_T -/
abbrev mgnStepT : Nat := 0x000207
/-- RB+0x2:08 MGN_TOL -/
abbrev mgnTol : Nat := 0x000208
/-- RB+0x2:09 MGN_TIMEOUT -/
abbrev mgnTimeout : Nat := 0x000209
/-- RB+0x3:01 RAIL_STATE -/
abbrev railState : Nat := 0x000301
/-- RB+0x3:02 RAIL_PG -/
abbrev railPg : Nat := 0x000302
/-- RB+0x3:03 RAIL_FAULT -/
abbrev railFault : Nat := 0x000303
/-- RB+0x3:04 MGN_STATUS -/
abbrev mgnStatus : Nat := 0x000304
/-- RB+0x3:05 MGN_CODE_NOW -/
abbrev mgnCodeNow : Nat := 0x000305
/-- RB+0x3:06 RAIL_FAULT_COUNT -/
abbrev railFaultCount : Nat := 0x000306
/-- RB+0x3:07 RISE_TIME -/
abbrev riseTime : Nat := 0x000307
end Kr

/-! Keys of the ct area. -/
namespace Kt
/-- 0x4410+k:01 CT_SRC -/
abbrev ctSrc : Nat := 0x000001
/-- 0x4410+k:02 CT_DIV -/
abbrev ctDiv : Nat := 0x000002
/-- 0x4410+k:03 CT_CAP_SRC -/
abbrev ctCapSrc : Nat := 0x000003
/-- 0x4410+k:04 CT_WIDE -/
abbrev ctWide : Nat := 0x000004
/-- 0x4410+k:05 CT_OWNER -/
abbrev ctOwner : Nat := 0x000005
/-- 0x4410+k:06 CT_CHAIN -/
abbrev ctChain : Nat := 0x000006
end Kt

/-! Keys of the tbc area. -/
namespace Ku
/-- 0x4430+m:01 TBC_OWNER -/
abbrev tbcOwner : Nat := 0x000001
end Ku

/-! Keys of the tg area. -/
namespace Kx
/-- 0x4450+g:01 TG_DIV -/
abbrev tgDiv : Nat := 0x000001
/-- 0x4450+g:02 TG_T0 -/
abbrev tgT0 : Nat := 0x000002
/-- 0x4450+g:03 TG_CMD -/
abbrev tgCmd : Nat := 0x000003
/-- 0x4450+g:04 TG_OWNER -/
abbrev tgOwner : Nat := 0x000004
/-- 0x4450+g:05 TG_BURST_SKIP -/
abbrev tgBurstSkip : Nat := 0x000005
end Kx

/-! Keys of the tw area. -/
namespace Kw
/-- TWB+0x00:01 TW_SPEED -/
abbrev twSpeed : Nat := 0x000001
/-- TWB+0x00:02 TW_ROLE -/
abbrev twRole : Nat := 0x000002
/-- TWB+0x00:03 TW_STRETCH_MAX -/
abbrev twStretchMax : Nat := 0x000003
/-- TWB+0x00:04 TW_SCL_LOW_TO -/
abbrev twSclLowTo : Nat := 0x000004
/-- TWB+0x00:05 TW_SDA_LOW_TO -/
abbrev twSdaLowTo : Nat := 0x000005
/-- TWB+0x00:06 TW_BUS_CLEAR -/
abbrev twBusClear : Nat := 0x000006
/-- TWB+0x00:07 TW_CTL_RETRIES -/
abbrev twCtlRetries : Nat := 0x000007
/-- TWB+0x01:01 TW_ADDR -/
abbrev twAddr : Nat := 0x000101
/-- TWB+0x01:02 TW_STATE -/
abbrev twState : Nat := 0x000102
/-- TWB+0x01:03 TW_LINES -/
abbrev twLines : Nat := 0x000103
/-- TWB+0x01:04 TW_FLAGS -/
abbrev twFlags : Nat := 0x000104
/-- TWB+0x01:05 TW_ARB_POS -/
abbrev twArbPos : Nat := 0x000105
/-- TWB+0x01:06–0B TW_COUNT -/
abbrev twCount : Nat := 0x000106
/-- TWB+0x01:0C TW_CMD -/
abbrev twCmd : Nat := 0x00010C
/-- TWB+0x02:01 TW_CTL_TARGET -/
abbrev twCtlTarget : Nat := 0x000201
/-- TWB+0x02:02 TW_CTL_WDATA -/
abbrev twCtlWdata : Nat := 0x000202
/-- TWB+0x02:03 TW_CTL_WLEN -/
abbrev twCtlWlen : Nat := 0x000203
/-- TWB+0x02:04 TW_CTL_RLEN -/
abbrev twCtlRlen : Nat := 0x000204
/-- TWB+0x02:05 TW_CTL_CMD -/
abbrev twCtlCmd : Nat := 0x000205
/-- TWB+0x02:06 TW_CTL_RESULT -/
abbrev twCtlResult : Nat := 0x000206
/-- TWB+0x02:07 TW_CTL_DONE -/
abbrev twCtlDone : Nat := 0x000207
/-- TWB+0x02:08 TW_CTL_RDATA -/
abbrev twCtlRdata : Nat := 0x000208
/-- TWB+0x02:09 TW_CTL_TRIES -/
abbrev twCtlTries : Nat := 0x000209
end Kw

/-- Entry rows of the glob area. -/
def rowsGlob0 : List Row := [
  ⟨0x100001, 1, .u32, .const, 0, [1313623379], false, 0, 4294967295, 0⟩,
  ⟨0x100002, 1, .u32, .const, 0, [25664], false, 0, 4294967295, 0⟩,
  ⟨0x100003, 1, .u8, .const, 0, [0], false, 1, 2, 0⟩,
  ⟨0x100004, 1, .u8, .const, 0, [0], false, 0, 255, 0⟩,
  ⟨0x100005, 1, .u32, .const, 0, [0], false, 0, 4294967295, 0⟩,
  ⟨0x100006, 1, .u64, .const, 0, [0], false, 0, 18446744073709551615, 0⟩,
  ⟨0x100007, 1, .u32, .const, 0, [0], false, 0, 4294967295, 0⟩,
  ⟨0x581001, 8, .u8, .ro, 0, [0], false, 0, 3, 0⟩,
  ⟨0x581101, 8, .u32, .ro, 0, [0], false, 0, 4294967295, 0⟩,
  ⟨0x581109, 8, .u16, .ro, 0, [0], false, 0, 65535, 0⟩,
  ⟨0x581201, 1, .u8, .ro, 0, [0], false, 0, 255, 0⟩,
  ⟨0x320001, 1, .u32, .rws, 2, [80000], true, 0, 80000, 0⟩,
  ⟨0x320002, 1, .u32, .rws, 2, [80000], true, 0, 80000, 0⟩,
  ⟨0x320003, 1, .u32, .rws, 2, [2000], true, 0, 4294967295, 0⟩,
  ⟨0x320004, 1, .u8, .rws, 2, [5], true, 0, 50, 0⟩,
  ⟨0x320005, 1, .u16, .rws, 2, [5], true, 1, 1000, 0⟩,
  ⟨0x320006, 1, .u16, .rws, 2, [1000], true, 100, 60000, 0⟩,
  ⟨0x320007, 1, .u8, .rws, 2, [3], true, 0, 255, 127⟩,
  ⟨0x320008, 1, .bool, .rws, 2, [1], true, 0, 1, 0⟩,
  ⟨0x320009, 1, .u8, .rws, 2, [0], true, 0, 1, 0⟩,
  ⟨0x32000A, 1, .u32, .ro, 0, [0], false, 0, 4294967295, 0⟩,
  ⟨0x320101, 1, .u32, .ro, 0, [0], false, 0, 4294967295, 0⟩,
  ⟨0x320102, 1, .u32, .ro, 0, [0], false, 0, 4294967295, 0⟩,
  ⟨0x320103, 1, .u32, .ro, 0, [0], false, 0, 4294967295, 0⟩,
  ⟨0x320104, 1, .u32, .ro, 0, [0], false, 0, 4294967295, 0⟩,
  ⟨0x320105, 1, .u32, .ro, 0, [0], false, 0, 4294967295, 0⟩,
  ⟨0x320106, 1, .u8, .ro, 0, [0], false, 0, 255, 0⟩,
  ⟨0x320107, 1, .u16, .ro, 0, [0], false, 0, 65535, 0⟩,
  ⟨0x320108, 1, .u32, .ro, 0, [0], false, 0, 4294967295, 0⟩,
  ⟨0x320109, 1, .u32, .ro, 0, [0], false, 0, 4294967295, 0⟩,
  ⟨0x32010A, 1, .u64, .ro, 0, [0], false, 0, 18446744073709551615, 0⟩,
  ⟨0x320201, 3, .i16, .rws, 2, [105, 115, 120], true, (-32768), 32767, 0⟩,
  ⟨0x320204, 3, .u8, .rws, 2, [80, 60, 40], true, 0, 255, 0⟩,
  ⟨0x320207, 1, .i16, .rw, 1, [(-32768)], false, (-32768), 32767, 0⟩,
  ⟨0x320208, 1, .u8, .ro, 0, [0], false, 0, 3, 0⟩,
  ⟨0x320301, 1, (.octets 16), .rws, 2, [0], true, 0, 0, 0⟩,
  ⟨0x320302, 1, .u32, .rws, 2, [160000], true, 0, 4294967295, 0⟩,
  ⟨0x320303, 1, .u32, .rws, 2, [0], true, 0, 4294967295, 0⟩,
  ⟨0x320304, 1, .u8, .rws, 2, [50], true, 0, 255, 0⟩,
  ⟨0x320305, 1, .u16, .rws, 2, [10], true, 0, 65535, 0⟩]

/-- Entry rows of the glob area. -/
def rowsGlob1 : List Row := [
  ⟨0x320306, 1, .u8, .rws, 2, [1], true, 0, 1, 0⟩,
  ⟨0x320307, 1, .u16, .rws, 2, [128], true, 0, 65535, 0⟩,
  ⟨0x320308, 1, (.octets 32), .wo, 2, [0], true, 0, 0, 0⟩,
  ⟨0x320309, 1, .u32, .ro, 0, [0], false, 0, 4294967295, 0⟩,
  ⟨0x32030A, 1, .u16, .ro, 0, [0], false, 0, 65535, 0⟩,
  ⟨0x320401, 1, .u8, .wo, 1, [0], false, 1, 5, 0⟩,
  ⟨0x320402, 1, .u8, .rw, 1, [0], false, 0, 255, 0⟩,
  ⟨0x320501, 1, .u8, .wo, 1, [0], false, 0, 255, 0⟩,
  ⟨0x48C001, 1, .u32, .rws, 2, [127], true, 0, 4294967295, 511⟩,
  ⟨0x48C002, 1, .u32, .rws, 2, [0], true, 0, 4294967295, 0⟩,
  ⟨0x48C003, 1, .u32, .ro, 0, [0], false, 0, 4294967295, 0⟩,
  ⟨0x48C004, 1, .u8, .ro, 0, [0], false, 0, 1, 0⟩,
  ⟨0x48C005, 1, .u32, .ro, 0, [0], false, 0, 4294967295, 0⟩,
  ⟨0x358001, 1, .u8, .wo, 1, [0], false, 1, 6, 0⟩,
  ⟨0x358002, 1, .u32, .rw, 1, [262143], false, 0, 4294967295, 262143⟩,
  ⟨0x358003, 1, .u8, .ro, 0, [0], false, 0, 4, 0⟩,
  ⟨0x358101, 9, .bool, .rws, 2, [0], true, 0, 1, 0⟩,
  ⟨0x35810A, 9, .bool, .ro, 0, [0], false, 0, 1, 0⟩,
  ⟨0x358201, 1, .u8, .rws, 2, [1], true, 0, 1, 0⟩,
  ⟨0x358202, 1, .i32, .ro, 0, [0], false, (-2147483648), 2147483647, 0⟩,
  ⟨0x358203, 1, .bool, .ro, 0, [0], false, 0, 1, 0⟩,
  ⟨0x358204, 1, .u32, .ro, 0, [0], false, 0, 4294967295, 0⟩,
  ⟨0x358205, 1, .i32, .ro, 0, [0], false, (-2147483648), 2147483647, 0⟩,
  ⟨0x358206, 1, .bool, .ro, 0, [0], false, 0, 1, 0⟩,
  ⟨0x358207, 1, .u8, .wo, 2, [0], false, 1, 1, 0⟩,
  ⟨0x358301, 1, .u16, .rws, 2, [8], true, 1, 1024, 0⟩,
  ⟨0x358302, 1, .u16, .rws, 2, [64], true, 1, 4096, 0⟩,
  ⟨0x358303, 1, .u8, .rws, 2, [3], true, 1, 15, 0⟩,
  ⟨0x358304, 1, .u16, .rws, 2, [10], true, 1, 1000, 0⟩,
  ⟨0x35C001, 18, .u16, .rws, 2, [28], true, 0, 65535, 0⟩,
  ⟨0x35C101, 18, .u16, .ro, 0, [0], false, 0, 65535, 0⟩,
  ⟨0x35C201, 18, .u16, .rcl, 0, [0], false, 0, 65535, 0⟩,
  ⟨0x360001, 1, .u64, .rws, 2, [18446744073709551615], true, 0, 18446744073709551615, 0⟩,
  ⟨0x360002, 1, .u8, .rws, 2, [3], true, 0, 255, 3⟩,
  ⟨0x360003, 1, .u16, .rws, 2, [160], true, 16, 1600, 0⟩,
  ⟨0x360004, 1, .u16, .rws, 2, [800], true, 80, 8000, 0⟩,
  ⟨0x360005, 1, .u32, .rws, 2, [3600], true, 0, 4294967295, 0⟩,
  ⟨0x360006, 1, .u8, .wo, 2, [0], false, 1, 3, 0⟩,
  ⟨0x360101, 1, .u64, .ro, 0, [0], false, 0, 18446744073709551615, 0⟩,
  ⟨0x360102, 1, .u8, .ro, 0, [0], false, 0, 255, 0⟩]

/-- Entry rows of the glob area. -/
def rowsGlob2 : List Row := [
  ⟨0x360103, 1, .u8, .ro, 0, [0], false, 0, 255, 0⟩,
  ⟨0x360104, 1, (.octets 32), .ro, 0, [0], false, 0, 0, 0⟩,
  ⟨0x360105, 1, .u8, .ro, 0, [0], false, 0, 2, 0⟩,
  ⟨0x361001, 1, .u8, .wo, 1, [0], false, 1, 3, 0⟩,
  ⟨0x361002, 1, .u64, .rw, 1, [0], false, 0, 18446744073709551615, 0⟩,
  ⟨0x361003, 1, .u8, .ro, 0, [0], false, 0, 4, 0⟩,
  ⟨0x361004, 1, .u32, .ro, 0, [0], false, 0, 4294967295, 0⟩,
  ⟨0x361005, 1, .u64, .ro, 0, [0], false, 0, 18446744073709551615, 0⟩,
  ⟨0x361006, 1, .u8, .rws, 2, [0], true, 0, 255, 3⟩,
  ⟨0x361007, 1, .u32, .ro, 0, [0], false, 0, 4294967295, 0⟩,
  ⟨0x362001, 1, (.octets 4448), .ro, 0, [0], false, 0, 0, 0⟩,
  ⟨0x362002, 1, (.octets 4448), .ro, 0, [0], false, 0, 0, 0⟩,
  ⟨0x362003, 1, (.octets 4448), .ro, 0, [0], false, 0, 0, 0⟩,
  ⟨0x362004, 1, .u64, .ro, 0, [0], false, 0, 18446744073709551615, 0⟩,
  ⟨0x362005, 1, .u32, .ro, 0, [0], false, 0, 4294967295, 0⟩,
  ⟨0x362006, 1, .u32, .ro, 0, [0], false, 0, 4294967295, 0⟩,
  ⟨0x300801, 1, .u8, .wo, 1, [0], false, 1, 4, 0⟩,
  ⟨0x300802, 1, .u8, .ro, 0, [0], false, 0, 5, 0⟩,
  ⟨0x300803, 1, .u8, .ro, 0, [255], false, 255, 255, 0⟩,
  ⟨0x300804, 1, .bool, .rws, 2, [0], true, 0, 1, 0⟩,
  ⟨0x300805, 1, .u16, .rws, 2, [0], true, 0, 65535, 0⟩,
  ⟨0x300806, 1, .u8, .rws, 2, [0], true, 0, 7, 0⟩,
  ⟨0x300807, 1, .u16, .rws, 2, [1000], true, 100, 60000, 0⟩,
  ⟨0x300808, 1, .u8, .ro, 0, [0], false, 0, 255, 0⟩,
  ⟨0x300901, 1, .u32, .rws, 2, [0], true, 0, 4294967295, 0⟩,
  ⟨0x300902, 1, .u16, .rws, 2, [1000], true, 10, 60000, 0⟩,
  ⟨0x300903, 1, .bool, .rws, 2, [0], true, 0, 1, 0⟩,
  ⟨0x300904, 1, .bool, .ro, 0, [0], false, 0, 1, 0⟩,
  ⟨0x300905, 1, .bool, .ro, 0, [0], false, 0, 1, 0⟩,
  ⟨0x300C01, 1, (.octets 292), .ro, 0, [0], false, 0, 0, 0⟩,
  ⟨0x300C02, 1, .bool, .ro, 0, [0], false, 0, 1, 0⟩,
  ⟨0x300C03, 1, .u32, .ro, 0, [0], false, 0, 4294967295, 0⟩,
  ⟨0x300C04, 1, .u8, .wo, 2, [0], false, 1, 1, 0⟩,
  ⟨0x380001, 1, .u16, .rws, 2, [127], true, 0, 65535, 127⟩,
  ⟨0x380002, 1, .u32, .rws, 2, [3600], true, 0, 4294967295, 0⟩,
  ⟨0x380003, 1, .u16, .rws, 2, [1000], true, 100, 60000, 0⟩,
  ⟨0x380004, 1, .bool, .rws, 2, [1], true, 0, 1, 0⟩,
  ⟨0x380005, 1, .u8, .wo, 1, [0], false, 1, 1, 0⟩,
  ⟨0x380006, 1, .u8, .wo, 2, [0], false, 1, 2, 0⟩,
  ⟨0x380101, 1, .u64, .rws, 2, [67108864], true, 0, 18446744073709551615, 0⟩]

/-- Entry rows of the glob area. -/
def rowsGlob3 : List Row := [
  ⟨0x380102, 1, .u64, .rws, 2, [268435456], true, 0, 18446744073709551615, 0⟩,
  ⟨0x380103, 1, .u64, .rws, 2, [335544320], true, 0, 18446744073709551615, 0⟩,
  ⟨0x380104, 1, .u64, .rws, 2, [1073741824], true, 0, 18446744073709551615, 0⟩,
  ⟨0x380105, 1, .u64, .ro, 0, [0], false, 0, 18446744073709551615, 0⟩,
  ⟨0x380201, 1, .u8, .ro, 0, [0], false, 0, 5, 0⟩,
  ⟨0x380202, 1, .u32, .ro, 0, [0], false, 0, 4294967295, 0⟩,
  ⟨0x380203, 1, .u64, .ro, 0, [0], false, 0, 18446744073709551615, 0⟩,
  ⟨0x380204, 1, .u8, .ro, 0, [0], false, 0, 255, 0⟩,
  ⟨0x380205, 1, .u64, .ro, 0, [335544320], false, 0, 18446744073709551615, 0⟩,
  ⟨0x380206, 1, .u32, .ro, 0, [0], false, 0, 4294967295, 0⟩,
  ⟨0x380207, 1, .u32, .ro, 0, [0], false, 0, 4294967295, 0⟩,
  ⟨0x380208, 1, .u32, .ro, 0, [0], false, 0, 4294967295, 0⟩,
  ⟨0x380209, 1, .u16, .ro, 0, [0], false, 0, 65535, 0⟩,
  ⟨0x38020A, 1, .u64, .ro, 0, [0], false, 0, 18446744073709551615, 0⟩,
  ⟨0x38020B, 1, .u32, .ro, 0, [0], false, 0, 4294967295, 0⟩,
  ⟨0x38020C, 1, .u64, .ro, 0, [0], false, 0, 18446744073709551615, 0⟩,
  ⟨0x381001, 1, .u64, .rw, 0, [0], false, 0, 18446744073709551615, 0⟩,
  ⟨0x381002, 1, (.octets 256), .ro, 0, [0], false, 0, 0, 0⟩,
  ⟨0x582001, 17, .u8, .ro, 0, [0], false, 0, 6, 0⟩,
  ⟨0x582101, 17, .u8, .ro, 0, [0], false, 0, 7, 0⟩,
  ⟨0x582201, 17, .u32, .ro, 0, [0], false, 0, 4294967295, 0⟩,
  ⟨0x582301, 17, .u32, .ro, 0, [0], false, 0, 4294967295, 0⟩,
  ⟨0x582401, 1, .u8, .ro, 0, [255], false, 255, 255, 0⟩,
  ⟨0x582402, 1, .u32, .ro, 0, [0], false, 0, 4294967295, 0⟩,
  ⟨0x582403, 1, .u32, .ro, 0, [0], false, 0, 4294967295, 0⟩,
  ⟨0x582404, 1, .u16, .rws, 2, [3], true, 2, 10, 0⟩,
  ⟨0x582405, 1, .u8, .rw, 2, [0], false, 0, 15, 0⟩,
  ⟨0x582406, 1, .u8, .wo, 2, [0], false, 1, 1, 0⟩,
  ⟨0x582501, 1, .u32, .ro, 0, [0], false, 0, 4294967295, 0⟩,
  ⟨0x440001, 1, .u64, .ro, 0, [0], false, 0, 18446744073709551615, 0⟩,
  ⟨0x440002, 1, .u8, .ro, 0, [0], false, 0, 1, 0⟩,
  ⟨0x440003, 1, .u8, .rws, 2, [0], true, 0, 2, 0⟩,
  ⟨0x440004, 1, .u64, .wo, 2, [0], false, 0, 18446744073709551615, 0⟩,
  ⟨0x440005, 1, .i32, .ro, 0, [0], false, (-2147483648), 2147483647, 0⟩,
  ⟨0x440006, 1, .i32, .ro, 0, [0], false, (-2147483648), 2147483647, 0⟩,
  ⟨0x440007, 1, .bool, .ro, 0, [0], false, 0, 1, 0⟩,
  ⟨0x440101, 1, .u64, .ro, 0, [0], false, 0, 18446744073709551615, 0⟩,
  ⟨0x440102, 1, .u8, .ro, 0, [0], false, 0, 7, 0⟩,
  ⟨0x440103, 1, .u32, .ro, 0, [0], false, 0, 4294967295, 0⟩,
  ⟨0x440104, 1, .u8, .rws, 2, [0], true, 0, 1, 0⟩]

/-- Entry rows of the glob area. -/
def rowsGlob4 : List Row := [
  ⟨0x440105, 1, .u64, .ro, 0, [0], false, 0, 18446744073709551615, 0⟩,
  ⟨0x440106, 1, .u8, .ro, 0, [0], false, 0, 7, 0⟩,
  ⟨0x440107, 1, .u32, .ro, 0, [0], false, 0, 4294967295, 0⟩,
  ⟨0x440108, 1, .u8, .rws, 2, [0], true, 0, 1, 0⟩,
  ⟨0x101001, 1, .u8, .ro, 0, [0], false, 0, 3, 0⟩,
  ⟨0x101002, 1, .u32, .ro, 0, [0], false, 0, 4294967295, 0⟩,
  ⟨0x101003, 1, .u32, .ro, 0, [0], false, 0, 4294967295, 0⟩,
  ⟨0x101004, 1, .u8, .ro, 0, [0], false, 0, 2, 0⟩,
  ⟨0x101005, 1, .u16, .ro, 0, [0], false, 0, 65535, 0⟩,
  ⟨0x101101, 4, .u32, .ro, 0, [0], false, 0, 4294967295, 0⟩,
  ⟨0x101105, 4, .u8, .ro, 0, [0], false, 0, 3, 0⟩,
  ⟨0x101109, 1, .u16, .rws, 2, [300], true, 10, 3600, 0⟩,
  ⟨0x10110A, 1, .u32, .ro, 0, [0], false, 0, 4294967295, 0⟩,
  ⟨0x101201, 1, .u32, .ro, 0, [0], false, 0, 4294967295, 0⟩,
  ⟨0x101202, 1, .u32, .rws, 2, [16383], true, 0, 4294967295, 32767⟩,
  ⟨0x101203, 1, .u32, .wo, 1, [0], false, 0, 4294967295, 32767⟩,
  ⟨0x101204, 1, .u64, .ro, 0, [0], false, 0, 18446744073709551615, 0⟩,
  ⟨0x101301, 1, .u16, .rws, 2, [100], true, 10, 10000, 0⟩,
  ⟨0x1F0001, 1, .u32, .wo, 2, [0], false, 0, 4294967295, 0⟩,
  ⟨0x1F0101, 1, .u32, .wo, 2, [0], false, 0, 4294967295, 0⟩,
  ⟨0x1F1001, 1, .u32, .wo, 2, [0], false, 0, 4294967295, 0⟩,
  ⟨0x420001, 1, .u8, .rws, 2, [1], true, 1, 127, 0⟩,
  ⟨0x420002, 1, .u8, .rws, 2, [3], true, 0, 255, 3⟩,
  ⟨0x420003, 1, .u16, .rws, 2, [1536], true, 0, 65535, 0⟩,
  ⟨0x420004, 1, .u16, .rws, 2, [1408], true, 0, 65535, 0⟩,
  ⟨0x420005, 1, .u8, .rws, 2, [3], true, 0, 3, 0⟩,
  ⟨0x420006, 1, .u8, .rws, 2, [3], true, 0, 4, 0⟩,
  ⟨0x420007, 1, .u8, .rws, 2, [80], true, 50, 90, 0⟩,
  ⟨0x420008, 1, .u8, .rws, 2, [75], true, 50, 90, 0⟩,
  ⟨0x420009, 1, .u16, .rws, 2, [50], true, 1, 1000, 0⟩,
  ⟨0x42000A, 1, .bool, .rws, 2, [0], true, 0, 1, 0⟩,
  ⟨0x420101, 2, .u8, .ro, 0, [0], false, 0, 3, 0⟩,
  ⟨0x420103, 2, .u8, .ro, 0, [0], false, 0, 255, 0⟩,
  ⟨0x420105, 2, .u8, .ro, 0, [0], false, 0, 255, 0⟩,
  ⟨0x420201, 2, .u32, .ro, 0, [0], false, 0, 4294967295, 0⟩,
  ⟨0x3C0001, 1, .u8, .ro, 0, [0], false, 0, 255, 0⟩,
  ⟨0x3C0002, 1, .u8, .ro, 0, [0], false, 0, 255, 0⟩,
  ⟨0x3C0003, 1, .u32, .ro, 0, [0], false, 0, 4294967295, 0⟩,
  ⟨0x3C0004, 1, .u16, .ro, 0, [0], false, 0, 65535, 0⟩,
  ⟨0x3C0005, 1, .u16, .ro, 0, [0], false, 0, 65535, 0⟩]

/-- Entry rows of the glob area. -/
def rowsGlob5 : List Row := [
  ⟨0x3C0006, 1, .u16, .ro, 0, [0], false, 0, 65535, 0⟩,
  ⟨0x3C0007, 1, .u16, .ro, 0, [0], false, 0, 65535, 0⟩,
  ⟨0x3C0008, 1, .u16, .ro, 0, [0], false, 0, 65535, 0⟩,
  ⟨0x3C0101, 1, (.octets 97), .ro, 0, [0], false, 0, 0, 0⟩,
  ⟨0x3C0102, 1, (.octets 1024), .ro, 0, [0], false, 0, 0, 0⟩,
  ⟨0x3C0103, 1, (.octets 1024), .ro, 0, [0], false, 0, 0, 0⟩,
  ⟨0x3C0201, 8, (.octets 48), .rws, 2, [0], true, 0, 0, 0⟩,
  ⟨0x3C0209, 4, (.octets 48), .ro, 0, [0], false, 0, 0, 0⟩,
  ⟨0x3C0301, 1, (.octets 32), .ro, 2, [0], false, 0, 0, 0⟩,
  ⟨0x3C0302, 1, .u64, .ro, 0, [0], false, 0, 18446744073709551615, 0⟩,
  ⟨0x3C0303, 1, .u8, .ro, 0, [0], false, 0, 255, 0⟩,
  ⟨0x3C0401, 1, .u8, .rws, 2, [0], true, 0, 255, 0⟩,
  ⟨0x3C0402, 1, .u8, .rws, 2, [0], true, 0, 255, 0⟩,
  ⟨0x3C0403, 1, .u16, .rws, 2, [0], true, 0, 65535, 0⟩,
  ⟨0x3C0404, 1, .u32, .rws, 2, [0], true, 0, 4294967295, 0⟩,
  ⟨0x3C0405, 1, .i16, .rws, 2, [0], true, (-32768), 32767, 0⟩,
  ⟨0x3C0406, 1, .u16, .rws, 2, [0], true, 0, 65535, 0⟩,
  ⟨0x3C0407, 1, .u16, .rws, 2, [0], true, 0, 65535, 0⟩,
  ⟨0x3C0501, 1, .u8, .ro, 0, [0], false, 0, 255, 0⟩,
  ⟨0x3C0502, 1, .u8, .ro, 0, [0], false, 0, 255, 0⟩,
  ⟨0x3C0503, 1, .u16, .ro, 0, [0], false, 0, 65535, 0⟩,
  ⟨0x3C0504, 1, .u32, .ro, 0, [0], false, 0, 4294967295, 0⟩,
  ⟨0x3C0505, 1, .i16, .ro, 0, [0], false, (-32768), 32767, 0⟩,
  ⟨0x3C0506, 1, .u16, .ro, 0, [0], false, 0, 65535, 0⟩,
  ⟨0x3C0507, 1, .u16, .ro, 0, [0], false, 0, 65535, 0⟩,
  ⟨0x3C0508, 1, .u32, .ro, 0, [0], false, 0, 4294967295, 0⟩,
  ⟨0x3C0601, 1, .u8, .wo, 2, [0], false, 1, 4, 0⟩,
  ⟨0x3C0602, 1, .u8, .wo, 2, [0], false, 5, 31, 0⟩,
  ⟨0x3C0603, 1, (.octets 32), .ro, 0, [0], false, 0, 0, 0⟩,
  ⟨0x3C0701, 1, .u8, .wo, 2, [0], false, 1, 2, 0⟩,
  ⟨0x3C0702, 1, (.octets 1028), .wo, 2, [0], false, 0, 0, 0⟩,
  ⟨0x3C0703, 1, .u8, .ro, 0, [0], false, 0, 5, 0⟩,
  ⟨0x500001, 1, .u16, .rw, 2, [0], false, 0, 4095, 4095⟩,
  ⟨0x500002, 1, .u32, .rw, 2, [0], false, 0, 4294967295, 0⟩,
  ⟨0x500003, 1, .u8, .rw, 2, [0], false, 0, 255, 159⟩,
  ⟨0x500004, 1, .u8, .wo, 2, [0], false, 1, 5, 0⟩,
  ⟨0x500005, 1, .u32, .ro, 0, [0], false, 0, 4294967295, 0⟩,
  ⟨0x500101, 4, .u8, .ro, 0, [0], false, 0, 4, 0⟩,
  ⟨0x500201, 1, .u16, .ro, 0, [0], false, 0, 65535, 0⟩,
  ⟨0x500202, 1, .u16, .wo, 2, [0], false, 0, 65535, 65535⟩]

/-- Entry rows of the glob area. -/
def rowsGlob6 : List Row := [
  ⟨0x500301, 1, .bool, .ro, 0, [0], false, 0, 1, 0⟩,
  ⟨0x500302, 1, .u32, .ro, 0, [0], false, 0, 4294967295, 0⟩,
  ⟨0x500303, 1, (.octets 32), .ro, 0, [0], false, 0, 0, 0⟩,
  ⟨0x500304, 1, .u8, .ro, 0, [0], false, 0, 255, 0⟩,
  ⟨0x500305, 1, .u8, .ro, 0, [0], false, 0, 16, 0⟩,
  ⟨0x500306, 1, (.octets 32), .ro, 0, [0], false, 0, 0, 0⟩,
  ⟨0x500401, 32, .u16, .ro, 0, [0], false, 0, 65535, 0⟩,
  ⟨0x583001, 1, .u8, .rw, 1, [1], false, 1, 5, 0⟩,
  ⟨0x583002, 1, .u8, .wo, 1, [0], false, 1, 2, 0⟩,
  ⟨0x583003, 1, .u8, .ro, 0, [0], false, 0, 255, 0⟩,
  ⟨0x583004, 1, .u8, .ro, 0, [0], false, 0, 0, 0⟩,
  ⟨0x583005, 1, .u16, .rws, 2, [4095], true, 0, 65535, 4095⟩,
  ⟨0x583006, 1, .u16, .ro, 0, [0], false, 0, 65535, 0⟩,
  ⟨0x583007, 1, .u32, .ro, 0, [0], false, 0, 4294967295, 0⟩,
  ⟨0x583101, 1, .u8, .ro, 0, [0], false, 0, 255, 0⟩,
  ⟨0x583102, 5, .u32, .ro, 0, [0], false, 0, 4294967295, 0⟩,
  ⟨0x583107, 1, .u16, .rws, 2, [1000], true, 10, 10000, 0⟩,
  ⟨0x583201, 1, .u16, .ro, 0, [0], false, 0, 65535, 0⟩,
  ⟨0x583202, 1, .u64, .ro, 0, [0], false, 0, 18446744073709551615, 0⟩,
  ⟨0x583203, 1, .u8, .wo, 2, [0], false, 1, 3, 0⟩,
  ⟨0x583204, 1, .u8, .rw, 2, [0], false, 0, 255, 0⟩,
  ⟨0x583205, 1, .u8, .ro, 0, [0], false, 0, 3, 0⟩,
  ⟨0x583301, 64, .u8, .ro, 0, [0], false, 0, 0, 0⟩]

/-- All entry rows of the glob area. -/
def rowsGlob : List Row := rowsGlob0 ++ rowsGlob1 ++ rowsGlob2 ++ rowsGlob3 ++ rowsGlob4 ++ rowsGlob5 ++ rowsGlob6

/-- Entry rows of the port area. -/
def rowsPort0 : List Row := [
  ⟨0x000001, 1, .u8, .rws, 2, [0], true, 0, 3, 0⟩,
  ⟨0x000002, 1, .u8, .rws, 2, [1], true, 0, 2, 0⟩,
  ⟨0x000003, 1, .u8, .rws, 2, [2], true, 0, 2, 0⟩,
  ⟨0x000004, 1, .u8, .rws, 2, [75], true, 50, 100, 0⟩,
  ⟨0x000005, 1, .u8, .rws, 2, [50], true, 30, 70, 0⟩,
  ⟨0x000006, 1, .bool, .rws, 2, [1], true, 0, 1, 0⟩,
  ⟨0x000007, 1, .u8, .rws, 2, [22], true, 0, 255, 23⟩,
  ⟨0x000008, 1, .bool, .rws, 2, [1], true, 0, 1, 0⟩,
  ⟨0x000009, 1, .bool, .rws, 2, [0], true, 0, 1, 0⟩,
  ⟨0x00000A, 1, .bool, .rws, 2, [1], true, 0, 1, 0⟩,
  ⟨0x000101, 7, .u32, .rws, 2, [8491308, 184620, 307500, 410100, 3248759140, 0, 0], true, 0, 4294967295, 0⟩,
  ⟨0x000201, 4, .u32, .rws, 2, [573940, 737780, 983540, 3552614128], true, 0, 4294967295, 0⟩,
  ⟨0x000301, 7, .u32, .rws, 2, [102700, 0, 0, 0, 0, 0, 0], true, 0, 4294967295, 0⟩,
  ⟨0x000401, 1, .u16, .rws, 2, [0], true, 0, 65535, 0⟩,
  ⟨0x000402, 1, .u16, .rws, 2, [0], true, 0, 65535, 0⟩,
  ⟨0x000403, 1, .u16, .rws, 2, [0], true, 0, 65535, 0⟩,
  ⟨0x000404, 1, .u32, .rws, 2, [0], true, 0, 4294967295, 0⟩,
  ⟨0x000405, 1, (.visible 22), .rws, 2, [0], true, 0, 0, 0⟩,
  ⟨0x000501, 1, .u8, .ro, 0, [0], false, 0, 255, 0⟩,
  ⟨0x000502, 1, .u8, .ro, 0, [0], false, 0, 2, 0⟩,
  ⟨0x000503, 1, .u8, .ro, 0, [0], false, 0, 2, 0⟩,
  ⟨0x000504, 1, .u8, .ro, 0, [0], false, 0, 2, 0⟩,
  ⟨0x000505, 1, .u8, .ro, 0, [0], false, 0, 3, 0⟩,
  ⟨0x000506, 1, .u8, .ro, 0, [0], false, 0, 255, 0⟩,
  ⟨0x000507, 1, .u8, .ro, 0, [0], false, 1, 11, 0⟩,
  ⟨0x000508, 1, .u16, .ro, 0, [0], false, 0, 65535, 0⟩,
  ⟨0x000509, 1, .u16, .ro, 0, [0], false, 0, 65535, 0⟩,
  ⟨0x00050A, 1, .u8, .ro, 0, [0], false, 0, 3, 0⟩,
  ⟨0x00050B, 1, .u16, .ro, 0, [0], false, 0, 65535, 63⟩,
  ⟨0x00050C, 1, .u8, .rcl, 0, [0], false, 0, 255, 0⟩,
  ⟨0x00050D, 1, .u8, .ro, 0, [0], false, 0, 4, 0⟩,
  ⟨0x000601, 1, .u32, .ro, 0, [0], false, 0, 4294967295, 0⟩,
  ⟨0x000602, 1, .u16, .ro, 0, [300], false, 0, 65535, 0⟩,
  ⟨0x000603, 1, .u16, .ro, 0, [2000], false, 0, 65535, 0⟩,
  ⟨0x000604, 1, .bool, .ro, 0, [0], false, 0, 1, 0⟩,
  ⟨0x000605, 1, .u8, .ro, 0, [0], false, 0, 2, 0⟩,
  ⟨0x000701, 10, .u32, .ro, 0, [0], false, 0, 4294967295, 0⟩,
  ⟨0x000801, 1, .u8, .rws, 2, [120], true, 100, 200, 0⟩,
  ⟨0x000802, 1, .u8, .rws, 2, [28], true, 25, 35, 0⟩,
  ⟨0x000803, 1, .u8, .rws, 2, [15], true, 1, 30, 0⟩]

/-- Entry rows of the port area. -/
def rowsPort1 : List Row := [
  ⟨0x000804, 1, .u16, .rws, 2, [900], true, 750, 1000, 0⟩,
  ⟨0x000805, 1, .u16, .rws, 2, [15000], true, 14000, 16000, 0⟩,
  ⟨0x000806, 1, .u8, .rws, 2, [27], true, 27, 33, 0⟩,
  ⟨0x000901, 1, .u8, .rws, 2, [0], true, 0, 255, 0⟩,
  ⟨0x000902, 4, (.octets 32), .rws, 2, [0], true, 0, 0, 0⟩,
  ⟨0x000A01, 1, .u8, .wo, 1, [0], false, 1, 11, 0⟩,
  ⟨0x003001, 1, .u8, .rws, 2, [3], true, 0, 7, 0⟩,
  ⟨0x003002, 1, .u16, .rws, 2, [2400], true, 0, 65535, 0⟩,
  ⟨0x003003, 1, .u16, .rws, 2, [1000], true, 0, 65535, 0⟩,
  ⟨0x003004, 1, .u16, .ro, 0, [0], false, 0, 65535, 0⟩,
  ⟨0x003005, 1, .u8, .ro, 0, [0], false, 0, 5, 0⟩,
  ⟨0x003006, 1, .u32, .ro, 0, [0], false, 0, 4294967295, 0⟩,
  ⟨0x003007, 1, .u16, .ro, 0, [150], false, 0, 65535, 0⟩,
  ⟨0x001001, 1, .u32, .rws, 2, [5000], true, 500, 50000, 0⟩,
  ⟨0x001002, 1, .u32, .rws, 2, [220000], true, 0, 4294967295, 0⟩,
  ⟨0x001003, 1, .u32, .rws, 2, [70400], true, 0, 4294967295, 0⟩,
  ⟨0x001004, 1, .u16, .rws, 2, [800], true, 0, 65535, 0⟩,
  ⟨0x001005, 1, .u8, .rws, 2, [2], true, 0, 3, 0⟩,
  ⟨0x001101, 1, .u8, .rws, 2, [130], true, 105, 200, 0⟩,
  ⟨0x001102, 1, .u8, .rws, 2, [130], true, 0, 255, 0⟩,
  ⟨0x001103, 1, .u8, .rws, 2, [200], true, 0, 255, 0⟩,
  ⟨0x001104, 1, .u16, .rws, 2, [1000], true, 10, 10000, 0⟩,
  ⟨0x001105, 1, .u16, .rws, 2, [100], true, 10, 10000, 0⟩,
  ⟨0x001106, 1, .u16, .rws, 2, [50], true, 20, 200, 0⟩,
  ⟨0x001107, 1, .u8, .rws, 2, [110], true, 100, 200, 0⟩,
  ⟨0x001108, 1, .u32, .rws, 2, [100000], true, 0, 4294967295, 0⟩,
  ⟨0x001109, 1, .u8, .rws, 2, [10], true, 0, 255, 0⟩,
  ⟨0x001201, 1, .u16, .rws, 2, [750], true, 100, 5000, 0⟩,
  ⟨0x001202, 1, .u8, .rws, 2, [30], true, 0, 255, 0⟩,
  ⟨0x001203, 1, .u16, .rws, 2, [20], true, 5, 200, 0⟩,
  ⟨0x001204, 1, .u8, .rws, 2, [5], true, 2, 15, 0⟩,
  ⟨0x001205, 1, .u8, .rws, 2, [10], true, 5, 20, 0⟩,
  ⟨0x001206, 1, .u16, .rws, 2, [100], true, 10, 10000, 0⟩,
  ⟨0x001207, 1, .bool, .rws, 2, [0], true, 0, 1, 0⟩,
  ⟨0x001208, 1, .u16, .rws, 2, [10], true, 1, 1000, 0⟩,
  ⟨0x001209, 1, .u16, .rws, 2, [600], true, 10, 600, 0⟩,
  ⟨0x001301, 1, .u16, .rws, 2, [2000], true, 0, 65535, 0⟩,
  ⟨0x001302, 1, .u32, .rws, 2, [50000], true, 0, 4294967295, 0⟩,
  ⟨0x001303, 1, .u32, .rws, 2, [10000], true, 0, 4294967295, 0⟩,
  ⟨0x001304, 1, .u16, .rws, 2, [3435], true, 0, 65535, 0⟩]

/-- Entry rows of the port area. -/
def rowsPort2 : List Row := [
  ⟨0x001305, 1, .u16, .rws, 2, [250], true, 0, 65535, 0⟩,
  ⟨0x001306, 1, .u16, .rws, 2, [500], true, 10, 60000, 0⟩,
  ⟨0x001307, 1, .i16, .rws, 2, [125], true, (-32768), 32767, 0⟩,
  ⟨0x001308, 1, .i16, .rws, 2, [150], true, (-32768), 32767, 0⟩,
  ⟨0x001309, 1, .i16, .rws, 2, [85], true, (-32768), 32767, 0⟩,
  ⟨0x00130A, 1, .u16, .rws, 2, [20000], true, 0, 65535, 0⟩,
  ⟨0x001401, 1, .u8, .rws, 2, [3], true, 0, 15, 0⟩,
  ⟨0x001402, 1, .u16, .rws, 2, [1000], true, 100, 60000, 0⟩,
  ⟨0x001403, 1, .u16, .rws, 2, [60], true, 1, 3600, 0⟩,
  ⟨0x001501, 1, .u8, .ro, 0, [0], false, 0, 255, 0⟩,
  ⟨0x001502, 1, .u8, .rcl, 0, [0], false, 0, 255, 0⟩,
  ⟨0x001503, 1, .u16, .ro, 0, [0], false, 0, 65535, 32766⟩,
  ⟨0x001504, 1, .bool, .ro, 0, [0], false, 0, 1, 0⟩,
  ⟨0x001505, 1, .i16, .ro, 0, [0], false, (-32768), 32767, 0⟩,
  ⟨0x001506, 1, .i16, .ro, 0, [(-32768)], false, (-32768), 32767, 0⟩,
  ⟨0x001507, 1, .u32, .ro, 0, [0], false, 0, 4294967295, 0⟩,
  ⟨0x001508, 1, .u32, .ro, 0, [0], false, 0, 4294967295, 0⟩,
  ⟨0x001509, 1, .u8, .ro, 0, [0], false, 0, 255, 0⟩,
  ⟨0x00150A, 1, .u16, .ro, 0, [0], false, 0, 65535, 255⟩,
  ⟨0x00150B, 1, .u16, .ro, 0, [0], false, 0, 65535, 0⟩,
  ⟨0x001601, 14, .u32, .ro, 0, [0], false, 0, 4294967295, 0⟩,
  ⟨0x001F01, 1, .u8, .wo, 1, [0], false, 1, 4, 0⟩]

/-- All entry rows of the port area. -/
def rowsPort : List Row := rowsPort0 ++ rowsPort1 ++ rowsPort2

/-- Entry rows of the slot area. -/
def rowsSlot : List Row := [
  ⟨0x000001, 1, .u8, .rws, 2, [0], true, 0, 7, 0⟩,
  ⟨0x000002, 1, .u64, .rw, 2, [0], false, 0, 18446744073709551615, 0⟩,
  ⟨0x000003, 1, .u32, .rw, 2, [0], false, 0, 4294967295, 0⟩,
  ⟨0x000004, 1, .u8, .ro, 0, [0], false, 0, 3, 0⟩,
  ⟨0x000005, 1, .u32, .ro, 0, [0], false, 0, 4294967295, 0⟩,
  ⟨0x000010, 64, .u16, .rw, 2, [0], false, 0, 65535, 0⟩,
  ⟨0x000050, 64, .u8, .rw, 2, [255], false, 0, 255, 0⟩]

/-- Entry rows of the feed area. -/
def rowsFeed : List Row := [
  ⟨0x000001, 1, .bool, .rws, 2, [1], true, 0, 1, 0⟩,
  ⟨0x000002, 1, .u32, .rws, 2, [250], true, 50, 10000, 0⟩,
  ⟨0x000003, 1, .u16, .rws, 2, [2000], true, 0, 65535, 0⟩,
  ⟨0x000004, 1, .u16, .rws, 2, [4000], true, 0, 65535, 0⟩,
  ⟨0x000005, 1, .u16, .rws, 2, [20], true, 1, 1000, 0⟩,
  ⟨0x000006, 1, .u16, .rws, 2, [2000], true, 200, 20000, 0⟩,
  ⟨0x000007, 1, .u16, .rws, 2, [500], true, 0, 65535, 0⟩,
  ⟨0x000008, 1, .u16, .rws, 2, [100], true, 10, 1000, 0⟩,
  ⟨0x000009, 1, .u16, .rws, 2, [4400], true, 0, 65535, 0⟩,
  ⟨0x00000A, 1, .u16, .rws, 2, [6300], true, 0, 65535, 0⟩,
  ⟨0x00000B, 1, .u16, .rws, 2, [4000], true, 0, 65535, 0⟩,
  ⟨0x00000C, 1, .u16, .rws, 2, [50], true, 0, 65535, 0⟩,
  ⟨0x00000D, 1, .u16, .rws, 2, [50], true, 0, 65535, 0⟩,
  ⟨0x00000E, 1, .u16, .rws, 2, [1000], true, 10, 65535, 0⟩,
  ⟨0x00000F, 1, .u16, .rws, 2, [250], true, 10, 2000, 0⟩,
  ⟨0x000010, 1, .u16, .rws, 2, [20], true, 0, 65535, 0⟩,
  ⟨0x000011, 1, .u16, .rws, 2, [400], true, 0, 65535, 0⟩,
  ⟨0x000020, 1, .u8, .ro, 0, [0], false, 0, 7, 0⟩,
  ⟨0x000021, 1, .u8, .rcl, 0, [0], false, 0, 5, 0⟩,
  ⟨0x000022, 1, .u8, .ro, 0, [0], false, 0, 255, 0⟩,
  ⟨0x000023, 1, .u8, .ro, 0, [0], false, 0, 255, 0⟩,
  ⟨0x000024, 1, .u32, .ro, 0, [0], false, 0, 4294967295, 0⟩,
  ⟨0x000030, 1, .u8, .wo, 1, [0], false, 1, 3, 0⟩]

/-- Entry rows of the cmp area. -/
def rowsCmp : List Row := [
  ⟨0x000001, 1, .u8, .rws, 2, [0], true, 0, 4, 0⟩,
  ⟨0x000002, 1, .u8, .rws, 2, [0], true, 0, 4, 0⟩,
  ⟨0x000003, 1, .u8, .rws, 2, [0], true, 0, 63, 0⟩,
  ⟨0x000004, 1, .u8, .rws, 2, [0], true, 0, 63, 0⟩,
  ⟨0x000005, 1, .u8, .rws, 2, [0], true, 0, 1, 0⟩,
  ⟨0x000006, 1, .u16, .rws, 2, [100], true, 1, 65535, 0⟩,
  ⟨0x000007, 1, .u16, .ro, 0, [0], false, 0, 65535, 0⟩,
  ⟨0x000008, 1, .u16, .ro, 0, [0], false, 0, 65535, 0⟩,
  ⟨0x000009, 1, .u8, .ro, 0, [0], false, 0, 255, 0⟩,
  ⟨0x00000A, 1, .u8, .wo, 1, [0], false, 1, 2, 0⟩,
  ⟨0x00000B, 1, .u32, .ro, 0, [0], false, 0, 4294967295, 0⟩]

/-- Entry rows of the conv area. -/
def rowsConv : List Row := [
  ⟨0x000001, 1, .u8, .rws, 2, [0], true, 1, 32, 0⟩,
  ⟨0x000002, 1, .u8, .rws, 2, [1], true, 0, 255, 0⟩,
  ⟨0x000003, 1, .u16, .rws, 2, [0], true, 0, 65535, 0⟩,
  ⟨0x000004, 1, .u8, .rws, 2, [0], true, 0, 1, 0⟩,
  ⟨0x000005, 1, .u8, .rws, 2, [0], true, 0, 255, 0⟩,
  ⟨0x000006, 1, .u32, .rws, 2, [29], true, 0, 4294967295, 16775167⟩,
  ⟨0x000101, 32, .u32, .rws, 2, [0], true, 0, 4294967295, 16775167⟩,
  ⟨0x000201, 32, .u32, .ro, 0, [0], false, 0, 4294967295, 0⟩,
  ⟨0x000301, 1, .u16, .ro, 0, [0], false, 0, 65535, 0⟩,
  ⟨0x000302, 1, .u32, .ro, 0, [0], false, 0, 4294967295, 0⟩,
  ⟨0x000303, 4, .u32, .ro, 0, [0], false, 0, 4294967295, 0⟩,
  ⟨0x000307, 1, .u32, .ro, 0, [0], false, 0, 4294967295, 0⟩,
  ⟨0x000308, 1, .u32, .ro, 0, [0], false, 0, 4294967295, 0⟩,
  ⟨0x000309, 1, .u32, .ro, 0, [0], false, 0, 4294967295, 0⟩,
  ⟨0x00030A, 1, .u32, .ro, 0, [0], false, 0, 4294967295, 0⟩,
  ⟨0x00030B, 1, .u32, .ro, 0, [0], false, 0, 4294967295, 0⟩,
  ⟨0x00030C, 1, .u32, .ro, 0, [0], false, 0, 4294967295, 0⟩,
  ⟨0x000401, 5, .i16, .rw, 2, [0], false, (-32768), 32767, 0⟩,
  ⟨0x000406, 5, .u32, .rw, 2, [0], false, 0, 4294967295, 0⟩,
  ⟨0x00040B, 12, .i16, .rw, 2, [0], false, (-32768), 32767, 0⟩,
  ⟨0x000501, 1, (.octets 64), .rws, 2, [0], true, 0, 0, 0⟩]

/-- Entry rows of the met area. -/
def rowsMet : List Row := [
  ⟨0x000001, 3, .i32, .ro, 0, [0], false, (-2147483648), 2147483647, 0⟩,
  ⟨0x000004, 3, .i32, .ro, 0, [(-2147483648)], false, (-2147483648), 2147483647, 0⟩,
  ⟨0x000007, 3, .i32, .ro, 0, [(-2147483648)], false, (-2147483648), 2147483647, 0⟩,
  ⟨0x00000A, 3, .i32, .ro, 0, [(-2147483648)], false, (-2147483648), 2147483647, 0⟩,
  ⟨0x00000D, 2, .i64, .ro, 0, [0], false, (-9223372036854775808), 9223372036854775807, 0⟩,
  ⟨0x00000F, 2, .i64, .ro, 0, [0], false, (-9223372036854775808), 9223372036854775807, 0⟩,
  ⟨0x000011, 1, .u32, .ro, 0, [0], false, 0, 4294967295, 0⟩,
  ⟨0x000012, 1, .u16, .ro, 0, [14], false, 0, 65535, 0⟩,
  ⟨0x000013, 2, .u64, .ro, 0, [0], false, 0, 18446744073709551615, 0⟩,
  ⟨0x000015, 1, .i32, .ro, 0, [(-2147483648)], false, (-2147483648), 2147483647, 0⟩,
  ⟨0x000020, 2, .i32, .rws, 2, [0], true, (-100000), 100000, 0⟩]

/-- Entry rows of the railMet area. -/
def rowsRailMet : List Row := [
  ⟨0x000001, 3, .i32, .ro, 0, [(-2147483648)], false, (-2147483648), 2147483647, 0⟩,
  ⟨0x000004, 1, .u8, .ro, 0, [14], false, 0, 255, 0⟩]

/-- Entry rows of the skimBank area. -/
def rowsSkimBank : List Row := [
  ⟨0x000001, 8, .u64, .ro, 0, [0], false, 0, 18446744073709551615, 0⟩]

/-- Entry rows of the rail area. -/
def rowsRail : List Row := [
  ⟨0x000001, 1, .u8, .rws, 2, [255], true, 0, 255, 0⟩,
  ⟨0x000002, 1, .u16, .rws, 2, [0], true, 0, 65535, 0⟩,
  ⟨0x000003, 1, .u16, .rws, 2, [0], true, 0, 65535, 0⟩,
  ⟨0x000004, 1, .bool, .rws, 2, [0], true, 0, 1, 0⟩,
  ⟨0x000005, 1, .u8, .rws, 2, [3], true, 0, 255, 0⟩,
  ⟨0x000006, 1, .bool, .rws, 2, [1], true, 0, 1, 0⟩,
  ⟨0x000101, 1, .u16, .rws, 2, [0], true, 0, 65535, 0⟩,
  ⟨0x000102, 1, .q16, .rws, 2, [65536], true, 65536, 1048576, 0⟩,
  ⟨0x000103, 1, .u16, .rws, 2, [50], true, 5, 200, 0⟩,
  ⟨0x000104, 1, .u16, .rws, 2, [50], true, 5, 200, 0⟩,
  ⟨0x000105, 1, .u16, .rws, 2, [10], true, 1, 10000, 0⟩,
  ⟨0x000106, 1, .u16, .rws, 2, [100], true, 10, 10000, 0⟩,
  ⟨0x000107, 1, .u16, .rws, 2, [50], true, 1, 10000, 0⟩,
  ⟨0x000108, 1, .u16, .rws, 2, [20], true, 1, 10000, 0⟩,
  ⟨0x000109, 1, .bool, .rws, 2, [0], true, 0, 1, 0⟩,
  ⟨0x00010A, 1, .u16, .rws, 2, [100], true, 0, 65535, 0⟩,
  ⟨0x00010B, 1, .u16, .rws, 2, [50], true, 1, 10000, 0⟩,
  ⟨0x000201, 1, .u8, .rw, 2, [0], false, 0, 2, 0⟩,
  ⟨0x000202, 1, .i16, .rw, 2, [0], false, (-512), 511, 0⟩,
  ⟨0x000203, 1, .u16, .rw, 2, [0], false, 0, 65535, 0⟩,
  ⟨0x000204, 1, .bool, .rws, 2, [0], true, 0, 1, 0⟩,
  ⟨0x000205, 1, .u16, .rws, 2, [0], true, 0, 65535, 0⟩,
  ⟨0x000206, 1, .u16, .rws, 2, [0], true, 0, 65535, 0⟩,
  ⟨0x000207, 1, .u16, .rws, 2, [2], true, 2, 100, 0⟩,
  ⟨0x000208, 1, .u16, .rws, 2, [2], true, 1, 1000, 0⟩,
  ⟨0x000209, 1, .u16, .rws, 2, [1000], true, 10, 60000, 0⟩,
  ⟨0x000301, 1, .u8, .ro, 0, [0], false, 0, 9, 0⟩,
  ⟨0x000302, 1, .bool, .ro, 0, [0], false, 0, 1, 0⟩,
  ⟨0x000303, 1, .u8, .rcl, 0, [0], false, 0, 255, 0⟩,
  ⟨0x000304, 1, .u8, .ro, 0, [0], false, 0, 5, 0⟩,
  ⟨0x000305, 1, .i16, .ro, 0, [0], false, (-32768), 32767, 0⟩,
  ⟨0x000306, 1, .u32, .ro, 0, [0], false, 0, 4294967295, 0⟩,
  ⟨0x000307, 1, .u32, .ro, 0, [0], false, 0, 4294967295, 0⟩]

/-- Entry rows of the ct area. -/
def rowsCt : List Row := [
  ⟨0x000001, 1, .u8, .rws, 2, [0], true, 0, 255, 0⟩,
  ⟨0x000002, 1, .u16, .rws, 2, [1], true, 1, 65535, 0⟩,
  ⟨0x000003, 1, .u8, .rws, 2, [0], true, 0, 255, 0⟩,
  ⟨0x000004, 1, .bool, .rws, 2, [0], true, 0, 1, 0⟩,
  ⟨0x000005, 1, .u8, .rws, 2, [31], true, 0, 255, 0⟩,
  ⟨0x000006, 1, .u64, .ro, 0, [0], false, 0, 18446744073709551615, 0⟩]

/-- Entry rows of the tbc area. -/
def rowsTbc : List Row := [
  ⟨0x000001, 1, .u8, .rws, 2, [31], true, 0, 255, 0⟩]

/-- Entry rows of the tg area. -/
def rowsTg : List Row := [
  ⟨0x000001, 1, .u16, .rws, 2, [1], true, 1, 65535, 0⟩,
  ⟨0x000002, 1, .u64, .rw, 2, [0], false, 0, 18446744073709551615, 0⟩,
  ⟨0x000003, 1, .u8, .wo, 1, [0], false, 1, 2, 0⟩,
  ⟨0x000004, 1, .u8, .rws, 2, [31], true, 0, 255, 0⟩,
  ⟨0x000005, 1, .u32, .ro, 0, [0], false, 0, 4294967295, 0⟩]

/-- Entry rows of the tw area. -/
def rowsTw : List Row := [
  ⟨0x000001, 1, .u8, .rws, 2, [1], true, 0, 2, 0⟩,
  ⟨0x000002, 1, .u8, .rws, 2, [1], true, 0, 255, 3⟩,
  ⟨0x000003, 1, .u8, .rws, 2, [25], true, 1, 255, 0⟩,
  ⟨0x000004, 1, .u8, .rws, 2, [35], true, 1, 255, 0⟩,
  ⟨0x000005, 1, .u8, .rws, 2, [35], true, 1, 255, 0⟩,
  ⟨0x000006, 1, .bool, .rws, 2, [1], true, 0, 1, 0⟩,
  ⟨0x000007, 1, .u8, .rws, 2, [3], true, 0, 15, 0⟩,
  ⟨0x000101, 1, .u8, .ro, 0, [0], false, 0, 255, 0⟩,
  ⟨0x000102, 1, .u8, .ro, 0, [0], false, 0, 5, 0⟩,
  ⟨0x000103, 1, .u8, .ro, 0, [3], false, 0, 255, 0⟩,
  ⟨0x000104, 1, .u16, .ro, 0, [0], false, 0, 65535, 0⟩,
  ⟨0x000105, 1, .u16, .ro, 0, [0], false, 0, 65535, 0⟩,
  ⟨0x000106, 6, .u32, .ro, 0, [0], false, 0, 4294967295, 0⟩,
  ⟨0x00010C, 1, .u8, .wo, 1, [0], false, 1, 2, 0⟩,
  ⟨0x000201, 1, .u8, .rw, 2, [0], false, 8, 119, 0⟩,
  ⟨0x000202, 1, (.octets 64), .rw, 2, [0], false, 0, 0, 0⟩,
  ⟨0x000203, 1, .u8, .rw, 2, [0], false, 0, 64, 0⟩,
  ⟨0x000204, 1, .u8, .rw, 2, [0], false, 0, 64, 0⟩,
  ⟨0x000205, 1, .u8, .wo, 2, [0], false, 1, 2, 0⟩,
  ⟨0x000206, 1, .u8, .ro, 0, [0], false, 0, 255, 0⟩,
  ⟨0x000207, 1, .u8, .ro, 0, [0], false, 0, 255, 0⟩,
  ⟨0x000208, 1, (.octets 64), .ro, 0, [0], false, 0, 0, 0⟩,
  ⟨0x000209, 1, .u8, .ro, 0, [0], false, 0, 255, 0⟩]

/-- The rows of an area. -/
def Area.rows : Area → List Row
  | .glob => rowsGlob
  | .port => rowsPort
  | .slot => rowsSlot
  | .feed => rowsFeed
  | .cmp => rowsCmp
  | .conv => rowsConv
  | .met => rowsMet
  | .railMet => rowsRailMet
  | .skimBank => rowsSkimBank
  | .rail => rowsRail
  | .ct => rowsCt
  | .tbc => rowsTbc
  | .tg => rowsTg
  | .tw => rowsTw

/-- First index, index step and number of instances of an area (R381). -/
def Area.shape : Area → Nat × Nat × Nat
  | .glob => (0x0000, 0x0, 1)
  | .port => (0x2000, 0x40, 64)
  | .slot => (0x3210, 0x1, 8)
  | .feed => (0x3220, 0x10, 2)
  | .cmp => (0x4800, 0x1, 164)
  | .conv => (0x3400, 0x10, 18)
  | .met => (0x3640, 0x1, 66)
  | .railMet => (0x36A0, 0x1, 32)
  | .skimBank => (0x3700, 0x1, 66)
  | .rail => (0x3000, 0x10, 32)
  | .ct => (0x4410, 0x1, 32)
  | .tbc => (0x4430, 0x1, 32)
  | .tg => (0x4450, 0x1, 8)
  | .tw => (0x4000, 0x100, 2)

/-- The area, the instance and the relative key that an absolute key names: offsets 0x8 to 0xF of rail 0's block are
single entries (R256), as is every index outside the repeated areas. -/
def splitKey (k : Nat) : Area × Nat × Nat :=
  let i := k / 256
  let s := k % 256
  if 0x2000 ≤ i ∧ i < 0x3000 then (.port, (i - 0x2000) / 0x40, (i - 0x2000) % 0x40 * 256 + s)
  else if 0x3000 ≤ i ∧ i < 0x3200 then
    if 0x3008 ≤ i ∧ i ≤ 0x300F then (.glob, 0, k) else (.rail, (i - 0x3000) / 0x10, (i - 0x3000) % 0x10 * 256 + s)
  else if 0x3210 ≤ i ∧ i < 0x3218 then (.slot, i - 0x3210, s)
  else if i = 0x3220 ∨ i = 0x3230 then (.feed, (i - 0x3220) / 0x10, s)
  else if 0x3400 ≤ i ∧ i < 0x3520 then (.conv, (i - 0x3400) / 0x10, (i - 0x3400) % 0x10 * 256 + s)
  else if 0x3640 ≤ i ∧ i < 0x3682 then (.met, i - 0x3640, s)
  else if 0x36A0 ≤ i ∧ i < 0x36C0 then (.railMet, i - 0x36A0, s)
  else if 0x3700 ≤ i ∧ i < 0x3742 then (.skimBank, i - 0x3700, s)
  else if 0x4000 ≤ i ∧ i < 0x4200 then (.tw, (i - 0x4000) / 0x100, (i - 0x4000) % 0x100 * 256 + s)
  else if 0x4410 ≤ i ∧ i < 0x4430 then (.ct, i - 0x4410, s)
  else if 0x4430 ≤ i ∧ i < 0x4450 then (.tbc, i - 0x4430, s)
  else if 0x4450 ≤ i ∧ i < 0x4458 then (.tg, i - 0x4450, s)
  else if 0x4800 ≤ i ∧ i < 0x48A4 then (.cmp, i - 0x4800, s)
  else (.glob, 0, k)

/-- The row of an entry, with its area, instance and relative key; none where no chapter defines the entry (R353). -/
def findRow (k : Nat) : Option (Area × Nat × Nat × Row) :=
  match splitKey k with
  | (a, j, o) =>
    match a.rows.find? (fun r => decide (r.off ≤ o ∧ o < r.off + r.n)) with
    | some r => some (a, j, o, r)
    | none => none

/-- The default a row gives to its subindex number `i`. -/
def Row.dfltAt (r : Row) (i : Nat) : Int := r.dflt.getD i (r.dflt.getLastD 0)

/-- Table 5.1: the default MODE of comparator `c`. -/
def cmpDefaultMode (c : Nat) : Int :=
  if c < 64 then 0 else if c < 128 then 1 else if c < 160 then 2 else 0

/-- Table 5.1: the default IDLE_MODE of comparator `c`. -/
def cmpDefaultIdle (c : Nat) : Int := if c < 160 then 3 else 1

/-- R150: the default hysteresis of comparator `c`. -/
def cmpDefaultHyst (c : Nat) : Int := if c < 64 ∨ c = 161 ∨ c = 163 then 8 else 4

/-- Table 6.14: the default sequence of a tile converter. -/
def tileDefaultSeq (e : Nat) : Int :=
  if e < 8 then (e / 2 + e % 2 * 4 : Nat)
  else if e < 16 then (e : Nat)
  else if e = 16 then 0xA41C
  else if e < 25 then ((e - 17) / 2 + (e - 17) % 2 * 4 : Nat)
  else 0

/-- Table 6.14: the default sequence of CV16 and CV17. -/
def ctlDefaultSeq (e : Nat) : Int :=
  [0x8412, 0x40000, 0x40001, 0x40002, 0x40003, 0x8410, 0x40004, 0x40005, 0x40006, 0x40007, 0x8411,
   0x40008, 0x40009, 0x4000A, 0x4000B, 0x841C, 0x4000C, 0x4000D, 0x4000E, 0x4000F, 0x8413,
   0x14, 0x30017, 0x30015, 0x20016, 0x2001D].getD e 0

/-- Table 3.2: the default trigger of strip slot `s`. -/
def slotDefaultTrigger (s : Nat) : Int := if s < 7 then (s + 1 : Nat) else 0

/-- The default of every numeric entry. The defaults that a table gives by instance are computed; where the manual
says that the value comes from OTP, the NVM or the wall, the default is 0 until a start loads it. -/
def odDefault (k : Nat) : Int :=
  match findRow k with
  | none => 0
  | some (a, j, o, r) =>
    match a with
    | .cmp =>
      if o = Kc.mode then cmpDefaultMode j
      else if o = Kc.idleMode then cmpDefaultIdle j
      else if o = Kc.hystH ∨ o = Kc.hystL then cmpDefaultHyst j
      else r.dfltAt (o - r.off)
    | .conv =>
      if o = Kv.seqLen then (if j < 16 then 25 else 26)
      else if r.off = Kv.seqEntry then (if j < 16 then tileDefaultSeq (o - Kv.seqEntry) else ctlDefaultSeq (o - Kv.seqEntry))
      else r.dfltAt (o - r.off)
    | .slot => if o = Ks.stTrigger then slotDefaultTrigger j else r.dfltAt (o - r.off)
    | _ => r.dfltAt (o - r.off)

/-- The default of every octet-string entry: `OCTETS(n)` entries are all zero, the records and `MFR_STRING` empty. -/
def blobDefault (k : Nat) : List Nat :=
  match findRow k with
  | some (_, _, _, r) =>
    match r.ty with
    | .octets n => if n = 4448 then [] else List.replicate n 0
    | _ => []
  | none => []

end Sys2Proof.Machine
end

