-- ==== Sys2Proof/Machine/Store.lean ====
section
/-! DEFINITION. The sparse store that holds numbered things of the machine (dictionary values, IO registers, octet
strings, memory octets, OTP words): a list of (address, value) pairs in one canonical form, addresses strictly rising
and no pair equal to what an unlisted address reads as. Equal contents are equal lists. -/

namespace Sys2Proof.Machine

/-- A sparse store over the addresses `Nat`. -/
abbrev SMap (α : Type) := List (Nat × α)

/-- The value at address `k`; an unlisted address reads as `d k`. -/
def SMap.get {α : Type} (d : Nat → α) : SMap α → Nat → α
  | [], k => d k
  | (j, v) :: m, k => if j = k then v else SMap.get d m k

/-- Leaves out the pair of address `k`. -/
def SMap.del {α : Type} : SMap α → Nat → SMap α
  | [], _ => []
  | (j, v) :: m, k => if j = k then SMap.del m k else (j, v) :: SMap.del m k

/-- Puts a pair before the first pair of a higher address. -/
def SMap.ins {α : Type} : SMap α → Nat → α → SMap α
  | [], k, v => [(k, v)]
  | (j, w) :: m, k, v => if k < j then (k, v) :: (j, w) :: m else (j, w) :: SMap.ins m k v

/-- Writes `v` at address `k`; writing what an unlisted address reads as removes the pair. -/
def SMap.put {α : Type} [DecidableEq α] (d : Nat → α) (m : SMap α) (k : Nat) (v : α) : SMap α :=
  if v = d k then SMap.del m k else SMap.ins (SMap.del m k) k v

/-- The canonical form: addresses strictly rising from above `lo`, no pair at its default. -/
def SMap.wfFrom {α : Type} [DecidableEq α] (d : Nat → α) : Option Nat → SMap α → Bool
  | _, [] => true
  | lo, (j, v) :: m =>
    (match lo with | none => true | some l => decide (l < j)) && decide (v ≠ d j) && SMap.wfFrom d (some j) m

/-- The canonical form of a store. -/
def SMap.wf {α : Type} [DecidableEq α] (d : Nat → α) (m : SMap α) : Bool := SMap.wfFrom d none m

/-- Dictionary values: a numeric entry by its key, at its default when unlisted. -/
def odGet (m : SMap Int) (k : Nat) : Int := SMap.get odDefault m k

/-- Writes a numeric dictionary entry. -/
def odPut (m : SMap Int) (k : Nat) (v : Int) : SMap Int := SMap.put odDefault m k v

/-- An octet-string entry by its key. -/
def blobGet (m : SMap (List Nat)) (k : Nat) : List Nat := SMap.get blobDefault m k

/-- Writes an octet-string entry. -/
def blobPut (m : SMap (List Nat)) (k : Nat) (v : List Nat) : SMap (List Nat) := SMap.put blobDefault m k v

/-- What an unlisted memory address reads as: 0. -/
def zeroCell (_ : Nat) : Nat := 0

/-- A memory octet or word by its address. -/
def memGet (m : SMap Nat) (a : Nat) : Nat := SMap.get zeroCell m a

/-- Writes a memory octet or word. -/
def memPut (m : SMap Nat) (a : Nat) (v : Nat) : SMap Nat := SMap.put zeroCell m a v

/-! Bits and fields of numeric values. -/

/-- Bit `i` of a register value. -/
def bit (v : Int) (i : Nat) : Bool := v.toNat.testBit i

/-- The value with bit `i` set to `b`. -/
def withBit (v : Int) (i : Nat) (b : Bool) : Int :=
  if v.toNat.testBit i = b then (v.toNat : Int) else ((v.toNat ^^^ 2 ^ i : Nat) : Int)

/-- The field of `w` bits from bit `lo`. -/
def fieldOf (v : Int) (lo w : Nat) : Nat := v.toNat >>> lo % 2 ^ w

/-- A Bool as 0 or 1. -/
def b2i (b : Bool) : Int := if b then 1 else 0

/-- The bits of `v` that `m` selects. -/
def maskOf (v : Int) (m : Nat) : Int := ((v.toNat &&& m : Nat) : Int)

/-- `v` without the bits of `m` (a W1C write of `m`). -/
def clearBits (v : Int) (m : Nat) : Int := ((v.toNat ^^^ (v.toNat &&& m) : Nat) : Int)

/-- `v` with the bits of `m` set. -/
def setBits (v : Int) (m : Nat) : Int := ((v.toNat ||| m : Nat) : Int)

/-- A saturating count: one more, not past `top`. -/
def satInc (v : Int) (top : Int) : Int := if v < top then v + 1 else top

/-- The top of a U32 counter. -/
abbrev u32Max : Int := 4294967295

/-- The top of a U16 counter. -/
abbrev u16Max : Int := 65535

/-- The set of the bits of `l`. -/
def bitsOf (l : List Bool) : Nat :=
  match l with
  | [] => 0
  | b :: t => (if b then 1 else 0) + 2 * bitsOf t

/-- Quotient rounded up, for a positive divisor. -/
def ceilDiv (a b : Int) : Int := -((-a) / b)

/-- Quotient rounded to the nearest, halves up, for a positive divisor. -/
def nearDiv (a b : Int) : Int := (2 * a + b) / (2 * b)

/-- A value kept within bounds. -/
def clampTo (lo hi v : Int) : Int := if v < lo then lo else if hi < v then hi else v

/-- The little-endian octets of a number. -/
def leOctets : Nat → Nat → List Nat
  | 0, _ => []
  | n + 1, v => v % 256 :: leOctets n (v / 256)

/-- The number that little-endian octets spell. -/
def leValue : List Nat → Nat
  | [] => 0
  | b :: t => b % 256 + 256 * leValue t

end Sys2Proof.Machine
end

