-- ==== Sys2Proof/Machine/State.lean ====
section
/-! DEFINITION. The state of the device as plain data: the queue of waiting commands, the dictionary, the IO registers
and, block by block, what the manual gives each block beside its registers; and the state right after reset. -/

namespace Sys2Proof.Machine

/-- Why a step can stop with a fault: no command raises one, since every command of the table has an effect that the
manual describes (safe). -/
inductive Fault where
  deriving DecidableEq, Repr

/-- Why a command can be refused by the model. -/
inductive Refusal where
  /-- The command has no meaning yet; raised by the dispatch alone, by name. Safe: the model stops. -/
  | notModelled (mnemonic : String)
  deriving DecidableEq, Repr

/-- An entry of a fixed table. -/
abbrev tget {α : Type} {n : Nat} (v : Vector α n) (i : Fin n) : α := v[i.val]

/-- A fixed table with one entry replaced. -/
abbrev tset {α : Type} {n : Nat} (v : Vector α n) (i : Fin n) (x : α) : Vector α n := v.set i.val x i.isLt

/-! Comparators and the scrim ("Window Comparators and the Scrim"). -/

/-- What a comparator holds beside its entries (R150, R153 to R159). -/
structure CmpHw where
  /-- Live output bits, after hysteresis. -/
  h : Bool
  l : Bool
  /-- Latches of the two bits. -/
  hLatch : Bool
  lLatch : Bool
  /-- UNRESOLVED flags. -/
  hUnres : Bool
  lUnres : Bool
  chkFail : Bool
  /-- A self-check is running, by whatever request. -/
  checking : Bool
  /-- Settling after a change to MODE. -/
  settling : Bool
  /-- The mode in force, Table 5.2. -/
  mode : Nat
  /-- No evaluation has been made since a start without history (R155). -/
  noHist : Bool
  /-- The check that runs was asked for through the comparator mirror (Table 5.5). -/
  asked : Bool
  deriving DecidableEq, Repr

/-! Power path ("Power Path, Electronic Fusing and Feed Hot-Swap"). -/

/-- Direction in which a path is requested or on. -/
inductive Dir where
  | none | source | sink
  deriving DecidableEq, Repr

/-- The gate of a FET pair, as the tile's power-path logic drives it: off, VSET set and the gate rise awaited, ramping,
fully on. -/
inductive Gate where
  | off | pre | ramp | on
  deriving DecidableEq, Repr

/-- A fault timer (R115): idle with count 0, counting, or holding its count with the limit released. -/
inductive FaultTimer where
  | idle | running | held
  deriving DecidableEq, Repr

/-- The stages of a voltage transition under contract (R56): none, its start awaited, slewing, PG qualifying, reported and
PS_RDY awaited. -/
inductive Trans where
  | none | wait | slew | qual | done
  deriving DecidableEq, Repr

/-- What the tile and digital protection hold for one port beside its entries. -/
structure PathHw where
  dir : Dir
  gate : Gate
  /-- The gate is being discharged and its turn-off is not complete (R111). -/
  turning : Bool
  /-- Pnn_DSCH is on. -/
  dsch : Bool
  /-- VSET code as trimmed. -/
  vset : Nat
  /-- Target voltage of VSET, 10 mV. -/
  target : Int
  /-- Target and contract current of the transition that ARM handed to the tile (R147), 10 mV and 10 mA. -/
  armV : Int
  armI : Int
  /-- PP_MODE.MODE as handed over with ARM, and in force since the transition started (R57, R147): 0 fixed, 1 PPS, 2 AVS. -/
  armMode : Nat
  mode : Nat
  /-- ICON in force while the path is on as a source, 10 mA (R56, R114). -/
  icon : Int
  /-- The transition was armed under the strip limit in force (R114). -/
  armStrip : Bool
  /-- VSET is slewing. -/
  slewing : Bool
  trans : Trans
  /-- The transition under way lowers the voltage (R128). -/
  falling : Bool
  /-- The WIN_V upper threshold still awaits a VBUS result below its new value (R128). -/
  upperWaits : Bool
  ft : FaultTimer
  /-- I²t integral, 10⁻¹³ A²·ms, and the TB of the last current result. -/
  i2tAcc : Rat
  i2tPrev : Option Nat
  /-- SOA integral, 10 nJ. -/
  soaE : Rat
  /-- Temperature rise of the thermal model, K, and whether the model has history (R121). -/
  rise : Rat
  warm : Bool
  /-- Last valid T_NTC, 0.1 °C. -/
  ntcLast : Option Int
  /-- The 2 s start window with an invalid NTC runs (R121). -/
  startWin : Bool
  /-- Filtered path resistance, µΩ (R120). -/
  rPath : Rat
  /-- A retry waits for RETRY_DELAY; a retry is suspended (R137). -/
  retryWait : Bool
  retrySusp : Bool
  /-- The retry waits for TJ_MODEL below FET_TWARN (R119). -/
  otWait : Bool
  lockout : Bool
  /-- Terms of the gate pulldown (R161). -/
  cut : Bool
  force : Bool
  safe : Bool
  /-- The last current result was beyond RCP_TH (R123). -/
  rcpPrev : Bool
  /-- Trip commands sent to the tile and not yet there (R19), each with the causes that digital protection detected in the same
  cycle (R135). -/
  trips : List (List DpCause)
  /-- TB at which the gate was fully on (R123). -/
  onTb : Nat
  /-- Latest usable results: VBUS in 20 µV, current in 100 µA. -/
  vNow : Int
  iNow : Int
  /-- The VBUS results of the last 10 µs with their TB, which the VSET trim averages (R109). -/
  vRecent : List (Nat × Int)
  /-- Strip limit code in force (R114), none when the contract formula holds. -/
  strip : Option Int
  /-- FR_Swap: armed; signal detected and VBUS awaited below vSafe5V (R64). -/
  frsArmed : Bool
  frsSeen : Bool
  /-- The 150 µs in which valid VBUS must follow the signal run (R71). -/
  frsDue : Bool
  /-- The self-check before the arming runs (R158). -/
  frsWait : Bool
  /-- A fault turned the gate off and the engine has not yet reset the protocol layer for it (R136). -/
  faulted : Bool
  /-- TB at which VBUS last entered the window of WIN_V (R64). -/
  inTb : Option Nat
  deriving DecidableEq, Repr

/-- What a feed stage holds beside its entries (R141 to R145). -/
structure FeedHw where
  seat0 : Bool
  seat1 : Bool
  /-- Latest input, output and current: 10 mV, 10 mV, 0.1 A. -/
  vin : Int
  vout : Int
  i : Rat
  gateOn : Bool
  /-- The feed-loss term is asserted. -/
  term : Bool
  ft : FaultTimer
  /-- SOA integral, 10 nJ. -/
  soaE : Rat
  /-- FEED_CMD OFF in force. -/
  cmdOff : Bool
  /-- The pre-turn-on check of a start runs (R158). -/
  starting : Bool
  deriving DecidableEq, Repr

/-! Ledger, strip tables, shedding and peers ("Shelf Budget Ledger and Strip Tables"). -/

/-- A copy of a strip slot as the scrim holds it (R82). -/
structure SlotCopy where
  trigger : Nat
  cut : Nat
  capAfter : Int
  allot : List Int
  limit : List Int
  deriving DecidableEq, Repr

/-- A strip slot: its armed copy, whether its shadow is being written, whether it is in force, and the cause it belongs
to when it serves as a second stage (R86). -/
structure SlotHw where
  armed : Option SlotCopy
  writing : Bool
  inForce : Bool
  stageOf : Option Nat
  deriving DecidableEq, Repr

/-- The ledger's own record of a port beside its entries. -/
structure LedgerPort where
  /-- Slot allotment in force (R77). -/
  shedAllot : Option Int
  /-- Slot limit code in force, 50 mA. -/
  limit : Option Int
  /-- Allotment lowered under overcommit or after NO_SECOND_STAGE (R101, R86). -/
  overAllot : Option Int
  /-- The shed changed the booking or the limit code: the port takes a restoration step (R94). -/
  changed : Bool
  /-- Last refused P, while waiting (R81). -/
  refused : Int
  /-- The booking was made by RESERVE or is a RESTART_RESERVE (Table 3.6); it is the RESTART_RESERVE of a restored port (R94). -/
  reserved : Bool
  restart : Bool
  deriving DecidableEq, Repr

/-- The last ledger frame of a member (Table 3.4) and how many rounds it has been silent. -/
structure Peer where
  node : Nat
  flags : Nat
  sum : Int
  floor : Int
  demand : Int
  limit : Int
  cap : Int
  /-- A frame came in the round now open. -/
  heard : Bool
  silent : Nat
  lost : Bool
  deriving DecidableEq, Repr

/-- The ledger, its restoration and the shelf's reconciliation. -/
structure LedgerHw where
  /-- BUDGET before the cap of R87: what R75 or the last reconciliation gives. -/
  base : Int
  /-- The cap on BUDGET while sheds are in force (R87). -/
  cap : Option Int
  /-- Wait list, longest wait first (R81). -/
  waiting : List Port
  /-- Trigger codes in force (Table 3.2). -/
  causes : List Nat
  /-- Triggers decided by the central slice and not yet applied by the ledger. -/
  trigs : List Nat
  /-- SHED_N: driven low by the device; its own input ignored; held low by a peer; stuck. -/
  shedDrive : Bool
  shedIgnore : Bool
  shedLow : Bool
  shedStuck : Bool
  /-- Restoration done, as the frames show it (R103). -/
  restoreDone : Bool
  /-- The device awaits its turn to restore (R103). -/
  turnWait : Bool
  peers : List Peer
  /-- The round open now and the node whose slot runs. -/
  roundOpen : Bool
  roundNow : Nat
  slotNode : Nat
  /-- Node that opens rounds when lower openers are silent (R99). -/
  opener : Option Nat
  overcommit : Bool
  /-- This device's frame has been sent in the open round. -/
  sent : Bool
  /-- The data field of the last frame sent, its 56 octets before the tag and the tag. -/
  frameOut : List Nat
  /-- The controller that the last frame was sent on and its identifier (R98). -/
  frameBus : Nat
  frameId : Nat
  /-- The device's share of the shelf in the last round: what R101 brings RUNNING_SUM down to under overcommit. -/
  share : Int
  deriving DecidableEq, Repr

/-- A comparator right after reset: no output, no latch, starting without history (R155), in its default IDLE_MODE. -/
def CmpHw.reset (c : Nat) : CmpHw :=
  { h := false, l := false, hLatch := false, lLatch := false, hUnres := false, lUnres := false, chkFail := false,
    checking := false, settling := false, mode := (cmpDefaultIdle c).toNat, noHist := true, asked := false }

/-- A power path right after reset: gate off, every term and integral clear, R_PATH_EST at R_PATH_MAX (R121). -/
def PathHw.reset : PathHw :=
  { dir := .none, gate := .off, turning := false, dsch := false, vset := 0, target := 500, armV := 500, armI := 300, armMode := 0, mode := 0, icon := 300, armStrip := false, slewing := false,
    trans := .none, falling := false, upperWaits := false, ft := .idle, i2tAcc := 0, i2tPrev := none,
    soaE := 0, rise := 0, warm := false, ntcLast := none, startWin := false, rPath := 20000, retryWait := false,
    retrySusp := false, otWait := false, lockout := false, cut := false, force := false, safe := false,
    rcpPrev := false, trips := [], onTb := 0, vNow := 0, iNow := 0, vRecent := [], strip := none, frsArmed := false, frsSeen := false, frsDue := false, frsWait := false,
    faulted := false,
    inTb := none }

/-- A feed stage right after reset: unseated and off. -/
def FeedHw.reset : FeedHw :=
  { seat0 := false, seat1 := false, vin := 0, vout := 0, i := 0, gateOn := false, term := false, ft := .idle,
    soaE := 0, cmdOff := false, starting := false }

/-- A strip slot right after reset: not armed (R89). -/
def SlotHw.reset : SlotHw := { armed := none, writing := false, inForce := false, stageOf := none }

/-- The ledger's record of a port right after reset. -/
def LedgerPort.reset : LedgerPort := { shedAllot := none, limit := none, overAllot := none, changed := false, refused := 0, reserved := false, restart := false }

/-- The ledger right after reset: nothing booked, no feed available, no shed in force. -/
def LedgerHw.reset : LedgerHw :=
  { base := 0, cap := none, waiting := [], causes := [], trigs := [], shedDrive := false, shedIgnore := false,
    shedLow := false, shedStuck := false, restoreDone := false, turnWait := false,
    peers := [], roundOpen := false, roundNow := 0, slotNode := 0, opener := none, overcommit := false, sent := false,
    frameOut := [], frameBus := 0, frameId := 0, share := 0 }

/-- The messages a port sends. -/
inductive PdKind where
  | sourceCaps | eprSourceCaps | sinkCaps | request | accept | reject | wait | psRdy | softReset | prSwap | drSwap
  | vconnSwap | notSupported | eprEnterAck | eprEnterOk | eprEnterFail | eprExit | keepAliveAck | status | ppsStatus
  | revision | manufacturerInfo | sourceInfo | sourceCapsExt | identity | vdmNak | discoverCable | securityRequest | alert
  | cableReset | cableSoftReset
  deriving DecidableEq, Repr

/-- A message on its way to the partner: its kind, its objects or fields, and the message it answers. -/
structure TxMsg where
  kind : PdKind
  objs : List Int
  re : Option PdKind
  deriving DecidableEq, Repr

/-! Links, tiles and clocks ("Architecture: Dies, Planes and Clock Domains"). -/

/-- What the controller sends to a tile: an engine's write of a register of Table 4.6 or 5.5, by block, address and word, a
PP_CMD code for a port, or a port reset. -/
inductive TileReq where
  | io (b addr word : Nat)
  | cmd (p : Fin 64) (code : Nat)
  | reset (p : Fin 64)
  deriving DecidableEq, Repr

/-- What a tile sends to a register of the port shadow, by block and address: a bit that sets, or a word; and what it reports of a
message: acknowledged, or given up after its retries. -/
inductive TileNews where
  | sets (b addr i : Nat)
  | reads (b addr : Nat) (v : Int)
  | acked (p : Fin 64) (m : TxMsg)
  | lost (p : Fin 64) (m : TxMsg)
  deriving DecidableEq, Repr

/-- What a port tile and its link hold beside their entries. -/
structure TileHw where
  /-- Trigger codes of SHD strobes received and not yet applied (R163). -/
  strobes : List Nat
  /-- TRST is asserted (R463). -/
  trst : Bool
  /-- VDD_FE and VCONN_Tn stand above their thresholds (R473). -/
  feOk : Bool
  vconnOk : Bool
  /-- In link hold: what waits for the link toward the tile and from it, in order, and the registers of the port shadow as they
  stood at the loss of lock, by block × 0x10000 + address (R22, R32, R283). -/
  reqs : List TileReq
  news : List TileNews
  shadow : List (Nat × Nat)
  /-- The tile has reported its limits to the port shadow since its reset. -/
  filled : Bool
  deriving DecidableEq, Repr

/-- Where PLL_A and PLL_B take their reference (R29, R30). -/
inductive PllSource where
  | unlocked | refclk | holdover | oscillator
  deriving DecidableEq, Repr

/-- The clocks beside CLK_STATUS. -/
structure ClkHw where
  pll : PllSource
  /-- AONCLK runs from the crystal (R31). -/
  aonCrystal : Bool
  deriving DecidableEq, Repr

/-- A tile right after reset: supplied, no strobe waiting. -/
def TileHw.reset : TileHw :=
  { strobes := [], trst := false, feOk := true, vconnOk := true, reqs := [], news := [], shadow := [],
    filled := false }

/-- The clocks right after reset: the PLLs not yet locked, AONCLK internal (Table 16.5). -/
def ClkHw.reset : ClkHw := { pll := .unlocked, aonCrystal := false }

/-- The scrim mask registers as armed (R166), and whether new copies are being written. -/
structure ScrimHw where
  faultMask : Nat
  pwrgdKill : Nat
  writing : Bool
  deriving DecidableEq, Repr

/-- The scrim masks right after reset: FAULT_MASK and PWRGD_KILL at their defaults. -/
def ScrimHw.reset : ScrimHw := { faultMask := 0x7F, pwrgdKill := 0, writing := false }

/-- Output pins: ALERT_N (R380), FAULT_N (R164) and PWRGD (R165), true where asserted; the level of every RAILnn_EN, none where it is
high-impedance (R233, R234); and the current out of every RAILnn_MGN in steps of 390.625 nA, none where it is high-impedance (R249). -/
structure Pins where
  alert : Bool
  fault : Bool
  pwrgd : Bool
  railEn : Vector (Option Bool) 32
  railMgn : Vector (Option Int) 32
  deriving DecidableEq, Repr

/-- The pins right after reset: none asserted, those of the rails high-impedance. -/
def Pins.reset : Pins :=
  { alert := false, fault := false, pwrgd := false, railEn := Vector.replicate 32 none, railMgn := Vector.replicate 32 none }

/-! Attach, protocol and contracts ("Port Attach, Roles and Power Contracts"). -/

/-- Where a Hard Reset stands on a port (Table 2.6): none; signalled by the device and not yet complete; signalling
over and tPSHardReset running; VBUS being taken to vSafe0V or tSrcRecover running. -/
inductive HardReset where
  | none | signalling | waitOff | recover
  deriving DecidableEq, Repr

/-- A received message held by the tile with the TB of its EOP (R68). -/
structure HeldMsg where
  msg : RxMsg
  tb : Nat
  deriving DecidableEq, Repr

/-- A swap in progress: its kind, whether the device requested it, whether it has been accepted, and whether the device
gives up the source role or the VCONN source role in it. -/
structure SwapNow where
  kind : SwapKind
  ours : Bool
  accepted : Bool
  give : Bool
  deriving DecidableEq, Repr

/-- The contract that an accepted Request leads to. -/
structure Wanted where
  pos : Nat
  v : Int
  i : Int
  /-- 0 fixed, 1 PPS, 2 AVS, as PP_MODE. -/
  mode : Nat
  epr : Bool
  deriving DecidableEq, Repr

/-- What the tile PHY and the owning engine hold for one port beside its entries. -/
structure PortHw where
  /-- Terminations seen on CCA and CCB; what the port presents; both pins held open. -/
  ccA : Term
  ccB : Term
  presentsRp : Bool
  ccOpen : Bool
  /-- The pins that are held open carry the Rd dead-battery clamp (R39, R408). -/
  clamp : Bool
  /-- The cable shows Ra (R40). -/
  powered : Bool
  /-- A detach debounce runs (R45). -/
  detaching : Bool
  /-- The device is VCONN source of the attachment, whether or not it applies VCONN now. -/
  vconnOwner : Bool
  /-- VCONN switch: VCONN_OC recorded for the present attach (R47). -/
  vconnOc : Bool
  /-- MessageID of the next message sent, and of the last received. -/
  txId : Nat
  rxId : Option Nat
  /-- Held messages (R68). -/
  held : List HeldMsg
  /-- Messages to send, the first one on the wire awaiting GoodCRC; its retransmissions so far. -/
  tx : List TxMsg
  retries : Nat
  /-- The acknowledged message whose answer is awaited (R483). -/
  awaits : Option PdKind
  /-- Messages that start an AMS, waiting for tSinkTx (R66). -/
  sinkTx : List TxMsg
  /-- The objects last offered, by position from 1. -/
  offer : List Int
  capsCount : Nat
  /-- Attempts at cable discovery; the discovery repeated for EPR entry (R51, R59). -/
  cableTries : Nat
  cableKnown : Bool
  eprMode : Bool
  eprEntering : Bool
  /-- The explicit contract that stands was made in EPR mode (R59, R60); the power granted to the EPR entry, LW (R76). -/
  eprContract : Bool
  eprGrant : Int
  wanted : Option Wanted
  swap : Option SwapNow
  /-- A swap PORT_CMD whose response is held (R63), and the status of the last PORT_CMD (Table 13.4). -/
  cmdHeld : Bool
  cmdStatus : Nat
  hardReset : HardReset
  ppsTimer : Bool
  eprTimer : Bool
  /-- The capabilities lowered by a shed have gone out, and Alert follows their contract (R92). -/
  shedCaps : Bool
  /-- Authentication step in progress (R65), 0 none. -/
  authStep : Nat
  /-- PPS current-limit mode of operation (R57). -/
  ppsLimit : Bool
  bist : Option BistMode
  /-- Current that the FR_Swap partner names, 10 mA. -/
  frsCurrent : Nat
  /-- DISABLED follows the ErrorRecovery under way (R73). -/
  toDisable : Bool
  deriving DecidableEq, Repr

/-- A port right after reset: unattached, CC pins seeing nothing, no message under way. Its pins are held open until the units start
(R408), ROLE being SOURCE in a stored image that holds nothing. -/
def PortHw.reset : PortHw :=
  { ccA := .opn, ccB := .opn, presentsRp := true, ccOpen := true, clamp := false, powered := false, detaching := false,
    vconnOwner := false, vconnOc := false, txId := 0, rxId := none, held := [], tx := [], retries := 0, awaits := none, sinkTx := [],
    offer := [], capsCount := 0, cableTries := 0, cableKnown := false, eprMode := false, eprEntering := false,
    eprContract := false, eprGrant := 0, wanted := none, swap := none, cmdHeld := false, cmdStatus := 0, hardReset := .none, ppsTimer := false,
    eprTimer := false, shedCaps := false, authStep := 0, ppsLimit := false, bist := none, frsCurrent := 0, toDisable := false }
/-! Conversion, references and the tagged queue ("Conversion Subsystem and the Hod"). -/

/-- What a converter is doing (R182, R183): stopped; armed and waiting for its trigger; between a trigger and the first
sample instant of its pass; a pass running. -/
inductive Run where
  | stopped | waiting | delay | running
  deriving DecidableEq, Repr

/-- CAL on a converter (R189): none; commanded and awaiting its boundary; running. -/
inductive CalRun where
  | none | pending | running
  deriving DecidableEq, Repr

/-- The injected request that a converter holds (R185); `queue` where its result goes to the tagged queue. -/
structure InjReq where
  ch : Nat
  gain : Nat
  filt : Nat
  queue : Bool
  deriving DecidableEq, Repr

/-- An entry of a lane buffer or of the tagged queue (Table 6.12). -/
structure TqEntry where
  data : Nat
  ch : Nat
  tag : Nat
  mark : Bool
  entry : Nat
  inj : Bool
  drops : Nat
  ts : Nat
  deriving DecidableEq, Repr

/-- A CHK result that awaits its partner's of the same sample instant (R195). -/
structure ChkWord where
  cyc : Nat
  code : Int
  gain : Nat
  filt : Nat
  deriving DecidableEq, Repr

/-- The gain, filter and channel of a converter's last conversion (R179). -/
structure LastConv where
  ch : Nat
  gain : Nat
  filt : Nat
  deriving DecidableEq, Repr

/-- A place in a sequence: the entry, the settling conversions left of its run (none before the run begins), and the conversions of the
run made after them (R178, R181). -/
structure SeqPos where
  entry : Nat
  left : Option Nat
  made : Nat
  deriving DecidableEq, Repr

/-- The start of a pass. -/
def SeqPos.start : SeqPos := { entry := 0, left := none, made := 0 }

/-- What a converter and its hod lane hold beside their entries. -/
structure ConvHw where
  run : Run
  /-- STOP takes effect at the next boundary; LOAD applies there (R183, R191). -/
  stopping : Bool
  loading : Bool
  cal : CalRun
  /-- What the converter was doing before CAL (R189). -/
  calWas : Run
  calValid : Bool
  calFail : Bool
  /-- 0 OTP, 1 SELF, 2 LOADED, 3 WRITTEN (R188). -/
  calSrc : Nat
  /-- The request held or converting, and the settling conversions left of it once they have begun (R178). -/
  inj : Option InjReq
  injLeft : Option Nat
  /-- Where the converter stands in its pass, and whether the pass's first conversion is still to be made. -/
  pos : SeqPos
  first : Bool
  /-- None after CAL and before the first conversion since reset (Table 6.5). -/
  last : Option LastConv
  /-- The mirror of R184: its place in the sequence and the pass count. -/
  mir : SeqPos
  pass : Nat
  /-- Results withheld since a failed block: their number and the stamp of the first (R184). -/
  withheld : Option (Nat × Nat)
  /-- Lane buffer, results dropped since the last marker and the stamp of the first of them (R200, R203). -/
  lane : List TqEntry
  dropN : Nat
  dropTs : Nat
  /-- The converter's entries in the tagged queue. -/
  queue : List TqEntry
  chk : Option ChkWord
  /-- Hod cycle of the lane's last word. -/
  lastCyc : Option Nat
  /-- Level of the pair's check ladder, held with the even converter. -/
  ladder : Nat
  /-- Consecutive comparisons charged and passed (R196). -/
  bad : Nat
  good : Nat
  plausFail : Bool
  plausStale : Bool
  deriving DecidableEq, Repr

/-- A converter right after reset: stopped, no conversion made, the OTP factors in force. -/
def ConvHw.reset : ConvHw :=
  { run := .stopped, stopping := false, loading := false, cal := .none, calWas := .stopped, calValid := false,
    calFail := false, calSrc := 0, inj := none, injLeft := none, pos := SeqPos.start, first := false, last := none,
    mir := SeqPos.start, pass := 0, withheld := none,
    lane := [], dropN := 0, dropTs := 0, queue := [], chk := none, lastCyc := none, ladder := 0, bad := 0, good := 0,
    plausFail := false, plausStale := false }

/-- What the hod and the reference monitor hold beside their entries. -/
structure RefHw where
  /-- Lane that the write port served last (R201). -/
  lastLane : Nat
  /-- The samples of the last 100 ms, newest first, 0.1 ppm (R194). -/
  samples : List Rat
  /-- REF_AGE before rounding, 0.1 ppm. -/
  age : Rat
  /-- Consecutive samples within 15 ppm while REF_DIVERGE is set. -/
  calm : Nat
  /-- DIE_TEMP and DIE_TEMP2, 0.1 °C, as CV16 and CV17 last converted them (R485). -/
  die0 : Rat
  die1 : Rat
  deriving DecidableEq, Repr

/-- The hod and the monitor right after reset. -/
def RefHw.reset : RefHw := { lastLane := 17, samples := [], age := 0, calm := 0, die0 := 250, die1 := 250 }

/-! Metering ("Metering, Skim and Signed Measurement Records"). Values carry 32 fraction bits below their LSB (R209);
instants count CNVCLK cycles (R215). -/

/-- A power sample: instant, V in 20 µV, I in 10 µA, P in 100 µW. -/
structure Sample where
  t : Nat
  v : Int
  i : Int
  p : Int
  deriving DecidableEq, Repr

/-- An averaging window under way (R219): doubled integrals, integrated cycles, whether it started after metering of
the channel began, whether a cause of UNCERTAIN held, and whether it saw OVR or a gap. -/
structure WinAcc where
  v : Int
  i : Int
  p : Int
  len : Nat
  full : Bool
  unc : Bool
  ovr : Bool
  gap : Bool
  deriving DecidableEq, Repr

/-- The latched values of a window. -/
structure WinVal where
  v : Int
  i : Int
  p : Int
  deriving DecidableEq, Repr

/-- What a cut captures of a channel (R222, Table 7.5): accumulators, MET_FLAGS and CH_FLAGS, UNCERTAIN_TIME and GAP_TIME,
and what these two grew by since the previous record of the kind, in CNVCLK cycles. -/
structure ChanCut where
  eFwd : Int
  eRev : Int
  qFwd : Int
  qRev : Int
  epoch : Nat
  met : Nat
  flags : Nat
  unc : Nat
  gap : Nat
  dUnc : Nat
  dGap : Nat
  deriving DecidableEq, Repr

/-- Why a channel is cut: a window ends, the record `seq` of a kind (0 SKIM, 1 INTERVAL, 2 ON_DEMAND), or MET_CMD
CLEAR_ACC. -/
inductive CutKind where
  | window (w : Fin 3) (split : Bool)
  | record (k : Fin 3) (seq : Nat)
  | clear
  deriving DecidableEq, Repr

/-- A cut that awaits the segment that spans it. -/
structure Cut where
  t : Nat
  kind : CutKind
  deriving DecidableEq, Repr

/-- A metered quantity: a port, a feed, a rail, or a feed's output voltage. -/
structure MetHw where
  /-- The instant of the first usable result since the start: metering begins there (R219). -/
  begun : Option Nat
  vNow : Int
  iNow : Int
  pNow : Int
  /-- Recent voltage results and current results that await their voltage (R215), oldest first. -/
  vs : List (Nat × Int)
  cs : List (Nat × Int)
  /-- The last power sample, or the last cut of a gap; `joined` where a segment may start from it. -/
  last : Option Sample
  joined : Bool
  /-- Accumulators with their fractions, and epochs (R217). -/
  eFwd : Int
  eRev : Int
  qFwd : Int
  qRev : Int
  epochF : Nat
  epochR : Nat
  /-- UNCERTAIN_TIME and GAP_TIME, CNVCLK cycles. -/
  uncC : Nat
  gapC : Nat
  wins : Vector WinAcc 3
  avg : Vector WinVal 3
  /-- NOT_YET of the three windows, and UNCERTAIN, OVR and GAP of the last window of each length. -/
  notYet : Vector Bool 3
  wunc : Vector Bool 3
  wovr : Vector Bool 3
  wgap : Vector Bool 3
  cuts : List Cut
  unc : Bool
  ovr : Bool
  gap : Bool
  /-- The skim bank, and the captures of the records cut and not yet released, by their numbers. -/
  bank : ChanCut
  caps : List (Nat × ChanCut)
  /-- CH_FLAGS of results at or after a cut that still waits, with their instants (R214). -/
  marks : List (Nat × Nat)
  /-- CH_FLAGS gathered since the previous record of each kind. -/
  seen : Vector Nat 3
  /-- UNCERTAIN_TIME and GAP_TIME at the previous record of each kind. -/
  uncPrev : Vector Int 3
  gapPrev : Vector Int 3
  deriving DecidableEq, Repr

/-- A window that starts. -/
def WinAcc.start (full unc : Bool) : WinAcc :=
  { v := 0, i := 0, p := 0, len := 0, full := full, unc := unc, ovr := false, gap := !full }

/-- What a window without a value reads (R219): 0x8000_0000. -/
def WinVal.none : WinVal := { v := -2147483648, i := -2147483648, p := -2147483648 }

/-- An empty capture. -/
def ChanCut.zero : ChanCut :=
  { eFwd := 0, eRev := 0, qFwd := 0, qRev := 0, epoch := 0, met := 0, flags := 0, unc := 0, gap := 0, dUnc := 0, dGap := 0 }

/-- A metered quantity right after reset. -/
def MetHw.reset : MetHw :=
  { begun := none, vNow := 0, iNow := 0, pNow := 0, vs := [], cs := [], last := none, joined := false, eFwd := 0,
    eRev := 0, qFwd := 0, qRev := 0, epochF := 0, epochR := 0, uncC := 0, gapC := 0,
    wins := Vector.replicate 3 (WinAcc.start false false), avg := Vector.replicate 3 WinVal.none,
    notYet := Vector.replicate 3 true, wunc := Vector.replicate 3 false, wovr := Vector.replicate 3 false,
    wgap := Vector.replicate 3 false, cuts := [], unc := false, ovr := false, gap := false, bank := ChanCut.zero, caps := [], marks := [], seen := Vector.replicate 3 0, uncPrev := Vector.replicate 3 0,
    gapPrev := Vector.replicate 3 0 }

/-- A channel of a record with its shunt and user gains at the cut (Table 7.5). -/
structure CutChan where
  ch : Fin 66
  shunt : Int
  gainV : Int
  gainI : Int
  deriving DecidableEq, Repr

/-- The header of a record as captured at its cut (Table 7.4). -/
structure RecCut where
  /-- The channels of the record with their entries in force at the cut. -/
  chans : List CutChan
  seq : Nat
  tCut : Nat
  clk : Nat
  accStart : Nat
  lastPps : Nat
  op : Nat
  flags : Nat
  skimSeq : Nat
  deriving DecidableEq, Repr

/-- What metering remembers of the record kinds and of the skim in progress. -/
structure RecHw where
  /-- Kind of the record being signed. -/
  signing : Option (Fin 3)
  /-- The record of each kind that waits for signing or is being signed. -/
  wait : Vector (Option RecCut) 3
  /-- A second record of a kind that waits while the first is being signed (R231). -/
  next : Vector (Option RecCut) 3
  /-- T_CUT of the last signed record of each kind, and its ACC_START_TB. -/
  tPrev : Vector Nat 3
  accPrev : Vector (Option Nat) 3
  /-- CLK_STATUS[0] and REF_DIVERGE since the previous record of each kind. -/
  clkSeen : Vector Bool 3
  divSeen : Vector Bool 3
  /-- T of the scheduled skim. -/
  skimT : Nat
  /-- TB of the last INTERVAL cut: a multiple of the period (R227). -/
  interval : Nat
  /-- SYNC_OUT pulses driven so far, by skims and by trigger generators. -/
  syncOut : Nat
  deriving DecidableEq, Repr

/-- The record state right after reset. -/
def RecHw.reset : RecHw :=
  { signing := none, wait := Vector.replicate 3 none, next := Vector.replicate 3 none, tPrev := Vector.replicate 3 0,
    accPrev := Vector.replicate 3 none, clkSeen := Vector.replicate 3 false, divSeen := Vector.replicate 3 false,
    skimT := 0, interval := 0, syncOut := 0 }

/-! Rails ("Rail Sequencing, Margining and Supervision"). -/

/-- What the sequencer holds for a rail beside its entries. -/
structure RailHw where
  /-- EN is asserted. -/
  en : Bool
  ft : FaultTimer
  /-- PG has asserted since EN (R239). -/
  hadPg : Bool
  /-- TB at the assertion of EN. -/
  enTb : Nat
  /-- Code toward which the margin DAC moves (R249). -/
  goal : Int
  /-- The window is that of the margin limits (R251). -/
  wide : Bool
  /-- TBCLK period in which a cut withdrew the rail's pre-enable check (R244). -/
  dropped : Option Nat
  deriving DecidableEq, Repr

/-- The sequencer beside its entries. -/
structure CoatHw where
  /-- Held in reset: every EN and MGN pin high-impedance (R234). -/
  held : Bool
  /-- The phase in progress has completed and PHASE_GAP runs. -/
  phaseDone : Bool
  /-- Lowest phase that the power-down under way takes down. -/
  downTo : Nat
  /-- A cut fault met a power-down by command (R244). -/
  cutAfter : Bool
  /-- The run that SEQ_AUTO gives after a reset has had its chance (R247). -/
  autoRan : Bool
  /-- The first-fault entry on its way to NVM (R254), and the TBCLK period of its fault. -/
  ffNew : Option (List Nat)
  ffEdge : Nat
  deriving DecidableEq, Repr

/-- A rail right after reset. -/
def RailHw.reset : RailHw := { en := false, ft := .idle, hadPg := false, enTb := 0, goal := 0, wide := false, dropped := none }

/-- The sequencer right after reset: held until the stored values are applied (Table 17.6). -/
def CoatHw.reset : CoatHw :=
  { held := true, phaseDone := false, downTo := 0, cutAfter := false, autoRan := false, ffNew := none, ffEdge := 0 }

/-! The event recorder ("Event Recorder"). -/

/-- An extreme with the stamp of its millisecond (R261). -/
structure Extreme where
  value : Int
  cycles : Nat
  stamp : Nat
  deriving DecidableEq, Repr

/-- A channel of the image (Tables 9.1 and 9.5). Bins 0 to 63 are voltage, 64 to 127 current, 128 to 159 temperature, 160
to 175 contract level. -/
structure RecChan where
  scale : Vector Nat 4
  samples : Nat
  offMs : Nat
  uncMs : Nat
  bins : SMap Nat
  /-- V_MIN, V_MAX, I_MAX, P_MAX, T_MIN, T_MAX. -/
  ext : Vector (Option Extreme) 6
  deriving DecidableEq, Repr

/-- The image in the hawk, with the device block. -/
structure Hawk where
  chans : Vector RecChan 66
  startStamp : Nat
  startCycles : Nat
  /-- Counts of the FLUSH_ON classes since IMAGE_START. -/
  counts : Vector Nat 7
  deriving DecidableEq, Repr

/-- A flush under way (R264 to R266). -/
structure Flush where
  cause : Nat
  seq : Nat
  stamp : Nat
  tb : Nat
  cycles : Nat
  /-- The copy is complete. -/
  frozen : Bool
  /-- Leaves written so far. -/
  leaf : Nat
  /-- The last place tried on the other chip select (R272). -/
  alt : Option Nat
  deriving DecidableEq, Repr

/-- The recorder beside its entries. -/
structure RecorderHw where
  image : Hawk
  /-- The frozen image of the last flush. -/
  frozen : Hawk
  flush : Option Flush
  /-- The cause that waits for a flush (R265). -/
  due : Option Nat
  /-- TB at which FLUSH_MIN_GAP of the last flush ends. -/
  gapEnd : Nat
  /-- REC_CLEAR awaits the freeze of its flush (R262). -/
  clearing : Bool
  /-- A sample boundary fell during the copy (R264). -/
  sampleDue : Bool
  /-- Power-fail is declared (R271), and the TBCLK period of the declaration. -/
  powerFail : Bool
  pfEdge : Nat
  /-- Power-fail has been declared in this power cycle: the wall is not erased again (R272). -/
  noErase : Bool
  /-- The saves of a power-fail wait for the image leaves and the staged journal (R272). -/
  saveDue : Bool
  /-- No wall is fitted (R269). -/
  noWall : Bool
  /-- The devices on the two chip selects, as the start found them (R268). -/
  chips : Vector (Option WallFound) 2
  /-- Journal staging: octets not yet on the wall, and where records start among them. -/
  staging : List Nat
  starts : List Nat
  /-- Octets of the staging that a flush has still to write (R265). -/
  owed : Nat
  /-- The leaf in program of a flush that power-fail abandoned (R272). -/
  cutLeaf : Option (List Nat)
  /-- Signed records that await the journal (R270). -/
  signed : List (List Nat)
  /-- The wall in pages of 1,024 octets; an unlisted page is erased. -/
  wall : SMap (List Nat)
  /-- Wall address of the next leaf of the histogram ring. -/
  histHead : Nat
  /-- Erase blocks ahead of a head whose erase failed: writes skip them (R269). -/
  bad : List Nat
  /-- Cursors: CANA, CANB, TW0, TW1, the plumb pair, PE00 to PE16 (R274). -/
  cursors : Vector Nat 22
  /-- TBCLK period of the last OP_SECONDS tick. -/
  opEdge : Nat
  deriving DecidableEq, Repr

/-- An empty channel of the image (R262). -/
def RecChan.empty : RecChan :=
  { scale := Vector.replicate 4 0, samples := 0, offMs := 0, uncMs := 0, bins := [], ext := Vector.replicate 6 none }

/-- An empty image begun at a stamp. -/
def Hawk.empty (stamp cycles : Nat) : Hawk :=
  { chans := Vector.replicate 66 RecChan.empty, startStamp := stamp, startCycles := cycles, counts := Vector.replicate 7 0 }

/-- The recorder right after reset. -/
def RecorderHw.reset : RecorderHw :=
  { image := Hawk.empty 0 0, frozen := Hawk.empty 0 0, flush := none, due := none, gapEnd := 0, clearing := false, sampleDue := false,
    powerFail := false, pfEdge := 0, noErase := false, saveDue := false, noWall := false, chips := Vector.replicate 2 none, staging := [], starts := [], owed := 0,
    cutLeaf := none, signed := [], wall := [], histHead := 0x04000000, bad := [], cursors := Vector.replicate 22 0, opEdge := 0 }


/-! The time base, the counters, the compare channels and the trigger generators ("Time Base, Counters and Trigger
Generators"). -/

/-- A native counter (Table 12.1), with the TBCLK edges since its last count. -/
structure CtHw where
  val : Nat
  phase : Nat
  cmpA : Nat
  cmpB : Nat
  cap : Nat
  capf : Bool
  ovrn : Bool
  evA : Bool
  evB : Bool
  wrap : Bool
  ien : Nat
  deriving DecidableEq, Repr

/-- A TB compare channel (Table 12.1). -/
structure TbcHw where
  value : Nat
  arm : Bool
  periodic : Bool
  fired : Bool
  late : Bool
  ie : Bool
  step : Nat
  deriving DecidableEq, Repr

/-- A trigger generator (Table 12.1), with the TB ticks since its last count and whether a start or a stop waits. -/
structure TgHw where
  period : Nat
  active : Nat
  count : Nat
  phase : Nat
  imm : Bool
  skip : Bool
  evt : Bool
  ie : Bool
  run : Bool
  late : Bool
  waiting : Bool
  stopping : Bool
  deriving DecidableEq, Repr

/-- An event on its way: to the converters whose SEQ_TRIG names `src` (R182), to the injected request of a converter (R185), or to
the capture register of a counter (R344). -/
inductive Due where
  | pass (src : Nat)
  | inj (c : Fin 18)
  | cap (k : Fin 32)
  deriving DecidableEq, Repr

/-- The time base beside TB (R336 to R339, R347). -/
structure TimeHw where
  /-- Fraction of TB and the rate δ, in 2⁻³² tick. -/
  frac : Nat
  delta : Int
  /-- A TB_STEP waits for its edge (R338). -/
  step : Option Nat
  /-- Consecutive edges within 2 ns. -/
  good : Nat
  /-- The TBCLK periods since power-on, 10 ns each: the model's own axis of time, which no step and no reset but POR breaks. -/
  edges : Nat
  /-- TB right after it last moved otherwise than by counting, and the edge of that (R335, R338). -/
  baseTb : Nat
  baseEdge : Nat
  /-- The edge of the last active edge on PPS_IN and on SYNC_IN. -/
  ppsLast : Option Nat
  syncLast : Option Nat
  /-- TB of the last boundary taken of each window length (R219). -/
  winAt : Vector Nat 3
  /-- Events on their way to the converters and the capture registers that select them (R182, R185, R344). -/
  due : List Due
  /-- TB_HI of each requester: PE00 to PE16, the plumb pair, CANA, CANB, TW0, TW1. -/
  hi : Vector Nat 22
  /-- CT_SNAP by core × 32 + counter. -/
  snap : SMap Nat
  /-- WR_DENIED of each core. -/
  denied : Vector Bool 18
  /-- The 7-bit accumulator of the catch-up. -/
  acc : Nat
  deriving DecidableEq, Repr

/-- A counter right after reset. -/
def CtHw.reset : CtHw :=
  { val := 0, phase := 0, cmpA := 0xFFFF, cmpB := 0xFFFF, cap := 0, capf := false, ovrn := false, evA := false,
    evB := false, wrap := false, ien := 0 }

/-- A compare channel right after reset. -/
def TbcHw.reset : TbcHw :=
  { value := 0, arm := false, periodic := false, fired := false, late := false, ie := false, step := 0 }

/-- A generator right after reset. -/
def TgHw.reset : TgHw :=
  { period := 0xFFFFFFFF, active := 0xFFFFFFFF, count := 0, phase := 0, imm := false, skip := false, evt := false,
    ie := false, run := false, late := false, waiting := false, stopping := false }

/-- The time base right after reset. -/
def TimeHw.reset : TimeHw :=
  { frac := 0, delta := 0, step := none, good := 0, edges := 0, baseTb := 0, baseEdge := 0, ppsLast := none, syncLast := none,
    winAt := Vector.replicate 3 0, due := [], hi := Vector.replicate 22 0,
    snap := [], denied := Vector.replicate 18 false, acc := 0 }

/-! One-time-programmable memory ("One-Time-Programmable Memory"). -/

/-- The state of a word (Table 16.2). -/
inductive WordSt where
  | blank | good | weak | bad
  deriving DecidableEq, Repr

/-- A word of the array (R422, R424): its 39 cells, data in bits 0 to 31 and check cells above, as read at MARGIN_HI, at the nominal
reference and at MARGIN_LO. A burned cell reads 1; one that reads burned at a reference does so at every lower one. -/
structure OtpWord where
  hi : Nat
  nom : Nat
  lo : Nat
  deriving DecidableEq, Repr

/-- A command of the OTP controller with the operands it captured. -/
inductive OtpJob where
  | read (a : Nat)
  | program (a d : Nat)
  | repair (a d : Nat)
  | finalise (r : Fin 4)
  | advance (k : Fin 32)
  | floors (keeper engine : Nat)
  deriving DecidableEq, Repr

/-- The OTP array and its controller. Words 0 to 4,095 are the array, word i of spare row n is 4,096 + 32n + i, entry n of the
redirection table is 4,608 + n (R423). -/
structure OtpHw where
  cells : SMap OtpWord
  job : Option OtpJob
  /-- Power-fail met the command: no further attempt starts (R441). -/
  stopped : Bool
  deriving DecidableEq, Repr

/-- A blank word. -/
def OtpWord.blank : OtpWord := { hi := 0, nom := 0, lo := 0 }

/-- The array right after reset: nothing burned. -/
def OtpHw.reset : OtpHw := { cells := [], job := none, stopped := false }

/-! Trust and boot ("Trust Model and Secure Boot"). -/

/-- What the security block, the boot and the debug port hold beside their entries. -/
structure SecHw where
  /-- Code on STAT0 to STAT2 (Table 15.5). -/
  stat : Nat
  /-- The device is held in reset with its code (R407). -/
  held : Bool
  /-- The loader runs (R409). -/
  loader : Bool
  /-- SHA-384 of the integrator key that signed the image in force, none where it is unsigned (R412). -/
  imageKey : Option (List Nat)
  /-- ENGINE_HASH of the image in force (R408). -/
  engineHash : List Nat
  /-- ENGINE_LEN of the image in force. -/
  engineLen : Nat
  /-- NOT_AFTER of the L3 that a token gave the session of a transport (R360). -/
  l3 : Vector (Option Nat) 4
  /-- NOT_AFTER of the JTAG scope (R416). -/
  jtagUntil : Option Nat
  /-- Cores halted through the debug port (R417). -/
  halted : Vector Bool 18
  tap : TapIns
  deriving DecidableEq, Repr

/-- The security block right after reset: STAT shows reset, no code runs. -/
def SecHw.reset : SecHw :=
  { stat := 0, held := false, loader := false, imageKey := none, engineHash := [], engineLen := 0, l3 := Vector.replicate 4 none, jtagUntil := none,
    halted := Vector.replicate 18 false, tap := .bypass }

/-! Port engines, float engine and plumb pair ("Port Engines, Keeper Pair and Float Engine"; "Zamor-32 Instruction
Reference"). -/

/-- What a core is doing: held in ENG reset; executing; in WAIT; stopped by its own double fault (plumb pair). -/
inductive CoreRun where
  | reset | running | waiting | dead
  deriving DecidableEq, Repr

/-- A write to D-space by instruction `idx` that later instructions do not all see yet (R285): octets from `addr`; `unit` where
the CRC unit or the string unit wrote the word through (R324, R327). -/
structure PendWrite where
  idx : Nat
  addr : Nat
  octets : List Nat
  unit : Bool
  deriving DecidableEq, Repr

/-- A change of FLG (R285): the cycle at whose end it lands, the bits it changes and their values. -/
structure FlagWrite where
  land : Nat
  mask : Nat
  val : Nat
  deriving DecidableEq, Repr

/-- Where a core goes on after the delay slots of a taken branch (R287): an address, or the word at SP, which RETE leaves there until
its slots have run (R294). -/
inductive BranchTo where
  | addr (a : Nat)
  | stack
  deriving DecidableEq, Repr

/-- An RPT awaiting its string instruction, or a repeat between two iterations (R325, R329): the address of the prefix, the
count to load, none where the pair was re-entered by RETE, whether the string instruction is reached, and whether an iteration has run
since. -/
structure RptHw where
  addr : Nat
  count : Option Nat
  begun : Bool
  ran : Bool
  deriving DecidableEq, Repr

/-- A block transfer in progress (R289). -/
structure Xfer where
  push : Bool
  loc : Nat
  shared : Nat
  len : Nat
  deriving DecidableEq, Repr

/-- A Zamor-32 core. -/
structure CoreHw where
  run : CoreRun
  /-- I-space and D-space octets; the core page lies in D-space but for FLG. -/
  imem : SMap Nat
  dmem : SMap Nat
  pc : Nat
  /-- Number of the next instruction in execution order. -/
  idx : Nat
  pend : List PendWrite
  flg : Nat
  flgPend : List FlagWrite
  /-- Delay slots still to execute, and the target of a taken branch (R287). -/
  slots : Nat
  target : Option BranchTo
  rpt : Option RptHw
  /-- IO writes issued and not yet landed: instruction, address, value. -/
  posted : List (Nat × Nat × Nat)
  xfers : Vector (Option Xfer) 4
  /-- WDOG waits for its instruction (R333). -/
  wdog : Bool
  deriving DecidableEq, Repr

/-- An engine's keeper mailbox (Table 10.9): words waiting in the request queue, words of the request the plumb pair has
taken, words of the responses, how many of them belong to a response already read in part, and the command word not yet read. -/
structure MboxHw where
  fifo : List Nat
  tx : List Nat
  rx : List Nat
  rxPart : Nat
  kcmd : Option Nat
  deriving DecidableEq, Repr

/-- What the float engine and the barrier hold beside their registers. -/
structure FloatHw where
  /-- Adoption awaits ADOPT DONE. -/
  pending : Bool
  declTb : Nat
  /-- The set of the open barrier; empty where none is open. -/
  barrier : List Nat
  /-- Engines of the set that have arrived. -/
  arrived : List Nat
  /-- CKPT_LATE in force for each engine, ms (R310). -/
  ckLate : Vector Int 17
  deriving DecidableEq, Repr

/-- A core in ENG reset. -/
def CoreHw.reset : CoreHw :=
  { run := .reset, imem := [], dmem := [], pc := 0, idx := 0, pend := [], flg := 0, flgPend := [], slots := 0, target := none,
    rpt := none, posted := [], xfers := Vector.replicate 4 none, wdog := false }

/-- An empty mailbox. -/
def MboxHw.reset : MboxHw := { fifo := [], tx := [], rx := [], rxPart := 0, kcmd := none }

/-- The float engine right after reset. -/
def FloatHw.reset : FloatHw := { pending := false, declTb := 0, barrier := [], arrived := [], ckLate := Vector.replicate 17 3 }

/-! Power states and degraded operation ("Power States, Resets and Degraded Operation"). -/

/-- The power ladder: in S0; entering a state; in a low-power state; on the way back to S0. -/
inductive PsPhase where
  | run | entering | low | exiting
  deriving DecidableEq, Repr

/-- A DEG_CMD that runs (R461). -/
inductive DegJob where
  | clearSafe (p : Fin 64)
  | handback (k : Fin 16)
  | resetTile (n : Fin 8)
  deriving DecidableEq, Repr

/-- Power control beside its registers. -/
structure PowerHw where
  phase : PsPhase
  /-- The state being entered or held, 1 to 5; 0 in S0. -/
  target : Nat
  deg : Option DegJob
  /-- A SOFT reset has been requested and follows its response (R373). -/
  softDue : Bool
  deriving DecidableEq, Repr

/-- Power control right after reset: S0. -/
def PowerHw.reset : PowerHw := { phase := .run, target := 0, deg := none, softDue := false }

/-! Two-wire buses ("Two-Wire Buses"). -/

/-- A controller transaction (R390): what GO captured, retries left, whether it runs or waits for the bus, and whether ABORT
has been asked. -/
structure TwJob where
  target : Nat
  wdata : List Nat
  rlen : Nat
  retries : Nat
  onBus : Bool
  aborting : Bool
  deriving DecidableEq, Repr

/-- What the device does as target: nothing, receiving, sending (TW_STATE). -/
inductive TwTarget where
  | idle | rx | tx
  deriving DecidableEq, Repr

/-- A two-wire bus. -/
structure TwHw where
  /-- The bus is busy (R391). -/
  busy : Bool
  ctl : Option TwJob
  tgt : TwTarget
  /-- Octets that the last read transaction drove. -/
  sent : List Nat
  deriving DecidableEq, Repr

/-- A two-wire bus right after reset: busy until a STOP or 50 µs of quiet (R391). -/
def TwHw.reset : TwHw := { busy := true, ctl := none, tgt := .idle, sent := [] }

/-! The dictionary and its transports ("Object Dictionary and Its Transports"). -/

/-- Why a response is held: a STORE, an OTP command, a swap PORT_CMD of a port. -/
inductive HeldWhy where
  | store | otp | port (p : Fin 64)
  deriving DecidableEq, Repr

/-- A request in progress whose response is held: `why` names the items that hold it. -/
structure HeldReq where
  seq : Nat
  opcode : Nat
  secure : Bool
  why : List (Nat × HeldWhy)
  deriving DecidableEq, Repr

/-- What a CAN controller holds beside its entries: the CAN entries of Table 13.6 in force for it, in their order; the values that an apply
strobe has brought and that it takes at its next bus-idle (R382); whether it has left the bus for a change of rate; and the frames of responses
still to be sent, identifier and data field (R376). -/
structure CanHw where
  cfg : Vector Int 10
  next : Option (Vector Int 10)
  away : Bool
  frames : List (Nat × List Nat)
  deriving DecidableEq, Repr

/-- A controller right after reset: the defaults of Table 13.6. -/
def CanHw.reset : CanHw :=
  { cfg := Vector.ofFn fun i => ([1, 3, 0x600, 0x580, 3, 3, 80, 75, 50, 0] : List Int).getD i.val 0, next := none, away := false, frames := [] }

/-- A source of requests: PE00 to PE16, the plumb pair, CANA, CANB, TW0, TW1. -/
structure SrcHw where
  /-- Octets of the request DF so far, and the next segment number on CAN (R376). -/
  part : List Nat
  seg : Nat
  /-- SEQ of the last completed request, and the response in octets (R364). -/
  lastSeq : Option Nat
  lastResp : List Nat
  /-- The response that stands on the transport. -/
  resp : List Nat
  held : Option HeldReq
  /-- The controller of CANA or CANB. -/
  can : CanHw
  deriving DecidableEq, Repr

/-- Where a session stands (R357). -/
inductive SessPhase where
  | none | opened | confirmed
  deriving DecidableEq, Repr

/-- The session of a host transport. -/
structure SessHw where
  phase : SessPhase
  asked : Nat
  sid : List Nat
  key : List Nat
  transcript : List Nat
  /-- Last accepted counter and the counter of the next sealed response. -/
  ctrIn : Option Nat
  ctrOut : Nat
  refusals : Nat
  deriving DecidableEq, Repr

/-- A bank of the stored image (R369): the values that differ from their defaults. -/
structure Bank where
  vals : SMap Int
  blobs : SMap (List Nat)
  deriving DecidableEq, Repr

/-- The stored image: its banks, none where a bank fails its CRC, and the snapshot being written. -/
structure NvmHw where
  bankA : Option Bank
  bankB : Option Bank
  storing : Option Bank
  /-- The image slot that is being written: it is invalid to the boot until VERIFY finds it valid (R413, R420). -/
  imgOpen : Option Nat
  deriving DecidableEq, Repr

/-- A source right after reset. -/
def SrcHw.reset : SrcHw := { part := [], seg := 0, lastSeq := none, lastResp := [], resp := [], held := none, can := CanHw.reset }

/-- No session. -/
def SessHw.reset : SessHw :=
  { phase := .none, asked := 0, sid := [], key := [], transcript := [], ctrIn := none, ctrOut := 0, refusals := 0 }

/-- The NVM right after reset of a part that has stored nothing: bank A valid, every value at its default. -/
def NvmHw.reset : NvmHw := { bankA := some { vals := [], blobs := [] }, bankB := none, storing := none, imgOpen := none }

/-- The state of the device. `pending` is the queue of waiting commands, first in, first out. -/
structure State where
  /-- Commands waiting, oldest first. -/
  pending : List Instr
  /-- Active values of the numeric dictionary entries. -/
  od : SMap Int
  /-- Values written and not yet applied (R367); none where nothing is pending. -/
  odNew : SMap (Option Int)
  /-- Octet-string entries. -/
  blob : SMap (List Nat)
  /-- IO registers of the cores, by block and offset. -/
  io : SMap Int
  /-- The model's own counter of free values drawn; no claim rests on it. -/
  fresh : Nat
  /-- The time base TB (R335). -/
  tb : Nat
  /-- Comparators. -/
  cmps : Vector CmpHw 164
  /-- Port power paths. -/
  paths : Vector PathHw 64
  /-- Feed stages. -/
  feeds : Vector FeedHw 2
  /-- Strip slots. -/
  slots : Vector SlotHw 8
  /-- The ledger's records of the ports. -/
  ledgerPorts : Vector LedgerPort 64
  /-- The ledger. -/
  ledger : LedgerHw
  /-- Tiles and links. -/
  tiles : Vector TileHw 8
  /-- Port attach, protocol and contract state. -/
  ports : Vector PortHw 64
  /-- The armed copies of the scrim masks. -/
  scrim : ScrimHw
  /-- Output pins that the scrim and the dictionary drive. -/
  pins : Pins
  /-- A rail fault with action CUT_PHASE_ON or CUT_ALL holds FAULT_N bit 5 (R164, R245). -/
  coatFault : Bool
  /-- Clocks. -/
  clk : ClkHw
  /-- Converters and hod lanes. -/
  convs : Vector ConvHw 18
  /-- The hod write port, the reference monitor and the die temperatures. -/
  ref : RefHw
  /-- Metered quantities: 64 ports, 2 feeds, 32 rails, 2 feed outputs. -/
  mets : Vector MetHw 100
  /-- Measurement records. -/
  recs : RecHw
  /-- OTP words as read at the last start; none where absent (R440). -/
  otpShadow : SMap (Option Nat)
  /-- Rails. -/
  rails : Vector RailHw 32
  /-- The rail sequencer. -/
  coat : CoatHw
  /-- The event recorder and the wall. -/
  recorder : RecorderHw
  /-- Values kept in NVM one by one, by dictionary key. -/
  nv : SMap Int
  /-- Status (Table 13.4) that the last command of the dictionary answered. -/
  answer : Nat
  /-- Native counters. -/
  cts : Vector CtHw 32
  /-- TB compare channels. -/
  tbcs : Vector TbcHw 32
  /-- Trigger generators. -/
  tgs : Vector TgHw 8
  /-- The time base beside TB. -/
  time : TimeHw
  /-- The OTP array and its controller. -/
  otp : OtpHw
  /-- Zamor-32 cores: PE00 to PE16, 17 the plumb pair. -/
  cores : Vector CoreHw 18
  /-- Keeper mailboxes of the engines. -/
  mboxes : Vector MboxHw 17
  /-- Shared SRAM octets by offset from 0x0100_0000, the hawk apart. -/
  shared : SMap Nat
  /-- The float engine and the barrier. -/
  float : FloatHw
  /-- Power states and degraded operation. -/
  power : PowerHw
  /-- Two-wire buses. -/
  tws : Vector TwHw 2
  /-- Sources of requests: PE00 to PE16, the plumb pair, CANA, CANB, TW0, TW1. -/
  srcs : Vector SrcHw 22
  /-- Sessions of CANA, CANB, TW0, TW1. -/
  sess : Vector SessHw 4
  /-- The banks of the stored image. -/
  nvm : NvmHw
  /-- The security block, the boot and the debug port. -/
  sec : SecHw
  deriving DecidableEq, Repr

/-- The device right after a power-on reset: every entry and register at its reset value, no command waiting. -/
def State.reset : State where
  pending := []
  od := []
  odNew := []
  blob := []
  io := []
  fresh := 0
  tb := 0
  cmps := Vector.ofFn fun c : Fin 164 => CmpHw.reset c.val
  paths := Vector.replicate 64 PathHw.reset
  feeds := Vector.replicate 2 FeedHw.reset
  slots := Vector.replicate 8 SlotHw.reset
  ledgerPorts := Vector.replicate 64 LedgerPort.reset
  ledger := LedgerHw.reset
  tiles := Vector.replicate 8 TileHw.reset
  ports := Vector.replicate 64 PortHw.reset
  scrim := ScrimHw.reset
  pins := Pins.reset
  coatFault := false
  clk := ClkHw.reset
  convs := Vector.replicate 18 ConvHw.reset
  ref := RefHw.reset
  mets := Vector.replicate 100 MetHw.reset
  recs := RecHw.reset
  otpShadow := []
  rails := Vector.replicate 32 RailHw.reset
  coat := CoatHw.reset
  recorder := RecorderHw.reset
  nv := []
  answer := 0
  cts := Vector.replicate 32 CtHw.reset
  tbcs := Vector.replicate 32 TbcHw.reset
  tgs := Vector.replicate 8 TgHw.reset
  time := TimeHw.reset
  otp := OtpHw.reset
  cores := Vector.replicate 18 CoreHw.reset
  mboxes := Vector.replicate 17 MboxHw.reset
  shared := []
  float := FloatHw.reset
  power := PowerHw.reset
  tws := Vector.replicate 2 TwHw.reset
  srcs := Vector.replicate 22 SrcHw.reset
  sess := Vector.replicate 4 SessHw.reset
  nvm := NvmHw.reset
  sec := SecHw.reset

end Sys2Proof.Machine
end

