-- ==== Sys2Proof/Machine/Access.lean ====
section
/-! DEFINITION. Named reads and writes of the state: the dictionary by area and entry, the IO registers by block and
offset, and the records of the replicated units. Every read and write of a value of the state goes through these. -/

namespace Sys2Proof.Machine

/-- What an IO register of block `b` (0 to 16 the engines, 17 the plumb pair) reads at reset; key `b × 0x10000 + offset`. -/
def ioDefault (k : Nat) : Int :=
  let o := k % 0x10000
  if k / 0x10000 = 17 ∧ 0xF000 ≤ o then
    if o = 0xF008 then 0x0FFF else if o = 0xF010 then 2000 else if o = 0xF018 then 1 else 0
  else if 0x1000 ≤ o ∧ o < 0x1400 ∧ o % 0x100 = 4 then 300 * 65536 + 500
  else if o = 0x601C ∨ o = 0x701C then 1
  else if o = 0x6040 ∨ o = 0x7040 then 0x1D
  else if o = 0xF014 then 1000
  else if o = 0xF040 then 0x1F
  else 0

/-- Key of entry `e` of an area instance: first index, index step, instance. -/
def areaKey (base step i e : Nat) : Nat := (base + step * i) * 256 + e

/-- A numeric dictionary entry by its absolute key. -/
def State.rd (s : State) (k : Nat) : Int := odGet s.od k

/-- Writes a numeric dictionary entry. -/
def State.wr (s : State) (k : Nat) (v : Int) : State := { s with od := odPut s.od k v }

/-- An octet-string entry. -/
def State.rdB (s : State) (k : Nat) : List Nat := blobGet s.blob k

/-- Writes an octet-string entry. -/
def State.wrB (s : State) (k : Nat) (v : List Nat) : State := { s with blob := blobPut s.blob k v }

/-- An IO register of block `b`. -/
def State.ior (s : State) (b off : Nat) : Int := SMap.get ioDefault s.io (b * 0x10000 + off)

/-- Writes an IO register of block `b`. -/
def State.iow (s : State) (b off : Nat) (v : Int) : State :=
  { s with io := SMap.put ioDefault s.io (b * 0x10000 + off) v }

/-- Key of entry `e` of a port. -/
def keyP (i : Port) (e : Nat) : Nat := areaKey 0x2000 0x40 i.val e

/-- Entry `e` of a port. -/
def State.rP (s : State) (i : Port) (e : Nat) : Int := s.rd (keyP i e)

/-- Writes entry `e` of a port. -/
def State.wP (s : State) (i : Port) (e : Nat) (v : Int) : State := s.wr (keyP i e) v

/-- Key of entry `e` of a rail. -/
def keyR (i : Rail) (e : Nat) : Nat := areaKey 0x3000 0x10 i.val e

/-- Entry `e` of a rail. -/
def State.rR (s : State) (i : Rail) (e : Nat) : Int := s.rd (keyR i e)

/-- Writes entry `e` of a rail. -/
def State.wR (s : State) (i : Rail) (e : Nat) (v : Int) : State := s.wr (keyR i e) v

/-- Key of entry `e` of a converter. -/
def keyV (i : Conv) (e : Nat) : Nat := areaKey 0x3400 0x10 i.val e

/-- Entry `e` of a converter. -/
def State.rV (s : State) (i : Conv) (e : Nat) : Int := s.rd (keyV i e)

/-- Writes entry `e` of a converter. -/
def State.wV (s : State) (i : Conv) (e : Nat) (v : Int) : State := s.wr (keyV i e) v

/-- Key of entry `e` of a comparator. -/
def keyC (i : Cmp) (e : Nat) : Nat := areaKey 0x4800 0x1 i.val e

/-- Entry `e` of a comparator. -/
def State.rC (s : State) (i : Cmp) (e : Nat) : Int := s.rd (keyC i e)

/-- Writes entry `e` of a comparator. -/
def State.wC (s : State) (i : Cmp) (e : Nat) (v : Int) : State := s.wr (keyC i e) v

/-- Key of entry `e` of a feed. -/
def keyF (i : Feed) (e : Nat) : Nat := areaKey 0x3220 0x10 i.val e

/-- Entry `e` of a feed. -/
def State.rF (s : State) (i : Feed) (e : Nat) : Int := s.rd (keyF i e)

/-- Writes entry `e` of a feed. -/
def State.wF (s : State) (i : Feed) (e : Nat) (v : Int) : State := s.wr (keyF i e) v

/-- Key of entry `e` of a strip slot. -/
def keyS (i : Slot) (e : Nat) : Nat := areaKey 0x3210 0x1 i.val e

/-- Entry `e` of a strip slot. -/
def State.rS (s : State) (i : Slot) (e : Nat) : Int := s.rd (keyS i e)

/-- Writes entry `e` of a strip slot. -/
def State.wS (s : State) (i : Slot) (e : Nat) (v : Int) : State := s.wr (keyS i e) v

/-- Key of entry `e` of a metering channel. -/
def keyM (i : Chan) (e : Nat) : Nat := areaKey 0x3640 0x1 i.val e

/-- Entry `e` of a metering channel. -/
def State.rM (s : State) (i : Chan) (e : Nat) : Int := s.rd (keyM i e)

/-- Writes entry `e` of a metering channel. -/
def State.wM (s : State) (i : Chan) (e : Nat) (v : Int) : State := s.wr (keyM i e) v

/-- Key of entry `e` of a two-wire bus. -/
def keyW (i : Bus) (e : Nat) : Nat := areaKey 0x4000 0x100 i.val e

/-- Entry `e` of a two-wire bus. -/
def State.rW (s : State) (i : Bus) (e : Nat) : Int := s.rd (keyW i e)

/-- Writes entry `e` of a two-wire bus. -/
def State.wW (s : State) (i : Bus) (e : Nat) (v : Int) : State := s.wr (keyW i e) v

/-- Key of entry `e` of a counter. -/
def keyT (i : Ctr) (e : Nat) : Nat := areaKey 0x4410 0x1 i.val e

/-- Entry `e` of a counter. -/
def State.rT (s : State) (i : Ctr) (e : Nat) : Int := s.rd (keyT i e)

/-- Writes entry `e` of a counter. -/
def State.wT (s : State) (i : Ctr) (e : Nat) (v : Int) : State := s.wr (keyT i e) v

/-- Key of entry `e` of a compare channel. -/
def keyU (i : Tbc) (e : Nat) : Nat := areaKey 0x4430 0x1 i.val e

/-- Entry `e` of a compare channel. -/
def State.rU (s : State) (i : Tbc) (e : Nat) : Int := s.rd (keyU i e)

/-- Writes entry `e` of a compare channel. -/
def State.wU (s : State) (i : Tbc) (e : Nat) (v : Int) : State := s.wr (keyU i e) v

/-- Key of entry `e` of a trigger generator. -/
def keyX (i : Tg) (e : Nat) : Nat := areaKey 0x4450 0x1 i.val e

/-- Entry `e` of a trigger generator. -/
def State.rX (s : State) (i : Tg) (e : Nat) : Int := s.rd (keyX i e)

/-- Writes entry `e` of a trigger generator. -/
def State.wX (s : State) (i : Tg) (e : Nat) (v : Int) : State := s.wr (keyX i e) v

/-- The CmpHw record of unit `i`. -/
def State.cmp (s : State) (i : Cmp) : CmpHw := tget s.cmps i

/-- Replaces the CmpHw record of unit `i`. -/
def State.setCmp (s : State) (i : Cmp) (x : CmpHw) : State := { s with cmps := tset s.cmps i x }

/-- The PathHw record of unit `i`. -/
def State.path (s : State) (i : Port) : PathHw := tget s.paths i

/-- Replaces the PathHw record of unit `i`. -/
def State.setPath (s : State) (i : Port) (x : PathHw) : State := { s with paths := tset s.paths i x }

/-- The FeedHw record of unit `i`. -/
def State.feed (s : State) (i : Feed) : FeedHw := tget s.feeds i

/-- Replaces the FeedHw record of unit `i`. -/
def State.setFeed (s : State) (i : Feed) (x : FeedHw) : State := { s with feeds := tset s.feeds i x }

/-- The SlotHw record of unit `i`. -/
def State.slot (s : State) (i : Slot) : SlotHw := tget s.slots i

/-- Replaces the SlotHw record of unit `i`. -/
def State.setSlot (s : State) (i : Slot) (x : SlotHw) : State := { s with slots := tset s.slots i x }

/-- The LedgerPort record of unit `i`. -/
def State.lport (s : State) (i : Port) : LedgerPort := tget s.ledgerPorts i

/-- Replaces the LedgerPort record of unit `i`. -/
def State.setLport (s : State) (i : Port) (x : LedgerPort) : State := { s with ledgerPorts := tset s.ledgerPorts i x }

/-- The PortHw record of unit `i`. -/
def State.port (s : State) (i : Port) : PortHw := tget s.ports i

/-- Replaces the PortHw record of unit `i`. -/
def State.setPort (s : State) (i : Port) (x : PortHw) : State := { s with ports := tset s.ports i x }

/-- The ConvHw record of unit `i`. -/
def State.conv (s : State) (i : Conv) : ConvHw := tget s.convs i

/-- Replaces the ConvHw record of unit `i`. -/
def State.setConv (s : State) (i : Conv) (x : ConvHw) : State := { s with convs := tset s.convs i x }

/-- The MetHw record of unit `i`. -/
def State.met (s : State) (i : Fin 100) : MetHw := tget s.mets i

/-- Replaces the MetHw record of unit `i`. -/
def State.setMet (s : State) (i : Fin 100) (x : MetHw) : State := { s with mets := tset s.mets i x }

/-- The RailHw record of unit `i`. -/
def State.rail (s : State) (i : Rail) : RailHw := tget s.rails i

/-- Replaces the RailHw record of unit `i`. -/
def State.setRail (s : State) (i : Rail) (x : RailHw) : State := { s with rails := tset s.rails i x }

/-- The TileHw record of unit `i`. -/
def State.tile (s : State) (i : Tile) : TileHw := tget s.tiles i

/-- Replaces the TileHw record of unit `i`. -/
def State.setTile (s : State) (i : Tile) (x : TileHw) : State := { s with tiles := tset s.tiles i x }

/-- The CtHw record of unit `i`. -/
def State.ct (s : State) (i : Ctr) : CtHw := tget s.cts i

/-- Replaces the CtHw record of unit `i`. -/
def State.setCt (s : State) (i : Ctr) (x : CtHw) : State := { s with cts := tset s.cts i x }

/-- The TbcHw record of unit `i`. -/
def State.tbc (s : State) (i : Tbc) : TbcHw := tget s.tbcs i

/-- Replaces the TbcHw record of unit `i`. -/
def State.setTbc (s : State) (i : Tbc) (x : TbcHw) : State := { s with tbcs := tset s.tbcs i x }

/-- The CoreHw record of unit `i`. -/
def State.core (s : State) (i : CoreId) : CoreHw := tget s.cores i

/-- Replaces the CoreHw record of unit `i`. -/
def State.setCore (s : State) (i : CoreId) (x : CoreHw) : State := { s with cores := tset s.cores i x }

/-- The MboxHw record of unit `i`. -/
def State.mbox (s : State) (i : Eng) : MboxHw := tget s.mboxes i

/-- Replaces the MboxHw record of unit `i`. -/
def State.setMbox (s : State) (i : Eng) (x : MboxHw) : State := { s with mboxes := tset s.mboxes i x }

/-- The TwHw record of unit `i`. -/
def State.tw (s : State) (i : Bus) : TwHw := tget s.tws i

/-- Replaces the TwHw record of unit `i`. -/
def State.setTw (s : State) (i : Bus) (x : TwHw) : State := { s with tws := tset s.tws i x }

/-- The SrcHw record of unit `i`. -/
def State.src (s : State) (i : Requester) : SrcHw := tget s.srcs i

/-- Replaces the SrcHw record of unit `i`. -/
def State.setSrc (s : State) (i : Requester) (x : SrcHw) : State := { s with srcs := tset s.srcs i x }

/-- The SessHw record of unit `i`. -/
def State.ses (s : State) (i : Transport) : SessHw := tget s.sess i

/-- Replaces the SessHw record of unit `i`. -/
def State.setSes (s : State) (i : Transport) (x : SessHw) : State := { s with sess := tset s.sess i x }

/-- The TgHw record of unit `i`. -/
def State.tg (s : State) (i : Tg) : TgHw := tget s.tgs i

/-- Replaces the TgHw record of unit `i`. -/
def State.setTg (s : State) (i : Tg) (x : TgHw) : State := { s with tgs := tset s.tgs i x }

end Sys2Proof.Machine
end

