-- ==== Sys2Proof/Machine/Ops.lean ====
section
/-! DEFINITION. The operations shared by all families: alerts, engine events, counters, the output pins that follow the
state, and how a meaning ends. -/

namespace Sys2Proof.Machine

/-- The engine block of the four ports that hold port `p` (R16). -/
def blockOf (p : Port) : Nat := p.val / 4

/-- The local number of port `p` in its block. -/
def localOf (p : Port) : Nat := p.val % 4

/-- The tile of port `p` (R16). -/
def tileOf (p : Port) : Tile := ⟨p.val / 8, by omega⟩

/-- The converter that serves port `p` (R16). -/
def convOf (p : Port) : Conv := ⟨p.val / 4, by omega⟩

/-- WIN_I of port `p` (Table 5.1). -/
def winI (p : Port) : Cmp := ⟨p.val, by omega⟩

/-- WIN_V of port `p`. -/
def winV (p : Port) : Cmp := ⟨64 + p.val, by omega⟩

/-- WIN_L of rail `n`. -/
def winL (n : Rail) : Cmp := ⟨128 + n.val, by omega⟩

/-- WIN_FX0, the input comparator of feed `f`. -/
def winF0 (f : Feed) : Cmp := ⟨160 + 2 * f.val, by omega⟩

/-- WIN_FX1, the current comparator of feed `f`. -/
def winF1 (f : Feed) : Cmp := ⟨161 + 2 * f.val, by omega⟩

/-- Every port, in ascending order. -/
def allPorts : List Port := List.finRange 64

/-- The ports of tile `n`. -/
def tilePorts (n : Tile) : List Port := allPorts.filter fun p => p.val / 8 = n.val

/-- Exactly `n` octets of a list. -/
def fitOctets (n : Nat) (l : List Nat) : List Nat := ((l.map (· % 256)) ++ List.replicate n 0).take n

/-- A SHA-384 hash as its 48 octets (R402). -/
def hash48 (l : List Nat) : List Nat := fitOctets 48 (Config.sha384 l)

/-- A reset has released and no boot has run; in S5 the supplies are still to come. -/
def State.bootDue (s : State) : Bool :=
  decide (s.sec.stat = 0) && !s.sec.held && !(decide (s.power.phase = .low) && decide (s.power.target = 5))

/-- R404, R408: gates, enables and feeds may turn on: the engines have been released and the lifecycle is not VENDOR. -/
def State.mayEnable (s : State) : Bool := decide (s.sec.stat = 7) && decide (s.rd K.lifecycle ≠ 0)

/-- The device is in a low-power state at least as deep as S`n` (R446). -/
def State.asleep (s : State) (n : Nat) : Bool := decide (s.power.phase = .low) && decide (n ≤ s.power.target)

/-- A saturating U32 count in a dictionary entry. -/
def State.count (s : State) (k : Nat) : State := s.wr k (satInc (s.rd k) u32Max)

/-- Sets a bit of a dictionary entry. -/
def State.flag (s : State) (k i : Nat) (b : Bool) : State := s.wr k (withBit (s.rd k) i b)

/-- Sets or clears a bit of an IO register. -/
def State.ioFlag (s : State) (b off i : Nat) (v : Bool) : State := s.iow b off (withBit (s.ior b off) i v)

/-- R380: the event of source bit `b` sets it in ALERT_SRC. -/
def State.alert (s : State) (b : Nat) : State := s.flag K.alertSrc b true

/-- R380: an event of port `p` for source bit 0 or 1, which ALERT_PORTS records. -/
def State.alertPort (s : State) (b : Nat) (p : Port) : State := (s.alert b).flag K.alertPorts p.val true

/-- The device that holds a wall address, with the address at which it begins: CS1's space follows CS0's (R268). -/
def RecorderHw.chipAt (r : RecorderHw) (a : Nat) : Option (Nat × WallFound) :=
  match tget r.chips 0 with
  | some c => if a < c.size then some (0, c) else (tget r.chips 1).map fun d => (c.size, d)
  | none => (tget r.chips 1).map fun d => (0, d)

/-- The erase size at a wall address. -/
def RecorderHw.eraseAt (r : RecorderHw) (a : Nat) : Nat := ((r.chipAt a).map fun x => x.2.erase).getD 0

/-- The erase block that holds a wall address. -/
def RecorderHw.blockStart (r : RecorderHw) (a : Nat) : Nat :=
  match r.chipAt a with
  | some (b, c) => b + (a - b) / c.erase * c.erase
  | none => a

/-- A flush cause arises (R265): it waits, and the lowest code among those waiting stands. Fault causes are ignored from the freeze of
power-fail onward (R272), and with no wall there is nothing to flush to. -/
def State.flushCause (s : State) (c : Nat) : State :=
  if (c = 1 ∧ s.recorder.powerFail = true ∧ s.rd K.pfEn = 1) ∨ s.recorder.noWall = true then s
  else { s with recorder := { s.recorder with due := some (match s.recorder.due with | some d => min d c | none => c) } }

/-- A fault of a FLUSH_ON class (Table 9.6): counted in the device block, and the cause FAULT where the class is selected. -/
def State.flushClass (s : State) (i : Fin 7) : State :=
  let r := s.recorder
  let img := { r.image with counts := tset r.image.counts i (min 4294967295 (tget r.image.counts i + 1)) }
  let s := { s with recorder := { r with image := img } }
  if bit (s.rd K.flushOn) i.val then s.flushCause 1 else s

/-- Sets an event bit of port `p` in an event register of its engine block: bit `base` + local port. -/
def State.portEvent (s : State) (p : Port) (off base : Nat) : State := s.ioFlag (blockOf p) off (base + localOf p) true

/-- LATH_STATE of the link of tile `n` (Table 1.3). -/
def State.lath (s : State) (n : Tile) : Int := s.rd (K.lathState + n.val)

/-- The link of the tile of port `p` is in hold (R22): nothing passes it in either direction. -/
def State.held (s : State) (p : Port) : Bool := decide (s.lath (tileOf p) = 2)

/-- What the tile of port `p` has to report waits for the link (R22, R32). -/
def State.tell (s : State) (p : Port) (n : TileNews) : State :=
  s.setTile (tileOf p) { s.tile (tileOf p) with news := (s.tile (tileOf p)).news ++ [n] }

/-- News of the port shadow reaches it; news of a message is the engine's. -/
def State.shadowNews (s : State) (n : TileNews) : State :=
  match n with
  | .sets b a i => s.ioFlag b a i true
  | .reads b a v => s.iow b a v
  | .acked _ _ | .lost _ _ => s

/-- What the tile of port `p` reports to the port shadow; in link hold it waits for the link (R22, R32). -/
def State.report (s : State) (p : Port) (n : TileNews) : State := if s.held p then s.tell p n else s.shadowNews n

/-- An event bit that the tile of port `p` raises in an event register of its engine block: bit `base` + local port. -/
def State.tileEvent (s : State) (p : Port) (off base : Nat) : State := s.report p (.sets (blockOf p) off (base + localOf p))

/-- A request on its way to the tile of port `p`, which waits for the link (R32). -/
def State.toTile (s : State) (p : Port) (r : TileReq) : State :=
  s.setTile (tileOf p) { s.tile (tileOf p) with reqs := (s.tile (tileOf p)).reqs ++ [r] }

/-- The metered quantity of a port. -/
def qPort (p : Port) : Fin 100 := ⟨p.val, by omega⟩

/-- CH_FLAGS gathered for the next record of every kind: 1 UNCERTAIN, 2 OVR, 4 GAP, 16 sink direction. OVR reaches the windows under
way (R214). -/
def MetHw.note (m : MetHw) (b : Nat) : MetHw :=
  let m := { m with seen := m.seen.map (· ||| b) }
  if b.testBit 1 then { m with ovr := true, wins := m.wins.map fun (w : WinAcc) => { w with ovr := true } } else m

/-- CH_FLAGS `b` of instant `t` (R214, R229): those at or after a cut that still waits are gathered once it is taken. -/
def MetHw.mark (m : MetHw) (t b : Nat) : MetHw :=
  if b = 0 then m
  else if m.cuts.any fun c => decide (c.t ≤ t) then { m with marks := m.marks ++ [(t, b)] }
  else m.note b

/-- The CNVCLK cycle under way (12.5 ns). DESIGN CHOICE: the axis of it is the TBCLK periods since power-on (log entry 188). -/
def State.cnvNow (s : State) : Nat := s.time.edges * 4 / 5

/-- The TBCLK period in which TB came to `t`; what lies inside a step came at the step edge (R338). -/
def State.edgeAt (s : State) (t : Nat) : Nat :=
  if t ≤ s.time.baseTb then s.time.baseEdge else s.time.edges - (s.tb - t)

/-- The first CNVCLK cycle at or after TB `t` (R222). -/
def State.cnvAt (s : State) (t : Nat) : Nat := (4 * s.edgeAt t + 4) / 5

/-- An event of the time base of source code `n` (Table 6.8; CT_CAP_SRC, Table 12.2) goes out to what selects it (R182, R185, R340,
R344, R345); several of one kind on their way are one: DESIGN CHOICE (log entry 190). -/
def State.emit (s : State) (n : Nat) : State :=
  let convs (o : Nat) : List Conv := (List.finRange 18).filter fun c => decide (0x10 ≤ n ∧ s.rV c o = n)
  let new : List Due :=
    (if convs Kv.seqTrig = [] then [] else [.pass n]) ++ (convs Kv.injTrig).map Due.inj ++
      ((List.finRange 32).filter fun k => decide (s.rT k Kt.ctCapSrc = n)).map Due.cap
  { s with time := { s.time with due := s.time.due ++ new.filter fun d => !s.time.due.contains d } }

/-- The event `d` has arrived. -/
def State.arrived (s : State) (d : Due) : State := { s with time := { s.time with due := s.time.due.erase d } }

/-- Draws a free value: the model's own counter moves on. -/
def State.draw (s : State) : State := { s with fresh := s.fresh + 1 }

/-- The status (Table 13.4) that a command of the dictionary answers. -/
def State.reply (s : State) (st : Nat) : State := { s with answer := st }

/-- A value kept in NVM on its own, by the dictionary key that shows it; 0 where none was ever written. -/
def State.nvGet (s : State) (k : Nat) : Int := SMap.get (fun _ => (0 : Int)) s.nv k

/-- Writes such a value. -/
def State.nvPut (s : State) (k : Nat) (v : Int) : State := { s with nv := SMap.put (fun _ => (0 : Int)) s.nv k v }

/-- What an unlisted pending value reads as: nothing pending. -/
def noPending (_ : Nat) : Option Int := none

/-- The written value of an entry that awaits its apply point (R367). -/
def State.pendingVal (s : State) (k : Nat) : Option Int := SMap.get noPending s.odNew k

/-- Applies the written value of an entry at its apply point (R367). -/
def State.applyKey (s : State) (k : Nat) : State :=
  match s.pendingVal k with
  | none => s
  | some v => { s.wr k v with odNew := SMap.put noPending s.odNew k none }

/-- An octet string of any length as the number with which it waits: its octets, and 1 above them. -/
def textNum (l : List Nat) : Int := (leValue (l ++ [1]) : Nat)

/-- The octets that such a number stands for. -/
def textOf (v : Int) : List Nat := leOctets (v.toNat.log2 / 8) v.toNat

/-- An octet string is applied at its next use (R72, R367). -/
def State.useText (s : State) (k : Nat) : State :=
  match s.pendingVal k with
  | none => s
  | some v => { s.wrB k (textOf v) with odNew := SMap.put noPending s.odNew k none }

/-- Applies a group of entries (R27). -/
def State.applyKeys (s : State) (ks : List Nat) : State := ks.foldl State.applyKey s

/-- Whether the tile of port `p` has failed (R22). -/
def State.tileFailed (s : State) (p : Port) : Bool := decide (s.lath (tileOf p) = 3)

/-- A bank of the stored image: 0 bank A, 1 bank B. -/
def NvmHw.bank (m : NvmHw) (n : Nat) : Option Bank := if n = 0 then m.bankA else m.bankB

/-- The valid bank at start, with what NVM_STATE reads. -/
def State.validBank (s : State) : Option Bank × Int :=
  let n := (s.rd K.nvmState).toNat % 2
  match s.nvm.bank n, s.nvm.bank (1 - n) with
  | some b, _ => (some b, n)
  | none, some b => (some b, (1 - n : Nat))
  | none, none => (none, 2)

/-- ROLE of port `p` as stored in NVM, at its default where no bank is valid. -/
def State.storedRole (s : State) (p : Port) : Int :=
  match s.validBank.1 with
  | some b => odGet b.vals (keyP p Kp.role)
  | none => odDefault (keyP p Kp.role)

/-- The CC pins of port `p` as its tile holds them with VDD_FE absent and until the units start (R39, R408): the Rd clamp where the
stored ROLE is SINK or DRP, open on every other port. -/
def State.deadBattery (s : State) (p : Port) : State :=
  s.setPort p { s.port p with ccOpen := true, clamp := decide (s.storedRole p = 1 ∨ s.storedRole p = 2) }

/-- A comparator's H as the scrim takes it: its fault side while a self-check runs (R156). -/
def CmpHw.effH (c : CmpHw) : Bool := c.h || c.checking

/-- A comparator's L as the scrim takes it, with `fault` the fault side of the bit (R156). -/
def CmpHw.effL (c : CmpHw) (fault : Bool) : Bool := if c.checking then fault else c.l

/-- The gate pulldown of port `p` (R161). The term DP_TRIP is held only until the power path records its fault, which is
within the step that brings the trip block. -/
def State.pulldown (s : State) (p : Port) : Bool :=
  (s.cmp (winI p)).effH || (s.cmp (winV p)).effH || (s.path p).cut || (s.path p).safe ||
    (s.path p).force || s.tileFailed p

/-- The conditions of R164 that hold now, as FAULT_MASK bits. -/
def faultConditions (s : State) : List Bool :=
  [allPorts.any fun p => (s.path p).lockout,
   allPorts.any fun p => (s.path p).safe,
   decide (s.rF 0 Kf.feedHsState = 6 ∨ s.rF 1 Kf.feedHsState = 6),
   (List.finRange 164).any fun c => (s.cmp c).chkFail,
   (List.finRange 8).any fun n => decide (s.lath n = 3),
   s.coatFault,
   decide (s.rd K.refDiverge = 1),
   bit (s.rd K.ledgerFlags) 1,
   !s.ledger.causes.isEmpty]

/-- FAULT_SRC (R164). -/
def faultSrc (s : State) : Nat := bitsOf (faultConditions s)

/-- R165: PWRGD is high while the qualified composite is asserted and every rail of PWRGD_KILL is inside its window. -/
def pwrgdOf (s : State) : Bool :=
  decide (s.rd K.pwrgdState = 1) &&
    (List.finRange 32).all fun n => !s.scrim.pwrgdKill.testBit n.val || ((s.cmp (winL n)).l && !(s.cmp (winL n)).effH)

/-- The level of RAILnn_EN (R233 to R235): high-impedance while the sequencer is held in reset, else active or inactive as EN_POL
says. -/
def railEnPin (s : State) (n : Rail) : Option Bool :=
  if s.coat.held then none else some ((s.rail n).en != decide (s.rR n Kr.enPol = 1))

/-- The current out of RAILnn_MGN (R249), in DAC steps: high-impedance while the sequencer is held in reset, on an unused rail, and with
MGN_MODE OFF and the code at 0; reversed with MGN_POL. -/
def railMgnPin (s : State) (n : Rail) : Option Int :=
  let x := s.rR n Kr.mgnCodeNow
  if s.coat.held ∨ 7 < s.rR n Kr.railPhase ∨ (s.rR n Kr.mgnMode = 0 ∧ x = 0) then none
  else some (if s.rR n Kr.mgnPol = 1 then -x else x)

/-- The output pins as the state drives them (R164, R165, R233, R249, R380); bit 0 of FAULT_MASK is always selected. -/
def pinsOf (s : State) : Pins :=
  { alert := decide ((s.rd K.alertSrc).toNat &&& (s.rd K.alertMask).toNat ≠ 0)
    fault := decide (faultSrc s &&& (s.scrim.faultMask ||| 1) ≠ 0)
    pwrgd := pwrgdOf s
    railEn := Vector.ofFn (railEnPin s)
    railMgn := Vector.ofFn (railMgnPin s) }

/-- The state that an outcome leads to; every command answers a next state. -/
def stateOf (s : State) (o : Host.Outcome State Fault Refusal) : State :=
  match o with
  | .next t => t
  | _ => s

/-- The pins follow the state. -/
def settle (s : State) : State := { s with pins := pinsOf s }

/-- How every meaning ends: the next state, with the pins following it. -/
def done (s : State) : Host.Outcome State Fault Refusal := .next (settle s)

end Sys2Proof.Machine
end

