-- ==== Sys2Proof/Machine/LedgerOps.lean ====
section
/-! DEFINITION. The arithmetic of the budget ledger that other blocks use: bookings, sums, allotments, the budget and
the wait list. -/

namespace Sys2Proof.Machine

/-- RUNNING_SUM, the sum of all 64 bookings (R76). -/
def runningSum (s : State) : Int := (allPorts.map fun p => s.rP p Kp.booking).sum

/-- FREE: BUDGET − RUNNING_SUM, floored at 0 (Table 3.5). -/
def freePower (s : State) : Int := max 0 (s.rd K.budget - runningSum s)

/-- DEMAND: the sum of the waiting ports' last refused P (R81). -/
def demand (s : State) : Int := (s.ledger.waiting.map fun p => (s.lport p).refused).sum

/-- Whether feed `f` is available (R75): FEED_STATE. -/
def State.feedAvail (s : State) (f : Feed) : Bool := bit (s.rd K.feedState) f.val

/-- LOCAL_LIMIT for a given availability of the feeds (R75). -/
def localLimitWith (s : State) (a b : Bool) : Int :=
  max 0 ((if a then s.rd K.feedCapA else 0) + (if b then s.rd K.feedCapB else 0) - s.rd K.reserve)

/-- LOCAL_LIMIT (R75). -/
def localLimit (s : State) : Int := localLimitWith s (s.feedAvail 0) (s.feedAvail 1)

/-- Whether the device has ledger peers: PEER_MASK names a node. -/
def hasPeers (s : State) : Bool := (s.rdB K.peerMask).any (· ≠ 0)

/-- The effective allotment of a port (R77): ALLOT, lowered to the slot allotment while a shed is in force, 0 while the
port is cut. -/
def effAllot (s : State) (p : Port) : Int :=
  if s.rP p Kp.ledgerState = 4 then 0
  else
    let a := match (s.lport p).shedAllot with
      | some a => min (s.rP p Kp.allot) a
      | none => s.rP p Kp.allot
    match (s.lport p).overAllot with
    | some b => min a b
    | none => a

/-- The waiting port that BUDGET_FREE goes to (R81): highest class first, then longest wait, among those whose last
refused P is covered by FREE. -/
def nextWaiting (s : State) : Option Port :=
  let ok := s.ledger.waiting.filter fun p => decide ((s.lport p).refused ≤ freePower s)
  ok.find? fun p => ok.all fun q => decide (s.rP q Kp.classE ≤ s.rP p Kp.classE)

/-- R81: FREE grew; BUDGET_FREE is set for one waiting port. -/
def State.budgetFree (s : State) : State :=
  match nextWaiting s with
  | some p => s.portEvent p 0x4020 4
  | none => s

/-- LEDGER_STATE of a port that is not cut (Table 3.6): WAITING, LIMITED, IDLE, RESERVED or BOOKED. -/
def State.showLedger (s : State) (p : Port) : State :=
  if s.rP p Kp.ledgerState = 4 then s
  else s.wP p Kp.ledgerState (
    if p ∈ s.ledger.waiting then 2 else if (s.lport p).changed then 3 else if s.rP p Kp.booking = 0 then 0
    else if (s.lport p).reserved then 5 else 1)

/-- A booking set, with LEDGER_STATE following it (R76, Table 3.6). -/
def State.setBooking (s : State) (p : Port) (w : Int) : State := (s.wP p Kp.booking w).showLedger p

/-- A booking set; one that falls lets FREE grow (R81). -/
def State.book (s : State) (p : Port) (w : Int) : State :=
  let t := s.setBooking p w
  if w < s.rP p Kp.booking then t.budgetFree else t

/-- A port leaves the wait list (R81). -/
def State.leaveWait (s : State) (p : Port) : State :=
  { s with ledger := { s.ledger with waiting := s.ledger.waiting.filter (· ≠ p) } }

/-- A port enters the wait list with its refused P; a port already waiting keeps its place (R81). -/
def State.enterWait (s : State) (p : Port) (w : Int) : State :=
  let s := s.setLport p { s.lport p with refused := w }
  let s := { s with ledger := { s.ledger with waiting := if p ∈ s.ledger.waiting then s.ledger.waiting else s.ledger.waiting ++ [p] } }
  s.showLedger p

/-- BUDGET set; a change raises CAP_CHANGE at every engine block, and growth lets FREE grow (R80, R81). -/
def State.setBudget (s : State) (v : Int) : State :=
  let old := s.rd K.budget
  if v = old then s
  else
    let s := (List.range 16).foldl (fun s b => s.ioFlag b 0x4020 12 true) (s.wr K.budget v)
    if old < v then s.budgetFree else s

/-- What BUDGET is by its base and the cap of R87. -/
def budgetOf (l : LedgerHw) : Int :=
  match l.cap with
  | some c => min l.base c
  | none => l.base

/-- BUDGET follows LOCAL_LIMIT on a device without peers (R75), or the last reconciliation, under the cap of R87. Until the first round
of a device that gains peers its base stays: DESIGN CHOICE (log entry 168). -/
def State.refreshBudget (s : State) : State :=
  let s := if hasPeers s then s else { s with ledger := { s.ledger with base := localLimit s } }
  s.setBudget (budgetOf s.ledger)

/-- A feed becomes available or unavailable (R75). -/
def State.setAvail (s : State) (f : Feed) (b : Bool) : State :=
  if s.feedAvail f = b then s else (s.flag K.feedState f.val b).refreshBudget

/-- A bit of LEDGER_FLAGS; a change raises ALERT bit 4 (R380). -/
def State.ledgerFlag (s : State) (i : Nat) (b : Bool) : State :=
  if bit (s.rd K.ledgerFlags) i = b then s else (s.flag K.ledgerFlags i b).alert 4

/-- What the ledger answers an ADMIT of power `w` for port `p` (R77, R101): 1 GRANT, 2 DENY_BUDGET, 3 DENY_ALLOT. -/
def admitResult (s : State) (p : Port) (w : Int) : Int :=
  if w ≤ s.rP p Kp.booking then 1
  else if effAllot s p < w then 3
  else if s.ledger.overcommit || decide (s.rd K.budget < runningSum s - s.rP p Kp.booking + w) then 2
  else 1

/-- The ledger's answer in the query registers (Table 3.1): RESULT with DONE, and FREE at the evaluation. -/
def State.lqAnswer (s : State) (p : Port) (r : Int) : State :=
  (s.iow (blockOf p) 0x4008 (0x80000000 + r)).iow (blockOf p) 0x400C (freePower s)

/-- A query that is granted (R81): the port leaves the wait list and books `w`, as a reservation or not. -/
def State.grant (s : State) (p : Port) (w : Int) (reserve : Bool) : State :=
  ((s.leaveWait p).setLport p { s.lport p with reserved := reserve, restart := false }).book p w

/-- R77, R80: an ADMIT or a RESERVE is evaluated: the booking becomes `w` on a GRANT, a denial is counted; LQ_POWER holds P.
CLASS, ALLOT and ALLOT_SHED apply at the port's next admission (R105). -/
def State.admitPower (s : State) (p : Port) (w : Int) (reserve : Bool := false) : State :=
  let s := (s.applyKeys [keyP p Kp.classE, keyP p Kp.allot, keyP p Kp.allotShed]).iow (blockOf p) 0x4004 w
  let r := admitResult s p w
  let s := if r = 1 then s.grant p w reserve else s.count (keyP p Kp.denyCount)
  s.lqAnswer p r

/-- The answer of the last query of port `p`'s engine. -/
def State.lqResult (s : State) (p : Port) : Int := fieldOf (s.ior (blockOf p) 0x4008) 0 2

end Sys2Proof.Machine
end

