-- ==== Sys2Proof/Machine/PathOps.lean ====
section
/-! DEFINITION. The shared operations of the power path and of the Type-C port that faults, cuts and resets use:
thresholds, the current limit, recording a fault, turning a gate off, retry, lockout, ErrorRecovery and SAFE_OFF. -/

namespace Sys2Proof.Machine

/-! Codes of the status entries. -/

namespace Pp
/-- PP_STATE codes (Table 4.7). -/
abbrev off : Int := 0
abbrev ramp : Int := 1
abbrev on : Int := 2
abbrev transition : Int := 3
abbrev limit : Int := 4
abbrev retryWait : Int := 5
abbrev lockout : Int := 6
abbrev discharge : Int := 7
abbrev sinkOn : Int := 8
abbrev safeOff : Int := 9
abbrev cut : Int := 10
abbrev forcedOff : Int := 11
end Pp

namespace Flt
/-- Power-path fault codes (Table 4.3). -/
abbrev short : Nat := 1
abbrev rampShort : Nat := 2
abbrev rampTimeout : Nat := 3
abbrev overcurrent : Nat := 4
abbrev i2t : Nat := 5
abbrev soa : Nat := 6
abbrev fetOt : Nat := 7
abbrev ovp : Nat := 8
abbrev rcp : Nat := 9
abbrev dschFail : Nat := 10
abbrev ntcInvalid : Nat := 11
abbrev fetStuck : Nat := 12
abbrev safeOff : Nat := 13
abbrev lockout : Nat := 14
end Flt

namespace Att
/-- ATTACH_STATE codes (Table 2.3). -/
abbrev unattached : Int := 0
abbrev waitSrc : Int := 1
abbrev waitSnk : Int := 2
abbrev trySrc : Int := 3
abbrev trySnk : Int := 4
abbrev tryWaitSrc : Int := 5
abbrev tryWaitSnk : Int := 6
abbrev src : Int := 7
abbrev snk : Int := 8
abbrev debug : Int := 9
abbrev audio : Int := 10
abbrev errorRecovery : Int := 11
abbrev disabled : Int := 12
abbrev safeOff : Int := 13
abbrev linkHold : Int := 14
end Att

namespace PdF
/-- PD_FAULT codes (R71). -/
abbrev protocolError : Int := 1
abbrev hardResetSent : Int := 2
abbrev hardResetReceived : Int := 3
abbrev noResponse : Int := 4
abbrev ppsTimeout : Int := 5
abbrev eprKeepAlive : Int := 6
abbrev vconnOc : Int := 7
abbrev cableLimit : Int := 8
abbrev authFail : Int := 9
abbrev transitionFail : Int := 10
abbrev frsFail : Int := 11
abbrev errorRecovery : Int := 12
abbrev vconnUv : Int := 13
end PdF

namespace Ctr
/-- CONTRACT codes (R70). -/
abbrev none : Int := 0
abbrev negotiating : Int := 1
abbrev spr : Int := 2
abbrev epr : Int := 3
abbrev transition : Int := 4
abbrev hardReset : Int := 5
abbrev waitingBudget : Int := 6
end Ctr

/-! Roles (R84). -/

/-- A source-role port: ROLE SOURCE, or DRP and not attached as sink. -/
def State.sourceRole (s : State) (p : Port) : Bool :=
  decide (s.rP p Kp.role = 0) || (decide (s.rP p Kp.role = 2) && decide (s.rP p Kp.attachState ≠ Att.snk))

/-- A sink-role port: ROLE SINK, or DRP and attached as sink. -/
def State.sinkRole (s : State) (p : Port) : Bool :=
  decide (s.rP p Kp.role = 1) || (decide (s.rP p Kp.role = 2) && decide (s.rP p Kp.attachState = Att.snk))

/-- The current of RP_LEVEL in 10 mA: 3.0 A at Default USB Power (R76, R114), 1.5 A, 3.0 A. -/
def State.rpCurrent (s : State) (p : Port) : Int := if s.rP p Kp.rpLevel = 1 then 150 else 300

/-! Protocol faults. -/

/-- R71: records a protocol fault, which raises the port's protocol event (R380 bit 0). -/
def State.pdFault (s : State) (p : Port) (code : Int) : State := ((s.wP p Kp.pdFault code).alertPort 0 p).flushClass 1

/-- One more in a counter of PD_COUNTERS: 1 HARD_RESET_TX ... 10 RX_OVF (Table 2.7). -/
def State.pdCount (s : State) (p : Port) (n : Nat) : State := s.count (keyP p (Kp.pdCounters + (n - 1)))

/-! Limits and thresholds (R108, R114, R122, R151). -/

/-- PP_TARGET.ICON as written, 10 mA. -/
def State.ppIcon (s : State) (p : Port) : Int := fieldOf (s.ior (blockOf p) (0x1004 + 0x100 * localOf p)) 16 16

/-- ICON, the contract current, 10 mA (R114): PP_TARGET's; on a path that is on as a source a new value comes with its
transition (R56). -/
def State.icon (s : State) (p : Port) : Int :=
  if (s.path p).gate = .on ∧ (s.path p).dir = .source then (s.path p).icon else s.ppIcon p

/-- Half of a limit while NTC_DERATE holds, rounded down to its step (R121). -/
def State.derated (s : State) (p : Port) (v : Int) : Int := if bit (s.rP p Kp.ppFlags) 1 then v / 2 else v

/-- The formula of R114: the lower of ILIM_MAX and ICON × LIM_PCT ÷ 100 rounded up to 50 mA. -/
def State.contractIlim (s : State) (p : Port) : Int := min (s.rP p Kp.ilimMax) (ceilDiv (s.icon p * s.rP p Kp.limPct) 500)

/-- The effective current limit ILIM in 50 mA steps (R114): the slot's limit code once a strip slot lowered it, I_RAMP
during a ramp, otherwise the formula; half of it while NTC_DERATE holds (R121). -/
def State.ilim (s : State) (p : Port) : Int :=
  s.derated p (match (s.path p).strip with
    | some c => c
    | none => if (s.path p).gate = .ramp ∨ (s.path p).gate = .pre then s.rP p Kp.iRamp else s.contractIlim p)

/-- DAC code of a port current threshold in 50 mA steps, rounded toward the larger fault side (R151): 62.5 µV steps. -/
def State.codeI (s : State) (p : Port) (n : Int) : Int := n * s.rP p Kp.rshunt / 1250

/-- DAC code of the OVP threshold of target `vt`, 10 mV (R122, R151): 16 mV steps, rounded down. -/
def State.codeOvp (s : State) (p : Port) (vt : Int) : Int := vt * (100 + s.rP p Kp.ovpPct) / 160

/-- DAC code of the lower threshold of WIN_V (R122, R151): rounded up. While PPS_Status reports current limit it is
3.0 V. -/
def State.codePg (s : State) (p : Port) (vt : Int) : Int :=
  if (s.port p).ppsLimit then 188 else ceilDiv (vt * (100 - s.rP p Kp.pgPct)) 160

/-- The lower threshold of WIN_V during a discharge, 0.8 V (R131). -/
abbrev code800mV : Int := 50

/-- Writes the thresholds of WIN_I for the present limit (R113, R114). -/
def State.setWinI (s : State) (p : Port) : State :=
  (s.wC (winI p) Kc.hiCode (s.codeI p (s.rP p Kp.shortTh))).wC (winI p) Kc.loCode (s.codeI p (s.ilim p))

/-- Writes the upper threshold of WIN_V for target `vt`. -/
def State.setOvp (s : State) (p : Port) (vt : Int) : State := s.wC (winV p) Kc.hiCode (s.codeOvp p vt)

/-- Writes the lower threshold of WIN_V for target `vt`. -/
def State.setPgLow (s : State) (p : Port) (vt : Int) : State := s.wC (winV p) Kc.loCode (s.codePg p vt)

/-- Writes both thresholds of WIN_V (R122). -/
def State.setWinV (s : State) (p : Port) (vt : Int) : State := (s.setOvp p vt).setPgLow p vt

/-- The VSET code of a target voltage in 10 mV (R108): VBUS = VFB × (1 + RT ÷ RB) + code × 50 nA × RT, rounded to the
nearest step, code 0 below the code-0 voltage; none above the code-4095 voltage. Everything in µV. -/
def State.vsetCode (s : State) (p : Port) (vt : Int) : Option Nat :=
  let rt := s.rP p Kp.vsetRt
  let rb := s.rP p Kp.vsetRb
  let base := s.rP p Kp.vsetVfb * 1000 * (rb + rt)
  let want := (vt * 10000 * rb - base) * 20
  let step := rt * rb
  if want ≤ 0 then some 0
  else if 4095 * step < want then none
  else some (nearDiv want step).toNat

/-- Whether the watched path of WIN_I and WIN_V of a port is live (R153): the gate is on or ramping, or the port is armed for
FR_Swap. The pre-turn-on check of a ramp and that of an arming belong to it: the comparators run in MODE from there. -/
def State.portLive (s : State) (p : Port) : Bool :=
  decide ((s.path p).gate ≠ .off) || (s.path p).frsArmed || (s.path p).frsWait

/-! Comparators (R150, R153 to R156). -/

/-- The fault side of bit L of comparator `c` (Table 5.1); the fault side of H is 1 everywhere. -/
def faultL (c : Cmp) : Bool := decide (c.val < 64)

/-- One output bit after an input `x` (R150, R155): set at or above the threshold, clear below the hysteresis band, kept
inside the band; at a start without history it reads its fault side there and is UNRESOLVED. -/
def evalBit (noHist fault old unres : Bool) (th hyst x : Int) : Bool × Bool :=
  if th ≤ x then (true, false)
  else if x < th - hyst then (false, false)
  else if noHist then (fault, true)
  else (old, unres)

/-- The bit of the comparator mirror that belongs to bit H or L of a port comparator (Table 5.5): 4q I_L, 4q+1 I_H,
4q+2 V_L, 4q+3 V_H. -/
def mirrorBit (c : Cmp) (high : Bool) : Nat :=
  4 * (c.val % 4) + (if c.val < 64 then 0 else 2) + (if high then 1 else 0)

/-- The port of comparator `c` below 128. -/
def cmpPort (c : Cmp) : Port := Fin.ofNat 64 (c.val % 64)

/-- A latch of a comparator changes; one that sets raises its bit of CMP_EVENT in the mirror (Table 5.5). -/
def State.setLatch (s : State) (c : Cmp) (high : Bool) (b : Bool) : State :=
  let k := s.cmp c
  let was := if high then k.hLatch else k.lLatch
  let s := s.setCmp c (if high then { k with hLatch := b } else { k with lLatch := b })
  if b && !was && decide (c.val < 128) then s.report (cmpPort c) (.sets (c.val % 64 / 4) 0x2010 (mirrorBit c high)) else s

/-- A comparator evaluated on input `x`: live bits, UNRESOLVED flags, and the latches that set with a move to the fault
side, or with a start that reads it (R154, R155). -/
def State.evalCmp (s : State) (c : Cmp) (x : Int) : State :=
  let k := s.cmp c
  let hb := evalBit k.noHist true k.h k.hUnres (s.rC c Kc.hiCode) (s.rC c Kc.hystH) x
  let lb := evalBit k.noHist (faultL c) k.l k.lUnres (s.rC c Kc.loCode) (s.rC c Kc.hystL) x
  let hl := k.hLatch || (hb.1 && (!k.h || k.noHist))
  let ll := k.lLatch || decide (lb.1 = faultL c ∧ (k.l ≠ faultL c ∨ k.noHist = true))
  let s := s.setCmp c { k with h := hb.1, l := lb.1, hUnres := hb.2, lUnres := lb.2, noHist := false }
  (s.setLatch c true hl).setLatch c false ll

/-- A comparator that changes to MODE or back to IDLE_MODE with the liveness of its path (R153): on a change to MODE it
settles; to IDLE_MODE it changes at once. -/
def State.setMode (s : State) (c : Cmp) (live : Bool) : State :=
  let s := s.applyKeys [keyC c Kc.mode, keyC c Kc.idleMode]
  let k := s.cmp c
  let m := (s.rC c (if live then Kc.mode else Kc.idleMode)).toNat
  if k.mode = m then s
  else if live then s.setCmp c { k with mode := m, settling := true }
  else s.setCmp c { k with mode := m, settling := false }

/-- A self-check begins (R156). -/
def State.startCheck (s : State) (c : Cmp) : State := s.setCmp c { s.cmp c with checking := true }

/-- The pre-turn-on check of a port: both comparators change to MODE and are checked in parallel (R153, R158). -/
def State.preCheck (s : State) (p : Port) : State :=
  (((s.setMode (winI p) true).setMode (winV p) true).startCheck (winI p)).startCheck (winV p)

/-- Both comparators of a port return to IDLE_MODE where its path is not live (R153). -/
def State.idleCmps (s : State) (p : Port) : State :=
  if s.portLive p then s else (s.setMode (winI p) false).setMode (winV p) false

/-- The self-check before a port is armed for FR_Swap (R158): comparators of a path that is live already stay in MODE. -/
def State.frsCheck (s : State) (p : Port) : State :=
  let live := s.portLive p
  let s := s.setPath p { s.path p with frsWait := true, frsArmed := false, frsSeen := false }
  if live then (s.startCheck (winI p)).startCheck (winV p) else s.preCheck p

/-- The arming of a port for FR_Swap follows its check, once both comparators have passed (R158). -/
def State.frsChecked (s : State) (p : Port) : State :=
  if (s.path p).frsWait ∧ !(s.cmp (winI p)).checking ∧ !(s.cmp (winV p)).checking then
    s.setPath p { s.path p with frsWait := false, frsArmed := true }
  else s

/-- FR_Swap arming ended. -/
def PathHw.frsOff (h : PathHw) : PathHw := { h with frsArmed := false, frsSeen := false, frsDue := false, frsWait := false }

/-- The arming of a port for FR_Swap ends; where its path is then live no more, the comparators leave MODE (R153), after a turn-off under
way. -/
def State.frsEnded (s : State) (p : Port) : State :=
  let s := s.setPath p (s.path p).frsOff
  if (s.path p).turning then s else s.idleCmps p

/-! PP_STATE (Table 4.7). -/

/-- The entries that apply when the path enters OFF: RSHUNT and the VSET_ entries (R148). -/
def offKeys (p : Port) : List Nat := (List.range (Kp.vsetVfb + 1 - Kp.rshunt)).map fun i => keyP p (Kp.rshunt + i)

/-- The entries that wait for OFF apply (R148); the codes of WIN_I follow a new RSHUNT (R151). -/
def State.applyOff (s : State) (p : Port) : State :=
  let shunt := (s.pendingVal (keyP p Kp.rshunt)).isSome
  let s := s.applyKeys (offKeys p)
  if shunt then s.setWinI p else s

/-- PP_STATE becomes `st`; on entry to OFF the entries that wait for it apply, carried by the link (R148, R32). -/
def State.setPp (s : State) (p : Port) (st : Int) : State :=
  let s := s.wP p Kp.ppState st
  if st = Pp.off ∧ !s.held p then s.applyOff p else s

/-! Current limit and fault timer (R115, R133). -/

/-- Whether current limiting acts on a port: the L output of WIN_I while the gate is on. -/
def limitActive (s : State) (p : Port) : Bool := (s.cmp (winI p)).l && decide ((s.path p).gate = .on ∨ (s.path p).gate = .ramp)

/-! Power good (R133). -/

/-- Sets port PG; a change raises PG_CHANGE in PP_EVENT (Table 4.6). -/
def State.setPg (s : State) (p : Port) (b : Bool) : State :=
  if s.rP p Kp.pg = b2i b then s else (s.wP p Kp.pg (b2i b)).tileEvent p 0x1400 4

/-! Turning the path off (R130, R131, R133). -/

/-- The gate is turned off: discharge of the gate begins if it was raised, PG drops in the same cycle, a ramp or
transition ends, a running fault timer holds its count. PP_STATE becomes `st`. -/
def State.gateOff (s : State) (p : Port) (st : Int) : State :=
  let h := s.path p
  let raised := decide (h.gate = .ramp ∨ h.gate = .on)
  let s := s.setPath p { h with
    gate := .off, dir := .none, turning := h.turning || raised, trans := .none, slewing := false, upperWaits := false,
    falling := false, rcpPrev := false,
    ft := if h.ft = .running then .held else h.ft }
  let s := if h.gate = .pre ∧ !h.turning then s.idleCmps p else s
  (s.setPg p false).setPp p st

/-- R134: records a power-path fault: PP_FAULT, its sticky bit, its count, the IO copies and the power event. -/
def State.recordFault (s : State) (p : Port) (code : Nat) : State :=
  ((((((s.wP p Kp.ppFault code).flag (keyP p Kp.ppFaultSet) code true).count (keyP p (Kp.ppFaultCount + (code - 1)))).report p
    (.reads (blockOf p) (0x1010 + 0x100 * localOf p) code)).report p (.sets (blockOf p) (0x1014 + 0x100 * localOf p) code)).tileEvent p
    0x1400 0).alertPort 1 p |>.flushClass 0

/-- The faults that are retried (Table 4.3). -/
def retryable (code : Nat) : Bool := decide (1 ≤ code ∧ code ≤ 9)

/-! Type-C ErrorRecovery and the protocol layer (R44). -/

/-- The protocol layer of a port cleared: MessageIDs, messages under way, swaps, timers and the offer. -/
def PortHw.clearProtocol (h : PortHw) : PortHw :=
  { h with txId := 0, rxId := none, held := [], tx := [], retries := 0, awaits := none, sinkTx := [], offer := [],
           capsCount := 0, eprMode := false, eprEntering := false, eprContract := false, wanted := none, swap := none, ppsTimer := false,
           eprTimer := false, shedCaps := false, authStep := 0, ppsLimit := false, bist := none, hardReset := .none }

/-- A held swap PORT_CMD whose request is cancelled answers BUSY (R63). -/
def PortHw.cancelCmd (h : PortHw) : PortHw := if h.cmdHeld then { h with cmdHeld := false, cmdStatus := 1 } else h

/-- PP_TARGET takes `v` 10 mV and `i` 10 mA; the lower threshold of WIN_I follows ILIM (R114, R147). -/
def State.putTarget (s : State) (p : Port) (v i : Int) : State :=
  (s.iow (blockOf p) (0x1004 + 0x100 * localOf p) (i * 65536 + v)).setWinI p

/-- PP_TARGET at the implicit contract (R114, R147): 5 V and the RP_LEVEL current. -/
def State.implicitTarget (s : State) (p : Port) : State := s.putTarget p 500 (s.rpCurrent p)

/-- PPS_Status no longer reports current limit: on a path that is on, the lower threshold of WIN_V returns to the window of its target
(R57, R122). -/
def State.endPpsLimit (s : State) (p : Port) : State :=
  if (s.port p).ppsLimit then
    let s := s.setPort p { s.port p with ppsLimit := false }
    if (s.path p).gate = .on then s.setPgLow p (s.path p).target else s
  else s

/-- The contract entries of a port cleared, with the contract's bits of PARTNER_FLAGS; PP_TARGET returns to the implicit
contract. -/
def State.clearContract (s : State) (p : Port) : State :=
  (((((s.implicitTarget p).wP p Kp.contract Ctr.none).wP p Kp.contractPos 0).wP p Kp.contractV 0).wP p Kp.contractI 0).wP p Kp.partnerFlags
    (clearBits (s.rP p Kp.partnerFlags) 0x30)

/-- VCONN removed from a port. -/
def State.vconnOff (s : State) (p : Port) : State := s.wP p Kp.vconnState 0

/-- A comparator's latches, UNRESOLVED flags and CHK_FAIL cleared (Table 17.6): it starts without history (R155). -/
def CmpHw.cleared (k : CmpHw) : CmpHw :=
  { k with hLatch := false, lLatch := false, hUnres := false, lUnres := false, chkFail := false, noHist := true }

/-- The comparator states of a port cleared, as a PORT reset does (R44, R154). -/
def State.clearLatches (s : State) (p : Port) : State :=
  (s.setCmp (winI p) (s.cmp (winI p)).cleared).setCmp (winV p) (s.cmp (winV p)).cleared

/-- Offset of PP_CTRL of a port in its engine block (Table 4.6). -/
def ppCtrl (p : Port) : Nat := 0x1000 + 0x100 * localOf p

/-- PP_CTRL of a port. -/
def State.ctrl (s : State) (p : Port) : Int := s.ior (blockOf p) (ppCtrl p)

/-- Writes a bit of PP_CTRL. -/
def State.setCtrl (s : State) (p : Port) (i : Nat) (b : Bool) : State := s.ioFlag (blockOf p) (ppCtrl p) i b

/-- What ErrorRecovery clears on a port (R44 steps 1, 3 and 4): CC pins open, VCONN removed, protocol layer, MessageIDs
and contract cleared, booking released, the path no longer requested, attach entries cleared. ATTACH_STATE becomes
`st`. -/
def State.dropPort (s : State) (p : Port) (st : Int) : State :=
  let s := s.endPpsLimit p
  let s := s.setPort p { (s.port p).clearProtocol.cancelCmd with
    ccOpen := true, clamp := false, detaching := false, vconnOwner := false, vconnOc := false, cableTries := 0, cableKnown := false }
  let s := ((s.setPath p { s.path p with faulted := false }).frsEnded p).iow (blockOf p) (ppCtrl p) 0
  let s := (((((s.wP p Kp.attachState st).wP p Kp.orient 0).wP p Kp.powerRole 0).wP p Kp.dataRole 0).wP p Kp.pdRev 0).vconnOff p
  let s := s.wP p Kp.authState 0
  ((((s.clearContract p).wP p Kp.partnerFlags 0).leaveWait p).book p 0)

/-- Type-C ErrorRecovery of a port, recorded in PD_FAULT (R44, R71). The gate is turned off by the caller. -/
def State.errorRecovery (s : State) (p : Port) : State :=
  ((s.dropPort p Att.errorRecovery).clearLatches p).pdFault p PdF.errorRecovery

/-! Sending. -/

/-- A message handed to the tile for transmission; cancelled while the device signals a Hard Reset (R69). -/
def State.send (s : State) (p : Port) (m : TxMsg) : State :=
  if (s.port p).hardReset = .signalling then s else s.setPort p { s.port p with tx := (s.port p).tx ++ [m] }

/-- A message of kind `k` with fields `objs`, answering nothing that the protocol tracks. -/
def State.sendKind (s : State) (p : Port) (k : PdKind) (objs : List Int := []) (re : Option PdKind := none) : State :=
  s.send p { kind := k, objs := objs, re := re }

/-- The port holds an explicit contract. -/
def State.explicitContract (s : State) (p : Port) : Bool := decide (s.rP p Kp.contractPos ≠ 0)

/-- R66: a message that starts an AMS; a source with a Revision 3 partner under an explicit contract waits tSinkTx first,
with Rp at SinkTxNG. -/
def State.startAms (s : State) (p : Port) (m : TxMsg) : State :=
  if s.rP p Kp.powerRole = 1 ∧ s.explicitContract p ∧ s.rP p Kp.pdRev = 3 then
    s.setPort p { s.port p with sinkTx := (s.port p).sinkTx ++ [m] }
  else s.send p m

namespace Alert
/-- The types of Alert that the device sends (Table 2.4), by their bits in the type field of the PD format: PRESUMED
(log entry 142). -/
abbrev ocp : Int := 2
abbrev otp : Int := 3
abbrev inputChange : Int := 5
abbrev ovp : Int := 6
end Alert

/-- Alert of type `t` to a partner of Revision 3 (R48). -/
def State.sendAlert (s : State) (p : Port) (t : Int) : State :=
  if s.rP p Kp.pdRev = 3 then s.startAms p { kind := .alert, objs := [t], re := none } else s

/-- The Alert that a fault brings: over-current and over-voltage (Table 2.4). -/
def State.faultAlert (s : State) (p : Port) (code : Nat) : State :=
  if code = Flt.overcurrent then s.sendAlert p Alert.ocp else if code = Flt.ovp then s.sendAlert p Alert.ovp else s

/-! Lockout, retry and SAFE_OFF. -/

/-- R138: LOCKOUT recorded, the gate held off, the port through ErrorRecovery with the CC pins held open. -/
def State.lockOut (s : State) (p : Port) : State :=
  let s := s.recordFault p Flt.lockout
  let s := s.setPath p { s.path p with lockout := true, retryWait := false, retrySusp := false }
  (s.errorRecovery p).setPp p Pp.lockout

/-- What a fault does once it is recorded: `was` is the path as the fault met it and `left` the retries left then. While the gate was
off already nothing more follows. Otherwise the gate is turned off; a retryable fault waits for its retry, suspended while the port
is cut, forced off or in SAFE_OFF, and with no retries left goes to lockout; DSCH_FAIL and FET_STUCK go straight to lockout (R134,
R137 to R139). `ot`: the retry waits for the FET to cool (R119). -/
def State.faultActs (s : State) (p : Port) (was : PathHw) (left : Int) (retry ot : Bool) : State :=
  if was.gate = .off then s
  else
    let s := s.gateOff p (if was.cut then Pp.cut else if was.force then Pp.forcedOff else if was.safe then Pp.safeOff else Pp.retryWait)
    let s := s.setPath p { s.path p with faulted := true }
    if !retry then s.lockOut p
    else if was.cut || was.force || was.safe then s.setPath p { s.path p with retrySusp := true }
    else if left ≤ 0 then s.lockOut p
    else s.setPath p { s.path p with retryWait := true, otWait := ot }

/-- A power-path fault: recorded, counted and acted on. -/
def State.pathFault (s : State) (p : Port) (code : Nat) : State :=
  ((s.recordFault p code).faultAlert p code).faultActs p (s.path p) (s.rP p Kp.retryLeft) (retryable code) (decide (code = Flt.fetOt))

/-- Faults detected in the same cycle, lowest code first (R135): every one is recorded and counted, PP_FAULT is left with the lowest,
and the gate is turned off once. -/
def State.pathFaults (s : State) (p : Port) (codes : List Nat) : State :=
  (codes.reverse.foldl (fun s c => s.recordFault p c) s).faultActs p (s.path p) (s.rP p Kp.retryLeft) (codes.all retryable)
    (codes.contains Flt.fetOt)

/-- A pending retry is suspended (R137 item 7). -/
def PathHw.suspendRetry (h : PathHw) : PathHw :=
  { h with retrySusp := h.retrySusp || h.retryWait, retryWait := false }

/-- R460, R139: port `p` enters SAFE_OFF with cause `cause`: gate off with discharge, CC pins open, booking 0, SAFE_OFF
recorded; the first cause stays. A DISABLE under way is dropped. -/
def State.safeOff (s : State) (p : Port) (cause : Int) : State :=
  if (s.path p).safe then s
  else
    let s := (s.recordFault p Flt.safeOff).gateOff p Pp.safeOff
    let s := s.setPath p { (s.path p).suspendRetry with safe := true }
    let s := (s.dropPort p Att.safeOff).setPp p Pp.safeOff
    let s := s.setPort p { s.port p with toDisable := false }
    ((s.wr (K.safeCause + p.val) cause).flag K.safePorts p.val true).flushClass 5

/-- With VDD_FE absent, and until the start releases the engines (R408), the tile holds the CC pins of port `p` (R39). -/
def State.holdCc (s : State) (p : Port) : State :=
  if (s.tile (tileOf p)).feOk ∧ s.sec.stat = 7 then s else s.deadBattery p

/-- SAFE_OFF ends: the port starts from UNATTACHED with a suspended retry dropped (R137, R460). -/
def State.leaveSafe (s : State) (p : Port) : State :=
  let s := s.setPath p { s.path p with safe := false, retrySusp := false, retryWait := false }
  let s := (s.setPort p { s.port p with ccOpen := false, clamp := false }).holdCc p
  (((s.wP p Kp.attachState Att.unattached).setPp p Pp.off).wr (K.safeCause + p.val) 0).flag K.safePorts p.val false

/-- A trip that digital protection sends to the tile of a path whose gate is not off (R19), for the causes that it detected in one
cycle (R135); one of each cause is under way. -/
def State.sendTrips (s : State) (p : Port) (l : List DpCause) : State :=
  let h := s.path p
  let l := l.filter fun c => !h.trips.any fun g => g.contains c
  if h.gate = .off ∨ l = [] then s else s.setPath p { h with trips := h.trips ++ [l] }

/-- A trip for one cause. -/
def State.sendTrip (s : State) (p : Port) (c : DpCause) : State := s.sendTrips p [c]

/-! Detecting. -/

/-- The lower end of the WIN_V window of target `vt` (10 mV) in 20 µV: 3.0 V while PPS_Status reports current limit (R122). -/
def State.windowLow (s : State) (p : Port) (vt : Int) : Int := if (s.port p).ppsLimit then 150000 else vt * 5 * (100 - s.rP p Kp.pgPct)

/-- The upper end of the WIN_V window of target `vt` (10 mV) in 20 µV (R122). -/
def State.windowHigh (s : State) (p : Port) (vt : Int) : Int := vt * 5 * (100 + s.rP p Kp.ovpPct)

/-- Whether a VBUS result `v` (20 µV) lies in the WIN_V window of target `vt` (10 mV), R122. -/
def State.inWindow (s : State) (p : Port) (vt v : Int) : Bool := decide (s.windowLow p vt ≤ v ∧ v < s.windowHigh p vt)

/-- Whether WIN_V reads VBUS inside its window: L set and H clear (R133). -/
def State.vbusIn (s : State) (p : Port) : Bool := (s.cmp (winV p)).l && !(s.cmp (winV p)).h

/-- The target of the window of WIN_V while one of its thresholds is in transit (R128), 10 mV. -/
def State.movingTo (s : State) (p : Port) : Option Int :=
  let h := s.path p
  if h.trans = .slew ∨ h.upperWaits then some h.target
  else if h.dir = .sink ∧ s.rP p Kp.contract = Ctr.transition then (s.port p).wanted.map (·.v)
  else none

/-- VBUS inside its window: by WIN_V, or by the latest converter result against the new window while a threshold is in transit
(R128, R133). -/
def State.vbusGood (s : State) (p : Port) : Bool :=
  match s.movingTo p with
  | some v => s.inWindow p v (s.path p).vNow
  | none => s.vbusIn p

/-- The limit-active bit of a port whose gate is on (R115, R133): the fault timer counts while it is set and holds when it
clears; PG_STRICT drops PG at the timer's start. -/
def State.limitWatch (s : State) (p : Port) : State :=
  let h := s.path p
  if h.gate = .on then
    if (s.cmp (winI p)).l then
      let s := (s.setPath p { h with ft := .running }).setPp p Pp.limit
      if h.ft ≠ .running ∧ s.rP p Kp.pgStrict = 1 then s.setPg p false else s
    else
      let s := s.setPath p { h with ft := if h.ft = .running then .held else h.ft }
      if s.rP p Kp.ppState = Pp.limit then
        s.setPp p (if h.trans = .slew ∨ h.trans = .qual then Pp.transition else if h.dir = .sink then Pp.sinkOn else Pp.on)
      else s
  else s

/-! Turning the path on (R126). -/

/-- R121: the first start after a reset that returns power-path state to defaults, without history. -/
def State.coldStart (s : State) (p : Port) : State :=
  if (s.path p).warm then s
  else
    let bad := decide (s.rP p Kp.tNtc = -32768)
    let s := s.setPath p { s.path p with
      warm := true, rise := 0, rPath := s.rP p Kp.rPathMax, i2tAcc := 0, i2tPrev := none, soaE := 0, startWin := bad
      ntcLast := if bad then none else (s.path p).ntcLast }
    let s := (((s.wP p Kp.rPathEst (s.rP p Kp.rPathMax)).wP p Kp.i2tNow 0).wP p Kp.soaNow 0).wP p Kp.retryLeft
      (s.rP p Kp.retryCount)
    if bad then
      ((((s.recordFault p Flt.ntcInvalid).flag (keyP p Kp.ppFlags) 0 true).flag (keyP p Kp.ppFlags) 1 true).flag
        (keyP p Kp.ppFlags) 3 false).wP p Kp.tjModel 1250
    else s.wP p Kp.tjModel (s.rP p Kp.tNtc)

/-- Whether anything but the comparators bars a path from starting: lockout, a cut, FORCE_OFF, SAFE_OFF, a failed tile, a
retry that is waiting, or a device that may not enable anything (R404, R408). -/
def State.barred (s : State) (p : Port) : Bool :=
  let h := s.path p
  h.lockout || h.cut || h.force || h.safe || h.retryWait || h.retrySusp || s.tileFailed p || !s.mayEnable

/-- Starts a ramp toward `vt` (10 mV) in direction `d`: VSET is set, the pre-turn-on check begins, and the gate rise is
awaited. A target beyond VSET's range is refused: the path is not turned on and PP_FLAGS[7] sets (R108). -/
def State.startRamp (s : State) (p : Port) (d : Dir) (vt : Int) : State :=
  let s := s.coldStart p
  match (if d = .sink then some 0 else s.vsetCode p vt) with
  | none => s.flag (keyP p Kp.ppFlags) 7 true
  | some code =>
    let s := (s.flag (keyP p Kp.ppFlags) 7 false).setPath p { s.path p with
      dir := d, gate := .pre, vset := code, target := vt, dsch := false, retryWait := false,
      retrySusp := false, trans := .none, mode := 0 }
    let s := if d = .sink then s.setMet (qPort p) ((s.met (qPort p)).mark s.cnvNow 16) else s
    (((s.preCheck p).setWinI p).setWinV p vt).setPp p Pp.ramp

/-- A path requested in the source direction starts its ramp to 5 V unless barred or already on (R112, R126). -/
def State.sourceOn (s : State) (p : Port) : State :=
  if (s.path p).gate = .off ∧ !s.barred p then s.startRamp p .source 500 else s

/-- A path requested in the sink direction starts once VBUS is inside the 5 V window (R129). -/
def State.sinkOn (s : State) (p : Port) : State :=
  if (s.path p).gate = .off ∧ !s.barred p ∧ s.inWindow p 500 (s.path p).vNow then s.startRamp p .sink 500 else s

/-- The discharge of a port ends (R131): Pnn_DSCH off, the lower threshold of WIN_V returned, PP_STATE DISCHARGE left. -/
def State.dischargeEnd (s : State) (p : Port) : State :=
  let s := (s.setPath p { s.path p with dsch := false }).setPgLow p (s.path p).target
  if s.rP p Kp.ppState = Pp.discharge then s.setPp p Pp.off else s

end Sys2Proof.Machine
end

