-- ==== Sys2Proof/Machine/PdOps.lean ====
section
/-! DEFINITION. The operations of the Type-C port and of the contract that attach, protocol and ledger commands share:
what an offer holds, messages sent, Hard Reset and Soft_Reset, swaps and held messages. -/

namespace Sys2Proof.Machine

/-! The port and its owner. -/

/-- Whether the engine that owns port `p` reads its messages: the engine runs, or its ports are adopted and adoption is
done (R302), and the link is up. -/
def State.serving (s : State) (p : Port) : Bool :=
  (decide (s.rd (K.engState + blockOf p) = 1) || decide (s.rd (K.engState + blockOf p) = 2)) &&
    decide (s.lath (tileOf p) = 0)

/-- The port is attached as source or as sink. -/
def State.attached (s : State) (p : Port) : Bool :=
  decide (s.rP p Kp.attachState = Att.src) || decide (s.rP p Kp.attachState = Att.snk)

/-- An accepted PR_Swap in which the device still owes its PS_RDY. -/
def State.inPrSwap (s : State) (p : Port) : Bool :=
  (s.port p).swap.any fun w => decide (w.kind = .pr) && w.accepted && (!w.give || decide (s.rP p Kp.powerRole = 1))

/-- The device has accepted to become VCONN source and its PS_RDY is due (R46). -/
def State.owesVconn (s : State) (p : Port) : Bool :=
  (s.port p).swap.any fun w => decide (w.kind = .vconn) && w.accepted && !w.give

/-- A power transition of the port runs, from the Accept to the device's PS_RDY (R484). -/
def State.inTransition (s : State) (p : Port) : Bool :=
  (decide (s.rP p Kp.contract = Ctr.transition) && decide (s.rP p Kp.powerRole = 1)) || s.inPrSwap p

/-- The explicit contract that stands was made in EPR mode (R60). -/
def State.eprStands (s : State) (p : Port) : Bool := s.explicitContract p && (s.port p).eprContract

/-- The booking of the contract that stands (R76): of an EPR entry granted before its contract the power granted, of an explicit contract
its voltage × current, 0 under the implicit contract. -/
def State.standingBooking (s : State) (p : Port) : Int :=
  if !s.explicitContract p then 0
  else if (s.port p).eprMode ∧ !(s.port p).eprContract then (s.port p).eprGrant
  else ceilDiv (s.rP p Kp.contractV * s.rP p Kp.contractI) 1000

/-- The CONTRACT code of the contract that stands (R70). -/
def State.standing (s : State) (p : Port) : Int :=
  if s.explicitContract p then (if (s.port p).eprContract then Ctr.epr else Ctr.spr) else Ctr.none

/-- CONTRACT returns to the contract that stands. -/
def State.toStanding (s : State) (p : Port) : State := s.wP p Kp.contract (s.standing p)

/-- The device sources VCONN to the port's cable. -/
def State.vconnSource (s : State) (p : Port) : Bool :=
  decide (s.rP p Kp.vconnState = 1) || decide (s.rP p Kp.vconnState = 2)

/-- R46: the device may not become VCONN source: VCONN_OC stands for this attach, or VCONN_Tn is below its threshold. -/
def State.vconnBarred (s : State) (p : Port) : Bool := (s.port p).vconnOc || !(s.tile (tileOf p)).vconnOk

/-- The CC pin that the orientation leaves free, as VCONN_STATE shows it (R46): CCB when the plug is on CCA. -/
def State.vconnPin (s : State) (p : Port) : Int := if s.rP p Kp.orient = 1 then 2 else 1

/-- VCONN applied to the free pin, unless barred (R46). -/
def State.vconnOn (s : State) (p : Port) : State :=
  if s.vconnBarred p then s else s.wP p Kp.vconnState (s.vconnPin p)

/-- The cable as not e-marked: 3 A, 20 V, no EPR (R51, R47). -/
def State.cableDefault (s : State) (p : Port) (st : Int) : State :=
  ((((s.wP p Kp.cableState st).wP p Kp.cableIMax 300).wP p Kp.cableVMax 2000).wP p Kp.cableEpr 0).wP p Kp.cableVdo 0

/-! Offers (R53). Objects are in the PD format. -/

/-- The kinds of power data object that Table 2.4 names. -/
inductive PdoKind where
  | fixed | pps | sprAvs | eprAvs
  deriving DecidableEq, Repr

/-- The kind of an object, by its bits 31:28. -/
def pdoKind (o : Int) : PdoKind :=
  if fieldOf o 30 2 = 3 then
    (if fieldOf o 28 2 = 0 then .pps else if fieldOf o 28 2 = 1 then .eprAvs else .sprAvs)
  else .fixed

/-- The highest voltage of an object, 10 mV; an SPR AVS object reaches 20 V. -/
def pdoHigh (o : Int) : Int :=
  match pdoKind o with
  | .fixed => 5 * fieldOf o 10 10
  | .pps => 10 * fieldOf o 17 8
  | .sprAvs => 2000
  | .eprAvs => 10 * fieldOf o 17 9

/-- The lowest voltage of an object, 10 mV; an SPR AVS object starts at 9 V. -/
def pdoLow (o : Int) : Int :=
  match pdoKind o with
  | .fixed => 5 * fieldOf o 10 10
  | .pps => 10 * fieldOf o 8 8
  | .sprAvs => 900
  | .eprAvs => 10 * fieldOf o 8 8

/-- An object with the field of `w` bits from bit `lo` replaced. -/
def putField (o : Int) (lo w : Nat) (v : Int) : Int := o - fieldOf o lo w * 2 ^ lo + clampTo 0 (2 ^ w - 1) v * 2 ^ lo

/-- The strip-table limit of the port in 10 mA, while a shed is in force for it. -/
def State.stripI (s : State) (p : Port) : Option Int := (s.lport p).limit.map (5 * ·)

/-- The least current that R53 allows an object of highest voltage `v` (10 mV), 10 mA: cable, allotment and strip limit;
0 below 100 mA and where the voltage exceeds the cable's. `cls` is the voltage compared with the cable. -/
def State.lowered (s : State) (p : Port) (stored v cls : Int) : Int :=
  let i := min (min stored (s.rP p Kp.cableIMax)) (effAllot s p * 1000 / max 1 v)
  let i := match s.stripI p with
    | some l => min i l
    | none => i
  if s.rP p Kp.cableVMax < cls ∨ i < 10 then 0 else i

/-- The least PDP that R53 allows an EPR AVS object, W; 0 where the object is sent with no current. -/
def State.loweredPdp (s : State) (p : Port) (stored v : Int) : Int :=
  let w := min (min stored (s.rP p Kp.cableIMax * v / 10000)) (effAllot s p / 10)
  let w := match s.stripI p with
    | some l => min w (l * v / 10000)
    | none => w
  if s.rP p Kp.cableVMax < v ∨ w * 10000 < 10 * v then 0 else w

/-- R65: what AUTH_POLICY withholds: the objects above 15 W before a HOLD or REFUSE has its success. -/
def State.withheld (s : State) (p : Port) : Bool :=
  decide (2 ≤ s.rP p Kp.authPolicy) && decide (s.rP p Kp.authState ≠ 2)

/-- R65: a REFUSE that has failed leaves 5 V at 0.1 A. -/
def State.refused (s : State) (p : Port) : Bool :=
  decide (s.rP p Kp.authPolicy = 3) && decide (3 ≤ s.rP p Kp.authState)

/-- An object's greatest power, 0.1 mW. -/
def pdoPower (o : Int) : Int :=
  match pdoKind o with
  | .fixed => pdoHigh o * fieldOf o 0 10
  | .pps => pdoHigh o * (5 * fieldOf o 0 7)
  | .sprAvs => pdoHigh o * fieldOf o 0 10
  | .eprAvs => 10000 * fieldOf o 0 8

/-- An object as sent (R53, R65): its current or PDP lowered. -/
def State.offerObj (s : State) (p : Port) (o : Int) : Int :=
  let hold := s.withheld p && decide (150000 < pdoPower o)
  let cut (i : Int) : Int := if hold then 0 else if s.refused p then (if pdoHigh o = 500 then min i 10 else 0) else i
  match pdoKind o with
  | .fixed => putField o 0 10 (cut (s.lowered p (fieldOf o 0 10) (pdoHigh o) (pdoHigh o)))
  | .pps => putField o 0 7 (cut (s.lowered p (5 * fieldOf o 0 7) (pdoHigh o) (min 2000 (pdoHigh o))) / 5)
  | .sprAvs =>
    let o := putField o 10 10 (cut (s.lowered p (fieldOf o 10 10) 2000 2000))
    putField o 0 10 (cut (s.lowered p (fieldOf o 0 10) 2000 2000))
  | .eprAvs => putField o 0 8 (cut (s.loweredPdp p (fieldOf o 0 8) (pdoHigh o)))

/-- The flags that R53 sets in the first object: Dual-Role Power (29) and Dual-Role Data (25) from ROLE, Unconstrained
Power (27), USB Communications (26) and Unchunked (24) 0, EPR Mode Capable (23) from EPR_EN. -/
def State.offerFlags (s : State) (p : Port) (o : Int) : Int :=
  let drp := decide (s.rP p Kp.role = 2)
  let o := withBit (withBit (withBit (withBit (withBit o 29 drp) 27 false) 26 false) 25 drp) 24 false
  withBit o 23 (decide (s.rP p Kp.eprEn = 1))

/-- The entries of SRC_PDO or EPR_PDO that are not 0, in order. -/
def State.pdos (s : State) (p : Port) (e n : Nat) : List Int :=
  ((List.range n).map fun k => s.rP p (e + k)).filter (· ≠ 0)

/-- The objects of a Source_Capabilities, by position from 1; with `epr`, positions 8 to 11 follow the SPR objects. A
Revision 2.0 partner is offered the fixed objects alone (Table 2.4). -/
def State.buildOffer (s : State) (p : Port) (epr : Bool) : List Int :=
  let spr := (s.pdos p Kp.srcPdo 7).map (s.offerObj p)
  let spr := if s.rP p Kp.pdRev = 2 then spr.filter (fun o => decide (pdoKind o = .fixed)) else spr
  let spr := match spr with
    | o :: t => s.offerFlags p o :: t
    | [] => []
  if epr then spr ++ List.replicate (7 - spr.length) 0 ++ (s.pdos p Kp.eprPdo 4).map (s.offerObj p) else spr

/-- The keys of SRC_PDO and EPR_PDO, which apply at each offer sent (R72). -/
def pdoKeys (p : Port) : List Nat :=
  ((List.range 7).map fun k => keyP p (Kp.srcPdo + k)) ++ (List.range 4).map fun k => keyP p (Kp.eprPdo + k)

/-! Sending. -/

/-- Source_Capabilities or, in EPR mode, EPR_Source_Capabilities is sent (R53): SRC_PDO and EPR_PDO apply (R72). -/
def State.sendCaps (s : State) (p : Port) (ams : Bool) : State :=
  let s := s.applyKeys (pdoKeys p)
  let epr := (s.port p).eprMode
  let o := s.buildOffer p epr
  let s := s.setPort p { s.port p with offer := o, capsCount := (s.port p).capsCount + 1 }
  let m : TxMsg := { kind := if epr then .eprSourceCaps else .sourceCaps, objs := o, re := none }
  if ams then s.startAms p m else s.send p m

/-- R51: the first Source_Capabilities of an attachment waits for the cable: the device is source and VCONN source and the cable has
not been asked. -/
def State.capsHeld (s : State) (p : Port) : Bool :=
  decide (s.rP p Kp.powerRole = 1) && s.vconnSource p && !(s.port p).cableKnown && decide ((s.port p).offer = [])

/-- Source_Capabilities, which the discovery of the cable sends where it still waits for that. -/
def State.capsNow (s : State) (p : Port) : State := if s.capsHeld p then s else s.sendCaps p false

/-- The engine re-advertises (R92, R94, R101) to an attached source port whose objects change. -/
def State.readvertise (s : State) (p : Port) : State :=
  if s.rP p Kp.attachState = Att.src ∧ (s.port p).offer ≠ [] ∧ s.buildOffer p (s.port p).eprMode ≠ (s.port p).offer then
    s.sendCaps p true
  else s

/-- What R48 and Table 2.5 call Not_Supported; the Revision 2.0 message set has Reject for it. -/
def State.notSupported (s : State) (p : Port) : State :=
  s.sendKind p (if s.rP p Kp.pdRev = 2 then .reject else .notSupported)

/-- A Reject sent and counted. -/
def State.reject (s : State) (p : Port) (re : Option PdKind) : State := (s.sendKind p .reject [] re).pdCount p 6

/-! Authentication (R65). -/

/-- An authentication step: GET_DIGESTS, GET_CERTIFICATE, CHALLENGE as steps 1, 2, 3. -/
def State.authRequest (s : State) (p : Port) (step : Nat) : State :=
  (s.setPort p { s.port p with authStep := step }).startAms p { kind := .securityRequest, objs := [step], re := none }

/-- The outcome `st` of an authentication; a failure or silence records AUTH_FAIL and its count. -/
def State.authOutcome (s : State) (p : Port) (st : Int) : State :=
  let s := (s.wP p Kp.authState st).setPort p { s.port p with authStep := 0, awaits := none }
  if st = 2 then s else (s.pdFault p PdF.authFail).pdCount p 9

/-- An authentication that a reset of the protocol ends has had no answer. -/
def State.authBroken (s : State) (p : Port) : State := if (s.port p).authStep = 0 then s else s.authOutcome p 4

/-- Authentication ends with outcome `st`. A success, and a failure under REFUSE, changes the offer. -/
def State.authEnd (s : State) (p : Port) (st : Int) : State := (s.authOutcome p st).readvertise p

/-- Authentication begins; a Revision 2.0 partner, to whom no extended message is sent (Table 2.4), gives no answer. -/
def State.authStart (s : State) (p : Port) : State :=
  if s.rP p Kp.pdRev = 2 then s.authEnd p 4 else (s.wP p Kp.authState 1).authRequest p 1

/-! Hard Reset and Soft_Reset (R69, R71, R483, R484). -/

/-- FR_Swap arming withdrawn with its reservation (R84): the sink's gate and contract stay. -/
def State.frsWithdraw (s : State) (p : Port) : State :=
  (s.frsEnded p).setCtrl p 3 false

/-- What a Hard Reset, sent or received, clears: transmissions, AMS, swap, EPR mode, contract and booking (R69). The held
response of a swap command is BUSY; an authentication under way has no answer (log entry 28). That a
waiting port leaves the wait list is a DESIGN CHOICE (log entry 166). -/
def State.hardClear (s : State) (p : Port) (st : HardReset) : State :=
  let s := (s.authBroken p).endPpsLimit p
  let s := s.setPort p { (s.port p).clearProtocol.cancelCmd with hardReset := st }
  let s := (s.setPath p { s.path p with trans := .none, slewing := false, faulted := false }).frsWithdraw p
  (((s.clearContract p).wP p Kp.contract Ctr.hardReset).leaveWait p).book p 0

/-- R69, R483: the device signals Hard Reset; HARD_RESET_SENT is recorded unless `fault` names the fault that stays. -/
def State.hardReset (s : State) (p : Port) (fault : Int) : State :=
  ((s.hardClear p .signalling).pdCount p 1).pdFault p fault

/-- What a Soft_Reset, sent or received, clears: MessageIDs, the AMS and what it would have led to; the contract that stands
stays, and a request or an EPR entry that dies with its AMS gives its booking back (R76). An authentication under way has no answer
(log entry 28). -/
def State.softClear (s : State) (p : Port) : State :=
  let s := s.authBroken p
  let s := if s.rP p Kp.powerRole = 1 ∧ ((s.port p).wanted.isSome ∨ (s.port p).eprEntering) then s.book p (s.standingBooking p) else s
  let h := s.port p
  (s.setPort p { h.cancelCmd with
    txId := 0, rxId := none, awaits := none, sinkTx := [], swap := none, tx := [], retries := 0, wanted := none
    eprEntering := false }).toStanding p

/-- A Soft_Reset sent with PROTOCOL_ERROR (R71, R484). -/
def State.softReset (s : State) (p : Port) : State :=
  (((s.softClear p).sendKind p .softReset).pdCount p 3).pdFault p PdF.protocolError

/-- R484: a message not expected in the present state. -/
def State.unexpected (s : State) (p : Port) : State :=
  if s.inTransition p then s.hardReset p PdF.hardResetSent else s.softReset p

/-! Swaps (R62). -/

/-- The port becomes sink at the end of a PR_Swap (R62): Rd, sink role, implicit contract. -/
def State.becomeSink (s : State) (p : Port) : State :=
  let s := s.setPort p { s.port p with presentsRp := false, offer := [] }
  ((s.wP p Kp.attachState Att.snk).wP p Kp.powerRole 2).setCtrl p 0 false

/-- The port becomes source at the end of a PR_Swap: Rp, source role; its 5 V ramp starts. -/
def State.becomeSource (s : State) (p : Port) : State :=
  let s := s.setPort p { s.port p with presentsRp := true }
  (((s.wP p Kp.attachState Att.src).wP p Kp.powerRole 1).setCtrl p 1 false).setCtrl p 0 true

/-- PP_STATE of a path turned off without a fault: a hold on the gate or a waiting retry shows through. -/
def State.offState (s : State) (p : Port) : Int :=
  let h := s.path p
  if h.safe then Pp.safeOff else if h.cut then Pp.cut else if h.lockout then Pp.lockout
  else if h.force then Pp.forcedOff else if h.retryWait then Pp.retryWait else Pp.off

/-- A swap that both sides have accepted (R62, R60): DR_Swap changes the data role at once; VCONN_Swap applies VCONN where the
device becomes source, which then sends PS_RDY; PR_Swap turns the present source or sink path off. -/
def State.swapAccepted (s : State) (p : Port) (k : SwapKind) : State :=
  match k with
  | .dr =>
    (s.wP p Kp.dataRole (if s.rP p Kp.dataRole = 1 then 2 else 1)).setPort p { s.port p with swap := none }
  | .vconn =>
    let give := (s.port p).vconnOwner
    let s := s.setPort p { s.port p with vconnOwner := !give, swap := some { kind := .vconn, ours := false, accepted := true, give := give } }
    if give then s
    else
      let s := s.vconnOn p
      if s.vconnSource p then s else s.hardReset p PdF.hardResetSent
  | .pr =>
    let s := s.endPpsLimit p
    let s := s.setPort p { s.port p with
      swap := some { kind := .pr, ours := false, accepted := true, give := decide (s.rP p Kp.powerRole = 1) }, ppsTimer := false, wanted := none
      eprMode := false, eprTimer := false }
    let s := ((s.clearContract p).book p 0).gateOff p (s.offState p)
    (s.setCtrl p 0 false).setCtrl p 1 false

/-- The swaps, by the message that asks for them. -/
def swapOf : PdKind → Option SwapKind
  | .prSwap => some .pr
  | .drSwap => some .dr
  | .vconnSwap => some .vconn
  | _ => none

/-- The message that asks for a swap. -/
def swapMsg : SwapKind → PdKind
  | .pr => .prSwap
  | .dr => .drSwap
  | .vconn => .vconnSwap

/-- Whether a swap is possible in the present role (R62): a PR_Swap needs a DRP port. -/
def State.swapPossible (s : State) (p : Port) (k : SwapKind) : Bool :=
  match k with
  | .pr => decide (s.rP p Kp.role = 2)
  | .dr => true
  | .vconn => (s.port p).vconnOwner || !s.vconnBarred p

/-- The bit of SWAP_POLICY that accepts a swap (Table 2.7). -/
def swapBit : SwapKind → Nat
  | .pr => 0
  | .dr => 1
  | .vconn => 2

/-! A contract made (R56). -/

/-- The explicit contract that `w` names stands; the PPS timer is the source's (R57). -/
def State.makeContract (s : State) (p : Port) (w : Wanted) : State :=
  let s := (((s.wP p Kp.contract (if (s.port p).eprMode then Ctr.epr else Ctr.spr)).wP p Kp.contractPos w.pos).wP p
    Kp.contractV w.v).wP p Kp.contractI w.i
  let s := (s.flag (keyP p Kp.partnerFlags) 4 (decide (w.mode = 1))).flag (keyP p Kp.partnerFlags) 5 (decide (w.mode = 2))
  let s := s.endPpsLimit p
  s.setPort p { s.port p with
    wanted := none, ppsTimer := decide (w.mode = 1 ∧ s.rP p Kp.powerRole = 1), eprContract := (s.port p).eprMode }

/-- The power of an EPR entry as R59 grants it, LW: the sink's PDP (W), at most the largest EPR object as now offered. -/
def State.eprPower (s : State) (p : Port) (pdp : Int) : Int :=
  let best := ((s.pdos p Kp.eprPdo 4).map fun o => pdoPower (s.offerObj p o)).foldl max 0
  ceilDiv (min (10000 * pdp) best) 1000

/-- The power of the lowest EPR object lowered only to the cable current, LW (R61). -/
def State.lowestEpr (s : State) (p : Port) : Option Int :=
  ((s.pdos p Kp.eprPdo 4).map fun o =>
    let pw := match pdoKind o with
      | .eprAvs => min (pdoPower o) (s.rP p Kp.cableIMax * pdoHigh o)
      | _ => pdoHigh o * min (fieldOf o 0 10 : Int) (s.rP p Kp.cableIMax)
    ceilDiv pw 1000).min?

/-- R61: re-advertising after a shed: a port in EPR mode whose allotment no longer reaches its lowest EPR object leaves
EPR mode, and sends SPR Source_Capabilities once EPR_Mode (Exit) is acknowledged. -/
def State.shedAdvertise (s : State) (p : Port) : State :=
  if (s.port p).eprMode ∧ (s.lowestEpr p).all (fun l => decide (effAllot s p < l)) then
    s.startAms p { kind := .eprExit, objs := [], re := none }
  else s.readvertise p

namespace EprFail
/-- The reasons of EPR_Mode (Enter Failed), by numbers of the model's own: EPR mode not supported by source (Table 2.5), the source
cannot enter now, the cable does not qualify (R59). -/
abbrev unsupported : Int := 1
abbrev unable : Int := 2
abbrev cable : Int := 3
end EprFail

/-- EPR entry ends (R59): it succeeds, or fails and the booking is again that of the SPR contract (R76). -/
def State.eprOutcome (s : State) (p : Port) (ok : Bool) : State :=
  let s := s.setPort p { s.port p with eprEntering := false }
  if ok then s.sendKind p .eprEnterOk
  else (s.book p (ceilDiv (s.rP p Kp.contractV * s.rP p Kp.contractI) 1000)).sendKind p .eprEnterFail [EprFail.cable]

/-- EPR mode is left (R60). -/
def State.leaveEpr (s : State) (p : Port) : State := s.setPort p { s.port p with eprMode := false, eprTimer := false }

end Sys2Proof.Machine
end

