-- ==== Sys2Proof/Machine/Attach.lean ====
section
/-! DEFINITION. The meanings of the Type-C attach, VCONN and port-reset commands ("Port Attach, Roles and Power
Contracts", roles and attach). -/

namespace Sys2Proof.Machine

/-! What the pins show (Table 2.1). -/

/-- Exactly one pin sees `t`. -/
def PortHw.one (h : PortHw) (t : Term) : Bool := (decide (h.ccA = t)) != (decide (h.ccB = t))

/-- Both pins see `t`. -/
def PortHw.both (h : PortHw) (t : Term) : Bool := decide (h.ccA = t) && decide (h.ccB = t)

/-- A port that presents Rp sees something that AttachWait.SRC waits on: Rd on one or both pins, or Ra on both. -/
def PortHw.seesSink (h : PortHw) : Bool := h.one .rd || h.both .rd || h.both .ra

/-- A port that presents Rd sees Rp. -/
def PortHw.seesSource (h : PortHw) : Bool := h.one .rp || h.both .rp

/-- The pin of the present orientation still shows the partner: Rd to a source, Rp to a sink. -/
def State.stillThere (s : State) (p : Port) (t : Term) : Bool :=
  let h := s.port p
  if s.rP p Kp.orient = 1 then decide (h.ccA = t) else decide (h.ccB = t)

/-- What a port presents on entering UNATTACHED in its role (R37): Rp as SOURCE, Rd as SINK; a DRP port starts its
toggle with the Rp half. -/
def State.presents (s : State) (p : Port) : Bool := decide (s.rP p Kp.role ≠ 1)

/-- The port enters UNATTACHED, or DISABLED where ROLE says so, with its pins released (R37); a tile without VDD_FE goes on holding
them (R39). -/
def State.toUnattached (s : State) (p : Port) : State :=
  if s.rP p Kp.role = 3 then
    ((s.setPort p { s.port p with ccOpen := true, clamp := false }).holdCc p).wP p Kp.attachState Att.disabled
  else
    ((s.setPort p { s.port p with
      ccOpen := false, clamp := false, presentsRp := s.presents p, powered := false, detaching := false }).holdCc p).wP p
      Kp.attachState Att.unattached

/-- A port that nothing holds any longer leaves ErrorRecovery: into DISABLED where DISABLE took it there (R73), else to attach
normally. -/
def State.leaveRecovery (s : State) (p : Port) : State :=
  if (s.port p).toDisable then
    (s.setPort p { s.port p with toDisable := false, ccOpen := true, clamp := false }).wP p Kp.attachState Att.disabled
  else s.toUnattached p

/-- Orientation by the pin that sees `t` (R40): 1 CCA, 2 CCB. -/
def PortHw.orientOf (h : PortHw) (t : Term) : Int := if h.ccA = t then 1 else 2

/-- A new attachment starts with no cable result, no VCONN_OC, no revision known (R52, R47) and a partner that has not been
authenticated (R65). -/
def State.freshAttach (s : State) (p : Port) : State :=
  (((s.setPort p { s.port p with vconnOc := false, cableTries := 0, cableKnown := false, detaching := false, capsCount := 0 }).cableDefault
    p 0).wP p Kp.authState 0).pdCount p 8

/-- Attached.SRC (R38, R40, R46, Table 2.2): orientation, roles, VCONN to a powered cable, and the 5 V ramp under the
implicit contract of RP_LEVEL. -/
def State.attachSrc (s : State) (p : Port) : State :=
  let h := s.port p
  let s := (s.freshAttach p).setPort p { (s.freshAttach p).port p with
    presentsRp := true, powered := h.ccA = .ra || h.ccB = .ra, vconnOwner := true }
  let s := (((s.wP p Kp.attachState Att.src).wP p Kp.orient (h.orientOf .rd)).wP p Kp.powerRole 1).wP p Kp.dataRole 1
  let s := if s.rP p Kp.vconnEn = 1 ∧ (s.port p).powered then s.vconnOn p else s
  ((s.implicitTarget p).setCtrl p 0 true).sourceOn p

/-- Attached.SNK (R38): orientation, sink roles, the partner sources VCONN; the sink path is requested (R129). -/
def State.attachSnk (s : State) (p : Port) : State :=
  let h := s.port p
  let s := (s.freshAttach p).setPort p { (s.freshAttach p).port p with presentsRp := false }
  let s := (((s.wP p Kp.attachState Att.snk).wP p Kp.orient (h.orientOf .rp)).wP p Kp.powerRole 2).wP p Kp.dataRole 2
  (((s.wP p Kp.vconnState 3).implicitTarget p).setCtrl p 1 true).sinkOn p

/-- R41, R45: the terminations seen on the CC pins change; the tile moves toward AttachWait, back to Unattached, or into
the detach debounce, which ends when the partner is seen again. Pins held open see nothing. -/
def execCcTerminationChange (p : Port) (a b : Term) (s : State) : Host.Outcome State Fault Refusal :=
  done (
    let s := s.setPort p { s.port p with ccA := a, ccB := b }
    let h := s.port p
    let st := s.rP p Kp.attachState
    if h.ccOpen then s
    else if st = Att.unattached then
      if h.presentsRp then (if h.seesSink then s.wP p Kp.attachState Att.waitSrc else s)
      else (if h.seesSource then s.wP p Kp.attachState Att.waitSnk else s)
    else if st = Att.waitSrc then (if h.seesSink then s else s.toUnattached p)
    else if st = Att.waitSnk then (if h.seesSource then s else s.toUnattached p)
    else if st = Att.src then s.setPort p { h with detaching := !s.stillThere p .rd }
    else if st = Att.snk then s.setPort p { h with detaching := !s.stillThere p .rp }
    else if st = Att.debug then s.setPort p { h with detaching := !(h.both .rd || h.both .rp) }
    else if st = Att.audio then s.setPort p { h with detaching := !h.both .ra }
    else s)

/-- R38, R41: tCCDebounce has run in AttachWait. A debug accessory gets 5 V only with DEBUG_VBUS; an audio accessory gets
nothing; a DRP port goes through the Try state of TRY, others attach. The tile runs this without the engine; outside S0 the port
stays in AttachWait (R451). -/
def execCcDebounceExpiry (p : Port) (s : State) : Host.Outcome State Fault Refusal :=
  done (
    let h := s.port p
    let drp := decide (s.rP p Kp.role = 2)
    if s.power.phase ≠ .run then s
    else if s.rP p Kp.attachState = Att.waitSrc then
      if h.both .ra then s.wP p Kp.attachState Att.audio
      else if h.both .rd then
        let s := s.wP p Kp.attachState Att.debug
        if s.rP p Kp.debugVbus = 1 then (s.setCtrl p 0 true).sourceOn p else s
      else if drp ∧ s.rP p Kp.tryE = 2 then
        (s.setPort p { h with presentsRp := false }).wP p Kp.attachState Att.trySnk
      else s.attachSrc p
    else if s.rP p Kp.attachState = Att.waitSnk then
      if h.both .rp then s.wP p Kp.attachState Att.debug
      else if drp ∧ s.rP p Kp.tryE = 1 then
        (s.setPort p { h with presentsRp := true }).wP p Kp.attachState Att.trySrc
      else s.attachSnk p
    else s)

/-- R38: a Try or TryWait timer runs out: the port attaches in the role whose partner it sees, moves from Try to TryWait,
or returns to Unattached. -/
def execTryTimerExpiry (p : Port) (s : State) : Host.Outcome State Fault Refusal :=
  done (
    let h := s.port p
    let st := s.rP p Kp.attachState
    if st = Att.trySrc then
      if h.one .rd then s.attachSrc p
      else (s.setPort p { h with presentsRp := false }).wP p Kp.attachState Att.tryWaitSnk
    else if st = Att.trySnk then
      if h.one .rp then s.attachSnk p
      else (s.setPort p { h with presentsRp := true }).wP p Kp.attachState Att.tryWaitSrc
    else if st = Att.tryWaitSnk then (if h.one .rp then s.attachSnk p else s.toUnattached p)
    else if st = Att.tryWaitSrc then (if h.one .rd then s.attachSrc p else s.toUnattached p)
    else s)

/-- R42: the toggle of an unattached DRP port between Rp and Rd. -/
def execDrpToggle (p : Port) (s : State) : Host.Outcome State Fault Refusal :=
  done (
    if s.rP p Kp.role = 2 ∧ s.rP p Kp.attachState = Att.unattached ∧ !(s.port p).ccOpen then
      s.setPort p { s.port p with presentsRp := !(s.port p).presentsRp }
    else s)

/-- R45, R130, R137: detach is confirmed: the gate is turned off with discharge, the contract is dropped, nothing more is
sent; a retry wait is cancelled and the count restored. -/
def execDetachConfirmed (p : Port) (s : State) : Host.Outcome State Fault Refusal :=
  done (
    if (s.port p).detaching then
      let s := if (s.path p).retryWait then s.wP p Kp.retryLeft (s.rP p Kp.retryCount) else s
      let s := s.setPath p { s.path p with retryWait := false }
      let s := s.gateOff p (s.offState p)
      (s.dropPort p Att.unattached).toUnattached p
    else s)

/-- R44, R137: a port reset: Type-C ErrorRecovery with the gate off; a retry wait ends and the count stays. A port in
SAFE_OFF keeps its state (R460). -/
def State.portReset (s : State) (p : Port) : State :=
  if (s.path p).safe then s
  else
    let s := s.setPath p { s.path p with retryWait := false }
    (s.gateOff p (s.offState p)).errorRecovery p

/-- R44: a port reset; in link hold it waits for the link, which no port leaves its state in (R22). -/
def execPortReset (p : Port) (s : State) : Host.Outcome State Fault Refusal :=
  done (if s.held p then s.toTile p (.reset p) else s.portReset p)

/-- R44: tErrorRecovery ends: the port leaves ErrorRecovery unless a cut or a lockout holds its pins open; DISABLE takes it
into DISABLED (R73). -/
def execErrorRecoveryEnd (p : Port) (s : State) : Host.Outcome State Fault Refusal :=
  done (
    if s.rP p Kp.attachState = Att.errorRecovery ∧ !(s.path p).cut ∧ !(s.path p).lockout ∧
        s.rP p Kp.ledgerState ≠ 4 then
      s.leaveRecovery p
    else s)

/-- R47: the VCONN switch turns off after 2 ms in limit: VCONN_OC, and the cable counts as not e-marked; where the device
owes VCONN before PS_RDY of a swap, Hard Reset (R46), and an EPR entry that waits for the cable fails (R59). -/
def execVconnLimitExpiry (p : Port) (s : State) : Host.Outcome State Fault Refusal :=
  done (
    if s.vconnSource p then
      let owed := s.owesVconn p
      let asking := (s.port p).eprEntering && decide ((s.port p).cableTries ≠ 0)
      let s := ((s.vconnOff p).setPort p { s.port p with vconnOc := true, cableKnown := true, cableTries := 0 }).cableDefault p 1
      let s := s.pdFault p PdF.vconnOc
      if owed then s.hardReset p PdF.hardResetSent else if asking then s.eprOutcome p false else s
    else s)

end Sys2Proof.Machine
end

