-- ==== Sys2Proof/Machine/Can.lean ====
section
/-! DEFINITION. The CAN FD controllers beneath the dictionary frames: their entries in force, error counters, and frames to be sent ("Object
Dictionary and Its Transports"). -/

namespace Sys2Proof.Machine

/-- The requester of CANA or CANB. -/
def canSrc (c : Fin 2) : Requester := ⟨18 + c.val, by omega⟩

/-- A controller. -/
def State.can (s : State) (c : Fin 2) : CanHw := (s.src (canSrc c)).can

/-- A controller replaced. -/
def State.setCan (s : State) (c : Fin 2) (h : CanHw) : State := s.setSrc (canSrc c) { s.src (canSrc c) with can := h }

/-- CAN_STATE, CAN_TEC and CAN_REC of a controller. -/
def State.canSt (s : State) (c : Fin 2) : Int := s.rd (K.canState + c.val)

/-- The ten CAN entries of Table 13.6. -/
def canKeys : List Nat := (List.range 10).map fun i => K.canNode + i

/-- A controller enabled or disabled by CAN_EN as it stands for it (R382). -/
def State.canEnabled (s : State) (c : Fin 2) : State :=
  let on := bit (tget (s.can c).cfg 1) c.val
  if on = decide (s.canSt c ≠ 0) then s else s.wr (K.canState + c.val) (b2i on)

/-- A CAN entry reads as in force: the value written meanwhile still waits for its strobe. -/
def State.canEntry (s : State) (k : Nat) (v : Int) : State :=
  if s.pendingVal k = some v then s.applyKey k else s.wr k v

/-- A bus-idle of a controller (R382): it takes what the last strobe brought; a change of rate makes it leave the bus. The entries read as in
force once both controllers have taken them. -/
def State.canTake (s : State) (c : Fin 2) : State :=
  let h := s.can c
  match h.next with
  | none => s
  | some v =>
    let moved := decide (tget v 4 ≠ tget h.cfg 4 ∨ tget v 5 ≠ tget h.cfg 5) && decide (s.canSt c ≠ 0)
    let s := (s.setCan c { h with cfg := v, next := none, away := h.away || moved }).canEnabled c
    if (s.can 0).next.isNone ∧ (s.can 1).next.isNone then
      (List.finRange 10).foldl (fun s i => s.canEntry (K.canNode + i.val) (tget v i)) s
    else s

/-- The apply strobe at the CAN entries (R367, R382): each controller takes them at its next bus-idle; one that is off at once: DESIGN CHOICE
(log entry 186). -/
def State.canStrobe (s : State) : State :=
  if canKeys.any fun k => (s.pendingVal k).isSome then
    let v : Vector Int 10 := Vector.ofFn fun i => (s.pendingVal (K.canNode + i.val)).getD (s.rd (K.canNode + i.val))
    let s := (List.finRange 2).foldl (fun s c => s.setCan c { s.can c with next := some v }) s
    (List.finRange 2).foldl (fun s c => if s.canSt c = 0 then s.canTake c else s) s
  else s

/-- The controllers start with the entries in force. -/
def State.startCan (s : State) : State :=
  let v : Vector Int 10 := Vector.ofFn fun i => s.rd (K.canNode + i.val)
  (List.finRange 2).foldl (fun s c => (s.setCan c { CanHw.reset with cfg := v }).canEnabled c) s

/-! Errors and their counters (R374). The steps of the counters are those of ISO 11898-1: PRESUMED (log entry 185). -/

/-- A controller that takes part in its bus. -/
def State.canOn (s : State) (c : Fin 2) : Bool := decide (s.canSt c = 1 ∨ s.canSt c = 2) && !(s.can c).away

/-- CAN_STATE of a controller on its bus follows its counters: error passive above 127. -/
def State.canShow (s : State) (c : Fin 2) : State :=
  if s.canSt c = 1 ∨ s.canSt c = 2 then
    s.wr (K.canState + c.val) (if 127 < s.rd (K.canTec + c.val) ∨ 127 < s.rd (K.canRec + c.val) then 2 else 1)
  else s

/-- Bus-off: the controller leaves the bus and counts. -/
def State.canBusOff (s : State) (c : Fin 2) : State :=
  if s.canSt c = 1 ∨ s.canSt c = 2 then
    ((s.wr (K.canState + c.val) 3).wr (K.canTec + c.val) 255).count (K.canBusoff + c.val)
  else s

/-- A frame received without an error; a counter above 127 takes a value from 119 to 127, which the standard leaves open. -/
def State.canGood (s : State) (c : Fin 2) : State :=
  let r := s.rd (K.canRec + c.val)
  (if 127 < r then (s.draw.wr (K.canRec + c.val) (119 + Config.freeNat s.fresh % 9 : Nat))
    else s.wr (K.canRec + c.val) (max 0 (r - 1))).canShow c

/-- An event on a controller's bus. -/
def State.canMeets (s : State) (c : Fin 2) (e : CanEv) : State :=
  match e with
  | .txError =>
    if !s.canOn c then s
    else if 255 < s.rd (K.canTec + c.val) + 8 then s.canBusOff c
    else (s.wr (K.canTec + c.val) (s.rd (K.canTec + c.val) + 8)).canShow c
  | .rxError d =>
    if !s.canOn c then s else (s.wr (K.canRec + c.val) (min 255 (s.rd (K.canRec + c.val) + if d then 8 else 1))).canShow c
  | .sent =>
    if !s.canOn c then s
    else
      let h := s.can c
      ((s.setCan c { h with frames := h.frames.drop 1 }).wr (K.canTec + c.val) (max 0 (s.rd (K.canTec + c.val) - 1))).canShow c
  | .idle => if s.canSt c = 0 then s else s.canTake c
  | .recessive => s.setCan c { s.can c with away := false }

/-! Segments of responses (R375, R376). -/

/-- A DF cut into segments of 63 octets, numbered from `n`, the last one padded and marked. -/
def segmentsOf : Nat → Nat → List Nat → List (List Nat)
  | 0, _, _ => []
  | k + 1, n, l =>
    if l.length ≤ 63 then [(n + 64) :: (l ++ List.replicate (63 - l.length) 0)] else (n :: l.take 63) :: segmentsOf k (n + 1) (l.drop 63)

/-- A response on a controller: its segments wait to be sent back to back on DF_RSP_BASE + N. -/
def State.canSend (s : State) (c : Fin 2) (resp : List Nat) : State :=
  let h := s.can c
  let id := (tget h.cfg 3 + tget h.cfg 0).toNat
  s.setCan c { h with frames := h.frames ++ (segmentsOf 33 0 resp).map fun x => (id, x) }

end Sys2Proof.Machine
end

