-- ==== Sys2Proof/Machine/Crc.lean ====
section
/-! DEFINITION. The CRC of the manual (R323, Table 11.7): one step per bit over a register of 8, 16 or 32 bits, and the
CRC-32 of preset 00 that dictionary frames and calibration images carry. -/

namespace Sys2Proof.Machine

/-- The `n` low bits of `v` in reverse order. -/
def revBits : Nat → Nat → Nat
  | 0, _ => 0
  | n + 1, v => v % 2 * 2 ^ n + revBits n (v / 2)

/-- One bit of a reflected step: register `v`, polynomial `rp` in reversed form. -/
def crcBitR (rp v b : Nat) : Nat := if (v + b) % 2 = 1 then v / 2 ^^^ rp else v / 2

/-- One bit of an unreflected step over a register of `w` bits. -/
def crcBitN (w poly v b : Nat) : Nat :=
  let top := v / 2 ^ (w - 1) % 2
  let u := v * 2 % 2 ^ w
  if (top + b) % 2 = 1 then u ^^^ poly else u

/-- The bits of `d`, bit 0 first. -/
def bitList : Nat → Nat → List Nat
  | 0, _ => []
  | n + 1, d => d % 2 :: bitList n (d / 2)

/-- A CRC step over `n` bits of data `d` (R323): polynomial in normal form, width `w`, reflected or not. -/
def crcStep (w poly : Nat) (refl : Bool) (n d v : Nat) : Nat :=
  let p := poly % 2 ^ w
  if refl then (bitList n d).foldl (crcBitR (revBits w p)) (v % 2 ^ w)
  else (bitList n d).reverse.foldl (crcBitN w p) (v % 2 ^ w)

/-- CRCV after the octets `l` under preset 00. -/
def crc32Reg (l : List Nat) : Nat := l.foldl (fun v b => crcStep 32 0x04C11DB7 true 8 b v) 0xFFFFFFFF

/-- The trailer of preset 00: NOT CRCV, least significant octet first. -/
def crc32 (l : List Nat) : List Nat := leOctets 4 (0xFFFFFFFF - crc32Reg l)

end Sys2Proof.Machine
end

