-- ==== Sys2Proof/Machine/MetOps.lean ====
section
/-! DEFINITION. The shared operations of converter results and metering: channels and gains, calibrated values, power
samples, segments, cuts and windows ("Conversion Subsystem and the Hod", "Metering, Skim and Signed Measurement
Records"). -/

namespace Sys2Proof.Machine

/-! Sequences and channels (R174, R180). -/

/-- The fields of a sequence entry word (Table 6.7). -/
abbrev eCh (w : Nat) : Nat := w % 32
abbrev eGain (w : Nat) : Nat := w >>> 5 % 8
abbrev eFilt (w : Nat) : Nat := w >>> 8 % 4
abbrev eDest (w : Nat) : Bool := w.testBit 10
abbrev eQdiv (w : Nat) : Nat := w >>> 12 % 16
abbrev eConv (w : Nat) : Nat := w >>> 16 % 256 + 1

/-- Whether converter `c` is one of the two on the controller die. -/
abbrev onCtl (c : Conv) : Bool := decide (16 ≤ c.val)

/-- A reserved channel number (Tables 6.2 and 6.3). -/
def reservedCh (c : Conv) (ch : Nat) : Bool :=
  if onCtl c then decide (0x18 ≤ ch ∧ ch ≤ 0x1B ∨ 0x1E ≤ ch) else decide (0x17 ≤ ch ∧ ch ≤ 0x1B ∨ 0x1F ≤ ch)

/-- A privileged channel. -/
def privileged (c : Conv) (ch : Nat) : Bool :=
  if onCtl c then decide (0x10 ≤ ch ∧ ch ≤ 0x13 ∨ ch = 0x1C) else decide (ch = 0x1C ∨ ch = 0x1E)

/-- A channel of class High. -/
def highClass (c : Conv) (ch : Nat) : Bool :=
  if onCtl c then decide (ch = 0x14) else decide (0x0C ≤ ch ∧ ch ≤ 0x13 ∨ ch = 0x16)

/-- The full scale of a channel at gain 1, 0.1 µV (Tables 6.2 and 6.3). -/
def fullScale (c : Conv) (ch : Nat) : Int :=
  if onCtl c then
    if ch < 0x10 ∨ ch = 0x17 then 81920000
    else if ch < 0x12 then 819200000
    else if ch = 0x12 then 1600000
    else if ch = 0x13 ∨ ch = 0x16 ∨ (ch = 0x15 ∧ c.val = 17) then 40960000
    else 20480000
  else
    if ch < 4 then 1600000
    else if ch < 0x0C then 655360000
    else if 0x10 ≤ ch ∧ ch < 0x14 then 163840000
    else if ch = 0x14 ∨ ch = 0x15 then 81920000
    else if ch = 0x1E then 40960000
    else 20480000

/-- The settling length of a filter (Table 6.6). -/
def filterLen (f : Nat) : Nat := if f = 1 then 160 else if f = 2 then 1600 else 0

/-- The words of the applied sequence of converter `c`. -/
def seqWords (s : State) (c : Conv) : List Nat :=
  (List.range (s.rV c Kv.seqLen).toNat).map fun e => (s.rV c (Kv.seqEntry + e)).toNat

/-- The gains at which the applied sequence names channel `ch` (R208), as multipliers, without repeats. -/
def chanGains (s : State) (c : Conv) (ch : Nat) : List Nat :=
  (((seqWords s c).filter fun w => eCh w = ch).map fun w => 2 ^ eGain w).eraseDups

/-- The one gain of a channel; none where the group does not map it to exactly one. -/
def chanGain (s : State) (c : Conv) (ch : Nat) : Option Nat :=
  match chanGains s c ch with
  | [g] => some g
  | _ => none

/-- The group names a channel at more than one gain. -/
def ambiguous (s : State) (c : Conv) (ch : Nat) : Bool := decide (1 < (chanGains s c ch).length)

/-- The port of local port `q` of tile converter `c`. -/
def convPort (c : Conv) (q : Nat) : Port := Fin.ofNat 64 (4 * c.val + q)

/-! Metered quantities: 0 to 63 ports, 64 and 65 feeds, 66 to 97 rails, 98 and 99 feed outputs. -/

/-- The metered quantity of a feed. -/
def qFeed (f : Feed) : Fin 100 := ⟨64 + f.val, by omega⟩
/-- The metered quantity of a rail. -/
def qRail (n : Rail) : Fin 100 := ⟨66 + n.val, by omega⟩
/-- The metered output voltage of a feed. -/
def qVout (f : Feed) : Fin 100 := ⟨98 + f.val, by omega⟩

/-- The converter that measures a quantity (Table 6.1). -/
def qConv (x : Fin 100) : Conv :=
  if x.val < 64 then Fin.ofNat 18 (x.val / 4)
  else if x.val < 66 then Fin.ofNat 18 (16 + (x.val - 64))
  else if x.val < 98 then Fin.ofNat 18 (16 + (x.val - 66) / 16)
  else Fin.ofNat 18 (16 + (x.val - 98))

/-- The channels of a quantity: voltage, and current where it has one. -/
def qChans (x : Fin 100) : List Nat :=
  if x.val < 64 then [4 + x.val % 4, x.val % 4]
  else if x.val < 66 then [0x10, 0x12]
  else if x.val < 98 then [(x.val - 66) % 16]
  else [0x11]

/-- The channels whose gains CFG_ERR of a quantity judges (R208): those of a feed with its output voltage. -/
def cfgChans (x : Fin 100) : List Nat := if 64 ≤ x.val ∧ x.val < 66 then [0x10, 0x11, 0x12] else qChans x

/-- The words of the CAL bank that hold a quantity's OFF and GAIN, voltages then current (Table 7.1). -/
def qCoefs (x : Fin 100) : List Nat :=
  if x.val < 64 then [16 + 4 * x.val, 18 + 4 * x.val]
  else if x.val < 66 then [336 + 6 * (x.val - 64), 338 + 6 * (x.val - 64), 340 + 6 * (x.val - 64)]
  else if x.val < 98 then [356 + 2 * (x.val - 66)]
  else [338 + 6 * (x.val - 98)]

/-- The words of the CAL bank that hold a converter's V_A1, V_A2, I_A1, I_A2. -/
def tempCoef (c : Conv) : Nat := if onCtl c then 348 + 4 * (c.val - 16) else 272 + 4 * c.val

/-- The temperature that a sensor voltage in µV stands for, 0.1 °C (R485). -/
def sensorTemp (v : Rat) : Rat := (v - 600000) / 500

/-- The die temperature of a converter, 0.1 °C (R209): of the tile's thermal monitor, whose sensor reads `sense`, or as DIE_TEMP and
DIE_TEMP2 were last converted. -/
def dieTemp (s : State) (c : Conv) (sense : Int) : Rat :=
  if c.val = 16 then s.ref.die0 else if c.val = 17 then s.ref.die1 else sensorTemp sense

/-- CFG_ERR of a quantity (R208). -/
def cfgErr (s : State) (x : Fin 100) : Bool := (cfgChans x).any fun ch => ambiguous s (qConv x) ch

/-- What an unlisted OTP word reads as: absent. -/
def noWord (_ : Nat) : Option Nat := none

/-- A coefficient of the bank in force (R211): CAL_BANK 0 is bank A, 1 bank B. -/
def State.coef (s : State) (w : Nat) : Option Nat :=
  if s.rd K.calBank = 0 then SMap.get noWord s.otpShadow (0x300 + w)
  else if s.rd K.calBank = 1 then SMap.get noWord s.otpShadow (0x500 + w)
  else none

/-- DEFAULT_COEF of a quantity (R212). -/
def defaultCoef (s : State) (x : Fin 100) : Bool :=
  let pairs := (qCoefs x).flatMap fun w => [w, w + 1]
  let k := tempCoef (qConv x)
  (pairs ++ [k, k + 1] ++ (if (qChans x).length = 2 then [k + 2, k + 3] else [])).any fun w => (s.coef w).isNone

/-- A 32-bit word as a signed number. -/
def asI32 (n : Nat) : Int := if n % 4294967296 < 2147483648 then (n % 4294967296 : Nat) else (n % 4294967296 : Nat) - 4294967296

/-- The calibrated value of a channel input, in 0.1 µV (R209): `x` scaled, `w` the word of OFF, `k` the word of A1, `dt` the
die temperature minus 25 °C in 0.1 °C, `user` the user gain in 10⁻⁷. -/
def calibrate (s : State) (x : Rat) (w k : Nat) (dt : Rat) (user : Int) : Rat :=
  let off : Rat := match s.coef w with | some n => (asI32 n : Rat) | none => 0
  let gain : Rat := match s.coef (w + 1) with | some n => (n : Rat) / 2147483648 | none => 1
  let a1 : Rat := match s.coef k with | some n => (asI32 n : Rat) / 1000000000 | none => 0
  let a2 : Rat := match s.coef (k + 1) with | some n => (asI32 n : Rat) / 100000000000 | none => 0
  let t : Rat := dt / 10
  (x - off) * gain * (1 + a1 * t + a2 * t * t) * (1 + (user : Rat) / 10000000)

/-- The 32 fraction bits of metering arithmetic (R209). -/
abbrev frac : Int := 4294967296

/-- A code scaled to its full scale at gain 1, `fs` in 0.1 µV. -/
def scaled (code : Int) (fs : Int) (g : Nat) : Rat := ((code * fs : Int) : Rat) / ((32768 * g : Nat) : Rat)

/-- A calibrated voltage in 20 µV with its fraction bits. -/
def voltValue (s : State) (c : Conv) (w : Nat) (fs code : Int) (g : Nat) (sense user : Int) : Int :=
  (calibrate s (scaled code fs g) w (tempCoef c) (dieTemp s c sense - 250) user * frac / 200).floor

/-- A calibrated current in 10 µA with its fraction bits, through a shunt of `r` µΩ. -/
def ampValue (s : State) (c : Conv) (w : Nat) (code : Int) (g : Nat) (sense user r : Int) : Int :=
  (calibrate s (scaled code 1600000 g) w (tempCoef c + 2) (dieTemp s c sense - 250) user * frac * 10000 / (max r 1 : Int)).floor

/-! UNCERTAIN (R199, R218). -/

/-- The causes of UNCERTAIN of a converter (R199). -/
def uncCause (s : State) (c : Conv) : Bool :=
  let h := s.conv c
  !h.calValid || h.plausFail || h.plausStale || decide (s.rd K.refDiverge = 1) ||
    (!onCtl c && decide (s.lath (Fin.ofNat 8 (c.val / 2)) ≠ 0))

/-- A quantity found UNCERTAIN, with its windows under way. -/
def MetHw.markUnc (m : MetHw) : MetHw := { m with unc := true, wins := m.wins.map fun w => { w with unc := true } }

/-- Every metered quantity. -/
def allQuants : List (Fin 100) := List.finRange 100

/-- The metering of converter `c` while a cause of R199 holds; UNCERTAIN clears only with a full 10 S/s window (R218). -/
def State.refreshUnc (s : State) (c : Conv) : State :=
  if uncCause s c then
    { s with mets := Vector.ofFn fun x : Fin 100 => if qConv x = c then (s.met x).markUnc else s.met x }
  else s

/-- The same for every converter. -/
def State.refreshUncAll (s : State) : State :=
  { s with mets := Vector.ofFn fun x : Fin 100 => if uncCause s (qConv x) then (s.met x).markUnc else s.met x }

/-! Segments and cuts (R216, R219, R222). -/

/-- What a quantity's cut takes from the rest of the state: whether a cause of UNCERTAIN holds, and CFG_ERR, sink direction
and DEFAULT_COEF as bits 6 to 8 of MET_FLAGS. -/
structure MetEnv where
  cause : Bool
  extra : Nat
  deriving DecidableEq, Repr

/-- Whether a quantity is a port whose path runs in the sink direction (R213). -/
def sinkNow (s : State) (x : Fin 100) : Bool :=
  if h : x.val < 64 then decide ((s.path ⟨x.val, h⟩).dir = .sink) else false

/-- The surroundings of a quantity. -/
def metEnv (s : State) (x : Fin 100) : MetEnv :=
  { cause := uncCause s (qConv x)
    extra := 64 * bitsOf [cfgErr s x, sinkNow s x, defaultCoef s x] }

/-- A forward accumulator with its epoch (R217): past its top it wraps to 0. -/
def wrapE (e : Int) (ep : Nat) : Int × Nat :=
  if e < 9223372036854775808 * frac then (e, ep) else (e - 9223372036854775808 * frac, (ep + 1) % 65536)

/-- The positive and negative parts of the doubled integral of a line from `a` to `b` over `n` cycles (R216). -/
def splitSign (a b : Int) (n : Nat) : Int × Int :=
  if 0 ≤ a ∧ 0 ≤ b then ((a + b) * n, 0)
  else if a ≤ 0 ∧ b ≤ 0 then (0, -(a + b) * n)
  else if 0 < a then (a * a * n / (a - b), b * b * n / (a - b))
  else (b * b * n / (b - a), a * a * n / (b - a))

/-- A charge accumulator (Table 7.2): it stays at its top and sets OVR. -/
def topQ (q : Int) : Int := min q (9223372036854775807 * frac)

/-- The flags that waited for cuts are gathered where no cut stands before them any more. -/
def MetHw.gather (m : MetHw) : MetHw :=
  let late (x : Nat × Nat) : Bool := m.cuts.any fun c => decide (c.t ≤ x.1)
  (m.marks.filter fun x => !late x).foldl (fun m x => m.note x.2) { m with marks := m.marks.filter late }

/-- OVR of a quantity by a result of instant `t` (R214). -/
def MetHw.setOvr (m : MetHw) (o : Bool) (t : Nat) : MetHw := m.mark t (if o then 2 else 0)

/-- A piece of a segment integrated into accumulators and windows. Over one cycle of 12.5 ns, 100 µW is 1/80,000 of
0.1 µJ and 10 µA is 1/800,000 of 0.1 µC; the integrals are doubled. -/
def MetHw.integrate (m : MetHw) (a b : Sample) : MetHw :=
  let n := b.t - a.t
  let e := splitSign a.p b.p n
  let q := splitSign a.i b.i n
  let f := wrapE (m.eFwd + e.1 / 160000) m.epochF
  let r := wrapE (m.eRev + e.2 / 160000) m.epochR
  let qf := m.qFwd + q.1 / 1600000
  let qr := m.qRev + q.2 / 1600000
  let wins := m.wins.map fun (w : WinAcc) =>
    { w with v := w.v + (a.v + b.v) * n, i := w.i + (a.i + b.i) * n, p := w.p + (a.p + b.p) * n, len := w.len + n }
  let m := { m with
    eFwd := f.1, epochF := f.2, eRev := r.1, epochR := r.2, qFwd := topQ qf, qRev := topQ qr, wins := wins }
  if topQ qf ≠ qf ∨ topQ qr ≠ qr then m.note 2 else m

/-- A piece that is not integrated (R216, R219): GAP_TIME, and GAP where it is not empty, of the windows under way too. -/
def MetHw.skip (m : MetHw) (n : Nat) : MetHw :=
  if n = 0 then m
  else { m.note 4 with gapC := m.gapC + n, gap := true, wins := m.wins.map fun (w : WinAcc) => { w with gap := true } }

/-- UNCERTAIN_TIME of a piece that ends while the quantity is UNCERTAIN (R218), integrated or not: DESIGN CHOICE (log entry 154). -/
def MetHw.uncTime (m : MetHw) (n : Nat) : MetHw := if m.unc then { m.note 1 with uncC := m.uncC + n } else m

/-- A value with its fraction bits read in its LSB. -/
def lsb (x : Int) : Int := nearDiv x frac

/-- MET_FLAGS (Table 7.6). -/
def MetHw.flags (m : MetHw) (e : MetEnv) : Nat :=
  bitsOf [m.unc, m.notYet[0], m.notYet[1], m.notYet[2], m.ovr, m.gap] + e.extra

/-- What a cut for a record of kind `k` captures (R222, R229, Table 7.5). -/
def MetHw.capture (m : MetHw) (e : MetEnv) (k : Fin 3) : ChanCut :=
  { eFwd := m.eFwd / frac, eRev := m.eRev / frac, qFwd := m.qFwd / frac, qRev := m.qRev / frac
    epoch := m.epochF + 65536 * m.epochR, met := m.flags e
    flags := tget m.seen k ||| bitsOf [m.unc, false, false, e.extra.testBit 6, false, e.extra.testBit 8]
    unc := m.uncC, gap := m.gapC, dUnc := (m.uncC - tget m.uncPrev k).toNat, dGap := (m.gapC - tget m.gapPrev k).toNat }

/-- What a window that ends latches (R219). -/
def WinAcc.value (w : WinAcc) : WinVal :=
  if w.len = 0 then WinVal.none
  else { v := nearDiv w.v (2 * w.len * frac), i := nearDiv w.i (2 * w.len * frac), p := nearDiv w.p (2 * w.len * frac) }

/-- The action of a cut at its instant. A window counts as one that starts after metering began where the first usable result is not later
(R219); one that begins inside a TB_STEP carries GAP (R338). A full 100 ms window without a cause ends UNCERTAIN (R218). -/
def MetHw.act (m : MetHw) (e : MetEnv) (c : Cut) : MetHw :=
  match c.kind with
  | .window w split =>
    let a := tget m.wins w
    let m := { m with wunc := tset m.wunc w (m.unc || a.unc), wovr := tset m.wovr w a.ovr, wgap := tset m.wgap w a.gap }
    let m := if a.full then { m with avg := tset m.avg w a.value, notYet := tset m.notYet w false } else m
    let m := { m with unc := e.cause || (m.unc && !(decide (w = 2) && a.full && !a.unc)) }
    let full := m.begun.any fun t => decide (t ≤ c.t)
    { m with wins := tset m.wins w { WinAcc.start full e.cause with gap := split || !full } }
  | .record k n =>
    let x := m.capture e k
    { m with bank := if k = 0 then x else m.bank, caps := m.caps ++ [(n, x)], seen := tset m.seen k 0
             uncPrev := tset m.uncPrev k m.uncC, gapPrev := tset m.gapPrev k m.gapC }
  | .clear =>
    { m with eFwd := 0, eRev := 0, qFwd := 0, qRev := 0, epochF := 0, epochR := 0, uncC := 0, gapC := 0
             uncPrev := m.uncPrev.map fun (n : Int) => n - m.uncC, gapPrev := m.gapPrev.map fun (n : Int) => n - m.gapC }

/-- The sample on the line from `a` to `b` at instant `t`. -/
def interp (a b : Sample) (t : Nat) : Sample :=
  let f (x y : Int) : Int := if a.t = b.t then x else x + (y - x) * ((t - a.t : Nat) : Int) / ((b.t - a.t : Nat) : Int)
  { t := t, v := f a.v b.v, i := f a.i b.i, p := f a.p b.p }

/-- A piece up to `b`, integrated or not. -/
def MetHw.piece (m : MetHw) (ok : Bool) (a b : Sample) : MetHw :=
  let m := m.uncTime (b.t - a.t)
  if ok then m.integrate a b else m.skip (b.t - a.t)

/-- The cuts within a segment, in order, each splitting it. -/
def MetHw.cutSegment (m : MetHw) (e : MetEnv) (ok : Bool) (a b : Sample) : List Cut → MetHw × Sample
  | [] => (m, a)
  | c :: cs =>
    let x := interp a b c.t
    ((m.piece ok a x).act e c).cutSegment e ok x b cs

/-- A cut that no segment can span any more: what lies before it is not integrated. -/
def MetHw.cutGap (m : MetHw) (e : MetEnv) (c : Cut) : MetHw :=
  match m.last with
  | none => m.act e c
  | some a =>
    { (((m.uncTime (c.t - a.t)).skip (c.t - a.t)).act e c) with last := some { a with t := max a.t c.t }, joined := false }

/-- Every cut up to `t` that still waits is taken as the end of a gap (R223). -/
def MetHw.settleCuts (m : MetHw) (e : MetEnv) (t : Nat) : MetHw :=
  let due := m.cuts.filter fun c => decide (c.t ≤ t)
  let m := { m with cuts := m.cuts.filter fun c => decide (t < c.t) }
  (due.foldl (fun (m : MetHw) c => m.cutGap e c) m).gather

/-- A usable result of instant `t` (R219): metering begins with the first. -/
def MetHw.begin (m : MetHw) (t : Nat) : MetHw := { m with begun := m.begun.or (some t) }

/-- A sample of a quantity (R216): the segment from the last one is integrated where it is no longer than `gapMax`, split
at every cut inside it. Nothing lies before the first one. -/
def MetHw.push (m : MetHw) (e : MetEnv) (gapMax : Int) (b : Sample) : MetHw :=
  let m := m.begin b.t
  match m.last with
  | none => { m.settleCuts e b.t with last := some b, joined := true }
  | some a =>
    if b.t < a.t then m
    else
      let ok := m.joined && decide (((b.t - a.t : Nat) : Int) ≤ gapMax)
      let inside := m.cuts.filter fun c => decide (c.t ≤ b.t)
      let r := { m with cuts := m.cuts.filter fun c => decide (b.t < c.t) }.cutSegment e ok a b inside
      { (r.1.piece ok r.2 b).gather with last := some b, joined := true }

/-- After this many CNVCLK cycles no result can still form a segment over an instant (R223). -/
def cutHold (s : State) : Nat := (s.rd K.gapMax + s.rd K.interpMax + 40).toNat

/-- CH_FLAGS[4] at instant `t` of a path that runs in the sink direction (R229). -/
def MetHw.sinkAt (m : MetHw) (e : MetEnv) (t : Nat) : MetHw := m.mark t (if e.extra.testBit 7 then 16 else 0)

/-- A cut of a quantity (R216, R222): it waits for the segment that spans it, behind those that wait already; one that has waited `hold`
cycles is taken as the end of a gap. A sink direction over the cut belongs to both sides. -/
def MetHw.cutAt (m : MetHw) (e : MetEnv) (hold : Nat) (c : Cut) : MetHw :=
  let m := (if hold ≤ c.t then m.settleCuts e (c.t - hold) else m).sinkAt e (c.t - 1)
  let m := if m.cuts = [] ∧ (m.last.any fun a => decide (a.t = c.t)) then m.act e c else { m with cuts := m.cuts ++ [c] }
  m.sinkAt e c.t

/-- Cuts the quantities that `sel` selects. -/
def State.cutAll (s : State) (sel : Fin 100 → Bool) (c : Cut) : State :=
  { s with mets := Vector.ofFn fun x : Fin 100 => if sel x then (s.met x).cutAt (metEnv s x) (cutHold s) c else s.met x }

/-- Ports and feeds. -/
def isChan (x : Fin 100) : Bool := decide (x.val < 66)

/-- A voltage sample of a quantity without a current: a rail, or a feed's output. -/
def State.pushVolt (s : State) (x : Fin 100) (t : Nat) (v : Int) : State :=
  s.setMet x { (s.met x).push (metEnv s x) (s.rd K.gapMax) { t := t, v := v, i := 0, p := 0 } with vNow := v }

/-- A metering channel. -/
def chan (n : Nat) : Chan := Fin.ofNat 66 n

/-- A voltage result of a port or feed: it waits for the currents it brackets (R215). -/
def State.meterVolt (s : State) (x : Fin 100) (ovr : Bool) (t : Nat) (v : Int) : State :=
  let m := ((s.met x).setOvr ovr t).begin t
  s.setMet x { m with vNow := v, vs := m.vs ++ [(t, v)] }

/-- A current result of a port or feed. -/
def State.meterAmp (s : State) (x : Fin 100) (ovr : Bool) (t : Nat) (i : Int) : State :=
  let m := ((s.met x).setOvr ovr t).begin t
  s.setMet x { m with iNow := i, cs := m.cs ++ [(t, i)] }

/-- A usable sequence result in metering (R208 to R214): `code` of channel `ch` on lane `c`, sampled at instant `t`. FX_VOUT takes no
user gain: DESIGN CHOICE (log entry 155). -/
def State.meter (s : State) (c : Conv) (ch : Nat) (code : Int) (ovr : Bool) (t : Nat) (sense : Int) : State :=
  match chanGain s c ch with
  | none => s
  | some g =>
    let volt (w : Nat) (user : Int) : Int := voltValue s c w (fullScale c ch) code g sense user
    let amp (w : Nat) (code r user : Int) : Int := ampValue s c w code g sense user r
    if onCtl c then
      let f : Feed := Fin.ofNat 2 (c.val - 16)
      if ch < 16 then
        let n : Rail := Fin.ofNat 32 (16 * f.val + ch)
        (s.setMet (qRail n) ((s.met (qRail n)).setOvr ovr t)).pushVolt (qRail n) t (volt (356 + 2 * n.val) 0)
      else if ch = 0x10 then
        s.meterVolt (qFeed f) ovr t (volt (336 + 6 * f.val) (s.rM (chan (64 + f.val)) Km.userGainV))
      else if ch = 0x11 then (s.setMet (qFeed f) ((s.met (qFeed f)).setOvr ovr t)).pushVolt (qVout f) t (volt (338 + 6 * f.val) 0)
      else if ch = 0x12 then
        s.meterAmp (qFeed f) ovr t
          (amp (340 + 6 * f.val) code (s.rF f Kf.feedRshunt) (s.rM (chan (64 + f.val)) Km.userGainI))
      else s
    else
      let p := convPort c (ch % 4)
      if ch < 4 then
        s.meterAmp (qPort p) ovr t
          (amp (18 + 4 * p.val) (if sinkNow s (qPort p) then -code else code) (s.rP p Kp.rshunt) (s.rM (chan p.val) Km.userGainI))
      else if ch < 8 then
        s.meterVolt (qPort p) ovr t (volt (16 + 4 * p.val) (s.rM (chan p.val) Km.userGainV))
      else s

/-! Digital protection on hod results (R117, R123). -/

/-- The port current of a code, 100 µA. -/
def dpCurrent (s : State) (p : Port) (code : Int) (g : Nat) : Rat :=
  ((code * 390625 : Int) : Rat) / ((8 * g : Nat) * (max (s.rP p Kp.rshunt) 1 : Int) : Int)

/-- The knee IK of R117, 100 µA; half of it, rounded down to 50 mA, while NTC_DERATE holds (R121). -/
def State.knee (s : State) (p : Port) : Int :=
  let k := s.icon p * s.rP p Kp.kneePct
  if bit (s.rP p Kp.ppFlags) 1 then k / 1000 * 500 else k

/-- A current result in digital protection: I²t and reverse current (R117, R123, R124), stamped `t`; in the sink direction the tile
has swapped the input. The trip travels in a
block of its own (R19). -/
def State.protect (s : State) (p : Port) (code : Int) (g : Nat) (t : Nat) : State :=
  let h := s.path p
  let i := dpCurrent s p code g
  let ik : Rat := s.knee p
  let dt : Nat := match h.i2tPrev with | some q => t - q | none => 0
  let acc := max 0 (h.i2tAcc + (i * i - ik * ik) * dt)
  let hot := decide (((s.rP p Kp.i2tLimit * 100000000000 : Int) : Rat) ≤ acc)
  let beyond := decide (i < ((-500 * s.rP p Kp.rcpTh : Int) : Rat)) && decide (h.gate = .on) &&
    decide (h.trans ≠ .slew ∧ h.trans ≠ .qual) && decide (h.onTb + 100000 ≤ s.tb)
  let rcp := beyond && h.rcpPrev
  let s := s.setPath p { h with i2tAcc := acc, i2tPrev := some t, rcpPrev := beyond, iNow := (if h.dir = .sink then -i else i).floor }
  let s := s.sendTrips p ((if hot then [.i2t] else []) ++ (if rcp then [.rcp] else []))
  (s.wP p Kp.i2tNow (clampTo 0 u32Max (acc / 100000000000).floor)).flag (keyP p Kp.ppFlags) 4 false

end Sys2Proof.Machine
end

