-- ==== Sys2Proof/Machine/CoatOps.lean ====
section
/-! DEFINITION. The shared operations of the rail sequencer: windows, phases, power-down, rail faults with their actions and
log, the PWRGD composite and margining ("Rail Sequencing, Margining and Supervision"). -/

namespace Sys2Proof.Machine

namespace Rs
/-- RAIL_STATE codes (Table 8.6). -/
abbrev unused : Int := 0
abbrev off : Int := 1
abbrev waitDelay : Int := 2
abbrev check : Int := 3
abbrev rising : Int := 4
abbrev qual : Int := 5
abbrev good : Int := 6
abbrev margin : Int := 7
abbrev falling : Int := 8
abbrev fault : Int := 9
end Rs

namespace Seq
/-- SEQ_STATE codes (Table 8.7). -/
abbrev off : Int := 0
abbrev poweringUp : Int := 1
abbrev up : Int := 2
abbrev poweringDown : Int := 3
abbrev faultDown : Int := 4
abbrev fault : Int := 5
end Seq

namespace RFlt
/-- Rail fault codes (Table 8.2). -/
abbrev riseTimeout : Int := 1
abbrev uv : Int := 2
abbrev ov : Int := 3
abbrev chkFail : Int := 4
abbrev fallTimeout : Int := 5
end RFlt

/-- Every rail. -/
def allRails : List Rail := List.finRange 32

/-- SEQ_STATE. -/
def State.seqState (s : State) : Int := s.rd K.seqState

/-- RAIL_STATE. -/
def State.railState (s : State) (n : Rail) : Int := s.rR n Kr.railState

/-- A rail is used (R235). -/
def State.railUsed (s : State) (n : Rail) : Bool := decide (s.rR n Kr.railPhase ≤ 7)

/-- The rails of phase `k`. -/
def phaseRails (s : State) (k : Nat) : List Rail := allRails.filter fun n => decide (s.rR n Kr.railPhase = (k : Int))

/-- The phases that have rails, ascending. -/
def usedPhases (s : State) : List Nat := (List.range 8).filter fun k => !(phaseRails s k).isEmpty

/-- A rail's latest voltage, rail side, 20 µV (R253); none before its first result. -/
def railVolt (s : State) (n : Rail) : Option Int :=
  let m := s.met (qRail n)
  if m.begun.isSome then some (lsb m.vNow * s.rR n Kr.snsGain / 65536) else none

/-- A rail reads below OFF_TH (R241). -/
def belowOff (s : State) (n : Rail) : Bool := (railVolt s n).any fun v => decide (20 * v < 1000 * s.rR n Kr.offTh)

/-- The synchronised WIN_L output stands inside the window (R239). -/
def railInside (s : State) (n : Rail) : Bool := (s.cmp (winL n)).l && !(s.cmp (winL n)).effH

/-- Writes the codes of WIN_L for a window of µV, rail side (R151, R236): 2 mV steps at the pin, LO rounded up, HI down. -/
def State.setRailCodes (s : State) (n : Rail) (lo hi : Int) : State :=
  let g := s.rR n Kr.snsGain
  (s.wC (winL n) Kc.loCode (ceilDiv (lo * 65536) (2000 * max g 1))).wC (winL n) Kc.hiCode (hi * 65536 / (2000 * max g 1))

/-- The window of R236. -/
def State.setRailWindow (s : State) (n : Rail) : State :=
  let v := s.rR n Kr.vNom
  s.setRailCodes n (v * (1000 - s.rR n Kr.pgLoPct)) (v * (1000 + s.rR n Kr.pgHiPct))

/-- The window of the margin limits (R251). -/
def State.setMarginWindow (s : State) (n : Rail) : State :=
  s.setRailCodes n (1000 * s.rR n Kr.mgnLimitLo) (1000 * s.rR n Kr.mgnLimitHi)

/-- The group of offsets 0x0 and 0x1 of a rail but FAULT_ACTION and OV_FAST (R257). -/
def railKeys (n : Rail) : List Nat :=
  [Kr.railPhase, Kr.startDelay, Kr.stopDelay, Kr.enPol, Kr.vNom, Kr.snsGain, Kr.pgLoPct, Kr.pgHiPct, Kr.riseTimeout,
    Kr.pgQual, Kr.railFaultTime, Kr.railFtClear, Kr.pgStrict, Kr.offTh, Kr.fallTimeout].map (keyR n)

/-- The group applies while the rail is UNUSED, OFF or FAULT; its window follows, and a used rail is OFF (R235, R257). -/
def State.applyRail (s : State) (n : Rail) : State :=
  if s.railState n = Rs.unused ∨ s.railState n = Rs.off ∨ s.railState n = Rs.fault then
    let s := (s.applyKeys (railKeys n)).setRailWindow n
    if !s.railUsed n then s.wR n Kr.railState Rs.unused
    else if s.railState n = Rs.unused then s.wR n Kr.railState Rs.off
    else s
  else s

/-- A rail enters OFF. -/
def State.railOff (s : State) (n : Rail) : State := (s.wR n Kr.railState Rs.off).applyRail n

/-! PWRGD composite (R248). -/

/-- The rails of PWRGD_SEL; an unused one takes no part (R235). -/
def selRails (s : State) : List Rail := allRails.filter fun n => bit (s.rd K.pwrgdSel) n.val && s.railUsed n

/-- What keeps the composite: SEQ_STATE UP and PG of every selected rail. -/
def pwrgdKeeps (s : State) : Bool :=
  decide (s.seqState = Seq.up) && (selRails s).all fun n => decide (s.rR n Kr.railPg = 1)

/-- The composite drops once what keeps it is gone. -/
def State.refreshPwrgd (s : State) : State := if pwrgdKeeps s then s else s.wr K.pwrgdState 0

/-- SEQ_STATE set, with the composite following. -/
def State.setSeq (s : State) (v : Int) : State := (s.wr K.seqState v).refreshPwrgd

/-- A rail's PG drops. -/
def State.railPgDrop (s : State) (n : Rail) : State := (s.wR n Kr.railPg 0).refreshPwrgd

/-! Margining and turning a rail off. -/

/-- A rail that leaves UP or is cut ends its margining (R252): the DAC goes high-impedance at once. -/
def State.endMargin (s : State) (n : Rail) : State :=
  let h := s.rail n
  let s := (((s.setRail n { h with goal := 0, wide := false }).wR n Kr.mgnMode 0).wR n Kr.mgnStatus 0).wR n Kr.mgnCodeNow 0
  if h.wide then s.setRailWindow n else s

/-- EN deasserted (R241): the fault timer stops, PG drops, WIN_L moves to IDLE_MODE, margining ends. -/
def State.enOff (s : State) (n : Rail) (st : Int) : State :=
  let s := s.setRail n { s.rail n with en := false, ft := .idle, hadPg := false }
  (((s.setMode (winL n) false).endMargin n).wR n Kr.railState st).railPgDrop n

/-! Phases (R237, R241). -/

/-- Phase `k` of a power-up starts: its rails await START_DELAY. -/
def State.startPhase (s : State) (k : Nat) : State :=
  let s := { s.wr K.seqPhase k with coat := { s.coat with phaseDone := false } }
  (phaseRails s k).foldl (fun s n => if (s.rail n).en then s else s.wR n Kr.railState Rs.waitDelay) s

/-- The phase in progress of a power-up completes when every rail of it has PG; the highest used phase makes it UP. -/
def State.checkPhase (s : State) : State :=
  let k := (s.rd K.seqPhase).toNat
  if s.seqState = Seq.poweringUp ∧ (phaseRails s k).all (fun n => decide (s.rR n Kr.railPg = 1)) then
    if (usedPhases s).any fun j => decide (k < j) then { s with coat := { s.coat with phaseDone := true } }
    else (s.wr K.seqPhase 255).setSeq Seq.up
  else s

/-- Power-up from its first used phase (R237). -/
def State.powerUp (s : State) : State :=
  match usedPhases s with
  | [] => s.setSeq Seq.up
  | k :: _ => ((s.setSeq Seq.poweringUp).startPhase k).checkPhase

/-- A rail turns FAULT (R243), and its pending group applies with it (R257). -/
def State.railToFault (s : State) (n : Rail) : State := (s.enOff n Rs.fault).applyRail n

/-- Margining runs only while SEQ_STATE is UP (R250, R252): every rail's margining ends at once. -/
def State.endMargins (s : State) : State :=
  allRails.foldl (fun s n =>
    if (s.rail n).wide ∨ s.rR n Kr.mgnMode ≠ 0 ∨ s.rR n Kr.mgnCodeNow ≠ 0 then
      let s := s.endMargin n
      if s.railState n = Rs.margin then s.wR n Kr.railState Rs.good else s
    else s) s

/-- A power-down ends: OFF after a command, FAULT after a cut (R241, R243, R244). -/
def State.endDown (s : State) : State :=
  let st := if s.seqState = Seq.faultDown ∨ s.coat.cutAfter then Seq.fault else Seq.off
  let s := ({ s.wr K.seqPhase 255 with coat := { s.coat with cutAfter := false, phaseDone := false } }).setSeq st
  allRails.foldl (fun s n => if s.railState n = Rs.falling ∧ !(s.rail n).en then s.railOff n else s) s

/-- The highest phase at or above `lo` that has a rail's EN asserted. -/
def highestOn (s : State) (lo : Nat) : Option Nat :=
  (usedPhases s).reverse.find? fun k => decide (lo ≤ k) && (phaseRails s k).any fun n => (s.rail n).en

/-- Power-down of the phases from `lo` up, `top` first (R241, R243): rails that have not reached EN never assert it. -/
def State.startDown (s : State) (st : Int) (lo : Nat) (top : Option Nat) : State :=
  let s := { (s.setSeq st).endMargins with coat := { s.coat with downTo := lo, phaseDone := false } }
  let s := allRails.foldl (fun s n =>
    if (s.railState n = Rs.waitDelay ∨ s.railState n = Rs.check) ∧ (lo : Int) ≤ s.rR n Kr.railPhase then
      let s := if s.railState n = Rs.check then s.setRail n { s.rail n with dropped := some s.time.edges } else s
      (s.setMode (winL n) false).railOff n else s) s
  match top with
  | some k => s.wr K.seqPhase k
  | none => s.endDown

/-- The next lower phase of the power-down under way. -/
def nextDown (s : State) : Option Nat :=
  (usedPhases s).reverse.find? fun k => decide (s.coat.downTo ≤ k) && decide ((k : Int) < s.rd K.seqPhase)

/-- The phase in progress is down, and its rails are OFF. -/
def State.phaseDown (s : State) : State :=
  let s := (phaseRails s (s.rd K.seqPhase).toNat).foldl
    (fun s n => if s.railState n = Rs.falling ∧ !(s.rail n).en then s.railOff n else s) s
  if (nextDown s).isSome then { s with coat := { s.coat with phaseDone := true } } else s.endDown

/-- The sequencer is taking rails down. -/
def goingDown (s : State) : Bool := decide (s.seqState = Seq.poweringDown) || decide (s.seqState = Seq.faultDown)

/-! Rail faults (R242 to R244, R253). -/

/-- The snapshot of the first-fault log, with its CRC (Table 8.5). -/
def ffEntry (s : State) (n : Rail) (code : Int) : List Nat :=
  let line (m : Rail) : List Nat :=
    leOctets 4 (((railVolt s m).getD 0) % 4294967296).toNat ++
      [(s.railState m).toNat,
       bitsOf [(s.rail m).en, (s.cmp (winL m)).l, (s.cmp (winL m)).effH, decide (s.rR m Kr.railPg = 1),
         decide ((s.rail m).ft ≠ .idle), (s.cmp (winL m)).hUnres || (s.cmp (winL m)).lUnres]] ++
      leOctets 2 ((s.rR m Kr.mgnCodeNow) % 65536).toNat
  let body := [0x46, 0x4C, 1, n.val, code.toNat, (s.rR n Kr.faultAction).toNat, (s.rR n Kr.railPhase).toNat,
      s.seqState.toNat] ++ leOctets 8 s.tb ++ leOctets 5 (s.rd K.opSeconds).toNat ++ [0, 0, 0] ++
    leOctets 4 (s.rd K.powerCycles).toNat ++ [0, 0, 0, 0] ++ allRails.flatMap line
  body ++ crc32 body

/-- The log entry of a fault, or its count in FF_LATER (R253, R254): after power-fail faults are only counted. Of rails that fault in one
cycle the lowest-numbered one is logged (R244); one cycle of faults is one TBCLK period: DESIGN CHOICE (log entry 184). -/
def State.logFault (s : State) (n : Rail) (code : Int) : State :=
  let log (s : State) : State := { s with coat := { s.coat with ffNew := some (ffEntry s n code), ffEdge := s.time.edges } }
  if s.rd K.ffValid = 1 ∨ s.recorder.powerFail then s.count K.ffLater
  else match s.coat.ffNew with
    | none => log s
    | some e => (if s.coat.ffEdge = s.time.edges ∧ n.val < e.getD 3 0 then log s else s).count K.ffLater

/-- A rail fault recorded and counted (R242); one not under IGNORE raises the rail event. -/
def State.recordRail (s : State) (n : Rail) (code : Int) : State :=
  let s := (s.wR n Kr.railFault code).count (keyR n Kr.railFaultCount)
  if s.rR n Kr.faultAction = 0 then s else (s.alert 2).flushClass 2

/-- A cut (R243, R244): `lo` is the lowest phase that goes down, and the phases go down from the highest that was on at the
fault. A power-down by command continues unchanged and only ends in FAULT. -/
def State.cutRails (s : State) (n : Rail) (lo : Nat) : State :=
  let s := { s with coatFault := true }
  if s.seqState = Seq.poweringDown then { s with coat := { s.coat with cutAfter := true } }
  else if s.seqState = Seq.faultDown then
    { s.railToFault n with coat := { s.coat with downTo := min s.coat.downTo lo } }
  else (s.railToFault n).startDown Seq.faultDown lo (highestOn s lo)

/-- R243: a fault of codes 1 to 4 and its action. -/
def State.railFault (s : State) (n : Rail) (code : Int) : State :=
  let a := s.rR n Kr.faultAction
  let s := s.recordRail n code
  if a = 0 then s
  else
    let s := s.logFault n code
    if a = 2 then s.cutRails n (s.rR n Kr.railPhase).toNat
    else if a = 3 then s.cutRails n 0
    else s

/-- The rail's WIN_L output as the sequencer sees it after a change (R239, R240): an OV at once with OV_FAST, the fault
timer started, held, or the PG qualification begun. `rose` says that H arrives with this change. -/
def State.railWatch (s : State) (n : Rail) (rose : Bool) : State :=
  let h := s.rail n
  let c := s.cmp (winL n)
  if !h.en then s
  else
    let above := c.h && !c.hUnres
    let under := !c.l && !c.lUnres && h.hadPg
    if above ∧ s.rR n Kr.ovFast = 1 then (if rose then (s.railPgDrop n).railFault n RFlt.ov else s)
    else if above ∨ under then
      let s := s.setRail n { h with ft := .running }
      let s := if s.railState n = Rs.qual then s.wR n Kr.railState Rs.rising else s
      let s := if s.rR n Kr.pgStrict = 1 then s.railPgDrop n else s
      if s.rd K.pwrgdStrict = 1 ∧ bit (s.rd K.pwrgdSel) n.val then s.wr K.pwrgdState 0 else s
    else if railInside s n then
      let s := s.setRail n { h with ft := if h.ft = .running then .held else h.ft }
      if s.railState n = Rs.rising then s.wR n Kr.railState Rs.qual else s
    else if s.railState n = Rs.qual then s.wR n Kr.railState Rs.rising
    else s

/-- The pre-enable check of a rail ends (R237, R238): EN is asserted, or the rail's action applies as for a rise timeout. A check
that fails in the cycle in which a cut withdrew it counts too (R244). -/
def State.railChecked (s : State) (n : Rail) (ok : Bool) : State :=
  if s.railState n = Rs.check then
    if ok then
      ((s.setRail n { s.rail n with en := true, ft := .idle, hadPg := false, enTb := s.tb }).wR n Kr.railState Rs.rising).railWatch n true
    else
      let s := (s.setMode (winL n) false).railFault n RFlt.chkFail
      if s.railState n = Rs.check then s.railToFault n else s
  else if !ok ∧ (s.rail n).dropped = some s.time.edges then
    (s.railFault n RFlt.chkFail).railToFault n
  else s

/-! Margining (R249 to R251). -/

/-- Margining runs (R250): on a used rail whose PG is asserted while SEQ_STATE is UP. -/
def marginRuns (s : State) (n : Rail) : Bool :=
  s.railUsed n && decide (s.rR n Kr.railPg = 1) && decide (s.seqState = Seq.up)

/-- The completed 1 ms average of a rail, rail side in µV. -/
def railAvg (s : State) (n : Rail) : Option Int :=
  let v := ((s.met (qRail n)).avg[1]).v
  if v = -2147483648 then none else some (20 * v * s.rR n Kr.snsGain / 65536)

/-- The average lies inside the window of R236. -/
def avgNormal (s : State) (n : Rail) : Bool :=
  (railAvg s n).any fun v => decide (s.rR n Kr.vNom * (1000 - s.rR n Kr.pgLoPct) ≤ v ∧ v ≤ s.rR n Kr.vNom * (1000 + s.rR n Kr.pgHiPct))

/-- The average has left the margin limits. -/
def avgOut (s : State) (n : Rail) : Bool :=
  (railAvg s n).any fun v => decide (v < 1000 * s.rR n Kr.mgnLimitLo ∨ 1000 * s.rR n Kr.mgnLimitHi < v)

/-- The window narrows to that of R236 (R251). -/
def State.narrow (s : State) (n : Rail) : State :=
  let s := (s.setRail n { s.rail n with wide := false }).setRailWindow n
  if s.railState n = Rs.margin then s.wR n Kr.railState Rs.good else s

/-- The mode returns to OFF with status `st`: the DAC goes back to 0. -/
def State.marginOff (s : State) (n : Rail) (st : Int) : State :=
  ((s.setRail n { s.rail n with goal := 0 }).wR n Kr.mgnMode 0).wR n Kr.mgnStatus st

/-- A margin entry applies (R250, R251, R257): in OPEN mode the DAC moves to the new MGN_CODE; a widened window follows its
limits. -/
def State.marginApplied (s : State) (n : Rail) (o : Nat) : State :=
  if o = Kr.mgnCode ∧ s.rR n Kr.mgnMode = 1 then
    (s.setRail n { s.rail n with goal := s.rR n Kr.mgnCode }).wR n Kr.mgnStatus 1
  else if (o = Kr.mgnLimitLo ∨ o = Kr.mgnLimitHi) ∧ (s.rail n).wide then s.setMarginWindow n
  else s

/-- A rail's margining judged by its latest average (R251). -/
def State.judgeMargin (s : State) (n : Rail) : State :=
  if s.rR n Kr.mgnMode ≠ 0 ∧ avgOut s n then s.marginOff n 4
  else if s.rR n Kr.mgnMode = 0 ∧ (s.rail n).wide ∧ s.rR n Kr.mgnCodeNow = 0 ∧ avgNormal s n then s.narrow n
  else s

end Sys2Proof.Machine
end

