-- ==== Sys2Proof/Machine/ConvOps.lean ====
section
/-! DEFINITION. The shared operations of the converters and the hod: boundaries, settling, injected requests, the mirror,
lane buffers, the tagged queue, plausibility and calibration images ("Conversion Subsystem and the Hod"). -/

namespace Sys2Proof.Machine

/-- Every converter. -/
def allConvs : List Conv := List.finRange 18

/-- The converters that CV_MASK names. -/
def namedConvs (s : State) : List Conv := allConvs.filter fun c => bit (s.rd K.cvMask) c.val

/-- The reference buffer of a converter (R193). -/
def bufOf (c : Conv) : Nat := if onCtl c then 8 else c.val / 2

/-- REF_SETTLED of a converter's buffer. -/
def refSettled (s : State) (c : Conv) : Bool := decide (s.rd (K.refSettled + bufOf c) = 1)

/-- Where the registers of Table 6.12 of a converter stand: block and offset (R204, R308). -/
def tqAt (c : Conv) : Nat × Nat := if c.val < 16 then (c.val, 0x6000) else (17, 0x6000 + 0x1000 * (c.val - 16))

/-- A register of Table 6.12. -/
def State.tqReg (s : State) (c : Conv) (off : Nat) : Int := s.ior (tqAt c).1 ((tqAt c).2 + off)

/-- Writes a register of Table 6.12. -/
def State.setTqReg (s : State) (c : Conv) (off : Nat) (v : Int) : State := s.iow (tqAt c).1 ((tqAt c).2 + off) v

/-- Sets or clears a bit of a register of Table 6.12. -/
def State.tqBit (s : State) (c : Conv) (off i : Nat) (b : Bool) : State := s.setTqReg c off (withBit (s.tqReg c off) i b)

/-- Whether converter results of VBUS reach the tile (R131): the converter runs, is not calibrating, and its sequence holds
the port's voltage. -/
def State.vbusServed (s : State) (p : Port) : Bool :=
  let h := s.conv (convOf p)
  decide (h.run ≠ .stopped ∧ h.cal ≠ .running) && (seqWords s (convOf p)).any fun w => decide (eCh w = 4 + localOf p)

/-- R131: a discharge that no VBUS result will end is over once L of WIN_V is clear. -/
def State.dischargeWatch (s : State) (p : Port) : State :=
  if (s.path p).dsch ∧ (s.path p).gate = .off ∧ !s.vbusServed p ∧ !(s.cmp (winV p)).l then s.dischargeEnd p else s

/-- The discharges of the ports that converter `c` serves, after a change of what it delivers. -/
def State.dischargesOf (s : State) (c : Conv) : State :=
  (allPorts.filter fun p => decide (convOf p = c)).foldl State.dischargeWatch s

/-! Sequence boundaries (R183, R207). -/

/-- The factor entries of a converter. -/
def factorKeys (c : Conv) : List Nat := (List.range 22).map fun i => keyV c (Kv.calOffset + i)

/-- The configuration group of a converter. -/
def convKeys (c : Conv) : List Nat :=
  [keyV c Kv.seqLen, keyV c Kv.seqTrig, keyV c Kv.seqDelay, keyV c Kv.injPolicy, keyV c Kv.injTrig, keyV c Kv.injEntry] ++
    (List.range 32).map fun i => keyV c (Kv.seqEntry + i)

/-- A signed 16-bit little-endian pair of octets. -/
def le16s (l : List Nat) : Int := if leValue (l.take 2) < 32768 then (leValue (l.take 2) : Int) else (leValue (l.take 2) : Int) - 65536

/-- The factors that a CAL_IMAGE holds, in the order of the entries (Table 6.16). -/
def imageFactors (img : List Nat) : List Int :=
  ((List.range 5).map fun i => le16s (img.drop (2 * i))) ++
    ((List.range 5).map fun i => (leValue ((img.drop (10 + 4 * i)).take 4) : Int)) ++
    ((List.range 12).map fun i => le16s (img.drop (30 + 2 * i)))

/-- An image that LOAD takes: not blank, and its CRC right (R191). -/
def imageOk (img : List Nat) : Bool :=
  img.any (· ≠ 0) && decide (img.length = 64) && decide (crc32 (img.take 60) = img.drop 60)

/-- Two octets of a signed number. -/
def leSigned (n : Nat) (v : Int) : List Nat := leOctets n (v % (256 ^ n : Nat)).toNat

/-- A number rounded to the nearest, halves up. -/
def roundRat (x : Rat) : Int := (x + 1 / 2).floor

/-- The image of the factors in force with the CV16 die temperature (Table 6.16). -/
def calImage (s : State) (c : Conv) : List Nat :=
  let f (i : Nat) : Int := s.rV c (Kv.calOffset + i)
  let body := (List.range 5).flatMap (fun i => leSigned 2 (f i)) ++ (List.range 5).flatMap (fun i => leSigned 4 (f (5 + i))) ++
    (List.range 12).flatMap (fun i => leSigned 2 (f (10 + i))) ++ leSigned 2 (roundRat s.ref.die0) ++ [0, 0, 0, 0]
  body ++ crc32 body

/-- The factors of a converter written, as a calibration, a LOAD or a reset does. -/
def State.setFactors (s : State) (c : Conv) (f : List Int) : State :=
  (List.range 22).foldl (fun s i => s.wV c (Kv.calOffset + i) (f.getD i 0)) s

/-- A sequence boundary of converter `c` (R183): the configuration group and factor writes apply, a LOAD and a STOP take
effect. A change of trigger source ends a run or an arming under the old one. -/
def State.boundary (s : State) (c : Conv) : State :=
  let trig := s.rV c Kv.seqTrig
  let written := (factorKeys c).any fun k => (s.pendingVal k).isSome
  let s := (s.applyKeys (convKeys c)).applyKeys (factorKeys c)
  let s := if written then (s.setConv c { s.conv c with calValid := false, calSrc := 3 }).refreshUnc c else s
  let s :=
    if (s.conv c).loading then
      (s.setFactors c (imageFactors (s.rdB (keyV c Kv.calImage)))).setConv c
        { s.conv c with loading := false, calValid := true, calSrc := 2 }
    else s
  (if (s.conv c).stopping ∨ s.rV c Kv.seqTrig ≠ trig then s.setConv c { s.conv c with run := .stopped, stopping := false } else s).dischargesOf c

/-- The converter is stopped or waiting, which is a boundary at every cycle. -/
def ConvHw.atBoundary (h : ConvHw) : Bool := decide (h.run = .stopped) || decide (h.run = .waiting)

/-- The factors of a converter return to the defaults of the CAL bank in force (R188, Table 17.6). -/
def otpDefaults (s : State) (c : Conv) : List Int := Config.otpFactors c.val ((List.range 512).map s.coef)

/-- The same, taken by the converter. -/
def State.otpFactors (s : State) (c : Conv) : State := s.setFactors c (otpDefaults s c)

/-- A pass starts at its first entry (R181): PASS_COUNT goes on. -/
def State.beginPass (s : State) (c : Conv) : State :=
  (s.setConv c { s.conv c with run := .running, pos := SeqPos.start, first := true }).wV c Kv.passCount ((s.rV c Kv.passCount + 1) % 4294967296)

/-- A trigger ignored (R183, R189). -/
def State.overrun (s : State) (c : Conv) : State := s.count (keyV c Kv.trigOvrn)

/-! Injected requests (R178, R185 to R187). -/

/-- The settling conversions of a new channel, gain and filter (Table 6.5). -/
def settleLen (c : Conv) (last : Option LastConv) (ch gain filt : Nat) : Nat :=
  match last with
  | none => max 3 (filterLen filt)
  | some l =>
    max (max (if l.gain ≠ gain then 3 else 0) (if highClass c ch then 2 else 0))
      (if l.filt ≠ filt ∨ (l.ch ≠ ch ∧ filt ≠ 0) then filterLen filt else 0)

/-- Causes of a dropped request as INJ_STAT names them: 0 RUNNING, 1 BUSY, 2 CAL, 3 REF, the last while REF_SETTLED is clear (R193). -/
def dropCause (s : State) (c : Conv) (ch gain filt room : Nat) : Option Nat :=
  let h := s.conv c
  if !refSettled s c then some 3
  else if h.cal ≠ .none then some 2
  else if h.inj.isSome then some 1
  else if s.rV c Kv.injPolicy = 0 ∧
      (h.run = .running ∨ (h.run = .delay ∧ room < settleLen c h.last ch gain filt + 1)) then some 0
  else none

/-- A request word that names no channel, gain or filter of its own (R174, R180). -/
def badEntry (c : Conv) (w : Nat) : Bool := reservedCh c (eCh w) || decide (4 < eGain w) || decide (eFilt w = 3)

/-- A request word arrives at converter `c` (R185, R186). -/
def State.inject (s : State) (c : Conv) (w room : Nat) : State :=
  if badEntry c w then s
  else
    match dropCause s c (eCh w) (eGain w) (eFilt w) room with
    | some k =>
      let s := (s.count (keyV c (Kv.injDrop + k))).tqBit c 0x48 2 true
      s.setTqReg c 0x48 ((s.tqReg c 0x48).toNat % 8 + 8 * k)
    | none =>
      (s.setConv c { s.conv c with
        inj := some { ch := eCh w, gain := eGain w, filt := eFilt w, queue := eDest w || privileged c (eCh w) }, injLeft := none }).tqBit c 0x48 0 true

/-! Lane buffers and the tagged queue (R200 to R205). -/

/-- A marker of `n` results dropped, the first stamped `t` (R203). -/
def marker (n t : Nat) : TqEntry :=
  { data := 0, ch := 0, tag := 0, mark := true, entry := 0, inj := false, drops := min 65535 n, ts := t }

/-- A queue-bound result at the lane buffer: dropped and counted when it is full. -/
def State.toLane (s : State) (c : Conv) (e : TqEntry) : State :=
  let h := s.conv c
  if h.lane.length < 4 then s.setConv c { h with lane := h.lane ++ [e] }
  else
    ((s.setConv c { h with dropN := min 65535 (h.dropN + 1), dropTs := if h.dropN = 0 then e.ts else h.dropTs }).count
      (keyV c Kv.tagqDrop)).tqBit c 0x14 1 true

/-- The marker of withheld results at the lane buffer (R184). -/
def State.markLane (s : State) (c : Conv) (n t : Nat) : State :=
  let h := s.conv c
  if h.lane.length < 4 then s.setConv c { h with lane := h.lane ++ [marker n t] }
  else s.setConv c { h with dropN := min 65535 (h.dropN + n), dropTs := if h.dropN = 0 then t else h.dropTs }

/-- Whether the tagged queue has a free place among its 512 (R200). -/
def queueFree (s : State) : Bool := decide ((s.convs.toList.map fun h => h.queue.length).sum < 512)

/-- Whether lane `c` may be served: not empty, its converter below TQ_CAP, and a place free (R200, R201). -/
def servable (s : State) (c : Conv) : Bool :=
  !(s.conv c).lane.isEmpty && queueFree s && decide (((s.conv c).queue.length : Int) < s.rd (K.tqCap + c.val))

/-- The lane that the write port serves next: the first servable one after the last, wrapping from 17 to 0. -/
def nextLane (s : State) : Option Conv :=
  (allConvs.map fun i => (Fin.ofNat 18 (s.ref.lastLane + 1 + i.val) : Conv)).find? (servable s)

/-- The write port serves lane `c`: its oldest entry goes to the queue, and a marker takes the freed place where results
were dropped. -/
def State.serveLane (s : State) (c : Conv) : State :=
  let h := s.conv c
  match h.lane with
  | [] => s
  | e :: rest =>
    let lane := if 0 < h.dropN then rest ++ [marker h.dropN h.dropTs] else rest
    let s := s.setConv c { h with lane := lane, dropN := 0, queue := h.queue ++ [e] }
    let s := { s with ref := { s.ref with lastLane := c.val } }
    let n : Int := (h.queue.length + 1 : Nat)
    let s := s.wr (K.tqHigh + c.val) (max (s.rd (K.tqHigh + c.val)) n)
    if n = s.tqReg c 0x1C then s.tqBit c 0x14 0 true else s

/-- The word that TQ_POP answers for an entry. -/
def TqEntry.word (e : TqEntry) (c : Conv) : Nat :=
  e.data + e.ch * 2 ^ 16 + e.tag * 2 ^ 21 + c.val * 2 ^ 24 + (if e.mark then 2 ^ 29 else 0) + 2 ^ 31

/-- A read of TQ_POP (R205): the word read, and the state after it. -/
def State.tqPop (s : State) (c : Conv) : Nat × State :=
  match (s.conv c).queue with
  | [] => (0, s)
  | e :: rest =>
    let s := s.setConv c { s.conv c with queue := rest }
    let s := s.setTqReg c 0x04 ((e.entry + (if e.inj then 32 else 0) + e.drops * 65536 : Nat) : Int)
    let s := (s.setTqReg c 0x08 ((e.ts % 4294967296 : Nat) : Int)).setTqReg c 0x0C ((e.ts / 4294967296 : Nat) : Int)
    (e.word c, s)

/-! Conversions (R172, R175 to R181, R187). -/

/-- The word of entry `e` of the applied sequence. -/
def State.entryWord (s : State) (c : Conv) (e : Nat) : Nat := (s.rV c (Kv.seqEntry + e)).toNat

/-- What one more conversion of a sequence is: the word of its entry, whether it settles, whether it completes its entry's run, and the
place after it. -/
structure SeqStep where
  word : Nat
  settles : Bool
  whole : Bool
  next : SeqPos
  deriving DecidableEq, Repr

/-- The conversion at place `p` of the applied sequence after the conversion `last` (R178, R181): S settling conversions, then NCONV. -/
def seqStep (s : State) (c : Conv) (p : SeqPos) (last : Option LastConv) : SeqStep :=
  let w := s.entryWord c p.entry
  let left := p.left.getD (settleLen c last (eCh w) (eGain w) (eFilt w))
  if 0 < left then { word := w, settles := true, whole := false, next := { p with left := some (left - 1) } }
  else if p.made + 1 < eConv w then { word := w, settles := false, whole := false, next := { p with left := some 0, made := p.made + 1 } }
  else { word := w, settles := false, whole := true, next := { entry := p.entry + 1, left := none, made := 0 } }

/-- The entry in progress starts again from its beginning (R187). -/
def SeqPos.restart (p : SeqPos) : SeqPos := { p with left := none, made := 0 }

/-- The code of an input before clamping and correction (R172): 32,768 × g × VIN ÷ FS1 to the nearest, halves up, with VIN and FS1 in
0.1 µV. -/
def idealCode (x fs : Int) (g : Nat) : Int := (65536 * g * x + fs) / (2 * fs)

/-- Over range (R176): at or above 32,767.5 ÷ 32,768, or below −32,768.5 ÷ 32,768. -/
def overRange (n : Int) : Bool := decide (32767 < n ∨ n < -32768)

/-- The input of a channel (Tables 6.2 and 6.3): the current of a port in the sink direction is swapped (R113); the ladder of a pair is
scaled by the gain (R195). -/
def channelInput (s : State) (c : Conv) (ch g : Nat) (x : Int) : Int :=
  if !onCtl c && decide (ch < 4) && decide ((s.path (convPort c (ch % 4))).dir = .sink) then -x
  else if ch = 0x1C then x + (-28672 + 8192 * (s.conv (Fin.ofNat 18 (c.val - c.val % 2))).ladder) * 625 / (g : Int)
  else x

/-- A usable conversion: its code, corrected by the factors in force and clamped, and whether it is over range (R172, R176). -/
def sampleCode (s : State) (c : Conv) (ch gain : Nat) (x : Int) : Int × Bool :=
  let n := idealCode (channelInput s c ch (2 ^ gain) x) (fullScale c ch) (2 ^ gain)
  if overRange n then (clampTo (-32768) 32767 n, true)
  else (clampTo (-32768) 32767 (n + Config.convResidue c.val gain ((List.range 22).map fun i => s.rV c (Kv.calOffset + i)) s.fresh), false)

/-- A conversion on its way to the hod: its tag (Table 6.4), channel, code, gain and filter, whether an injected result goes to the
queue, whether a pass starts with it, and what its converter had converted before it. -/
structure Conversion where
  tag : Nat
  ch : Nat
  code : Int
  gain : Nat
  filt : Nat
  queue : Bool
  starts : Bool
  prev : Option LastConv
  deriving DecidableEq, Repr

/-- A slot in which nothing is converted: CAL or IDLE. -/
def Conversion.none (tag : Nat) : Conversion :=
  { tag := tag, ch := 0, code := 0, gain := 0, filt := 0, queue := false, starts := false, prev := Option.none }

/-- A conversion of a channel: settling takes precedence over over range (R175). -/
def State.sampleAs (s : State) (c : Conv) (x : Int) (ch gain filt : Nat) (settles inj queue starts : Bool) : State × Conversion :=
  let prev := (s.conv c).last
  let r := sampleCode s c ch gain x
  let tag := if settles then (if inj then 7 else 2) else if r.2 then (if inj then 4 else 3) else (if inj then 1 else 0)
  ((s.setConv c { s.conv c with last := some { ch := ch, gain := gain, filt := filt } }).draw,
    { tag := tag, ch := ch, code := r.1, gain := gain, filt := filt, queue := queue, starts := starts, prev := prev })

/-- The conversion of one CNVCLK cycle on converter `c` with `x` at its input (R171): a CAL slot, the injected request that it holds, or
the next one of its pass. -/
def State.convert (s : State) (c : Conv) (x : Int) : State × Conversion :=
  let h := s.conv c
  if h.cal = .running then (s.setConv c { h with last := none }, Conversion.none 5)
  else
    match h.inj with
    | some r =>
      let left := h.injLeft.getD (settleLen c h.last r.ch r.gain r.filt)
      let s :=
        if 0 < left then s.setConv c { h with injLeft := some (left - 1), pos := h.pos.restart }
        else s.setConv c { h with inj := none, injLeft := none, pos := h.pos.restart }
      s.sampleAs c x r.ch r.gain r.filt (decide (0 < left)) true r.queue false
    | none =>
      if h.run = .running ∧ (h.pos.entry : Int) < s.rV c Kv.seqLen then
        let st := seqStep s c h.pos h.last
        let s := s.setConv c { h with pos := st.next, first := false }
        s.sampleAs c x (eCh st.word) (eGain st.word) (eFilt st.word) st.settles false false h.first
      else (s, Conversion.none 6)

/-- The pass under way has made its last conversion. -/
def passMade (s : State) (c : Conv) : Bool := decide (s.rV c Kv.seqLen ≤ ((s.conv c).pos.entry : Int))

/-! The mirror (R184). -/

/-- A pass start, as the tile reports it: the mirror is re-based, and withheld results are marked. -/
def State.rebase (s : State) (c : Conv) : State :=
  let w := (s.conv c).withheld
  let s := s.setConv c { s.conv c with mir := SeqPos.start, pass := (s.rV c Kv.passCount).toNat, withheld := none }
  match w with
  | some (n, t) => s.markLane c n t
  | none => s

/-- The stamp of a word that arrives now (R33): TB at arrival less the 300 ns of R18. -/
def State.stamp (s : State) : Nat := s.tb - 30

/-- A conversion withheld since a failed block, or lost with one: counted, and marked at the next pass start. -/
def State.withhold (s : State) (c : Conv) : State :=
  let h := s.conv c
  let w : Nat × Nat := match h.withheld with | some (k, t) => (k + 1, t) | none => (1, s.stamp)
  (s.setConv c { h with withheld := some w }).count (keyV c Kv.mirrorLost)

/-- The mirror's step: the conversion that it expects next, after which it has advanced by one. -/
def mirrorStep (s : State) (c : Conv) (prev : Option LastConv) : Nat × SeqStep × ConvHw :=
  let h := s.conv c
  let h := if (h.mir.entry : Int) < s.rV c Kv.seqLen then h else { h with mir := SeqPos.start, pass := (h.pass + 1) % 4294967296 }
  let st := seqStep s c h.mir prev
  (h.mir.entry, st, { h with mir := st.next })

/-- A word of a sequence at the mirror (R181, R184): a channel that it does not expect is counted in MIRROR_LOST, a withheld result too,
and the last conversion of an entry's run is delivered. -/
def State.seqWord (s : State) (c : Conv) (r : Conversion) : State :=
  let m := mirrorStep s c r.prev
  let w := m.2.1.word
  let s := s.setConv c m.2.2
  let h := s.conv c
  if h.withheld.isSome ∧ r.tag ≠ 2 then s.withhold c
  else if eCh w ≠ r.ch then s.count (keyV c Kv.mirrorLost)
  else if r.tag = 2 ∨ !m.2.1.whole then s
  else
    let data := (r.code % 65536).toNat
    if eDest w || privileged c r.ch then
      if h.pass % 2 ^ eQdiv w = 0 then
        s.toLane c { data := data, ch := r.ch, tag := r.tag, mark := false, entry := m.1, inj := false, drops := 0, ts := s.stamp }
      else s
    else s.wV c (Kv.result + m.1) ((data + r.ch * 2 ^ 16 + r.tag * 2 ^ 21 + h.pass % 256 * 2 ^ 24 : Nat) : Int)

/-- An injected word restarts the entry that the mirror follows (R187). -/
def State.mirrorRestart (s : State) (c : Conv) : State := s.setConv c { s.conv c with mir := (s.conv c).mir.restart }

/-- An injected result (R187): to INJ_RES or to the queue, which a failed block keeps it from (R184). DESIGN CHOICE: DONE (R205,
'Result delivered') sets also for a result that is withheld or that a full lane buffer drops (log 173). -/
def State.injWord (s : State) (c : Conv) (r : Conversion) : State :=
  let s := ((s.mirrorRestart c).tqBit c 0x48 0 false).tqBit c 0x48 1 true
  let data := (r.code % 65536).toNat
  if r.queue then
    if (s.conv c).withheld.isSome then s.withhold c
    else s.toLane c { data := data, ch := r.ch, tag := r.tag, mark := false, entry := 0, inj := true, drops := 0, ts := s.stamp }
  else s.setTqReg c 0x44 ((data + r.ch * 2 ^ 16 + r.tag * 2 ^ 21 : Nat) : Int)

/-- A result slot of converter `c` stood in a failed block (R20, R184): it reaches the hod as SETTLE, advances the mirror whatever it
held, and begins to withhold. An injected result in it is gone: its request is held no more. -/
def State.slotLost (s : State) (c : Conv) : State :=
  let r := s.convert c 0
  let s := if r.2.starts then r.1.rebase c else r.1
  let s := (s.setConv c (mirrorStep s c r.2.prev).2.2).withhold c
  if r.2.tag = 1 ∨ r.2.tag = 4 then s.tqBit c 0x48 0 false else s

/-! Pair plausibility (R195, R196). -/

/-- The partner of a converter (Table 6.1). -/
def partner (c : Conv) : Conv := Fin.ofNat 18 (if c.val % 2 = 0 then c.val + 1 else c.val - 1)

/-- The even converter of a pair, which holds the ladder. -/
def pairHead (c : Conv) : Conv := Fin.ofNat 18 (c.val - c.val % 2)

/-- A converter's part in a comparison: charged or not, in a comparison that passed or not. -/
def State.charge (s : State) (c : Conv) (charged passed : Bool) : State :=
  let h := s.conv c
  let n := (s.rd K.plausN).toNat
  let bad := if charged then h.bad + 1 else 0
  let good := if passed then h.good + 1 else 0
  let fail := if n ≤ bad then true else if n ≤ good then false else h.plausFail
  let s := s.setConv c { h with bad := min bad 15, good := min good 15, plausFail := fail, plausStale := false }
  (if charged then s.count (keyV c Kv.plausFails) else s).refreshUnc c

/-- A comparison of the two CHK results `a` of the even and `b` of the odd converter; the PLAUS entries apply and the ladder
moves on. -/
def State.compareChk (s : State) (c : Conv) (a b : Int) : State :=
  let s := s.applyKeys [K.plausTol, K.plausAbs, K.plausN, K.plausTimeout]
  let e := pairHead c
  let want : Int := -28672 + 8192 * (s.conv e).ladder
  let pass := decide (((a - b).natAbs : Int) ≤ s.rd K.plausTol)
  let offA := decide (s.rd K.plausAbs < ((a - want).natAbs : Int))
  let offB := decide (s.rd K.plausAbs < ((b - want).natAbs : Int))
  let one := offA != offB
  let s := (s.charge e (!pass && (!one || offA)) pass).charge (partner e) (!pass && (!one || offB)) pass
  s.setConv e { s.conv e with ladder := ((s.conv e).ladder + 1) % 8 }

/-- The word of hod cycle `cyc` on lane `c` as the check sees it: `x` where it is a usable CHK result. Words of one sample
instant share a hod cycle (R18). -/
def State.checkWord (s : State) (c : Conv) (cyc : Nat) (x : Option ChkWord) : State :=
  let q := partner c
  let skew (s : State) (d : Conv) : State := s.count (keyV d Kv.plausSkew)
  let own := (s.conv c).chk
  let s := if x.isSome ∧ own.isSome then skew s c else s
  let s := s.setConv c { s.conv c with lastCyc := some cyc, chk := if x.isSome then none else own }
  match (s.conv q).chk, x with
  | some y, some x =>
    if y.cyc = cyc then
      let s := s.setConv q { s.conv q with chk := none }
      if x.gain = y.gain ∧ x.filt = y.filt then
        if c.val % 2 = 0 then s.compareChk c x.code y.code else s.compareChk c y.code x.code
      else skew (skew s c) q
    else if y.cyc < cyc then
      (skew (s.setConv q { s.conv q with chk := none }) q).setConv c { s.conv c with chk := some x }
    else skew s c
  | some y, none =>
    if y.cyc ≤ cyc then skew (s.setConv q { s.conv q with chk := none }) q else s
  | none, some x =>
    if (s.conv q).lastCyc.any fun t => decide (cyc ≤ t) then skew s c else s.setConv c { s.conv c with chk := some x }
  | none, none => s

end Sys2Proof.Machine
end

