-- ==== Sys2Proof/Machine/ShedOps.lean ====
section
/-! DEFINITION. The strip tables and sheds as the scrim and the ledger share them: slots, triggers, strobes, the table of
R84, restoration and the shelf's frames ("Shelf Budget Ledger and Strip Tables"). -/

namespace Sys2Proof.Machine

/-- Every strip slot. -/
def allSlots : List Slot := List.finRange 8

/-- The slots whose armed copy has trigger `t` (R82). -/
def armedFor (s : State) (t : Nat) : List Slot := allSlots.filter fun n => (s.slot n).armed.any fun c => decide (c.trigger = t)

/-- Whether a slot bars no feed start (R89, R141): armed, or its trigger NONE. -/
def State.slotReady (s : State) (n : Slot) : Bool := (s.slot n).armed.isSome || decide (s.rS n Ks.stTrigger = 0)

/-- SHED_N reads high. -/
def State.shedHigh (s : State) : Bool := !s.ledger.shedDrive && !s.ledger.shedLow

/-- R163, R97: the coded strobe to all eight tiles; SHED_N is driven low for a trigger that SHED_OUT_MASK selects. -/
def State.strobe (s : State) (t : Nat) : State :=
  let s := (List.finRange 8).foldl
    (fun s n => s.setTile n { s.tile n with strobes := (s.tile n).strobes ++ [t] }) (s.count K.shdCount)
  if bit (s.rd K.shedOutMask) (t - 1) then
    { s with ledger := { s.ledger with shedDrive := true, shedIgnore := true } }
  else s

/-- The slots armed for a trigger that serve no second stage; a second stage belongs to the cause it follows (R86). -/
def hostSlots (s : State) (t : Nat) : List Slot := (armedFor s t).filter fun n => (s.slot n).stageOf.isNone

/-- R94: a new trigger stops a running restoration. -/
def State.stopRestore (s : State) : State :=
  { s.ledgerFlag 4 false with ledger := { (s.ledgerFlag 4 false).ledger with restoreDone := false, turnWait := false } }

/-- A strip trigger at the central slice (R83, R89, R163): a feed-loss or PEER trigger is always strobed, another one only
while a slot of that trigger is armed; the ledger learns of it in either case. -/
def State.trigger (s : State) (t : Nat) : State :=
  let s := s.stopRestore
  let s := if t ≤ 3 ∨ armedFor s t ≠ [] then s.strobe t else s
  let l := s.ledger
  { s with ledger := { l with
      trigs := l.trigs ++ [t]
      causes := if l.causes.contains t ∨ (t = 7 ∧ armedFor s t ≠ [] ∧ hostSlots s t = []) then l.causes else l.causes ++ [t] } }

/-! The table of R84. -/

/-- The power that a port keeps in the table, LW: b[p]. -/
def State.keep (s : State) (p : Port) : Int :=
  if s.sourceRole p then min (s.rP p Kp.booking) (s.rP p Kp.allotShed) else 0

/-- The ports in the order in which R84 cuts them: lowest class first, highest index first within a class. -/
def cutOrder (s : State) : List Port :=
  (List.range 8).flatMap fun (c : Nat) => allPorts.reverse.filter fun p => decide (s.rP p Kp.classE = (c : Int))

/-- The ports cut, as a mask, to bring the sum of what ports keep within SHED_MARGIN of `cap`. -/
def cutMask (s : State) (cap : Int) : Nat :=
  ((cutOrder s).foldl
    (fun (a : Int × Nat) p =>
      if cap * (100 - s.rd K.shedMargin) < a.1 * 100 ∧ 0 < s.keep p then (a.1 - s.keep p, a.2 + 2 ^ p.val) else a)
    ((allPorts.map s.keep).sum, 0)).2

/-- The voltage of a port's contract, 10 mV; 5 V under an implicit contract. -/
def State.contractVoltage (s : State) (p : Port) : Int := if s.rP p Kp.contractV = 0 then 500 else s.rP p Kp.contractV

/-- The limit code of a port in the table, 50 mA steps; 0xFF unchanged. -/
def State.tableLimit (s : State) (cut : Nat) (p : Port) : Int :=
  if !cut.testBit p.val ∧ s.sourceRole p ∧ s.keep p < s.rP p Kp.booking then
    min 254 (200 * s.keep p / s.contractVoltage p)
  else 255

/-- The table of R84 for a capacity. -/
def stripTable (s : State) (t : Nat) (cap : Int) : SlotCopy :=
  let cut := cutMask s cap
  { trigger := t, cut := cut, capAfter := cap
    allot := allPorts.map fun p => if cut.testBit p.val then 0 else s.keep p
    limit := allPorts.map (s.tableLimit cut) }

/-- The capacity under a trigger (Table 3.3). -/
def capAfter (s : State) (t : Nat) : Int :=
  if t = 1 then min (localLimitWith s false (s.feedAvail 1)) (s.rd K.budget)
  else if t = 2 then min (localLimitWith s (s.feedAvail 0) false) (s.rd K.budget)
  else if t = 3 then s.rd K.budget * s.rd K.peerPct / 100
  else if 4 ≤ t ∧ t ≤ 6 then localLimit s * s.rd (K.deratePct1 + (t - 4)) / 100
  else s.rd K.budget

/-- A slot's shadow, the ST_ entries, written (R85). -/
def State.writeShadow (s : State) (n : Slot) (c : SlotCopy) : State :=
  let s := (s.wS n Ks.stCut c.cut).wS n Ks.stCapAfter c.capAfter
  allPorts.foldl (fun s p => (s.wS n (Ks.stAllot + p.val) (c.allot.getD p.val 0)).wS n (Ks.stLimit + p.val)
    (c.limit.getD p.val 255)) s

/-- A slot's shadow read as a copy. -/
def State.shadow (s : State) (n : Slot) : SlotCopy :=
  { trigger := (s.rS n Ks.stTrigger).toNat, cut := (s.rS n Ks.stCut).toNat, capAfter := s.rS n Ks.stCapAfter
    allot := allPorts.map fun p => s.rS n (Ks.stAllot + p.val)
    limit := allPorts.map fun p => s.rS n (Ks.stLimit + p.val) }

/-- CLASS, ALLOT and ALLOT_SHED apply at a recomputation (R105), a slot's trigger with it. -/
def State.applyLedgerEntries (s : State) : State :=
  (s.applyKeys (allPorts.flatMap fun p => [keyP p Kp.classE, keyP p Kp.allot, keyP p Kp.allotShed])).applyKeys
    (allSlots.map fun n => keyS n Ks.stTrigger)

/-- R84: under STRIP_MODE AUTO every slot whose trigger is neither NONE nor MANUAL, and which serves no second stage, is
computed and its shadow written. -/
def State.recompute (s : State) : State :=
  let s := s.applyLedgerEntries
  if s.rd K.stripMode = 0 then
    allSlots.foldl (fun s n =>
      let t := (s.rS n Ks.stTrigger).toNat
      if t = 0 ∨ t = 7 ∨ (s.slot n).stageOf.isSome then s
      else (s.writeShadow n (stripTable s t (capAfter s t))).setSlot n { s.slot n with writing := true }) s
  else s

/-! Applying a shed in the ledger (R87, R88, R91). -/

/-- R87, R91: a cut port: booking 0, LEDGER_STATE CUT, SHED, and the port through ErrorRecovery with its pins open. -/
def State.ledgerCut (s : State) (p : Port) : State :=
  if s.rP p Kp.ledgerState = 4 then s
  else
    let s := (s.wP p Kp.ledgerState 4).setLport p { s.lport p with changed := true }
    (((s.leaveWait p).setBooking p 0).portEvent p 0x4020 0).errorRecovery p

/-- The lower of a value in force and a new one. -/
def lowerOf (a : Option Int) (b : Int) : Int := match a with | some x => min x b | none => b

/-- R87, R88: a remaining port: its allotment, booking and limit code lowered; SHED where its effective allotment, its booking or its
limit changes. -/
def State.ledgerLimit (s : State) (p : Port) (allot code : Int) : State :=
  let l := s.lport p
  let a := lowerOf l.shedAllot allot
  let falls := decide (a < s.rP p Kp.booking)
  let lim := if code = 255 then l.limit else some (lowerOf l.limit code)
  let moved := falls || decide (lim ≠ l.limit)
  let old := effAllot s p
  let s := s.setLport p { l with shedAllot := some a, limit := lim, changed := l.changed || moved }
  let u := if falls then s.setBooking p a else if moved then s.showLedger p else s
  if moved ∨ effAllot s p < old then u.portEvent p 0x4020 0 else u

/-- R84, R87: a sink-role port keeps nothing in the table: its arming is withdrawn, its allotment and with it its booking are 0 whatever
ST_ALLOT holds for it, DESIGN CHOICE (log entry 167), and its gate and contract stay. -/
def State.ledgerSink (s : State) (p : Port) : State :=
  let s := if (s.path p).frsArmed ∨ (s.path p).frsWait then s.frsWithdraw p else s
  s.ledgerLimit p 0 255

/-- A port under the copies `cs` of one trigger; `all` cuts every source-role port. A port that is neither takes the slot allotment
and no limit code (R84, R87). -/
def State.ledgerPort (s : State) (cs : List SlotCopy) (all : Bool) (p : Port) : State :=
  if s.rP p Kp.ledgerState = 4 then s
  else if s.sourceRole p then
    if all || cs.any (fun c => c.cut.testBit p.val) then s.ledgerCut p
    else cs.foldl (fun s c => s.ledgerLimit p (c.allot.getD p.val 0) (c.limit.getD p.val 255)) s
  else if s.sinkRole p then (if cs = [] then s else s.ledgerSink p)
  else cs.foldl (fun s c => s.ledgerLimit p (c.allot.getD p.val 0) 255) s

/-- The copies of the slots armed for a trigger. -/
def copiesFor (s : State) (t : Nat) : List SlotCopy := (armedFor s t).filterMap fun n => (s.slot n).armed

/-- Both feeds are lost (R88): both feed-loss triggers are in force and neither feed is available. -/
def bothLost (s : State) : Bool :=
  s.ledger.causes.contains 1 && s.ledger.causes.contains 2 && !s.feedAvail 0 && !s.feedAvail 1

/-- R87 to R89: the ledger applies the shed of trigger `t` in one cycle; only what FREE has grown by at its end goes to a waiting port
(R81). -/
def State.ledgerShed (s : State) (t : Nat) : State :=
  let cs := copiesFor s t
  let slots := armedFor s t
  let free := freePower s
  let s := if t = 1 then s.setAvail 0 false else if t = 2 then s.setAvail 1 false else s
  let both := bothLost s
  let caps := (cs.map (·.capAfter)) ++ (if cs = [] ∧ 4 ≤ t ∧ t ≤ 6 then [capAfter s t] else []) ++ (if both then [0] else [])
  let cap := caps.foldl (fun a c => some (lowerOf a c)) s.ledger.cap
  let s := { s with ledger := { s.ledger with cap := cap } }.refreshBudget
  let all := (decide (cs = [] ∧ t ≤ 3)) || (s.ledger.causes.contains 1 && s.ledger.causes.contains 2)
  let s := allPorts.foldl (fun s p => s.ledgerPort cs all p) s
  let s := if free < freePower s then s.budgetFree else s
  let s := slots.foldl (fun s n => s.setSlot n { s.slot n with inForce := true }) s
  let s := if cs = [] then s.ledgerFlag 1 true else s
  let s := if slots.any (fun n => (s.slot n).stageOf.isSome) then s.ledgerFlag 7 true else s
  (((s.count K.shedCount).wr K.lastShedTb s.tb).alert 4).flushClass 4

/-! Restoration (R93, R94). -/

/-- RESTART_RESERVE: 5 V × the RP_LEVEL current, LW (Table 3.6). -/
def State.restartReserve (s : State) (p : Port) : Int := s.rpCurrent p / 2

/-- A port that takes a restoration step: cut, or its booking or limit code changed. -/
def State.toRestore (s : State) (p : Port) : Bool := decide (s.rP p Kp.ledgerState = 4) || (s.lport p).changed

/-- The next port in restoration order: highest class, then lowest index. -/
def nextRestore (s : State) : Option Port :=
  let l := allPorts.filter fun p => s.toRestore p
  l.find? fun p => l.all fun q => decide (s.rP q Kp.classE ≤ s.rP p Kp.classE)

/-- What the shed has to give back (R93): the bookings, the allotments that it reduced, as far as they exceed the bookings, and with
`cut` RESTART_RESERVE for every cut port. -/
def restoreNeed (s : State) (cut : Bool) : Int :=
  runningSum s + (allPorts.map fun p =>
    if s.rP p Kp.ledgerState = 4 then (if cut then s.restartReserve p else 0)
    else if (s.lport p).shedAllot.any fun a => decide (a < s.rP p Kp.allot) then max 0 (s.rP p Kp.allot - s.rP p Kp.booking) else 0).sum

/-- R93: whether a cause in force is absent; a lost peer shows no shed: DESIGN CHOICE (log entry 164). -/
def causeAbsent (s : State) (t : Nat) : Bool :=
  if t = 1 then s.feedAvail 0
  else if t = 2 then s.feedAvail 1
  else if t = 3 then
    s.shedHigh &&
      (if hasPeers s then
        (s.ledger.peers.all fun q => q.lost || !q.flags.testBit 2) && decide (restoreNeed s false ≤ s.ledger.base)
      else decide (restoreNeed s true ≤ localLimit s))
  else if t = 7 then (hostSlots s 7).all fun n => !(s.slot n).inForce
  else decide (s.rd K.derateStep < (t : Int) - 3)

/-- Restoration is complete: no slot is in force, no cause stands, a second stage is released with its cause (R86). -/
def State.restoreFinish (s : State) : State :=
  let s := allSlots.foldl (fun s n =>
    let h := s.slot n
    s.setSlot n { h with
      inForce := false, stageOf := none, armed := if h.stageOf.isSome ∧ s.rS n Ks.stTrigger ≠ 7 then none else h.armed }) s
  let s := (s.ledgerFlag 4 false).ledgerFlag 7 false
  { s with ledger := { s.ledger with causes := [], restoreDone := true } }

/-- Restoration ends when no port waits for a step. -/
def State.restoreCheck (s : State) : State := if (nextRestore s).isNone then s.restoreFinish else s

/-- R94: restoration begins: the cap on BUDGET lifts, ports whose allotment alone was lowered regain it at once, and what overcommit had
lowered ends with it: DESIGN CHOICE (log entry 169). -/
def State.restoreBegin (s : State) : State :=
  let s := { s with ledger := { s.ledger with cap := none, turnWait := false } }.refreshBudget
  let s := s.ledgerFlag 4 true
  let s := allPorts.foldl (fun s p =>
    let l := s.lport p
    let s := s.setLport p { l with overAllot := none }
    if !s.toRestore p ∧ l.shedAllot.isSome then
      (s.setLport p { l with shedAllot := none, limit := none, overAllot := none }).readvertise p
    else s) s
  s.restoreCheck

/-- What restoration releases on the tile of a port that the ledger no longer cuts or limits (R94, R137, R163): the limit code, or
the cut with a suspended retry dropped and the CC pins released unless a lockout or SAFE_OFF holds them. A tile in link hold
keeps its shed until the link returns. -/
def State.tileRelease (s : State) (p : Port) : State :=
  if s.lath (tileOf p) ≠ 0 ∨ s.rP p Kp.ledgerState = 4 ∨ (s.lport p).limit.isSome then s
  else if (s.path p).cut then
    let s := (s.setPath p { s.path p with cut := false, retrySusp := false, strip := none }).flag (keyP p Kp.ppFlags) 2 false
    let s := s.setPp p (s.offState p)
    if (s.path p).lockout ∨ (s.path p).safe then s else s.leaveRecovery p
  else if (s.path p).strip.isSome then
    ((s.setPath p { s.path p with strip := none }).flag (keyP p Kp.ppFlags) 2 false).setWinI p
  else s

/-- A step for a limited port: ALLOT and limit code return, and the engine re-advertises. -/
def State.restoreLimited (s : State) (p : Port) : State :=
  let s := s.setLport p { s.lport p with shedAllot := none, limit := none, changed := false }
  (((s.showLedger p).portEvent p 0x4020 8).tileRelease p).readvertise p

/-- A step for a cut port (R94, R137): RESTART_RESERVE is booked, and the cut ends. -/
def State.restoreCut (s : State) (p : Port) : State :=
  let s := s.setLport p { s.lport p with shedAllot := none, limit := none, changed := false, reserved := true, restart := true }
  let s := (s.wP p Kp.ledgerState 0).book p (s.restartReserve p)
  (s.portEvent p 0x4020 8).tileRelease p

/-- One restoration step (R94); a cut port whose reserve FREE does not cover makes the step wait. -/
def State.restoreStep (s : State) : State :=
  match nextRestore s with
  | none => s.restoreCheck
  | some p =>
    if s.rP p Kp.ledgerState = 4 then
      if s.restartReserve p ≤ freePower s then (s.restoreCut p).restoreCheck else s
    else (s.restoreLimited p).restoreCheck

/-! The shelf (R96 to R103). -/

/-- The device's node number. -/
def State.node (s : State) : Nat := (s.rd K.canNode).toNat

/-- Whether node `n` is set in PEER_MASK. -/
def State.inMask (s : State) (n : Nat) : Bool := ((s.rdB K.peerMask).getD (n / 8) 0).testBit (n % 8)

/-- The members: the nodes of PEER_MASK and the device itself, ascending. -/
def members (s : State) : List Nat := (List.range 128).filter fun n => s.inMask n || decide (n = s.node)

/-- The member after node `n`, if any. -/
def memberAfter (s : State) (n : Nat) : Option Nat := (members s).find? fun m => decide (n < m)

/-- The record of a peer. -/
def State.peer (s : State) (n : Nat) : Option Peer := s.ledger.peers.find? fun q => decide (q.node = n)

/-- A peer's record replaced, or added in node order. -/
def State.setPeer (s : State) (q : Peer) : State :=
  let rest := s.ledger.peers.filter fun r => decide (r.node ≠ q.node)
  { s with ledger := { s.ledger with
      peers := (rest.filter fun r => decide (r.node < q.node)) ++ q :: rest.filter fun r => decide (q.node < r.node) } }

/-- The number in octets `lo` to `lo + n - 1` of a frame. -/
def frameField (raw : List Nat) (lo n : Nat) : Int := leValue ((raw.drop lo).take n)

/-- The tag that a frame must carry (Table 3.4): zero while SHELF_KEY is all zero. -/
def State.frameTag (s : State) (raw : List Nat) : List Nat :=
  let key := s.rdB K.shelfKey
  if key.all (· = 0) then List.replicate 8 0
  else
    (Config.gcmTag key ((raw.drop 2).take 1 ++ raw.take 1 ++ (raw.drop 4).take 2 ++ (raw.drop 24).take 8) raw).take 8

/-- The FLAGS octet of the device's frame (Table 3.4). -/
def State.frameFlags (s : State) : Nat :=
  bitsOf [s.feedAvail 0, s.feedAvail 1, !s.ledger.causes.isEmpty, bit (s.rd K.ledgerFlags) 4, s.ledger.restoreDone,
    s.ledger.overcommit]

/-- The CUT field: the device's cut ports. -/
def cutPorts (s : State) : Nat := bitsOf (allPorts.map fun p => decide (s.rP p Kp.ledgerState = 4))

/-- The device's ledger frame (Table 3.4). -/
def State.ownFrame (s : State) (round : Nat) : List Nat :=
  let raw := [0x4C, 1, s.node, s.frameFlags] ++ leOctets 2 round ++ [0, 0] ++ leOctets 4 (runningSum s).toNat ++
    leOctets 4 (s.rd K.floor).toNat ++ leOctets 4 (demand s).toNat ++ leOctets 4 (localLimit s).toNat ++ leOctets 8 s.tb ++
    leOctets 4 (s.rd K.shelfCap).toNat ++ leOctets 8 (cutPorts s) ++ List.replicate 12 0
  raw ++ s.frameTag raw

/-- The identifier of a member's frames (R98). -/
def frameIdOf (s : State) (n : Nat) : Nat := (s.rd K.ledgerCanBase).toNat + n

/-- The frame of the device goes out on the controller of LEDGER_BUS (R98), and the round moves to the next member's slot (R99). -/
def State.sendFrame (s : State) (round : Nat) : State :=
  { s with ledger := { s.ledger with
      sent := true, frameOut := s.ownFrame round, frameBus := (s.rd K.ledgerBus).toNat, frameId := frameIdOf s s.node
      slotNode := (memberAfter s s.node).getD 128 } }

/-- A lower member that still has its shelf-wide restoration before it (R103); a lost one has none: DESIGN CHOICE (log entry 164). -/
def lowerBusy (s : State) : Bool :=
  s.ledger.peers.any fun q =>
    decide (q.node < s.node) && !q.lost && (q.flags.testBit 2 || q.flags.testBit 3) && !q.flags.testBit 4

/-- PEER_LOST shows whether a lost member is still counted (R102). -/
def State.peerLostFlag (s : State) : State := s.ledgerFlag 3 (s.ledger.peers.any (·.lost))

/-- A member's line of the reconciliation: node, base, demand and limit. -/
structure ReconRow where
  node : Nat
  base : Int
  sum : Int
  demand : Int
  limit : Int
  deriving DecidableEq, Repr

/-- The device's own line (R100): the fields of the frame that it sent, as every member read them; without demand where its slot of
the round passed. -/
def ownRow (s : State) : ReconRow :=
  let f := s.ledger.frameOut
  { node := s.node, base := max (frameField f 12 4) (frameField f 8 4), sum := frameField f 8 4
    demand := if s.ledger.sent then frameField f 16 4 else 0, limit := frameField f 20 4 }

/-- The lines of all members (R100, R102): a member not heard in the round counts with its last SUM or FLOOR and no demand. -/
def reconRows (s : State) : List ReconRow :=
  let own := ownRow s
  let rows := s.ledger.peers.map fun q =>
    ({ node := q.node, base := max q.floor q.sum, sum := q.sum, demand := if q.heard then q.demand else 0, limit := q.limit } : ReconRow)
  (rows.filter fun r => decide (r.node < s.node)) ++ own :: rows.filter fun r => decide (s.node < r.node)

/-- The shelf capacity of a round: the least SHELF_CAP of the frames received in it, the device's own among them. -/
def reconShelf (s : State) : Int :=
  ((s.ledger.peers.filter (·.heard)).map (·.cap)).foldl min
    (if s.ledger.sent then frameField s.ledger.frameOut 32 4 else s.rd K.shelfCap)

/-- The surplus of a round (R100). -/
def reconSurplus (s : State) : Int := reconShelf s - ((reconRows s).map (·.base)).sum

/-- The device's BUDGET of a round (R100). -/
def reconBudget (s : State) : Int :=
  let rows := reconRows s
  let surplus := reconSurplus s
  let dem := (rows.map (·.demand)).sum
  let share (d : Int) : Int := if 0 < dem then surplus * d / dem else 0
  let left : Int := if 0 < dem then surplus - (rows.map fun r => share r.demand).sum else 0
  let idx := (rows.takeWhile fun r => decide (r.node < s.node)).length
  let own := rows.getD idx { node := s.node, base := 0, sum := 0, demand := 0, limit := 0 }
  if 0 ≤ surplus then min (own.base + share own.demand + (if (idx : Int) < left then 1 else 0)) own.limit
  else min own.sum own.limit

/-- The device's share of a shelf that the members have overcommitted, which R101 names without a formula: the shelf capacity divided
in proportion to the bases of R100. DESIGN CHOICE (log entry 150). -/
def reconShare (s : State) : Int :=
  let total := ((reconRows s).map (·.base)).sum
  if total = 0 then 0 else reconShelf s * (ownRow s).base / total

/-- The keys of 0x3200 to 0x3203 that apply as one group (R104). -/
def ledgerKeys : List Nat :=
  [K.feedCapA, K.feedCapB, K.reserve, K.shedMargin, K.stagger, K.restoreDelay, K.shedOutMask, K.shedInEn, K.stripMode,
    K.derateT1, K.derateT1 + 1, K.derateT1 + 2, K.deratePct1, K.deratePct1 + 1, K.deratePct1 + 2, K.shelfCap, K.floor,
    K.peerPct, K.reconPeriod, K.ledgerBus, K.ledgerCanBase, K.shelfTemp]

/-- The octet strings of the group with their lengths: PEER_MASK and SHELF_KEY wait as the numbers that their octets spell. -/
def ledgerStrings : List (Nat × Nat) := [(K.peerMask, 16), (K.shelfKey, 32)]

/-- A written octet string of `n` octets applied. -/
def State.applyString (s : State) (k n : Nat) : State :=
  match s.pendingVal k with
  | none => s
  | some v => { s.wrB k (leOctets n v.toNat) with odNew := SMap.put noPending s.odNew k none }

/-- The records of the ledger follow PEER_MASK (R96, R102): a node that it names no more is a member no more, and a node newly named
is a member that has not been heard. Without members there is no round and no overcommit. -/
def State.syncPeers (s : State) : State :=
  let fresh (n : Nat) : Peer :=
    { node := n, flags := 0, sum := 0, floor := 0, demand := 0, limit := 0, cap := 0, heard := false, silent := 0, lost := false }
  let peers := ((members s).filter fun n => decide (n ≠ s.node)).map fun n => (s.peer n).getD (fresh n)
  let l := s.ledger
  let s := { s with ledger := { l with peers := peers, roundOpen := l.roundOpen && !peers.isEmpty } }.peerLostFlag
  if peers.isEmpty ∧ l.overcommit then
    let s := { s with ledger := { s.ledger with overcommit := false } }.ledgerFlag 0 false
    allPorts.foldl (fun s p => s.setLport p { s.lport p with overAllot := none }) s
  else s

/-- Whether a value of the group waits. -/
def ledgerPends (s : State) : Bool := (ledgerKeys ++ ledgerStrings.map (·.1)).any fun k => (s.pendingVal k).isSome

/-- The entries of 0x3200 to 0x3203 applied as one group, with BUDGET and the recomputation of R84 following them (R75, R104). -/
def State.applyLedgerConfig (s : State) : State :=
  if ledgerPends s then
    let newMask := (s.pendingVal K.peerMask).isSome
    let s := ledgerStrings.foldl (fun s x => s.applyString x.1 x.2) (s.applyKeys ledgerKeys)
    let s := if newMask then s.syncPeers else s
    s.refreshBudget.recompute
  else s

end Sys2Proof.Machine
end

