-- ==== Sys2Proof/Machine/FeedOps.lean ====
section
/-! DEFINITION. The operations of the feed hot-swap stages: start conditions, the feed-loss term and stage faults
("Power Path, Electronic Fusing and Feed Hot-Swap", feeds). -/

namespace Sys2Proof.Machine

namespace Hs
/-- FEED_HS_STATE codes (Table 4.5). -/
abbrev offUnseated : Int := 0
abbrev seating : Int := 1
abbrev wait : Int := 2
abbrev ramp : Int := 3
abbrev on : Int := 4
abbrev lost : Int := 5
abbrev fault : Int := 6
abbrev offCommand : Int := 7
end Hs

namespace FeedFlt
/-- FEED_FAULT codes (Table 4.5). -/
abbrev short : Int := 1
abbrev overcurrent : Int := 2
abbrev rampTimeout : Int := 3
abbrev soa : Int := 4
abbrev ov : Int := 5
end FeedFlt

/-- LOSS_CAUSE codes (Table 4.4). -/
def lossCode : LossCause → Int
  | .inputLow => 1
  | .reverse => 2
  | .unseat => 3
  | .fault => 4
  | .command => 5

/-- FEED_HS_STATE of feed `f`. -/
def State.hs (s : State) (f : Feed) : Int := s.rF f Kf.feedHsState

/-- The stage is in RAMP or ON. -/
def State.feedRuns (s : State) (f : Feed) : Bool := decide (s.hs f = Hs.ramp) || decide (s.hs f = Hs.on)

/-- Both seat pins read seated. -/
def FeedHw.seated (h : FeedHw) : Bool := h.seat0 && h.seat1

/-- The conditions of R141 for feed `f`. -/
def State.feedReady (s : State) (f : Feed) : Bool :=
  let h := s.feed f
  h.seated && decide (s.rF f Kf.feedUv ≤ h.vin) && decide (h.vin < s.rF f Kf.feedOv) && decide (s.rF f Kf.feedEn = 1) &&
    !h.cmdOff && s.mayEnable && s.slotReady 0 && s.slotReady 1

/-- FEED_HS_STATE of a stage that is off and not in FAULT (R145). -/
def State.idleHs (s : State) (f : Feed) : Int :=
  if (s.feed f).cmdOff then Hs.offCommand
  else if !(s.feed f).seated then Hs.offUnseated
  else if s.feedReady f ∧ !(s.feed f).starting then Hs.seating
  else Hs.wait

/-- A stage that is off follows its conditions. -/
def State.refreshFeed (s : State) (f : Feed) : State :=
  if s.feedRuns f ∨ s.hs f = Hs.lost ∨ s.hs f = Hs.fault then s else s.wF f Kf.feedHsState (s.idleHs f)

/-- The DAC codes of the feed comparators (Table 4.5, R151): 20 mV steps for the input, 62.5 µV for the current. -/
def State.setFeedCodes (s : State) (f : Feed) : State :=
  let r := s.rF f Kf.feedRshunt
  let s := (s.wC (winF0 f) Kc.hiCode (s.rF f Kf.feedOv / 2)).wC (winF0 f) Kc.loCode (ceilDiv (s.rF f Kf.feedLossV) 2)
  (s.wC (winF1 f) Kc.hiCode (s.rF f Kf.feedShort * r / 625)).wC (winF1 f) Kc.loCode (-(s.rF f Kf.feedRcp * r / 625))

/-- The configuration entries of a feed, which apply as one group (R146). -/
def feedKeys (f : Feed) : List Nat := (List.range 17).map fun i => keyF f (Kf.feedEn + i)

/-- The group applied at an entry to LOST or OFF. -/
def State.applyFeed (s : State) (f : Feed) : State := (s.applyKeys (feedKeys f)).setFeedCodes f

/-- The comparators of a feed return to IDLE_MODE where its stage is in neither RAMP nor ON (R153). -/
def State.idleFeed (s : State) (f : Feed) : State :=
  if s.feedRuns f then s else (s.setMode (winF0 f) false).setMode (winF1 f) false

/-- FX_GATE is driven: the stage turns it on, and neither comparator's H nor the loss term pulls it low; an H that is UNRESOLVED or under
a check is a true one (R155, R156, R162). -/
def State.feedGate (s : State) (f : Feed) : Bool :=
  (s.feed f).gateOn && !(s.feed f).term && !(s.cmp (winF0 f)).effH && !(s.cmp (winF1 f)).effH

/-- FX_VOUT is inside its window: not below FX_VIN − FEED_PG_DROP (R142). -/
def State.feedIn (s : State) (f : Feed) : Bool := decide ((s.feed f).vin - s.rF f Kf.feedPgDrop ≤ (s.feed f).vout)

/-- The input voltage of a feed, 10 mV, as its comparator or a result shows it; a stage that is off follows its conditions. -/
def State.feedInput (s : State) (f : Feed) (v : Int) : State := (s.setFeed f { s.feed f with vin := v }).refreshFeed f

/-- Feed PG with the availability that follows it (R75, R142). -/
def State.feedPg (s : State) (f : Feed) (b : Bool) : State :=
  (s.flag (keyF f Kf.feedFlags) 3 b).setAvail f (b && !(s.feed f).term)

/-- R144, R162: the feed-loss term of feed `f` asserts with cause `c`, unless suppressed: the gate goes off with it, the feed
is lost, its comparators leave MODE, its group applies (R146), and the term is the strip trigger FEED_A_LOSS or FEED_B_LOSS. -/
def State.feedLoss (s : State) (f : Feed) (c : LossCause) : State :=
  if s.feedRuns f then
    let s := s.setFeed f { s.feed f with gateOn := false, term := true, ft := .idle }
    let s := ((s.wF f Kf.feedHsState Hs.lost).wF f Kf.lossCause (lossCode c)).count (keyF f Kf.feedLossCount)
    let s := (s.idleFeed f).applyFeed f
    let s := (((s.flag (keyF f Kf.feedFlags) 0 false).feedPg f false).alert 3).flushClass 3
    s.trigger (1 + f.val)
  else s

/-- A stage fault (R142, R143): recorded, and lost with cause FAULT. -/
def State.feedFault (s : State) (f : Feed) (code : Int) : State :=
  if s.feedRuns f then ((s.wF f Kf.feedFault code).alert 3).feedLoss f .fault else s

/-- The outputs of a feed comparator `k` as the central slice takes them (R162): a resolved H is the stage fault `flt` (R155), an
L at 0 the loss cause `c`. -/
def State.feedWatch (s : State) (f : Feed) (k : CmpHw) (flt : Int) (c : LossCause) : State :=
  if k.h && !k.hUnres then s.feedFault f flt
  else if !k.l then s.feedLoss f c else s

/-- A start of feed `f` under check is given up: its comparators return to IDLE_MODE (R153). -/
def State.feedGiveUp (s : State) (f : Feed) : State :=
  if (s.feed f).starting then (s.setFeed f { s.feed f with starting := false }).idleFeed f else s

/-- The same, and the stage follows its conditions. -/
def State.feedNoStart (s : State) (f : Feed) : State := (s.feedGiveUp f).refreshFeed f

/-- The ramp of a feed begins (R142) once both its comparators have passed their check (R158, R159). The SOA integral of an earlier run
decays and is not lost (R143). -/
def State.feedRamp (s : State) (f : Feed) : State :=
  let s := s.setFeed f { s.feed f with gateOn := true, term := false, ft := .idle, starting := false }
  let s := s.wF f Kf.feedHsState Hs.ramp
  (s.feedWatch f (s.cmp (winF0 f)) FeedFlt.ov .inputLow).feedWatch f (s.cmp (winF1 f)) FeedFlt.short .reverse

/-- A check of a comparator of feed `f` has ended (R158, R159): a start goes on once both have passed. -/
def State.feedChecked (s : State) (f : Feed) (ok : Bool) : State :=
  if !(s.feed f).starting then s
  else if !ok then (s.feedNoStart f).wF f Kf.feedHsState Hs.wait
  else if (s.cmp (winF0 f)).checking || (s.cmp (winF1 f)).checking then s
  else if s.feedReady f then s.feedRamp f
  else s.feedNoStart f

end Sys2Proof.Machine
end

