-- ==== Sys2Proof/Machine/Path.lean ====
section
/-! DEFINITION. The meanings of the power-path commands ("Power Path, Electronic Fusing and Feed Hot-Swap", ports). -/

namespace Sys2Proof.Machine

/-- PP_CTRL as the writes that wait for the link leave it (R32): the word of the last of them, or the register. -/
def State.ctrlNext (s : State) (p : Port) : Nat :=
  (s.tile (tileOf p)).reqs.foldl (fun v r => match r with
    | .io b a w => if b = blockOf p ∧ a = ppCtrl p then w else v
    | .cmd _ _ | .reset _ => v) (s.ctrl p).toNat

/-- A bit of PP_CTRL written by the engine: in link hold the write waits for the link (R22, R32). -/
def State.writeBit (s : State) (p : Port) (i : Nat) (f : State → State) : State :=
  if s.held p then s.toTile p (.io (blockOf p) (ppCtrl p) (s.ctrlNext p ||| 2 ^ i)) else f s

/-- EN set in PP_CTRL (R126, R147): refused without a change while SINK is set; otherwise the path is requested on in the
source direction and its ramp starts. -/
def State.requestSource (s : State) (p : Port) : State := if bit (s.ctrl p) 1 then s else (s.setCtrl p 0 true).sourceOn p

/-- SINK set in PP_CTRL (R129, R147): refused without a change while EN is set; otherwise the gate ramps on once VBUS is
inside the 5 V window. -/
def State.requestSink (s : State) (p : Port) : State := if bit (s.ctrl p) 0 then s else (s.setCtrl p 1 true).sinkOn p

/-- PP_CTRL EN set. -/
def execPpCtrlEn (p : Port) (s : State) : Host.Outcome State Fault Refusal := done (s.writeBit p 0 fun s => s.requestSource p)

/-- PP_CTRL SINK set. -/
def execPpCtrlSink (p : Port) (s : State) : Host.Outcome State Fault Refusal := done (s.writeBit p 1 fun s => s.requestSink p)

/-- PP_TARGET and PP_MODE taken by the tile (R56, R147): ARM clears; on a path that is on as a source the transition waits for its
start. A target beyond VSET's range is refused (R108). -/
def State.takeArm (s : State) (p : Port) : State :=
  let vt : Int := fieldOf (s.ior (blockOf p) (0x1004 + 0x100 * localOf p)) 0 16
  let s := s.setCtrl p 2 false
  match s.vsetCode p vt with
  | none => s.flag (keyP p Kp.ppFlags) 7 true
  | some _ =>
    let s := s.flag (keyP p Kp.ppFlags) 7 false
    let h := s.path p
    if h.gate = .on ∧ h.dir = .source then
      s.setPath p { h with
        trans := .wait, armV := vt, armI := s.ppIcon p, armMode := fieldOf (s.ior (blockOf p) (0x1008 + 0x100 * localOf p)) 0 2
        falling := decide (vt < h.target), armStrip := h.strip.isSome }
    else s

/-- PP_CTRL ARM set (R147): the tile takes it; a path that is not on as a source has no transition to start. -/
def execPpArm (p : Port) (s : State) : Host.Outcome State Fault Refusal := done (s.writeBit p 2 fun s => s.takeArm p)

/-- FRS_ARM set in PP_CTRL (R64, R158): the comparators of a port in the sink role are checked and the tile is then armed to detect
the FR_Swap signal. While a shed is in force for the port it stays unarmed (R84). -/
def State.requestFrs (s : State) (p : Port) : State :=
  if (s.lport p).shedAllot.isSome then s
  else
    let s := s.setCtrl p 3 true
    if s.sinkRole p then s.frsCheck p else s

/-- PP_CTRL FRS_ARM set. -/
def execPpFrsArm (p : Port) (s : State) : Host.Outcome State Fault Refusal := done (s.writeBit p 3 fun s => s.requestFrs p)

/-- The VBUS results of a port in the 10 µs before `tb`, with the TB at which each came (R109). -/
def PathHw.recent (h : PathHw) (tb : Nat) : List (Nat × Int) := h.vRecent.filter fun x => decide (x.1 ≤ tb ∧ tb < x.1 + 1000)

/-- How far the average of VBUS results lies above `t`, both in 20 µV. -/
def meanAbove (l : List (Nat × Int)) (t : Int) : Rat := ((l.map (·.2)).sum : Int) / (l.length : Int) - (t : Int)

/-- R109: one step of the VSET trim, when the average of the VBUS results of 10 µs is off target by more than 0.25 % of the target
plus 10 mV; suspended while VSET slews, in current limit and under the PPS servo, and without a result. -/
def execVsetTrimStep (p : Port) (s : State) : Host.Outcome State Fault Refusal :=
  done (
    let h := s.path p
    let t := h.target * 500
    let l := h.recent s.tb
    let d := meanAbove l t
    if h.dir = .source ∧ (h.gate = .ramp ∨ h.gate = .on) ∧ !h.slewing ∧ !(s.cmp (winI p)).l ∧ !(s.port p).ppsLimit ∧ l ≠ [] ∧
        ((t + 200000 : Int) : Rat) < 400 * (if d < 0 then -d else d) then
      s.setPath p { h with vset := if d < 0 then min 4095 (h.vset + 1) else h.vset - 1 }
    else s)

/-- R126 step 2: the gate rises, once the pre-turn-on check of both comparators has ended (R158); the inrush timer runs
from here, whether or not a pulldown term holds the gate off. -/
def execRampGateRise (p : Port) (s : State) : Host.Outcome State Fault Refusal :=
  done (
    let h := s.path p
    if h.gate = .pre ∧ !(s.cmp (winI p)).checking ∧ !(s.cmp (winV p)).checking then
      ((s.setPath p { h with gate := .ramp, turning := false }).setWinI p).setPp p Pp.ramp
    else s)

/-- R127, R126: the inrush timer reaches T_RAMP_MAX with VBUS outside its window or the gate held off by a pulldown term. -/
def execRampTimeout (p : Port) (s : State) : Host.Outcome State Fault Refusal :=
  done (if (s.path p).gate = .ramp ∧ (!s.vbusGood p ∨ s.pulldown p) then s.pathFault p Flt.rampTimeout else s)

/-- R133 steps 1 and 2, R126 step 5: the PG_QUAL window completes with VBUS inside and the fault timer idle, and PG
asserts, which ends a ramp. If the fault timer starts in that cycle, PG stays low; during a ramp it is not used, and with the limit
active at its end it starts from there (R115). -/
def execPgQualComplete (p : Port) (ftStarts : Bool) (s : State) : Host.Outcome State Fault Refusal :=
  done (
    let h := s.path p
    if (h.gate = .ramp ∨ h.gate = .on) ∧ !s.pulldown p ∧ s.vbusGood p ∧ h.ft = .idle then
      if ftStarts ∧ h.gate = .on then s.setPath p { h with ft := .running }
      else
        let s := s.setPg p true
        if h.gate = .ramp then
          (((s.setPath p { h with gate := .on, onTb := s.tb, icon := s.ppIcon p }).setWinI p).setPp p
            (if h.dir = .sink then Pp.sinkOn else Pp.on)).limitWatch p
        else s
    else s)

/-- R133 step 3: VBUS has been outside the window for PG_DEGLITCH, and PG drops; the gate is not turned off. -/
def execPgDeglitchDrop (p : Port) (s : State) : Host.Outcome State Fault Refusal :=
  done (if s.vbusGood p then s else s.setPg p false)

/-- R115, R116: the fault timer reaches FAULT_TIME, or SHED_GRACE under a shed limit code: OVERCURRENT. -/
def execFaultTimerExpiry (p : Port) (s : State) : Host.Outcome State Fault Refusal :=
  done (if (s.path p).ft = .running then s.pathFault p Flt.overcurrent else s)

/-- R115: the limit has stayed released for FT_CLEAR; the timer is idle with count 0. -/
def execFaultTimerIdle (p : Port) (s : State) : Host.Outcome State Fault Refusal :=
  done (if (s.path p).ft = .held then s.setPath p { s.path p with ft := .idle } else s)

/-! Dissipation (R107). -/

/-- The port current of a sample in 100 µA: the shunt voltage divided by RSHUNT. -/
def State.sampleI (s : State) (p : Port) (m : FetSample) : Rat := ((10000 * (m.isp - m.isn) : Int) : Rat) / (s.rP p Kp.rshunt : Int)

/-- VFET of a sample, µV. -/
def vfet (m : FetSample) : Int := m.isn - m.vbs

/-- The magnitude of a rational. -/
def magnitude (x : Rat) : Rat := if x < 0 then -x else x

/-- PFET of a sample, mW: |VFET| × |I|. -/
def State.samplePfet (s : State) (p : Port) (m : FetSample) : Rat := (vfet m).natAbs * magnitude (s.sampleI p m) / 10000000

/-- Mean PFET of the samples of an interval, mW. -/
def State.meanPfet (s : State) (p : Port) (l : List FetSample) : Rat := (l.map (s.samplePfet p)).sum / (l.length : Int)

/-- R118: the SOA integral over the samples of 10 µs; held while DP_BLIND is set or no sample came (R124). At SOA_E_MAX digital
protection sends its trip. -/
def execSoaUpdate (p : Port) (l : List FetSample) (s : State) : Host.Outcome State Fault Refusal :=
  done (
    if bit (s.rP p Kp.ppFlags) 4 ∨ l = [] then s
    else
      let e := max 0 ((s.path p).soaE + (s.meanPfet p l - (s.rP p Kp.soaP0 : Int)))
      let s := (s.setPath p { s.path p with soaE := e }).wP p Kp.soaNow (clampTo 0 u32Max (e / 100).floor)
      if (s.rP p Kp.soaEMax * 100 : Int) ≤ e then s.sendTrip p .soa else s)

/-- The T_NTC that the thermal model uses, 0.1 °C (R119, R121): the reading while valid; 125 °C in the start window; the
higher of the last valid reading and NTC_DEFAULT_T afterwards. -/
def State.modelNtc (s : State) (p : Port) : Int :=
  if (s.path p).startWin then 1250
  else if s.rP p Kp.tNtc ≠ -32768 then s.rP p Kp.tNtc
  else match (s.path p).ntcLast with
    | some t => max t (10 * s.rP p Kp.ntcDefaultT)
    | none => 10 * s.rP p Kp.ntcDefaultT

/-- The temperature rise after a 10 µs step (R119): dissipation `w` mW floored by the path resistance at `i` × 100 µA. -/
def thermalRise (rise rPath w i : Rat) (rth tau : Int) : Rat :=
  let pw : Rat := max w (i * i * rPath / 100000000000)
  rise + (pw * rth / 100000 - rise) / (100 * tau)

/-- FET_TWARN reached or not (R119, R121): PP_FLAGS[3], held clear in the start window; reaching it sends Alert once. -/
def State.judgeWarn (s : State) (p : Port) : State :=
  let w := decide (10 * s.rP p Kp.fetTwarn ≤ s.rP p Kp.tjModel) && !(s.path p).startWin
  let was := bit (s.rP p Kp.ppFlags) 3
  let s := s.flag (keyP p Kp.ppFlags) 3 w
  if w ∧ !was then s.sendAlert p Alert.otp else s

/-- R119: a step of the FET thermal model over the samples of 10 µs, the last of them giving i; held while DP_BLIND is set or no
sample came (R124). At FET_TMAX digital protection sends its trip. -/
def execThermalUpdate (p : Port) (l : List FetSample) (s : State) : Host.Outcome State Fault Refusal :=
  done (
    if bit (s.rP p Kp.ppFlags) 4 then s
    else match l.getLast? with
    | none => s
    | some m =>
      let h := s.path p
      let r := thermalRise h.rise h.rPath (s.meanPfet p l) (s.sampleI p m) (s.rP p Kp.rthJn) (s.rP p Kp.tauTh)
      let tj := s.modelNtc p + (10 * r).floor
      let s := ((s.setPath p { h with rise := r }).wP p Kp.tjModel tj).judgeWarn p
      if 10 * s.rP p Kp.fetTmax ≤ tj then s.sendTrip p .fetOt else s)

/-- The natural logarithm of n ÷ d, both positive, in units of 2⁻⁴⁰: powers of two taken out, then the series of artanh at
(m − 1) ÷ (m + 1) for the mantissa m between 1/2 and 2. -/
def lnFix (n d : Nat) : Int :=
  let a := n * 2 ^ d.log2
  let b := d * 2 ^ n.log2
  let y : Int := (((a : Int) - b) * 2 ^ 40) / ((a : Int) + b)
  let sum := (List.range 24).foldl (fun (acc : Int × Int) (i : Nat) => (acc.1 + acc.2 / (2 * (i : Int) + 1), acc.2 * y / 2 ^ 40 * y / 2 ^ 40)) (0, y)
  ((n.log2 : Int) - d.log2) * 762123384786 + 2 * sum.1

/-- The temperature in 0.1 °C of a reading `x` of Pnn_TSN, a code of 65,536 at the 2.048 V of the bias (R119, Table 6.3): the divider of
the 10.00 kΩ bias resistor and the NTC gives its resistance, and NTC_RNOM, at 25 °C, and NTC_BETA the temperature by the equation of a
B value, PRESUMED and rounded to the nearest step (log entry 143). None for an open or shorted NTC. -/
def ntcTemp (x : Nat) (rnom beta : Int) : Option Int :=
  if x = 0 ∨ 65536 ≤ x ∨ rnom ≤ 0 ∨ beta ≤ 0 then none
  else
    let l := lnFix (10000 * x) ((65536 - x) * rnom.toNat)
    let b := beta * 2 ^ 40
    let den := b * 100 + l * 29815
    if den ≤ 0 then none else some (nearDiv (10 * b * 29815 * 10 - 27315 * den) (10 * den))

/-- R119, R121: a reading `x` of Pnn_TSN, converted with NTC_RNOM and NTC_BETA and valid from −55 °C to +175 °C. An NTC that
becomes invalid while the model has history records NTC_INVALID; the gate is unchanged. -/
def execNtcRead (p : Port) (x : Nat) (s : State) : Host.Outcome State Fault Refusal :=
  done (
    match (ntcTemp x (s.rP p Kp.ntcRnom) (s.rP p Kp.ntcBeta)).filter fun t => decide (-550 ≤ t ∧ t ≤ 1750) with
    | some t => ((s.wP p Kp.tNtc t).setPath p { s.path p with ntcLast := some t }).flag (keyP p Kp.ppFlags) 0 false
    | none =>
      let fresh := (s.path p).warm && !bit (s.rP p Kp.ppFlags) 0
      let s := if fresh then s.recordFault p Flt.ntcInvalid else s
      let s := s.wP p Kp.tNtc (-32768)
      if (s.path p).warm then s.flag (keyP p Kp.ppFlags) 0 true else s)

/-- R121: the 2 s start window ends; normal limits return and FET_TWARN is judged afresh. -/
def execNtcStartWindowEnd (p : Port) (s : State) : Host.Outcome State Fault Refusal :=
  done (
    if (s.path p).startWin then
      (((s.setPath p { s.path p with startWin := false }).flag (keyP p Kp.ppFlags) 1 false).setWinI p).judgeWarn p
    else s)

/-- R120: every 1 ms with at least 1 A, the quotient VFET ÷ I filtered with a 1 s time constant; PP_FLAGS[6] above
1.5 × R_PATH_MAX. -/
def execPathREstimate (p : Port) (m : FetSample) (s : State) : Host.Outcome State Fault Refusal :=
  done (
    let i := s.sampleI p m
    if 10000 ≤ magnitude i then
      let r := (s.path p).rPath + ((10000 * vfet m : Int) / i - (s.path p).rPath) / 1000
      ((s.setPath p { s.path p with rPath := r }).wP p Kp.rPathEst (clampTo 0 u16Max r.floor)).flag (keyP p Kp.ppFlags) 6
        (decide ((3 * s.rP p Kp.rPathMax : Int) < 2 * r))
    else s)

/-- R124: no usable current result for 10 µs: DP_BLIND, and the integrals hold. -/
def execDpBlind (p : Port) (s : State) : Host.Outcome State Fault Refusal :=
  done ((s.setPath p { s.path p with i2tPrev := none, rcpPrev := false }).flag (keyP p Kp.ppFlags) 4 true)

/-- R136: after a fault turned off a source port with an explicit contract, the engine resets protocol layer, MessageIDs
and contract without a Hard Reset; the port stays Attached.SRC. A retry ramp that has started meanwhile goes on (R137). -/
def execFaultProtocolReset (p : Port) (s : State) : Host.Outcome State Fault Refusal :=
  done (
    let stands := decide (s.rP p Kp.contractPos ≠ 0) || decide (2 ≤ s.rP p Kp.contract ∧ s.rP p Kp.contract ≤ 4)
    if s.rP p Kp.attachState = Att.src ∧ stands ∧ ((s.path p).gate = .off ∨ (s.path p).faulted) then
      let s := (s.endPpsLimit p).setPath p { (s.endPpsLimit p).path p with faulted := false }
      (((s.setPort p (s.port p).clearProtocol.cancelCmd).clearContract p).leaveWait p).book p 0
    else s)

/-- R128: a VBUS result in a falling transition: the discharge is on while VBUS is above the new upper value, and the upper threshold
moves at the first result below it. -/
def State.fallResult (s : State) (p : Port) (x : Int) : State :=
  let h := s.path p
  let above := decide (s.windowHigh p h.target ≤ x)
  if h.falling ∧ (h.trans = .slew ∨ h.trans = .qual) then
    let s := s.setPath p { h with dsch := above, upperWaits := h.upperWaits && above }
    if h.upperWaits && !above then s.setOvp p h.target else s
  else s

/-- A VBUS result in tile logic (R482): the trim averages it (R109); it ends a discharge below 0.8 V (R131), moves the upper threshold of
a falling transition (R128) and lets a waiting sink path start (R129). -/
def State.vbusResult (s : State) (p : Port) (x : Int) : State :=
  let h := s.path p
  let s := s.setPath p { h with vNow := x, vRecent := h.recent s.tb ++ [(s.tb, x)] }
  let s := if h.dsch ∧ h.gate = .off ∧ x < 40000 then s.dischargeEnd p else s
  let s := s.fallResult p x
  if bit (s.ctrl p) 1 then s.sinkOn p else s

/-- The PPS current loop of the tile, which PP_MODE.MODE selects (R57, R147): from the requested current on, VSET is lowered (by how
much is open) and PPS_Status reports current limit; 150 mA below it VBUS returns to the requested voltage. -/
def State.ppsServo (s : State) (p : Port) (x : Int) : State :=
  let h := s.path p
  let lim := 100 * h.icon
  if h.mode = 1 ∧ h.gate = .on ∧ h.dir = .source ∧ h.trans = .none then
    if lim ≤ x then
      let s := (s.setPath p { h with vset := min h.vset (Config.freeNat s.fresh) }).draw
      (s.setPort p { s.port p with ppsLimit := true }).setPgLow p h.target
    else if (s.port p).ppsLimit ∧ x < lim - 1500 then
      let s := s.setPath p { h with vset := (s.vsetCode p h.target).getD h.vset }
      (s.setPort p { s.port p with ppsLimit := false }).setPgLow p h.target
    else s
  else s

/-- R482: a result reaches tile logic ahead of the link. -/
def execTileResult (p : Port) (volt : Bool) (x : Int) (s : State) : Host.Outcome State Fault Refusal :=
  done (if volt then s.vbusResult p x else (s.setPath p { s.path p with iNow := x }).ppsServo p x)

/-- VBUS is above 0.8 V during a discharge (R131): by the latest result, or by WIN_V where no results come. -/
def State.vbusHigh (s : State) (p : Port) : Bool :=
  if s.vbusServed p then decide (40000 ≤ (s.path p).vNow) else (s.cmp (winV p)).l

/-- R131: VBUS is still above 0.8 V after DSCH_MAX: DSCH_FAIL and lockout; the discharge ends. -/
def execDschMaxExpiry (p : Port) (s : State) : Host.Outcome State Fault Refusal :=
  done (
    if (s.path p).dsch ∧ (s.path p).gate = .off ∧ s.vbusHigh p then
      ((s.recordFault p Flt.dschFail).dischargeEnd p).lockOut p
    else s)

/-- R132: current above 0.2 A for 1 ms after a completed turn-off: FET_STUCK, VSET to code 0, discharge off, lockout. -/
def execFetStuck (p : Port) (s : State) : Host.Outcome State Fault Refusal :=
  done (
    if (s.path p).gate = .off ∧ !(s.path p).turning then
      let s := s.recordFault p Flt.fetStuck
      let s := if (s.path p).dsch then s.dischargeEnd p else s
      (s.setPath p { s.path p with vset := 0 }).lockOut p
    else s)

/-- R137, R119: RETRY_DELAY after the gate-off a retry ramp starts and the count drops; after FET_OT only once TJ_MODEL is
below FET_TWARN. The ramp is a start under an implicit contract: the tile's target and current are the implicit ones. -/
def execRetryDelayExpiry (p : Port) (s : State) : Host.Outcome State Fault Refusal :=
  done (
    let h := s.path p
    if h.retryWait ∧ !(h.otWait ∧ 10 * s.rP p Kp.fetTwarn ≤ s.rP p Kp.tjModel) then
      let s := (s.setPath p { h with retryWait := false, otWait := false }).wP p Kp.retryLeft (s.rP p Kp.retryLeft - 1)
      let s := s.tileEvent p 0x1400 12
      let s := (s.setPp p Pp.off).implicitTarget p
      if s.sinkRole p then s.sinkOn p else s.startRamp p .source 500
    else s)

/-- R137 item 3: the count is restored after RETRY_RESET of PG without a fault. -/
def execRetryResetExpiry (p : Port) (s : State) : Host.Outcome State Fault Refusal :=
  done (if s.rP p Kp.pg = 1 then s.wP p Kp.retryLeft (s.rP p Kp.retryCount) else s)

/-- A PP_CMD code for the tile of port `p`: in link hold it waits for the link (R22, R32). -/
def State.pathCmd (s : State) (p : Port) (c : Nat) (f : State → State) : State := if s.held p then s.toTile p (.cmd p c) else f s

/-- Lockout ends (R138): the CC pins are released and the port attaches normally, or is DISABLED where DISABLE came in the lockout
(R73). -/
def State.clearLockout (s : State) (p : Port) : State :=
  if (s.path p).lockout then
    let s := s.setPath p { s.path p with lockout := false }
    let s := (s.wP p Kp.retryLeft (s.rP p Kp.retryCount)).setPp p (s.offState p)
    if (s.path p).cut ∨ (s.path p).safe then s else s.leaveRecovery p
  else s

/-- PP_CMD CLEAR_LOCKOUT (R138). -/
def execPpCmdClearLockout (p : Port) (s : State) : Host.Outcome State Fault Refusal := done (s.pathCmd p 1 fun s => s.clearLockout p)

/-- PP_CMD CLEAR_FAULT_SET (R148): PP_FAULT_SET reads 0. -/
def execPpCmdClearFaultSet (p : Port) (s : State) : Host.Outcome State Fault Refusal :=
  done (s.wP p Kp.ppFaultSet 0)

/-- FORCE_OFF reaches the tile (R130, R137, R161): FORCE is asserted, the gate is turned off, retries are suspended. -/
def State.forceOff (s : State) (p : Port) : State :=
  let keep := (s.path p).cut || (s.path p).safe || (s.path p).lockout
  let s := s.gateOff p (if keep then s.rP p Kp.ppState else Pp.forcedOff)
  s.setPath p { (s.path p).suspendRetry with force := true }

/-- RELEASE_FORCE_OFF reaches the tile (R137): FORCE ends; a suspended retry starts RETRY_DELAY after the release; a path still
requested on starts its ramp. -/
def State.releaseForce (s : State) (p : Port) : State :=
  let h := s.path p
  if h.force then
    let wait := h.retrySusp && !h.cut && !h.safe
    let s := s.setPath p { h with force := false, retryWait := wait, retrySusp := h.retrySusp && !wait }
    if h.cut || h.safe || h.lockout then s
    else if wait then s.setPp p Pp.retryWait
    else
      let s := s.setPp p Pp.off
      if bit (s.ctrl p) 0 then s.sourceOn p else if bit (s.ctrl p) 1 then s.sinkOn p else s
  else s

/-- PP_CMD FORCE_OFF. -/
def execPpCmdForceOff (p : Port) (s : State) : Host.Outcome State Fault Refusal := done (s.pathCmd p 3 fun s => s.forceOff p)

/-- PP_CMD RELEASE_FORCE_OFF. -/
def execPpCmdReleaseForceOff (p : Port) (s : State) : Host.Outcome State Fault Refusal := done (s.pathCmd p 4 fun s => s.releaseForce p)

/-- The fault of a digital-protection trip (Table 4.3). -/
def tripFault (c : DpCause) : Nat :=
  match c with
  | .i2t => Flt.i2t
  | .soa => Flt.soa
  | .fetOt => Flt.fetOt
  | .rcp => Flt.rcp

/-- The fault codes of the causes of a trip, lowest first. -/
def tripFaults (g : List DpCause) : List Nat := [Flt.i2t, Flt.soa, Flt.fetOt, Flt.rcp].filter fun k => g.any fun c => decide (tripFault c = k)

/-- R19, R161: the trip block that carries cause `c` reaches the tile and turns the gate off, with the faults of the causes detected in
one cycle with it (R135); it reaches the tile only while the link is up (R139). -/
def execDpTripBlock (p : Port) (c : DpCause) (s : State) : Host.Outcome State Fault Refusal :=
  done (
    match (s.path p).trips.find? fun g => g.contains c with
    | some g =>
      if s.lath (tileOf p) = 0 then
        (s.setPath p { s.path p with trips := (s.path p).trips.erase g }).pathFaults p (tripFaults g)
      else s
    | none => s)

/-- R111, R131: the gate-source voltage falls below 1.0 V, turn-off is complete; the discharge turns on, the lower
threshold of WIN_V goes to 0.8 V, which WIN_V judges on its input `x` (a DAC code), and the comparators leave MODE (R153). Where no
VBUS results come and L is clear, the discharge has nothing to do. -/
def execTurnOffComplete (p : Port) (x : Int) (s : State) : Host.Outcome State Fault Refusal :=
  done (
    if (s.path p).turning ∧ (s.path p).gate = .off then
      let s := s.setPath p { s.path p with turning := false, dsch := true }
      let s := s.wC (winV p) Kc.loCode code800mV
      let s := if (s.cmp (winV p)).checking ∨ (s.cmp (winV p)).settling then s else s.evalCmp (winV p) x
      let s := if s.rP p Kp.ppState = Pp.off then s.setPp p Pp.discharge else s
      let s := s.idleCmps p
      if s.vbusHigh p ∨ s.vbusServed p then s else s.dischargeEnd p
    else s)

end Sys2Proof.Machine
end

