-- ==== Sys2Proof/Machine/Cmp.lean ====
section
/-! DEFINITION. The meanings of the comparator commands ("Window Comparators and the Scrim"). -/

namespace Sys2Proof.Machine

/-- What comparator `c` of Table 5.1 watches. -/
inductive Watched where
  | portI (p : Port) | portV (p : Port) | rail (n : Rail) | feedV (f : Feed) | feedI (f : Feed)
  deriving DecidableEq, Repr

/-- Table 5.1 by comparator number. -/
def watchedBy (c : Cmp) : Watched :=
  if c.val < 64 then .portI (Fin.ofNat 64 c.val)
  else if c.val < 128 then .portV (Fin.ofNat 64 (c.val - 64))
  else if c.val < 160 then .rail (Fin.ofNat 32 (c.val - 128))
  else if c.val % 2 = 0 then .feedV (Fin.ofNat 2 ((c.val - 160) / 2))
  else .feedI (Fin.ofNat 2 ((c.val - 160) / 2))

/-- Whether the watched path of comparator `c` is live (R153). -/
def State.cmpLive (s : State) (c : Cmp) : Bool :=
  match watchedBy c with
  | .portI p => s.portLive p
  | .portV p => s.portLive p
  | .rail n => (s.rail n).en
  | .feedV f => s.feedRuns f
  | .feedI f => s.feedRuns f

/-- Whether comparator `c` runs in MODE (R153): its path is live, or its check for a start of the path is under way. -/
def State.cmpInMode (s : State) (c : Cmp) : Bool :=
  s.cmpLive c || match watchedBy c with
    | .rail n => decide (s.railState n = Rs.check)
    | .feedV f => (s.feed f).starting
    | .feedI f => (s.feed f).starting
    | .portI _ => false
    | .portV _ => false

/-- Bit H has moved to its fault side by a crossing of a resolved bit: not at a start without history (R155, R161). -/
def roseH (old new : CmpHw) : Bool := new.h && !old.h && !new.hUnres && !old.noHist

/-- The path of a comparator follows its new output (R161, R162, R165); `old` is the comparator before. -/
def State.cmpActs (s : State) (c : Cmp) (old : CmpHw) : State :=
  let new := s.cmp c
  match watchedBy c with
  | .portI p =>
    let ramping := decide ((s.path p).gate = .ramp ∨ (s.path p).gate = .pre)
    let s := if roseH old new then s.pathFault p (if ramping then Flt.rampShort else Flt.short) else s
    s.limitWatch p
  | .portV p =>
    let s := if new.l && !new.h && (!old.l || old.h) then s.setPath p { s.path p with inTb := some s.tb } else s
    let s := if roseH old new then s.pathFault p Flt.ovp else s
    s.dischargeWatch p
  | .rail n => s.railWatch n (!old.h || old.hUnres)
  | .feedV f => s.feedWatch f new FeedFlt.ov .inputLow
  | .feedI f => s.feedWatch f new FeedFlt.short .reverse

/-- COMPARATOR_CROSSING (R150, R154, R155): the input crosses a threshold or leaves a hysteresis band; while a comparator
is checked its input is disconnected, and while it settles its output is not evaluated. -/
def execComparatorCrossing (c : Cmp) (x : Int) (s : State) : Host.Outcome State Fault Refusal :=
  done (
    let k := s.cmp c
    if k.checking || k.settling || s.asleep 4 then s
    else
      let s := s.evalCmp c x
      (match watchedBy c with
        | .feedV f => s.feedInput f (2 * x)
        | _ => s).cmpActs c k)

/-- What follows from the level of a comparator's outputs where it starts without history, which is no crossing (R155): the fault timer
of a path in current limit (R115) and the end of a discharge (R131). -/
def State.cmpStands (s : State) (c : Cmp) : State :=
  match watchedBy c with
  | .portI p => s.limitWatch p
  | .portV p => s.dischargeWatch p
  | .rail _ | .feedV _ | .feedI _ => s

/-- COMPARATOR_SETTLE_END (R153, R155): after a change to MODE the comparator starts without history. -/
def execComparatorSettleEnd (c : Cmp) (x : Int) (s : State) : Host.Outcome State Fault Refusal :=
  done (
    if (s.cmp c).settling then
      ((s.setCmp c { s.cmp c with settling := false, noHist := true }).evalCmp c x).cmpStands c
    else s)

/-- LATCH_PERIOD_BOUNDARY (R154): under PERIOD each latch loads whether its live bit stands on the fault side. -/
def execLatchPeriodBoundary (c : Cmp) (s : State) : Host.Outcome State Fault Refusal :=
  done (
    if s.rC c Kc.latchClr = 1 then
      (s.setLatch c true (s.cmp c).h).setLatch c false (decide ((s.cmp c).l = faultL c))
    else s)

/-- The latches of a comparator cleared by a write, which only LATCH_CLR FW allows (R154). -/
def State.clearLatch (s : State) (c : Cmp) : State :=
  if s.rC c Kc.latchClr = 0 then s.setCmp c { s.cmp c with hLatch := false, lLatch := false } else s

/-- CMP_CMD 0x01 CLEAR_LATCH (R154). -/
def execCmpCmdClearLatch (c : Cmp) (s : State) : Host.Outcome State Fault Refusal := done ((s.clearLatch c).reply 0)

/-- A self-check on command (R157): BUSY while the watched path is live. -/
def State.selfCheck (s : State) (c : Cmp) : State :=
  if s.cmpLive c then s.reply 1 else (s.startCheck c).reply 0

/-- CMP_CMD 0x02 SELFCHK (R157). -/
def execCmpCmdSelfchk (c : Cmp) (s : State) : Host.Outcome State Fault Refusal := done (s.selfCheck c)

/-- The engine block that local accesses of engine `e` reach: its own, or for PE16 that of the engine whose ports it has
adopted (R302). -/
def State.enginePorts (s : State) (e : Eng) : Option Nat :=
  if e.val < 16 then some e.val
  else if s.rd K.adoptEng < 16 then some (s.rd K.adoptEng).toNat
  else none

/-- CMP_SELFCHK GO (R157, Table 5.5): PORT and WHICH as written; RESULT 3 where the check is refused, otherwise it runs. -/
def State.selfchkGo (s : State) (b : Nat) (q : Fin 4) (v : Bool) : State :=
  let p : Port := Fin.ofNat 64 (4 * b + q.val)
  let c := if v then winV p else winI p
  let word : Int := (q.val : Int) + (if v then 4 else 0)
  if s.cmpLive c then s.iow b 0x2018 (word + 48)
  else
    let s := (s.iow b 0x2018 (word + 8)).startCheck c
    s.setCmp c { s.cmp c with asked := true }

/-- CMP_SELFCHK GO set in the mirror of engine `e`. -/
def execCmpSelfchkGo (e : Eng) (q : Fin 4) (v : Bool) (s : State) : Host.Outcome State Fault Refusal :=
  done (
    match s.enginePorts e with
    | some b =>
      let p : Port := Fin.ofNat 64 (4 * b + q.val)
      if s.held p then s.toTile p (.io b 0x2018 (q.val + (if v then 12 else 8))) else s.selfchkGo b q v
    | none => s)

/-- The failing step of Table 5.3, 0 where every step reads as expected. -/
def checkStep (o : CheckOut) : Nat :=
  if o.h1 || o.l1 then 1 else if !(o.h2 && o.l2) then 2 else if !(o.h3 && o.l3) then 3 else 0

/-- The result of a check requested through the mirror: GO clears, RESULT and STEP stand (Table 5.5); PORT and WHICH are as last
written. -/
def State.mirrorResult (s : State) (c : Cmp) (step : Nat) : State :=
  if (s.cmp c).asked then
    let b := c.val % 64 / 4
    (s.setCmp c { s.cmp c with asked := false }).report (cmpPort c)
      (.reads b 0x2018 ((fieldOf (s.ior b 0x2018) 0 3 : Nat) + (if step = 0 then 16 else 32) + 64 * step : Int))
  else s

/-- R159: what a failed check does to the watched path. -/
def State.checkFailed (s : State) (c : Cmp) : State :=
  match watchedBy c with
  | .portI p => s.safeOff p 1
  | .portV p => s.safeOff p 1
  | .rail n => s.railChecked n false
  | .feedV f => s.feedChecked f false
  | .feedI f => s.feedChecked f false

/-- A CLEAR_SAFE that awaits this comparator (R461): the port leaves SAFE_OFF once both checks have passed, and the command fails
with the first that does not. -/
def State.degChecked (s : State) (c : Cmp) : State :=
  match s.power.deg with
  | some (.clearSafe p) =>
    let quit (s : State) (r : Int) : State := { s.wr K.degResult r with power := { s.power with deg := none } }
    if c ≠ winI p ∧ c ≠ winV p then s
    else if (s.cmp c).chkFail then quit s 3
    else if (s.cmp (winI p)).checking || (s.cmp (winV p)).checking then s
    else quit ((s.leaveSafe p).toUnattached p) 2
  | _ => s

/-- SELF_CHECK_END (R156, R158, R159): a pass clears CHK_FAIL and the comparator starts without history on input `x`; a
failure sets CHK_FAIL, counts it and keeps the path off. -/
def execSelfCheckEnd (c : Cmp) (o : CheckOut) (x : Int) (s : State) : Host.Outcome State Fault Refusal :=
  done (
    if (s.cmp c).checking then
      let step := checkStep o
      let s := s.setCmp c { s.cmp c with checking := false, settling := false, noHist := true, chkFail := decide (step ≠ 0) }
      let s := (((s.mirrorResult c step).evalCmp c x).cmpStands c).degChecked c
      if step ≠ 0 then ((s.count (keyC c Kc.chkCount)).alert 5).checkFailed c
      else match watchedBy c with
        | .rail n => s.railChecked n true
        | .feedV f => s.feedChecked f true
        | .feedI f => s.feedChecked f true
        | .portI p => s.frsChecked p
        | .portV p => s.frsChecked p
    else s)

end Sys2Proof.Machine
end

