-- ==== Sys2Proof/Machine/Pd.lean ====
section
/-! DEFINITION. The meanings of the protocol, contract, swap and PORT_CMD commands ("Port Attach, Roles and Power
Contracts", from PD support on). -/

namespace Sys2Proof.Machine

/-! Answers to received messages. Each is what the owning engine does with a message that it reads. -/

/-- A message that asks for a swap. -/
def TxMsg.asksSwap (m : TxMsg) : Bool := (swapOf m.kind).isSome

/-- R63: a partner message that starts an AMS cancels a swap request of the device that has not been sent: one that waits for tSinkTx, or
behind the message on the wire. -/
def State.cancelSwap (s : State) (p : Port) : State :=
  let h := s.port p
  if h.sinkTx.any TxMsg.asksSwap || (h.tx.drop 1).any TxMsg.asksSwap then
    s.setPort p { h.cancelCmd with
      sinkTx := h.sinkTx.filter fun m => !m.asksSwap, tx := h.tx.take 1 ++ (h.tx.drop 1).filter fun m => !m.asksSwap, swap := none }
  else s

/-- The messages that start an AMS of the partner. -/
def startsAms : RxMsg → Bool
  | .accept | .reject | .wait | .psRdy | .ping | .security _ | .sinkCapabilities _ | .cableIdentity _ => false
  | _ => true

/-- The messages outside the message set of Revision 2.0, to which a Revision 2.0 partner is held (Table 2.4). -/
def beyondRev2 : RxMsg → Bool
  | .request epr _ _ _ _ => epr
  | .eprEnter _ | .eprExit | .keepAlive | .getStatus | .getPpsStatus | .getRevision | .getManufacturerInfo | .getSourceInfo
  | .getSourceCapExtended | .frSwap | .security _ => true
  | _ => false

/-- The greatest current that an offered object allows at voltage `v` (10 mV), 10 mA (R54, R58). -/
def objLimit (o v : Int) : Int :=
  match pdoKind o with
  | .fixed => fieldOf o 0 10
  | .pps => 5 * fieldOf o 0 7
  | .sprAvs => if v ≤ 1500 then fieldOf o 10 10 else fieldOf o 0 10
  | .eprAvs => min 500 (10000 * fieldOf o 0 8 / max 1 v / 5 * 5)

/-- The contract that a request for voltage `v` and current `i` of the object at `pos` leads to (R76): a fixed object
fixes the voltage, an AVS object the current. -/
def wantedOf (o : Int) (pos : Nat) (v i : Int) (epr : Bool) : Wanted :=
  match pdoKind o with
  | .fixed => { pos := pos, v := pdoHigh o, i := i, mode := 0, epr := epr }
  | .pps => { pos := pos, v := v, i := i, mode := 1, epr := epr }
  | _ => { pos := pos, v := v, i := objLimit o v, mode := 2, epr := epr }

/-- The request lies beyond the object as sent (R54). An AVS request names no more than the object's limit. -/
def exceeds (o v i : Int) : Bool :=
  decide (objLimit o v < i) || (decide (pdoKind o ≠ .fixed) && (decide (v < pdoLow o) || decide (pdoHigh o < v)))

/-- The cable was what the request exceeds (R54): its current, or its voltage by the class of R53. -/
def State.cableBeyond (s : State) (p : Port) (o i : Int) : Bool :=
  let cls := if pdoKind o = .pps then min 2000 (pdoHigh o) else pdoHigh o
  decide (s.rP p Kp.cableIMax < i) || decide (s.rP p Kp.cableVMax < cls)

/-- R54: a Request or EPR_Request. -/
def State.rxRequest (s : State) (p : Port) (epr : Bool) (pos : Nat) (v i pdo : Int) : State :=
  if s.rP p Kp.powerRole ≠ 1 then s.unexpected p
  else
    let s := s.setPort p { s.port p with awaits := none }
    let o := (s.port p).offer.getD (pos - 1) 0
    if pos = 0 ∨ o = 0 ∨ (epr ∧ (!(s.port p).eprMode ∨ o ≠ pdo)) then s.softReset p
    else if exceeds o v i ∨ s.cableBeyond p o i then
      let s := if s.cableBeyond p o i then s.pdFault p PdF.cableLimit else s
      (s.reject p (some .request)).toStanding p
    else
      let w := wantedOf o pos v i epr
      let pw := ceilDiv (w.v * w.i) 1000
      let s := s.admitPower p pw
      let r := s.lqResult p
      if r = 1 then
        ((s.setPort p { s.port p with wanted := some w }).sendKind p .accept [] (some .request)).wP p Kp.contract Ctr.transition
      else if r = 2 ∧ s.rP p Kp.waitOnBudget = 1 then
        (((s.enterWait p pw).sendKind p .wait [] (some .request)).pdCount p 7).wP p Kp.contract Ctr.waitingBudget
      else (s.reject p (some .request)).toStanding p

/-- R59: EPR_Mode (Enter). The entry is acknowledged where every condition of R59 holds now; the cable is discovered again
before it succeeds. -/
def State.rxEprEnter (s : State) (p : Port) (pdp : Int) : State :=
  if s.rP p Kp.eprEn = 0 then s.sendKind p .eprEnterFail [EprFail.unsupported]
  else if s.rP p Kp.cableEpr ≠ 1 then s.sendKind p .eprEnterFail [EprFail.cable]
  else if s.rP p Kp.powerRole = 1 ∧ s.explicitContract p ∧ !(s.port p).eprMode ∧ !s.eprStands p then
    let w := s.eprPower p pdp
    let s := s.admitPower p w true
    if s.lqResult p = 1 then
      (((s.setPort p { s.port p with eprEntering := true, eprGrant := w }).flag (keyP p Kp.partnerFlags) 2 true).sendKind p .eprEnterAck)
    else s.sendKind p .eprEnterFail [EprFail.unable]
  else s.sendKind p .eprEnterFail [EprFail.unable]

/-- R60: EPR_Mode (Exit) from the partner; SPR Source_Capabilities follow. -/
def State.rxEprExit (s : State) (p : Port) : State :=
  if (s.port p).eprMode then (s.leaveEpr p).sendCaps p false else s.unexpected p

/-- R62: an incoming swap. In EPR mode a PR_Swap is accepted only after EPR_Mode (Exit) and an SPR contract (R60); that it is answered
Wait until then is a DESIGN CHOICE (log entry 145). -/
def State.rxSwap (s : State) (p : Port) (k : SwapKind) : State :=
  let ok := s.explicitContract p && s.swapPossible p k && bit (s.rP p Kp.swapPolicy) (swapBit k)
  if !ok then s.reject p (some (swapMsg k))
  else if k = .pr ∧ ((s.port p).eprMode ∨ s.eprStands p) then
    let t := (s.sendKind p .wait [] (some (swapMsg k))).pdCount p 7
    if (s.port p).eprMode then t.startAms p { kind := .eprExit, objs := [], re := none } else t
  else
    (s.setPort p { s.port p with swap := some { kind := k, ours := false, accepted := false, give := false } }).sendKind p
      .accept [] (some (swapMsg k))

/-- R71: a Soft_Reset from the partner: the protocol layer is reset and PROTOCOL_ERROR recorded. -/
def State.rxSoftReset (s : State) (p : Port) : State :=
  let s := s.softClear p
  let s := s.setPort p { s.port p with held := [] }
  (((s.sendKind p .accept [] (some .softReset)).pdCount p 3).pdFault p PdF.protocolError)

/-- What follows an accepted Soft_Reset: a source sends its capabilities again. -/
def State.softDone (s : State) (p : Port) : State :=
  if s.rP p Kp.powerRole = 1 then s.capsNow p else s

/-- R50: Discover Identity on SOP: the ID Header, Cert Stat and Product VDOs, or NAK while USB_VID is 0. The ID Header
carries Product Type (UFP) PDUSB Peripheral as sink and Product Type (DFP) Power Brick as source. -/
def State.rxIdentity (s : State) (p : Port) : State :=
  if s.rP p Kp.usbVid = 0 then s.sendKind p .vdmNak
  else
    let ptype : Int := if s.rP p Kp.powerRole = 2 then 2 * 2 ^ 27 else if s.rP p Kp.powerRole = 1 then 3 * 2 ^ 23 else 0
    s.sendKind p .identity
      [s.rP p Kp.usbVid + ptype, s.rP p Kp.xid, s.rP p Kp.usbPid * 65536 + s.rP p Kp.bcdDevice]

/-- R49: the fixed answers of Table 2.5. -/
def State.rxAbsent (s : State) (p : Port) (a : Absent) : State :=
  match a with
  | .vdmCommand => s.sendKind p .vdmNak
  | .vdmAttention | .bistSharedTest => s
  | .eprEnterDisabled => s.sendKind p .eprEnterFail [EprFail.unsupported]
  | _ => s.notSupported p

/-- R64: Sink_Capabilities naming a Fast Role Swap current: the port is armed once the ledger grants that current at 5 V; not while a
shed is in force for it (R84). -/
def State.rxSinkCaps (s : State) (p : Port) (frs : Int) : State :=
  let s := s.flag (keyP p Kp.partnerFlags) 1 (decide (0 < frs))
  if 0 < frs ∧ s.rP p Kp.attachState = Att.snk ∧ bit (s.rP p Kp.swapPolicy) 4 ∧ (s.lport p).shedAllot = none then
    let s := (s.setPort p { s.port p with frsCurrent := frs.toNat }).admitPower p (ceilDiv (500 * frs) 1000) true
    if s.lqResult p = 1 then s.requestFrs p else s
  else s

/-- R65: a Security_Response: GET_DIGESTS leads to GET_CERTIFICATE, whose parts are asked for until the chain is whole; the
chain and the challenge go to the security block. -/
def State.rxSecurity (s : State) (p : Port) (last : Bool) : State :=
  let h := s.port p
  if h.authStep = 0 then s.unexpected p
  else
    let s := s.setPort p { h with awaits := none }
    if h.authStep = 1 then s.authRequest p 2
    else if h.authStep = 2 ∧ !last then s.authRequest p 2
    else s

/-- What an offered object `o` and an object `k` of SNK_PDO have in common, the voltage (10 mV) and current (10 mA) to request: a fixed
voltage of both, or the highest voltage of both PPS ranges. A sink takes no AVS object (Table 2.4). -/
def snkMeets (o k : Int) : Option (Int × Int) :=
  match pdoKind o, pdoKind k with
  | .fixed, .fixed => if pdoHigh o = pdoHigh k then some (pdoHigh o, min (objLimit o (pdoHigh o)) (fieldOf k 0 10)) else none
  | .pps, .pps =>
    let v := min (pdoHigh o) (pdoHigh k)
    if max (pdoLow o) (pdoLow k) ≤ v then some (v, min (objLimit o v) (5 * fieldOf k 0 7)) else none
  | _, _ => none

/-- The request that the sink port can make of the object at each position: what SNK_PDO requests (R62). -/
def State.snkChoices (s : State) (p : Port) (pdos : List Nat) : List Wanted :=
  (pdos.zipIdx.filter fun x => decide (x.1 ≠ 0)).filterMap fun x =>
    ((s.pdos p Kp.snkPdo 7).findSome? fun k => snkMeets x.1 k).map fun r => wantedOf x.1 (x.2 + 1) r.1 r.2 false

/-- R62: Source_Capabilities at a sink: a Request for what SNK_PDO requests, of one of the objects that offer it. Which of them is a free
choice; where none does, the first object is requested at no current (log entry 22). -/
def State.rxSourceCaps (s : State) (p : Port) (pdos : List Nat) : State :=
  if s.rP p Kp.powerRole ≠ 2 ∨ pdos = [] then s.unexpected p
  else
    let l := s.snkChoices p pdos
    let first : Int := pdos.headD 0
    let w := l.getD (Config.sinkPick pdos (s.pdos p Kp.snkPdo 7) % l.length) { pos := 1, v := pdoHigh first, i := 0, mode := 0, epr := false }
    let s := (s.flag (keyP p Kp.partnerFlags) 0 (bit (pdos.headD 0) 29)).flag (keyP p Kp.partnerFlags) 3 (bit (pdos.headD 0) 27)
    let s := s.setPort p { s.port p with wanted := some w, awaits := none }
    s.sendKind p .request [w.pos, w.v, w.i]

/-- R128, R129, R147: the partner of a sink accepts the Request: PP_TARGET takes the contract, and WIN_V opens toward the new
voltage, the upper threshold on a rise, the lower one on a fall. -/
def State.sinkMoves (s : State) (p : Port) (w : Wanted) : State :=
  let s := s.putTarget p w.v w.i
  if (s.path p).dir = .sink then (if (s.path p).target < w.v then s.setOvp p w.v else s.setPgLow p w.v) else s

/-- The partner of a sink reports the new voltage: both thresholds stand at it. -/
def State.sinkMoved (s : State) (p : Port) (w : Wanted) : State :=
  if (s.path p).dir = .sink then (s.setPath p { s.path p with target := w.v }).setWinV p w.v else s

/-- Accept for the device's own Request, swap or Soft_Reset (R63). -/
def State.rxAccept (s : State) (p : Port) : State :=
  match (s.port p).awaits with
  | some .request =>
    let s := (s.setPort p { s.port p with awaits := none }).wP p Kp.contract Ctr.transition
    match (s.port p).wanted with
    | some w => s.sinkMoves p w
    | none => s
  | some .softReset => (s.setPort p { s.port p with awaits := none }).softDone p
  | some k =>
    match swapOf k with
    | some w => (s.setPort p { s.port p with awaits := none }).swapAccepted p w
    | none => s.unexpected p
  | none => s.unexpected p

/-- Reject or Wait for the device's own Request or swap: the AMS ends with the contract and the roles as they stood. -/
def State.rxRefusal (s : State) (p : Port) : State :=
  match (s.port p).awaits with
  | some .request => (s.setPort p { s.port p with awaits := none, wanted := none }).toStanding p
  | some k =>
    if (swapOf k).isSome then s.setPort p { s.port p with awaits := none, swap := none } else s.unexpected p
  | none => s.unexpected p

/-- R65: the first explicit contract starts the authentication of a partner that has not been authenticated. -/
def State.firstAuth (s : State) (p : Port) (first : Bool) : State :=
  if first ∧ s.rP p Kp.authPolicy ≠ 0 ∧ s.rP p Kp.authState = 0 then s.authStart p else s

/-- PS_RDY from the partner (R62): it completes a sink contract, the partner's half of a PR_Swap, or its VCONN. -/
def State.rxPsRdy (s : State) (p : Port) : State :=
  match (s.port p).swap with
  | some w =>
    if !w.accepted then s.unexpected p
    else
      match w.kind with
      | .vconn =>
        if w.give then ((s.vconnOff p).wP p Kp.vconnState 3).setPort p { s.port p with swap := none } else s.unexpected p
      | .pr =>
        if w.give then
          (((s.setPort p { s.port p with swap := none }).setCtrl p 1 true).sinkOn p)
        else (s.becomeSource p).sourceOn p
      | .dr => s.unexpected p
  | none =>
    match (s.port p).wanted with
    | some w =>
      if s.rP p Kp.powerRole = 2 ∧ s.rP p Kp.contract = Ctr.transition then
        ((s.makeContract p w).sinkMoved p w).firstAuth p (!s.explicitContract p)
      else s.unexpected p
    | none => s.unexpected p

/-- R53: Get_Source_Cap on a source-capable port; on a SINK-role port it is an absent function (R49). -/
def State.rxGetSourceCap (s : State) (p : Port) : State :=
  if s.rP p Kp.role = 1 then s.notSupported p else s.capsNow p

/-- R72: Get_Sink_Cap: Sink_Capabilities from SNK_PDO, which applies here; absent on a SOURCE-role port (R49). -/
def State.rxGetSinkCap (s : State) (p : Port) : State :=
  if s.rP p Kp.role = 0 then s.notSupported p
  else
    let s := s.applyKeys ((List.range 7).map fun k => keyP p (Kp.snkPdo + k))
    s.sendKind p .sinkCaps (s.pdos p Kp.snkPdo 7)

/-- R64: FR_Swap received after the switch-over: Accept and PS_RDY complete the exchange; the port is the source under
the implicit contract, which books nothing (R76). -/
def State.rxFrSwap (s : State) (p : Port) : State :=
  if s.rP p Kp.attachState = Att.snk ∧ (s.path p).dir = .source ∧ (s.path p).gate = .on then
    let s := (s.sendKind p .accept).sendKind p .psRdy
    ((s.clearContract p).becomeSource p).book p 0
  else s.unexpected p

/-- R48, R66: a BIST message: the tile runs Carrier Mode or Test Data; an unrecognised mode is ignored. -/
def State.rxBist (s : State) (p : Port) (m : BistMode) : State :=
  match m with
  | .unknown => s
  | m => s.setPort p { s.port p with bist := some m }

/-- R51: the cable's answer to Discover Identity on SOP′; the offer or the EPR entry that waited for it goes on. -/
def State.rxCable (s : State) (p : Port) (c : CableVdo) : State :=
  if (s.port p).cableTries = 0 ∨ (s.port p).vconnOc then s
  else
    let epr := decide (500 ≤ c.current ∧ 5000 ≤ c.voltage) && c.eprCapable
    let s := ((((s.wP p Kp.cableVdo c.vdo).wP p Kp.cableIMax c.current).wP p Kp.cableVMax c.voltage).wP p Kp.cableEpr
      (b2i epr)).wP p Kp.cableState 2
    let s := s.setPort p { s.port p with cableKnown := true, cableTries := 0, tx := (s.port p).tx.filter (·.kind ≠ .discoverCable) }
    if (s.port p).eprEntering then s.eprOutcome p epr else s.sendCaps p true

/-- Status (R48): the temperature of the thermal model in °C and the OCP, OTP and OVP conditions. -/
def State.statusObjs (s : State) (p : Port) : List Int :=
  let f := s.rP p Kp.ppFaultSet
  [s.rP p Kp.tjModel / 10, b2i (bit f Flt.overcurrent), b2i (bit (s.rP p Kp.ppFlags) 3), b2i (bit f Flt.ovp)]

/-- What the owning engine does with a message that it reads. During a power transition everything but Ping is answered
with Hard Reset (R484). Get_PPS_Status outside a PPS contract is answered Not_Supported: DESIGN CHOICE (log entry 146); the
functions that Table 2.4 gives sources only are not supported on a port in the sink role (R48). -/
def State.rxAct (s : State) (p : Port) (m : RxMsg) : State :=
  let s := if startsAms m then s.cancelSwap p else s
  if s.inTransition p ∧ m ≠ .ping ∧ ¬ (m = .psRdy ∧ s.inPrSwap p ∧ s.rP p Kp.powerRole = 2) then s.hardReset p PdF.hardResetSent
  else if s.rP p Kp.pdRev = 2 ∧ beyondRev2 m then s.notSupported p
  else
    match m with
    | .request epr pos v i pdo => s.rxRequest p epr pos v i pdo
    | .eprEnter pdp => s.rxEprEnter p pdp
    | .eprExit => s.rxEprExit p
    | .keepAlive => if (s.port p).eprMode then
        (s.setPort p { s.port p with eprTimer := true }).sendKind p .keepAliveAck else s.unexpected p
    | .prSwap => s.rxSwap p .pr
    | .drSwap => s.rxSwap p .dr
    | .vconnSwap => s.rxSwap p .vconn
    | .softReset => s.rxSoftReset p
    | .discoverIdentity => s.rxIdentity p
    | .absent a => s.rxAbsent p a
    | .unsupported bist => if bist then s else s.notSupported p
    | .ping => s
    | .alert => s
    | .unexpected => s.unexpected p
    | .sinkCapabilities frs => s.rxSinkCaps p frs
    | .security last => s.rxSecurity p last
    | .sourceCapabilities pdos => s.rxSourceCaps p pdos
    | .accept => s.rxAccept p
    | .reject => s.rxRefusal p
    | .wait => s.rxRefusal p
    | .psRdy => s.rxPsRdy p
    | .getSourceCap => s.rxGetSourceCap p
    | .getSinkCap => s.rxGetSinkCap p
    | .getStatus => s.sendKind p .status (s.statusObjs p)
    | .getPpsStatus => if bit (s.rP p Kp.partnerFlags) 4 then
        s.sendKind p .ppsStatus [(s.path p).vNow, (s.path p).iNow, b2i (s.port p).ppsLimit] else s.notSupported p
    | .getRevision => s.sendKind p .revision [3, 2]
    | .getManufacturerInfo =>
        let s := s.useText (keyP p Kp.mfrString)
        s.sendKind p .manufacturerInfo
          (s.rP p Kp.usbVid :: s.rP p Kp.usbPid :: (s.rdB (keyP p Kp.mfrString)).map fun (b : Nat) => (b : Int))
    | .getSourceInfo => if s.sinkRole p then s.notSupported p else
        s.sendKind p .sourceInfo [0, effAllot s p, s.rP p Kp.booking, freePower s]
    | .getSourceCapExtended => if s.sinkRole p then s.notSupported p else s.sendKind p .sourceCapsExt
        [s.rP p Kp.usbVid, s.rP p Kp.usbPid, s.rP p Kp.xid, s.rP p Kp.bcdDevice, effAllot s p / 10]
    | .frSwap => s.rxFrSwap p
    | .bist m => s.rxBist p m
    | .cableIdentity c => s.rxCable p c

/-- A message reaches the tile of port `p` (R66, R68, R69): it is neither acknowledged nor held while the device signals a
Hard Reset; a repeated MessageID is discarded; a message that the owner does not read is held, up to two, and a third is
dropped and counted in RX_OVF. -/
def State.rxServe (s : State) (p : Port) (id : Nat) (rev3 : Bool) (m : RxMsg) : State :=
  if !s.attached p ∨ (s.port p).hardReset = .signalling then s
  else if (s.port p).rxId = some id ∧ m ≠ .softReset then s
  else
    let s := s.setPort p { s.port p with rxId := some id }
    let s := if s.rP p Kp.pdRev = 0 then s.wP p Kp.pdRev (if rev3 then 3 else 2) else s
    if s.serving p then s.rxAct p m
    else if (s.port p).held.length < 2 then
      s.setPort p { s.port p with held := (s.port p).held ++ [{ msg := m, tb := s.tb }] }
    else s.pdCount p 10

/-- A message held for more than 15 ms, to which the float engine sends no reply (R68): what it does apart from its reply stands. A
message that only asks for a reply does nothing. -/
def State.rxLate (s : State) (p : Port) (m : RxMsg) : State :=
  match m with
  | .accept | .reject | .wait | .psRdy | .ping | .alert | .eprExit | .sinkCapabilities _ | .security _ | .cableIdentity _ => s.rxAct p m
  | .keepAlive | .softReset =>
    let t := s.rxAct p m
    t.setPort p { t.port p with tx := (t.port p).tx.filter fun x => decide (x.kind ≠ .keepAliveAck ∧ x.re ≠ some .softReset) }
  | _ => s

/-- The owner reads the messages held for port `p`, oldest first; the float engine replies to none older than 15 ms (R68). -/
def State.replayHeld (s : State) (p : Port) (float : Bool) : State :=
  let l := (s.port p).held
  let s := s.setPort p { s.port p with held := [] }
  l.foldl (fun s h => if float ∧ 1500000 < s.tb - h.tb then s.rxLate p h.msg else s.rxAct p h.msg) s

/-- RX_REQUEST (R54). -/
def execRxRequest (p : Port) (id : Fin 8) (rev3 epr : Bool) (pos v i pdo : Nat) (s : State) : Host.Outcome State Fault Refusal :=
  done (s.rxServe p id rev3 (.request epr pos v i pdo))

/-- RX_EPR_MODE_ENTER (R59). -/
def execRxEprModeEnter (p : Port) (id : Fin 8) (rev3 : Bool) (pdp : Nat) (s : State) : Host.Outcome State Fault Refusal :=
  done (s.rxServe p id rev3 (.eprEnter pdp))

/-- RX_EPR_MODE_EXIT (R60). -/
def execRxEprModeExit (p : Port) (id : Fin 8) (rev3 : Bool) (s : State) : Host.Outcome State Fault Refusal :=
  done (s.rxServe p id rev3 .eprExit)

/-- RX_EPR_KEEPALIVE (R60). -/
def execRxEprKeepalive (p : Port) (id : Fin 8) (rev3 : Bool) (s : State) : Host.Outcome State Fault Refusal :=
  done (s.rxServe p id rev3 .keepAlive)

/-- RX_PR_SWAP (R62). -/
def execRxPrSwap (p : Port) (id : Fin 8) (rev3 : Bool) (s : State) : Host.Outcome State Fault Refusal :=
  done (s.rxServe p id rev3 .prSwap)

/-- RX_DR_SWAP (R62). -/
def execRxDrSwap (p : Port) (id : Fin 8) (rev3 : Bool) (s : State) : Host.Outcome State Fault Refusal :=
  done (s.rxServe p id rev3 .drSwap)

/-- RX_VCONN_SWAP (R62). -/
def execRxVconnSwap (p : Port) (id : Fin 8) (rev3 : Bool) (s : State) : Host.Outcome State Fault Refusal :=
  done (s.rxServe p id rev3 .vconnSwap)

/-- RX_HARD_RESET (R69): a Hard Reset from the partner ends any transmission, cancels pending requests and starts the
sequence of Table 2.6; a source goes to vSafe0V tPSHardReset later, a sink is under the implicit contract at once (R70). -/
def execRxHardReset (p : Port) (s : State) : Host.Outcome State Fault Refusal :=
  done (
    if s.attached p then
      let src := decide (s.rP p Kp.powerRole = 1)
      let s := s.hardClear p (if src then .waitOff else .none)
      ((if src then s else s.wP p Kp.contract Ctr.none).pdCount p 2).pdFault p PdF.hardResetReceived
    else s)

/-- RX_SOFT_RESET (R71). -/
def execRxSoftReset (p : Port) (id : Fin 8) (rev3 : Bool) (s : State) : Host.Outcome State Fault Refusal :=
  done (s.rxServe p id rev3 .softReset)

/-- RX_DISCOVER_IDENTITY (R50). -/
def execRxDiscoverIdentity (p : Port) (id : Fin 8) (rev3 : Bool) (s : State) : Host.Outcome State Fault Refusal :=
  done (s.rxServe p id rev3 .discoverIdentity)

/-- RX_ABSENT_FUNCTION (R49). -/
def execRxAbsentFunction (p : Port) (id : Fin 8) (rev3 : Bool) (a : Absent) (s : State) : Host.Outcome State Fault Refusal :=
  done (s.rxServe p id rev3 (.absent a))

/-- RX_UNSUPPORTED (R48). -/
def execRxUnsupported (p : Port) (id : Fin 8) (rev3 bist : Bool) (s : State) : Host.Outcome State Fault Refusal :=
  done (s.rxServe p id rev3 (.unsupported bist))

/-- RX_UNEXPECTED (R484). -/
def execRxUnexpected (p : Port) (id : Fin 8) (rev3 : Bool) (m : Unx) (s : State) : Host.Outcome State Fault Refusal :=
  done (s.rxServe p id rev3 (match m with | .ping => .ping | .alert => .alert | .other => .unexpected))

/-- RX_SINK_CAPABILITIES (R64). -/
def execRxSinkCapabilities (p : Port) (id : Fin 8) (rev3 : Bool) (frs : Nat) (s : State) : Host.Outcome State Fault Refusal :=
  done (s.rxServe p id rev3 (.sinkCapabilities frs))

/-- RX_SECURITY_RESPONSE (R65). -/
def execRxSecurityResponse (p : Port) (id : Fin 8) (rev3 last : Bool) (s : State) : Host.Outcome State Fault Refusal :=
  done (s.rxServe p id rev3 (.security last))

/-- RX_SOURCE_CAPABILITIES (R62). -/
def execRxSourceCapabilities (p : Port) (id : Fin 8) (rev3 : Bool) (pdos : List Nat) (s : State) :
    Host.Outcome State Fault Refusal :=
  done (s.rxServe p id rev3 (.sourceCapabilities pdos))

/-- RX_ACCEPT (R63). -/
def execRxAccept (p : Port) (id : Fin 8) (rev3 : Bool) (s : State) : Host.Outcome State Fault Refusal :=
  done (s.rxServe p id rev3 .accept)

/-- RX_REJECT (R63). -/
def execRxReject (p : Port) (id : Fin 8) (rev3 : Bool) (s : State) : Host.Outcome State Fault Refusal :=
  done (s.rxServe p id rev3 .reject)

/-- RX_WAIT (R63). -/
def execRxWait (p : Port) (id : Fin 8) (rev3 : Bool) (s : State) : Host.Outcome State Fault Refusal :=
  done (s.rxServe p id rev3 .wait)

/-- RX_PS_RDY (R62). -/
def execRxPsRdy (p : Port) (id : Fin 8) (rev3 : Bool) (s : State) : Host.Outcome State Fault Refusal :=
  done (s.rxServe p id rev3 .psRdy)

/-- RX_GET_SOURCE_CAP (R53). -/
def execRxGetSourceCap (p : Port) (id : Fin 8) (rev3 : Bool) (s : State) : Host.Outcome State Fault Refusal :=
  done (s.rxServe p id rev3 .getSourceCap)

/-- RX_GET_SINK_CAP (R72). -/
def execRxGetSinkCap (p : Port) (id : Fin 8) (rev3 : Bool) (s : State) : Host.Outcome State Fault Refusal :=
  done (s.rxServe p id rev3 .getSinkCap)

/-- RX_GET_STATUS (R48). -/
def execRxGetStatus (p : Port) (id : Fin 8) (rev3 : Bool) (s : State) : Host.Outcome State Fault Refusal :=
  done (s.rxServe p id rev3 .getStatus)

/-- RX_GET_PPS_STATUS (R48). -/
def execRxGetPpsStatus (p : Port) (id : Fin 8) (rev3 : Bool) (s : State) : Host.Outcome State Fault Refusal :=
  done (s.rxServe p id rev3 .getPpsStatus)

/-- RX_GET_REVISION (R48). -/
def execRxGetRevision (p : Port) (id : Fin 8) (rev3 : Bool) (s : State) : Host.Outcome State Fault Refusal :=
  done (s.rxServe p id rev3 .getRevision)

/-- RX_GET_MANUFACTURER_INFO (R48). -/
def execRxGetManufacturerInfo (p : Port) (id : Fin 8) (rev3 : Bool) (s : State) : Host.Outcome State Fault Refusal :=
  done (s.rxServe p id rev3 .getManufacturerInfo)

/-- RX_GET_SOURCE_INFO (R48). -/
def execRxGetSourceInfo (p : Port) (id : Fin 8) (rev3 : Bool) (s : State) : Host.Outcome State Fault Refusal :=
  done (s.rxServe p id rev3 .getSourceInfo)

/-- RX_GET_SOURCE_CAP_EXTENDED (R48). -/
def execRxGetSourceCapExtended (p : Port) (id : Fin 8) (rev3 : Bool) (s : State) : Host.Outcome State Fault Refusal :=
  done (s.rxServe p id rev3 .getSourceCapExtended)

/-- RX_FR_SWAP (R64). -/
def execRxFrSwap (p : Port) (id : Fin 8) (rev3 : Bool) (s : State) : Host.Outcome State Fault Refusal :=
  done (s.rxServe p id rev3 .frSwap)

/-- RX_BIST (R48). -/
def execRxBist (p : Port) (id : Fin 8) (rev3 : Bool) (m : BistMode) (s : State) : Host.Outcome State Fault Refusal :=
  done (s.rxServe p id rev3 (.bist m))

/-- RX_CABLE_IDENTITY (R51): SOP′ keeps its own MessageIDs, so the answer is taken as it comes. -/
def execRxCableIdentity (p : Port) (c : CableVdo) (s : State) : Host.Outcome State Fault Refusal :=
  done (
    if (s.port p).hardReset = .signalling ∨ !s.attached p then s
    else if s.serving p then s.rxAct p (.cableIdentity c)
    else if (s.port p).held.length < 2 then
      s.setPort p { s.port p with held := (s.port p).held ++ [{ msg := .cableIdentity c, tb := s.tb }] }
    else s.pdCount p 10)

/-! Acknowledgement, retries and waits (R63, R66, R483, R484). -/

/-- R56, R147: after the GoodCRC for its Accept the engine writes the contract into PP_TARGET and PP_MODE and arms the tile.
A change of voltage within one AVS object starts after 5 ms (R58). -/
def State.armContract (s : State) (p : Port) (w : Wanted) : State :=
  let b := blockOf p
  let q := 0x100 * localOf p
  let quick := w.mode = 2 ∧ s.rP p Kp.contractPos = w.pos ∧ bit (s.rP p Kp.partnerFlags) 5
  let s := (s.putTarget p w.v w.i).iow b (0x1008 + q) (w.mode + (if quick then 16 else 0))
  s.takeArm p

/-- What follows the GoodCRC of a message of the device. -/
def State.acked (s : State) (p : Port) (m : TxMsg) : State :=
  let await (s : State) := s.setPort p { s.port p with awaits := some m.kind }
  match m.kind with
  | .accept =>
    match m.re with
    | some .request => match (s.port p).wanted with
      | some w => s.armContract p w
      | none => s
    | some .softReset => s.softDone p
    | some k => match swapOf k with
      | some w => s.swapAccepted p w
      | none => s
    | none => s
  | .sourceCaps | .eprSourceCaps =>
    let s := s.setPort p { s.port p with capsCount := 0 }
    if s.rP p Kp.powerRole = 1 then (await s).wP p Kp.contract Ctr.negotiating else s
  | .request => (await s).wP p Kp.contract Ctr.negotiating
  | .prSwap | .drSwap | .vconnSwap =>
    let h := s.port p
    await (s.setPort p (if h.cmdHeld then { h with cmdHeld := false, cmdStatus := 0 } else h))
  | .softReset | .securityRequest => await s
  | .eprEnterAck =>
    if !(s.port p).eprEntering then s
    else if s.vconnSource p then (s.setPort p { s.port p with cableTries := 1 }).sendKind p .discoverCable
    else s.eprOutcome p (decide (s.rP p Kp.cableEpr = 1))
  | .eprEnterOk => (s.setPort p { s.port p with eprMode := true, eprTimer := true }).sendCaps p false
  | .eprExit => (s.leaveEpr p).sendCaps p false
  | _ => s

/-- PD_GOODCRC_RX (R66): GoodCRC for the message on the wire; in link hold the engine hears of it when the link is up (R22). -/
def execPdGoodcrcRx (p : Port) (rev3 : Bool) (s : State) : Host.Outcome State Fault Refusal :=
  done (
    match (s.port p).tx with
    | m :: t =>
      let s := s.setPort p { s.port p with tx := t, retries := 0, txId := ((s.port p).txId + 1) % 8 }
      let s := if s.rP p Kp.pdRev = 0 then s.wP p Kp.pdRev (if rev3 then 3 else 2) else s
      if s.held p then s.tell p (.acked p m) else s.acked p m
    | [] => s)

/-- A message given up after its retries (R484, R63). An Accept that was never acknowledged began no transition. Before the first contract Source_Capabilities is sent again by
SOURCE_CAP_REPEAT, and Discover Identity by CABLE_DISCOVERY_RETRY. -/
def State.gaveUp (s : State) (p : Port) (m : TxMsg) : State :=
  match m.kind with
  | .discoverCable => s
  | k =>
    if k = .psRdy ∨ (s.inTransition p ∧ k ≠ .accept) ∨ k = .softReset then s.hardReset p PdF.hardResetSent
    else if k = .sourceCaps ∧ !s.explicitContract p then s
    else s.softReset p

/-- PD_RETRY_TIMEOUT (R66): tReceive without GoodCRC: the tile retransmits, nRetryCount times: 2, or 3 with a Revision 2.0
partner. -/
def execPdRetryTimeout (p : Port) (s : State) : Host.Outcome State Fault Refusal :=
  done (
    match (s.port p).tx with
    | m :: _ =>
      if (s.port p).retries < (if s.rP p Kp.pdRev = 2 then 3 else 2) then
        s.setPort p { s.port p with retries := (s.port p).retries + 1 }
      else
        let s := (s.setPort p { s.port p with
          tx := (s.port p).tx.drop 1, retries := 0, txId := ((s.port p).txId + 1) % 8 }).pdCount p 4
        if s.held p then s.tell p (.lost p m) else s.gaveUp p m
    | [] => s)

/-- SENDER_RESPONSE_EXPIRY (R483): no required answer within T_SENDER_RESPONSE. A Security_Request is judged under R65. -/
def execSenderResponseExpiry (p : Port) (s : State) : Host.Outcome State Fault Refusal :=
  done (
    let s' := s.setPort p { s.port p with awaits := none }
    match (s.port p).awaits with
    | none => s
    | some .securityRequest => s'.authEnd p 4
    | some .discoverCable => s'
    | some .sourceCaps | some .eprSourceCaps | some .request | some .softReset => s'.hardReset p PdF.noResponse
    | some k => (s'.setPort p { s'.port p with swap := if (swapOf k).isSome then none else (s'.port p).swap }).pdFault p
        PdF.noResponse)

/-- SOURCE_CAP_REPEAT (R66): tTypeCSendSourceCap without GoodCRC: Source_Capabilities is sent, up to 50 times; the first one
goes out once VBUS is good and a powered cable has been asked. -/
def execSourceCapRepeat (p : Port) (s : State) : Host.Outcome State Fault Refusal :=
  done (
    let h := s.port p
    if s.rP p Kp.attachState = Att.src ∧ s.rP p Kp.contract = Ctr.none ∧ s.rP p Kp.pg = 1 ∧ h.tx = [] ∧
        h.capsCount < 50 ∧ (!s.vconnSource p ∨ h.cableKnown) then
      s.sendCaps p false
    else s)

/-- CABLE_DISCOVERY (R51): tVCONNStable after VCONN is applied, the first Discover Identity on SOP′. -/
def execCableDiscovery (p : Port) (s : State) : Host.Outcome State Fault Refusal :=
  done (
    let h := s.port p
    if s.rP p Kp.attachState = Att.src ∧ s.vconnSource p ∧ h.cableTries = 0 ∧ !h.cableKnown then
      (s.setPort p { h with cableTries := 1 }).sendKind p .discoverCable
    else s)

/-- CABLE_DISCOVERY_RETRY (R51): an unanswered Discover Identity is repeated, four attempts in all; then the cable counts as
not e-marked. -/
def execCableDiscoveryRetry (p : Port) (s : State) : Host.Outcome State Fault Refusal :=
  done (
    let h := s.port p
    if h.cableTries = 0 ∨ !s.vconnSource p ∨ s.rP p Kp.powerRole ≠ 1 then s
    else if h.cableTries < 4 then
      (s.setPort p { h with cableTries := h.cableTries + 1 }).sendKind p .discoverCable
    else
      let s := (s.setPort p { h with cableTries := 0, cableKnown := true }).cableDefault p 1
      if (s.port p).eprEntering then s.eprOutcome p false else s.sendCaps p true)

/-! Transitions (R56, R128). -/

/-- TRANSITION_START (R56, R128): VSET starts to slew; a rise moves the upper threshold at once, a fall the lower one, with the
discharge on while VBUS is above the new upper value. A higher contract current applies from here. -/
def execTransitionStart (p : Port) (s : State) : Host.Outcome State Fault Refusal :=
  done (
    let h := s.path p
    if h.trans = .wait ∧ h.gate = .on then
      match s.vsetCode p h.armV with
      | none => s
      | some code =>
        let above := h.falling && decide (s.windowHigh p h.armV ≤ h.vNow)
        let s := (s.setPath p { h with
          trans := .slew, slewing := true, vset := code, target := h.armV, icon := max h.icon h.armI, upperWaits := h.falling,
          dsch := above, mode := h.armMode }).setPp p Pp.transition
        (if h.falling then s.setPgLow p h.armV else s.setOvp p h.armV).setWinI p
    else s)

/-- VSET_SLEW_END (R56, R128): VSET has the new code: after a rise the lower threshold moves, a lower contract current applies
from here, and the PG_QUAL window opens. -/
def execVsetSlewEnd (p : Port) (s : State) : Host.Outcome State Fault Refusal :=
  done (
    let h := s.path p
    if h.trans = .slew then
      let s := (s.setPath p { h with trans := .qual, slewing := false, icon := h.armI }).setWinI p
      if h.falling then s else s.setPgLow p h.target
    else s)

/-- TRANS_DONE (R56, R114): the PG_QUAL window of the transition completes with VBUS inside the new window and the fault
timer idle; the report sets TRANS_DONE and returns the limit from a slot's code to the contract formula. -/
def execTransDone (p : Port) (s : State) : Host.Outcome State Fault Refusal :=
  done (
    let h := s.path p
    if h.trans = .qual ∧ h.ft = .idle ∧ s.vbusGood p ∧ !h.upperWaits then
      let s := s.setPath p { h with trans := .done, strip := if h.armStrip then none else h.strip }
      let s := if h.armStrip then (s.flag (keyP p Kp.ppFlags) 2 false).setWinI p else s
      (s.tileEvent p 0x1400 8).setPp p (if (s.cmp (winI p)).l then Pp.limit else Pp.on)
    else s)

/-- PS_RDY_SEND (R56, R62): PS_RDY after the PG report makes the contract explicit; in a PR_Swap the old source sends it at
vSafe0V and turns to Rd, the new source once its 5 V is good; in a VCONN_Swap once VCONN is applied. It is not sent while the fault
timer runs or holds its count. Alert follows the contract that a shed's capabilities led to (R92); the first explicit contract starts authentication
(R65). -/
def execPsRdySend (p : Port) (s : State) : Host.Outcome State Fault Refusal :=
  done (
    let h := s.port p
    match h.swap with
    | some w =>
      if !w.accepted then s
      else if w.kind = .vconn ∧ !w.give ∧ s.vconnSource p then
        (s.setPort p { h with swap := none }).sendKind p .psRdy
      else if w.kind = .pr ∧ w.give ∧ s.rP p Kp.attachState = Att.src ∧ (s.path p).gate = .off ∧
          !(s.path p).turning ∧ !(s.path p).dsch then
        (s.sendKind p .psRdy).becomeSink p
      else if w.kind = .pr ∧ !w.give ∧ s.rP p Kp.attachState = Att.src ∧ s.rP p Kp.pg = 1 then
        (s.setPort p { h with swap := none, capsCount := 0 }).sendKind p .psRdy
      else s
    | none =>
      match h.wanted with
      | some w =>
        if (s.path p).trans = .done ∧ (s.path p).ft = .idle ∧ s.rP p Kp.powerRole = 1 then
          let first := !s.explicitContract p
          let s := ((s.setPath p { s.path p with trans := .none }).sendKind p .psRdy).makeContract p w
          let s := if (s.port p).shedCaps then (s.setPort p { s.port p with shedCaps := false }).sendAlert p Alert.inputChange else s
          s.firstAuth p first
        else s
      | none => s)

/-- TRANSITION_TIMEOUT (R56): no PG report within 40 ms of the start: Hard Reset, TRANSITION_FAIL. -/
def execTransitionTimeout (p : Port) (s : State) : Host.Outcome State Fault Refusal :=
  done (if (s.path p).trans = .slew ∨ (s.path p).trans = .qual then s.hardReset p PdF.transitionFail else s)

/-- PPS_TIMEOUT (R57): no Request within T_PPS_TIMEOUT: Hard Reset, PPS_TIMEOUT. -/
def execPpsTimeout (p : Port) (s : State) : Host.Outcome State Fault Refusal :=
  done (if (s.port p).ppsTimer then s.hardReset p PdF.ppsTimeout else s)

/-- EPR_KEEPALIVE_TIMEOUT (R60): no EPR_KeepAlive within T_EPR_KEEPALIVE: Hard Reset, EPR_KEEPALIVE_TIMEOUT. -/
def execEprKeepaliveTimeout (p : Port) (s : State) : Host.Outcome State Fault Refusal :=
  done (if (s.port p).eprTimer then s.hardReset p PdF.eprKeepAlive else s)

/-! Fast Role Swap (R64). -/

/-- FR_SWAP_SIGNAL (R64): detected while armed, with no Hard Reset in progress and at least 1 ms after VBUS last entered the
sink's PG window. -/
def execFrSwapSignal (p : Port) (s : State) : Host.Outcome State Fault Refusal :=
  done (
    if (s.path p).frsArmed ∧ (s.port p).hardReset = .none ∧ !((s.path p).inTb.any fun t => decide (s.tb < t + 100000)) then
      s.setPath p { s.path p with frsSeen := true, frsDue := true }
    else s)

/-- FRS_GATE_ON (R64, R129): VBUS has fallen below vSafe5V: the gate is driven on at once with VSET at 5 V and the 5 V
contract limit, without the RAMP_DVDT slope, unless a pulldown term or R404 holds it. -/
def execFrsGateOn (p : Port) (s : State) : Host.Outcome State Fault Refusal :=
  done (
    if (s.path p).frsSeen ∧ !s.pulldown p ∧ !(s.path p).lockout ∧ s.mayEnable then
      match s.vsetCode p 500 with
      | none => s.flag (keyP p Kp.ppFlags) 7 true
      | some code =>
        let s := s.implicitTarget p
        let s := s.setPath p { s.path p with
          frsSeen := false, frsArmed := false, dir := .source, gate := .on, vset := code, target := 500, icon := s.rpCurrent p, turning := false,
          dsch := false, onTb := s.tb, mode := 0 }
        ((((s.setCtrl p 3 false).setWinI p).setWinV p 500).setPp p Pp.on).limitWatch p
    else s)

/-- FRS_FAIL (R71): 150 µs after the signal VBUS is not valid: the gate has not been turned on, or VBUS is outside its window. -/
def execFrsFail (p : Port) (s : State) : Host.Outcome State Fault Refusal :=
  done (
    let h := s.path p
    if h.frsDue then
      let t := s.setPath p { h with frsSeen := false, frsDue := false }
      if h.gate = .on ∧ h.dir = .source ∧ s.vbusGood p then t else t.pdFault p PdF.frsFail
    else s)

/-- A chain whose root certificate has SHA-256 hash `root` is accepted: the hash is one of AUTH_ROOT (R65), of which one of zeros is unused. -/
def State.rootTrusted (s : State) (p : Port) (root : List Nat) : Bool :=
  root.any (· ≠ 0) && (List.range 4).any fun i => decide (s.rdB (keyP p (Kp.authRoot + i)) = root)

/-- AUTH_VERIFY_DONE (R65): the security block has verified the chain, whose root has hash `root`, which leads to the challenge, or the
signature of the challenge. -/
def execAuthVerifyDone (p : Port) (ok : Bool) (root : List Nat) (s : State) : Host.Outcome State Fault Refusal :=
  done (
    let s := if (s.port p).authStep = 2 then (List.range 4).foldl (fun s i => s.useText (keyP p (Kp.authRoot + i))) s else s
    if (s.port p).authStep < 2 then s
    else if !ok ∨ ((s.port p).authStep = 2 ∧ !s.rootTrusted p root) then s.authEnd p 3
    else if (s.port p).authStep = 2 then s.authRequest p 3
    else s.authEnd p 2)

/-! Hard Reset sequence (R69, Table 2.6). -/

/-- PS_HARD_RESET_EXPIRY (R69, R130): the source takes VBUS to vSafe0V; a waiting retry keeps its wait (R137). -/
def execPsHardResetExpiry (p : Port) (s : State) : Host.Outcome State Fault Refusal :=
  done (
    if (s.port p).hardReset = .waitOff then
      (s.gateOff p (s.offState p)).setPort p { s.port p with hardReset := .recover }
    else s)

/-- SRC_RECOVER_EXPIRY (R69): tSrcRecover after VBUS has reached vSafe0V, its discharge over, the source restores vSafe5V under the
implicit contract; a waiting retry does so itself. -/
def execSrcRecoverExpiry (p : Port) (s : State) : Host.Outcome State Fault Refusal :=
  done (
    if (s.port p).hardReset = .recover ∧ ((s.path p).gate ≠ .off ∨ (!(s.path p).turning ∧ !(s.path p).dsch)) then
      ((s.setPort p { s.port p with hardReset := .none, capsCount := 0 }).wP p Kp.contract Ctr.none).sourceOn p
    else s)

/-- HARD_RESET_COMPLETE (R69): reception and transmission resume with MessageIDs reset; a source goes on to vSafe0V. -/
def execHardResetComplete (p : Port) (s : State) : Host.Outcome State Fault Refusal :=
  done (
    if (s.port p).hardReset = .signalling then
      let src := decide (s.rP p Kp.powerRole = 1)
      let s := s.setPort p { s.port p with hardReset := if src then .waitOff else .none, txId := 0, rxId := none }
      if src then s else s.wP p Kp.contract Ctr.none
    else s)

/-- SINK_TX_WAIT_END (R63): tSinkTx is over and the first waiting message is sent. -/
def execSinkTxWaitEnd (p : Port) (s : State) : Host.Outcome State Fault Refusal :=
  done (
    match (s.port p).sinkTx with
    | m :: t => (s.setPort p { s.port p with sinkTx := t }).send p m
    | [] => s)

/-- BIST_CARRIER_END (R66): BIST Carrier Mode ends. -/
def execBistCarrierEnd (p : Port) (s : State) : Host.Outcome State Fault Refusal :=
  done (if (s.port p).bist = some .carrier then s.setPort p { s.port p with bist := none } else s)

/-! PORT_CMD (R73). -/

/-- The command cannot act: SAFE_OFF or link hold. -/
def State.portBusy (s : State) (p : Port) : Bool := (s.path p).safe || decide (s.lath (tileOf p) = 2)

/-- The status of the port's last PORT_CMD (Table 13.4): 0 OK, 1 BUSY. -/
def State.cmdStatus (s : State) (p : Port) (st : Nat) : State := s.setPort p { s.port p with cmdStatus := st }

/-- Whether a PORT_CMD code can start now (R73, R46); an undefined code cannot. A PR_Swap cannot start in EPR mode, which it would end
(R60): DEDUCED (log entry 145). -/
def State.portCmdOk (s : State) (p : Port) (c : Nat) : Bool :=
  !s.portBusy p &&
  (if c = 1 ∨ c = 2 then s.attached p
   else if c = 3 then decide (s.rP p Kp.attachState = Att.src) && !s.inTransition p && !s.capsHeld p
   else if c = 4 then s.explicitContract p && s.swapPossible p .pr && !(s.port p).swap.isSome && !s.inTransition p &&
     !(s.port p).eprMode && !s.eprStands p
   else if c = 5 then s.explicitContract p && !(s.port p).swap.isSome && !s.inTransition p
   else if c = 6 then s.explicitContract p && s.swapPossible p .vconn && !(s.port p).swap.isSome && !s.inTransition p
   else if c = 10 then decide (s.rP p Kp.attachState = Att.disabled) || (s.port p).toDisable
   else if c = 11 then s.explicitContract p && decide ((s.port p).authStep = 0) && !s.inTransition p
   else decide (c = 7 ∨ c = 8 ∨ c = 9))

/-- R63: the engine requests a swap; the response is held. -/
def State.askSwap (s : State) (p : Port) (k : SwapKind) : State :=
  (s.setPort p { s.port p with
    swap := some { kind := k, ours := true, accepted := false, give := false }, cmdHeld := true }).startAms p
    { kind := (swapMsg k), objs := [], re := none }

/-- PORT_CMD 0x01 HARD_RESET. -/
def execPortCmdHardReset (p : Port) (s : State) : Host.Outcome State Fault Refusal :=
  done (if s.portCmdOk p 1 then (s.hardReset p PdF.hardResetSent).cmdStatus p 0 else s.cmdStatus p 1)

/-- PORT_CMD 0x02 SOFT_RESET. -/
def execPortCmdSoftReset (p : Port) (s : State) : Host.Outcome State Fault Refusal :=
  done (if s.portCmdOk p 2 then (s.softReset p).cmdStatus p 0 else s.cmdStatus p 1)

/-- PORT_CMD 0x03 READVERTISE: a new Source_Capabilities, applying SRC_PDO and EPR_PDO (R72). -/
def execPortCmdReadvertise (p : Port) (s : State) : Host.Outcome State Fault Refusal :=
  done (if s.portCmdOk p 3 then (s.sendCaps p true).cmdStatus p 0 else s.cmdStatus p 1)

/-- PORT_CMD 0x04 PR_SWAP. -/
def execPortCmdPrSwap (p : Port) (s : State) : Host.Outcome State Fault Refusal :=
  done (if s.portCmdOk p 4 then s.askSwap p .pr else s.cmdStatus p 1)

/-- PORT_CMD 0x05 DR_SWAP. -/
def execPortCmdDrSwap (p : Port) (s : State) : Host.Outcome State Fault Refusal :=
  done (if s.portCmdOk p 5 then s.askSwap p .dr else s.cmdStatus p 1)

/-- PORT_CMD 0x06 VCONN_SWAP. -/
def execPortCmdVconnSwap (p : Port) (s : State) : Host.Outcome State Fault Refusal :=
  done (if s.portCmdOk p 6 then s.askSwap p .vconn else s.cmdStatus p 1)

/-- The gate off and the port through ErrorRecovery without a record in PD_FAULT, as DISABLE does (R71, R73). -/
def State.quietReset (s : State) (p : Port) : State :=
  let s := s.setPath p { s.path p with retryWait := false }
  ((s.gateOff p (s.offState p)).dropPort p Att.errorRecovery).clearLatches p

/-- PORT_CMD 0x07 ERROR_RECOVERY (R44): a port reset. -/
def execPortCmdErrorRecovery (p : Port) (s : State) : Host.Outcome State Fault Refusal :=
  done (
    if s.portCmdOk p 7 then (s.quietReset p).pdFault p PdF.errorRecovery |>.cmdStatus p 0 else s.cmdStatus p 1)

/-- PORT_CMD 0x08 CLEAR_COUNTERS: PD_COUNTERS read 0. -/
def execPortCmdClearCounters (p : Port) (s : State) : Host.Outcome State Fault Refusal :=
  done (
    if s.portCmdOk p 8 then
      ((List.range 10).foldl (fun s n => s.wP p (Kp.pdCounters + n) 0) s).cmdStatus p 0
    else s.cmdStatus p 1)

/-- PORT_CMD 0x09 DISABLE: through ERROR_RECOVERY into DISABLED, nothing in PD_FAULT (R73). -/
def execPortCmdDisable (p : Port) (s : State) : Host.Outcome State Fault Refusal :=
  done (
    if s.portCmdOk p 9 then
      let s := s.quietReset p
      (s.setPort p { s.port p with toDisable := true }).cmdStatus p 0
    else s.cmdStatus p 1)

/-- PORT_CMD 0x0A ENABLE: a disabled port returns to the role of ROLE. -/
def execPortCmdEnable (p : Port) (s : State) : Host.Outcome State Fault Refusal :=
  done (
    if s.portCmdOk p 10 then
      let s := (s.setPort p { s.port p with toDisable := false }).cmdStatus p 0
      if s.rP p Kp.attachState = Att.disabled then
        if s.rP p Kp.role = 3 then s
        else (s.setPort p { s.port p with ccOpen := false, presentsRp := decide (s.rP p Kp.role ≠ 1) }).wP p
          Kp.attachState Att.unattached
      else s
    else s.cmdStatus p 1)

/-- PORT_CMD 0x0B AUTHENTICATE (R65). -/
def execPortCmdAuthenticate (p : Port) (s : State) : Host.Outcome State Fault Refusal :=
  done (if s.portCmdOk p 11 then (s.authStart p).cmdStatus p 0 else s.cmdStatus p 1)

end Sys2Proof.Machine
end

