-- ==== Sys2Proof/Machine/EngOps.lean ====
section
/-! DEFINITION. The operations of the engines: ENG_STATE, control registers, release and failure, adoption, the barrier and the
keeper command word ("Port Engines, Keeper Pair and Float Engine"). -/

namespace Sys2Proof.Machine

namespace Es
/-- ENG_STATE codes (Table 10.11). -/
abbrev stopped : Int := 0
abbrev running : Int := 1
abbrev adopted : Int := 2
abbrev safe : Int := 3
abbrev floatIdle : Int := 4
abbrev floatActive : Int := 5
abbrev floatLost : Int := 6
end Es

/-- The core of engine `e`. -/
def coreOf (e : Eng) : CoreId := ⟨e.val, by omega⟩

/-- ENG_STATE of engine `e`. -/
def State.engSt (s : State) (e : Eng) : Int := s.rd (K.engState + e.val)

/-- ENG_STATE set. -/
def State.setEng (s : State) (e : Eng) (v : Int) : State := s.wr (K.engState + e.val) v

/-- An engine that executes: RUNNING, or PE16 idle or active. -/
def State.engLive (s : State) (e : Eng) : Bool :=
  decide (s.engSt e = Es.running) || decide (s.engSt e = Es.floatIdle) || decide (s.engSt e = Es.floatActive)

/-- The four ports of engine block `b`. -/
def blockPorts (b : Nat) : List Port := allPorts.filter fun p => p.val / 4 = b

/-- PE16, the float engine. -/
def pe16 : Eng := 16

/-- What ENG reset leaves of a core (R300): nothing issued further; its transfers in progress complete, from the data it has written. -/
def CoreHw.stopped (c : CoreHw) : CoreHw := { CoreHw.reset with xfers := c.xfers, dmem := c.dmem, pend := c.pend }

/-- A core released from reset with an I-space: it starts at address `pc`, cold. -/
def CoreHw.released (c : CoreHw) (imem : SMap Nat) (pc : Nat) : CoreHw :=
  { CoreHw.reset with run := .running, imem := imem, pc := pc, xfers := c.xfers }

/-- The control and mailbox registers of an engine return to their reset values (R13, Table 10.9), its core to reset. -/
def State.clearEngine (s : State) (e : Eng) : State :=
  let mine (a : Nat) : Bool := decide (a / 0x10000 = e.val) && (decide (0xF000 ≤ a % 0x10000) || decide (a % 0x10000 / 0x10 = 0x500))
  let s := { s with io := s.io.filter fun x => !mine x.1 }
  let s := s.setCore (coreOf e) (s.core (coreOf e)).stopped
  s.setMbox e MboxHw.reset

/-- A word sent to KCMD of engine `e` (R297): the manual gives no command code, so its value is free; line 12 asserts while it
waits. -/
def State.sendKcmd (s : State) (e : Eng) : State :=
  (s.setMbox e { s.mbox e with kcmd := some (Config.freeNat s.fresh % 4294967296) }).draw

/-! Shared SRAM (Table 10.6). -/

/-- An octet of shared SRAM by its offset from 0x0100_0000. -/
def State.sharedOctet (s : State) (a : Nat) : Nat := memGet s.shared a

/-- Octets written to shared SRAM. -/
def State.putShared (s : State) (a : Nat) (l : List Nat) : State :=
  { s with shared := (l.zipIdx).foldl (fun m x => memPut m (a + x.2) (x.1 % 256)) s.shared }

/-- The engine code in the keeper area: 0x0108_0000 onward, 64 KiB (Table 15.4, step 5). -/
def engineCopy (s : State) (n : Nat) : List Nat := (List.range n).map fun i => s.sharedOctet (0x80000 + i)

/-- An I-space holding octets from address `a`. -/
def imemOf (a : Nat) (l : List Nat) : SMap Nat := (l.zipIdx).foldl (fun m x => memPut m (a + x.2) (x.1 % 256)) []

/-- Whether the keeper-area copy still has the hash of the image in force (R408). -/
def copyMatches (s : State) : Bool :=
  decide (fitOctets48 (Config.sha384 (engineCopy s s.sec.engineLen)) = s.sec.engineHash)
where
  /-- Exactly 48 octets. -/
  fitOctets48 (l : List Nat) : List Nat := ((l.map (· % 256)) ++ List.replicate 48 0).take 48

/-- An engine released with the port image (R278, R408): I-space from the keeper-area copy, executing from address 0. -/
def State.releaseEngine (s : State) (e : Eng) : State :=
  let s := s.clearEngine e
  let s := s.setCore (coreOf e) ((s.core (coreOf e)).released (imemOf 0 (engineCopy s 65536)) 0)
  let s := { s with float := { s.float with ckLate := tset s.float.ckLate e (s.rd K.ckptLate) } }
  s.setEng e (if e = pe16 then Es.floatIdle else Es.running)

/-! Failure and adoption (R300 to R304). -/

/-- A register of PE16's control block. -/
def State.floatReg (s : State) (off : Nat) (v : Int) : State := s.iow 16 off v

/-- PE16 gives up what it had adopted: ADOPT reads none. -/
def State.endAdoption (s : State) : State :=
  { (s.floatReg 0xF040 0x1F).wr K.adoptEng 0xFF with float := { s.float with pending := false } }

/-- R302 step 1: everything engine `k` owned moves to PE16. The barrier of R305 passes with it. -/
def State.adopt (s : State) (k : Eng) : State :=
  let ck := s.ior k.val 0xF028
  let s := ((s.floatReg 0xF040 (k.val + 32 : Nat)).floatReg 0xF044 (fieldOf ck 0 2 : Nat)).floatReg 0xF048 (s.ior k.val 0xF02C)
  let s := (s.floatReg 0xF04C (s.ior k.val 0xF030)).floatReg 0xF050 (s.tb % 4294967296 : Nat)
  let s := (s.floatReg 0xF054 (s.tb / 4294967296 : Nat)).wr K.adoptEng k.val
  let b := s.float.barrier
  let s := { s with float := { s.float with
    pending := true, declTb := s.tb
    barrier := if b.contains k.val then (b.filter fun x => x ≠ k.val ∧ x ≠ 16) ++ [16] else b
    arrived := s.float.arrived.filter fun x => x ≠ k.val } }
  (if b.contains k.val then s.ioFlag 16 0xF034 1 true else s).setEng k Es.stopped

/-- An engine that fails without adoption leaves an open barrier (R305). -/
def State.leaveBarrier (s : State) (k : Eng) : State :=
  { s with float := { s.float with barrier := s.float.barrier.filter fun x => x ≠ k.val } }

/-- The ports of a failed engine that no engine takes enter SAFE_OFF (R304). -/
def State.abandon (s : State) (k : Eng) (b : Nat) (cause : Int) : State :=
  ((blockPorts b).foldl (fun s p => s.safeOff p cause) s).leaveBarrier k

/-- R300, R302, R304: engine `e` is declared failed with cause code `cause`. -/
def State.failEngine (s : State) (e : Eng) (cause : Int) : State :=
  if !s.engLive e then s
  else
    let tx := s.mbox e
    let s := ((s.wr (K.engCause + e.val) cause).setMbox e { tx with fifo := [], tx := [] }).alert 7
    let s := s.setCore (coreOf e) (s.core (coreOf e)).stopped
    if e = pe16 then
      let k := s.rd K.adoptEng
      if k < 16 then
        let s := (s.abandon pe16 k.toNat 3).wr (K.engState + k.toNat) Es.safe
        s.endAdoption.setEng pe16 Es.floatLost
      else (s.setEng pe16 Es.floatLost).leaveBarrier pe16
    else if s.engSt pe16 = Es.floatIdle ∧ !s.float.pending then s.adopt e
    else (s.setEng e Es.safe).abandon e e.val 2

/-- ADOPT DONE (R302 step 2): the adopted ports are served again, held messages first (R68). -/
def State.adoptDone (s : State) : State :=
  let k := s.rd K.adoptEng
  if s.float.pending ∧ k < 16 then
    let s := { s with float := { s.float with pending := false } }
    let s := (s.ioFlag 16 0xF040 6 true).setEng pe16 Es.floatActive
    let s := (s.wr (K.engState + k.toNat) Es.adopted).wr K.adoptTime (min 4294967295 (s.tb - s.float.declTb) : Nat)
    (blockPorts k.toNat).foldl (fun s p => s.replayHeld p true) (s.count K.adoptCount)
  else s

/-! Watchdog (R298). -/

/-- An expiry: the first raises WDOG and starts the grace, the second declares the engine failed. -/
def State.watchdogExpiry (s : State) (e : Eng) : State :=
  if bit (s.ior e.val 0xF01C) 1 then s.failEngine e 1
  else
    let c := s.core (coreOf e)
    let s := s.ioFlag e.val 0xF01C 1 true
    s.setCore (coreOf e) { c with wdog := true, run := if c.run = .waiting then .running else c.run }

/-- A write to WD_KICK. -/
def State.wdKick (s : State) (e : Eng) (key : Nat) : State :=
  if !s.engLive e then s
  else if key = 0xA5C3 then s.iow e.val 0xF01C 1
  else s.watchdogExpiry e

/-! Checkpoints (R301). -/

/-- A PUSH into checkpoint half `h` of engine `e` is still in progress. -/
def pushBusy (s : State) (e : Eng) (h : Nat) : Bool :=
  let lo := 0x4000 * e.val + 0x2000 * h
  (s.core (coreOf e)).xfers.toList.any fun x =>
    x.any fun y => y.push && decide (y.shared < lo + 0x2000 ∧ lo < y.shared + y.len)

/-- CKPT_LATE applies to engine `e` at its commit (R310); the entry reads as in force once every running engine has taken it. -/
def State.takeLate (s : State) (e : Eng) : State :=
  let v := (s.pendingVal K.ckptLate).getD (s.rd K.ckptLate)
  let s := { s with float := { s.float with ckLate := tset s.float.ckLate e v } }
  if (List.finRange 17).all fun k => decide (s.engSt k ≠ Es.running) || decide (tget s.float.ckLate k = v) then s.applyKey K.ckptLate else s

/-- A write to CK_COMMIT by an engine that executes: PE16 writes no checkpoint of its own (R304). CKPT_LATE applies (R310). -/
def State.ckCommit (s : State) (e : Eng) (h : Nat) : State :=
  let st := s.ior e.val 0xF028
  if !s.engLive e then s
  else if e = pe16 ∨ pushBusy s e h = true ∨ (bit st 1 ∧ fieldOf st 0 1 = h) then s.ioFlag e.val 0xF028 2 true
  else
    let seq := (fieldOf st 16 16 + 1) % 65536
    let s := s.iow e.val 0xF028 ((h + 2 + (if bit st 2 then 4 else 0) + seq * 65536 : Nat) : Int)
    ((s.iow e.val 0xF02C (s.tb % 4294967296 : Nat)).iow e.val 0xF030 (s.tb / 4294967296 : Nat)).takeLate e

/-! Barriers (R305). -/

/-- The engine that carries engine `k`'s part in a barrier: itself, PE16 where it has been adopted, none where it is lost. -/
def barrierPart (s : State) (k : Eng) : Option Eng :=
  if s.engLive k then some k
  else if s.rd K.adoptEng = (k.val : Int) then some pe16
  else none

/-- A barrier opened for a set of engines; while one is open a second is not opened. -/
def State.openBarrier (s : State) (set : List Eng) : State :=
  if !s.float.barrier.isEmpty then s
  else
    let parts := (set.filterMap (barrierPart s)).eraseDups
    let s := parts.foldl (fun s e => (s.sendKcmd e).ioFlag e.val 0xF034 1 true) s
    { s with float := { s.float with barrier := parts.map Fin.val, arrived := [] } }

/-- BAR ARRIVE of engine `e`. -/
def State.arrive (s : State) (e : Eng) : State :=
  if s.float.barrier.contains e.val ∧ s.engLive e then
    { s.ioFlag e.val 0xF034 0 true with
      float := { s.float with arrived := if s.float.arrived.contains e.val then s.float.arrived else s.float.arrived ++ [e.val] } }
  else s

/-- The release that follows the last arrival. -/
def State.releaseBarrier (s : State) : State :=
  let b := s.float.barrier
  if !b.isEmpty && b.all (fun x => s.float.arrived.contains x) then
    let s := b.foldl (fun s x => ((s.ioFlag x 0xF034 0 false).ioFlag x 0xF034 1 false).ioFlag x 0xF034 2 true) s
    { s with float := { s.float with barrier := [], arrived := [] } }
  else s

end Sys2Proof.Machine
end

