-- ==== Sys2Proof/Machine/Meter.lean ====
section
/-! DEFINITION. The meanings of the metering, skim and measurement-record commands ("Metering, Skim and Signed Measurement
Records"). -/

namespace Sys2Proof.Machine

/-! Power samples (R215). -/

/-- The power of a voltage in 20 µV and a current in 10 µA, in 100 µW, all with their fraction bits. -/
def powerOf (v i : Int) : Int := v * i * 2 / (1000000 * frac)

/-- The oldest waiting current result of a channel with the voltage interpolated at its instant (R215): none while no
voltage result at or after it has come; the second part tells whether a sample is formed. -/
def nextSample (m : MetHw) (interpMax : Int) : Option (Option Sample) :=
  match m.cs with
  | [] => none
  | (t, i) :: _ =>
    match m.vs.find? fun q => decide (t ≤ q.1) with
    | none => none
    | some b =>
      match (m.vs.filter fun q => decide (q.1 ≤ t)).getLast? with
      | none => some none
      | some a =>
        if interpMax < ((b.1 - a.1 : Nat) : Int) then some none
        else
          let v := if a.1 = b.1 then a.2 else a.2 + (b.2 - a.2) * ((t - a.1 : Nat) : Int) / ((b.1 - a.1 : Nat) : Int)
          some (some { t := t, v := v, i := i, p := powerOf v i })

/-- The voltage results still needed: the last one before instant `t` and all later ones. -/
def keepVolts (vs : List (Nat × Int)) (t : Nat) : List (Nat × Int) :=
  match (vs.filter fun q => decide (q.1 ≤ t)).getLast? with
  | none => vs
  | some a => a :: vs.filter fun q => decide (t < q.1)

/-- POWER_SAMPLE (R215 to R218): a sample at a current result's instant, once the bracketing voltage results are there, and the
segment that ends with it. -/
def execPowerSample (x : Chan) (s : State) : Host.Outcome State Fault Refusal :=
  done (
    let q : Fin 100 := ⟨x.val, by omega⟩
    let m := s.met q
    match nextSample m (s.rd K.interpMax) with
    | none => s
    | some r =>
      let t := (m.cs.headD (0, 0)).1
      let m := { m with cs := m.cs.drop 1, vs := keepVolts m.vs t }
      match r with
      | none => s.setMet q m
      | some b => s.setMet q { m.push (metEnv s q) (s.rd K.gapMax) b with pNow := b.p })

/-- The ticks of the three averaging windows (R219). -/
def windowTicks (w : Fin 3) : Nat := if w = 0 then 10000 else if w = 1 then 100000 else 10000000

/-- The last boundary of a window length that TB has come to (R219). -/
def lastBoundary (s : State) (w : Fin 3) : Nat := s.tb / windowTicks w * windowTicks w

/-- A boundary that has not been taken. -/
def windowDue (s : State) (w : Fin 3) : Bool := decide (tget s.time.winAt w < lastBoundary s w)

/-- WINDOW_BOUNDARY (R219, R218, R232): the windows of one length end at their boundary; at a 10 S/s boundary INTERP_MAX, GAP_MAX and the
user gains apply. `split` says that the boundary lies inside a TB_STEP. -/
def State.windowEnd (s : State) (w : Fin 3) (split : Bool) : State :=
  let at_ := lastBoundary s w
  let s := s.cutAll (fun x => decide (x.val < 98 ∨ w = 1)) { t := s.cnvAt at_, kind := .window w split }
  let s := { s with time := { s.time with winAt := tset s.time.winAt w at_ } }
  if w = 2 then
    s.applyKeys ([K.interpMax, K.gapMax] ++ (List.finRange 66).flatMap fun x => [keyM x Km.userGainV, keyM x Km.userGainI])
  else s

/-! Records (R227 to R231). -/

/-- The next number of a record, kept in NVM (Table 7.4, REC_SEQ). -/
def State.recNumber (s : State) : Nat := (SMap.get (fun _ => (0 : Int)) s.nv K.recSeq).toNat + 1

/-- The number of the record cut now is used up. -/
def State.useNumber (s : State) : State := { s with nv := SMap.put (fun _ => 0) s.nv K.recSeq s.recNumber }

/-- FLAGS [0], [6], [7] and [8] of a record of kind `k` cut now (Table 7.4). -/
def cutFlags (s : State) (k : Fin 3) : Nat :=
  bitsOf [bit (s.rd K.clkStatus) 0 || tget s.recs.clkSeen k, false, false, false, false, false,
    decide (s.rd K.refDiverge = 1) || tget s.recs.divSeen k,
    decide (s.rd K.ppsCount = 0) || decide (s.rd K.ppsStamp + 200000000 < s.tb),
    (tget s.recs.accPrev k).any fun n => decide ((n : Int) ≠ s.rd K.accStartTb)]

/-- The channels of a record (R227): REC_MASK and REC_FEEDS, with the shunt and the user gains in force. -/
def recChans (s : State) : List CutChan :=
  ((List.finRange 66).filter fun x => if x.val < 64 then bit (s.rd K.recMask) x.val else bit (s.rd K.recFeeds) (x.val - 64)).map
    fun x =>
      { ch := x
        shunt := if h : x.val < 64 then s.rP ⟨x.val, h⟩ Kp.rshunt else s.rF (Fin.ofNat 2 (x.val - 64)) Kf.feedRshunt
        gainV := s.rM x Km.userGainV, gainI := s.rM x Km.userGainI }

/-- What a cut of kind `k` captures of the header and of the entries in force. -/
def recCut (s : State) (k : Fin 3) (tCut : Nat) : RecCut :=
  { chans := recChans s, seq := s.recNumber, tCut := tCut, clk := (s.rd K.clkStatus).toNat, accStart := (s.rd K.accStartTb).toNat
    lastPps := (s.rd K.ppsStamp).toNat, op := (s.rd K.opSeconds).toNat, flags := cutFlags s k
    skimSeq := if k = 0 then (s.rd K.skimSeq).toNat else 0 }

/-- The number of milliseconds in CNVCLK cycles, saturating (Table 7.5). -/
def msOf (n : Nat) : Nat := min 4294967295 (n / 80000)

/-- The octets of a record entry (Table 7.5). -/
def recEntry (s : State) (seq : Nat) (r : CutChan) : List Nat :=
  let c := (((s.met ⟨r.ch.val, by omega⟩).caps.find? fun x => decide (x.1 = seq)).map (·.2)).getD ChanCut.zero
  [r.ch.val, c.flags, 0, 0] ++ leOctets 4 r.shunt.toNat ++ leOctets 4 (r.gainV % 4294967296).toNat ++
    leOctets 4 (r.gainI % 4294967296).toNat ++
    leOctets 8 c.eFwd.toNat ++ leOctets 8 c.eRev.toNat ++ leOctets 8 c.qFwd.toNat ++ leOctets 8 c.qRev.toNat ++
    leOctets 4 c.epoch ++ leOctets 4 (msOf c.dUnc) ++ leOctets 4 (msOf c.dGap) ++ [0, 0, 0, 0]

/-- The entries of a record (R229). -/
def recBody (s : State) (r : RecCut) : List Nat := r.chans.flatMap (recEntry s r.seq)

/-- The captures of a record that has been released or discarded. -/
def State.dropCaps (s : State) (seq : Nat) : State :=
  { s with mets := s.mets.map fun (m : MetHw) => { m with caps := m.caps.filter fun x => decide (x.1 ≠ seq) } }

/-- A record of kind `k` is cut (R227, R231) at instant `t` with T_CUT `tCut`. The entries REC_MASK, REC_FEEDS and REC_PERIOD
apply. FLAGS[0] and [6] of the next record start from what stands now (R228). -/
def State.cutRecord (s : State) (k : Fin 3) (t tCut : Nat) : State :=
  let s := s.applyKeys [K.recMask, K.recFeeds, K.recPeriod]
  let r := recCut s k tCut
  let s := s.useNumber.cutAll isChan { t := t, kind := .record k r.seq }
  let q := s.recs
  let q := { q with clkSeen := tset q.clkSeen k (bit (s.rd K.clkStatus) 0), divSeen := tset q.divSeen k (decide (s.rd K.refDiverge = 1)), accPrev := tset q.accPrev k (some r.accStart) }
  let q := if (tget q.wait k).isSome then { q with next := tset q.next k (some r) } else { q with wait := tset q.wait k (some r) }
  { s with recs := { q with signing := if q.signing.isNone then some k else q.signing } }

/-- A cut of a kind that already has a record waiting for signing is not taken (R231). -/
def recWaits (s : State) (k : Fin 3) : Bool :=
  (tget s.recs.next k).isSome || ((tget s.recs.wait k).isSome && decide (s.recs.signing ≠ some k))

/-- An INTERVAL or ON_DEMAND cut (R227, R231) with T_CUT `tCut`. -/
def State.tryCut (s : State) (k : Fin 3) (t tCut : Nat) : State :=
  if recWaits s k then s.count K.recSkip else s.cutRecord k t tCut

/-- The octets of a record before its signature (Tables 7.4 and 7.5); FLAGS [0] is set too where CLK_STATUS[0] is set as it is
signed (R30). -/
def recOctets (s : State) (k : Fin 3) (r : RecCut) : List Nat :=
  let body := recBody s r
  let n := body.length / 64
  let any (b : Nat) : Bool := (List.range n).any fun j => (body.getD (64 * j + 1) 0).testBit b
  let gains := r.chans.any fun x => decide (x.gainV ≠ 0 ∨ x.gainI ≠ 0)
  let flags := (r.flags ||| bitsOf [bit (s.rd K.clkStatus) 0]) + bitsOf [false, any 0, any 5, gains, any 1, any 2]
  [0x53, 0x5A, 0x4D, 0x52, 1, k.val + 1] ++ leOctets 2 flags ++ leOctets 8 (s.rd K.serial).toNat ++
    leOctets 4 (s.rd K.calCertId).toNat ++
    [(s.rd K.calGen).toNat, (s.rd K.calBank).toNat, (s.rd K.grade).toNat, r.clk] ++
    ((s.rdB K.calDigest) ++ List.replicate 32 0).take 32 ++ leOctets 8 r.seq ++ leOctets 8 r.tCut ++
    leOctets 8 (tget s.recs.tPrev k) ++ leOctets 8 r.accStart ++ leOctets 8 r.lastPps ++ leOctets 5 r.op ++ [0, 0, 0] ++
    leOctets 4 (s.rd K.powerCycles).toNat ++ leOctets 4 (s.rd K.imageVersion).toNat ++ leOctets 2 n ++ leOctets 2 64 ++
    leOctets 4 r.skimSeq ++ List.replicate 8 0 ++ body

/-- DEVICE_SEED as resolved at start (Table 16.3): the eight words of its first copy; absent where one is. -/
def deviceSeed (s : State) : Option (List Nat) := (List.range 8).mapM fun i => SMap.get noWord s.otpShadow (0x27 + i)

/-- HMAC-SHA-384 of a message under a key of at most 128 octets. -/
def hmac384 (key msg : List Nat) : List Nat :=
  let k := (key ++ List.replicate 128 0).take 128
  hash48 (k.map (· ^^^ 0x5C) ++ hash48 (k.map (· ^^^ 0x36) ++ msg))

/-- The order of P-384. -/
def p384Order : Nat := 0xFFFFFFFFFFFFFFFFFFFFFFFFFFFFFFFFFFFFFFFFFFFFFFFFC7634D81F4372DDF581A0DB248B0A77AECEC196ACCC52973

/-- A number of octets written most significant first. -/
def beValue (l : List Nat) : Nat := l.foldl (fun n x => 256 * n + x % 256) 0

/-- The identity private key d of a device seed (R403); the seed's octets in the order of R423, the hash as a number most significant octet
first: DEDUCED (log entry 172). -/
def identityKey (seed : List Nat) : Nat :=
  beValue (hmac384 (seed.flatMap (leOctets 4)) [0x53, 0x5A, 0x36, 0x34, 0x34, 0x30, 0x20, 0x49, 0x44, 0x45, 0x4E, 0x54, 0x49, 0x54, 0x59]) %
    (p384Order - 1) + 1

/-- REC_SEQ of the record of kind `j` that waits. -/
def waitSeq (q : RecHw) (j : Fin 3) : Nat := match tget q.wait j with | some r => r.seq | none => 0

/-- The waiting record that is signed next: the oldest. -/
def oldestWait (q : RecHw) : Option (Fin 3) :=
  let rest := (List.finRange 3).filter fun j => (tget q.wait j).isSome
  rest.find? fun j => rest.all fun i => decide (waitSeq q j ≤ waitSeq q i)

/-- The record being signed leaves the signer with its captures: the next of its kind moves up, and the oldest waiting record is taken.
SKIM_STATE reads SIGNING where the skim's record is taken after it had waited: DESIGN CHOICE (log entry 153). -/
def State.nextRecord (s : State) (k : Fin 3) : State :=
  let s := s.dropCaps (waitSeq s.recs k)
  let q : RecHw := { s.recs with wait := tset s.recs.wait k (tget s.recs.next k), next := tset s.recs.next k none }
  let s : State := { s with recs := { q with signing := oldestWait q } }
  let s := if k = 0 then s.wr K.skimState 0 else s
  if oldestWait q = some 0 ∧ s.rd K.skimState = 3 then s.wr K.skimState 4 else s

/-- A signed record (R227, R230): it becomes readable, waits for the journal, and ALERT bit 9 follows. -/
def State.publish (s : State) (k : Fin 3) (r : RecCut) (seed : List Nat) : State :=
  let o := recOctets s k r
  let o := o ++ ((Config.ecdsaSign (identityKey seed) o) ++ List.replicate 96 0).take 96
  let s := (s.wrB (K.recSkim + k.val) o).wr K.recSeq r.seq
  let s := { s with
    recs := { s.recs with tPrev := tset s.recs.tPrev k r.tCut }
    recorder := { s.recorder with signed := s.recorder.signed ++ [o] } }
  s.alert 9

/-- The cuts of record `seq` that still wait, in a channel of the record. -/
def openCut (s : State) (seq : Nat) (x : Fin 100) : Option Cut :=
  (s.met x).cuts.find? fun c => match c.kind with
    | .record _ n => decide (n = seq)
    | _ => false

/-- The bank of a record is complete (R223): no cut of it waits, or GAP_MAX + INTERP_MAX + 0.5 µs lie behind those that do. -/
def bankDone (s : State) (seq : Nat) : Bool :=
  allQuants.all fun x => (openCut s seq x).all fun c => decide (c.t + cutHold s ≤ s.cnvNow)

/-- The cuts of record `seq` that still wait end as gaps, with those before them: no segment can span them any more (R223). -/
def State.settleRecord (s : State) (seq : Nat) : State :=
  { s with mets := Vector.ofFn fun x : Fin 100 => match openCut s seq x with
    | some c => (s.met x).settleCuts (metEnv s x) c.t
    | none => s.met x }

/-- RECORD_SIGNED (R227, R230): the record under signature is released once its bank is complete; a cut of it still open ends as a gap.
A part without an identity key signs nothing. -/
def execRecordSigned (k : Fin 3) (s : State) : Host.Outcome State Fault Refusal :=
  done (
    match s.recs.signing, tget s.recs.wait k, deviceSeed s with
    | some j, some r, some seed =>
      if j = k ∧ bankDone s r.seq then ((s.settleRecord r.seq).publish k r seed).nextRecord k else s
    | _, _, _ => s)

/-- RECORD_SIGN_FAIL (R230): the record is discarded and REC_FAIL counted; its number is not used again. -/
def execRecordSignFail (k : Fin 3) (s : State) : Host.Outcome State Fault Refusal :=
  done (if s.recs.signing = some k then (s.count K.recFail).nextRecord k else s)

/-- MET_CMD RECORD_NOW (R227, R231). -/
def execMetCmdRecordNow (s : State) : Host.Outcome State Fault Refusal := done ((s.tryCut 2 s.cnvNow s.tb).reply 0)

/-- INTERVAL_CUT (R227, R231): TB has come to a multiple of REC_PERIOD × 10⁸ ticks past the last one cut, while REC_PERIOD is not 0. -/
def execIntervalCut (s : State) : Host.Outcome State Fault Refusal :=
  done (
    let m := (s.rd K.recPeriod).toNat * 100000000
    let at_ := s.tb / m * m
    if m = 0 then s.applyKeys [K.recMask, K.recFeeds, K.recPeriod]
    else if s.recs.interval < at_ then { s with recs := { s.recs with interval := at_ } }.tryCut 1 (s.cnvAt at_) at_
    else s)

/-- MET_CMD CLEAR_FLAGS (R232): the sticky OVR and GAP flags clear. -/
def execMetCmdClearFlags (s : State) : Host.Outcome State Fault Refusal :=
  done ({ s with mets := s.mets.map fun (m : MetHw) => ({ m with ovr := false, gap := false } : MetHw) }.reply 0)

/-! Skims (R222 to R226). -/

/-- A skim is scheduled, completing, or its record waits for its signature (R226). -/
def skimBusy (s : State) : Bool :=
  decide (s.rd K.skimState = 1 ∨ s.rd K.skimState = 2) || (tget s.recs.wait 0).isSome

/-- A skim scheduled for `t` (R224). -/
def State.schedule (s : State) (t : Nat) : State :=
  ({ s with recs := { s.recs with skimT := t } }).wr K.skimState 1

/-- MET_CMD CLEAR_ACC (R226): refused BUSY while a skim is scheduled or completing; a cut at the apply edge, then zero. -/
def execMetCmdClearAcc (s : State) : Host.Outcome State Fault Refusal :=
  done (
    if s.rd K.skimState = 1 ∨ s.rd K.skimState = 2 then s.reply 1
    else ((s.cutAll isChan { t := s.cnvNow, kind := .clear }).wr K.accStartTb s.tb).reply 0)

/-- A skim at the present TB (R224), or refused BUSY. -/
def State.skimNow (s : State) : State := if skimBusy s then s.reply 1 else (s.schedule s.tb).reply 0

/-- A skim at TB `t` (R224), refused BUSY, or RANGE unless at least 100 ticks ahead. -/
def State.skimAt (s : State) (t : Nat) : State :=
  if skimBusy s then s.reply 1
  else if t < s.tb + 100 then s.reply 2
  else (s.schedule t).reply 0

/-- SKIM_CMD NOW. -/
def execSkimCmdNow (s : State) : Host.Outcome State Fault Refusal := done s.skimNow

/-- SKIM_CMD AT. -/
def execSkimCmdAt (s : State) : Host.Outcome State Fault Refusal := done (s.skimAt (s.rd K.skimT).toNat)

/-- SKIM_CMD CANCEL (R226). -/
def execSkimCmdCancel (s : State) : Host.Outcome State Fault Refusal :=
  done ((if s.rd K.skimState = 1 then s.wr K.skimState 0 else s).reply 0)

/-- TB at the CNVCLK cycle that follows TB `t` (R222): SKIM_S. -/
def stampAt (s : State) (t : Nat) : Nat := max t (min s.time.baseTb s.tb) + (5 * s.cnvAt t / 4 - s.edgeAt t)

/-- SKIM_INSTANT (R222, R224): TB has come to T: S is the first CNVCLK cycle from T on, and every accumulator is cut there; SYNC_OUT pulses
with SYNC_MODE[1]. -/
def execSkimInstant (s : State) : Host.Outcome State Fault Refusal :=
  done (
    let t := s.recs.skimT
    if s.rd K.skimState = 1 ∧ t ≤ s.tb then
      let at_ := stampAt s t
      let s := ((s.wr K.skimSeq ((s.rd K.skimSeq + 1) % 4294967296)).wr K.skimS at_).wr K.skimState 2
      let s := s.cutRecord 0 (s.cnvAt t) at_
      if bit (s.rd K.syncMode) 1 then { s with recs := { s.recs with syncOut := s.recs.syncOut + 1 } } else s
    else s)

/-- The number of the record of the skim in progress. -/
def skimRecord (s : State) : Nat := match tget s.recs.next 0, tget s.recs.wait 0 with
  | some r, _ => r.seq
  | none, some r => r.seq
  | none, none => 0

/-- SKIM_BANK_COMPLETE (R223): the bank reads READY, with ALERT bit 10; a cut still open ends as a gap, and the record waits for its
signature. -/
def execSkimBankComplete (s : State) : Host.Outcome State Fault Refusal :=
  done (
    if s.rd K.skimState = 2 ∧ bankDone s (skimRecord s) then ((s.settleRecord (skimRecord s)).wr K.skimState 3).alert 10
    else s)

end Sys2Proof.Machine
end

