-- ==== Sys2Proof/Machine/Recorder.lean ====
section
/-! DEFINITION. The event recorder: sampling, flushes, the rings of the wall and the journal ("Event Recorder"). -/

namespace Sys2Proof.Machine

/-! Sampling (R258 to R262). -/

/-- The STAMP of now (R273): OP_SECONDS and the milliseconds within the second. -/
def State.opStamp (s : State) : Nat :=
  (s.rd K.opSeconds).toNat % 2 ^ 40 + min 999 ((s.time.edges - s.recorder.opEdge) / 100000) * 2 ^ 40

/-- What an unlisted bin holds: 0. -/
def zeroBin (_ : Nat) : Nat := 0

/-- One more in bin `k` of the histogram of `n` bins from `lo`, number `h` (R260): a bin at its top halves them all first. -/
def RecChan.bump (c : RecChan) (h : Fin 4) (lo n : Nat) (k : Int) : RecChan :=
  let i := lo + (clampTo 0 ((n : Int) - 1) k).toNat
  let c :=
    if SMap.get zeroBin c.bins i < 4294967295 then c
    else
      let half := (List.range n).foldl (fun m j => SMap.put zeroBin m (lo + j) (SMap.get zeroBin m (lo + j) / 2)) c.bins
      { c with bins := half, scale := tset c.scale h (tget c.scale h + 1) }
  { c with bins := SMap.put zeroBin c.bins i (SMap.get zeroBin c.bins i + 1) }

/-- An extreme replaced only by a strictly more extreme value (R261). -/
def RecChan.extreme (c : RecChan) (e : Fin 6) (low : Bool) (v : Int) (cycles stamp : Nat) : RecChan :=
  let take := match tget c.ext e with
    | none => true
    | some x => if low then decide (v < x.value) else decide (x.value < v)
  if take then { c with ext := tset c.ext e (some { value := v, cycles := cycles, stamp := stamp }) } else c

/-- The contract level of Table 9.1: 0 without an explicit contract, else by 16 W. -/
def contractBin (s : State) (p : Port) : Int :=
  let k := s.rP p Kp.contract
  if 2 ≤ k ∧ k ≤ 4 then clampTo 1 15 (ceilDiv (s.rP p Kp.contractV * s.rP p Kp.contractI) 160000) else 0

/-- One channel takes its sample (R258 to R261). -/
def sampleChan (s : State) (x : Chan) (c : RecChan) : RecChan :=
  let m := s.met ⟨x.val, by omega⟩
  let feed := decide (64 ≤ x.val)
  let p : Port := Fin.ofNat 64 x.val
  let cyc := (s.rd K.powerCycles).toNat
  let st := s.opStamp
  let ok (w : Fin 3) : Bool := !tget m.notYet w && decide (tget m.avg w ≠ WinVal.none)
  let live := if feed then s.feedAvail (Fin.ofNat 2 (x.val - 64)) else decide (s.rP p Kp.pg = 1)
  let c := { c with samples := c.samples + 1 }
  let c := if live then c else { c with offMs := c.offMs + 1 }
  let c := if ok 1 && tget m.wunc 1 then { c with uncMs := min 4294967295 (c.uncMs + 1) } else c
  let a := tget m.avg 1
  let c :=
    if live && ok 1 then
      (c.bump 0 0 64 (a.v / (if feed then 62500 else 50000))).bump 1 64 64 ((a.i.natAbs : Int) / (if feed then 400000 else 10000))
    else c
  let b := tget m.avg 0
  let c :=
    if live && ok 0 then
      (((c.extreme 0 true b.v cyc st).extreme 1 false b.v cyc st).extreme 2 false b.i.natAbs cyc st).extreme 3 false
        b.p.natAbs cyc st
    else c
  if feed then c
  else
    let t := s.rP p Kp.tjModel
    let c := (c.bump 2 128 32 ((t + 400) / 50)).bump 3 160 16 (contractBin s p)
    if live then (c.extreme 4 true t cyc st).extreme 5 false t cyc st else c

/-- Every channel takes its sample. -/
def State.sampleAll (s : State) : State :=
  let img := s.recorder.image
  let cs := Vector.ofFn fun x : Fin 66 => sampleChan s x (tget img.chans x)
  { s with recorder := { s.recorder with image := { img with chans := cs } } }

/-- The image starts empty (R262): IMAGE_START records the stamp. -/
def State.clearImage (s : State) : State :=
  { s.wr K.imageStart s.opStamp with
    recorder := { s.recorder with image := Hawk.empty s.opStamp (s.rd K.powerCycles).toNat, clearing := false } }

/-- RECORDER_SAMPLE (R258, R264): a boundary that falls during the copy of the image is taken after it. -/
def execRecorderSample (s : State) : Host.Outcome State Fault Refusal :=
  done (
    if s.recorder.flush.any fun f => !f.frozen then { s with recorder := { s.recorder with sampleDue := true } }
    else s.sampleAll)

/-! The octets of the image (Tables 9.2, 9.4 and 9.5). -/

/-- An extreme of Table 9.5. -/
def extremeOctets (e : Option Extreme) : List Nat :=
  match e with
  | none => leOctets 4 0x80000000 ++ List.replicate 12 0
  | some x => leOctets 4 (x.value % 4294967296).toNat ++ leOctets 4 x.cycles ++ leOctets 8 x.stamp

/-- A channel block (Table 9.5). -/
def chanBlock (x : Nat) (c : RecChan) : List Nat :=
  [x, 0, 0, 0] ++ c.scale.toList ++ leOctets 8 c.samples ++ leOctets 8 c.offMs ++ leOctets 4 c.uncMs ++ [0, 0, 0, 0] ++
    ((List.range 176).flatMap fun i => leOctets 4 (SMap.get zeroBin c.bins i)) ++ (c.ext.toList.flatMap extremeOctets) ++
    List.replicate 128 0

/-- The device block. -/
def deviceBlock (h : Hawk) : List Nat :=
  [0xFE, 0, 0, 0, 0, 0, 0, 0] ++ leOctets 8 h.startStamp ++ leOctets 4 h.startCycles ++ List.replicate 12 0 ++
    (h.counts.toList.flatMap (leOctets 4)) ++ List.replicate 900 0

/-- The zero block. -/
def zeroBlock : List Nat := 0xFF :: List.replicate 959 0

/-- The payload of leaf `k`, octets 64 to 4,087 (Table 9.4). -/
def leafPayload (h : Hawk) (k : Nat) : List Nat :=
  let block (x : Nat) : List Nat := chanBlock x (tget h.chans (Fin.ofNat 66 x))
  let blocks :=
    if k < 16 then block (4 * k) ++ block (4 * k + 1) ++ block (4 * k + 2) ++ block (4 * k + 3)
    else block 64 ++ block 65 ++ deviceBlock h ++ zeroBlock
  blocks ++ List.replicate 184 0

/-- A leaf of 4,096 octets from its header fields and payload (Table 9.4). -/
def leafOctets (s : State) (kind idx count seq fseq cause first stamp cycles tb : Nat) (payload : List Nat) : List Nat :=
  let body := [0x48, 0x41, 0x57, 0x4B, 1, kind, idx, count] ++ leOctets 8 seq ++ leOctets 4 fseq ++ [cause, 0] ++
    leOctets 2 first ++ leOctets 8 (s.rd K.serial).toNat ++ leOctets 8 stamp ++ leOctets 4 cycles ++ leOctets 8 tb ++
    List.replicate 12 0 ++ payload
  body ++ [0, 0, 0, 0] ++ crc32 body

/-- An octet of the hawk by its offset (Table 9.2): active image, frozen image, journal staging. -/
def hawkOctet (s : State) (a : Nat) : Nat :=
  let leaf (h : Hawk) (o : Nat) : Nat := if o % 4096 < 64 then 0 else (leafPayload h (o / 4096)).getD (o % 4096 - 64) 0
  if a < 0x11000 then leaf s.recorder.image a
  else if a < 0x22000 then leaf s.recorder.frozen (a - 0x11000)
  else s.recorder.staging.getD (a - 0x22000) 0

/-! The wall (R268, R269). -/

/-- What an unlisted page of the wall holds: nothing, as erased. -/
def erasedPage (_ : Nat) : List Nat := []

/-- An octet of the wall; erased octets read 0xFF. -/
def wallOctet (s : State) (a : Nat) : Nat := (SMap.get erasedPage s.recorder.wall (a / 1024)).getD (a % 1024) 0xFF

/-- A page of 1,024 octets programmed; one that is all 0xFF is as erased. -/
def putPage (w : SMap (List Nat)) (n : Nat) (l : List Nat) : SMap (List Nat) :=
  SMap.put erasedPage w n (if l.all (· = 0xFF) then [] else l)

/-- A leaf of 4,096 octets programmed at an address. -/
def putLeaf (w : SMap (List Nat)) (a : Nat) (l : List Nat) : SMap (List Nat) :=
  (List.range 4).foldl (fun w i => putPage w (a / 1024 + i) ((l.drop (1024 * i)).take 1024)) w

/-- Octets of the wall. -/
def wallOctets (s : State) (a n : Nat) : List Nat := (List.range n).map fun i => wallOctet s (a + i)

/-- The pages of `n` octets from an address erased. -/
def erase (w : SMap (List Nat)) (a n : Nat) : SMap (List Nat) :=
  w.filter fun x => !(decide (a / 1024 ≤ x.1) && decide (x.1 < (a + n) / 1024))

/-- An address moved on within a ring. -/
def ringAdd (base size a n : Nat) : Nat := if size = 0 then base else base + (a - base + n) % size

/-- The histogram ring and the journal ring, in force since the start. -/
def histRing (s : State) : Nat × Nat := ((s.rd K.histBase).toNat, (s.rd K.histSize).toNat)

/-- The journal ring. -/
def jrnlRing (s : State) : Nat × Nat := ((s.rd K.jrnlBase).toNat, (s.rd K.jrnlSize).toNat)

/-- The next LEAF_SEQ, kept in NVM; never reused. -/
def State.leafSeq (s : State) : Nat := (s.nvGet leafSeqKey).toNat
where
  /-- Where NVM keeps it; no dictionary entry shows it. -/
  leafSeqKey : Nat := 0x380300

/-- A LEAF_SEQ used up. -/
def State.useLeaf (s : State) : State := s.nvPut State.leafSeq.leafSeqKey (s.leafSeq + 1)

/-! Places of a ring (R269). -/

/-- How far an address lies ahead of a head in its ring. -/
def aheadBy (ring : Nat × Nat) (head a : Nat) : Nat := (a + ring.2 - head) % ring.2

/-- A leaf's place reads erased. -/
def placeErased (s : State) (a : Nat) : Bool :=
  (List.range 4).all fun i => decide (SMap.get erasedPage s.recorder.wall (a / 1024 + i) = [])

/-- The 64 next places of a ring that writes do not skip. -/
def aheadPlaces (s : State) (ring : Nat × Nat) (head : Nat) : List Nat :=
  let r := s.recorder
  let n := 64 + (r.bad.map fun b => r.eraseAt b / 4096).sum
  (((List.range n).map fun i => ringAdd ring.1 ring.2 head (4096 * i)).filter fun a => !r.bad.contains (r.blockStart a)).take 64

/-- The erase block due in the background (R269): the first that holds one of the 64 leaves ahead of the head, does not read erased
and holds no leaf behind the head. -/
def eraseDue (s : State) (ring : Nat × Nat) (head : Nat) : Option Nat :=
  let b (a : Nat) : Nat := s.recorder.blockStart a
  ((aheadPlaces s ring head).find? fun a => !placeErased s a && decide (aheadBy ring head (b a) ≤ aheadBy ring head a)).map b

/-- A head moved past the blocks whose erase failed: each is skipped once. -/
def pastBad (r : RecorderHw) (ring : Nat × Nat) : Nat → Nat → List Nat → Nat × List Nat
  | 0, a, bad => (a, bad)
  | n + 1, a, bad =>
    if bad.contains a then pastBad r ring n (ringAdd ring.1 ring.2 a (r.eraseAt a)) (bad.erase a) else (a, bad)

/-- The head of a ring at `a`, past the blocks whose erase failed. -/
def State.setHead (s : State) (jrnl : Bool) (a : Nat) : State :=
  let r := s.recorder
  let x := pastBad r (if jrnl then jrnlRing s else histRing s) r.bad.length a r.bad
  if jrnl then { s.wr K.jrnlHead x.1 with recorder := { r with bad := x.2 } }
  else { s with recorder := { r with histHead := x.1, bad := x.2 } }

/-- The head of a ring. -/
def ringHead (s : State) (jrnl : Bool) : Nat := if jrnl then (s.rd K.jrnlHead).toNat else s.recorder.histHead

/-- A leaf programmed at a place: it stands there, or the place is counted. A place that does not read erased takes no program. -/
def State.programLeaf (s : State) (a : Nat) (ok : Bool) (l : List Nat) : State :=
  if ok ∧ placeErased s a then { s with recorder := { s.recorder with wall := putLeaf s.recorder.wall a l } } else s.count K.wallErr

/-- A leaf for the head of a ring (R269): it stands there, or its place is skipped and counted, and the head moves on. -/
def State.writeLeaf (s : State) (jrnl ok : Bool) (l : List Nat) : State :=
  let a := ringHead s jrnl
  let ring := if jrnl then jrnlRing s else histRing s
  let s := s.useLeaf.programLeaf a ok l
  s.setHead jrnl (ringAdd ring.1 ring.2 a 4096)

/-! What the wall holds (R266, R267, R269). -/

/-- A leaf of `kind` that reads valid: MAGIC, VERSION, KIND and CRC. -/
def leafValid (kind : Nat) (l : List Nat) : Bool :=
  decide (l.take 6 = [0x48, 0x41, 0x57, 0x4B, 1, kind] ∧ l.drop 4092 = crc32 (l.take 4088))

/-- The number in octets `o` to `o + n` of a leaf. -/
def leafNum (l : List Nat) (o n : Nat) : Nat := leValue ((l.drop o).take n)

/-- The valid leaves of `kind` in a ring, with their addresses. -/
def ringLeaves (s : State) (ring : Nat × Nat) (kind : Nat) : List (Nat × List Nat) :=
  let places := ((s.recorder.wall.map (·.1)).filter fun n =>
    decide (n % 4 = 0 ∧ ring.1 ≤ 1024 * n ∧ 1024 * n < ring.1 + ring.2)).map (1024 * ·)
  (places.map fun a => (a, wallOctets s a 4096)).filter fun x => leafValid kind x.2

/-- The entry of a list at which `f` is greatest. -/
def maxBy (f : Nat × List Nat → Nat) : List (Nat × List Nat) → Option (Nat × List Nat)
  | [] => none
  | x :: l => match maxBy f l with
    | none => some x
    | some y => if f x < f y then some y else some x

/-- A ring's head: the place after the leaf of the highest LEAF_SEQ; the ring's base where it holds none. -/
def headOnWall (ring : Nat × Nat) (l : List (Nat × List Nat)) : Nat :=
  match maxBy (fun x => leafNum x.2 8 8) l with
  | some x => ringAdd ring.1 ring.2 x.1 4096
  | none => ring.1

/-- Flush `n` is complete (R267): all 17 IMAGE leaves with its FLUSH_SEQ read valid; the address of its leaf 0. -/
def flushOnWall (l : List (Nat × List Nat)) (n : Nat) : Option Nat :=
  let mine := l.filter fun x => decide (leafNum x.2 16 4 = n ∧ leafNum x.2 7 1 = 17)
  if (List.range 17).all fun i => mine.any fun x => decide (leafNum x.2 6 1 = i) then
    (maxBy (fun x => leafNum x.2 8 8) (mine.filter fun x => decide (leafNum x.2 6 1 = 0))).map (·.1)
  else none

/-- The latest complete flush on the wall: its FLUSH_SEQ and the address of leaf 0. -/
def latestOnWall (l : List (Nat × List Nat)) : Option (Nat × Nat) :=
  (l.map fun x => leafNum x.2 16 4).foldl (fun best n =>
    match flushOnWall l n with
    | some a => if best.all fun b => decide (b.1 < n) then some (n, a) else best
    | none => best) none

/-- The start (R267, R269): the rings' heads and the latest complete flush as the wall shows them. -/
def State.findHeads (s : State) : State :=
  let h := ringLeaves s (histRing s) 1
  let j := ringLeaves s (jrnlRing s) 2
  let s := match latestOnWall h with
    | some x => (s.wr K.flushSeq x.1).wr K.lastFlush x.2
    | none => s
  (s.setHead false (headOnWall (histRing s) h)).setHead true (headOnWall (jrnlRing s) j)

/-! Flushes (R264 to R267). -/

/-- A flush of cause `c` begins with the freeze of the image (R264); its number comes from NVM, and it takes the journal data staged
so far with it (R265). -/
def State.beginFlush (s : State) (c : Nat) : State :=
  let n := (s.nvGet K.flushSeq).toNat + 1
  let s := s.nvPut K.flushSeq n
  { s with recorder := { s.recorder with
      frozen := s.recorder.image, due := none, owed := s.recorder.staging.length
      flush := some { cause := c, seq := n, stamp := s.opStamp, tb := s.tb,
                      cycles := (s.rd K.powerCycles).toNat, frozen := false, leaf := 0, alt := none } } }

/-- The waiting flush starts, where none runs. -/
def State.startFlush (s : State) : State :=
  match s.recorder.due with
  | none => s
  | some c =>
    if s.recorder.flush.isSome then s else s.beginFlush c

/-- FLUSH_START (R265): a cause that meets neither a running flush nor the gap. -/
def execFlushStart (s : State) : Host.Outcome State Fault Refusal :=
  done (if s.recorder.gapEnd ≤ s.tb then s.startFlush else s)

/-- FLUSH_PENDING_START (R265): the running flush and the gap have both ended. -/
def execFlushPendingStart (s : State) : Host.Outcome State Fault Refusal :=
  done (if s.recorder.gapEnd ≤ s.tb then s.startFlush else s)

/-- FLUSH_PERIOD_EXPIRY (R265). -/
def execFlushPeriodExpiry (s : State) : Host.Outcome State Fault Refusal :=
  done (if s.rd K.flushPeriod = 0 then s else s.flushCause 3)

/-- IMAGE_FREEZE_DONE (R264, R262): the copy is complete; a REC_CLEAR that waited empties the image, and a sample that fell
during the copy is taken. -/
def execImageFreezeDone (s : State) : Host.Outcome State Fault Refusal :=
  done (
    match s.recorder.flush with
    | none => s
    | some f =>
      if f.frozen then s
      else
        let s := { s with recorder := { s.recorder with flush := some { f with frozen := true } } }
        let s := if s.recorder.clearing then s.clearImage else s
        let s := if s.recorder.sampleDue then s.sampleAll else s
        { s with recorder := { s.recorder with sampleDue := false } })

/-- The next leaf of a flush (Table 9.4). -/
def State.nextLeaf (s : State) (f : Flush) : List Nat :=
  leafOctets s 1 f.leaf 17 s.leafSeq f.seq f.cause 0 f.stamp f.cycles f.tb (leafPayload s.recorder.frozen f.leaf)

/-- Whether a journal leaf is due (R270, R272): its payload fills, an image flush has staged data to write, or power has failed; in a
power-fail flush the image leaves come first. -/
def journalDue (s : State) : Bool :=
  let r := s.recorder
  (decide (4024 ≤ r.staging.length) || (!r.staging.isEmpty && (decide (0 < r.owed) || r.powerFail))) &&
    !r.flush.any fun f => decide (f.cause = 6 ∧ f.leaf < 17)

/-- OP_SECONDS and FF_LATER written to NVM. -/
def State.saveSeconds (s : State) : State :=
  (s.nvPut K.opSeconds (s.rd K.opSeconds)).nvPut K.ffLater (s.rd K.ffLater)

/-- The device of a wall address. -/
def deviceOf (s : State) (a : Nat) : Option Nat := (s.recorder.chipAt a).map (·.1)

/-- The place on the other chip select that an odd leaf of a power-fail flush goes to (R272): the next place of the ring there that reads
erased; none where the ring has none. Where in the ring it lies is a DESIGN CHOICE (log entry 183). -/
def otherPlace (s : State) (f : Flush) : Option Nat :=
  if f.cause = 6 ∧ f.leaf % 2 = 1 ∧ s.recorder.chips.toList.all (·.isSome) then
    let ring := histRing s
    ((List.range (ring.2 / 4096)).map fun i => ring.1 + 4096 * i).find? fun a =>
      decide (deviceOf s a ≠ deviceOf s s.recorder.histHead) && placeErased s a && f.alt.all fun b => decide (b < a)
  else none

/-- Steps 4 and 5 of a power-fail end (R272): once the image leaves and the staged journal data stand, OP_SECONDS, FF_LATER and the
reference age are written to NVM. -/
def State.pfSaves (s : State) : State :=
  let r := s.recorder
  if r.saveDue ∧ r.cutLeaf = none ∧ ¬ (r.flush.any fun f => decide (f.cause = 6 ∧ f.leaf < 17)) ∧ (r.noWall ∨ ¬ journalDue s) then
    { s.saveSeconds with recorder := { r with saveDue := false } }.nvPut K.refAge (s.rd K.refAge)
  else s

/-- The saves of a power-fail are due, and take place once nothing stands before them (R272). -/
def State.dueSaves (s : State) : State := { s with recorder := { s.recorder with saveDue := true } }.pfSaves

/-- LEAF_WRITTEN (R266, R269): the next image leaf of the flush stands on the wall, or its place is skipped and counted and
the write moves on to the next; in a power-fail flush the leaves alternate between two chip selects (R272). The leaf that was in program at a power-fail declaration ends first (R272). -/
def execLeafWritten (ok : Bool) (s : State) : Host.Outcome State Fault Refusal :=
  done (
    match s.recorder.cutLeaf, s.recorder.flush with
    | some l, _ => (({ s with recorder := { s.recorder with cutLeaf := none } } : State).writeLeaf false ok l).pfSaves
    | none, none => s
    | none, some f =>
      if !f.frozen ∨ 17 ≤ f.leaf then s
      else
        let other := otherPlace s f
        let t := match other with
          | some a => s.useLeaf.programLeaf a ok (s.nextLeaf f)
          | none => s.writeLeaf false ok (s.nextLeaf f)
        let f := { f with alt := other.or f.alt }
        let f := if ok ∧ placeErased s (other.getD s.recorder.histHead) then { f with leaf := f.leaf + 1 } else f
        { t with recorder := { t.recorder with flush := some f } }.pfSaves)

/-- FLUSH_COMPLETE (R267, R265, R272): where the 17 leaves read valid the flush is the latest complete one, else the one before
stands; the gap starts, and a power-fail flush is timed. -/
def execFlushComplete (s : State) : Host.Outcome State Fault Refusal :=
  done (
    match s.recorder.flush with
    | none => s
    | some f =>
      if f.leaf < 17 then s
      else
        let s := match flushOnWall (ringLeaves s (histRing s) 1) f.seq with
          | some a => (((s.wr K.flushSeq f.seq).wr K.lastFlush a).wr K.lastCause f.cause).alert 11
          | none => s
        let gap := 100000 * (s.rd K.flushMinGap).toNat
        let s := { s with recorder := { s.recorder with flush := none, gapEnd := s.tb + gap } }
        if f.cause = 6 then
          let us := clampTo 0 u16Max (nearDiv ((s.time.edges - s.recorder.pfEdge : Nat) : Int) 100)
          ((s.wr K.pfLastUs us).nvPut K.pfLastUs us).pfSaves
        else s)

/-- WALL_ERASE_DONE (R269, R272): the erase due ahead of a ring's head ends; the leaves of a block that fails are counted, and writes
skip them. None goes on in a power cycle in which power-fail has been declared. -/
def execWallEraseDone (jrnl ok : Bool) (s : State) : Host.Outcome State Fault Refusal :=
  done (
    let r := s.recorder
    if r.noErase ∨ r.noWall then s
    else
      match eraseDue s (if jrnl then jrnlRing s else histRing s) (ringHead s jrnl) with
      | none => s
      | some b =>
        if ok then { s with recorder := { r with wall := erase r.wall b (r.eraseAt b) } }
        else
          let t := s.wr K.wallErr (min u32Max (s.rd K.wallErr + (r.eraseAt b / 4096 : Nat)))
          ({ t with recorder := { r with bad := b :: r.bad } } : State).setHead jrnl (ringHead s jrnl))

/-! The journal (R270). -/

/-- JOURNAL_APPEND (R270): the oldest signed record goes to staging, or is counted when it does not fit; with no wall nothing is
journalled. -/
def execJournalAppend (s : State) : Host.Outcome State Fault Refusal :=
  done (
    match s.recorder.signed with
    | [] => s
    | o :: rest =>
      let r := { s.recorder with signed := rest }
      if r.noWall then { s with recorder := r }
      else if 122880 < r.staging.length + o.length then ({ s with recorder := r }).count K.jrnlDrop
      else { s with recorder := { r with staging := r.staging ++ o, starts := r.starts ++ [r.staging.length] } })

/-- JOURNAL_LEAF_WRITE (R270, R269): a journal leaf stands on the wall, padded where it is not full, or its place is skipped.
Table 9.4 gives a journal leaf no CAUSE: that octet is free. -/
def execJournalLeafWrite (ok : Bool) (s : State) : Host.Outcome State Fault Refusal :=
  done (
    let r := s.recorder
    if r.noWall ∨ !journalDue s then s
    else
      let a := (s.rd K.jrnlHead).toNat
      let data := r.staging.take 4024
      let first := match r.starts with | x :: _ => if x < 4024 then x else 0xFFFF | [] => 0xFFFF
      let l := leafOctets s 2 0 1 s.leafSeq 0 (Config.freeNat s.fresh % 256) first s.opStamp (s.rd K.powerCycles).toNat s.tb
        (data ++ List.replicate (4024 - data.length) 0xFF)
      let t := s.draw.writeLeaf true ok l
      if ok ∧ placeErased s a then
        { t with recorder := { t.recorder with
            staging := r.staging.drop 4024, owed := r.owed - 4024
            starts := (r.starts.filter fun x => decide (4024 ≤ x)).map fun x => x - 4024 } }.pfSaves
      else t)

/-! Operating time (R273). -/

/-- OP_SECONDS_TICK (R273): each second outside POR and BOR; 40 bits that never go backwards. -/
def execOpSecondsTick (s : State) : Host.Outcome State Fault Refusal :=
  done { s.wr K.opSeconds (min (s.rd K.opSeconds + 1) (2 ^ 40 - 1)) with recorder := { s.recorder with opEdge := s.time.edges } }

/-- OP_SECONDS_SAVE (R273): every hour. -/
def execOpSecondsSave (s : State) : Host.Outcome State Fault Refusal := done s.saveSeconds

/-! Commands (R262, R275). -/

/-- REC_CMD 0x01 FLUSH (R265). -/
def execRecCmdFlush (s : State) : Host.Outcome State Fault Refusal := done ((s.flushCause 2).reply 0)

/-- REC_CLEAR 0x01 (R262): a flush of cause CLEAR, after whose freeze the image starts empty; while a flush runs the image is
emptied after that flush's freeze. -/
def State.recClear (s : State) : State :=
  match s.recorder.flush with
  | some f => if f.frozen then s.clearImage else { s with recorder := { s.recorder with clearing := true } }
  | none =>
    if s.recorder.noWall then s.clearImage
    else { s.flushCause 5 with recorder := { (s.flushCause 5).recorder with clearing := true } }

/-- REC_CLEAR 0x01. -/
def execRecClearImage (s : State) : Host.Outcome State Fault Refusal := done (s.recClear.reply 0)

/-- REC_CLEAR 0x02 WALL_ERASE (R275): BUSY while a flush runs; both rings are erased and no complete flush stands. -/
def State.wallErase (s : State) : State :=
  let r := s.recorder
  if r.flush.isSome then s.reply 1
  else
    let h := histRing s
    let j := jrnlRing s
    let s := { s with recorder := { r with
      wall := erase (erase r.wall h.1 h.2) j.1 j.2, histHead := h.1, bad := [] } }
    (((s.wr K.jrnlHead j.1).wr K.flushSeq 0).wr K.lastFlush 0).reply 0

/-- REC_CLEAR 0x02. -/
def execRecClearWallErase (s : State) : Host.Outcome State Fault Refusal := done s.wallErase

/-! The window (R274). -/

/-- Whether a wall range of 256 octets overlaps the leaf being programmed or the block being erased. -/
def wallBusy (s : State) (a : Nat) : Bool :=
  let r := s.recorder
  let past (b n : Nat) : Bool := decide (a < b + n) && decide (b < a + 256)
  let erasing (jrnl : Bool) : Bool :=
    !r.powerFail && (eraseDue s (if jrnl then jrnlRing s else histRing s) (ringHead s jrnl)).any fun b => past b (r.eraseAt b)
  (((r.flush.any fun f => f.frozen && decide (f.leaf < 17)) || r.cutLeaf.isSome) && past r.histHead 4096) ||
    (journalDue s && past (ringHead s true) 4096) || erasing false || erasing true

/-- The window of 256 octets at a cursor (R274): the octets, or the status that refuses them. -/
def window (s : State) (c : Nat) : Sum Nat (List Nat) :=
  if s.recorder.powerFail then .inl 1
  else if 2 ^ 63 ≤ c then
    if c ≤ 2 ^ 63 + 0x3FF00 then .inr ((List.range 256).map fun i => hawkOctet s (c - 2 ^ 63 + i)) else .inl 2
  else if c + 256 ≤ (s.rd K.wallSize).toNat then
    if wallBusy s c then .inl 1 else .inr ((List.range 256).map fun i => wallOctet s (c + i))
  else .inl 2

end Sys2Proof.Machine
end

