-- ==== Sys2Proof/Machine/Coat.lean ====
section
/-! DEFINITION. The meanings of the rail sequencer and margining commands, and of the window boundary that margining judges
("Rail Sequencing, Margining and Supervision"). -/

namespace Sys2Proof.Machine

/-- Any SEQ_CMD write reloads the restart count (R246). -/
def State.reloadRestarts (s : State) : State := s.wr K.restartsLeft (s.rd K.autoRestart)

/-- A command of the sequencer: refused BUSY where `busy` names SEQ_STATE (Table 8.4) or the sequencer is held in reset
(R234), and a refused command changes nothing. -/
def State.seqCmd (s : State) (busy : List Int) (f : State → State) : State :=
  if s.coat.held || busy.contains s.seqState then s.reply 1 else (f s.reloadRestarts).reply 0

/-- SEQ_CMD UP (R237). -/
def State.seqUp (s : State) : State := if s.seqState = Seq.off then s.powerUp else s

/-- SEQ_CMD UP (R237, R245). -/
def execSeqCmdUp (s : State) : Host.Outcome State Fault Refusal :=
  done (s.seqCmd [Seq.poweringDown, Seq.faultDown, Seq.fault] State.seqUp)

/-- SEQ_CMD DOWN (R241): the PWRGD composite drops before any EN changes. -/
def State.seqDown (s : State) : State :=
  if s.seqState = Seq.poweringUp ∨ s.seqState = Seq.up then
    let s := s.wr K.pwrgdState 0
    s.startDown Seq.poweringDown 0 (highestOn s 0)
  else s

/-- SEQ_CMD DOWN (R241, R245). -/
def execSeqCmdDown (s : State) : Host.Outcome State Fault Refusal := done (s.seqCmd [] State.seqDown)

/-- FAULT to OFF, FAULT_N bit 5 released (R243, R245). -/
def State.clearSeqFault (s : State) : State :=
  let s := { s with coatFault := false }.setSeq Seq.off
  allRails.foldl (fun s n => if s.railState n = Rs.fault then s.railOff n else s) s

/-- SEQ_CMD CLEAR_FAULT (R245). -/
def execSeqCmdClearFault (s : State) : Host.Outcome State Fault Refusal :=
  done (s.seqCmd [Seq.faultDown] fun s => if s.seqState = Seq.fault then s.clearSeqFault else s)

/-- SEQ_CMD RESTART: as UP from OFF, and CLEAR_FAULT then UP from FAULT. -/
def State.seqRestart (s : State) : State :=
  if s.seqState = Seq.off then s.powerUp
  else if s.seqState = Seq.fault then s.clearSeqFault.powerUp
  else s

/-- SEQ_CMD RESTART (R245). -/
def execSeqCmdRestart (s : State) : Host.Outcome State Fault Refusal :=
  done (s.seqCmd [Seq.poweringDown, Seq.faultDown] State.seqRestart)

/-- PHASE_START (R237, R241): PHASE_GAP after the phase in progress has completed, or is down, the next one starts. -/
def execPhaseStart (s : State) : Host.Outcome State Fault Refusal :=
  done (
    if !s.coat.phaseDone then s
    else if s.seqState = Seq.poweringUp then
      match (usedPhases s).find? fun (k : Nat) => decide (s.rd K.seqPhase < (k : Int)) with
      | some k => (s.startPhase k).checkPhase
      | none => s
    else if goingDown s then
      match nextDown s with
      | some k => { s.wr K.seqPhase k with coat := { s.coat with phaseDone := false } }
      | none => s.endDown
    else s)

/-- RAIL_START_DELAY_EXPIRY (R237, R158): the pre-enable self-check runs, in MODE. -/
def execRailStartDelayExpiry (n : Rail) (s : State) : Host.Outcome State Fault Refusal :=
  done (
    if s.railState n = Rs.waitDelay ∧ s.seqState = Seq.poweringUp then
      ((s.wR n Kr.railState Rs.check).setMode (winL n) true).startCheck (winL n)
    else s)

/-- RISE_TIMEOUT (R238): no PG since EN. -/
def execRiseTimeout (n : Rail) (s : State) : Host.Outcome State Fault Refusal :=
  done (if (s.rail n).en ∧ !(s.rail n).hadPg then s.railFault n RFlt.riseTimeout else s)

/-- RAIL_PG_QUAL_COMPLETE (R239, R133): PG asserts with the rail inside its window and its fault timer idle; a timer that
starts in the same cycle keeps PG low. -/
def execRailPgQualComplete (n : Rail) (ftStarts : Bool) (s : State) : Host.Outcome State Fault Refusal :=
  done (
    let h := s.rail n
    if h.en ∧ railInside s n ∧ h.ft = .idle ∧ s.rR n Kr.railPg = 0 then
      if ftStarts then s.setRail n { h with ft := .running }
      else
        let s := if h.hadPg then s else s.wR n Kr.riseTime (clampTo 0 u32Max ((s.tb : Int) - h.enTb))
        let s := (s.setRail n { h with hadPg := true }).wR n Kr.railPg 1
        (s.wR n Kr.railState (if h.wide then Rs.margin else Rs.good)).checkPhase
    else s)

/-- RAIL_FAULT_TIMER_EXPIRY (R239, R243): UV with L clear, OV with H set; PG drops. -/
def execRailFaultTimerExpiry (n : Rail) (s : State) : Host.Outcome State Fault Refusal :=
  done (
    if (s.rail n).ft = .running then
      let code := if (s.cmp (winL n)).l then RFlt.ov else RFlt.uv
      (s.railPgDrop n).railFault n code
    else s)

/-- RAIL_FAULT_TIMER_IDLE (R239). -/
def execRailFaultTimerIdle (n : Rail) (s : State) : Host.Outcome State Fault Refusal :=
  done (if (s.rail n).ft = .held then s.setRail n { s.rail n with ft := .idle } else s)

/-- RAIL_STOP_DELAY_EXPIRY (R241): the rail deasserts EN; also one whose phase FALL_TIMEOUT has already ended. -/
def execRailStopDelayExpiry (n : Rail) (s : State) : Host.Outcome State Fault Refusal :=
  done (
    if goingDown s ∧ (s.rail n).en ∧ s.rd K.seqPhase ≤ s.rR n Kr.railPhase ∧ (s.coat.downTo : Int) ≤ s.rR n Kr.railPhase then
      s.enOff n Rs.falling
    else if (s.seqState = Seq.off ∨ s.seqState = Seq.fault) ∧ (s.rail n).en ∧ (s.coat.downTo : Int) ≤ s.rR n Kr.railPhase then
      (s.enOff n Rs.off).applyRail n
    else s)

/-- PHASE_DOWN_COMPLETE (R241): every rail of the phase reads below OFF_TH. DESIGN CHOICE: a rail whose EN is still asserted in its
STOP_DELAY keeps the phase up whatever it reads (log 175). -/
def execPhaseDownComplete (s : State) : Host.Outcome State Fault Refusal :=
  done (
    if goingDown s ∧ !s.coat.phaseDone ∧
        (phaseRails s (s.rd K.seqPhase).toNat).all (fun n => !(s.rail n).en && belowOff s n) then s.phaseDown
    else s)

/-- FALL_TIMEOUT (R241): recorded for every rail still above OFF_TH, without an action; the power-down goes on. -/
def execFallTimeout (s : State) : Host.Outcome State Fault Refusal :=
  done (
    if goingDown s ∧ !s.coat.phaseDone then
      (((phaseRails s (s.rd K.seqPhase).toNat).filter fun n => !belowOff s n).foldl
        (fun s n => s.recordRail n RFlt.fallTimeout) s).phaseDown
    else s)

/-- AUTO_RESTART_EXPIRY (R246). -/
def execAutoRestartExpiry (s : State) : Host.Outcome State Fault Refusal :=
  done (
    if s.seqState = Seq.fault ∧ 0 < s.rd K.restartsLeft ∧ s.rd K.autoRestart ≠ 0 then
      ((s.wr K.restartsLeft (s.rd K.restartsLeft - 1)).clearSeqFault).powerUp
    else s)

/-- RESTART_COUNT_RELOAD (R246): 60 s of UP without a break. -/
def execRestartCountReload (s : State) : Host.Outcome State Fault Refusal :=
  done (if s.seqState = Seq.up then s.reloadRestarts else s)

/-- SEQ_AUTO_START (R247): once on leaving reset, when the stored values are applied, with SEQ_AUTO set. -/
def execSeqAutoStart (s : State) : Host.Outcome State Fault Refusal :=
  done (
    if s.coat.held ∨ s.coat.autoRan then s
    else
      let s := { s with coat := { s.coat with autoRan := true } }
      if s.rd K.seqAuto = 1 ∧ s.seqState = Seq.off then s.powerUp else s)

/-- PWRGD_QUAL_COMPLETE (R248): the composite asserts, unless a selected timer starts in the same cycle. -/
def execPwrgdQualComplete (ftStarts : Bool) (s : State) : Host.Outcome State Fault Refusal :=
  done (
    if pwrgdKeeps s ∧ (selRails s).all (fun n => decide ((s.rail n).ft = .idle)) ∧ !ftStarts then s.wr K.pwrgdState 1 else s)

/-- MGN_MODE write (R250, R251): refused BUSY unless the rail is used with PG while UP. From OFF the window widens before the
DAC leaves 0. -/
def State.writeMargin (s : State) (n : Rail) (m : Nat) : State :=
  if !marginRuns s n then s.reply 1
  else if m = 0 then ((s.marginOff n 0).judgeMargin n).reply 0
  else
    let s := if s.rR n Kr.mgnMode = 0 then ((s.setRail n { s.rail n with wide := true }).setMarginWindow n) else s
    let goal := if m = 1 then s.rR n Kr.mgnCode else s.rR n Kr.mgnCodeNow
    let s := (s.setRail n { s.rail n with goal := goal }).wR n Kr.mgnMode m
    (((s.wR n Kr.mgnStatus 1).wR n Kr.railState Rs.margin).judgeMargin n).reply 0

/-- MGN_MODE_WRITE. -/
def execMgnModeWrite (n : Rail) (m : Fin 3) (s : State) : Host.Outcome State Fault Refusal := done (s.writeMargin n m.val)

/-- MGN_STEP (R250): in CLOSED mode the code moves one step toward the target; LOCKED within MGN_TOL, AT_LIMIT at full
scale; after MGN_FAIL the code holds. DESIGN CHOICE: AT_LIMIT shows at the step that wants past full scale, and LOCKED stands before
it (log 177). -/
def execMgnStep (n : Rail) (s : State) : Host.Outcome State Fault Refusal :=
  done (
    if s.rR n Kr.mgnMode = 2 ∧ s.rR n Kr.mgnStatus ≠ 3 ∧ marginRuns s n then
      match railAvg s n with
      | none => s
      | some v =>
        let d := 1000 * s.rR n Kr.mgnTarget - v
        let now := s.rR n Kr.mgnCodeNow
        let want := if 0 < d then now + 1 else if d < 0 then now - 1 else now
        let lock := decide ((d.natAbs : Int) ≤ 1000 * s.rR n Kr.mgnTol)
        if want < -512 ∨ 511 < want then s.wR n Kr.mgnStatus (if lock then 2 else 5)
        else (s.setRail n { s.rail n with goal := want }).wR n Kr.mgnStatus (if lock then 2 else 1)
    else s)

/-- MGN_DAC_STEP (R249 to R251): one step toward the code while margining runs or returns to OFF; back at 0 with mode OFF and a normal
average the window narrows. -/
def execMgnDacStep (n : Rail) (s : State) : Host.Outcome State Fault Refusal :=
  done (
    let now := s.rR n Kr.mgnCodeNow
    let g := if marginRuns s n ∨ s.rR n Kr.mgnMode = 0 then (s.rail n).goal else now
    (s.wR n Kr.mgnCodeNow (if now < g then now + 1 else if g < now then now - 1 else now)).judgeMargin n)

/-- MGN_TIMEOUT (R250, R251): not LOCKED in CLOSED mode, MGN_FAIL, and the code holds where it stands; or the window narrows anyway after a return to OFF. DESIGN CHOICE: LOCKED is judged at
the instant of the expiry, not over the time before it (log 176). -/
def execMgnTimeout (n : Rail) (s : State) : Host.Outcome State Fault Refusal :=
  done (
    if s.rR n Kr.mgnMode = 2 then 
      (if s.rR n Kr.mgnStatus = 2 then s
      else ((s.setRail n { s.rail n with goal := s.rR n Kr.mgnCodeNow }).wR n Kr.mgnStatus 3).judgeMargin n)
    else if s.rR n Kr.mgnMode = 0 ∧ (s.rail n).wide then s.narrow n
    else s)

/-- FF_LOG_WRITTEN (R254): the entry is in NVM and valid. -/
def execFfLogWritten (s : State) : Host.Outcome State Fault Refusal :=
  done (
    match s.coat.ffNew with
    | some e => { (s.wrB K.ffLog e).wr K.ffValid 1 with coat := { s.coat with ffNew := none } }
    | none => s)

/-- FF_CMD CLEAR (R255). -/
def execFfCmdClear (s : State) : Host.Outcome State Fault Refusal :=
  done (({ ((s.wrB K.ffLog (List.replicate 292 0)).wr K.ffValid 0).wr K.ffLater 0 with
    coat := { s.coat with ffNew := none } }).reply 0)

/-- The windows of one length end, and a 1 ms boundary judges margining (R219, R251). -/
def State.boundaryOf (s : State) (w : Fin 3) (split : Bool) : State :=
  let s := s.windowEnd w split
  if w = 1 then allRails.foldl State.judgeMargin s else s

/-- WINDOW_BOUNDARY (R219, R251): TB has come to a boundary. -/
def execWindowBoundary (w : Fin 3) (s : State) : Host.Outcome State Fault Refusal :=
  done (if windowDue s w then s.boundaryOf w false else s)

end Sys2Proof.Machine
end

