-- ==== Sys2Proof/Machine/Timers.lean ====
section
/-! DEFINITION. The time base, the counters, the compare channels and the trigger generators ("Time Base, Counters and
Trigger Generators"). -/

namespace Sys2Proof.Machine

/-- PLL_B is stopped and TB follows AONCLK (R347): TB_SOURCE. -/
def State.catchUp (s : State) : Bool := decide (s.rd K.tbSource = 1)

/-- PLL_B stops (R347): TB follows AONCLK, discipline is suspended and TB_LOCK clears. -/
def State.stopPllB (s : State) : State := { (s.wr K.tbSource 1).wr K.tbLock 0 with time := { s.time with good := 0 } }

/-- Whether core `c` owns an element whose OWNER entry reads `o` (R349): the float engine owns what the engine it has adopted
owns. -/
def State.owns (s : State) (c : CoreId) (o : Int) : Bool :=
  if c.val = 17 then decide (o = 0x1F)
  else decide (o = (c.val : Int)) || (decide (c.val = 16) && decide (o = s.rd K.adoptEng ∧ o < 16))

/-- A window write to an element that the core does not own (R349). -/
def State.denyWrite (s : State) (c : CoreId) : State :=
  { s with time := { s.time with denied := tset s.time.denied c true } }

/-! Compare channels (R340). -/

/-- An armed channel at or past its value fires: it disarms, or its value moves on by TBC_STEP; one that passes several of its values within
a burst sets LATE and moves to the first multiple beyond TB. -/
def TbcHw.fire (t : TbcHw) (burst : Bool) (tb : Nat) : TbcHw :=
  let t := { t with fired := true }
  if t.periodic ∧ t.step ≠ 0 then
    if burst ∧ t.value + t.step ≤ tb then { t with late := true, value := (tb / t.step + 1) * t.step }
    else { t with value := t.value + t.step }
  else { t with arm := false }

/-- Every armed channel whose value TB has reached fires once, and its event goes out (Table 6.8). -/
def State.fireAll (s : State) (burst : Bool) : State :=
  (List.finRange 32).foldl (fun s m =>
    let t := s.tbc m
    if t.arm ∧ t.value ≤ s.tb then (s.setTbc m (t.fire burst s.tb)).emit (0x10 + m.val) else s) s

/-- TBC_HI_WRITE (R340, R349, R350): arms the channel with the 64-bit value; one already passed fires on the next edge with
LATE. -/
def execTbcHiWrite (c : CoreId) (m : Tbc) (v : BitVec 32) (s : State) : Host.Outcome State Fault Refusal :=
  done (
    if s.owns c (s.rU m Ku.tbcOwner) then
      let t := s.tbc m
      let x := t.value % 4294967296 + v.toNat * 4294967296
      s.setTbc m { t with value := x, arm := true, late := t.late || decide (x ≤ s.tb) }
    else s.denyWrite c)

/-! Counters (R341 to R344). -/

/-- Whether counter `k` counts the wraps of the one below it. -/
def State.chained (s : State) (k : Ctr) : Bool := decide (0 < k.val) && decide (s.rT k Kt.ctSrc = 2)

/-- The counters of the chain that starts at `k`, lowest first: `k` and the chained ones above it, `n` at most. -/
def chainFrom (s : State) : Nat → Ctr → List Ctr
  | 0, _ => []
  | n + 1, k => k :: (if h : k.val + 1 < 32 then (if s.chained ⟨k.val + 1, h⟩ then chainFrom s n ⟨k.val + 1, h⟩ else []) else [])

/-- The value of the chain that starts at `k` (R342). -/
def chainValue (s : State) (k : Ctr) : Nat := (chainFrom s 32 k).foldr (fun c v => (s.ct c).val + 65536 * v) 0

/-- Whether a value `x` lies among the `c` counts after `v` on a counter of 16 bits. -/
def passes (x v c : Nat) : Bool := decide ((x + 65536 - v - 1) % 65536 < c)

/-- Counter `k` counts `c` times (R341, R343): value, WRAP, the compares that its own value passes; the number of wraps comes
back. The CMPA of a wide chain is judged over the chain. -/
def State.countBy (s : State) (k : Ctr) (c : Nat) (wide : Bool) : State × Nat :=
  let h := s.ct k
  let x := h.val + c
  (s.setCt k { h with
    val := x % 65536, wrap := h.wrap || decide (65536 ≤ x)
    evA := h.evA || (!wide && passes h.cmpA h.val c), evB := h.evB || passes h.cmpB h.val c }, x / 65536)

/-- CT_WIDE of the chain that counter `k` belongs to, `n` counters at most below it. -/
def wideChain (s : State) : Nat → Ctr → Bool
  | 0, _ => false
  | n + 1, k => if s.chained k then wideChain s n ⟨k.val - 1, by omega⟩ else decide (s.rT k Kt.ctWide = 1)

/-- The CMPA values of a wide chain as one value. -/
def chainCmp (s : State) (k : Ctr) : Nat := (chainFrom s 32 k).foldr (fun c v => (s.ct c).cmpA + 65536 * v) 0

/-- The wide compare of the chain that starts at `k`, from the chain value `v0` of before the counts (R343). -/
def State.wideCheck (s : State) (k : Ctr) (v0 : Nat) : State :=
  let n := (chainFrom s 32 k).length
  let m := 65536 ^ n
  let moved := (chainValue s k + m - v0) % m
  if s.rT k Kt.ctWide = 1 ∧ (chainCmp s k + m - v0 - 1) % m < moved then s.setCt k { s.ct k with evA := true } else s

/-- The counters above counter `k` in its chain count the wraps of the ones below. -/
def State.carry (s : State) : Nat → Ctr → Nat → State
  | 0, _, _ => s
  | n + 1, k, w =>
    if h : k.val + 1 < 32 then
      let j : Ctr := ⟨k.val + 1, h⟩
      if w ≠ 0 ∧ s.chained j then
        let r := s.countBy j w (wideChain s 32 j)
        r.1.carry n j r.2
      else s
    else s

/-- The lowest counter `k` of a chain counts `c` times, and its chain follows. -/
def State.countChain (s : State) (k : Ctr) (c : Nat) : State :=
  let v0 := chainValue s k
  let r := s.countBy k c (decide (s.rT k Kt.ctWide = 1))
  (r.1.carry 32 k r.2).wideCheck k v0

/-- `n` TBCLK edges at the counters that count them, each by its divider (R341, R347). One whose divider has come down to the edges since its
last count counts on the next edge: DESIGN CHOICE (log entry 182). -/
def State.advanceCts (s : State) (n : Nat) : State :=
  (List.finRange 32).foldl (fun s k =>
    if s.rT k Kt.ctSrc = 0 then
      let d := max 1 (s.rT k Kt.ctDiv).toNat
      let ph := min (s.ct k).phase (d - 1) + n
      (s.setCt k { s.ct k with phase := ph % d }).countChain k (ph / d)
    else s) s

/-- A capture of one counter (R344). -/
def CtHw.capture (h : CtHw) : CtHw := { h with cap := h.val, capf := true, ovrn := h.ovrn || h.capf }

/-- CT_CAPTURE (R344): the event that CT_CAP_SRC of counter `k` selects arrives; on a chain's lowest counter it captures the whole
chain. -/
def execCtCapture (k : Ctr) (s : State) : Host.Outcome State Fault Refusal :=
  done (
    if !s.time.due.contains (.cap k) then s
    else if s.chained k then (s.arrived (.cap k)).setCt k (s.ct k).capture
    else (chainFrom s 32 k).foldl (fun s j => s.setCt j (s.ct j).capture) (s.arrived (.cap k)))

/-- CT_VAL_CHAIN_READ (R342): a read of a chain's lowest counter latches the higher ones for the reader. -/
def State.latchChain (s : State) (c : CoreId) (k : Ctr) : State :=
  if s.chained k then s
  else
    let snap := ((chainFrom s 32 k).drop 1).foldl (fun m j => memPut m (c.val * 32 + j.val) (s.ct j).val) s.time.snap
    { s with time := { s.time with snap := snap } }

/-- CT_VAL_CHAIN_READ. -/
def execCtValChainRead (c : CoreId) (k : Ctr) (s : State) : Host.Outcome State Fault Refusal := done (s.latchChain c k)

/-- A read of CT_CAP (R344): the owner's clears CAPF. -/
def State.readCap (s : State) (c : CoreId) (k : Ctr) : State :=
  if s.owns c (s.rT k Kt.ctOwner) then s.setCt k { s.ct k with capf := false } else s

/-- CT_CAP_READ. -/
def execCtCapRead (c : CoreId) (k : Ctr) (s : State) : Host.Outcome State Fault Refusal := done (s.readCap c k)

/-! Trigger generators (R345, R346). -/

/-- The count becomes 0: the event goes out, a shadowed period is taken, and a stop that waits takes effect. -/
def TgHw.zero (t : TgHw) : TgHw :=
  { t with count := 0, evt := true, active := t.period, run := !t.stopping, stopping := false }

/-- `n` TB ticks at a generator with divider `d` (R345, R347): the generator after, and where its count has become 0 by how many zeros
more than the one that is the event. -/
def TgHw.advance (t : TgHw) (d n : Nat) : TgHw × Option Nat :=
  if t.run then
    let ph := min t.phase (d - 1) + n
    let x := t.count + ph / d
    let p := max 2 t.active
    let t := { t with phase := ph % d }
    if x < p then (if t.stopping then { t with run := false, stopping := false } else { t with count := x }, none)
    else
      let q := max 2 t.period
      let y := x - p
      if t.stopping then (t.zero, some 0) else ({ t.zero with count := y % q }, some (y / q))
  else (t, none)

/-- A generator at its start edge (R345). -/
def TgHw.start (t : TgHw) : TgHw := { { t with run := true, stopping := false, waiting := false, phase := 0 }.zero with run := true }

/-- The event of generator `g` goes out (Table 6.8). -/
def State.tgOut (s : State) (g : Tg) : State := s.emit (0x30 + g.val)

/-- `n` TB ticks at every generator, TB having moved on already; one that waits starts when TB has reached TG_T0. -/
def State.advanceTgs (s : State) (n : Nat) : State :=
  (List.finRange 8).foldl (fun s g =>
    let t := s.tg g
    if t.waiting ∧ (s.rX g Kx.tgT0).toNat ≤ s.tb then (s.setTg g t.start).tgOut g
    else
      let r := t.advance (max 1 (s.rX g Kx.tgDiv).toNat) n
      let s := s.setTg g r.1
      match r.2 with
      | none => s
      | some 0 => s.tgOut g
      | some k => (s.wr (keyX g Kx.tgBurstSkip) (min u32Max (s.rX g Kx.tgBurstSkip + k))).tgOut g) s

/-- TG_CMD 0x01 START (R345): the generator waits for TG_T0; one already passed starts it late. -/
def execTgCmdStart (g : Tg) (s : State) : Host.Outcome State Fault Refusal :=
  done (
    let t := s.tg g
    (s.setTg g { t with waiting := true, late := t.late || decide ((s.rX g Kx.tgT0).toNat ≤ s.tb) }).reply 0)

/-- TG_CMD 0x02 STOP (R345): the generator stops on the next edge. -/
def execTgCmdStop (g : Tg) (s : State) : Host.Outcome State Fault Refusal :=
  done (
    let t := s.tg g
    (s.setTg g { t with waiting := false, stopping := t.run }).reply 0)

/-- A write of TG_PERIOD (R346, R349): shadowed, or with IMMEDIATE in force at once, restarting a count that is at or above
it. A value below 2 is ignored; a generator
that does not run takes one written with IMMEDIATE at once. -/
def State.writePeriod (s : State) (c : CoreId) (g : Tg) (v : Nat) : State :=
  let t := s.tg g
  if !s.owns c (s.rX g Kx.tgOwner) then s.denyWrite c
  else if v < 2 then s
  else if t.imm ∧ t.run then
    if t.count < v then s.setTg g { t with period := v, active := v }
    else (s.setTg g { t with period := v, active := v, count := 0, phase := 0, skip := true, evt := true }).tgOut g
  else if t.imm then s.setTg g { t with period := v, active := v }
  else s.setTg g { t with period := v }

/-- TG_PERIOD_WRITE. -/
def execTgPeriodWrite (c : CoreId) (g : Tg) (v : BitVec 32) (s : State) : Host.Outcome State Fault Refusal :=
  done (s.writePeriod c g v.toNat)

/-! The time base (R335 to R339, R347). -/

/-- TB moves forward by `n` on one edge: channels and generators follow; `burst` says that it covers many ticks (R340, R347). -/
def State.advanceTb (s : State) (n : Nat) (burst : Bool) : State := ({ s with tb := s.tb + n }.fireAll burst).advanceTgs n

/-- A step leaves every window under way partly integrated (R338): GAP. -/
def State.gapWindows (s : State) : State :=
  { s with mets := s.mets.map fun (m : MetHw) => { m with wins := m.wins.map fun (w : WinAcc) => { w with gap := true } } }

/-- The boundaries that TB has come to and that are still to be taken; `split` says that they lie inside a step. -/
def State.takeBoundaries (s : State) (split : Bool) : State :=
  (List.finRange 3).foldl (fun s w => if windowDue s w then s.boundaryOf w split else s) s

/-- TB moves forward by `n` in a step (R338): one burst, and the window boundaries inside it are taken at the step edge. -/
def State.jumpTb (s : State) (n : Nat) : State :=
  let s := (s.takeBoundaries false).gapWindows
  let s := { s with time := { s.time with step := none, baseTb := s.tb + n, baseEdge := s.time.edges } }
  (s.advanceTb n true).takeBoundaries true

/-- The TB_STEP that waits applies on this edge (R338). -/
def State.applyStep (s : State) : State :=
  match s.time.step with
  | none => s
  | some n => s.jumpTb n

/-- A write of TB_STEP (R338): BUSY for 0 or while one waits; RANGE above 2⁴⁸ − 1. -/
def State.writeStep (s : State) (n : Nat) : State :=
  if n = 0 ∨ s.time.step.isSome then s.reply 1
  else if 2 ^ 48 ≤ n then s.reply 2
  else { s with time := { s.time with step := some n } }.reply 0

/-- TB_STEP_WRITE. -/
def execTbStepWrite (n : Nat) (s : State) : Host.Outcome State Fault Refusal := done (s.writeStep n)

/-- One TBCLK edge (R335, R337): TB moves by 1 + δ in 64.32 fixed point, with a step that waits where TB_DISC is NONE (R338), and the
counters count. There is no edge while PLL_B is stopped. -/
def State.tick (s : State) : State :=
  if s.catchUp then s
  else
    let x := (s.time.frac : Int) + 4294967296 + s.time.delta
    let n := (x / 4294967296).toNat
    let s := { s with time := { s.time with frac := (x % 4294967296).toNat, edges := s.time.edges + 1 } }
    (match s.time.step with
      | some k => if s.rd K.tbDisc = 0 then s.jumpTb (n + k) else s.advanceTb n false
      | none => s.advanceTb n false).advanceCts 1

/-- TB_STEP_APPLY (R338): the next TBCLK edge, on which a step with no disciplining input applies. -/
def execTbStepApply (s : State) : Host.Outcome State Fault Refusal :=
  done (if s.time.step.isSome ∧ s.rd K.tbDisc = 0 then s.tick else s)

/-- TB_LO_READ (R336): TB[63:32] is latched for the reader. -/
def State.latchHi (s : State) (r : Requester) : State :=
  { s with time := { s.time with hi := tset s.time.hi r (s.tb / 4294967296) } }

/-- TB_LO_READ. -/
def execTbLoRead (r : Requester) (s : State) : Host.Outcome State Fault Refusal := done (s.latchHi r)

/-- The error of an edge stamped at TB, with its fraction of 1.25 ns (R337): its distance from the nearest multiple of 100,000,000 ticks,
in 0.05 ns. -/
def edgeError (tb : Nat) (frac : Fin 8) : Int :=
  let r : Int := ((tb % 100000000 : Nat) : Int)
  (if r < 50000000 then r else r - 100000000) * 200 + ((frac.val * 25 : Nat) : Int)

/-- An edge of the selected input disciplines TB (R337): δ removes the error over the next second, within 100 ppm; TB_LOCK
follows. -/
def State.discipline (s : State) (frac : Fin 8) : State :=
  let e := edgeError s.tb frac
  let d := clampTo (-429496) 429496 (nearDiv (-e * 4294967296) 20000000000)
  let g := if e.natAbs ≤ 40 then s.time.good + 1 else 0
  let s := { s with time := { s.time with delta := d, good := g } }
  let s := (s.wr K.tbErr (clampTo (-2147483648) 2147483647 (nearDiv e 2))).wr K.tbRate (nearDiv (d * 1000000000) 4294967296)
  if 4 ≤ g then s.wr K.tbLock 1 else if 200 < e.natAbs then s.wr K.tbLock 0 else s

/-- With TB_DISC at NONE δ is 0 and TB follows PLL_B alone (R337): nothing locks it. -/
def State.undisciplined (s : State) : State :=
  ({ s with time := { s.time with delta := 0, good := 0 } }.wr K.tbRate 0).wr K.tbLock 0

/-- TB_DISC applies at the next edge of the input `src` it names (R352). -/
def State.takeDisc (s : State) (src : Int) : State :=
  if s.pendingVal K.tbDisc = some src then s.applyKey K.tbDisc else s

/-- An edge closer than 100 µs to the one before on its pin does not discipline (R339). -/
def tooClose (now : Nat) (last : Option Nat) : Bool := last.any fun t => decide (now < t + 10000)

/-- An edge of the polarity that `pol` selects: 0 rising, 1 falling (R339). -/
def activeEdge (pol : Int) (rise : Bool) : Bool := rise == decide (pol = 0)

/-- An active edge of the disciplining input (R337, R338, R339): unless `close`, it disciplines TB while PLL_B runs; a step that waits applies,
after the stamp: DESIGN CHOICE (log entry 181). -/
def State.disciplineEdge (s : State) (frac : Fin 8) (close : Bool) : State :=
  (if close ∨ s.catchUp then s else s.discipline frac).applyStep

/-- PPS_IN_EDGE (R337, R339, R344): an active edge is stamped, counted, goes to the captures and, where selected, disciplines TB. -/
def execPpsInEdge (rise : Bool) (frac : Fin 8) (s : State) : Host.Outcome State Fault Refusal :=
  done (
    if !activeEdge (s.rd K.ppsPol) rise then s
    else
      let close := tooClose s.time.edges s.time.ppsLast
      let s := (((s.wr K.ppsStamp s.tb).wr K.ppsFrac frac.val).count K.ppsCount).emit 1
      let s := { s with time := { s.time with ppsLast := some s.time.edges } }.takeDisc 1
      if s.rd K.tbDisc = 1 then s.disciplineEdge frac close else s)

/-- SYNC_IN_EDGE (R337, R339, R344, R224, R226): as PPS_IN_EDGE; with SYNC_MODE[0] it requests a skim at its stamp, or counts in
SKIM_MISSED. -/
def execSyncInEdge (rise : Bool) (frac : Fin 8) (s : State) : Host.Outcome State Fault Refusal :=
  done (
    if !activeEdge (s.rd K.syncPol) rise then s
    else
      let close := tooClose s.time.edges s.time.syncLast
      let t := s.tb
      let s := (((s.wr K.syncStamp t).wr K.syncFrac frac.val).count K.syncCount).emit 2
      let s := { s with time := { s.time with syncLast := some s.time.edges } }.takeDisc 2
      let s := if s.rd K.tbDisc = 2 then s.disciplineEdge frac close else s
      if !bit (s.rd K.syncMode) 0 then s else if skimBusy s then s.count K.skimMissed else s.schedule t)

/-- TB_DISC_NO_EDGE (R337): no edge for 2 s: TB_LOCK clears and δ holds. -/
def execTbDiscNoEdge (s : State) : Host.Outcome State Fault Refusal :=
  done ({ s with time := { s.time with good := 0 } }.wr K.tbLock 0)

/-- The ticks of one AONCLK tick with the accumulator at `a` (R347), and the accumulator after. -/
def catchUpTicks (a : Nat) : Nat × Nat := if 127 < a + 97 then (3052, a + 97 - 128) else (3051, a + 97)

/-- One AONCLK tick (R347, R341): AONCLK counters count once; with PLL_B stopped TB, the channels, the generators and the TBCLK counters
move in one burst first. -/
def State.aonTick (s : State) : State :=
  let s :=
    if s.catchUp then
      let r := catchUpTicks s.time.acc
      ({ s with time := { s.time with acc := r.2, edges := s.time.edges + r.1 } }.advanceTb r.1 true).advanceCts r.1
    else s
  (List.finRange 32).foldl (fun s k => if s.rT k Kt.ctSrc = 1 then s.countChain k 1 else s) s

/-- AON_CATCHUP_TICK. -/
def execAonCatchupTick (s : State) : Host.Outcome State Fault Refusal := done s.aonTick

/-! Events of the next edge. Each command of one is that edge, for the whole time base; where the edge does not bring the event the
command does nothing. -/

/-- The next edge on which TB moves. -/
def State.edge (s : State) : State := if s.catchUp then s.aonTick else s.tick

/-- Counter `k` counts AONCLK: by itself or through its chain. -/
def countsAon (s : State) : Nat → Ctr → Bool
  | 0, _ => false
  | n + 1, k => if s.chained k then countsAon s n ⟨k.val - 1, by omega⟩ else decide (s.rT k Kt.ctSrc = 1)

/-- The next edge on which counter `k` may count. -/
def State.countEdge (s : State) (k : Ctr) : State := if countsAon s 32 k then s.aonTick else s.edge

/-- TBC_FIRE (R340): TB reaches the value of an armed channel on the next edge. -/
def execTbcFire (m : Tbc) (s : State) : Host.Outcome State Fault Refusal :=
  done (
    let t := (s.setTbc m { s.tbc m with fired := false }).edge
    if (t.tbc m).fired then t else s)

/-- COUNTER_WRAP (R341): the counter passes from 0xFFFF to 0 on its next edge: WRAP, and its chained neighbour counts. -/
def execCounterWrap (k : Ctr) (s : State) : Host.Outcome State Fault Refusal :=
  done (
    let t := (s.setCt k { s.ct k with wrap := false }).countEdge k
    if (t.ct k).wrap then t else s)

/-- CT_COMPARE_MATCH (R343): the counter, or the wide chain it is the lowest of, becomes equal to a compare on its next edge; `b` says
CMPB. -/
def execCtCompareMatch (k : Ctr) (b : Bool) (s : State) : Host.Outcome State Fault Refusal :=
  done (
    let h := s.ct k
    let t := (s.setCt k (if b then { h with evB := false } else { h with evA := false })).countEdge k
    if (if b then (t.ct k).evB else (t.ct k).evA) then t else s)

/-- TG_START_EDGE (R345): TB reaches TG_T0, or has passed it, on the next edge: the count is set to 0 and the event goes out. -/
def execTgStartEdge (g : Tg) (s : State) : Host.Outcome State Fault Refusal :=
  done (if (s.tg g).waiting ∧ (s.edge.tg g).waiting = false then s.edge else s)

/-- TG_EVENT (R345): the count of a running generator becomes 0 on the next edge. -/
def execTgEvent (g : Tg) (s : State) : Host.Outcome State Fault Refusal :=
  done (
    let t := (s.setTg g { s.tg g with evt := false }).edge
    if (t.tg g).evt then t else s)

end Sys2Proof.Machine
end

