-- ==== Sys2Proof/Machine/Views.lean ====
section
/-! DEFINITION. What a read of a dictionary entry shows: the entries whose value follows from the rest of the state, and every
other entry as it stands. -/

namespace Sys2Proof.Machine

/-- A number as the unsigned content of `n` octets, two's complement (Table 13.1). -/
def unsignedOf (n : Nat) (v : Int) : Nat := (v % (256 ^ n : Nat)).toNat

/-- Entries of a port that follow the state: ATTACH_STATE under link hold (R22), RESTART_RESERVE (R76), PP_FLAGS[5]. -/
def viewPort (s : State) (p : Port) (o : Nat) : Int :=
  if o = Kp.attachState then (if s.lath (tileOf p) = 2 ∧ s.rP p o ≠ Att.safeOff then Att.linkHold else s.rP p o)
  else if o = Kp.restartReserve then s.restartReserve p
  else if o = Kp.ppFlags then withBit (s.rP p o) 5 (limitActive s p)
  else s.rP p o

/-- ST_STATE (Table 3.5). -/
def viewSlot (s : State) (n : Slot) (o : Nat) : Int :=
  let h := s.slot n
  if o = Ks.stState then
    (if h.inForce then 3 else if h.writing then 1 else if h.armed.isSome then 2 else 0)
  else s.rS n o

/-- CMP_STATUS of comparator `c` (Table 5.6); a check drives both outputs to their fault side (R156). -/
def cmpStatusOf (c : Cmp) (h : CmpHw) : Nat :=
  bitsOf [h.effH, h.effL (faultL c), h.hLatch, h.lLatch, h.hUnres, h.lUnres, h.chkFail, h.checking]

/-- Entries of a comparator. -/
def viewCmp (s : State) (c : Cmp) (o : Nat) : Int :=
  if o = Kc.cmpStatus then cmpStatusOf c (s.cmp c) else s.rC c o

/-- CV_STATUS (Table 6.15). DESIGN CHOICE: [0] RUNNING also shows in the delay between a trigger and its first sample (R207, log 174). -/
def cvStatusOf (s : State) (c : Conv) : Nat :=
  let h := s.conv c
  bitsOf [decide (h.run = .running ∨ h.run = .delay), decide (h.run = .waiting), decide (h.cal = .running), h.calValid, h.calFail,
    refSettled s c, h.plausFail, h.plausStale,
    uncCause s c || allQuants.any fun x => decide (qConv x = c) && (s.met x).unc] + 512 * (h.calSrc % 4) + (if h.inj.isSome then 2048 else 0)

/-- Entries of a converter. -/
def viewConv (s : State) (c : Conv) (o : Nat) : Int :=
  if o = Kv.cvStatus then cvStatusOf s c else s.rV c o

/-- A CNVCLK count in TB ticks. -/
def tbTicks (n : Nat) : Nat := n * 5 / 4

/-- The completed averages of a window: 0 voltage, 1 current, 2 power. -/
def avgOf (m : MetHw) (q : Nat) (w : Nat) : Int :=
  let v := tget m.avg (Fin.ofNat 3 w)
  if q = 0 then v.v else if q = 1 then v.i else v.p

/-- Entries of a metering channel (Table 7.6). -/
def viewMet (s : State) (ch : Nat) (o : Nat) : Int :=
  let x : Fin 100 := Fin.ofNat 100 ch
  let m := s.met x
  if o = Km.vNow then lsb m.vNow
  else if o = Km.iNow then lsb m.iNow
  else if o = Km.pNow then lsb m.pNow
  else if Km.vAvg ≤ o ∧ o < Km.vAvg + 9 then avgOf m ((o - Km.vAvg) / 3) ((o - Km.vAvg) % 3)
  else if o = Km.eFwd then m.eFwd / frac
  else if o = Km.eRev then m.eRev / frac
  else if o = Km.qFwd then m.qFwd / frac
  else if o = Km.qRev then m.qRev / frac
  else if o = Km.epoch then (m.epochF + 65536 * m.epochR : Nat)
  else if o = Km.metFlags then (m.flags (metEnv s x) : Nat)
  else if o = Km.uncertainTime then (tbTicks m.uncC : Nat)
  else if o = Km.gapTime then (tbTicks m.gapC : Nat)
  else if o = Km.voutAvg then (if 64 ≤ ch then avgOf (s.met (Fin.ofNat 100 (34 + ch))) 0 1 else -2147483648)
  else s.rd (areaKey 0x3640 1 ch o)

/-- RAIL_V_AVG and RAIL_FLAGS. -/
def viewRailMet (s : State) (n : Nat) (o : Nat) : Int :=
  let x : Fin 100 := Fin.ofNat 100 (66 + n)
  let m := s.met x
  if o = Kq.railFlags then (m.flags (metEnv s x) % 256 : Nat) else avgOf m 0 (o - Kq.railVAvg)

/-- SKIM_BANK: the capture at SKIM_S (R222). -/
def viewSkim (s : State) (ch : Nat) (o : Nat) : Int :=
  let c := (s.met (Fin.ofNat 100 ch)).bank
  if o = 1 then c.eFwd else if o = 2 then c.eRev else if o = 3 then c.qFwd else if o = 4 then c.qRev
  else if o = 5 then (c.epoch : Nat) else if o = 6 then (c.met : Nat) else if o = 7 then (tbTicks c.unc : Nat)
  else (tbTicks c.gap : Nat)

/-- CT_CHAIN: up to 64 bits from one edge, starting at the counter (R342). -/
def viewCt (s : State) (k : Ctr) (o : Nat) : Int :=
  if o = Kt.ctChain then (chainValue s k % 18446744073709551616 : Nat) else s.rT k o

/-- RESTART_HELD: what cut ports being restored hold as RESTART_RESERVE (Table 3.6). -/
def restartHeld (s : State) : Int :=
  (allPorts.map fun p => if (s.lport p).restart then s.rP p Kp.booking else 0).sum

/-- COEF_STATE (R212). -/
def coefState (s : State) : Int :=
  if s.rd K.calBank ≠ 0 ∧ s.rd K.calBank ≠ 1 then 2 else if allQuants.any (defaultCoef s) then 1 else 0

/-- REC_STATE (Table 9.6); after a rearm POWER_FAIL stands until the flush ends (R453). -/
def recState (s : State) : Int :=
  let r := s.recorder
  if r.powerFail || r.flush.any fun f => decide (f.cause = 6) then 4 else if r.noWall then 5
  else match r.flush with
    | some f => if f.frozen then 2 else 1
    | none => if r.due.isSome then 3 else 0

/-- DEG_FLAGS (Table 17.11). -/
def degFlags (s : State) : Nat :=
  bitsOf [decide (s.engSt pe16 = Es.floatActive), decide (s.engSt pe16 = Es.floatLost), allPorts.any fun p => (s.path p).safe,
    (List.finRange 8).any fun n => decide (s.lath n = 3), (List.finRange 98).any fun x => (s.met (Fin.ofNat 100 x.val)).unc,
    bit (s.rd K.bootFlags) 5 || allPorts.any fun p => decide (s.rd (K.safeCause + p.val) = 4)]

/-- PS_STATE (Table 17.11). -/
def psState (s : State) : Int :=
  match s.power.phase with
  | .run => 0
  | .entering => 128
  | .exiting => 128
  | .low => s.power.target

/-- The single entries that follow the state. -/
def viewGlob (s : State) (k : Nat) : Int :=
  if k = K.restartHeld then restartHeld s
  else if k = K.localLimit then localLimit s
  else if k = K.runningSum then runningSum s
  else if k = K.free then freePower s
  else if k = K.demand then demand s
  else if k = K.faultSrc then (faultSrc s : Nat)
  else if k = K.coefState then coefState s
  else if k = K.pwrgdPin then b2i s.pins.pwrgd
  else if k = K.recState then recState s
  else if k = K.tb then (s.tb % 18446744073709551616 : Nat)
  else if k = K.psState then psState s
  else if k = K.degFlags then (degFlags s : Nat)
  else if K.tqLevel ≤ k ∧ k < K.tqLevel + 18 then ((s.conv (Fin.ofNat 18 (k - K.tqLevel))).queue.length : Nat)
  else s.rd k

/-- What a numeric entry reads. -/
def State.view (s : State) (k : Nat) : Int :=
  match splitKey k with
  | (.port, j, o) => viewPort s (Fin.ofNat 64 j) o
  | (.slot, j, o) => viewSlot s (Fin.ofNat 8 j) o
  | (.cmp, j, o) => viewCmp s (Fin.ofNat 164 j) o
  | (.conv, j, o) => viewConv s (Fin.ofNat 18 j) o
  | (.met, j, o) => viewMet s j o
  | (.railMet, j, o) => viewRailMet s j o
  | (.skimBank, j, o) => viewSkim s j o
  | (.ct, j, o) => viewCt s (Fin.ofNat 32 j) o
  | (.glob, _, _) => viewGlob s k
  | (.feed, _, _) | (.rail, _, _) | (.tbc, _, _) | (.tg, _, _) | (.tw, _, _) => s.rd k

end Sys2Proof.Machine
end

