-- ==== Sys2Proof/Machine/DictRules.lean ====
section
/-! DEFINITION. What a WRITE must meet before it is made (R354, R355, R365): types, ranges, the relations between entries, the DAC
ranges, the mode, and the state of the target. -/

namespace Sys2Proof.Machine

/-! Types (Table 13.1). -/

/-- Octets of a numeric type; 0 for a string. -/
def Ty.size : Ty → Nat
  | .bool => 1
  | .u8 => 1
  | .u16 => 2
  | .u32 => 4
  | .u64 => 8
  | .i16 => 2
  | .i32 => 4
  | .i64 => 8
  | .q16 => 4
  | .q32 => 8
  | .octets _ => 0
  | .visible _ => 0

/-- The type code. -/
def Ty.code : Ty → Nat
  | .bool => 1
  | .u8 => 2
  | .u16 => 3
  | .u32 => 4
  | .u64 => 5
  | .i16 => 6
  | .i32 => 7
  | .i64 => 8
  | .q16 => 9
  | .q32 => 10
  | .octets _ => 11
  | .visible _ => 12

/-- Two's complement types. -/
def Ty.signed : Ty → Bool
  | .i16 => true
  | .i32 => true
  | .i64 => true
  | .q16 => true
  | .q32 => true
  | _ => false

/-- Whether the entry holds an octet string. -/
def Ty.isString : Ty → Bool
  | .octets _ => true
  | .visible _ => true
  | _ => false

/-- Whether a written value has the length of its type (R354). -/
def Ty.lengthOk (t : Ty) (l : List Nat) : Bool :=
  match t with
  | .octets n => decide (l.length = n)
  | .visible n => decide (l.length ≤ n)
  | _ => decide (l.length = t.size)

/-- The number that the octets of a numeric type spell. -/
def Ty.number (t : Ty) (l : List Nat) : Int :=
  let v := leValue l
  if t.signed ∧ 256 ^ t.size / 2 ≤ v then (v : Int) - (256 ^ t.size : Nat) else v

/-- The octets of a number in a numeric type. -/
def Ty.spell (t : Ty) (v : Int) : List Nat := leOctets t.size (unsignedOf t.size v)

/-! Values as they will stand (R365). -/

/-- The written value of an entry, applied or pending. -/
def State.written (s : State) (k : Nat) : Int := (s.pendingVal k).getD (s.rd k)

/-- The entries a WRITE carries, later items first, and the PEER_MASK as it will stand. -/
structure Will where
  vals : List (Nat × Int)
  mask : List Nat
  deriving DecidableEq, Repr

/-- A value as it will stand after the WRITE. -/
def Will.at (w : Will) (s : State) (k : Nat) : Int :=
  match w.vals.find? fun x => decide (x.1 = k) with
  | some x => x.2
  | none => s.written k

/-! Ranges (step 5 of R365). -/

/-- The number of a limit entry in CAP and OTP_CEIL (Table 15.8), from 0. -/
def limitIndex (a : Area) (o : Nat) : Option Nat :=
  match a with
  | .port =>
    if o = Kp.ilimMax then some 0 else if o = Kp.shortTh then some 1 else if o = Kp.faultTime then some 2
    else if o = Kp.soaEMax then some 3 else if o = Kp.fetTmax then some 4 else none
  | .feed => if o = Kf.feedIlim then some 5 else if o = Kf.feedShort then some 6 else none
  | _ => none

/-- The least bound of a limit (R418), with the cap as it will stand. -/
def leastBound (s : State) (w : Will) (i : Nat) : Int := min (s.rd (K.otpCeil + i)) (w.at s (K.cap + i))

/-- A port entry keeps the relations of R125, R122 and R114, and its thresholds stay within the DAC range at the shunt that will
stand (R151). -/
def portRule (s : State) (w : Will) (p : Port) (o : Nat) : Bool :=
  let v (e : Nat) : Int := w.at s (keyP p e)
  if o = Kp.ilimMax ∨ o = Kp.shortTh ∨ o = Kp.rshunt then
    decide (v Kp.ilimMax + 20 ≤ v Kp.shortTh) && decide (v Kp.shortTh * v Kp.rshunt / 1250 ≤ 2047) &&
      decide (v Kp.ilimMax * v Kp.rshunt / 1250 ≤ 2047)
  else if o = Kp.fetTwarn ∨ o = Kp.fetTmax then decide (v Kp.fetTwarn < v Kp.fetTmax)
  else if o = Kp.kneePct ∨ o = Kp.limPct then decide (v Kp.kneePct ≤ v Kp.limPct)
  else if o = Kp.authPolicy then decide (v Kp.authPolicy ≤ 3)
  else true

/-- A feed entry (R125, R151, Table 4.5). -/
def feedRule (s : State) (w : Will) (f : Feed) (o : Nat) : Bool :=
  let v (e : Nat) : Int := w.at s (keyF f e)
  if o = Kf.feedIlim ∨ o = Kf.feedShort ∨ o = Kf.feedRshunt ∨ o = Kf.feedRcp then
    decide (v Kf.feedIlim + 200 ≤ v Kf.feedShort) && decide (v Kf.feedShort * v Kf.feedRshunt / 625 ≤ 2047) &&
      decide (v Kf.feedRcp * v Kf.feedRshunt / 625 ≤ 2048)
  else if o = Kf.feedLossV ∨ o = Kf.feedUv then
    decide (v Kf.feedLossV < v Kf.feedUv) && decide (ceilDiv (v Kf.feedLossV) 2 ≤ 4095)
  else if o = Kf.feedOv then decide (v Kf.feedOv / 2 ≤ 4095)
  else true

/-- A trigger source of Table 6.8. -/
def trigOk (v : Int) : Bool := decide (v = 0 ∨ v = 1 ∨ (0x10 ≤ v ∧ v ≤ 0x37))

/-- A converter entry (R174, R180, R182). -/
def convRule (c : Conv) (o : Nat) (x : Int) : Bool :=
  if o = Kv.seqTrig then trigOk x
  else if o = Kv.injTrig then trigOk x && decide (x ≠ 1)
  else if o = Kv.injEntry ∨ (Kv.seqEntry ≤ o ∧ o < Kv.seqEntry + 32) then !badEntry c x.toNat
  else true

/-- The codes of a rail window, from µV at the rail (R236, R251). -/
def codesOk (lo hi g : Int) : Bool :=
  decide (ceilDiv (lo * 65536) (2000 * max g 1) ≤ 4095) && decide (hi * 65536 / (2000 * max g 1) ≤ 4095)

/-- A rail entry (R234 to R236, R249, R250). -/
def railRule (s : State) (w : Will) (n : Rail) (o : Nat) : Bool :=
  let v (e : Nat) : Int := w.at s (keyR n e)
  if o = Kr.railPhase then decide (v Kr.railPhase ≤ 7 ∨ v Kr.railPhase = 255)
  else if o = Kr.faultAction then decide (v Kr.faultAction ≤ 3)
  else if o = Kr.vNom ∨ o = Kr.snsGain ∨ o = Kr.pgLoPct ∨ o = Kr.pgHiPct ∨ o = Kr.mgnLimitLo ∨ o = Kr.mgnLimitHi then
    codesOk (v Kr.vNom * (1000 - v Kr.pgLoPct)) (v Kr.vNom * (1000 + v Kr.pgHiPct)) (v Kr.snsGain) &&
      codesOk (1000 * v Kr.mgnLimitLo) (1000 * v Kr.mgnLimitHi) (v Kr.snsGain)
  else if o = Kr.mgnTarget then decide (v Kr.mgnLimitLo ≤ v Kr.mgnTarget ∧ v Kr.mgnTarget ≤ v Kr.mgnLimitHi)
  else true

/-- An owner code (R345): an engine, or 0x1F the plumb pair. -/
def ownerOk (x : Int) : Bool := decide (x ≤ 16 ∨ x = 0x1F)

/-- Length of the chain whose lowest counter is `k` (R342). -/
def chainLength (s : State) (w : Will) : Nat → Nat → Nat
  | 0, _ => 0
  | n + 1, k => if k < 32 ∧ w.at s (keyT (Fin.ofNat 32 k) Kt.ctSrc) = 2 then 1 + chainLength s w n (k + 1) else 0

/-- No wide chain is longer than four counters (R343). -/
def chainsOk (s : State) (w : Will) : Bool :=
  (List.range 32).all fun k =>
    let v (e : Nat) : Int := w.at s (keyT (Fin.ofNat 32 k) e)
    !(decide (v Kt.ctWide = 1) && decide (v Kt.ctSrc ≠ 2)) || decide (chainLength s w 31 (k + 1) ≤ 3)

/-- A counter entry (R341 to R345). -/
def ctRule (s : State) (w : Will) (k : Ctr) (o : Nat) (x : Int) : Bool :=
  if o = Kt.ctSrc then decide (x ≤ 2) && !(decide (x = 2) && decide (k.val = 0)) && chainsOk s w
  else if o = Kt.ctWide then chainsOk s w
  else if o = Kt.ctCapSrc then decide (x ≤ 3 ∨ (0x10 ≤ x ∧ x ≤ 0x37))
  else if o = Kt.ctOwner then ownerOk x
  else true

/-- The members of the shelf under a mask and a node number. -/
def memberCount (mask : List Nat) (node : Int) : Nat :=
  ((List.range 128).filter fun n => (mask.getD (n / 8) 0).testBit (n % 8) || decide ((n : Int) = node)).length

/-- A base of a block of 128 identifiers (R375, R98). -/
def baseOk (x : Int) : Bool := decide (x % 0x80 = 0 ∧ x ≤ 0x780)

/-- The three identifier blocks do not overlap (R375). -/
def basesOk (s : State) (w : Will) : Bool :=
  let q := w.at s K.dfReqBase
  let r := w.at s K.dfRspBase
  let l := w.at s K.ledgerCanBase
  let apart (a b : Int) : Bool := decide (a + 127 < b ∨ b + 127 < a)
  baseOk q && baseOk r && apart q r && apart q l && apart r l

/-- The layout of the wall (R269). -/
def wallOk (s : State) (w : Will) : Bool :=
  let hb := w.at s K.histBase
  let hs := w.at s K.histSize
  let jb := w.at s K.jrnlBase
  let js := w.at s K.jrnlSize
  let size := s.rd K.wallSize
  let whole (x : Int) : Bool := s.recorder.blockStart x.toNat = x.toNat
  decide (0x4000000 ≤ hb ∧ 0x4000000 ≤ jb ∧ hb + hs ≤ size ∧ jb + js ≤ size ∧ 256 * 4096 ≤ hs ∧ 256 * 4096 ≤ js) &&
    decide (hb + hs ≤ jb ∨ jb + js ≤ hb) && [hb, hb + hs, jb, jb + js].all whole

/-- A cap (R418, R419): no higher than the OTP ceiling, below L3 no higher than the cap that stands, and high enough for the
relation it carries. -/
def capRule (s : State) (lvl i : Nat) (x : Int) : Bool :=
  decide (x ≤ s.rd (K.otpCeil + i)) && (decide (3 ≤ lvl) || decide (x ≤ s.written (K.cap + i))) &&
    !(decide (i = 1) && decide (x < 21)) && !(decide (i = 6) && decide (x < 201))

/-- The entries that are written with a magic word. -/
def magicWord (k : Nat) : Option Int :=
  if k = K.store then some 0x53544F52 else if k = K.restoreDefaults then some 0x44464C54
  else if k = K.reset then some 0x52534554 else none

/-- A single entry. -/
def globRule (s : State) (w : Will) (lvl k : Nat) (x : Int) : Bool :=
  if K.derateT1 ≤ k ∧ k < K.derateT1 + 3 then
    decide (w.at s K.derateT1 + 5 ≤ w.at s (K.derateT1 + 1) ∧ w.at s (K.derateT1 + 1) + 5 ≤ w.at s (K.derateT1 + 2))
  else if k = K.reconPeriod ∨ k = K.peerMask ∨ k = K.canNode then
    decide (4 * (memberCount w.mask (w.at s K.canNode) : Int) ≤ 10 * w.at s K.reconPeriod)
  else if k = K.dfReqBase ∨ k = K.dfRspBase ∨ k = K.ledgerCanBase then basesOk s w
  else if K.histBase ≤ k ∧ k ≤ K.jrnlSize then wallOk s w
  else if K.cap ≤ k ∧ k < K.cap + 7 then capRule s lvl (k - K.cap) x
  else if k = K.recPeriod then decide (x ≤ 86400)
  else if k = K.flushPeriod then decide (x = 0 ∨ (60 ≤ x ∧ x ≤ 86400))
  else if K.tqCap ≤ k ∧ k < K.tqCap + 18 then
    decide (4 ≤ x ∧ x ≤ 256) && decide (((List.range 18).map fun i => w.at s (K.tqCap + i)).sum ≤ 512)
  else if k = K.cursor then decide (x + 256 ≤ s.rd K.wallSize) || decide (2 ^ 63 ≤ x ∧ x ≤ 2 ^ 63 + 0x3FF00)
  else if k = K.shedCmd then decide (x ≤ 7 ∨ (0x80 ≤ x ∧ x ≤ 0x87))
  else match magicWord k with
    | some m => decide (x = m)
    | none => true

/-- The range of a numeric value, limits apart. -/
def shapeOk (s : State) (w : Will) (lvl : Nat) (a : Area) (j o : Nat) (r : Row) (k : Nat) (x : Int) : Bool :=
  (decide (r.mask ≠ 0) || decide (r.lo ≤ x ∧ x ≤ r.hi)) &&
  match a with
  | .port => portRule s w (Fin.ofNat 64 j) o
  | .feed => feedRule s w (Fin.ofNat 2 j) o
  | .conv => convRule (Fin.ofNat 18 j) o x
  | .rail => railRule s w (Fin.ofNat 32 j) o
  | .ct => ctRule s w (Fin.ofNat 32 j) o x
  | .tbc => decide (o ≠ Ku.tbcOwner) || ownerOk x
  | .tg => decide (o ≠ Kx.tgOwner) || ownerOk x
  | .glob => globRule s w lvl k x
  | .slot => true
  | .cmp => true
  | .met => true
  | .railMet => true
  | .skimBank => true
  | .tw => true

/-- Step 5 of R365 for a numeric value. -/
def rangeOk (s : State) (w : Will) (lvl : Nat) (a : Area) (j o : Nat) (r : Row) (k : Nat) (x : Int) : Bool :=
  shapeOk s w lvl a j o r k x &&
    match limitIndex a o with
    | some i => decide (x ≤ leastBound s w i)
    | none => true

/-- Step 5 for an octet string. -/
def stringOk (s : State) (w : Will) (lvl : Nat) (r : Row) (k : Nat) (l : List Nat) : Bool :=
  match r.ty with
  | .visible _ => l.all fun b => decide (0x20 ≤ b ∧ b ≤ 0x7E)
  | _ =>
    if k = K.peerMask then globRule s w lvl k 0
    else if k = K.imgChunk then decide (leValue (l.take 4) % 1024 = 0 ∧ leValue (l.take 4) < 0x400000)
    else true

/-! The mode and the state of the target (steps 6 and 7). -/

/-- Step 6: the entries of a slot's table are writable under MANUAL, and where the slot's trigger is MANUAL (R84). -/
def modeOk (s : State) (w : Will) (a : Area) (j o : Nat) : Bool :=
  match a with
  | .slot =>
    if o = Ks.stTrigger then true
    else decide (w.at s K.stripMode = 1) || decide (w.at s (keyS (Fin.ofNat 8 j) Ks.stTrigger) = 7)
  | _ => true

/-- Step 7 for an entry that is no command: 0 OK or 1 BUSY (R192, R193, R250). -/
def targetStatus (s : State) (a : Area) (j o k : Nat) (x : Int) : Nat :=
  match a with
  | .rail =>
    let n : Rail := Fin.ofNat 32 j
    if o = Kr.mgnMode ∧ !marginRuns s n then 1 else 0
  | .glob =>
    let idle (c : Conv) : Bool := decide ((s.conv c).run = .stopped) && decide ((s.conv c).cal = .none)
    if k = K.refSel then (if allConvs.all idle then 0 else 1)
    else if K.refbufEn ≤ k ∧ k < K.refbufEn + 9 ∧ x = 0 then
      (if (allConvs.filter fun c => decide (bufOf c = k - K.refbufEn)).all fun c =>
          decide ((s.conv c).run ≠ .running ∧ (s.conv c).run ≠ .delay) && decide ((s.conv c).cal = .none) then 0 else 1)
    else 0
  | _ => 0

/-! The check of an item. -/

/-- A request as it is judged: who sends it, its level, and the engine whose ports' areas it may write. -/
structure Who where
  src : Requester
  level : Nat
  deriving DecidableEq, Repr

/-- The engine behind a requester: a mailbox. -/
def Who.engine (q : Who) : Option Eng := if h : q.src.val < 17 then some ⟨q.src.val, h⟩ else none

/-- The engine owns port `p`: its block's, or from the declaration on the adopted one's (R300, R302, R309). -/
def ownsPort (s : State) (e : Eng) (p : Port) : Bool :=
  if e = pe16 then decide (s.rd K.adoptEng = (blockOf p : Nat)) && (s.float.pending || decide (s.engSt pe16 = Es.floatActive))
  else decide (blockOf p = e.val) && decide (s.engSt e = Es.running)

/-- R309: an engine writes in the areas of the ports it owns, the status entries among them, and nothing else. -/
def engineMay (s : State) (e : Eng) (a : Area) (j : Nat) : Bool :=
  match a with
  | .port => ownsPort s e (Fin.ofNat 64 j)
  | _ => false

/-- Steps 2 and 3 of R365: the access right and the level; 0 where both pass. -/
def accessStatus (s : State) (q : Who) (a : Area) (j : Nat) (r : Row) : Nat :=
  match q.engine with
  | some e =>
    if r.acc = .const ∨ r.acc = .rcl ∨ (r.acc = .ro ∧ !engineMay s e a j) then 7
    else if !engineMay s e a j then 5
    else if r.acc ≠ .ro ∧ q.level < r.lvl then 5 else 0
  | none =>
    if r.acc = .const ∨ r.acc = .rcl ∨ r.acc = .ro then 7 else if q.level < r.lvl then 5 else 0

/-- A value with the reserved bits of its entry left out (R7). -/
def Row.masked (r : Row) (x : Int) : Int := if r.mask = 0 then x else maskOf x r.mask

/-- The highest subindex in use of an index, 0 where no chapter defines the index (R353). -/
def highSub (i : Nat) : Nat :=
  match splitKey (i * 256) with
  | (a, _, o) =>
    (a.rows.filter fun r => decide (r.off / 256 = o / 256)).foldl (fun m r => max m (r.off % 256 + r.n - 1)) 0

/-- The level that a value of an entry needs: OTP_CMD READ acts at L0 (R443), SEC_CMD REVOKE_TOKENS at L3 (R415). -/
def needLevel (k lvl : Nat) (l : List Nat) : Nat :=
  if k = K.otpCmd ∧ l = [1] then 0 else if k = K.secCmd ∧ l = [3] then 3 else lvl

/-- Steps 1 to 6 of R365 for one item: 0, or the status of the first check that fails. -/
def itemStatus (s : State) (w : Will) (q : Who) (k : Nat) (l : List Nat) : Nat :=
  match findRow k with
  | none => if k % 256 = 0 ∧ highSub (k / 256) ≠ 0 then 7 else 6
  | some (a, j, o, r) =>
    let st := accessStatus s q a j { r with lvl := needLevel k r.lvl l }
    if st ≠ 0 then st
    else if !r.ty.lengthOk l then 8
    else if r.ty.isString then
      (if !stringOk s w q.level r k l then 2 else if !modeOk s w a j o then 4 else 0)
    else
      if !rangeOk s w q.level a j o r k (r.masked (r.ty.number l)) then 2 else if !modeOk s w a j o then 4 else 0

end Sys2Proof.Machine
end

