-- ==== Sys2Proof/Machine/Conv.lean ====
section
/-! DEFINITION. The meanings of the converter, hod, tagged-queue, calibration and reference commands ("Conversion Subsystem
and the Hod"). -/

namespace Sys2Proof.Machine

/-- The tag that a lane delivers: IDLE while its link is not up (R198). -/
def laneTag (s : State) (c : Conv) (tag : Nat) : Nat :=
  if !onCtl c && decide (s.lath (Fin.ofNat 8 (c.val / 2)) ≠ 0) then 6 else tag

/-- The check's view of a word (R195): a usable CHK result of a sequence, with its gain and filter. -/
def chkOf (r : Conversion) (tag cyc : Nat) : Option ChkWord :=
  if r.ch = 0x1C ∧ (tag = 0 ∨ tag = 3) then some { cyc := cyc, code := r.code, gain := r.gain, filt := r.filt } else none

/-- A result in digital protection (Table 6.4, R208): VALID and OVR at the channel's one gain, injected results at the gain
of the request. -/
def State.hodProtect (s : State) (c : Conv) (r : Conversion) (tag : Nat) : State :=
  if onCtl c ∨ 4 ≤ r.ch then s
  else
    let g : Option Nat :=
      if tag = 0 ∨ tag = 3 then chanGain s c r.ch
      else if tag = 1 ∨ tag = 4 then some (2 ^ r.gain)
      else none
    match g with
    | some g => s.protect (convPort c r.ch) r.code g s.stamp
    | none => s

/-- A usable result of DIE_TEMP or DIE_TEMP2 (R485). -/
def State.dieResult (s : State) (c : Conv) (r : Conversion) (tag : Nat) : State :=
  if onCtl c ∧ r.ch = 0x14 ∧ (tag ≤ 1 ∨ tag = 3 ∨ tag = 4) then
    let t := sensorTemp (((r.code * 125 : Int) : Rat) / ((2 * 2 ^ r.gain : Nat) : Rat))
    { s with ref := if c.val = 16 then { s.ref with die0 := t } else { s.ref with die1 := t } }
  else s

/-- A word at its lane (R198): metering and digital protection take it in the same cycle. -/
def State.takeWord (s : State) (c : Conv) (r : Conversion) (cyc : Nat) (sense : Int) : State :=
  let tag := laneTag s c r.tag
  let s := if r.starts ∧ tag ≠ 6 then s.rebase c else s
  let s := s.checkWord c cyc (chkOf r tag cyc)
  let s := (s.hodProtect c r tag).dieResult c r tag
  let s := if tag = 0 ∨ tag = 3 then s.meter c r.ch r.code (decide (tag = 3)) (cyc - 24) sense else s
  let s := if tag = 3 ∨ tag = 4 then s.count (keyV c Kv.ovrCount) else s
  let s :=
    if tag = 0 ∨ tag = 2 ∨ tag = 3 then s.seqWord c r
    else if tag = 1 ∨ tag = 4 then s.injWord c r
    else if tag = 7 then s.mirrorRestart c
    else if r.tag = 1 ∨ r.tag = 4 then s.tqBit c 0x48 0 false
    else s
  s.refreshUnc c

/-- HOD_WORD (R198, R171, R172, R175, R181, R184, R187, R195, R208, R117, R123): converter `c` makes the conversion of its cycle, and
the word reaches its lane and passes to metering and digital protection. -/
def execHodWord (c : Conv) (x : Int) (cyc : Nat) (sense : Int) (s : State) : Host.Outcome State Fault Refusal :=
  done (
    if s.asleep 1 then s
    else
      let r := s.convert c x
      r.1.takeWord c r.2 cyc sense)

/-- TQ_WRITE (R201): the write port takes the oldest entry of one lane buffer. -/
def execTqWrite (s : State) : Host.Outcome State Fault Refusal :=
  done (match nextLane s with | some c => s.serveLane c | none => s)

/-- TQ_POP (R205). -/
def execTqPop (c : Conv) (s : State) : Host.Outcome State Fault Refusal := done (s.tqPop c).2

/-- What a converter returns to after CAL (R189). -/
def resumeOf (s : State) (c : Conv) : Run :=
  if (s.conv c).run = .stopped ∨ (s.conv c).stopping then .stopped
  else if s.rV c Kv.seqTrig = 1 then .running
  else if s.rV c Kv.seqTrig = 0 then .stopped
  else .waiting

/-- CV_CMD CAL (R189): refused NOT_READY or BUSY, or scheduled on every named converter. -/
def execCvCmdCal (s : State) : Host.Outcome State Fault Refusal :=
  done (
    let cs := namedConvs s
    if cs.any fun c => !refSettled s c then s.reply 3
    else if cs.any fun c => decide ((s.conv c).cal ≠ .none) then s.reply 1
    else
      let s := cs.foldl (fun s c => s.setConv c { s.conv c with cal := .pending, calWas := resumeOf s c }) s
      (s.wr K.calState 1).reply 0)

/-- CV_CMD START on one converter (R182). -/
def State.startConv (s : State) (c : Conv) : State :=
  let h := s.conv c
  let t := s.rV c Kv.seqTrig
  if h.cal ≠ .none then s.overrun c
  else if h.run = .stopped then s.setConv c { h with run := if t ≤ 1 then .delay else .waiting, stopping := false }
  else if t = 0 then s.overrun c
  else s

/-- CV_CMD START (R182, R193). -/
def execCvCmdStart (s : State) : Host.Outcome State Fault Refusal :=
  done (
    let cs := namedConvs s
    if cs.any fun c => !refSettled s c then s.reply 3 else (cs.foldl State.startConv s).reply 0)

/-- CV_CMD STOP on one converter (R183). -/
def State.stopConv (s : State) (c : Conv) : State :=
  let h := s.conv c
  (if h.cal ≠ .none then s.setConv c { h with calWas := .stopped, stopping := !h.atBoundary, run := if h.atBoundary then .stopped else h.run }
  else if h.atBoundary then s.setConv c { h with run := .stopped }
  else s.setConv c { h with stopping := true }).dischargesOf c

/-- CV_CMD STOP. -/
def execCvCmdStop (s : State) : Host.Outcome State Fault Refusal := done (((namedConvs s).foldl State.stopConv s).reply 0)

/-- CV_CMD SAVE (R191). -/
def execCvCmdSave (s : State) : Host.Outcome State Fault Refusal :=
  done (((namedConvs s).foldl (fun s c => (s.useText (keyV c Kv.calImage)).wrB (keyV c Kv.calImage) (calImage s c)) s).reply 0)

/-- CV_CMD LOAD (R191): refused NOT_READY where an image is blank or fails its CRC; applied at the next boundary. -/
def execCvCmdLoad (s : State) : Host.Outcome State Fault Refusal :=
  done (
    let cs := namedConvs s
    let s := cs.foldl (fun s c => s.useText (keyV c Kv.calImage)) s
    if cs.any fun c => !imageOk (s.rdB (keyV c Kv.calImage)) then s.reply 3
    else
      (cs.foldl (fun s c =>
        let s := s.setConv c { s.conv c with loading := true }
        if (s.conv c).atBoundary ∧ (s.conv c).cal ≠ .running then s.boundary c else s) s).reply 0)

/-- CV_CMD CLEAR_COUNTERS (R207): the saturating counters; PASS_COUNT stays. -/
def execCvCmdClearCounters (s : State) : Host.Outcome State Fault Refusal :=
  done (
    let ks := [Kv.trigOvrn, Kv.injDrop, Kv.injDrop + 1, Kv.injDrop + 2, Kv.injDrop + 3, Kv.tagqDrop, Kv.ovrCount,
      Kv.plausFails, Kv.plausSkew, Kv.mirrorLost]
    ((namedConvs s).foldl (fun s c => ks.foldl (fun s k => s.wV c k 0) s) s).reply 0)

/-- CAL_START (R189): at the boundary, after a held request. -/
def execCalStart (c : Conv) (s : State) : Host.Outcome State Fault Refusal :=
  done (
    if (s.conv c).cal = .pending ∧ (s.conv c).atBoundary ∧ (s.conv c).inj.isNone then
      let s := s.boundary c
      ((s.setConv c { s.conv c with cal := .running, run := .stopped, last := none }).dischargesOf c).wr K.calState 2
    else s)

/-- Whether a calibration succeeds (R190). -/
def calGood (f : CalFactors) : Bool :=
  (f.offset.all fun x => decide (x.natAbs ≤ 256)) &&
    (f.gain.all fun g => decide (99 * 2147483648 ≤ 100 * g ∧ 100 * g ≤ 101 * 2147483648)) &&
    (f.trim.all fun x => decide (x.natAbs ≤ 16))

/-- CAL_END (R189, R190): the factors are replaced or kept; the converter takes up its state from before the command. -/
def execCalEnd (c : Conv) (f : CalFactors) (s : State) : Host.Outcome State Fault Refusal :=
  done (
    if (s.conv c).cal = .running then
      let good := calGood f
      let s := if good then s.setFactors c (f.offset ++ f.gain.map (fun (g : Nat) => (g : Int)) ++ f.trim) else s
      let h := s.conv c
      let s := s.setConv c { h with
        cal := .none, run := h.calWas, stopping := false, last := none, calValid := good, calFail := !good
        calSrc := if good then 1 else h.calSrc }
      let s := s.boundary c
      let s := if (s.conv c).run = .running then s.beginPass c else s
      let s :=
        if !good then s.wr K.calState 4
        else if s.rd K.calState ≠ 4 ∧ allConvs.all (fun d => decide ((s.conv d).cal = .none)) then s.wr K.calState 3
        else s
      s.refreshUnc c
    else s)

/-- A trigger at one converter of its source. -/
def State.triggerConv (s : State) (c : Conv) : State :=
  let h := s.conv c
  if h.cal ≠ .none then (if h.run = .stopped ∧ h.calWas = .stopped then s else s.overrun c)
  else match h.run with
    | .waiting => s.setConv c { h with run := .delay }
    | .stopped => s
    | _ => s.overrun c

/-- PASS_TRIGGER (R182, R183): an event of source `src` that has gone out reaches every converter on it on the same edge. -/
def execPassTrigger (src : Nat) (s : State) : Host.Outcome State Fault Refusal :=
  done (
    if s.time.due.contains (.pass src) then
      (allConvs.filter fun c => decide (s.rV c Kv.seqTrig = (src : Int))).foldl State.triggerConv (s.arrived (.pass src))
    else s)

/-- PASS_START (R181, R182): the pass's first conversion is sampled. -/
def execPassStart (c : Conv) (s : State) : Host.Outcome State Fault Refusal :=
  done (if (s.conv c).run = .delay then s.beginPass c else s)

/-- PASS_END (R182, R183): the pass has made its last conversion: a boundary; under CONT the next pass begins on the following cycle
unless a STOP or a CAL takes effect. -/
def execPassEnd (c : Conv) (s : State) : Host.Outcome State Fault Refusal :=
  done (
    if (s.conv c).run = .running ∧ passMade s c ∧ ¬ s.asleep 1 then
      let s := s.boundary c
      if (s.conv c).run = .stopped then s
      else
        let t := s.rV c Kv.seqTrig
        if t = 0 ∨ (t = 1 ∧ (s.conv c).cal ≠ .none) then (s.setConv c { s.conv c with run := .stopped }).dischargesOf c
        else if t = 1 then s.beginPass c
        else s.setConv c { s.conv c with run := .waiting }
    else s)

/-- INJ_REQ GO (R185): the request of the INJ_REQ register; GO clears when it is accepted or dropped. -/
def execInjReqGo (c : Conv) (room : Nat) (s : State) : Host.Outcome State Fault Refusal :=
  done ((s.inject c (s.tqReg c 0x40).toNat room).tqBit c 0x40 31 false)

/-- INJ_TRIGGER (R185): an event of the INJ_TRIG source arrives and delivers a request with the fields of INJ_ENTRY. -/
def execInjTrigger (c : Conv) (room : Nat) (s : State) : Host.Outcome State Fault Refusal :=
  done (if s.time.due.contains (.inj c) then (s.arrived (.inj c)).inject c (s.rV c Kv.injEntry).toNat room else s)

/-- REF_SETTLED (R193). -/
def execRefSettled (b : Fin 9) (s : State) : Host.Outcome State Fault Refusal :=
  done (if s.rd (K.refbufEn + b.val) = 1 ∧ ¬ s.asleep 3 then s.wr (K.refSettled + b.val) 1 else s)

/-- The mean of REF_MONITOR samples, 0.1 ppm. -/
def refMean (l : List Rat) : Rat := l.sum / ((max l.length 1 : Nat) : Rat)

/-- The TRIMS words (Table 16.3). -/
def trimWords (s : State) : List (Option Nat) := (List.range 0xA9).map fun i => SMap.get noWord s.otpShadow (0x4F + i)

/-- The expected ratio E(T) of R194 at the temperature of DIE_TEMP. -/
def refExpected (s : State) : Rat :=
  let m := Config.refModel (trimWords s)
  let t := s.ref.die0 / 10 - 25
  m.1 * (1 + m.2.1 * t + m.2.2 * t * t)

/-- What a ratio REF_A ÷ REF_B deviates from its expected value, 0.1 ppm (R194). -/
def refDeviation (s : State) (ratio : Rat) : Rat := (ratio / refExpected s - 1) * 10000000

/-- REF_AGE and REF_AGED for a new age (R194). -/
def State.setAge (s : State) (a : Rat) : State :=
  let s := ({ s with ref := { s.ref with age := a } }).wr K.refAge (roundRat a)
  let n := (roundRat a).natAbs
  if 1000 < n then s.wr K.refAged 1 else if n < 900 then s.wr K.refAged 0 else s

/-- REF_DIVERGE at a distance `gap` between REF_DIFF and REF_AGE, 0.1 ppm (R194). -/
def State.refJudge (s : State) (gap : Rat) : State :=
  if s.rd K.refDiverge = 1 then
    let calm := if gap ≤ 150 then s.ref.calm + 1 else 0
    let s := { s with ref := { s.ref with calm := calm } }
    if 1000 ≤ calm then s.wr K.refDiverge 0 else s
  else if 200 < gap then
    let s := ({ s with ref := { s.ref with calm := 0 } }).wr K.refDiverge 1
    let s := { s with recs := { s.recs with divSeen := Vector.replicate 3 true } }
    (((s.count K.refDivergeCount).alert 6).flushClass 6).refreshUncAll
  else s

/-- REF_DIFF is the mean of the samples `l`, and REF_AGE follows it unless REF_DIVERGE is set (R194). -/
def State.refFollow (s : State) (l : List Rat) (diff : Rat) : State :=
  let s := ({ s with ref := { s.ref with samples := l } }).wr K.refDiff (roundRat diff)
  let s := if s.rd K.refDiverge = 1 then s else s.setAge (s.ref.age + (diff - s.ref.age) / 2592000000)
  s.refJudge (max (diff - s.ref.age) (s.ref.age - diff))

/-- The samples with a new one, newest first: those of the last 100 ms. -/
def refSamples (s : State) (d : Rat) : List Rat := (d :: s.ref.samples).take 100

/-- REF_MONITOR_SAMPLE (R194): every 1 ms. -/
def execRefMonitorSample (ratio : Rat) (s : State) : Host.Outcome State Fault Refusal :=
  done (s.refFollow (refSamples s (refDeviation s ratio)) (refMean (refSamples s (refDeviation s ratio))))

/-- REF_AGE_SAVE (R194): REF_AGE to NVM every hour. -/
def execRefAgeSave (s : State) : Host.Outcome State Fault Refusal :=
  done { s with nv := SMap.put (fun _ => 0) s.nv K.refAge (s.rd K.refAge) }

/-- REF_REBASE (R194): REF_AGE takes the present REF_DIFF. -/
def execRefRebase (s : State) : Host.Outcome State Fault Refusal := done ((s.setAge (refMean s.ref.samples)).reply 0)

/-- PLAUS_TIMEOUT_EXPIRY (R196): a running converter took part in no comparison. -/
def execPlausTimeoutExpiry (c : Conv) (s : State) : Host.Outcome State Fault Refusal :=
  done (
    if (s.conv c).run = .running then (s.setConv c { s.conv c with plausStale := true }).refreshUnc c else s)

end Sys2Proof.Machine
end

