-- ==== Sys2Proof/Machine/TileIo.lean ====
section
/-! DEFINITION. The tile-backed registers of the engines (Tables 4.6 and 5.5): what a read shows, from the state or from the port shadow
as it stood at a loss of lock, and what a write does once it reaches the tile (R22, R32, R147, R168, R283). -/

namespace Sys2Proof.Machine

/-- A field of `w` bits at bit `lo`, out of a value that may be negative. -/
def place (v : Int) (lo w : Nat) : Nat := (v % (2 ^ w : Nat)).toNat * 2 ^ lo

/-- The octet, word or bit string `v` as a word of 32 bits. -/
def word32 (v : Int) : Nat := (v % 4294967296).toNat

/-- Port `q` of engine block `b`. -/
def blockPort (b q : Nat) : Port := Fin.ofNat 64 (4 * b + q)

/-- The tile that serves engine block `b`. -/
def blockTile (b : Nat) : Tile := Fin.ofNat 8 (b / 2)

/-! The port shadow. -/

/-- The discharge of a port runs: by its path, or while the device is in reset or boots and the tile is supplied (R455). -/
def discharges (s : State) (p : Port) : Bool := (s.path p).dsch || (decide (s.sec.stat ≠ 7) && (s.tile (tileOf p)).feOk)

/-- PP_STAT (Table 4.6). A term of the gate pulldown keeps the gate off (R112). -/
def ppStat (s : State) (p : Port) : Nat :=
  let h := s.path p
  place (s.rP p Kp.ppState) 0 4 +
    bitsOf [decide (s.rP p Kp.pg = 1), limitActive s p, decide (h.ft ≠ .idle), discharges s p,
      decide (h.gate = .on ∨ h.gate = .ramp) && !s.pulldown p, h.strip.isSome] * 16 + place h.vset 16 12

/-- PP_LIMITS, at its reset value until the tile has reported its limits (Table 4.6). -/
def ppLimits (s : State) (p : Port) : Nat :=
  if (s.tile (tileOf p)).filled then
    place (s.ilim p) 0 8 + place (s.rP p Kp.shortTh) 8 8 + place ((s.path p).strip.getD 255) 16 8
  else 0xFF0000

/-- PP_TEMP: TJ_MODEL and T_NTC. -/
def ppTemp (s : State) (p : Port) : Nat := place (s.rP p Kp.tjModel) 0 16 + place (s.rP p Kp.tNtc) 16 16

/-- The sixteen bits of the comparator mirror: I_L, I_H, V_L and V_H of each local port (Table 5.5). -/
def mirror (s : State) (b : Nat) (low : Bool → CmpHw → Bool) (high : CmpHw → Bool) : Nat :=
  bitsOf ((List.range 4).flatMap fun q =>
    let i := s.cmp (winI (blockPort b q))
    let v := s.cmp (winV (blockPort b q))
    [low true i, high i, low false v, high v])

/-- CMP_CHK: CHK_FAIL of WIN_I, then of WIN_V. -/
def cmpChk (s : State) (b : Nat) : Nat :=
  bitsOf ((List.range 4).map fun q => (s.cmp (winI (blockPort b q))).chkFail) +
    16 * bitsOf ((List.range 4).map fun q => (s.cmp (winV (blockPort b q))).chkFail)

/-- The word of register `a` of block `b` as the tile's state gives it; none for a register that the controller keeps. -/
def tileWord (s : State) (b a : Nat) : Option Nat :=
  let p := blockPort b ((a - 0x1000) / 0x100)
  let o := a % 0x100
  if 0x1000 ≤ a ∧ a < 0x1400 then
    if o = 0x0C then some (ppStat s p)
    else if o = 0x18 then some (ppLimits s p)
    else if o = 0x1C then some (ppTemp s p)
    else if o = 0x20 then some (word32 (s.path p).iNow)
    else if o = 0x24 then some (word32 (s.path p).vNow)
    else if o = 0x28 then some (place (s.rP p Kp.retryLeft) 0 4)
    else none
  else if a = 0x2000 then some (mirror s b (fun f k => k.effL f) CmpHw.effH)
  else if a = 0x2004 then some (mirror s b (fun _ => CmpHw.lLatch) CmpHw.hLatch)
  else if a = 0x2008 then some (mirror s b (fun _ => CmpHw.lUnres) CmpHw.hUnres)
  else if a = 0x200C then some (cmpChk s b)
  else none

/-- The registers of the port shadow. -/
def shadowRegs : List Nat :=
  ((List.range 4).flatMap fun q => [0x0C, 0x18, 0x1C, 0x20, 0x24, 0x28].map fun o => 0x1000 + 0x100 * q + o) ++
    [0x2000, 0x2004, 0x2008, 0x200C]

/-- The port shadow of tile `n` as it stands. -/
def State.shadowOf (s : State) (n : Tile) : List (Nat × Nat) :=
  [2 * n.val, 2 * n.val + 1].flatMap fun b => shadowRegs.filterMap fun a => (tileWord s b a).map fun v => (b * 0x10000 + a, v)

/-- A register of Table 4.6 or 5.5 as the controller shows it: in link hold the port shadow does not move. -/
def shadowWord (s : State) (b a : Nat) : Option Nat :=
  if s.lath (blockTile b) = 2 then ((s.tile (blockTile b)).shadow.find? fun x => decide (x.1 = b * 0x10000 + a)).map (·.2)
  else tileWord s b a

/-! Writes. -/

/-- A write of 1 clears the bits of `m` (W1C). -/
def State.w1c (s : State) (b a v m : Nat) : State := s.iow b a (clearBits (s.ior b a) (v &&& m))

/-- The fields of `m` take the written value (RW). -/
def State.rwMask (s : State) (b a v m : Nat) : State :=
  s.iow b a ((((s.ior b a).toNat ^^^ ((s.ior b a).toNat &&& m)) + (v &&& m) : Nat) : Int)

/-- FR_Swap arming withdrawn in PP_CTRL: the reservation of a sink returns with it (R76). -/
def State.frsDisarm (s : State) (p : Port) : State :=
  let s := (s.frsEnded p).setCtrl p 3 false
  if s.rP p Kp.attachState = Att.snk then s.book p 0 else s

/-- A PP_CTRL word at the tile (Table 4.6): EN with SINK is refused and changes nothing; EN or SINK cleared turns the path off. -/
def State.takeCtrl (s : State) (p : Port) (v : Nat) : State :=
  if v % 4 = 3 then s
  else
    let was := s.ctrl p
    let dropped := (bit was 0 && !v.testBit 0) || (bit was 1 && !v.testBit 1)
    let s := if dropped then ((s.setCtrl p 0 false).setCtrl p 1 false).gateOff p (s.offState p) else s
    let s := if v.testBit 0 ∧ ¬ bit was 0 then s.requestSource p else s
    let s := if v.testBit 1 ∧ ¬ bit was 1 then s.requestSink p else s
    let s := if v.testBit 2 then s.takeArm p else s
    if v.testBit 3 ∧ ¬ bit was 3 then s.requestFrs p
    else if bit was 3 ∧ ¬ v.testBit 3 then s.frsDisarm p
    else s

/-- CMP_LATCH: each bit clears its latch, where LATCH_CLR is FW (R154). -/
def State.clearMirror (s : State) (b v : Nat) : State :=
  (List.range 16).foldl (fun s i =>
    let p := blockPort b (i / 4)
    let c := if i % 4 < 2 then winI p else winV p
    if v.testBit i ∧ s.rC c Kc.latchClr = 0 then
      s.setCmp c (if i % 2 = 0 then { s.cmp c with lLatch := false } else { s.cmp c with hLatch := false })
    else s) s

/-- CMP_SELFCHK (Table 5.5): PORT and WHICH take the written value; GO starts a check unless the one that it asked for still runs. -/
def State.takeSelfchk (s : State) (b v : Nat) : State :=
  if v.testBit 3 ∧ ¬ bit (s.ior b 0x2018) 3 then s.selfchkGo b (Fin.ofNat 4 v) (v.testBit 2)
  else s.rwMask b 0x2018 v 7

/-- A register write that the tile takes, by block, address and word. -/
def State.takeWrite (s : State) (b a v : Nat) : State :=
  let p := blockPort b ((a - 0x1000) / 0x100)
  let o := a % 0x100
  if a < 0x2000 then
    if o = 0 then s.takeCtrl p v
    else if o = 4 then s.putTarget p (fieldOf (v : Int) 0 16 : Nat) (fieldOf (v : Int) 16 16 : Nat)
    else if o = 8 then s.rwMask b a v 0x33
    else s
  else if a = 0x2004 then s.clearMirror b v
  else if a = 0x2018 then s.takeSelfchk b v
  else s

/-- A write of a register that lies in tile `n`: in link hold it waits for the link, in order (R32). -/
def State.postTile (s : State) (b a v : Nat) : State :=
  let n := blockTile b
  if s.lath n = 2 then s.setTile n { s.tile n with reqs := (s.tile n).reqs ++ [.io b a v] } else s.takeWrite b a v

/-- Table 4.6. PP_MODE keeps a code of MODE or DELAY that the table does not give as written: DESIGN CHOICE (log entry 149). -/
def State.writePath (s : State) (b a v : Nat) : State :=
  let off := a - 0x1000
  if off < 0x400 then
    let o := off % 0x100
    if o = 0 ∨ o = 4 ∨ o = 8 then s.postTile b a v
    else if o = 0x14 then s.w1c b a v 0x7FFE
    else s
  else if off = 0x400 then s.w1c b a v 0xFFFF
  else if off = 0x404 then s.rwMask b a v 0xFFFF
  else s

/-- Table 5.5. -/
def State.writeMirror (s : State) (b a v : Nat) : State :=
  if a = 0x2004 ∨ a = 0x2018 then s.postTile b a v
  else if a = 0x2010 then s.w1c b a v 0xFFFF
  else if a = 0x2014 then s.rwMask b a v 0xFFFF
  else s

end Sys2Proof.Machine
end

