-- ==== Sys2Proof/Machine/Lath.lean ====
section
/-! DEFINITION. Lath links and clock references ("Architecture: Dies, Planes and Clock Domains"). -/

namespace Sys2Proof.Machine

/-- The two converters of tile `n` (R16): the even one, the odd one. -/
def tileConv (n : Tile) (odd : Bool) : Conv := ⟨2 * n.val + (if odd then 1 else 0), by cases odd <;> simp <;> omega⟩

/-- LATH_STATE of link `n`; a change is an alert (R380). -/
def State.setLath (s : State) (n : Tile) (v : Int) : State := (s.wr (K.lathState + n.val) v).alert 8

/-- LATH_BLOCK_FAIL (R20): while block lock holds the block time is counted. -/
def execLathBlockFail (n : Tile) (a b : Bool) (s : State) : Host.Outcome State Fault Refusal :=
  done (
    if s.lath n ≠ 0 then s
    else
      let s := s.count (K.lathErr + n.val)
      let s := if a then s.slotLost (tileConv n false) else s
      if b then s.slotLost (tileConv n true) else s)

/-- LATH_LOCK_LOSS (R22): the tile enters link hold, the port shadow stands still; the metering of its ports is UNCERTAIN. -/
def execLathLockLoss (n : Tile) (s : State) : Host.Outcome State Fault Refusal :=
  done (
    if s.lath n ≠ 0 ∨ s.asleep 2 then s
    else
      let s := s.wr (K.lathHolds + n.val) (satInc (s.rd (K.lathHolds + n.val)) u16Max)
      let s := s.setTile n { s.tile n with shadow := s.shadowOf n }
      ((s.setLath n 2).refreshUnc (tileConv n false)).refreshUnc (tileConv n true))

/-- The tile is declared failed (R22): its ports enter SAFE_OFF. -/
def State.tileFails (s : State) (n : Tile) : State :=
  let s := s.setTile n { s.tile n with trst := false, reqs := [], news := [], shadow := [] }
  (((tilePorts n).foldl (fun s p => s.safeOff p 5) (s.setLath n 3)).flushClass 5).refreshUncAll

/-- LINK_HOLD_EXPIRY (R22, R461): the link is not up again in time; a RESET_TILE of it ends failed. -/
def execLinkHoldExpiry (n : Tile) (s : State) : Host.Outcome State Fault Refusal :=
  done (
    if s.power.deg = some (.resetTile n) then
      { (s.setTile n { s.tile n with trst := false }).setLath n 3 with power := { s.power with deg := none } }.wr K.degResult 3
    else if s.lath n = 1 ∨ s.lath n = 2 then s.tileFails n
    else s)

/-- Entries of a port that a reset of its tile returns to their defaults: the RO entries of its attach and power-path areas
(Table 17.6). -/
def tileStatus (p : Port) (k : Nat) : Bool :=
  decide ((0x2000 + 0x40 * p.val) * 256 ≤ k ∧ k < (0x2020 + 0x40 * p.val) * 256) &&
    (match findRow k with | some (_, _, _, r) => decide (r.acc = .ro) | none => false)

/-- The attach, protocol, contract and power-path state of a port start anew, cold (Table 17.6): booking 0, SAFE_OFF ended. -/
def State.freshPort (s : State) (p : Port) : State :=
  let s := ((s.gateOff p Pp.off).clearContract p |>.leaveWait p).book p 0
  let s := { s with od := s.od.filter fun x => !tileStatus p x.1 }
  let s := (s.setPath p PathHw.reset).setPort p { PortHw.reset with ccA := (s.port p).ccA, ccB := (s.port p).ccB }
  ((s.leaveSafe p).iow (blockOf p) (ppCtrl p) 0).toUnattached p

/-- What a reset of tile `n` leaves (Table 17.6, column TILE): ports anew, the two converters stopped with the OTP factors; what waited
for the link, what was on the way to the tile and what its lanes and queues held is gone: DESIGN CHOICE (log entry 144). -/
def State.freshTile (s : State) (n : Tile) : State :=
  let s := s.setTile n { s.tile n with reqs := [], news := [], shadow := [] }
  let s := (tilePorts n).foldl State.freshPort s
  let s := (s.setConv (tileConv n false) ConvHw.reset).setConv (tileConv n true) ConvHw.reset
  let s := (s.otpFactors (tileConv n false)).otpFactors (tileConv n true)
  (s.wr (K.refSettled + n.val) 0).refreshUncAll

/-! The end of a link hold (R22). -/

/-- A request of the controller at the tile. -/
def State.takeReq (s : State) (r : TileReq) : State :=
  match r with
  | .io b a v => s.takeWrite b a v
  | .reset p => s.portReset p
  | .cmd p c =>
    if c = 1 then s.clearLockout p else if c = 3 then s.forceOff p else if c = 4 then s.releaseForce p else s

/-- What the tile had to report reaches the port shadow and the engine. -/
def State.takeNews (s : State) (n : TileNews) : State :=
  match n with
  | .acked p m => s.acked p m
  | .lost p m => s.gaveUp p m
  | _ => s.shadowNews n

/-- The link of tile `n` is up again: what waited passes it in order, both ways, and the port shadow follows the tile. -/
def State.linkResumes (s : State) (n : Tile) : State :=
  let news := (s.tile n).news
  let reqs := (s.tile n).reqs
  let s := s.setTile n { s.tile n with reqs := [], news := [], shadow := [] }
  reqs.foldl State.takeReq (news.foldl State.takeNews s)

/-- VDD_FE is back at a port of a running device (R39): the clamp goes, and a port without a partner presents its pins again. -/
def State.unclamp (s : State) (p : Port) : State :=
  if s.rP p Kp.attachState = Att.unattached ∨ s.rP p Kp.attachState = Att.disabled then s.toUnattached p
  else s.setPort p { s.port p with clamp := false }

/-- LATH_LINK_UP (R22, R68, R163, R461): held messages are read, a shed that restoration has ended is released, and no other port
state changes; where RESET_TILE or TILE_TRST had reset
the tile, its ports start from UNATTACHED. A tile whose link is up has its supply (R473). -/
def execLathLinkUp (n : Tile) (s : State) : Host.Outcome State Fault Refusal :=
  done (
    let reset := (s.tile n).trst
    let dark := !(s.tile n).feOk
    if s.lath n = 0 ∨ s.lath n = 3 then s
    else
      let s := (s.setTile n { s.tile n with trst := false, feOk := true, filled := true }).setLath n 0
      let s := if reset then s.freshTile n
        else
          let s := if dark ∧ s.sec.stat = 7 then (tilePorts n).foldl State.unclamp s else s
          (tilePorts n).foldl (fun s p => (s.tileRelease p).replayHeld p false) (s.linkResumes n)
      if s.power.deg = some (.resetTile n) then
        { s with power := { s.power with deg := none } }.wr K.degResult 2
      else s)

/-! Clocks (R29 to R31). -/

/-- REFCLK_MEASURE (R29). -/
def execRefclkMeasure (r : RefFound) (s : State) : Host.Outcome State Fault Refusal :=
  done (
    match r with
    | .ref10 => { s.flag K.clkStatus 5 false with clk := { s.clk with pll := .refclk } }
    | .ref25 => { s.flag K.clkStatus 5 true with clk := { s.clk with pll := .refclk } }
    | .none =>
      { (s.flag K.clkStatus 0 true).flag K.clkStatus 3 true with
        clk := { s.clk with pll := .oscillator }, recs := { s.recs with clkSeen := Vector.replicate 3 true } })

/-- REFCLK_LOSS (R30): holdover; records made from now on carry the bit. -/
def execRefclkLoss (s : State) : Host.Outcome State Fault Refusal :=
  done (
    if s.clk.pll = .refclk then
      { ((s.flag K.clkStatus 0 true).flag K.clkStatus 1 true).flag K.clkStatus 2 true with
        clk := { s.clk with pll := .holdover }, recs := { s.recs with clkSeen := Vector.replicate 3 true } }
    else s)

/-- HOLDOVER_EXPIRY (R30): the PLLs move to the oscillator reference. -/
def execHoldoverExpiry (s : State) : Host.Outcome State Fault Refusal :=
  done (
    if s.clk.pll = .holdover then { s.flag K.clkStatus 3 true with clk := { s.clk with pll := .oscillator } } else s)

/-- REFCLK_RETURN (R30): CLK_STATUS[0] to [3] clear, also after a start that found no reference: DESIGN CHOICE (log entry 163). -/
def execRefclkReturn (s : State) : Host.Outcome State Fault Refusal :=
  done (
    if s.clk.pll = .holdover ∨ s.clk.pll = .oscillator then
      { s.wr K.clkStatus (clearBits (s.rd K.clkStatus) 0xF) with clk := { s.clk with pll := .refclk } }
    else s)

/-- AON_CRYSTAL_STOP (R31): AONCLK switches to the internal oscillator. -/
def execAonCrystalStop (s : State) : Host.Outcome State Fault Refusal :=
  done (
    if s.clk.aonCrystal then { s.flag K.clkStatus 4 true with clk := { s.clk with aonCrystal := false } } else s)

end Sys2Proof.Machine
end

