-- ==== Sys2Proof/Machine/OtpOps.lean ====
section
/-! DEFINITION. The one-time-programmable array: words and their states, the redirection table, critical fields, region
states, and the burning of words ("One-Time-Programmable Memory"). -/

namespace Sys2Proof.Machine

/-! The array (R422 to R424). -/

/-- The places of the 32 data cells in the code of a word: those that no check cell takes. -/
def cellPlaces : List Nat := [3, 5, 6, 7, 9, 10, 11, 12, 13, 14, 15, 17, 18, 19, 20, 21, 22, 23, 24, 25, 26, 27, 28, 29, 30, 31, 33, 34, 35, 36, 37, 38]

/-- Whether a number has an odd count of ones among its low 39 bits. -/
def oddOnes (v : Nat) : Bool := (List.range 39).foldl (fun b i => b != v.testBit i) false

/-- The seven check bits of 32 data bits under a (39,32) SECDED code (R422): six of a Hamming code by the places of the data cells, and
the parity of all. Which code it is the manual leaves open: PRESUMED (log entry 170). -/
def checkBits (v : Nat) : Nat :=
  let h := (cellPlaces.zipIdx).foldl (fun x p => if v.testBit p.2 then x ^^^ p.1 else x) 0
  h + (if oddOnes (v + 2 ^ 32 * h) then 64 else 0)

/-- The 39 cells of a programmed value: the check cells are stored inverted (R422). -/
def cellsOf (v : Nat) : Nat := v % 2 ^ 32 + 2 ^ 32 * (127 - checkBits (v % 2 ^ 32))

/-- The cells are a codeword. -/
def codeword (c : Nat) : Bool := decide (cellsOf c = c)

/-- A word programmed with `v` whose every cell is firm. -/
def OtpWord.programmed (v : Nat) : OtpWord := { hi := cellsOf v, nom := cellsOf v, lo := cellsOf v }

/-- The cells of a word that are marginal (R424). -/
def OtpWord.marginal (w : OtpWord) : Nat := w.lo ^^^ w.hi

/-- The codeword that the cells come to where one cell is corrected: the marginal one, or the one in error (Table 16.2). -/
def OtpWord.corrected (w : OtpWord) : Option Nat :=
  if w.marginal = 0 then ((List.range 39).map fun i => w.nom ^^^ 2 ^ i).find? codeword
  else if (List.range 39).any fun i => decide (w.marginal = 2 ^ i) then [w.nom, w.nom ^^^ w.marginal].find? codeword
  else none

/-- The state of a word (Table 16.2). -/
def OtpWord.st (w : OtpWord) : WordSt :=
  if w = OtpWord.blank then .blank
  else if w.marginal = 0 ∧ codeword w.nom then .good
  else if w.corrected.isSome then .weak
  else .bad

/-- The value that a word delivers (Table 16.2). -/
def OtpWord.value (w : OtpWord) : Option Nat :=
  match w.st with
  | .good => some (w.nom % 2 ^ 32)
  | .weak => w.corrected.map (· % 2 ^ 32)
  | .blank => none
  | .bad => none

/-- The bits of a word of the CNT region that count as set: those that read burned at MARGIN_LO (R439). -/
def OtpWord.counted (w : OtpWord) : Nat := w.lo % 2 ^ 32

/-- The data cells of a word that are marginal. -/
def OtpWord.doubtful (w : OtpWord) : Nat := w.marginal % 2 ^ 32

/-- What an unlisted word is: blank. -/
def blankWord (_ : Nat) : OtpWord := OtpWord.blank

/-- A word of the array, of a spare row or of the redirection table. -/
def cellAt (m : SMap OtpWord) (a : Nat) : OtpWord := SMap.get blankWord m a

/-- Word `i` of spare row `n`. -/
def spareAddr (n i : Nat) : Nat := 4096 + 32 * n + i

/-- Entry `n` of the redirection table. -/
def entryAddr (n : Nat) : Nat := 4608 + n

/-- The row that entry `n` names; none where the entry is blank, bad or malformed (R434). -/
def entryRow (m : SMap OtpWord) (n : Nat) : Option Nat :=
  match (cellAt m (entryAddr n)).value with
  | some v => if v = v % 128 + 128 * (127 - v % 128) then some (v % 128) else none
  | none => none

/-- An entry that the scan logs: BAD or malformed (R434), or WEAK (R426). -/
def entryLogged (m : SMap OtpWord) (n : Nat) : Bool :=
  let st := (cellAt m (entryAddr n)).st
  decide (st = .weak ∨ st = .bad) || (decide (st = .good) && (entryRow m n).isNone)

/-- The spare row that governs a row: the highest-numbered entry that names it (R434). -/
def spareOf (m : SMap OtpWord) (r : Nat) : Option Nat :=
  ((List.range 16).filter fun n => entryRow m n = some r).getLast?

/-- Where a word of the array is read and burned. -/
def placeOf (m : SMap OtpWord) (a : Nat) : Nat :=
  match spareOf m (a / 32) with
  | some n => spareAddr n (a % 32)
  | none => a

/-- A word of the array as a read finds it now. -/
def wordAt (m : SMap OtpWord) (a : Nat) : OtpWord := cellAt m (placeOf m a)

/-- Whether spare row `n` is free: its entry and its words blank. -/
def spareFree (m : SMap OtpWord) (n : Nat) : Bool :=
  decide ((cellAt m (entryAddr n)).st = .blank) && (List.range 32).all fun i => decide ((cellAt m (spareAddr n i)).st = .blank)

/-! Regions (Table 16.1). -/

/-- The digest-locked region of a word: 0 BOOT, 1 KEY, 2 CAL bank A, 3 CAL bank B. -/
def lockedRegion (a : Nat) : Option (Fin 4) :=
  if a < 0x100 then some 0 else if a < 0x300 then some 1 else if a < 0x500 then some 2 else if a < 0x700 then some 3 else none

/-- First word and length of a digest-locked region, digest words included. -/
def regionSpan (r : Fin 4) : Nat × Nat :=
  match r.val with
  | 0 => (0, 0x100)
  | 1 => (0x100, 0x200)
  | 2 => (0x300, 0x200)
  | _ => (0x500, 0x200)

/-- Address of digest word `j` of a region. -/
def digestAddr (r : Fin 4) (j : Nat) : Nat := (regionSpan r).1 + (regionSpan r).2 - 8 + j

/-- The words of a region outside its digest words. -/
def regionWords (r : Fin 4) : List Nat := (List.range ((regionSpan r).2 - 8)).map fun i => (regionSpan r).1 + i

/-- The required words of a region (Table 16.7). -/
def requiredWords (r : Fin 4) : List Nat :=
  match r.val with
  | 0 => List.range 0x4F
  | 1 => ((List.range 12).map fun i => 0x100 + i) ++ (List.range 12).map fun i => 0x130 + i
  | _ => (List.range 420).map fun i => (regionSpan r).1 + i

/-- Whether a word is a digest word. -/
def digestWord (a : Nat) : Bool :=
  match lockedRegion a with
  | some r => decide (digestAddr r 0 ≤ a)
  | none => false

/-- Digest word `j` as computed over a region whose words are `f` (R436). -/
def computedDigest (f : Nat → Option Nat) (r : Fin 4) (j : Nat) : Nat :=
  leValue (((fitOctets 32 (Config.sha256 ((regionWords r).flatMap fun a => leOctets 4 ((f a).getD 0)))).drop (4 * j)).take 4)

/-- The state of a region (R437): 0 OPEN, 1 FINALISING, 2 FINALISED, 3 INCOMPLETE, 4 MISMATCH. -/
def regionState (w : Nat → OtpWord) (r : Fin 4) : Nat :=
  let f (a : Nat) : Option Nat := (w a).value
  let ds := List.range 8
  let blank (j : Nat) : Bool := decide ((w (digestAddr r j)).st = .blank)
  let right (j : Nat) : Bool := decide (f (digestAddr r j) = some (computedDigest f r j))
  if ds.all blank then 0
  else if ds.any fun j => !blank j && !right j then 4
  else if ds.any blank then 1
  else if (requiredWords r).all fun a => (f a).isSome then 2
  else 3

/-- REGION_STATE of a region. -/
def State.region (s : State) (r : Fin 4) : Int := s.rd (K.regionState + r.val)

/-- A region that counts as finalised (R437). -/
def State.finalised (s : State) (r : Fin 4) : Bool := decide (1 < s.region r)

/-- REGION_STATE of a region taken from the array. -/
def State.judgeRegion (s : State) (r : Fin 4) : State := s.wr (K.regionState + r.val) (regionState (wordAt s.otp.cells) r)

/-! The log (R426). -/

/-- A word found WEAK or BAD, or logged as such. -/
def State.weakFound (s : State) (a : Nat) : State :=
  let l := s.rdB K.weakLog
  let n := min 16 (s.rd K.weakCount).toNat
  let s := if n < 16 then s.wrB K.weakLog (l.take (2 * n) ++ leOctets 2 a ++ l.drop (2 * n + 2)) else s
  ((((s.wr K.otpWeak 1).count K.weakCount).flag K.bootFlags 4 true).alert 14).ioFlag 17 0xB014 1 true

/-- What a read finds a word of the array to be: in the CNT region, whose check cells are not decoded, the bits that count as set, WEAK
with a marginal bit (R439). DEDUCED (log entry 171). -/
def readState (a : Nat) (w : OtpWord) : WordSt :=
  if a < 0xF00 then w.st else if w.lo % 2 ^ 32 = 0 then .blank else if w.doubtful ≠ 0 then .weak else .good

/-- What a read delivers. -/
def readWord (a : Nat) (w : OtpWord) : Option Nat :=
  if a < 0xF00 then w.value else if w.counted = 0 then none else some w.counted

/-- A word read: logged where it is WEAK or BAD (R426, R439). -/
def State.noteWord (s : State) (a : Nat) (w : OtpWord) : State :=
  if readState a w = .weak ∨ readState a w = .bad then s.weakFound a else s

/-! Thermometer counters (R439). -/

/-- How many of the low `n` bits of `v` are set. -/
def popCount : Nat → Nat → Nat
  | 0, _ => 0
  | n + 1, v => v % 2 + popCount n (v / 2)

/-- The value of counter `k`. -/
def counterValue (m : SMap OtpWord) (k : Nat) : Nat :=
  ((List.range 8).map fun i => popCount 32 (wordAt m (0xF00 + 8 * k + i)).counted).sum

/-- CNT, CNT_VALUE, KEEPER_FLOOR and ENGINE_FLOOR follow the array. -/
def State.showCounters (s : State) : State :=
  let v := (List.range 32).map (counterValue s.otp.cells)
  let s := (List.range 32).foldl (fun s k => s.wr (K.cnt + k) (v.getD k 0)) s
  ((s.wrB K.cntValue (v.map (min 255))).wr K.keeperFloor (v.getD 1 0)).wr K.engineFloor (v.getD 2 0)

/-- SPARE_USED and REDIRECT follow the array. -/
def State.showSpares (s : State) : State :=
  let m := s.otp.cells
  (s.wr K.spareUsed ((List.range 16).filter fun n => !spareFree m n).length).wrB K.redirect
    ((List.range 16).flatMap fun n => leOctets 2 ((cellAt m (entryAddr n)).nom % 65536))

/-! Burning (R433, R434). -/

/-- The controller while it burns: the array, what the attempts still to come will bring, the addresses logged, the attempts
spent on the last word, whether a word was redirected, and whether power-fail has stopped it. -/
structure Burner where
  cells : SMap OtpWord
  burns : List Burn
  log : List Nat
  tries : Nat
  moved : Bool
  stopped : Bool
  halted : Bool
  deriving DecidableEq, Repr

/-- The cells of a word after attempts that pulsed the cells `want`: all of them firm, or as the attempts left them. -/
def OtpWord.pulsed (w : OtpWord) (want : Nat) (left : Option BurnLeft) : OtpWord :=
  match left with
  | none => { hi := w.hi ||| want, nom := w.nom ||| want, lo := w.lo ||| want }
  | some l =>
    let f := l.firm.toNat
    { hi := w.hi ||| (want &&& f), nom := w.nom ||| (want &&& (f ||| (l.soft &&& l.nom).toNat)), lo := w.lo ||| (want &&& (f ||| l.soft.toNat)) }

/-- A word verifies: every cell of `want` burned at MARGIN_HI, every other one unburned at MARGIN_LO (R433). -/
def OtpWord.verifies (w : OtpWord) (want : Nat) : Bool := decide (w.hi = want ∧ w.lo = want)

/-- The attempts on the word at `a` (R433), which has not been burned yet or is a digest word that does not hold its value: nine unless one
verifies, fewer where power-fail stops them (R441). -/
def Burner.attempt (b : Burner) (a want : Nat) (x : Burn) (rest : List Burn) : Burner × Bool :=
  let w := (cellAt b.cells a).pulsed want x.left
  let ok := w.verifies want
  ({ b with
    cells := SMap.put blankWord b.cells a w, burns := rest
    tries := if ok || b.stopped then x.more.val + 1 else 9, halted := b.halted || (b.stopped && !ok) }, ok)

/-- A word burned in attempts (R433); false where it did not verify. With power-fail declared no attempt starts beyond those
made (R441). -/
def Burner.burn (b : Burner) (a v : Nat) : Burner × Bool :=
  match b.burns with
  | [] => if b.stopped then ({ b with halted := true }, false) else b.attempt a (cellsOf v) { more := 0, left := none } []
  | x :: r => b.attempt a (cellsOf v) x r

/-- Copies words `is` of a row into spare row `n` (R434 step 2), each with the value read; false where one did not verify. -/
def Burner.copyRow (b : Burner) (row n : Nat) : List Nat → Burner × Bool
  | [] => (b, true)
  | i :: r =>
    match (wordAt b.cells (32 * row + i)).value with
    | none => b.copyRow row n r
    | some v =>
      match b.burn (spareAddr n i) v with
      | (b, true) => b.copyRow row n r
      | (b, false) => (b, false)

/-- Redirects a row (R434) to a free spare row among `ns`, with the value for the word that is to change, whose attempts count (Table
16.8); false where none took it. -/
def Burner.redirect (b : Burner) (row i v : Nat) : List Nat → Burner × Bool
  | [] => (b, false)
  | n :: ns =>
    if b.halted then (b, false)
    else if !spareFree b.cells n then b.redirect row i v ns
    else
      match b.copyRow row n ((List.range 32).filter (· ≠ i)) with
      | (b, false) => b.redirect row i v ns
      | (b, true) =>
        match b.burn (spareAddr n i) v with
        | (b, false) => b.redirect row i v ns
        | (b, true) =>
          if b.stopped then ({ b with halted := true }, false)
          else
            match b.burn (entryAddr n) (row + 128 * (127 - row)) with
            | (b, false) => b.redirect row i v ns
            | (c, true) => ({ c with moved := true, tries := b.tries }, true)

/-- Programs a word of the array, its row redirected where it does not verify (R433, R434). ATTEMPTS stays that of the word. -/
def Burner.program (b : Burner) (a v : Nat) : Burner × Bool :=
  match b.burn (placeOf b.cells a) v with
  | (b, true) => (b, true)
  | (b, false) =>
    let t := b.tries
    match b.redirect (a / 32) (a % 32) v (List.range 16) with
    | (b, ok) => ({ b with tries := t }, ok)

/-- Programs digest words `js` of a region in ascending order, skipping those already right (R436). -/
def Burner.digest (b : Burner) (r : Fin 4) : List Nat → Burner × Bool
  | [] => (b, true)
  | j :: js =>
    let f (a : Nat) : Option Nat := (wordAt b.cells a).value
    let d := computedDigest f r j
    if f (digestAddr r j) = some d then b.digest r js
    else
      match b.program (digestAddr r j) d with
      | (b, true) => b.digest r js
      | (b, false) => (b, false)

/-- Burns the lowest bit of counter `k` that does not count as set, among bits `is`; a bit that the attempts leave marginal counts as set
and is logged, and one that they leave unset is logged and the next one takes its place (R439). -/
def Burner.raise (b : Burner) (k : Nat) : List Nat → Burner × Bool
  | [] => (b, false)
  | i :: is =>
    let n := 0xF00 + 8 * k + i / 32
    let a := placeOf b.cells n
    if (cellAt b.cells a).counted.testBit (i % 32) then b.raise k is
    else
      match b.burns with
      | [] =>
        if b.stopped then ({ b with halted := true }, false)
        else ({ b with cells := SMap.put blankWord b.cells a ((cellAt b.cells a).pulsed (2 ^ (i % 32)) none), tries := 1 }, true)
      | x :: r =>
        let w := (cellAt b.cells a).pulsed (2 ^ (i % 32)) x.left
        let firm := w.hi.testBit (i % 32)
        let b : Burner := { b with
          cells := SMap.put blankWord b.cells a w, burns := r, tries := if firm || b.stopped then x.more.val + 1 else 9
          log := if firm then b.log else b.log ++ [n] }
        if w.counted.testBit (i % 32) then (b, true)
        else if b.stopped then ({ b with halted := true }, false)
        else b.raise k is

/-- Raises counter `k` to a value, one bit at a time, `n` bits at most (R411). -/
def Burner.raiseTo (b : Burner) (k target : Nat) : Nat → Burner × Bool
  | 0 => (b, true)
  | n + 1 =>
    if target ≤ counterValue b.cells k then (b, true)
    else
      match b.raise k (List.range 256) with
      | (b, true) => b.raiseTo k target n
      | (b, false) => (b, false)

/-! The command registers (Table 16.8). -/

/-- OTP_STAT with a field of four bits at `lo` set. -/
def State.otpField (s : State) (lo v : Nat) : State :=
  let x := (s.rd K.otpStat).toNat
  s.wr K.otpStat ((x - x / 2 ^ lo % 16 * 2 ^ lo + v % 16 * 2 ^ lo : Nat) : Int)

/-- A command refused with a status and a REASON (R432): it changes nothing else. -/
def State.otpRefuse (s : State) (status reason : Nat) : State := ((s.otpField 0 5).otpField 12 reason).reply status

/-- A command starts. -/
def State.otpRun (s : State) (j : OtpJob) : State :=
  let s := (((s.otpField 0 1).otpField 8 0).otpField 12 0)
  { s with otp := { s.otp with job := some j, stopped := s.recorder.powerFail } }

/-- A burning command starts its pump (R433): NOT_READY where the pump does not reach its voltage. -/
def State.otpBurn (s : State) (vpp : Bool) (j : OtpJob) : State :=
  if vpp || bit (s.rd K.otpStat) 16 then ((s.flag K.otpStat 16 true).otpRun j) else s.otpRefuse 3 4

/-- What forbids burning a word (Table 16.6), as a REASON; none where it is allowed. BOOT is never repaired once it is finalised
(R435). -/
def burnBar (s : State) (via : OtpVia) (a : Nat) (repair : Bool) : Option Nat :=
  let life := s.rd K.lifecycle
  if a < 0x100 then
    if via ≠ .debug ∨ life ≠ 0 then some 9 else if s.finalised 0 ∧ repair = true then some 7 else none
  else if a < 0x300 then
    if repair ∧ s.finalised 1 = true then none
    else if s.finalised 1 then some 7 else if life ≠ 1 then some 9 else none
  else if a < 0x500 then
    if via ≠ .debug ∨ life ≠ 0 then some 9 else none
  else if a < 0x700 then
    if repair ∧ s.finalised 3 = true then none
    else if s.finalised 3 then some 7 else if s.rd K.cnt ≠ 0 then some 10 else none
  else if a < 0xF00 then
    if bit (s.rd K.lockApp) ((a - 0x700) / 128) then some 5 else none
  else some 10

/-- A word of the shadow, 0 where absent. -/
def State.otpWord (s : State) (a : Nat) : Nat := (SMap.get noWord s.otpShadow a).getD 0

/-- The debug port is open (R417): in VENDOR state or under the JTAG scope, never with DEBUG_DISABLE. -/
def State.debugOpen (s : State) : Bool :=
  decide (s.sec.stat = 2 ∨ s.sec.stat = 3 ∨ s.sec.stat = 7) && !(s.otpWord 0).testBit 0 &&
    (decide (s.rd K.lifecycle = 0) || s.sec.jtagUntil.isSome)

/-- A command reaches the controller by `via`: through the debug port only while it is open (R401, R417). -/
def State.otpReach (s : State) (via : OtpVia) (f : State → State) : State := if via = .debug ∧ !s.debugOpen then s else f s

/-- OTP_CMD READ (R424, R432). -/
def State.otpRead (s : State) : State :=
  let a := (s.rd K.otpAddr).toNat % 4096
  if s.otp.job.isSome then s.reply 1
  else if 0x27 ≤ a ∧ a ≤ 0x3E then s.otpRefuse 7 5
  else s.otpRun (.read a)

/-- OTP_CMD PROGRAM (R432, R433). -/
def State.otpProgram (s : State) (via : OtpVia) (raw vpp : Bool) : State :=
  let a := (s.rd K.otpAddr).toNat % 4096
  if s.otp.job.isSome then s.reply 1
  else match burnBar s via a false with
    | some r => s.otpRefuse 4 r
    | none =>
      if digestWord a && !raw then s.otpRefuse 4 8
      else if (wordAt s.otp.cells a).st ≠ .blank then s.otpRefuse 4 3
      else s.otpBurn vpp (.program a (s.rd K.otpData).toNat)

/-- OTP_CMD REPAIR (R435). -/
def State.otpRepair (s : State) (via : OtpVia) (vpp : Bool) : State :=
  let a := (s.rd K.otpAddr).toNat % 4096
  let d := (s.rd K.otpData).toNat
  let w := wordAt s.otp.cells a
  let fin := match lockedRegion a with | some r => s.finalised r | none => false
  if s.otp.job.isSome then s.reply 1
  else match burnBar s via a true with
    | some r => s.otpRefuse 4 r
    | none =>
      if w.st = .good then s.otpRefuse 4 3
      else if w.st = .blank then s.otpRefuse 4 0
      else if fin && (decide (w.st ≠ .weak) || decide (w.value ≠ some d) ||
          (List.range 32).any fun i => decide ((wordAt s.otp.cells (a / 32 * 32 + i)).st = .bad)) then s.otpRefuse 4 7
      else s.otpBurn vpp (.repair a d)

/-- OTP_CMD FINALISE of region code `arg` (R436): the checks in order. -/
def State.otpFinalise (s : State) (via : OtpVia) (arg : Nat) (vpp : Bool) : State :=
  if s.otp.job.isSome then s.reply 1
  else if h : arg < 4 then
    let r : Fin 4 := ⟨arg, h⟩
    let st (a : Nat) : WordSt := (wordAt s.otp.cells a).st
    match burnBar s via (regionSpan r).1 false with
    | some x => s.otpRefuse 4 x
    | none =>
      if s.finalised r then s.otpRefuse 4 7
      else match (requiredWords r).find? fun a => decide (st a = .blank ∨ st a = .bad) with
      | some a => (s.wr K.otpAddr a).otpRefuse 3 1
      | none =>
        match (regionWords r).find? fun a => decide (st a = .weak ∨ st a = .bad) with
        | some a => (s.wr K.otpAddr a).otpRefuse 3 2
        | none => s.otpBurn vpp (.finalise r)
  else s.otpRefuse 2 0

/-- OTP_CMD ADVANCE of a counter (R439). -/
def State.otpAdvance (s : State) (k : Nat) (vpp : Bool) : State :=
  let v := counterValue s.otp.cells k
  if s.otp.job.isSome then s.reply 1
  else if 256 ≤ v ∨ (1 ≤ k ∧ k ≤ 4) ∨ (k = 0 ∧ (s.region 3 ≠ 2 ∨ 1 ≤ v)) then s.otpRefuse 2 10
  else s.otpBurn vpp (.advance (Fin.ofNat 32 k))

/-- A running command ends with RESULT, its attempts and REASON (R442). -/
def State.otpEnd (s : State) (result tries reason : Nat) : State :=
  let s := { s with otp := { s.otp with job := none, stopped := false } }
  ((((s.otpField 0 result).otpField 8 tries).otpField 12 reason).ioFlag 17 0xB014 0 true).reply 0

/-- A burning command ends with what its burner did. -/
def State.otpBurned (s : State) (r : Burner × Bool) : State :=
  let b := r.1
  let s := { s with otp := { s.otp with cells := b.cells } }
  let s := (b.log.foldl State.weakFound s).showCounters.showSpares
  if s.otp.stopped then s.otpEnd 4 b.tries 0
  else if r.2 then s.otpEnd (if b.moved then 3 else 2) b.tries 0
  else s.otpEnd 4 b.tries 6

end Sys2Proof.Machine
end

