-- ==== Sys2Proof/Machine/Resets.lean ====
section
/-! DEFINITION. Device-wide resets: what each kind keeps, and the reset itself ("Power States, Resets and Degraded
Operation", Table 17.6). -/

namespace Sys2Proof.Machine

/-- The kinds of device-wide reset (Table 17.5), and the loss of power of S5, which keeps what Table 17.6 states for S5. -/
inductive ResetKind where
  | por | bor | pin | kwd | lockstep | soft | s5
  deriving DecidableEq, Repr

/-- RESET_CAUSE of a kind; an exit from S5 is no reset and records none. -/
def ResetKind.code : ResetKind → Option Nat
  | .por => some 1
  | .bor => some 2
  | .pin => some 3
  | .kwd => some 4
  | .lockstep => some 5
  | .soft => some 6
  | .s5 => none

/-- Which RESET_COUNT a kind counts in (Table 17.11). -/
def ResetKind.counter : ResetKind → Option Nat
  | .por => some 0
  | .bor => some 1
  | .pin => some 2
  | .kwd => some 3
  | .lockstep => some 3
  | .soft => some 4
  | .s5 => none

/-- The always-on domain restarts. -/
def ResetKind.always (k : ResetKind) : Bool := decide (k = .por ∨ k = .bor)

/-- TB, the counters, the compare channels and the generators are kept. -/
def ResetKind.keepsTime (k : ResetKind) : Bool := decide (k = .kwd ∨ k = .lockstep ∨ k = .soft ∨ k = .s5)

/-- The comparators' latches, UNRESOLVED flags and CHK_FAIL are kept. -/
def ResetKind.keepsLatches (k : ResetKind) : Bool := decide (k = .kwd ∨ k = .lockstep ∨ k = .soft ∨ k = .pin)

/-- Entries whose values live in NVM. -/
def nvmKeys : List Nat :=
  [K.recSeq, K.storeCountA, K.storeCountB, K.nvmState, K.pfCount, K.pfLastUs, K.opSeconds, K.powerCycles, K.lockstepCount,
    K.resetCount, K.resetCount + 1, K.resetCount + 2, K.resetCount + 3, K.resetCount + 4, K.ffValid, K.ffLater, K.resetCause]

/-- Status entries of the time base. -/
def timeKeys : List Nat :=
  [K.tbRate, K.tbErr, K.tbLock, K.ppsStamp, K.ppsFrac, K.ppsCount, K.syncStamp, K.syncFrac, K.syncCount]

/-- Octet strings in NVM. -/
def nvmBlobs : List Nat := [K.ffLog, K.deviceCert, K.caCert]

/-- A comparator that starts again with its latches kept: its bits stand as they were, no check runs. -/
def CmpHw.kept (h : CmpHw) (c : Nat) : CmpHw :=
  { h with checking := false, settling := false, mode := (CmpHw.reset c).mode }

/-- What a reset during an attempt makes of a word that was being programmed with `v` (R441), its cells pulsed together: 0 BLANK, 1 GOOD,
2 WEAK by one marginal cell, 3 BAD with every cell that was pulsed marginal; `r` picks the cell and the nominal reads. -/
def tornAs (k v r : Nat) : OtpWord :=
  let c := cellsOf v
  match k with
  | 0 => OtpWord.blank
  | 1 => OtpWord.programmed v
  | 2 =>
    let on := (List.range 39).filter c.testBit
    let m := 2 ^ on.getD (r % on.length) 0
    { hi := c ^^^ m, nom := if r / 64 % 2 = 0 then c else c ^^^ m, lo := c }
  | _ => { hi := 0, nom := c &&& r, lo := c }

/-- A word of the array as a reset left it, one of the states `ks` of tornAs: which is free. -/
def State.tornWord (s : State) (a v : Nat) (ks : List Nat) : State :=
  let w := tornAs (ks.getD (Config.freeNat s.fresh % ks.length) 0) v (Config.freeNat (s.fresh + 1))
  { s with otp := { s.otp with cells := SMap.put blankWord s.otp.cells a w } }.draw.draw

/-- The lowest free spare row. -/
def firstSpare (m : SMap OtpWord) : Option Nat := (List.range 16).find? fun n => spareFree m n

/-- How many of `n` steps had been made when the reset came: a free number. -/
def State.tornCount (s : State) (n : Nat) : Nat := Config.freeNat s.fresh % (n + 1)

/-- A burner whose every attempt verifies. -/
def Burner.sure (m : SMap OtpWord) : Burner :=
  { cells := m, burns := [], log := [], tries := 0, moved := false, stopped := false, halted := false }

/-- The array as a burner left it. -/
def State.burnt (s : State) (b : Burner) : State := { s with otp := { s.otp with cells := b.cells } }

/-- A reset during a redirection before its entry (R441): some words of the spare row are written and the next one is torn, so that the row
is free no more, and the entry is not burned. -/
def State.tornRow (s : State) (row i v : Nat) : State :=
  match firstSpare s.otp.cells with
  | none => s
  | some n =>
    let copied := ((List.range 32).filter (· ≠ i)).filterMap fun j => ((wordAt s.otp.cells (32 * row + j)).value).map fun x => (j, x)
    let todo := copied ++ [(i, v)]
    let k := s.tornCount (todo.length - 1)
    let b := (todo.take k).foldl (fun (b : Burner) x => (b.burn (spareAddr n x.1) x.2).1) (Burner.sure s.otp.cells)
    match todo[k]? with
    | none => s
    | some x => (s.burnt b).draw.tornWord (spareAddr n x.1) x.2 [1, 2, 3]

/-- A reset during FINALISE (R441): the region is FINALISING, with some of the digest words burned, and perhaps one of them WEAK, and some
still BLANK. -/
def State.tornDigest (s : State) (r : Fin 4) : State :=
  let d (j : Nat) : Nat := computedDigest (fun a => (wordAt s.otp.cells a).value) r j
  let js := (List.range 8).filter fun j => decide ((wordAt s.otp.cells (digestAddr r j)).value ≠ some (d j))
  let k := if js.length = 8 then 1 + s.tornCount 6 else s.tornCount (js.length - 1)
  let t := (s.burnt ((Burner.sure s.otp.cells).digest r (js.take k)).1).draw
  match js.drop k with
  | j :: _ :: _ => t.tornWord (placeOf t.otp.cells (digestAddr r j)) (d j) [0, 2]
  | _ => t

/-- A reset that meets a running OTP command (R441): a word under attempt is torn, and where its attempts had failed and its row was being
redirected, a part of the spare row is written; of a counter whole bits have been burned. -/
def State.otpCut (s : State) : State :=
  let s' := match s.otp.job with
    | none => s
    | some (.read _) => s
    | some (.program a d) =>
      if s.tornCount 1 = 0 then s.draw.tornWord (placeOf s.otp.cells a) d [0, 1, 2, 3]
      else (s.draw.tornWord (placeOf s.otp.cells a) d [0, 2, 3]).tornRow (a / 32) (a % 32) d
    | some (.repair a d) => s.tornRow (a / 32) (a % 32) d
    | some (.finalise r) => s.tornDigest r
    | some (.advance k) =>
      if s.tornCount 1 = 0 then s.draw else (s.burnt ((Burner.sure s.otp.cells).raise k.val (List.range 256)).1).draw
    | some (.floors x y) =>
      let n := s.tornCount 256
      let m := counterValue s.otp.cells 1
      let b := ((Burner.sure s.otp.cells).raiseTo 1 (min x (m + n)) 256).1
      (s.burnt (if m + n < x then b else (b.raiseTo 2 (min y (counterValue b.cells 2 + (m + n - x))) 256).1)).draw
  { s' with otp := { s'.otp with job := none, stopped := false } }

/-- The dictionary values that a reset leaves: those in NVM, CLK_STATUS[4] but at POR, and the status of the time base where it
is kept. Every other entry is at its default until the stored values are loaded. -/
def resetOd (s : State) (k : ResetKind) : SMap Int :=
  let od := s.od.filter fun x => nvmKeys.contains x.1 || (k.keepsTime && timeKeys.contains x.1)
  if k ≠ .por ∧ bit (s.rd K.clkStatus) 4 then odPut od K.clkStatus 16 else od

/-- The always-on counts after a reset (R273): from NVM after POR and BOR, POWER_CYCLES one higher after POR. -/
def State.resetCounts (s : State) (k : ResetKind) : State :=
  let s := if k.always then (s.wr K.opSeconds (s.nvGet K.opSeconds)).wr K.ffLater (s.nvGet K.ffLater) else s
  let s := if k = .por then s.count K.powerCycles else s
  let s := match k.counter with
    | some i => s.count (K.resetCount + i)
    | none => s
  match k.code with
  | some c => s.wr K.resetCause c
  | none => s

/-- The device after a device-wide reset of kind `k`, with the boot still to come (R454, R455, Table 17.6): STAT shows reset,
every gate is off, the sequencer is held, and the CC pins are held as R39 states (R408). What the outside shows at the CC pins stays. -/
def State.freshDevice (s : State) (k : ResetKind) : State :=
  let c := s.otpCut
  let z := State.reset
  let t : State :=
    { z with
      pending := s.pending
      od := resetOd s k
      blob := s.blob.filter fun x => nvmBlobs.contains x.1
      fresh := c.fresh
      answer := s.answer
      nv := s.nv
      otp := c.otp
      nvm := { s.nvm with storing := none }
      clk := { z.clk with aonCrystal := decide (k ≠ .por) && s.clk.aonCrystal }
      recorder := { z.recorder with
        wall := s.recorder.wall
        powerFail := !k.always && s.recorder.powerFail
        noErase := decide (k ≠ .por) && s.recorder.noErase
        pfEdge := if k.always then 0 else s.recorder.pfEdge
        opEdge := if k = .por then 0 else if k = .bor then s.time.edges else s.recorder.opEdge }
      time := { z.time with edges := if k = .por then 0 else s.time.edges, baseEdge := if k = .por then 0 else s.time.edges }
      ports := s.ports.map fun h => { PortHw.reset with ccA := h.ccA, ccB := h.ccB }
      tiles := s.tiles.map fun h => { TileHw.reset with feOk := k = .por || h.feOk, vconnOk := k = .por || h.vconnOk }
      cmps := if k.keepsLatches then Vector.ofFn fun i : Fin 164 => (s.cmp i).kept i.val else z.cmps }
  let t := if k.keepsTime then ({ t with tb := s.tb, cts := s.cts, tbcs := s.tbcs, tgs := s.tgs, time := { s.time with due := [] } } : State).undisciplined else t
  let t := { t with ref := { t.ref with age := s.nvGet K.refAge } }.wr K.refAge (s.nvGet K.refAge)
  allPorts.foldl State.deadBattery (t.resetCounts k)

/-- A device-wide reset (R454). A device held by its boot stays held through KWDOG and SOFT (R407). -/
def State.deviceReset (s : State) (k : ResetKind) : State :=
  if s.sec.held ∧ (k = .kwd ∨ k = .lockstep ∨ k = .soft) then s
  else
    let t := s.freshDevice k
    match k.code with
    | some c => t.iow 17 0xF01C c
    | none => t

/-- The keeper watchdog runs (R457): not before the release of a reset, in S3 to S5, or while the plumb pair is halted. -/
def State.keeperWdRuns (s : State) : Bool :=
  decide (s.sec.stat ≠ 0) && !s.sec.held && decide ((s.core 17).run ≠ .reset) && !(tget s.sec.halted 17) &&
    !(decide (s.power.phase = .low) && decide (3 ≤ s.power.target))

/-- The keeper watchdog expires. -/
def State.keeperExpiry (s : State) : State := if s.keeperWdRuns then s.deviceReset .kwd else s

/-- POR. -/
def execPor (s : State) : Host.Outcome State Fault Refusal := done (s.deviceReset .por)

/-- BOR. -/
def execBor (s : State) : Host.Outcome State Fault Refusal := done (s.deviceReset .bor)

/-- PIN_RESET. -/
def execPinReset (s : State) : Host.Outcome State Fault Refusal := done (s.deviceReset .pin)

/-- RESET_REQUEST (R373): the response is sent, and the SOFT reset is due. -/
def execResetRequest (s : State) : Host.Outcome State Fault Refusal :=
  done ({ s with power := { s.power with softDue := true } }.reply 0)

/-- SOFT_RESET (R373): the reset that was asked for takes place. -/
def execSoftReset (s : State) : Host.Outcome State Fault Refusal :=
  done (if s.power.softDue then s.deviceReset .soft else s)

/-- KEEPER_WD_EXPIRY (R457). -/
def execKeeperWdExpiry (s : State) : Host.Outcome State Fault Refusal := done s.keeperExpiry

/-- KWD_KICK (R457): the right key restarts the period; any other counts as an expiry. -/
def execKwdKick (key : BitVec 32) (s : State) : Host.Outcome State Fault Refusal :=
  done (if key.toNat = 0x3C5A then s else s.keeperExpiry)

/-- LOCKSTEP_MISMATCH (R307): both cores stop, LOCKSTEP_COUNT counts, and a KWDOG reset follows, also during the boot (R420). -/
def execLockstepMismatch (s : State) : Host.Outcome State Fault Refusal :=
  done (if s.sec.held ∨ (s.sec.stat = 0 ∧ ¬ s.bootDue) then s else (s.count K.lockstepCount).deviceReset .lockstep)

end Sys2Proof.Machine
end

