-- ==== Sys2Proof/Machine/Tw.lean ====
section
/-! DEFINITION. The two-wire buses beneath the mailbox: controller transactions, arbitration, timeouts ("Two-Wire Buses"). -/

namespace Sys2Proof.Machine

/-- The source number of bus `b` among the requesters. -/
def twSrc (b : Bus) : Requester := ⟨20 + b.val, by omega⟩

/-- TW_STATE follows what the bus does (Table 14.5). -/
def State.twShow (s : State) (b : Bus) : State :=
  let h := s.tw b
  s.wW b Kw.twState (match h.ctl, h.tgt with
    | _, .rx => 1
    | _, .tx => 2
    | some j, .idle => if j.onBus then 3 else 4
    | none, .idle => 0)

/-- The record of a bus replaced, TW_STATE following. -/
def State.putTw (s : State) (b : Bus) (h : TwHw) : State := (s.setTw b h).twShow b

/-- A controller transaction ends with a result (Table 14.3). -/
def State.twEnd (s : State) (b : Bus) (code : Int) (acked : Nat) : State :=
  ((s.putTw b { s.tw b with ctl := none }).wW b Kw.twCtlResult code).wW b Kw.twCtlDone acked

/-- A partial request DF of bus `b` discarded and counted in DF_ERR (R378). -/
def State.dropPart (s : State) (b : Bus) : State :=
  let h := s.src (twSrc b)
  if h.part.isEmpty then s else (s.setSrc (twSrc b) { h with part := [] }).count (K.dfErr + 2 + b.val)

/-- While a transaction runs, the levels that TW_LINES shows are the bus's: free (DESIGN CHOICE, log entry 187). -/
def State.twRuns (s : State) (b : Bus) : State := (s.wW b Kw.twLines (Config.freeNat s.fresh % 4 : Nat)).draw

/-- TW_ROLE and TW_SPEED take effect on a free bus with no transaction of the device (Table 14.4). -/
def State.twConfig (s : State) (b : Bus) : State :=
  let h := s.tw b
  if !h.busy ∧ h.ctl.isNone ∧ h.tgt = .idle then s.applyKeys [keyW b Kw.twSpeed, keyW b Kw.twRole] else s

/-- A transaction that waits takes the bus: START (R390). -/
def State.twStart (s : State) (b : Bus) : State :=
  let h := s.tw b
  match h.ctl with
  | some j =>
    if j.onBus ∨ h.busy ∨ h.tgt ≠ .idle then s
    else
      ((s.putTw b { h with busy := true, ctl := some { j with onBus := true } }).wW b Kw.twCtlTries (s.rW b Kw.twCtlTries + 1)).twRuns b
  | none => s

/-- The bus answers as target (R383, R386): TW_ROLE[0], and an address that is none of the reserved ones. -/
def State.twServes (s : State) (b : Bus) : Bool :=
  bit (s.rW b Kw.twRole) 0 && !bit (s.rW b Kw.twFlags) 2 && decide (2 ≤ s.rW b Kw.twAddr)

/-- TW_CTL_CMD GO (R390): checked in the order of R365, then the transaction waits for the bus. -/
def State.twGo (s : State) (b : Bus) : State :=
  let t := s.rW b Kw.twCtlTarget
  let wl := s.rW b Kw.twCtlWlen
  let rl := s.rW b Kw.twCtlRlen
  if t < 8 ∨ 0x77 < t ∨ t = s.rW b Kw.twAddr ∨ 64 < wl ∨ 64 < rl then s.reply 2
  else if !bit (s.rW b Kw.twRole) 1 then s.reply 4
  else if s.rW b Kw.twCtlResult = 1 then s.reply 1
  else
    let j : TwJob := { target := t.toNat, wdata := (s.rdB (keyW b Kw.twCtlWdata)).take wl.toNat, rlen := rl.toNat,
                       retries := (s.rW b Kw.twCtlRetries).toNat, onBus := false, aborting := false }
    let s := ((s.wW b Kw.twCtlResult 1).wW b Kw.twCtlDone 0).wW b Kw.twCtlTries 0
    ((s.putTw b { s.tw b with ctl := some j }).twStart b).reply 0

/-- TW_CTL_GO. -/
def execTwCtlGo (b : Bus) (s : State) : Host.Outcome State Fault Refusal := done (s.twGo b)

/-- TW_CTL_CMD ABORT (R390, Table 14.4): at once while the bus is awaited, otherwise after the octet in progress. -/
def State.twAbort (s : State) (b : Bus) : State :=
  match (s.tw b).ctl with
  | some j => if j.onBus then (s.putTw b { s.tw b with ctl := some { j with aborting := true } }).reply 0
              else (s.twEnd b 9 0).reply 0
  | none => s.reply 0

/-- TW_CTL_ABORT. -/
def execTwCtlAbort (b : Bus) (s : State) : Host.Outcome State Fault Refusal := done (s.twAbort b)

/-- TW_BUS_FREE (R391, R393, R394): both lines high, a target transaction over; a waiting transaction or retry starts, unless another
node's START (`taken`) has made the bus busy before it. -/
def execTwBusFree (b : Bus) (taken : Bool) (s : State) : Host.Outcome State Fault Refusal :=
  done (
    let s := (s.putTw b { s.tw b with busy := taken, tgt := .idle }).wW b Kw.twLines 3
    if taken then s.twRuns b else s.twStart b)

/-- TW_BUS_BUSY_TIMEOUT (R391): 1 s without a free bus. -/
def execTwBusBusyTimeout (b : Bus) (s : State) : Host.Outcome State Fault Refusal :=
  done (
    match (s.tw b).ctl with
    | some j => if j.onBus then s else s.twEnd b 8 (s.rW b Kw.twCtlDone).toNat
    | none => s)

/-- TW_CTL_COMPLETE (R392): STOP sent; TW_CTL_DONE counts the write octets acknowledged. -/
def execTwCtlComplete (b : Bus) (o : TwEnd) (s : State) : Host.Outcome State Fault Refusal :=
  done (
    match (s.tw b).ctl with
    | some j =>
      if !j.onBus then s
      else
        let n : Nat := match o with | .ok _ => j.wdata.length | .nackAddr r => (if r ∧ 0 < j.rlen then j.wdata.length else 0) | .nackData k => min k j.wdata.length
        let s := s.wW b Kw.twLines 3
        if j.aborting then s.twEnd b 9 n
        else match o with
          | .ok d =>
            let l := ((d.map BitVec.toNat).take j.rlen ++ List.replicate 64 0).take 64
            (s.twEnd b 2 n).wrB (keyW b Kw.twCtlRdata) l
          | .nackAddr _ => s.twEnd b 3 n
          | .nackData _ => s.twEnd b 4 n
    | none => s)

/-- A count of TW_COUNT: 0 BUS_PROTO, 1 ARB_LOST, 2 COND_LOST, 3 STRETCH_TO, 4 SCL_STUCK, 5 SDA_STUCK. -/
def State.twCount (s : State) (b : Bus) (i : Nat) : State := s.count (keyW b Kw.twCount + i)

/-- A flag of TW_FLAGS. -/
def State.twFlag (s : State) (b : Bus) (i : Nat) : State := s.flag (keyW b Kw.twFlags) i true

/-- Arbitration lost at a byte and bit (R393, R394): the position is recorded and the transaction is retried, unless no retry is
left or ABORT was asked; `mine` where the winner addresses this target. -/
def State.twLose (s : State) (b : Bus) (byte bit : Nat) (mine : Option Bool) : State :=
  match (s.tw b).ctl with
  | some j =>
    if !j.onBus then s
    else
      let s := ((s.twCount b 1).twFlag b 3).wW b Kw.twArbPos (byte % 256 + 256 * bit : Nat)
      let acked := min (byte - 1) j.wdata.length
      let s := if byte = 0 then
          (match mine with
           | some rd => if s.twServes b then
               s.putTw b { s.tw b with tgt := if rd then .tx else .rx } else s
           | none => s)
        else s
      if j.aborting then s.twEnd b 9 acked
      else if j.retries = 0 then s.twEnd b 5 acked
      else s.putTw b { s.tw b with busy := true, ctl := some { j with onBus := false, retries := j.retries - 1 } }
  | none => s

/-- TW_ARB_LOST (R393, R394). -/
def execTwArbLost (b : Bus) (byte : Nat) (bit : Fin 8) (mine : Option Bool) (s : State) : Host.Outcome State Fault Refusal :=
  done (s.twLose b byte bit.val mine)

/-- TW_CTL_START_AT_ACK (R396): taken as a loss at the acknowledge bit of the byte, and counted in BUS_PROTO. -/
def execTwCtlStartAtAck (b : Bus) (byte : Nat) (s : State) : Host.Outcome State Fault Refusal :=
  done (
    match (s.tw b).ctl with
    | some j => if j.onBus then ((s.twCount b 0).twFlag b 6).twLose b byte 8 none else s
    | none => s)

/-- TW_COND_LOST (R395): not retried. -/
def execTwCondLost (b : Bus) (acked : Nat) (s : State) : Host.Outcome State Fault Refusal :=
  done (
    match (s.tw b).ctl with
    | some j => if j.onBus then ((s.twCount b 2).twFlag b 4).twEnd b 6 (min acked j.wdata.length) else s
    | none => s)

/-- TW_TARGET_START_AT_ACK (R389): the transaction is aborted and its partial DF discarded. -/
def execTwTargetStartAtAck (b : Bus) (s : State) : Host.Outcome State Fault Refusal :=
  done ((((s.dropPart b).twCount b 0).twFlag b 6).putTw b { s.tw b with tgt := .idle })

/-- A controller transaction on the bus is cut off with STRETCH_TO (R397, R398) after `acked` write octets (R392). -/
def State.twCutOff (s : State) (b : Bus) (j : TwJob) (acked : Nat) : State := s.twEnd b 7 (min acked j.wdata.length)

/-- TW_STRETCH_TIMEOUT (R397): self-reset of the block; the bus is busy again until R391 frees it, and SCL is low. -/
def execTwStretchTimeout (b : Bus) (acked : Nat) (s : State) : Host.Outcome State Fault Refusal :=
  done (
    match (s.tw b).ctl with
    | some j =>
      if j.onBus then
        let s := (((s.twCount b 3).twFlag b 5).dropPart b).twCutOff b j acked
        (s.putTw b { s.tw b with busy := true, tgt := .idle }).flag (keyW b Kw.twLines) 0 false
      else s
    | none => s)

/-- A line stuck low (R398): driven lines are released, a controller transaction ends STRETCH_TO, a target transaction ends as by
STOP. -/
def State.twRelease (s : State) (b : Bus) (acked : Nat) : State :=
  let s := match (s.tw b).ctl with
    | some j => if j.onBus then s.twCutOff b j acked else s
    | none => s
  s.putTw b { s.tw b with tgt := .idle }

/-- TW_SCL_LOW_TIMEOUT (R398). -/
def execTwSclLowTimeout (b : Bus) (acked : Nat) (s : State) : Host.Outcome State Fault Refusal :=
  done ((((s.twCount b 4).twFlag b 0).flag (keyW b Kw.twLines) 0 false).twRelease b acked)

/-- TW_SDA_LOW_TIMEOUT (R398): with TW_BUS_CLEAR, as controller, up to nine pulses and a STOP. -/
def execTwSdaLowTimeout (b : Bus) (freed : Bool) (acked : Nat) (s : State) : Host.Outcome State Fault Refusal :=
  done (
    let clear := decide (s.rW b Kw.twBusClear = 1) && bit (s.rW b Kw.twRole) 1
    (((s.twCount b 5).twFlag b 1).flag (keyW b Kw.twLines) 1 (clear && freed)).twRelease b acked)

/-- TW_CMD 0x01 (Table 14.5): every flag but ADDR_RESERVED. -/
def State.twClearFlags (s : State) (b : Bus) : State := s.wW b Kw.twFlags (maskOf (s.rW b Kw.twFlags) 4)

/-- TW_CMD_CLEAR_FLAGS. -/
def execTwCmdClearFlags (b : Bus) (s : State) : Host.Outcome State Fault Refusal := done ((s.twClearFlags b).reply 0)

/-- TW_CMD 0x02. -/
def State.twClearCounters (s : State) (b : Bus) : State := (List.range 6).foldl (fun s i => s.wW b (Kw.twCount + i) 0) s

/-- TW_CMD_CLEAR_COUNTERS. -/
def execTwCmdClearCounters (b : Bus) (s : State) : Host.Outcome State Fault Refusal := done ((s.twClearCounters b).reply 0)

end Sys2Proof.Machine
end

