-- ==== Sys2Proof/Machine/BootOps.lean ====
section
/-! DEFINITION. What the boot reads and judges: the OTP at start, the critical fields, the images on the wall, the stored values
and the clamps ("Trust Model and Secure Boot"; "One-Time-Programmable Memory", checks at start). -/

namespace Sys2Proof.Machine

/-! The OTP at start (R440). -/

/-- The addresses of the array that may hold a word: those listed, and the words of every redirected row, ascending. -/
def scanAddrs (m : SMap OtpWord) : List Nat :=
  let own := (m.map (·.1)).filter fun a => decide (a < 4096)
  let moved := (List.range 16).flatMap fun n =>
    match entryRow m n with
    | some r => (List.range 32).map fun i => 32 * r + i
    | none => []
  ((own ++ moved).foldl (fun x a => SMap.put zeroCell x a 1) []).map (·.1)

/-- A word read at start: held in the shadow; logged where it is doubtful. In the CNT region a marginal bit is logged (R439). -/
def State.scanWord (s : State) (a : Nat) : State :=
  let w := wordAt s.otp.cells a
  (if 0xF00 ≤ a then s else { s with otpShadow := SMap.put noWord s.otpShadow a w.value }).noteWord a w

/-- The scan: the log starts empty, then the redirection table and the words in ascending order. -/
def State.scanOtp (s : State) : State :=
  let m := s.otp.cells
  let s := ((({ s with otpShadow := [] }.wr K.otpWeak 0).wr K.weakCount 0).wr K.critOutvoted 0).wrB K.weakLog (List.replicate 32 0xFF)
  let s := (((List.range 16).filter fun n => entryLogged m n).map entryAddr).foldl State.weakFound s
  let s := (scanAddrs m).foldl State.scanWord s
  ((List.finRange 4).foldl State.judgeRegion s).showCounters.showSpares

/-! Critical fields (R427, R428). -/

/-- The critical fields: first address and words of a copy. -/
def criticalFields : List (Nat × Nat) := [(0x000, 1), (0x003, 12), (0x027, 8), (0x03F, 4)]

/-- Copy `i` of a field: its words. -/
def copyWords (s : State) (f : Nat × Nat) (i : Nat) : List OtpWord :=
  (List.range f.2).map fun j => wordAt s.otp.cells (f.1 + f.2 * i + j)

/-- A copy is WEAK when any of its words is WEAK or BAD. -/
def copyWeak (l : List OtpWord) : Bool := l.any fun w => decide (w.st = .weak ∨ w.st = .bad)

/-- The vote of R428 over the copies that are not WEAK: none where unresolved. -/
def voteOf (l : List (List (Option Nat))) : Option (List (Option Nat)) :=
  match l with
  | [a, b] => if a = b then some a else none
  | [a, b, c] => if a = b ∨ a = c then some a else if b = c then some b else none
  | _ => none

/-- The value of a copy: its words as delivered. -/
def copyValue (l : List OtpWord) : List (Option Nat) := l.map OtpWord.value

/-- The outcome for a field. -/
def State.fieldVote (s : State) (f : Nat × Nat) : Option (List (Option Nat)) :=
  voteOf (((List.range 3).map (copyWords s f)).filter (fun l => !copyWeak l) |>.map copyValue)

/-- A resolved field is driven to its users: its value stands in the first copy's place; copies outvoted are counted once and
logged. -/
def State.driveField (s : State) (f : Nat × Nat) : State :=
  match s.fieldVote f with
  | none => s
  | some v =>
    let s' := (v.zipIdx).foldl (fun t x => { t with otpShadow := SMap.put noWord t.otpShadow (f.1 + x.2) x.1 }) s
    let out := (List.range 3).filter fun i => !copyWeak (copyWords s f i) && decide (copyValue (copyWords s f i) ≠ v)
    if out.isEmpty then s'
    else
      let t := s'.wr K.critOutvoted (satInc (s'.rd K.critOutvoted) 255)
      (out.flatMap fun i => (List.range f.2).map fun j => f.1 + f.2 * i + j).foldl State.weakFound t

/-- Words of the shadow as octets, none where any is absent: a hash or a key slot (R430). -/
def State.otpOctets (s : State) (a n : Nat) : Option (List Nat) :=
  ((List.range n).mapM fun j => SMap.get noWord s.otpShadow (a + j)).map fun l => l.flatMap (leOctets 4)

/-- The vendor root hash. -/
def State.rootHash (s : State) : Option (List Nat) := s.otpOctets 0x003 12

/-- Key slot `k` of a table of the KEY region. -/
def State.keySlot (s : State) (base k : Nat) : Option (List Nat) := s.otpOctets (base + 12 * k) 12

/-- The integrator image key slot that CNT4 selects (R410). -/
def State.imageSlot (s : State) : Nat := min 3 (counterValue s.otp.cells 4)

/-! What the start takes from the OTP (R404, R418, R429, R431, Table 7.1). -/

/-- LIFECYCLE (R404). -/
def State.lifecycle (s : State) : Int := if !s.finalised 0 then 0 else if !s.finalised 1 then 1 else 2

/-- LOCK_APP at step 3 (R431). -/
def State.lockPolicy (s : State) : Nat :=
  bitsOf ((List.range 16).map fun b =>
    (s.otpWord 0).testBit (10 + b) || decide (SMap.get noWord s.otpShadow (0x77F + 0x80 * b) = some 0x434C4F53))

/-- A 16-bit field as a signed number. -/
def asI16 (n : Nat) : Int := if n % 65536 < 32768 then (n % 65536 : Nat) else ((n % 65536 : Nat) : Int) - 65536

/-- The seven ceilings as four words pack them (Table 16.3). -/
def unpackCeilings (f : Nat → Nat) : List Int :=
  [(f 0 % 256 : Nat), (f 0 / 256 % 256 : Nat), (f 0 / 65536 : Nat), (f 1 : Nat), asI16 (f 2), (f 2 / 65536 : Nat), (f 3 % 65536 : Nat)]

/-- The ceilings as shipped (Table 15.8). -/
def shippedCeilings : List Int := [160, 255, 10000, 500000, 175, 3000, 6000]

/-- The word of the four that holds each ceiling (Table 16.3). -/
def ceilingWord : List Nat := [0, 0, 0, 1, 2, 2, 3]

/-- The OTP ceilings: the least of BOOT's, those of Table 15.8 where their word is absent, and APP's, where a field of 0 imposes none (R418,
R429, R431). -/
def State.ceilings (s : State) : List Int :=
  let held := (unpackCeilings fun j => s.otpWord (0x3F + j)).zip (ceilingWord.zip shippedCeilings)
  let boot := held.map fun x => if (SMap.get noWord s.otpShadow (0x3F + x.2.1)).isSome then x.1 else x.2.2
  (boot.zip (unpackCeilings fun j => s.otpWord (0x700 + j))).map fun x => if x.2 = 0 then x.1 else min x.1 x.2

/-- CAL_BANK (R211, R437): the bank that CNT0 selects, where it is in force. -/
def State.calBankOf (s : State) : Int :=
  let n := counterValue s.otp.cells 0
  if n = 0 ∧ (s.region 2 = 2 ∨ s.region 2 = 3) then 0
  else if n = 1 ∧ (s.region 3 = 2 ∨ s.region 3 = 3) then 1
  else 255

/-- The entries that the start takes from the OTP. -/
def State.loadOtp (s : State) : State :=
  let s := (s.wr K.lifecycle s.lifecycle).wr K.lockApp s.lockPolicy
  let id := s.otpWord 0x4D
  let s := ((s.wr K.serial (s.otpWord 0x4B + 4294967296 * s.otpWord 0x4C : Nat)).wr K.grade (id % 256 : Nat)).wr K.siliconRev (id / 256 % 256 : Nat)
  let s := s.wr K.factoryCertId (s.otpWord 0x4E)
  let s := ((s.ceilings).zipIdx).foldl (fun s x => (s.wr (K.otpCeil + x.2) x.1).wr (K.cap + x.2) x.1) s
  let b := s.calBankOf
  let base := if b = 1 then 0x500 else 0x300
  let s := (s.wr K.calBank b).wr K.calGen (counterValue s.otp.cells 0)
  let s := if b = 255 then (s.wr K.calCertId 0).wrB K.calDigest (List.replicate 32 0)
    else (s.wr K.calCertId (s.otpWord base)).wrB K.calDigest ((List.range 8).flatMap fun j => leOctets 4 (s.otpWord (base + 504 + j)))
  let s := (List.range 4).foldl (fun s k => s.wrB (K.integratorKeys + k) ((s.keySlot 0x130 k).getD (List.replicate 48 0))) s
  let s := s.wrB K.devicePub (match deviceSeed s with
    | some seed => fitOctets 97 (Config.identityPub (identityKey seed))
    | none => List.replicate 97 0)
  (allConvs.foldl State.otpFactors s).refreshUncAll

/-- TOKEN_CHALLENGE takes a fresh random value (R415). -/
def State.newChallenge (s : State) : State := (s.wrB K.tokenChallenge (fitOctets 32 (Config.freeOctets s.fresh 32))).draw

/-- AONCLK, the two-wire addresses and their straps (R31, R386): the pins' level is free. -/
def State.loadControl (s : State) : State :=
  let c := s.otpWord 0
  let s := { s with clk := { s.clk with aonCrystal := c.testBit 1 && !bit (s.rd K.clkStatus) 4 } }
  let pins := Config.freeNat s.fresh % 8
  (List.finRange 2).foldl (fun s b =>
    let base := (c / 2 ^ (2 + 4 * b.val) % 16) ^^^ 10
    let a := base * 8 + pins
    (s.wW b Kw.twAddr a).flag (keyW b Kw.twFlags) 2 (decide (0x78 ≤ a))) s.draw

/-! Images (R405, R406). -/

/-- The slots of the image area: 0 A, 1 B. -/
def slotBase (n : Nat) : Nat := n * 0x2000000

/-- A number in the header of a slot. -/
def headNum (s : State) (n off len : Nat) : Nat := leValue (wallOctets s (slotBase n + off) len)

/-- MAGIC and VERSION stand in a slot's header. -/
def headOk (s : State) (n : Nat) : Bool :=
  decide (wallOctets s (slotBase n) 4 = [0x53, 0x5A, 0x49, 0x4D]) && decide (headNum s n 4 1 = 1)

/-- KEEPER_LEN, DATA_LEN and ENGINE_LEN. -/
def bodyLens (s : State) (n : Nat) : Nat × Nat × Nat := (headNum s n 16 4, headNum s n 20 4, headNum s n 24 4)

/-- The keeper code, the keeper data and the engine code of a slot. -/
def bodyOf (s : State) (n : Nat) : List Nat × List Nat × List Nat :=
  match bodyLens s n with
  | (k, d, e) =>
    (wallOctets s (slotBase n + 768) k, wallOctets s (slotBase n + 768 + k) d, wallOctets s (slotBase n + 768 + k + d) e)

/-- The integrator signature of a slot verifies under the key the slot carries. -/
def integratorSigned (s : State) (n : Nat) : Bool :=
  (headNum s n 28 4).testBit 0 &&
    Config.ecdsaVerify (wallOctets s (slotBase n + 353) 97) (wallOctets s (slotBase n) 256) (wallOctets s (slotBase n + 608) 96)

/-- Whether the boot requires an integrator signature (R404, R406). -/
def needsIntegrator (s : State) : Bool := decide (s.rd K.lifecycle = 2) && (s.keySlot 0x100 s.imageSlot).isSome

/-- A slot is valid (R406). -/
def slotValid (s : State) (n : Nat) : Bool :=
  let base := slotBase n
  let lens := bodyLens s n
  headOk s n && decide (lens.1 % 4 = 0 ∧ lens.1 ≤ 49152 ∧ lens.2.1 % 4 = 0 ∧ lens.2.1 ≤ 65536 ∧ lens.2.2 % 4 = 0 ∧ lens.2.2 ≤ 65536) &&
    decide (s.rootHash = some (hash48 (wallOctets s (base + 256) 97))) &&
    Config.ecdsaVerify (wallOctets s (base + 256) 97) (wallOctets s base 256) (wallOctets s (base + 512) 96) &&
    (!needsIntegrator s ||
      (integratorSigned s n && decide (s.keySlot 0x100 s.imageSlot = some (hash48 (wallOctets s (base + 353) 97))))) &&
    decide (s.rd K.keeperFloor ≤ (headNum s n 12 2 : Nat)) && decide (s.rd K.engineFloor ≤ (headNum s n 14 2 : Nat)) &&
    (decide (headNum s n 128 8 = 0) || decide ((headNum s n 128 8 : Int) = s.rd K.serial)) &&
    (match bodyOf s n with
      | (k, d, e) =>
        decide (wallOctets s (base + 32) 48 = hash48 (k ++ d)) && decide (wallOctets s (base + 80) 48 = hash48 e))

/-- A slot that may boot: valid, and not being written (R413, R420; log entry 180). -/
def slotBoots (s : State) (n : Nat) : Bool := slotValid s n && decide (s.nvm.imgOpen ≠ some n)

/-- The rank of a slot in the choice: a header without MAGIC or VERSION ranks below every version. -/
def slotRank (s : State) (n : Nat) : Nat := if headOk s n then headNum s n 8 4 + 1 else 0

/-- The slot checked first: the higher version, A where they are equal (R407). -/
def firstSlot (s : State) : Nat := if slotRank s 0 < slotRank s 1 then 1 else 0

/-! Stored values (R369, R371) and clamps (R419). -/


/-- Whether a stored value is still in range, limits apart: those are clamped. -/
def storedOk (s : State) (w : Will) (k : Nat) (v : Int) : Bool :=
  match findRow k with
  | none => false
  | some (a, j, o, r) => r.stored && shapeOk s w 3 a j o r k v

/-- Whether a stored octet string is still one that its entry can hold. -/
def storedTextOk (s : State) (w : Will) (k : Nat) (l : List Nat) : Bool :=
  match findRow k with
  | none => false
  | some (_, _, _, r) => r.stored && r.ty.isString && r.ty.lengthOk l && l.all (fun b => decide (b < 256)) && stringOk s w 3 r k l

/-- The stored values loaded; one out of range is replaced by its default and counted (R371). -/
def State.loadBank (s : State) (b : Bank) : State :=
  let mask := (SMap.get blobDefault b.blobs K.peerMask)
  let w : Will := { vals := b.vals, mask := mask }
  let fixup (t : State) : State := t.wr K.loadFixups (satInc (t.rd K.loadFixups) u16Max)
  let t := b.vals.foldl (fun t x => if storedOk s w x.1 x.2 then t.wr x.1 x.2 else fixup t) s
  (b.blobs.foldl (fun t x => if storedTextOk s w x.1 x.2 then t.wrB x.1 x.2 else fixup t) t).syncPeers

/-- A cap on SHORT_TH or FEED_SHORT lowers the cap of ILIM_MAX or FEED_ILIM where needed (R419). -/
def State.pairCaps (s : State) : State :=
  let s := s.wr K.cap (min (s.rd K.cap) (s.rd (K.cap + 1) - 20))
  s.wr (K.cap + 5) (min (s.rd (K.cap + 5)) (s.rd (K.cap + 6) - 200))

/-- The keys of the limit entries with their number in CAP. -/
def limitKeys : List (Nat × Nat) :=
  (allPorts.flatMap fun p => [(keyP p Kp.ilimMax, 0), (keyP p Kp.shortTh, 1), (keyP p Kp.faultTime, 2), (keyP p Kp.soaEMax, 3),
    (keyP p Kp.fetTmax, 4)]) ++
  (List.finRange 2).flatMap fun f => [(keyF f Kf.feedIlim, 5), (keyF f Kf.feedShort, 6)]

/-- Every limit entry is clamped to the least bound in force, pending values too; each clamp counts (R419). -/
def State.clampLimits (s : State) : State :=
  limitKeys.foldl (fun s x =>
    let b := min (s.rd (K.otpCeil + x.2)) (s.rd (K.cap + x.2))
    let s := if b < s.rd x.1 then (s.wr x.1 b).count K.clampCount else s
    match s.pendingVal x.1 with
    | some v => if b < v then { s with odNew := SMap.put noPending s.odNew x.1 (some b) }.count K.clampCount else s
    | none => s) s

/-- The stored image loaded and clamped. -/
def State.loadStored (s : State) : State :=
  let b := s.validBank
  let s := s.wr K.nvmState b.2
  let s := match b.1 with
    | some x => s.loadBank x
    | none => s
  s.pairCaps.clampLimits

/-! The units started with the values in force (R408). -/

/-- The DAC codes and modes of the comparators, the rails' windows and the scrim's masks. -/
def State.armCmps (s : State) : State :=
  let s := allPorts.foldl (fun s p => (s.setWinI p).setWinV p (s.path p).target) s
  let s := (List.finRange 2).foldl (fun s f => (s.setFeedCodes f).refreshFeed f) s
  let s := allRails.foldl State.applyRail s
  let s := (List.finRange 164).foldl (fun s c => s.setCmp c { s.cmp c with mode := (s.rC c Kc.idleMode).toNat }) s
  let s := { s with tiles := s.tiles.map fun (h : TileHw) => { h with filled := true } }
  { s with scrim := { s.scrim with
    faultMask := (s.rd K.faultMask).toNat ||| 1, pwrgdKill := (s.rd K.pwrgdKill).toNat, writing := false } }

/-- Everything but the engines started with the values in force; the recorder finds its rings' heads on the wall (R269). -/
def State.startUnits (s : State) : State :=
  let s := s.armCmps
  let s := s.startCan
  let s := (s.iow 17 0xF008 (setBits (s.rd K.wakeEn) 0xC00)).iow 17 0xF010 (s.rd K.kwdPeriod)
  let s := (s.refreshBudget).recompute
  let s := s.findHeads.clearImage
  s.wr K.accStartTb s.tb

end Sys2Proof.Machine
end

