-- ==== Sys2Proof/Machine/Boot.lean ====
section
/-! DEFINITION. The boot, the security commands, the image update, vendor tokens and the test port ("Trust Model and Secure
Boot"). -/

namespace Sys2Proof.Machine

/-! Boot (R407 to R409, Table 15.4). -/

/-- The boot stops: the device is held in reset, driving the code of the step (R407). -/
def State.holdBoot (s : State) (code : Nat) : State := { s with sec := { s.sec with stat := code, held := true } }

/-- Step 6: the loader (R409); the keeper ROM goes on. -/
def State.enterLoader (s : State) : State :=
  let s := { s with sec := { s.sec with stat := 3, loader := true } }
  (s.setCore 17 ((s.core 17).released [] 0)).wr K.bootSlot 0xFF

/-- Every engine. -/
def allEngines : List Eng := List.finRange 17

/-- Step 7 with an image loaded: the engine I-spaces written and checked, the engines, the CC pins and the rails released;
otherwise the engines stay in ENG reset, what R408 holds stays held, and BOOT_FLAGS[5] sets. -/
def State.startEngines (s : State) (copyOk : Bool) : State :=
  if copyOk && copyMatches s then
    let s := allEngines.foldl State.releaseEngine s
    let s := { s with sec := { s.sec with stat := 7 }, coat := { s.coat with held := decide (s.rd K.lifecycle = 0) } }
    (List.finRange 2).foldl State.refreshFeed (allPorts.foldl State.toUnattached s)
  else s.flag K.bootFlags 5 true

/-- Steps 5 and 7: image `n` entered: its keeper code and data, the engine code in the keeper area, the stored values, the
units and the engines. -/
def State.enterImage (s : State) (n : Nat) (copyOk : Bool) : State :=
  match bodyOf s n with
  | (k, d, e) =>
    let key := if integratorSigned s n then some (hash48 (wallOctets s (slotBase n + 353) 97)) else none
    let s := { s with sec := { s.sec with
      stat := 2, imageKey := key, engineHash := wallOctets s (slotBase n + 80) 48, engineLen := e.length } }
    let core := (s.core 17).released (imemOf 0x4000 k) 0x4000
    let s := (s.setCore 17 { core with dmem := imemOf 0 d }).putShared 0x80000 e
    let s := ((s.wr K.bootSlot n).wr K.imageVersion (headNum s n 8 4)).wr K.keeperSvn (headNum s n 12 2)
    ((s.wr K.engineSvn (headNum s n 14 2)).loadStored.startUnits).startEngines copyOk

/-- Step 5: the slot of the higher version is checked, then the other (R407); a slot that fails while the other boots sets
BOOT_FLAGS[0], and BOOT_FLAGS[1] where it had the higher version. -/
def State.chooseImage (s : State) (copyOk : Bool) : State :=
  let f := firstSlot s
  let o := 1 - f
  if slotBoots s f then (s.flag K.bootFlags 0 (!slotBoots s o)).enterImage f copyOk
  else if slotBoots s o then
    ((s.flag K.bootFlags 0 true).flag K.bootFlags 1 (decide (slotRank s o < slotRank s f))).enterImage o copyOk
  else s.enterLoader

/-- The wall as the port finds it (R268): CS1 follows CS0 in one linear address, and a chip select without SFDP is not fitted. -/
def State.findWall (s : State) (cs0 cs1 : Option WallFound) : State :=
  let size (w : Option WallFound) : Nat := (w.map (·.size)).getD 0
  { s with recorder := { s.recorder with chips := #v[cs0, cs1], noWall := cs0.isNone && cs1.isNone } }.wr K.wallSize (size cs0 + size cs1 : Nat)

/-- Steps 2 to 7: every critical field that a majority resolves is driven before a hold is judged (R428). -/
def State.bootRun (s : State) (cs0 cs1 : Option WallFound) (copyOk : Bool) : State :=
  let s := s.scanOtp
  let open' := criticalFields.any fun f => (s.fieldVote f).isNone
  let s := criticalFields.foldl State.driveField s
  if s.region 0 = 4 ∨ s.region 1 = 4 then s.holdBoot 4
  else if open' then s.holdBoot 5
  else
    let s := (s.loadOtp.loadControl).newChallenge
    let needs := needsIntegrator s
    let s := (s.flag K.bootFlags 2 needs).flag K.bootFlags 3 (decide (s.rd K.lifecycle = 2) && !needs)
    let s := s.findWall cs0 cs1
    if s.recorder.noWall then s.enterLoader else s.chooseImage copyOk

/-- DEVICE_BOOT (R407): what the ROM's self-check, the wall's SFDP and the second hash of the engine copy come to is the
command's. -/
def execDeviceBoot (rom : Bool) (cs0 cs1 : Option WallFound) (copyOk : Bool) (s : State) : Host.Outcome State Fault Refusal :=
  done (
    if s.bootDue then
      if rom then ({ s with sec := { s.sec with stat := 1 } } : State).bootRun cs0 cs1 copyOk else s.holdBoot 6
    else s)

/-! Vendor tokens (R414 to R416). -/

/-- The session of transport `t` loses the L3 that a token gave it, and returns to L2. -/
def State.dropLevel (s : State) (t : Transport) : State :=
  let k := K.sessionLevel + t.val
  { (if s.rd k = 3 then s.wr k 2 else s) with sec := { s.sec with l3 := tset s.sec.l3 t none } }

/-- Every host transport. -/
def allTransports : List Transport := List.finRange 4

/-- The scopes whose NOT_AFTER does not stay end: L3 of the sessions, and the JTAG scope (R416). -/
def State.endScopes (s : State) (stays : Nat → Bool) : State :=
  let s := (allTransports.filter fun t => (tget s.sec.l3 t).any fun n => !stays n).foldl State.dropLevel s
  { s with sec := { s.sec with jtagUntil := s.sec.jtagUntil.filter stays } }

/-- Where the port has closed, the cores it held resume (R420). -/
def State.closeDebug (s : State) : State :=
  if s.debugOpen then s else { s with sec := { s.sec with halted := Vector.replicate 18 false } }

/-- The scopes in force (TOKEN_SCOPE). -/
def scopesOf (s : State) : Int :=
  b2i (allTransports.any fun t => (tget s.sec.l3 t).isSome) + 2 * b2i s.sec.jtagUntil.isSome

/-- TOKEN_EXPIRY and TOKEN_SCOPE show what is left: the latest expiry of the scopes in force, 0 with none. -/
def State.showScope (s : State) : State :=
  let ends := (allTransports.filterMap fun t => tget s.sec.l3 t) ++ s.sec.jtagUntil.toList
  (s.wr K.tokenExpiry (ends.foldl max 0 : Nat)).wr K.tokenScope (scopesOf s)

/-- Every scope ends. -/
def State.dropToken (s : State) : State := ((s.endScopes fun _ => false).showScope).closeDebug

/-- The session of transport `t` closes (R359): its key is erased, and what its token gave it ends. -/
def State.closeSession (s : State) (t : Transport) : State :=
  let s := if (tget s.sec.l3 t).isSome then (s.dropLevel t).showScope else s
  (s.setSes t SessHw.reset).wr (K.sessionLevel + t.val) 0

/-- Checks of R414 and R415 on a token's octets. -/
def tokenOk (s : State) (l : List Nat) : Bool :=
  let f (o n : Nat) : List Nat := (l.drop o).take n
  decide (l.length = 260) && decide (f 0 4 = [0x53, 0x5A, 0x54, 0x4B]) && decide (f 4 1 = [1]) && decide (leValue (f 5 1) ≤ 3) &&
    decide (leValue (f 161 3) = 0) &&
    decide (s.rootHash = some (hash48 (f 64 97))) && Config.ecdsaVerify (f 64 97) (f 0 164) (f 164 96) &&
    decide (leValue (f 8 8) ≠ 0) && decide ((leValue (f 8 8) : Int) = s.rd K.serial) &&
    decide (counterValue s.otp.cells 3 ≤ leValue (f 16 4)) && decide (f 28 32 = s.rdB K.tokenChallenge) &&
    decide (s.rd K.opSeconds < (leValue (f 20 8) : Int))

/-- A token accepted in the session of transport `t` (R360, R415, R416): the scopes it names stand until its NOT_AFTER, beside those
of other tokens; of two tokens of one scope the later expiry counts. -/
def State.acceptToken (s : State) (t : Transport) (l : List Nat) : State :=
  let scope := leValue ((l.drop 5).take 1)
  let n := leValue ((l.drop 20).take 8)
  let later (o : Option Nat) : Option Nat := some (max n (o.getD 0))
  let s := if scope.testBit 0 then
      { s.wr (K.sessionLevel + t.val) 3 with sec := { s.sec with l3 := tset s.sec.l3 t (later (tget s.sec.l3 t)) } }
    else s
  let s := if scope.testBit 1 then { s with sec := { s.sec with jtagUntil := later s.sec.jtagUntil } } else s
  ((s.wr K.tokenExpiry n).wr K.tokenScope (scopesOf s)).newChallenge

/-- TOKEN_EXPIRY (R416): a NOT_AFTER that OP_SECONDS has reached ends what stands under it. -/
def execTokenExpiry (s : State) : Host.Outcome State Fault Refusal :=
  done (
    let now := (s.rd K.opSeconds).toNat
    let t := s.endScopes fun n => decide (now < n)
    if t.sec = s.sec ∧ (s.rd K.tokenExpiry = 0 ∨ (now : Int) < s.rd K.tokenExpiry) then s else t.showScope.closeDebug)

/-! SEC_CMD (R411, R412, R415, R416). -/

/-- SEC_CMD 0x01 ADVANCE_FLOORS. -/
def execSecCmdAdvanceFloors (vpp : Bool) (s : State) : Host.Outcome State Fault Refusal :=
  done (
    if bit (s.rd K.bootFlags) 1 then s.reply 4
    else if s.sec.loader ∨ s.otp.job.isSome then s.reply 1
    else (s.reply 0).otpBurn vpp (.floors (s.rd K.keeperSvn).toNat (s.rd K.engineSvn).toNat))

/-- SEC_CMD 0x02 ROTATE_IMAGE_KEY. -/
def execSecCmdRotateImageKey (vpp : Bool) (s : State) : Host.Outcome State Fault Refusal :=
  done (
    let next := s.keySlot 0x100 (s.imageSlot + 1)
    if s.otp.job.isSome then s.reply 1
    else if s.imageSlot = 3 ∨ next.isNone ∨ s.sec.imageKey ≠ next then s.reply 3
    else (s.reply 0).otpBurn vpp (.advance 4))

/-- SEC_CMD 0x03 REVOKE_TOKENS. -/
def execSecCmdRevokeTokens (vpp : Bool) (s : State) : Host.Outcome State Fault Refusal :=
  done (
    if s.otp.job.isSome then s.reply 1
    else if 256 ≤ counterValue s.otp.cells 3 then s.otpRefuse 2 10
    else (s.reply 0).otpBurn vpp (.advance 3))

/-- SEC_CMD 0x04 DROP_TOKEN. -/
def execSecCmdDropToken (s : State) : Host.Outcome State Fault Refusal := done (s.dropToken.reply 0)

/-! Image update (R413). -/

/-- The slot not in force. -/
def spareSlot (s : State) : Nat := if s.rd K.bootSlot = 0 then 1 else 0

/-- IMG_CMD 0x01 ERASE: the slot is invalid from here on. -/
def execImgCmdErase (s : State) : Host.Outcome State Fault Refusal :=
  done (
    if s.recorder.noWall then s.reply 3
    else if s.rd K.imgState = 1 then s.reply 1
    else
      let r := s.recorder
      ({ s with recorder := { r with wall := erase r.wall (slotBase (spareSlot s)) 0x400000 }, nvm := { s.nvm with imgOpen := some (spareSlot s) } }.wr
        K.imgState 1).reply 0)

/-- IMG_ERASE_DONE. -/
def execImgEraseDone (s : State) : Host.Outcome State Fault Refusal :=
  done (if s.rd K.imgState = 1 then s.wr K.imgState 2 else s)

/-- IMG_CHUNK: 1,024 octets at an offset of the spare slot. -/
def State.imgChunk (s : State) (off : Nat) (l : List Nat) : State :=
  if off % 1024 ≠ 0 ∨ 0x400000 ≤ off then s.reply 2
  else if s.recorder.noWall then s.reply 3
  else if s.rd K.imgState = 1 then s.reply 1
  else
    let r := s.recorder
    ({ s with recorder := { r with
      wall := putPage r.wall ((slotBase (spareSlot s) + off) / 1024) (fitOctets 1024 l) }, nvm := { s.nvm with imgOpen := some (spareSlot s) } }.wr
        K.imgState 3).reply 0

/-- IMG_CHUNK. -/
def execImgChunk (off : Nat) (octets : List Byte) (s : State) : Host.Outcome State Fault Refusal :=
  done (s.imgChunk off (octets.map (·.toNat)))

/-- IMG_CMD 0x02 VERIFY: the spare slot under R406; a valid one may boot again (R413). -/
def execImgCmdVerify (s : State) : Host.Outcome State Fault Refusal :=
  done (
    if s.rd K.imgState = 1 then s.reply 1
    else if slotValid s (spareSlot s) then (({ s with nvm := { s.nvm with imgOpen := none } } : State).wr K.imgState 4).reply 0
    else (s.wr K.imgState 5).reply 0)

/-! Test access port (R417). -/

/-- EXTEST is allowed: in VENDOR state, or with STAT 0b100 to 0b110. -/
def State.extestOk (s : State) : Bool :=
  decide (4 ≤ s.sec.stat ∧ s.sec.stat ≤ 6) ||
    (decide (s.sec.stat = 2 ∨ s.sec.stat = 3 ∨ s.sec.stat = 7) && decide (s.rd K.lifecycle = 0))

/-- JTAG_TAP_INSTRUCTION. -/
def execJtagTapInstruction (i : TapIns) (s : State) : Host.Outcome State Fault Refusal :=
  done { s with sec := { s.sec with tap := if i = .extest ∧ ¬ s.extestOk then .bypass else i } }

end Sys2Proof.Machine
end

