-- ==== Sys2Proof/Machine/Pipe.lean ====
section
/-! DEFINITION. What a Zamor-32 core sees of its memories and flags while the results of earlier instructions are still on their way
(R284 to R287, Tables 10.4 and 10.5), and how those results land. Instruction numbers count in execution order; cycles count from the
fetch of instruction 0, so that instruction n forms addresses in cycle n + 2, reads in n + 3 and executes in n + 4. -/

namespace Sys2Proof.Machine

/-- The first octet of the core page (Table 10.1). -/
def pageBase : Nat := 0xFFFFFF00

/-- The octets of local data SRAM: 32 KiB of an engine, 64 KiB of the plumb pair (Table 10.1, R308). -/
def dTop (c : CoreId) : Nat := if c.val = 17 then 65536 else 32768

/-- An address of 32 bits. -/
def wrap32 (a : Nat) : Nat := a % 4294967296

/-- Where an octet of I-space stands beside D-space in the pending writes. -/
def iPlace (a : Nat) : Nat := 4294967296 + a % 65536

namespace Page
/-- The words of the core page (Table 10.2). -/
abbrev fp : Nat := 0xFFFFFF00
abbrev kp : Nat := 0xFFFFFF04
abbrev flg : Nat := 0xFFFFFF08
abbrev src : Nat := 0xFFFFFF0C
abbrev dst : Nat := 0xFFFFFF10
abbrev rc : Nat := 0xFFFFFF14
abbrev crcp : Nat := 0xFFFFFF18
abbrev crcv : Nat := 0xFFFFFF1C
abbrev crcf : Nat := 0xFFFFFF20
abbrev sp : Nat := 0xFFFFFF24
abbrev epc : Nat := 0xFFFFFF28
abbrev ecause : Nat := 0xFFFFFF2C
abbrev ivb : Nat := 0xFFFFFF50
abbrev reserved : Nat := 0xFFFFFF54
end Page

namespace Flag
/-- The bits of FLG (R291), and the bits that a write reaches. -/
abbrev z : Nat := 1
abbrev n : Nat := 2
abbrev c : Nat := 4
abbrev v : Nat := 8
abbrev pf : Nat := 16
abbrev ie : Nat := 256
abbrev exl : Nat := 512
abbrev all : Nat := 0x31F
end Flag

/-- `v` with the bits of `mask` taken from `new`. -/
def mergeBits (v mask new : Nat) : Nat := (v ^^^ (v &&& mask)) ||| (new &&& mask)

/-- FLG after the changes that `see` admits. -/
def CoreHw.flags (h : CoreHw) (see : FlagWrite → Bool) : Nat :=
  h.flgPend.foldl (fun v w => if see w then mergeBits v w.mask w.val else v) h.flg

/-- FLG as the conditions and operand reads of instruction `h.idx` see it, in cycle `h.idx + 3`. -/
def CoreHw.flagsRead (h : CoreHw) : Nat := h.flags fun w => decide (w.land < h.idx + 3)

/-- FLG as the operation of instruction `h.idx` sees it, in cycle `h.idx + 4`. -/
def CoreHw.flagsEx (h : CoreHw) : Nat := h.flags fun w => decide (w.land < h.idx + 4)

/-- FLG with every change landed. -/
def CoreHw.flagsAll (h : CoreHw) : Nat := h.flags fun _ => true

/-- What a reader sees: which pending writes, and which changes of FLG. -/
structure Sight where
  write : PendWrite → Bool
  flag : FlagWrite → Bool

/-- An operand read of the instruction: writes of i are seen from i + 4 on. -/
def CoreHw.asOperand (h : CoreHw) : Sight :=
  { write := fun w => decide (w.idx + 4 ≤ h.idx), flag := fun w => decide (w.land < h.idx + 3) }

/-- An operand address: writes of i are seen from i + 5 on (R317). -/
def CoreHw.asAddress (h : CoreHw) : Sight :=
  { write := fun w => decide (w.idx + 5 ≤ h.idx), flag := fun w => decide (w.land < h.idx + 2) }

/-- An element read of a string instruction: as an operand, and every write of its earlier iterations (R326). -/
def CoreHw.asElement (h : CoreHw) : Sight :=
  { write := fun w => decide (w.idx + 4 ≤ h.idx) || decide (w.idx = h.idx)
    flag := fun w => decide (w.land < h.idx + 3) || decide (w.land = h.idx + 6) }

/-- The words of a unit: its own results at any distance, explicit writes of i from i + `k` on (R324, R327). -/
def CoreHw.asUnit (h : CoreHw) (k : Nat) : Sight :=
  { write := fun w => w.unit || decide (w.idx + k ≤ h.idx), flag := fun _ => true }

/-- Everything landed. -/
def everything : Sight := { write := fun _ => true, flag := fun _ => true }

/-- An octet of D-space or, above 2³², of I-space, with nothing pending; the reserved words of the core page read 0 (R280). -/
def CoreHw.base (h : CoreHw) (a : Nat) : Nat :=
  if 4294967296 ≤ a then memGet h.imem (a - 4294967296) else if Page.reserved ≤ a then 0 else memGet h.dmem a

/-- An octet as a reader sees it. -/
def CoreHw.octet (h : CoreHw) (v : Sight) (a : Nat) : Nat :=
  if Page.flg ≤ a ∧ a < Page.flg + 4 then h.flags v.flag / 256 ^ (a - Page.flg) % 256
  else h.pend.foldl (fun x w => if v.write w && decide (w.addr ≤ a ∧ a < w.addr + w.octets.length) then w.octets.getD (a - w.addr) 0
    else x) (h.base a)

/-- `n` octets from address `a`, little-endian (R6). -/
def CoreHw.load (h : CoreHw) (v : Sight) (n a : Nat) : Nat := leValue ((List.range n).map fun i => h.octet v (wrap32 (a + i)))

/-- A word as a reader sees it. -/
def CoreHw.word (h : CoreHw) (v : Sight) (a : Nat) : Nat := h.load v 4 a

/-- A change of FLG takes its place among those on their way: by the cycle in which it lands, after those that land in the same. -/
def placeFlag (w : FlagWrite) : List FlagWrite → List FlagWrite
  | [] => [w]
  | x :: t => if w.land < x.land then w :: x :: t else x :: placeFlag w t

/-- The operation of the instruction updates flags: they land at the end of its EX (Table 10.5). -/
def CoreHw.update (h : CoreHw) (mask val : Nat) : CoreHw :=
  if mask = 0 then h else { h with flgPend := placeFlag { land := h.idx + 4, mask := mask, val := val } h.flgPend }

/-- What a word `v` written at `a` leaves there: the reserved bits of CRCF and ECAUSE stay 0 (R7, R293, R323). -/
def pageWord (a v : Nat) : Nat :=
  if a = Page.crcf then v % 8 else if a = Page.ecause then v % 4096 + v / 65536 % 65536 * 65536 else v

/-- The instruction writes `n` octets of value `v` at address `a`; `unit` where a unit writes a word of its own through. The reserved
words of the core page ignore it; FLG takes it at the end of the write buffer's cycle. -/
def CoreHw.store (h : CoreHw) (unit : Bool) (n a v : Nat) : CoreHw :=
  if Page.flg ≤ a ∧ a < Page.flg + 4 then
    { h with flgPend := placeFlag { land := h.idx + 6, mask := Flag.all, val := v } h.flgPend }
  else if Page.reserved ≤ a ∧ a < 4294967296 then h
  else { h with pend := h.pend ++ [{ idx := h.idx, addr := a, octets := leOctets n (pageWord a v), unit := unit }] }

/-- A write lands. -/
def CoreHw.landWrite (h : CoreHw) (w : PendWrite) : CoreHw :=
  if 4294967296 ≤ w.addr then
    { h with imem := (w.octets.zipIdx).foldl (fun m x => memPut m (w.addr - 4294967296 + x.2) x.1) h.imem }
  else { h with dmem := (w.octets.zipIdx).foldl (fun m x => memPut m (wrap32 (w.addr + x.2)) x.1) h.dmem }

/-- Everything that no later instruction can miss lands: what is due before instruction `h.idx` forms its addresses. -/
def CoreHw.landed (h : CoreHw) : CoreHw :=
  let g := (h.pend.filter fun w => decide (w.idx + 5 ≤ h.idx)).foldl CoreHw.landWrite h
  { g with pend := h.pend.filter fun w => !decide (w.idx + 5 ≤ h.idx), flg := h.flags fun w => decide (w.land < h.idx + 2)
           flgPend := h.flgPend.filter fun w => !decide (w.land < h.idx + 2) }

/-- Everything lands: an entry, a RETE, a core that stops. -/
def CoreHw.flushed (h : CoreHw) : CoreHw :=
  let g := h.pend.foldl CoreHw.landWrite h
  { g with pend := [], flg := h.flagsAll, flgPend := [] }

/-- A word of the core page written at once, beside the pipeline (exception entry). -/
def CoreHw.poke (h : CoreHw) (a v : Nat) : CoreHw := h.landWrite { idx := 0, addr := a, octets := leOctets 4 v, unit := false }

/-- A halfword of I-space (R311). -/
def CoreHw.half (h : CoreHw) (a : Nat) : Nat :=
  h.octet h.asOperand (iPlace a) + 256 * h.octet h.asOperand (iPlace (a + 1))

/-- The length of the instruction that I-space holds at `a` (R311). -/
def CoreHw.lengthAt (h : CoreHw) (a : Nat) : Nat := if zIsLong (h.half a) then 4 else 2

/-- Whether I-space holds a defined encoding where the core fetches (R313). -/
def CoreHw.fetchDefined (h : CoreHw) : Bool := zWordDefined (h.half h.pc) (h.half ((h.pc + 2) % 65536))

end Sys2Proof.Machine
end

