-- ==== Sys2Proof/Machine/Engines.lean ====
section
/-! DEFINITION. The commands of the engines ("Port Engines, Keeper Pair and Float Engine"). -/

namespace Sys2Proof.Machine

/-- The watchdog and CKPT_LATE of engine `e` run: not while its core is halted through the debug port (R417), nor in a
low-power state (R449). -/
def State.timersRun (s : State) (e : Eng) : Bool :=
  !(tget s.sec.halted (coreOf e)) && decide (s.power.phase = .run) && s.engLive e

/-- WD_FIRST_EXPIRY (R298): PERIOD passes without a correct kick. -/
def execWdFirstExpiry (e : Eng) (s : State) : Host.Outcome State Fault Refusal :=
  done (
    let st := s.ior e.val 0xF01C
    if s.timersRun e ∧ bit st 0 ∧ ¬ bit st 1 then s.watchdogExpiry e else s)

/-- ENG_CMD 0x01 (R310): BUSY unless PE16 is FLOAT_IDLE and the engine of ENG_ARG is RUNNING. -/
def State.cmdFailEngine (s : State) : State :=
  let e : Eng := Fin.ofNat 17 (s.rd K.engArg).toNat
  if s.engSt pe16 ≠ Es.floatIdle ∨ s.float.pending ∨ s.engSt e ≠ Es.running then s.reply 1
  else (s.failEngine e 6).reply 0

/-- CK_COMMIT (R301). -/
def execCkCommit (e : Eng) (half : Fin 2) (s : State) : Host.Outcome State Fault Refusal := done (s.ckCommit e half.val)

/-- ADOPT_DONE_WRITE (R302). -/
def execAdoptDoneWrite (s : State) : Host.Outcome State Fault Refusal := done s.adoptDone

/-- BARRIER_OPEN (R305). -/
def execBarrierOpen (set : List Eng) (s : State) : Host.Outcome State Fault Refusal := done (s.openBarrier set)

/-- BAR_ARRIVE (R305). -/
def execBarArrive (e : Eng) (s : State) : Host.Outcome State Fault Refusal := done (s.arrive e)

/-- BARRIER_RELEASE (R305). -/
def execBarrierRelease (s : State) : Host.Outcome State Fault Refusal := done s.releaseBarrier

/-- KCMD_READ (R297): the word is returned and cleared; line 12 follows. -/
def State.kcmdRead (s : State) (e : Eng) : State := s.setMbox e { s.mbox e with kcmd := none }

/-- KCMD_READ. -/
def execKcmdRead (e : Eng) (s : State) : Host.Outcome State Fault Refusal := done (s.kcmdRead e)

/-! Block transfers (R288 to R290). -/

/-- The region of Table 10.6 that holds a shared SRAM offset: 0 to 15 a checkpoint, 16 common, 17 keeper, 18 hawk. -/
def sharedRegion (a : Nat) : Option Nat :=
  if a < 0x40000 then some (a / 0x4000) else if a < 0x80000 then some 16 else if a < 0xC0000 then some 17
  else if a < 0x100000 then some 18 else none

/-- The rights of Table 10.6: whether core `c` may PUSH, or else PULL, in a region. -/
def transferRight (c : CoreId) (push : Bool) (r : Nat) : Bool :=
  if c.val < 16 then (if r < 16 then decide (r = c.val) else decide (r = 16) || !push)
  else if c.val = 16 then (if r < 16 then !push else decide (r = 16) || !push)
  else decide (r < 18) || !push

/-- An octet of shared SRAM as a transfer reads it: the hawk shows the recorder's contents (Table 9.2). -/
def State.sharedRead (s : State) (a : Nat) : Nat := if a < 0xC0000 then s.sharedOctet a else hawkOctet s (a - 0xC0000)

/-- A transfer that breaks a right of Table 10.6 (R288). -/
def xferDenied (c : CoreId) (push : Bool) (shared : Nat) : Bool :=
  decide (0x01000000 ≤ shared) && (sharedRegion (shared - 0x01000000)).any fun r => !transferRight c push r

/-- Whether a transfer may run (R288, R289): its tag free, aligned, lengths and ranges whole, its right held. -/
def xferAllowed (s : State) (c : CoreId) (push : Bool) (loc shared len : Nat) (tag : Fin 4) : Bool :=
  let top := if c.val = 17 then 65536 else 32768
  (tget (s.core c).xfers tag).isNone && decide (loc % 4 = 0 ∧ shared % 4 = 0 ∧ len % 4 = 0 ∧ 4 ≤ len ∧ len ≤ 4096) &&
    decide (loc + len ≤ top) && decide (0x01000000 ≤ shared) &&
    (match sharedRegion (shared - 0x01000000), sharedRegion (shared - 0x01000000 + len - 1) with
     | some r, some r' => decide (r = r') && transferRight c push r
     | _, _ => false)

/-- A PULL or PUSH issued by core `c` (R289, R332): it starts, or is DENIED; one that breaks a right is
counted in ENG_DENY. The control registers of the plumb pair
(Table 17.10) have no XF_DONE, so only its transfers run. -/
def State.startXfer (s : State) (c : CoreId) (push : Bool) (loc shared len : Nat) (tag : Fin 4) : State :=
  let h := s.core c
  if xferAllowed s c push loc shared len tag then
    let x : Xfer := { push := push, loc := loc, shared := shared - 0x01000000, len := len }
    let s := s.setCore c { h with xfers := tset h.xfers tag (some x) }
    if c.val < 17 then s.ioFlag c.val 0xF020 (8 + tag.val) true else s
  else if c.val < 17 then
    let s := s.ioFlag c.val 0xF020 (4 + tag.val) true
    if xferDenied c push shared then s.count (K.engDeny + c.val) else s
  else s

/-- XF_COMPLETE (R289, R290): the last byte lands; DONE sets and line 9 asserts. -/
def execXfComplete (c : CoreId) (t : Fin 4) (s : State) : Host.Outcome State Fault Refusal :=
  done (
    let h := s.core c
    match tget h.xfers t with
    | none => s
    | some x =>
      let s :=
        if x.push then s.putShared x.shared ((List.range x.len).map fun i => h.octet everything (x.loc + i))
        else
          let d := (List.range x.len).foldl (fun m i => memPut m (x.loc + i) (s.sharedRead (x.shared + i))) h.dmem
          s.setCore c { h with dmem := d }
      let s := s.setCore c { s.core c with xfers := tset h.xfers t none }
      if c.val < 17 then (s.ioFlag c.val 0xF020 (8 + t.val) false).ioFlag c.val 0xF020 t.val true else s)

end Sys2Proof.Machine
end

