-- ==== Sys2Proof/Machine/Feed.lean ====
section
/-! DEFINITION. The meanings of the feed hot-swap commands. -/

namespace Sys2Proof.Machine

/-- SEAT_CHANGE (R141, R144): a seat pin changes: an unseated pin of a running feed is a feed loss; a stage that is off
restarts its debounce or waits. -/
def execSeatChange (f : Feed) (pin1 seated : Bool) (s : State) : Host.Outcome State Fault Refusal :=
  done (
    let s := if seated then s else s.feedGiveUp f
    let h := s.feed f
    let s := s.setFeed f (if pin1 then { h with seat1 := seated } else { h with seat0 := seated })
    let s := s.flag (keyF f Kf.feedFlags) (if pin1 then 2 else 1) seated
    (if seated then s else s.feedLoss f .unseat).refreshFeed f)

/-- FEED_START (R141, R158): the conditions have held for SEAT_DEBOUNCE: the stage's comparators change to MODE and are
checked; the ramp follows when both have passed. -/
def execFeedStart (f : Feed) (vin : Int) (s : State) : Host.Outcome State Fault Refusal :=
  done (
    let s := s.setFeed f { s.feed f with vin := vin }
    let s := s.refreshFeed f
    if s.hs f ≤ Hs.wait ∧ s.feedReady f then
      let s := s.setFeed f { s.feed f with starting := true }
      let s := (s.wF f Kf.feedHsState Hs.wait).setFeedCodes f
      (((s.setMode (winF0 f) true).setMode (winF1 f) true).startCheck (winF0 f)).startCheck (winF1 f)
    else s)

/-- FEED_RAMP_TIMEOUT (R142): FX_VOUT has not reached its window by FEED_T_RAMP_MAX. -/
def execFeedRampTimeout (f : Feed) (s : State) : Host.Outcome State Fault Refusal :=
  done (if s.hs f = Hs.ramp ∧ !s.feedIn f then s.feedFault f FeedFlt.rampTimeout else s)

/-- FEED_PG_QUAL_COMPLETE (R142, R133): FEED_PG_QUAL completes with FX_VOUT inside its window and the feed fault timer idle: PG, the
stage ON, the feed available. -/
def execFeedPgQualComplete (f : Feed) (s : State) : Host.Outcome State Fault Refusal :=
  done (
    if s.feedRuns f ∧ (s.feed f).ft = .idle ∧ s.feedGate f ∧ s.feedIn f then
      (s.wF f Kf.feedHsState Hs.on).feedPg f true
    else s)

/-- FEED_PG_DROP (R142): FX_VOUT outside its window for 10 µs. -/
def execFeedPgDrop (f : Feed) (s : State) : Host.Outcome State Fault Refusal :=
  done (if bit (s.rF f Kf.feedFlags) 3 ∧ !s.feedIn f then s.feedPg f false else s)

/-- FEED_FAULT_TIMER_EXPIRY (R143): FEED_FAULT_TIME in current limit: FEED_OVERCURRENT. -/
def execFeedFaultTimerExpiry (f : Feed) (s : State) : Host.Outcome State Fault Refusal :=
  done (if (s.feed f).ft = .running then s.feedFault f FeedFlt.overcurrent else s)

/-- FEED_FAULT_TIMER_IDLE (R143): 100 µs below FEED_ILIM: the timer is idle with count 0. -/
def execFeedFaultTimerIdle (f : Feed) (s : State) : Host.Outcome State Fault Refusal :=
  done (if (s.feed f).ft = .held then s.setFeed f { s.feed f with ft := .idle } else s)

/-- The feed current of a shunt voltage `d` µV between FX_ISP and FX_ISN (R140), 0.1 A. -/
def State.feedAmps (s : State) (f : Feed) (d : Int) : Rat := ((10 * d : Int) : Rat) / (s.rF f Kf.feedRshunt : Int)

/-- The SOA integral of a feed after 10 µs at current `i` 0.1 A (R143): (FX_VIN − FX_VOUT) × I above FEED_SOA_P0, in 10 nJ. -/
def State.feedSoa (s : State) (f : Feed) (vin vout : Int) (i : Rat) : Rat :=
  max 0 ((s.feed f).soaE + ((vin - vout : Int) * i - (1000 * s.rF f Kf.feedSoaP0 : Int)))

/-- FEED_SOA_UPDATE (R140, R143): the guard integrates over 10 µs and trips at FEED_SOA_E; held in S2 and S3; the current starts or holds
the feed fault timer at FEED_ILIM. -/
def execFeedSoaUpdate (f : Feed) (vin vout d : Int) (s : State) : Host.Outcome State Fault Refusal :=
  done (
    let h := s.feed f
    let i := s.feedAmps f d
    let e := if s.asleep 2 then h.soaE else s.feedSoa f vin vout i
    let ft := if s.hs f = Hs.on ∧ ((s.rF f Kf.feedIlim : Int) : Rat) ≤ i then .running else if h.ft = .running then .held else h.ft
    let s := s.setFeed f { h with vin := vin, vout := vout, i := i, soaE := e, ft := ft }
    if ((s.rF f Kf.feedSoaE * 10000000 : Int) : Rat) ≤ e then s.feedFault f FeedFlt.soa else s.refreshFeed f)

/-- FEED_UV_WARN (R144): the live warning of a running stage. -/
def execFeedUvWarn (f : Feed) (low : Bool) (s : State) : Host.Outcome State Fault Refusal :=
  done (
    if low then (if s.hs f = Hs.on then s.flag (keyF f Kf.feedFlags) 0 true else s)
    else s.flag (keyF f Kf.feedFlags) 0 false)

/-- FEED_STAGE_OFF (R145): FX_GATE − FX_SRC falls below 1.0 V: FEED_HS_STATE leaves LOST by the loss cause; what has been written since
applies (R146). -/
def execFeedStageOff (f : Feed) (s : State) : Host.Outcome State Fault Refusal :=
  done (
    if s.hs f = Hs.lost then
      let s := (s.setFeed f { s.feed f with term := false }).applyFeed f
      s.wF f Kf.feedHsState (if s.rF f Kf.lossCause = lossCode .fault then Hs.fault else s.idleHs f)
    else s)

/-- FEED_CMD 0x01 CLEAR (R145): a latched FAULT ends. -/
def execFeedCmdClear (f : Feed) (s : State) : Host.Outcome State Fault Refusal :=
  done (if s.hs f = Hs.fault then s.wF f Kf.feedHsState (s.idleHs f) else s)

/-- FEED_CMD 0x02 OFF (R144, R145): cause COMMAND; the stage is held off. A stage latched in FAULT goes on reading FAULT until CLEAR, and
OFF_COMMAND from then: DESIGN CHOICE (log entry 147). -/
def execFeedCmdOff (f : Feed) (s : State) : Host.Outcome State Fault Refusal :=
  done (
    let s := s.feedGiveUp f
    ((s.setFeed f { s.feed f with cmdOff := true }).feedLoss f .command).refreshFeed f)

/-- FEED_CMD 0x03 ON (R145): the COMMAND hold ends. -/
def execFeedCmdOn (f : Feed) (s : State) : Host.Outcome State Fault Refusal :=
  done ((s.setFeed f { s.feed f with cmdOff := false }).refreshFeed f)

/-- FEED_LOSS_TERM (R144, R162): the feed-loss term asserts. -/
def execFeedLossTerm (f : Feed) (c : LossCause) (s : State) : Host.Outcome State Fault Refusal :=
  done (s.feedLoss f c)

end Sys2Proof.Machine
end

