-- ==== Sys2Proof/Machine/Ledger.lean ====
section
/-! DEFINITION. The meanings of the budget ledger, strip table, shed, restoration and peer commands ("Shelf Budget Ledger and
Strip Tables"). -/

namespace Sys2Proof.Machine

/-- LQ_ADMIT (R77). -/
def execLqAdmit (p : Port) (w : Nat) (s : State) : Host.Outcome State Fault Refusal := done (s.admitPower p w)

/-- LQ_RESERVE (R80): books exactly as ADMIT. -/
def execLqReserve (p : Port) (w : Nat) (s : State) : Host.Outcome State Fault Refusal := done (s.admitPower p w true)

/-- LQ_RELEASE (R80): always granted: the booking is 0; P is ignored. -/
def execLqRelease (p : Port) (s : State) : Host.Outcome State Fault Refusal := done ((s.grant p 0 false).lqAnswer p 1)

/-- LQ_LOWER (R80): always grants: the lower of P and the present booking. -/
def execLqLower (p : Port) (w : Nat) (s : State) : Host.Outcome State Fault Refusal :=
  done (((s.iow (blockOf p) 0x4004 w).grant p (min w (s.rP p Kp.booking)) (s.lport p).reserved).lqAnswer p 1)

/-- WAIT_READVERTISE (R81): on BUDGET_FREE the engine re-advertises to the waiting port. -/
def execWaitReadvertise (p : Port) (s : State) : Host.Outcome State Fault Refusal :=
  done (
    if bit (s.ior (blockOf p) 0x4020) (4 + localOf p) then
      let s := s.ioFlag (blockOf p) 0x4020 (4 + localOf p) false
      if p ∈ s.ledger.waiting then s.sendCaps p true else s
    else s)

/-- STRIP_RECOMPUTE (R84). -/
def execStripRecompute (s : State) : Host.Outcome State Fault Refusal := done s.recompute

/-- SLOT_ARMED (R85, R166): every copy read back matches: the shadow of slot `t`, or of the scrim masks, becomes the armed
copy; otherwise the previous copy stays armed. -/
def execSlotArmed (t : Option Slot) (ok : Bool) (s : State) : Host.Outcome State Fault Refusal :=
  done (
    match t with
    | some n =>
      if (s.slot n).writing ∧ ok then
        let s := s.applyKey (keyS n Ks.stTrigger)
        let s := s.setSlot n { s.slot n with armed := some (s.shadow n), writing := false }
        (List.finRange 2).foldl State.refreshFeed (s.count (keyS n Ks.stSeq))
      else s
    | none =>
      if s.scrim.writing ∧ ok then
        let s := s.applyKeys [K.faultMask, K.pwrgdKill]
        let s := s.wr K.faultMask (withBit (s.rd K.faultMask) 0 true)
        { s with scrim := { faultMask := (s.rd K.faultMask).toNat, pwrgdKill := (s.rd K.pwrgdKill).toNat, writing := false } }.wr
          K.maskState 0
      else s)

/-- A tile slice cuts a port (R87, R91, R139): gate off, retries suspended; a gate already off stays off. -/
def State.tileCut (s : State) (p : Port) : State :=
  if (s.path p).cut then s
  else
    let s := s.setPath p { (s.path p).suspendRetry with cut := true }
    s.gateOff p (if (s.path p).safe ∨ (s.path p).lockout then s.rP p Kp.ppState else Pp.cut)

/-- A tile slice sets a limit code (R88, R92, R116): the lower code governs ILIM, with SHED_GRACE. -/
def State.tileLimit (s : State) (p : Port) (code : Int) : State :=
  if code = 255 then s
  else
    ((s.setPath p { s.path p with strip := some (lowerOf (s.path p).strip code), armStrip := false }).flag (keyP p Kp.ppFlags) 2 true).setWinI p

/-- TILE_SLICE_APPLY (R163, R84, R88, R89): tile `n` takes a strobe of code `t`: the armed slots of that trigger cut or limit
the ports that are source-role ports now; a feed-loss or PEER code with none armed, or both feed losses in force, cuts every
source-role port. -/
def execTileSliceApply (n : Tile) (t : Nat) (s : State) : Host.Outcome State Fault Refusal :=
  done (
    if (s.tile n).strobes.contains t then
      let s := s.setTile n { s.tile n with strobes := (s.tile n).strobes.erase t }
      let cs := copiesFor s t
      let all := decide (cs = [] ∧ t ≤ 3) || (s.ledger.causes.contains 1 && s.ledger.causes.contains 2)
      (tilePorts n).foldl (fun s p =>
        if s.sourceRole p then
          if all || cs.any (fun c => c.cut.testBit p.val) then s.tileCut p
          else cs.foldl (fun s c => s.tileLimit p (c.limit.getD p.val 255)) s
        else s) s
    else s)

/-- LEDGER_SHED_APPLY (R87 to R91): the synchronised trigger reaches the ledger. -/
def execLedgerShedApply (t : Nat) (s : State) : Host.Outcome State Fault Refusal :=
  done (
    if s.ledger.trigs.contains t then
      { s with ledger := { s.ledger with trigs := s.ledger.trigs.erase t } }.ledgerShed t
    else s)

/-- PEER_SHED_IN (R83, R97): a falling edge of SHED_N after the filter: a PEER trigger unless the input is disabled, ignored
after the device's own decision, or stuck. The edge reaches the captures that select it (R344). -/
def execPeerShedIn (s : State) : Host.Outcome State Fault Refusal :=
  done (
    let acts := decide (s.rd K.shedInEn = 1) && !s.ledger.shedIgnore && !s.ledger.shedStuck
    let s := { s with ledger := { s.ledger with shedLow := true } }.emit 3
    if acts then s.trigger 3 else s)

/-- SHED_N_RELEASE (R97): after 10 µs the device releases SHED_N, and its own input acts again. -/
def execShedNRelease (s : State) : Host.Outcome State Fault Refusal :=
  done { s with ledger := { s.ledger with shedDrive := false, shedIgnore := false } }

/-- SHED_N_STUCK (R97): low beyond 10 ms: it triggers nothing further until it has been high. -/
def execShedNStuck (s : State) : Host.Outcome State Fault Refusal :=
  done (
    if s.shedHigh then s
    else { s with ledger := { s.ledger with shedStuck := true } }.ledgerFlag 5 true)

/-- SHED_N_HIGH (R93, R97): the line goes high: PEER may be absent, and a stuck line acts again. -/
def execShedNHigh (s : State) : Host.Outcome State Fault Refusal :=
  done { s with ledger := { s.ledger with shedLow := false, shedStuck := false } }

/-- The derate temperature (R95), 0.1 °C: of the controller die as CV16 last converted it (R485), or SHELF_TEMP where that is higher. -/
def derateTemp (s : State) : Rat :=
  if s.rd K.shelfTemp = -32768 then s.ref.die0 else max s.ref.die0 ((s.rd K.shelfTemp : Int) : Rat)

/-- The derate step at temperature `t` from step `k` (R95): the highest threshold reached, a step left 5 K below its own. -/
def derateStep (s : State) (t : Rat) (k : Int) : Int :=
  let th (i : Nat) : Rat := ((10 * s.rd (K.derateT1 + i) : Int) : Rat)
  let up : Int := if th 2 ≤ t then 3 else if th 1 ≤ t then 2 else if th 0 ≤ t then 1 else 0
  let keep : Int := if k = 3 ∧ th 2 - 50 < t then 3 else if 2 ≤ k ∧ th 1 - 50 < t then 2 else if 1 ≤ k ∧ th 0 - 50 < t then 1 else 0
  max up keep

/-- DERATE_SAMPLE (R95, R90): every 1 ms the derate step follows the temperature; each step entered is its trigger. -/
def execDerateSample (s : State) : Host.Outcome State Fault Refusal :=
  done (
    let old := s.rd K.derateStep
    let new := derateStep s (derateTemp s) old
    let s := s.wr K.derateStep new
    [(1 : Nat), 2, 3].foldl (fun s (k : Nat) => if old < (k : Int) ∧ (k : Int) ≤ new then s.trigger (3 + k) else s) s)

/-- SHELF_TEMP_EXPIRY (R95): a written SHELF_TEMP expires. -/
def execShelfTempExpiry (s : State) : Host.Outcome State Fault Refusal :=
  done ({ s with odNew := SMap.put noPending s.odNew K.shelfTemp none }.wr K.shelfTemp (-32768))

/-- The slot of a second stage (R86): the lowest with trigger NONE, else the lowest MANUAL slot not in force. -/
def secondSlot (s : State) : Option Slot :=
  match allSlots.find? fun n => decide (s.rS n Ks.stTrigger = 0) with
  | some n => some n
  | none => allSlots.find? fun n => decide (s.rS n Ks.stTrigger = 7) && !(s.slot n).inForce

/-- SECOND_STAGE (R86): RUNNING_SUM is still above CAP_AFTER after a shed: a follow-up table against the bookings that stand
is armed and applied through the MANUAL path, or NO_SECOND_STAGE sets where no slot is free. -/
def execSecondStage (s : State) : Host.Outcome State Fault Refusal :=
  done (
    match s.ledger.cap, s.ledger.causes.getLast? with
    | some cap, some c =>
      if runningSum s ≤ cap then s
      else
        match secondSlot s with
        | some n =>
          let s := s.applyLedgerEntries
          let copy := stripTable s 7 cap
          let s := (s.writeShadow n copy).setSlot n { s.slot n with armed := some copy, writing := false, stageOf := some c }
          ((s.count (keyS n Ks.stSeq)).count K.secondStage).trigger 7
        | none => s.ledgerFlag 8 true
    | _, _ => s)

/-- SHED_READVERTISE (R92, R61): the engine of a remaining port sends reduced Source_Capabilities if its objects change. Alert follows
the contract that they lead to. -/
def execShedReadvertise (p : Port) (s : State) : Host.Outcome State Fault Refusal :=
  done (
    if (s.lport p).shedAllot.isSome ∧ s.rP p Kp.ledgerState ≠ 4 then
      let t := s.shedAdvertise p
      if (t.port p).tx = (s.port p).tx ∧ (t.port p).sinkTx = (s.port p).sinkTx then t
      else t.setPort p { t.port p with shedCaps := true }
    else s)

/-- Whether restoration may start (R93, R94): causes are in force, all absent, none running and no hold. -/
def mayRestore (s : State) : Bool :=
  !s.ledger.causes.isEmpty && s.ledger.causes.all (causeAbsent s) && !bit (s.rd K.ledgerFlags) 4 && !bit (s.rd K.ledgerFlags) 6

/-- RESTORE_START (R93, R94, R103): every cause has been absent for RESTORE_DELAY. After a shelf-wide cause the device waits
its turn behind lower restoring members; the cause PEER alone counts as shelf-wide, DESIGN CHOICE (log entry 152). -/
def execRestoreStart (s : State) : Host.Outcome State Fault Refusal :=
  done (
    if mayRestore s then
      if s.ledger.causes.contains 3 ∧ hasPeers s ∧ lowerBusy s then { s with ledger := { s.ledger with turnWait := true } }
      else s.restoreBegin
    else s)

/-- RESTORE_STEP (R94). -/
def execRestoreStep (s : State) : Host.Outcome State Fault Refusal :=
  done (if bit (s.rd K.ledgerFlags) 4 then s.restoreStep else s)

/-- LEDGER_CMD 0x01 RECOMPUTE (R84). -/
def execLedgerCmdRecompute (s : State) : Host.Outcome State Fault Refusal := done (s.recompute.reply 0)

/-- LEDGER_CMD 0x02 FORGET_PEER (R102): the lost member of LEDGER_ARG no longer counts. -/
def execLedgerCmdForgetPeer (s : State) : Host.Outcome State Fault Refusal :=
  done (
    let n := (s.rd K.ledgerArg).toNat
    ({ s with ledger := { s.ledger with peers := s.ledger.peers.filter fun q => !(q.lost && decide (q.node = n)) } }.peerLostFlag).reply 0)

/-- LEDGER_CMD 0x03 CLEAR_FLAGS: the flags that record an event are cleared; OVERCOMMIT, RESTORING, RESTORE_HELD and
SECOND_STAGE show a present state and stay. -/
def execLedgerCmdClearFlags (s : State) : Host.Outcome State Fault Refusal :=
  done (([1, 2, 3, 5, 8].foldl (fun s i => s.ledgerFlag i false) s).reply 0)

/-- LEDGER_CMD 0x04 ABORT_RESTORE (R94): a running restoration stops and what remains of the shed is held; BUSY otherwise. -/
def execLedgerCmdAbortRestore (s : State) : Host.Outcome State Fault Refusal :=
  done (if bit (s.rd K.ledgerFlags) 4 then ((s.ledgerFlag 4 false).ledgerFlag 6 true).reply 0 else s.reply 1)

/-- LEDGER_CMD 0x05 RESUME_RESTORE (R94): the hold ends; BUSY with no hold. -/
def execLedgerCmdResumeRestore (s : State) : Host.Outcome State Fault Refusal :=
  done (if bit (s.rd K.ledgerFlags) 6 then (s.ledgerFlag 6 false).reply 0 else s.reply 1)

/-- SHED_CMD 0x00 to 0x07 (R89, R90): the MANUAL trigger, for an armed MANUAL slot; otherwise refused, MODE or NOT_READY. -/
def execShedCmdApply (n : Slot) (s : State) : Host.Outcome State Fault Refusal :=
  done (if s.rS n Ks.stTrigger ≠ 7 then s.reply 4 else if n ∈ armedFor s 7 then (s.trigger 7).reply 0 else s.reply 3)

/-- SHED_CMD 0x80 + n (R93, R86): a MANUAL slot's part ends; refused for the slot of a second stage (BUSY) and for another trigger
(MODE). Which of R86 and R89 comes first for a second stage in a slot of trigger NONE is a DESIGN CHOICE (log entry 151). -/
def execShedCmdRelease (n : Slot) (s : State) : Host.Outcome State Fault Refusal :=
  done (
    if (s.slot n).stageOf.isSome then s.reply 1
    else if s.rS n Ks.stTrigger ≠ 7 then s.reply 4
    else (s.setSlot n { s.slot n with inForce := false }).reply 0)

/-- LEDGER_FRAME_RX (R98 to R103): a frame of a member, on the controller of LEDGER_BUS under the member's identifier, is taken into
the round when its tag is right, else discarded and counted; any other frame is ignored: DESIGN CHOICE (log entry 165). A differing SHELF_CAP sets CONFIG_MISMATCH; the opener's frame opens the round. -/
def execLedgerFrameRx (f : LedgerFrame) (s : State) : Host.Outcome State Fault Refusal :=
  done (
    let n := f.raw.getD 2 0
    if f.raw.length ≠ 56 ∨ f.raw.getD 0 0 ≠ 0x4C ∨ f.raw.getD 1 0 ≠ 1 ∨ !s.inMask n ∨ n = s.node ∨
      (f.bus.val : Int) ≠ s.rd K.ledgerBus ∨ f.id ≠ frameIdOf s n ∨ s.asleep 2 then s
    else if f.tag ≠ s.frameTag f.raw then s.count K.ledgerFrameErr
    else
      let round := leValue ((f.raw.drop 4).take 2)
      let l := s.ledger
      let opens := !l.roundOpen || decide (round ≠ l.roundNow)
      let s := if opens then { s with ledger := { l with
        roundOpen := true, roundNow := round, sent := false, peers := l.peers.map fun q => ({ q with heard := false } : Peer) } } else s
      let s := s.setPeer
        { node := n, flags := f.raw.getD 3 0, sum := frameField f.raw 8 4, floor := frameField f.raw 12 4
          demand := frameField f.raw 16 4, limit := frameField f.raw 20 4, cap := frameField f.raw 32 4
          heard := true, silent := 0, lost := false }
      let s := { s with ledger := { s.ledger with
        slotNode := (memberAfter s n).getD 128
        opener := if s.ledger.opener.any (fun m => decide (n < m)) then none else s.ledger.opener } }
      let s := s.peerLostFlag
      let s := if frameField f.raw 32 4 ≠ s.rd K.shelfCap then s.ledgerFlag 2 true else s
      if s.ledger.turnWait ∧ !lowerBusy s ∧ mayRestore s then s.restoreBegin else s)

/-- LEDGER_FRAME_TX (R99): the device's slot: its frame goes out; in S2 and deeper none does (R447). -/
def execLedgerFrameTx (s : State) : Host.Outcome State Fault Refusal :=
  done (if s.ledger.roundOpen ∧ s.ledger.slotNode = s.node ∧ !s.ledger.sent ∧ !s.asleep 2 then s.sendFrame s.ledger.roundNow else s)

/-- The opener of the next round: the lowest member, or the one that took over (R99). -/
def openerNode (s : State) : Nat := s.ledger.opener.getD ((members s).headD s.node)

/-- RECON_ROUND_OPEN (R99): the opener opens the next round with its own frame. -/
def execReconRoundOpen (s : State) : Host.Outcome State Fault Refusal :=
  done (
    if hasPeers s ∧ openerNode s = s.node ∧ !s.asleep 2 then
      let round := (s.ledger.roundNow + 1) % 65536
      let s := { s with ledger := { s.ledger with
        roundOpen := true, roundNow := round, peers := List.map (fun (q : Peer) => ({ q with heard := false } : Peer)) s.ledger.peers } }
      s.sendFrame round
    else s)

/-- RECON_SLOT_EXPIRY (R99): a member's slot passes without its frame. -/
def execReconSlotExpiry (node : Nat) (s : State) : Host.Outcome State Fault Refusal :=
  done (
    if s.ledger.roundOpen ∧ s.ledger.slotNode = node then
      { s with ledger := { s.ledger with slotNode := (memberAfter s node).getD 128 } }
    else s)

/-- OPENER_SILENT (R99): the opener has been silent for two RECON_PERIODs; the next lowest member opens. -/
def execOpenerSilent (s : State) : Host.Outcome State Fault Refusal :=
  done (
    match memberAfter s (openerNode s) with
    | some n => { s with ledger := { s.ledger with opener := some n } }
    | none => s)

/-- RECON_ROUND_END (R99 to R102, R104), once the slot of the highest member is over: BUDGET, overcommit and share of the round; a member silent for three rounds is lost; the
ledger entries apply. -/
def execReconRoundEnd (s : State) : Host.Outcome State Fault Refusal :=
  done (
    if s.ledger.roundOpen ∧ s.ledger.slotNode = 128 then
      let short := decide (reconSurplus s < 0)
      let l := s.ledger
      let peers := l.peers.map fun q =>
        if q.heard then { q with silent := 0 } else { q with silent := q.silent + 1, lost := q.lost || decide (2 ≤ q.silent) }
      let s := { s with ledger := { l with base := reconBudget s, share := reconShare s, roundOpen := false, overcommit := short, peers := peers } }
      let s := ((s.wr K.round l.roundNow).ledgerFlag 0 short).peerLostFlag
      let s := if short ∨ !l.overcommit then s else allPorts.foldl (fun s p => s.setLport p { s.lport p with overAllot := none }) s
      (s.setBudget (budgetOf s.ledger)).applyLedgerConfig
    else s)

/-- The sum that OVERCOMMIT_LOWERING must reach: the share of the shelf under overcommit, and BUDGET where LOCAL_LIMIT or a shed holds
that lower (R101); CAP_AFTER after NO_SECOND_STAGE (R86). -/
def lowerTo (s : State) : Option Int :=
  if s.ledger.overcommit then some (min s.ledger.share (s.rd K.budget))
  else if bit (s.rd K.ledgerFlags) 8 then s.ledger.cap
  else none

/-- OVERCOMMIT_LOWERING (R101, R86): allotments of booked ports are lowered, lowest class first, by what the sum exceeds its
share, and the ports re-advertised. -/
def execOvercommitLowering (s : State) : Host.Outcome State Fault Refusal :=
  done (
    match lowerTo s with
    | none => s
    | some goal =>
      ((cutOrder s).foldl (fun (a : Int × State) p =>
        let s := a.2
        let b := s.rP p Kp.booking
        if 0 < a.1 ∧ 0 < b ∧ s.sourceRole p then
          let cut := min a.1 b
          (a.1 - cut, (s.setLport p { s.lport p with overAllot := some (b - cut) }).shedAdvertise p)
        else a) (runningSum s - goal, s)).2)

/-- RESTORE_TURN_TIMEOUT (R103): the lower member's frame fails to arrive and the device starts its restoration. -/
def execRestoreTurnTimeout (s : State) : Host.Outcome State Fault Refusal :=
  done (if s.ledger.turnWait ∧ mayRestore s then s.restoreBegin else s)

end Sys2Proof.Machine
end

