-- ==== Sys2Proof/Machine/Otp.lean ====
section
/-! DEFINITION. The commands of the OTP controller ("One-Time-Programmable Memory"). -/

namespace Sys2Proof.Machine

/-- OTP_CMD_READ. -/
def execOtpCmdRead (via : OtpVia) (s : State) : Host.Outcome State Fault Refusal := done (s.otpReach via fun s => s.otpRead)

/-- OTP_CMD_PROGRAM: RAW is OTP_CMD's own bit, or OTP_ARG[7] where the dictionary issues the command (R442, R443). -/
def execOtpCmdProgram (via : OtpVia) (raw vpp : Bool) (s : State) : Host.Outcome State Fault Refusal :=
  done (s.otpReach via fun s => s.otpProgram via (if via = .dictionary then bit (s.rd K.otpArg) 7 else raw) vpp)

/-- OTP_CMD_REPAIR. -/
def execOtpCmdRepair (via : OtpVia) (vpp : Bool) (s : State) : Host.Outcome State Fault Refusal :=
  done (s.otpReach via fun s => s.otpRepair via vpp)

/-- ARG of a command: OTP_CMD's own field, or OTP_ARG[4:0] where the dictionary issues it (R442, R443). -/
def State.otpArgOf (s : State) (via : OtpVia) (arg : Fin 32) : Nat := if via = .dictionary then fieldOf (s.rd K.otpArg) 0 5 else arg.val

/-- OTP_CMD_FINALISE of the region that ARG names. -/
def execOtpCmdFinalise (via : OtpVia) (arg : Fin 32) (vpp : Bool) (s : State) : Host.Outcome State Fault Refusal :=
  done (s.otpReach via fun s => s.otpFinalise via (s.otpArgOf via arg) vpp)

/-- OTP_CMD_ADVANCE of the counter that ARG names. -/
def execOtpCmdAdvance (via : OtpVia) (arg : Fin 32) (vpp : Bool) (s : State) : Host.Outcome State Fault Refusal :=
  done (s.otpReach via fun s => s.otpAdvance (s.otpArgOf via arg) vpp)

/-- CNT_ADVANCE (R439, Table 15.9): an integrator counter by one. -/
def execCntAdvance (k : Nat) (vpp : Bool) (s : State) : Host.Outcome State Fault Refusal :=
  done (if 5 ≤ k ∧ k ≤ 31 then s.otpAdvance k vpp else s.reply 2)

/-- OTP_PUMP_STOP (R433): 100 ms after the last burning command; one that runs keeps its pump. -/
def execOtpPumpStop (s : State) : Host.Outcome State Fault Refusal :=
  done (match s.otp.job with
    | none => s.flag K.otpStat 16 false
    | some (.read _) => s.flag K.otpStat 16 false
    | some _ => s)

/-- LOCK_APP_SET (R431): bits written 1 are set and stay. -/
def execLockAppSet (m : BitVec 16) (s : State) : Host.Outcome State Fault Refusal :=
  done ((s.wr K.lockApp (setBits (s.rd K.lockApp) m.toNat)).reply 0)

/-- OTP_COMMAND_END (R433 to R439, R441, R442). -/
def execOtpCommandEnd (burns : List Burn) (s : State) : Host.Outcome State Fault Refusal :=
  done (
    let b : Burner := { cells := s.otp.cells, burns := burns, log := [], tries := 0, moved := false, stopped := s.otp.stopped, halted := false }
    match s.otp.job with
    | none => s
    | some (.read a) =>
      let w := wordAt s.otp.cells a
      let n : Nat := match readState a w with | .blank => 0 | .good => 1 | .weak => 2 | .bad => 3
      ((((s.wr K.otpData (((readWord a w).getD 0 : Nat) : Int)).otpField 4 n).noteWord a w).otpEnd 2 0 0)
    | some (.program a d) =>
      let s := s.otpBurned (b.program a d)
      match lockedRegion a with
      | some r => if digestWord a then s.judgeRegion r else s
      | none => s
    | some (.repair a d) => s.otpBurned (b.redirect (a / 32) (a % 32) d (List.range 16))
    | some (.finalise r) => (s.otpBurned (b.digest r (List.range 8))).judgeRegion r
    | some (.advance k) => s.otpBurned (b.raise k.val (List.range 256))
    | some (.floors x y) =>
      match b.raiseTo 1 x 256 with
      | (b, true) => s.otpBurned (b.raiseTo 2 y 256)
      | r => s.otpBurned r)

end Sys2Proof.Machine
end

