-- ==== Sys2Proof/Machine/Power.lean ====
section
/-! DEFINITION. The power-state ladder, power-fail, degraded operation and the tiles' supplies ("Power States, Resets and Degraded
Operation"). -/

namespace Sys2Proof.Machine

/-! Entry (R448, R449). -/

/-- The conditions of R448 for a target state, in the order of their reason codes. -/
def enterBars (s : State) (t : Nat) : List Bool :=
  [allPorts.any fun p =>
      decide ((s.path p).gate ≠ .off) || decide (s.rP p Kp.contract ≠ Ctr.none) || (s.path p).frsArmed || (s.path p).frsWait || (s.path p).retryWait,
   (allSlots.any fun n => (s.slot n).inForce) || bit (s.rd K.ledgerFlags) 4,
   (decide (4 ≤ t) && decide (s.seqState ≠ Seq.off)) || allRails.any fun n => decide (s.railState n = Rs.margin),
   decide (4 ≤ t) && (s.feedRuns 0 || s.feedRuns 1),
   decide (s.rd K.storeState = 1) || s.otp.job.isSome,
   skimBusy s || (List.finRange 3).any fun k => recWaits s k,
   decide (s.rd K.imgState = 1 ∨ s.rd K.imgState = 3),
   s.recorder.powerFail]

/-- The reason of a refusal: the lowest code that holds. -/
def enterRefusal (s : State) (t : Nat) : Option Nat := (enterBars s t).findIdx? (· = true) |>.map (· + 1)

/-- Entry to state S`t` asked for (R448, R449): refused with a reason, or begun; from S3 on the STATE flush comes first. There is
no state but S1 to S5 to enter (R444); RANGE for another: log entry 189. -/
def State.psEnter (s : State) (t : Nat) : State :=
  if t = 0 ∨ 5 < t then s.reply 2
  else if s.power.phase ≠ .run then s.reply 1
  else
    match enterRefusal s t with
    | some r => (s.wr K.psRefuse r).reply 1
    | none =>
      let s := { s with power := { s.power with phase := .entering, target := t } }
      (if 3 ≤ t then s.flushCause 4 else s).reply 0

/-- PS_CMD 0x01 ENTER. -/
def execPsCmdEnter (s : State) : Host.Outcome State Fault Refusal := done (s.psEnter (s.rd K.psTarget).toNat)

/-- A converter that loses its running state and its factors (Table 17.6): what it has delivered stays. -/
def State.coldConv (s : State) (c : Conv) : State :=
  let h := s.conv c
  (s.setConv c { ConvHw.reset with lane := h.lane, dropN := h.dropN, dropTs := h.dropTs, queue := h.queue }).otpFactors c

/-- What S3 and deeper do not hold (R449 step 4, Table 17.6); the hawk is empty (R453). -/
def State.enterVigil (s : State) : State :=
  let s := (List.finRange 4).foldl State.closeSession s
  let s := (allConvs.foldl State.coldConv s)
  let s := (List.range 9).foldl (fun s b => s.wr (K.refSettled + b) 0) s
  let s := s.refreshUncAll
  let r := s.recorder
  { s with recorder := { r with image := Hawk.empty r.image.startStamp r.image.startCycles } }

/-- S4: the comparators are off, and each starts without history (R447). -/
def State.enterDormant (s : State) : State :=
  (List.finRange 164).foldl (fun s c =>
    s.setCmp c { s.cmp c with h := false, l := false, noHist := true, checking := false, settling := false }) s

/-- S5: the device as it starts again, but for the always-on control (R449 step 5, Table 17.6). -/
def State.enterKeep (s : State) : State :=
  let t := (s.freshDevice .s5).iow 17 0xF008 (s.ior 17 0xF008)
  { t.stopPllB with power := s.power }

/-- Whether the STATE flush that an entry waits for has ended. -/
def State.flushIdle (s : State) : Bool :=
  s.recorder.flush.isNone && s.recorder.due.isNone && decide (s.recorder.owed = 0)

/-- PS_ENTRY_COMPLETE (R449). -/
def execPsEntryComplete (s : State) : Host.Outcome State Fault Refusal :=
  done (
    let t := s.power.target
    if s.power.phase ≠ .entering ∨ (3 ≤ t ∧ ¬ s.flushIdle) then s
    else
      let s := { s with power := { s.power with phase := .low } }
      let s := if 2 ≤ t then s.stopPllB else s
      let s := if 3 ≤ t then s.enterVigil else s
      if t = 4 then s.enterDormant else if 5 ≤ t then s.enterKeep else s)

/-! Wake and exit (R450 to R452). -/

/-- The exit begins. -/
def State.startExit (s : State) : State := { s with power := { s.power with phase := .exiting } }

/-- An entry stops and unwinds to S0 (R452). -/
def State.abortEntry (s : State) : State :=
  { s with power := { s.power with phase := .run, target := 0 } }.count K.entryAborts

/-- PS_CMD 0x02 EXIT: a wake event in S1 and S2. -/
def execPsCmdExit (s : State) : Host.Outcome State Fault Refusal :=
  done (if s.power.phase = .low ∧ s.power.target ≤ 2 then s.startExit.reply 0 else s.reply 1)

/-- A feed or a rail is live (R450). -/
def State.feedOrRailLive (s : State) (src : Nat) : Bool :=
  if src = 10 then s.feedRuns 0 || s.feedRuns 1 || decide (s.hs 0 = Hs.lost ∨ s.hs 1 = Hs.lost)
  else allRails.any fun n => (s.rail n).en || decide (s.railState n = Rs.fault)

/-- The states in which a wake source acts (Table 17.3). -/
def wakeStates (src : Nat) : Nat × Nat :=
  if src = 0 ∨ src = 7 then (1, 4)
  else if src = 1 ∨ src = 2 then (2, 5)
  else if src = 3 ∨ src = 4 then (3, 5)
  else if src = 10 ∨ src = 11 then (1, 3)
  else (1, 5)

/-- Whether source `src` acts now. -/
def State.wakes (s : State) (src : Nat) : Bool :=
  let r := wakeStates src
  (decide (10 ≤ src) || bit (s.ior 17 0xF008) src) && (decide (src < 10) || s.feedOrRailLive src) &&
    decide (r.1 ≤ s.power.target) && decide (s.power.target ≤ r.2)

/-- WAKE_EVENT (R450, R452). -/
def execWakeEvent (src : Fin 12) (s : State) : Host.Outcome State Fault Refusal :=
  done (
    if s.power.phase = .run ∨ ¬ s.wakes src.val then s
    else
      let t := s.ioFlag 17 0xF00C src.val true
      match s.power.phase with
      | .entering => t.abortEntry
      | .low => t.startExit
      | _ => t)

/-- PS_EXIT_COMPLETE (R450): S0; from S5 once the boot has run. After S3 and S4 the image starts empty (R262). -/
def execPsExitComplete (s : State) : Host.Outcome State Fault Refusal :=
  done (
    if s.power.phase ≠ .exiting ∨ (s.power.target = 5 ∧ ¬ (s.sec.stat = 3 ∨ s.sec.stat = 2 ∨ s.sec.stat = 7)) then s
    else
      let s := if s.power.target = 3 ∨ s.power.target = 4 then s.clearImage else s
      let s := (s.wr K.lastWake (s.ior 17 0xF00C)).wr K.tbSource 0
      { s with power := { s.power with phase := .run, target := 0 } })

/-! Power-fail (R271, R272, R453). -/

/-- What a declaration stops: a running STORE, further attempts of the OTP controller. -/
def State.pfStops (s : State) : State :=
  let s := if s.rd K.storeState = 1 then { s with nvm := { s.nvm with storing := none } }.wr K.storeState 3 else s
  { s with otp := { s.otp with stopped := s.otp.stopped || s.otp.job.isSome } }

/-- The emergency flush of R272: a flush that ran is abandoned, but for the leaf in program; the image is frozen at once. -/
def State.pfFlush (s : State) : State :=
  if s.rd K.pfEn = 0 ∨ s.recorder.noWall then s
  else
    let s := match s.recorder.flush with
      | some f => if f.frozen ∧ f.leaf < 17 then { s with recorder := { s.recorder with cutLeaf := some (s.nextLeaf f) } } else s
      | none => s
    let n := satInc (s.rd K.pfCount) u32Max
    (((s.wr K.pfCount n).nvPut K.pfCount n)).beginFlush 6

/-- POWER_FAIL_DECLARED. -/
def execPowerFailDeclared (s : State) : Host.Outcome State Fault Refusal :=
  done (
    if s.recorder.powerFail then s
    else
      let deep := decide (s.power.phase = .low ∨ s.power.phase = .exiting) && decide (3 ≤ s.power.target)
      let t := { s with recorder := { s.recorder with powerFail := true, noErase := true, pfEdge := s.time.edges } }
      if deep then
        if s.power.target = 3 then (if s.power.phase = .low then t.startExit else t).dueSaves else t
      else
        let t := match s.power.phase with
          | .entering => t.abortEntry
          | .low => { t.wr K.tbSource 0 with power := { t.power with phase := .run, target := 0 } }
          | _ => t
        t.pfStops.pfFlush.dueSaves)

/-- POWER_FAIL_REARM (R453): the device carries on. -/
def execPowerFailRearm (s : State) : Host.Outcome State Fault Refusal :=
  done { s with recorder := { s.recorder with powerFail := false } }.pfSaves

/-! DEG_CMD (R461). -/

/-- A DEG_CMD begins. -/
def State.degStart (s : State) (j : DegJob) : State :=
  ({ s with power := { s.power with deg := some j } }.wr K.degResult 1).reply 0

/-- A DEG_CMD ends. -/
def State.degEnd (s : State) (r : Int) : State := { s.wr K.degResult r with power := { s.power with deg := none } }

/-- DEG_CMD 0x01 CLEAR_SAFE: both comparators of a port in SAFE_OFF with cause CHECK are checked. -/
def execDegCmdClearSafe (s : State) : Host.Outcome State Fault Refusal :=
  done (
    let n := (s.rd K.degArg).toNat
    let p : Port := Fin.ofNat 64 n
    if s.power.deg.isSome ∨ 64 ≤ n ∨ ¬ (s.path p).safe ∨ s.rd (K.safeCause + p.val) ≠ 1 then s.reply 1
    else ((s.degStart (.clearSafe p)).startCheck (winI p)).startCheck (winV p))

/-- The ports of engine block `k` that an engine failure put in SAFE_OFF start from UNATTACHED (Table 17.8). -/
def State.freeBlock (s : State) (k : Nat) : State :=
  (blockPorts k).foldl (fun s p =>
    if (s.path p).safe ∧ 2 ≤ s.rd (K.safeCause + p.val) ∧ s.rd (K.safeCause + p.val) ≤ 4 then (s.leaveSafe p).toUnattached p else s) s

/-- An engine that RETURN_ENGINE can end (R461): failed or stopped with the ports of its block adopted or in SAFE_OFF. -/
def State.returnable (s : State) (e : Eng) : Bool := !s.engLive e && decide (e ≠ pe16)

/-- The engine's copy does not match: it stays in ENG reset, and its ports are in SAFE_OFF with cause IMAGE (R408). -/
def State.badCopy (s : State) (e : Eng) : State :=
  (((blockPorts e.val).foldl (fun s p => s.safeOff p 4) s).clearEngine e).degEnd 3

/-- DEG_CMD 0x02 RETURN_ENGINE. -/
def execDegCmdReturnEngine (s : State) : Host.Outcome State Fault Refusal :=
  done (
    let n := (s.rd K.degArg).toNat
    let k : Fin 16 := Fin.ofNat 16 n
    let e : Eng := ⟨k.val, by omega⟩
    if s.power.deg.isSome ∨ 16 ≤ n ∨ ¬ s.returnable e ∨ s.float.pending then s.reply 1
    else
      let adopted := decide (s.rd K.adoptEng = (k.val : Int)) && decide (s.engSt pe16 = Es.floatActive)
      let s := s.degStart (.handback k)
      if !copyMatches s then s.badCopy e
      else if adopted then s.sendKcmd pe16
      else ((s.releaseEngine e).freeBlock k.val).degEnd 2)

/-- HANDBACK_REPORT: ownership moves back; PEk restores from the state PE16 left (R303), and PE16 is idle again. Ports that an earlier
copy mismatch put in SAFE_OFF start from UNATTACHED (Table 17.8). -/
def execHandbackReport (s : State) : Host.Outcome State Fault Refusal :=
  done (
    match s.power.deg with
    | some (.handback k) =>
      let e : Eng := ⟨k.val, by omega⟩
      let b := s.float.barrier
      let s := { s with float := { s.float with
        barrier := if b.contains 16 ∧ ¬ b.contains k.val then (b.filter fun x => x ≠ 16) ++ [k.val] else b } }
      (((s.releaseEngine e).endAdoption.setEng pe16 Es.floatIdle).freeBlock k.val).degEnd 2
    | _ => s)

/-- HANDBACK_TIMEOUT: the handback is abandoned; the ports stay with PE16. -/
def execHandbackTimeout (s : State) : Host.Outcome State Fault Refusal :=
  done (
    match s.power.deg with
    | some (.handback _) => s.degEnd 3
    | _ => s)

/-- TRST asserted to tile `n` for 10 µs (R461, R463): the link falls and trains again; a tile that serves ports stops them. -/
def State.trst (s : State) (n : Tile) : State :=
  let s := (tilePorts n).foldl (fun s p => s.gateOff p (if (s.path p).safe then Pp.safeOff else Pp.off)) s
  (s.setTile n { s.tile n with trst := true, filled := false }).setLath n 1

/-- DEG_CMD 0x03 RESET_TILE. -/
def execDegCmdResetTile (s : State) : Host.Outcome State Fault Refusal :=
  done (
    let n := (s.rd K.degArg).toNat
    let t : Tile := Fin.ofNat 8 n
    if s.power.deg.isSome ∨ 8 ≤ n ∨ s.lath t ≠ 3 then s.reply 1
    else (s.degStart (.resetTile t)).trst t)

/-- TILE_TRST_WRITE (R463): TRST to the named tiles. -/
def execTileTrstWrite (m : BitVec 8) (s : State) : Host.Outcome State Fault Refusal :=
  done (((List.finRange 8).filter fun n => m.toNat.testBit n.val).foldl State.trst s)

/-! Supplies of the tiles (R473). -/

/-- VDD_FE_UNDERVOLTAGE: every gate of the tile goes off, and the tile is declared failed. -/
def execVddFeUndervoltage (n : Tile) (s : State) : Host.Outcome State Fault Refusal :=
  done ((tilePorts n).foldl State.deadBattery ((s.setTile n { s.tile n with feOk := false }).tileFails n))

/-- VCONN_UV on a port that sources VCONN (R71, R473); where the device owes VCONN before PS_RDY of a swap, Hard Reset
(R46). An EPR entry that waits for the cable is decided by the result that stays (R59, R473). -/
def State.vconnUv (s : State) (p : Port) : State :=
  let asking := (s.port p).eprEntering && decide ((s.port p).cableTries ≠ 0)
  let t := if s.vconnSource p then ((s.vconnOff p).setPort p { s.port p with cableTries := 0 }).pdFault p PdF.vconnUv else s
  if s.owesVconn p then t.hardReset p PdF.hardResetSent
  else if s.vconnSource p ∧ asking then t.eprOutcome p (decide (s.rP p Kp.cableEpr = 1)) else t

/-- VCONN_UNDERVOLTAGE: VCONN is removed from the ports that source it, with VCONN_UV recorded (R71). -/
def execVconnUndervoltage (n : Tile) (s : State) : Host.Outcome State Fault Refusal :=
  done (
    let s := s.setTile n { s.tile n with vconnOk := false }
    (tilePorts n).foldl State.vconnUv s)

/-- The device sources VCONN to the cable of port `p` (R46): by a VCONN_Swap as sink, or to a powered cable as source. -/
def State.vconnDue (s : State) (p : Port) : Bool :=
  (s.port p).vconnOwner && (decide (s.rP p Kp.attachState = Att.snk) ||
    (decide (s.rP p Kp.attachState = Att.src ∧ s.rP p Kp.vconnEn = 1) && (s.port p).powered))

/-- VCONN_RECOVERY (R473): VCONN is applied again to every attached port of which the device is VCONN source. -/
def execVconnRecovery (n : Tile) (s : State) : Host.Outcome State Fault Refusal :=
  done (
    let s := s.setTile n { s.tile n with vconnOk := true }
    (tilePorts n).foldl (fun s p => if s.vconnDue p then s.vconnOn p else s) s)

end Sys2Proof.Machine
end

