-- ==== Sys2Proof/Machine/Strobe.lean ====
section
/-! DEFINITION. How a written value enters the dictionary and how it is applied (R27, R367): the shadow, the apply strobe and the
apply points of each group, RESTORE_DEFAULTS. -/

namespace Sys2Proof.Machine

/-! Entering a value. -/

/-- A written value waits for its apply point (R367). -/
def State.pend (s : State) (k : Nat) (x : Int) : State := { s with odNew := SMap.put noPending s.odNew k (some x) }

/-- The words of a sequence or of an injected request read DEST 1 for a privileged channel (Table 6.3). -/
def entryWritten (c : Conv) (o : Nat) (x : Int) : Int :=
  if (o = Kv.injEntry ∨ (Kv.seqEntry ≤ o ∧ o < Kv.seqEntry + 32)) ∧ privileged c (eCh x.toNat) then withBit x 10 true else x

/-- The RW entries that wait for an apply point of their own: correction factors (R188), MGN_CODE and MGN_TARGET (R257), SHELF_TEMP
(R104). -/
def rwPends (a : Area) (o k : Nat) : Bool :=
  match a with
  | .conv => decide (Kv.calOffset ≤ o ∧ o < Kv.calOffset + 22)
  | .rail => decide (o = Kr.mgnCode ∨ o = Kr.mgnTarget)
  | .glob => decide (k = K.shelfTemp)
  | _ => false

/-- The RWS entries that act when written: the security area but for its caps (R421), and REFBUF_EN, REF_SEL and TQ_CAP. -/
def actsAtOnce (k : Nat) : Bool :=
  decide (0x3C00 ≤ k / 256 ∧ k / 256 ≤ 0x3FFF ∧ k / 256 ≠ K.cap / 256) ||
    decide ((K.refbufEn ≤ k ∧ k < K.refbufEn + 9) ∨ k = K.refSel ∨ (K.tqCap ≤ k ∧ k < K.tqCap + 18))

/-- Whether an entry is REF_SEL or one of REFBUF_EN. -/
def isRefKey (k : Nat) : Bool := decide ((K.refbufEn ≤ k ∧ k < K.refbufEn + 9) ∨ k = K.refSel)

/-- REFBUF_EN or REF_SEL takes a value (R192, R193): a buffer that is turned off is not settled, and a change of reference ends every
calibration. Nothing waits there any more. -/
def State.refApply (s : State) (k : Nat) (x : Int) : State :=
  let s := { s with odNew := SMap.put noPending s.odNew k none }
  if k = K.refSel ∧ s.rd K.refSel ≠ x then
    ({ s with convs := s.convs.map fun (h : ConvHw) => { h with calValid := false } }.wr k x).refreshUncAll
  else if x = 0 ∧ k ≠ K.refSel then ((s.wr k x).wr (K.refSettled + (k - K.refbufEn)) 0).refreshUncAll
  else s.wr k x

/-- What RESTORE_DEFAULTS left waiting in REF_SEL and REFBUF_EN while converters run is applied once they allow it (R192, R193, R372). -/
def State.refStrobe (s : State) : State :=
  (K.refSel :: (List.range 9).map (K.refbufEn + ·)).foldl (fun s k => match s.pendingVal k with
    | some x => if targetStatus s .glob 0 k k x = 0 then s.refApply k x else s
    | none => s) s

/-- A numeric value enters an entry that is no command. -/
def State.putEntry (s : State) (a : Area) (j o k : Nat) (r : Row) (x : Int) : State :=
  let x := match a with
    | .conv => entryWritten (Fin.ofNat 18 j) o x
    | _ => x
  let s := match a with
    | .slot => let n : Slot := Fin.ofNat 8 j; s.setSlot n { s.slot n with writing := true }
    | _ => if k = K.faultMask ∨ k = K.pwrgdKill then { s with scrim := { s.scrim with writing := true } }.wr K.maskState 1 else s
  let x := if k = K.faultMask then withBit x 0 true else x
  if r.acc = .rws then (if isRefKey k then s.refApply k x else if actsAtOnce k then s.wr k x else s.pend k x)
  else if rwPends a o k then s.pend k x
  else s.wr k x

/-- The octet strings that wait for their next use: MFR_STRING, AUTH_ROOT and CAL_IMAGE (R72, R191, R367). -/
def waitsForUse (k : Nat) : Bool :=
  match splitKey k with
  | (.port, _, o) => decide (o = Kp.mfrString ∨ (Kp.authRoot ≤ o ∧ o < Kp.authRoot + 4))
  | (.conv, _, o) => decide (o = Kv.calImage)
  | _ => false

/-- An octet string without what R7 keeps at 0: the reserved octets of CAL_IMAGE (Table 6.16). -/
def stringMasked (k : Nat) (l : List Nat) : List Nat :=
  match splitKey k with
  | (.conv, _, _) => l.take 56 ++ [0, 0, 0, 0] ++ l.drop 60
  | _ => l

/-- An octet string enters an entry: PEER_MASK and SHELF_KEY wait as the numbers that their octets spell (R104), those used by the ports
and the converters wait for their next use, the others act when written. -/
def State.putString (s : State) (k : Nat) (l : List Nat) : State :=
  if k = K.peerMask ∨ k = K.shelfKey then s.pend k (leValue l)
  else if waitsForUse k then s.pend k (textNum (stringMasked k l))
  else s.wrB k l

/-! The apply strobe (R367). -/

/-- A port whose role group applies: UNATTACHED, DISABLED or ERROR_RECOVERY (R72). -/
def roleApplies (s : State) (p : Port) : Bool :=
  decide (s.rP p Kp.attachState = Att.unattached ∨ s.rP p Kp.attachState = Att.disabled ∨ s.rP p Kp.attachState = Att.errorRecovery)

/-- Entries of a port that a strobe applies: the role group under its condition, RSHUNT and the VSET_ entries while the path is OFF
(R148); the objects wait for their messages and the ledger entries for a recomputation. Nothing passes a link in hold (R22, R32). -/
def portApplies (s : State) (p : Port) (o : Nat) : Bool :=
  let i := o / 256
  if s.held p then false
  else if o = Kp.mfrString ∨ (Kp.authRoot ≤ o ∧ o < Kp.authRoot + 4) then false
  else if Kp.role ≤ o ∧ o ≤ Kp.drpDuty then roleApplies s p
  else if i = 1 ∨ i = 2 ∨ i = 3 ∨ i = 0x30 then false
  else if Kp.rshunt ≤ o ∧ o ≤ Kp.vsetVfb then decide (s.rP p Kp.ppState = Pp.off)
  else true

/-- Single entries that a strobe does not apply. -/
def globWaits (s : State) (k : Nat) (v : Int) : Bool :=
  ledgerKeys.contains k || decide (k = K.peerMask ∨ k = K.shelfKey) || decide (k = K.faultMask ∨ k = K.pwrgdKill) ||
    decide (K.plausTol ≤ k ∧ k ≤ K.plausTimeout) || decide (K.recMask ≤ k ∧ k ≤ K.recPeriod) ||
    decide (K.histBase ≤ k ∧ k ≤ K.jrnlSize) || isRefKey k || canKeys.contains k || decide (k = K.ckptLate) || (decide (k = K.tbDisc) && decide (v ≠ 0)) ||
    !(s.pendingVal k).isSome

/-- Whether a strobe applies the written value of an entry. -/
def strobeApplies (s : State) (k : Nat) (v : Int) : Bool :=
  match splitKey k with
  | (.port, j, o) => portApplies s (Fin.ofNat 64 j) o
  | (.feed, j, _) => !s.feedRuns (Fin.ofNat 2 j)
  | (.cmp, j, o) =>
    !(decide (o = Kc.mode ∨ o = Kc.idleMode) && s.cmpInMode (Fin.ofNat 164 j)) &&
      !(decide (j < 128) && s.held (cmpPort (Fin.ofNat 164 j)))
  | (.rail, _, o) => decide (o = Kr.faultAction ∨ o = Kr.ovFast) || decide (o / 256 = 2)
  | (.tw, _, o) => !decide (o = Kw.twSpeed ∨ o = Kw.twRole)
  | (.glob, _, _) => !globWaits s k v
  | (.ct, _, _) | (.tbc, _, _) | (.tg, _, _) => true
  | (.slot, _, _) | (.conv, _, _) | (.met, _, _) | (.railMet, _, _) | (.skimBank, _, _) => false

/-- Thresholds of a port after its power-path group has changed. A threshold of WIN_V that waits for its move in a transition (R128), and
the lower one through a discharge (R131), takes the new value where it moves. -/
def State.rearm (s : State) (p : Port) : State :=
  let s := s.setWinI p
  let h := s.path p
  let s := if h.upperWaits then s else s.setOvp p h.target
  if (h.trans = .slew ∧ !h.falling) ∨ (h.dsch ∧ h.gate = .off) then s else s.setPgLow p h.target

/-- What follows from an applied entry. -/
def State.applied (s : State) (k : Nat) : State :=
  match splitKey k with
  | (.port, j, o) => if 0x10 ≤ o / 256 ∧ o / 256 ≤ 0x12 then s.rearm (Fin.ofNat 64 j) else s
  | (.feed, j, _) => let f : Feed := Fin.ofNat 2 j; (s.setFeedCodes f).refreshFeed f
  | (.cmp, j, o) => if o = Kc.idleMode ∧ !s.cmpInMode (Fin.ofNat 164 j) then s.setMode (Fin.ofNat 164 j) false else s
  | (.rail, j, o) => s.marginApplied (Fin.ofNat 32 j) o
  | (.glob, _, _) =>
    if k = K.pwrgdSel ∨ k = K.pwrgdStrict then s.refreshPwrgd
    else if k = K.tbDisc then (if s.rd K.tbDisc = 0 then s.undisciplined else s)
    else if k = K.wakeEn then s.iow 17 0xF008 (setBits (s.rd K.wakeEn) 0xC00)
    else if k = K.kwdPeriod then s.iow 17 0xF010 (s.rd K.kwdPeriod)
    else s
  | _ => s

/-- The caps apply: a cap on SHORT_TH or FEED_SHORT lowers its pair's, and every limit is clamped in the same strobe (R419). -/
def State.applyCaps (s : State) : State :=
  let s := s.pairCaps.clampLimits
  let s := allPorts.foldl State.rearm s
  (List.finRange 2).foldl (fun s f => s.setFeedCodes f) s

/-- Whether an entry of converter `c` waits for a boundary. -/
def convWaits (s : State) (c : Conv) : Bool :=
  ((convKeys c ++ factorKeys c).any fun k => (s.pendingVal k).isSome) && (s.conv c).atBoundary && decide ((s.conv c).cal ≠ .running)

/-- A port that takes up its new role with the group (R72): one in UNATTACHED, or in DISABLED because ROLE said so. -/
def rolePending (s : State) (p : Port) : Bool :=
  ((List.range 5).any fun i => (s.pendingVal (keyP p (Kp.role + i))).isSome) && !s.held p &&
    (decide (s.rP p Kp.attachState = Att.unattached) ||
      decide (s.rP p Kp.attachState = Att.disabled ∧ s.rP p Kp.role = 3))

/-- The apply strobe (R367): every group whose condition holds. -/
def State.applyStrobe (s : State) : State :=
  let ks := (s.odNew.filter fun x => x.2.any fun v => strobeApplies s x.1 v).map (·.1)
  let ports := allPorts.filter (rolePending s)
  let s := s.applyKeys ks
  let s := ports.foldl State.toUnattached s
  let s := ks.foldl State.applied s
  let s := if ks.any fun k => decide (K.cap ≤ k ∧ k < K.cap + 7) then s.applyCaps else s
  let s := allConvs.foldl (fun s c => if convWaits s c then s.boundary c else s) s
  let s := allRails.foldl (fun s n => if (railKeys n).any fun k => (s.pendingVal k).isSome then s.applyRail n else s) s
  ((s.twConfig 0).twConfig 1).canStrobe.refStrobe

/-- The group of 0x3200 to 0x3203 on a device without peers applies as soon as the write completes, with the recomputation of R84
(R104). -/
def State.ledgerWritten (s : State) : State :=
  if hasPeers s then s else s.applyLedgerConfig

/-! RESTORE_DEFAULTS (R372). -/

/-- A writable entry outside the security area. -/
def restorable (k : Nat) : Bool :=
  match findRow k with
  | some (_, _, _, r) => decide (r.acc = .rw ∨ r.acc = .rws) && !decide (0x3C00 ≤ k / 256 ∧ k / 256 ≤ 0x3FFF)
  | none => false

/-- The default of a numeric entry: of a correction factor what the CAL bank in force gives (R188, Table 6.15). -/
def restoreValue (s : State) (a : Area) (j o k : Nat) : Int :=
  if a = .conv ∧ rwPends .conv o k then (otpDefaults s (Fin.ofNat 18 j)).getD (o - Kv.calOffset) 0 else odDefault k

/-- An entry written with its default. What the state of the converters does not let change now waits until it does (R192, R193, R372):
DEDUCED (log entry 156). -/
def State.restoreKey (s : State) (k : Nat) : State :=
  match findRow k with
  | some (a, j, o, r) =>
    if a = .rail ∧ o = Kr.mgnMode then (if s.rd k = 0 then s else s.writeMargin (Fin.ofNat 32 j) 0)
    else if r.ty.isString then s.putString k (blobDefault k)
    else if targetStatus s a j o k (odDefault k) ≠ 0 then s.pend k (odDefault k)
    else s.putEntry a j o k r (restoreValue s a j o k)
  | none => s

/-- The factor entries of the converters whose factors are not those of the OTP. -/
def movedFactors (s : State) : List Nat :=
  (allConvs.filter fun c => decide ((s.conv c).calSrc ≠ 0) || (factorKeys c).any fun k => (s.pendingVal k).isSome).flatMap factorKeys

/-- Every RW and RWS entry outside the security area is written with its default, a limit with no more than its least bound (R419);
one that stands at its default with nothing pending keeps it, and every cursor returns to 0. -/
def State.restoreDefaults (s : State) : State :=
  let listed := ((s.od.map (·.1)) ++ (s.odNew.map (·.1)) ++ s.blob.map (·.1)).filter restorable
  let ks := (listed.filter fun k => match splitKey k with | (.conv, _, o) => !rwPends .conv o k | _ => true) ++ movedFactors s
  let answer := s.answer
  let s := ks.foldl State.restoreKey s
  { s with answer := answer, recorder := { s.recorder with cursors := Vector.replicate 22 0 } }.clampLimits.ledgerWritten

/-! ALERT_ACK (R380). -/

/-- The source bits that `m` names are cleared; ALERT_PORTS clears with the acknowledgement of bits 0 and 1. -/
def State.alertAck (s : State) (m : Nat) : State :=
  let s := s.wr K.alertSrc (clearBits (s.rd K.alertSrc) m)
  if m % 4 ≠ 0 ∧ s.rd K.alertSrc % 4 = 0 then s.wr K.alertPorts 0 else s

end Sys2Proof.Machine
end

