-- ==== Sys2Proof/Machine/DictOps.lean ====
section
/-! DEFINITION. What requests to the dictionary do: command entries, READ, WRITE, the broadcast, STORE, the sessions and the
frames that carry them ("Object Dictionary and Its Transports"). -/

namespace Sys2Proof.Machine

/-! Command entries: each acts once per write (R355) and leaves its status in `answer`. -/


/-- PORT_CMD (R73). A swap that is taken leaves its response held. -/
def portCommand (s : State) (p : Port) (x : Int) : State :=
  let t := stateOf s (
    if x = 1 then execPortCmdHardReset p s else if x = 2 then execPortCmdSoftReset p s
    else if x = 3 then execPortCmdReadvertise p s else if x = 4 then execPortCmdPrSwap p s
    else if x = 5 then execPortCmdDrSwap p s else if x = 6 then execPortCmdVconnSwap p s
    else if x = 7 then execPortCmdErrorRecovery p s else if x = 8 then execPortCmdClearCounters p s
    else if x = 9 then execPortCmdDisable p s else if x = 10 then execPortCmdEnable p s
    else execPortCmdAuthenticate p s)
  t.reply (if (t.port p).cmdHeld && !(s.port p).cmdHeld then 0 else (t.port p).cmdStatus)

/-- PP_CMD (R137, R138). -/
def pathCommand (s : State) (p : Port) (x : Int) : State :=
  let s := s.reply 0
  stateOf s (if x = 1 then execPpCmdClearLockout p s else if x = 2 then execPpCmdClearFaultSet p s
    else if x = 3 then execPpCmdForceOff p s else execPpCmdReleaseForceOff p s)

/-- FEED_CMD (R145). -/
def feedCommand (s : State) (f : Feed) (x : Int) : State :=
  let s := s.reply 0
  stateOf s (if x = 1 then execFeedCmdClear f s else if x = 2 then execFeedCmdOff f s else execFeedCmdOn f s)

/-- Whether the pump stands at its voltage when a burning command comes by the dictionary: free. -/
def pumpReady (s : State) : Bool := decide (Config.freeNat s.fresh % 2 = 1)

/-- OTP_CMD (R443). -/
def otpCommand (s : State) (x : Int) : State :=
  let v := pumpReady s
  let d := s.draw
  if x = 1 then stateOf s (execOtpCmdRead .dictionary s) else if x = 2 then stateOf s (execOtpCmdProgram .dictionary false v d)
  else if x = 3 then stateOf s (execOtpCmdRepair .dictionary v d) else if x = 4 then stateOf s (execOtpCmdFinalise .dictionary 0 v d)
  else stateOf s (execOtpCmdAdvance .dictionary 0 v d)

/-- SEC_CMD (R411, R412, R415, R416). -/
def secCommand (s : State) (x : Int) : State :=
  let v := pumpReady s
  let d := s.draw
  if x = 1 then stateOf s (execSecCmdAdvanceFloors v d) else if x = 2 then stateOf s (execSecCmdRotateImageKey v d)
  else if x = 3 then stateOf s (execSecCmdRevokeTokens v d) else stateOf s (execSecCmdDropToken s)

/-- LEDGER_CMD (Table 3.5). -/
def ledgerCommand (s : State) (x : Int) : State :=
  stateOf s (if x = 1 then execLedgerCmdRecompute s else if x = 2 then execLedgerCmdForgetPeer s
    else if x = 3 then execLedgerCmdClearFlags s else if x = 4 then execLedgerCmdAbortRestore s
    else execLedgerCmdResumeRestore s)

/-- SHED_CMD: apply slot n, or release it with 0x80 + n. -/
def shedCommand (s : State) (x : Int) : State :=
  let n : Slot := Fin.ofNat 8 x.toNat
  stateOf s (if x < 0x80 then execShedCmdApply n s else execShedCmdRelease n s)

/-- CV_CMD (Table 6.15). -/
def convCommand (s : State) (x : Int) : State :=
  stateOf s (if x = 1 then execCvCmdCal s else if x = 2 then execCvCmdStart s else if x = 3 then execCvCmdStop s
    else if x = 4 then execCvCmdSave s else if x = 5 then execCvCmdLoad s else execCvCmdClearCounters s)

/-- MET_CMD and SKIM_CMD. -/
def meterCommand (s : State) (x : Int) : State :=
  stateOf s (if x = 1 then execMetCmdClearAcc s else if x = 2 then execMetCmdClearFlags s
    else execMetCmdRecordNow s)

/-- SKIM_CMD. -/
def skimCommand (s : State) (x : Int) : State :=
  stateOf s (if x = 1 then execSkimCmdNow s else if x = 2 then execSkimCmdAt s else execSkimCmdCancel s)

/-- SEQ_CMD (R245). -/
def seqCommand (s : State) (x : Int) : State :=
  stateOf s (if x = 1 then execSeqCmdUp s else if x = 2 then execSeqCmdDown s else if x = 3 then execSeqCmdClearFault s
    else execSeqCmdRestart s)

/-- DEG_CMD (R461). -/
def degCommand (s : State) (x : Int) : State :=
  stateOf s (if x = 1 then execDegCmdClearSafe s else if x = 2 then execDegCmdReturnEngine s else execDegCmdResetTile s)

/-! The STORE (R369, R370). -/

/-- A stored entry. -/
def stored (k : Nat) : Bool := (findRow k).any fun x => x.2.2.2.stored

/-- The snapshot of a STORE: every stored value as written (R355). -/
def snapshot (s : State) : Bank :=
  let vals := s.odNew.foldl (fun m x => match x.2 with
    | some v => if stored x.1 && !waitsForUse x.1 && !(ledgerStrings.any fun y => decide (y.1 = x.1)) then odPut m x.1 v else m
    | none => m) (s.od.filter fun x => stored x.1)
  let blobs := s.odNew.foldl (fun b x => match x.2 with
    | some v => if waitsForUse x.1 then blobPut b x.1 (textOf v) else b
    | none => b) (s.blob.filter fun x => stored x.1)
  { vals := vals
    blobs := ledgerStrings.foldl (fun b x => match s.pendingVal x.1 with
      | some v => blobPut b x.1 (leOctets x.2 v.toNat)
      | none => b) blobs }

/-- The bank that a STORE writes: the one that NVM_STATE does not name; bank A where neither is valid. -/
def targetBank (s : State) : Nat := if s.rd K.nvmState = 0 then 1 else 0

/-- A STORE requested: BUSY while one runs or after power-fail, WEAR at the bank's rating. -/
def State.startStore (s : State) : State :=
  if s.rd K.storeState = 1 ∨ s.recorder.powerFail then s.reply 1
  else if 100000 ≤ s.rd (K.storeCountA + targetBank s) then (s.alert 13).reply 12
  else ({ s with nvm := { s.nvm with storing := some (snapshot s) } }.wr K.storeState 1).reply 0

/-- The final write: the bank written becomes the valid one and its count rises; a bank that does not verify leaves everything. -/
def State.endStore (s : State) (ok : Bool) : State :=
  match s.nvm.storing with
  | none => s
  | some b =>
    let t := targetBank s
    if ok then
      let nvm := if t = 0 then { s.nvm with bankA := some b, storing := none } else { s.nvm with bankB := some b, storing := none }
      ((({ s with nvm := nvm }.wr K.storeState 2).count (K.storeCountA + t)).wr K.nvmState t).alert 13
    else { s with nvm := { s.nvm with storing := none } }.wr K.storeState 3

/-- TW_CMD and TW_CTL_CMD. -/
def twCommand (s : State) (b : Bus) (ctl : Bool) (x : Int) : State :=
  stateOf s (if ctl then (if x = 1 then execTwCtlGo b s else execTwCtlAbort b s)
    else if x = 1 then execTwCmdClearFlags b s else execTwCmdClearCounters b s)

/-- The single command entries. -/
def globCommand (s : State) (k : Nat) (x : Int) (l : List Nat) : Option State :=
  if k = K.ledgerCmd then some (ledgerCommand s x)
  else if k = K.shedCmd then some (shedCommand s x)
  else if k = K.shelfKey then some ((s.putString k l).reply 0)
  else if k = K.cvCmd then some (convCommand s x)
  else if k = K.refRebase then some (stateOf s (execRefRebase s))
  else if k = K.metCmd then some (meterCommand s x)
  else if k = K.skimCmd then some (skimCommand s x)
  else if k = K.seqCmd then some (seqCommand s x)
  else if k = K.ffCmd then some (stateOf s (execFfCmdClear s))
  else if k = K.recCmd then some (stateOf s (execRecCmdFlush s))
  else if k = K.recClear then some (stateOf s (if x = 1 then execRecClearImage s else execRecClearWallErase s))
  else if k = K.engCmd then some (s.cmdFailEngine)
  else if k = K.tbStep then some (stateOf s (execTbStepWrite x.toNat s))
  else if k = K.alertAck then some ((s.alertAck x.toNat).reply 0)
  else if k = K.store then some s.startStore
  else if k = K.restoreDefaults then some (s.restoreDefaults.reply 0)
  else if k = K.reset then some (stateOf s (execResetRequest s))
  else if k = K.secCmd then some (secCommand s x)
  else if k = K.cntAdvance then some (stateOf s (execCntAdvance x.toNat (pumpReady s) s.draw))
  else if k = K.imgCmd then some (stateOf s (if x = 1 then execImgCmdErase s else execImgCmdVerify s))
  else if k = K.imgChunk then some (s.imgChunk (leValue (l.take 4)) (l.drop 4))
  else if k = K.otpCmd then some (otpCommand s x)
  else if k = K.lockAppSet then some (stateOf s (execLockAppSet (BitVec.ofInt 16 x) s))
  else if k = K.psCmd then some (stateOf s (if x = 1 then execPsCmdEnter s else execPsCmdExit s))
  else if k = K.degCmd then some (degCommand s x)
  else none

/-- A command entry written with `x`, or with the octets `l`; none where the entry is no command. -/
def command (s : State) (a : Area) (j o k : Nat) (x : Int) (l : List Nat) : Option State :=
  match a with
  | .port =>
    let p : Port := Fin.ofNat 64 j
    if o = Kp.portCmd then some (portCommand s p x) else if o = Kp.ppCmd then some (pathCommand s p x) else none
  | .feed => if o = Kf.feedCmd then some (feedCommand s (Fin.ofNat 2 j) x) else none
  | .cmp =>
    let c : Cmp := Fin.ofNat 164 j
    if o = Kc.cmpCmd then some (stateOf s (if x = 1 then execCmpCmdClearLatch c s else execCmpCmdSelfchk c s)) else none
  | .tg =>
    let g : Tg := Fin.ofNat 8 j
    if o = Kx.tgCmd then some (stateOf s (if x = 1 then execTgCmdStart g s else execTgCmdStop g s)) else none
  | .tw =>
    let b : Bus := Fin.ofNat 2 j
    if o = Kw.twCmd then some (twCommand s b false x) else if o = Kw.twCtlCmd then some (twCommand s b true x) else none
  | .rail => if o = Kr.mgnMode then some (s.writeMargin (Fin.ofNat 32 j) x.toNat) else none
  | .glob => globCommand s k x l
  | .slot | .conv | .met | .railMet | .skimBank | .ct | .tbc => none

/-- What holds the response to a command that has been taken (R63, R443). -/
def heldBy (s : State) (a : Area) (j o k : Nat) : Option HeldWhy :=
  if k = K.otpCmd then (if s.otp.job.isSome then some .otp else none)
  else match a with
    | .port =>
      let p : Port := Fin.ofNat 64 j
      if o = Kp.portCmd ∧ (s.port p).cmdHeld = true then some (.port p) else none
    | _ => none

/-! Writing (R365). -/

/-- An item of a WRITE: the key of its entry and its octets. -/
structure WItem where
  key : Nat
  val : List Nat
  deriving DecidableEq, Repr

/-- The values that a WRITE carries, later items first. -/
def willOf (s : State) (items : List WItem) : Will :=
  { vals := items.foldl (fun v i => match findRow i.key with
      | some (_, _, _, r) => if r.ty.isString then v else (i.key, r.masked (r.ty.number i.val)) :: v
      | none => v) []
    mask := items.foldl (fun m i => if i.key = K.peerMask then i.val else m)
      (match s.pendingVal K.peerMask with
        | some v => leOctets 16 v.toNat
        | none => s.rdB K.peerMask) }

/-- What the command of an item does on `t`; none where its entry is no command. -/
def itemCommand (t : State) (i : WItem) : Option State :=
  match findRow i.key with
  | none => none
  | some (a, j, o, r) => command (t.reply 0) a j o i.key (if r.ty.isString then 0 else r.masked (r.ty.number i.val)) i.val

/-- An item whose entry is no command enters its entry. -/
def enterItem (src : Requester) (t : State) (i : WItem) : State :=
  match findRow i.key with
  | none => t
  | some (a, j, o, r) =>
    if (itemCommand t i).isSome then t
    else if i.key = K.cursor then
      { t with recorder := { t.recorder with cursors := tset t.recorder.cursors src (r.masked (r.ty.number i.val)).toNat } }
    else if r.ty.isString then t.putString i.key i.val
    else t.putEntry a j o i.key r (r.masked (r.ty.number i.val))

/-- Step 7 for one item: the state of its target at the check, and, of a command, what it answers on `t`, which holds the values of the
WRITE (R365, R443). -/
def stepSeven (s t : State) (i : WItem) : Nat :=
  match findRow i.key with
  | none => 6
  | some (a, j, o, r) =>
    let st := targetStatus s a j o i.key (if r.ty.isString then 0 else r.masked (r.ty.number i.val))
    if st ≠ 0 then st else (itemCommand t i).elim 0 (·.answer)

/-- The command of an item acts; what holds its response is kept with the item's number. -/
def runItem (acc : State × List (Nat × HeldWhy)) (x : WItem × Nat) : State × List (Nat × HeldWhy) :=
  match itemCommand acc.1 x.1, findRow x.1.key with
  | some u, some (a, j, o, _) => (u, acc.2 ++ ((heldBy u a j o x.1.key).map fun y => (x.2, y)).toList)
  | _, _ => acc

/-- The first item that a check refuses, from number `n`, with its status. -/
def writeRefusal (s t : State) (w : Will) (q : Who) : List WItem → Nat → Option (Nat × Nat × WItem)
  | [], _ => none
  | i :: l, n =>
    let st := itemStatus s w q i.key i.val
    let st := if st ≠ 0 then st else stepSeven s t i
    if st ≠ 0 then some (st, n, i) else writeRefusal s t w q l (n + 1)

/-- What a refused command leaves by itself, the record of its refusal (R432), on `s`: the entries that it changes on `t`. Everything else
of a refused WRITE is not written. -/
def refusedTrace (s t : State) (w : Will) (q : Who) (i : WItem) : State :=
  if itemStatus s w q i.key i.val ≠ 0 then s
  else match itemCommand t i with
    | none => s
    | some u => ((u.od ++ t.od).map (·.1)).foldl (fun s k => if u.rd k = t.rd k then s else s.wr k (u.rd k)) s

/-! Answers. -/

/-- The answer to a request: status, plain body, MORE, and the items whose commands hold the response. -/
structure Ans where
  status : Nat
  body : List Nat
  more : Bool
  held : List (Nat × HeldWhy)
  deriving DecidableEq, Repr

/-- An answer without a body. -/
def Ans.of (st : Nat) : Ans := { status := st, body := [], more := false, held := [] }

/-- The body of a refused WRITE: the number of the first refused item, and 0 (Table 13.3). -/
def refusalBody (n : Nat) : List Nat := leOctets 2 n ++ [0, 0]

/-- A WRITE of more items than a body may hold, or of none, is refused with LENGTH at the first that is too many. -/
def tooMany (items : List WItem) : Option Ans :=
  if items.length = 0 then some { Ans.of 9 with body := refusalBody 0 }
  else if 64 < items.length then some { Ans.of 9 with body := refusalBody 64 }
  else none

/-- WRITE (R365): checked whole, then every value enters its entry and every command acts. -/
def State.write (s : State) (q : Who) (items : List WItem) : State × Ans :=
  match tooMany items with
  | some a => (s, a)
  | none =>
    let w := willOf s items
    let t := items.foldl (enterItem q.src) s
    match writeRefusal s t w q items 0 with
    | some (st, n, i) => (refusedTrace s t w q i, { Ans.of st with body := refusalBody n })
    | none =>
      let r := (items.zipIdx).foldl runItem (t, [])
      (r.1.ledgerWritten, { Ans.of 0 with held := r.2 })

/-- The copies of an item for all 64 ports (R366). -/
def copies (i : WItem) : List WItem := allPorts.map fun p => { i with key := i.key + 0x4000 * p.val }

/-- The index of an item lies in port 0's area. -/
def inPortZero (i : WItem) : Bool := decide (0x2000 ≤ i.key / 256 ∧ i.key / 256 ≤ 0x203F)

/-- The first item of a broadcast that a check refuses, from number `n`. -/
def broadcastRefusal (s : State) (w : Will) (q : Who) : List WItem → Nat → Option (Nat × Nat)
  | [], _ => none
  | i :: t, n =>
    if !inPortZero i then some (2, n)
    else match (copies i).find? fun c => decide (itemStatus s w q c.key c.val ≠ 0) with
      | some c => some (itemStatus s w q c.key c.val, n)
      | none => broadcastRefusal s w q t (n + 1)

/-- The copy of an item acts where the state of its port allows it. -/
def copyActs (src : Requester) (t : State) (i : WItem) : State :=
  match findRow i.key with
  | none => t
  | some (a, j, o, r) =>
    if targetStatus t a j o i.key (if r.ty.isString then 0 else r.masked (r.ty.number i.val)) ≠ 0 then t
    else (itemCommand t i).getD (enterItem src t i)

/-- A broadcast WRITE (R366): steps 1 to 6 for all 64 copies; then every port judges what is left when its copy acts. -/
def State.broadcast (s : State) (q : Who) (items : List WItem) : State × Ans :=
  match tooMany items with
  | some a => (s, a)
  | none =>
    let all := items.flatMap copies
    match broadcastRefusal s (willOf s all) q items 0 with
    | some (st, n) => (s, { Ans.of st with body := refusalBody n })
    | none => (all.foldl (copyActs q.src) s, Ans.of 0)

/-! Reading (R355, R362). -/

/-- What a read of an entry answers: the status that refuses it, or its type code, its octets and whether the value is pending. -/
structure ReadOut where
  status : Nat
  ty : Nat
  octets : List Nat
  deriving DecidableEq, Repr

/-- A refused read. -/
def ReadOut.no (st : Nat) : ReadOut := { status := st, ty := 0, octets := [] }

/-- The octets of a readable entry, with PENDING where the written value has not been applied (R367). -/
def readValue (s : State) (src : Requester) (k : Nat) (r : Row) : ReadOut :=
  if k = K.cursor then { status := 0, ty := r.ty.code, octets := leOctets 8 (tget s.recorder.cursors src) }
  else if k = K.window then
    match window s (tget s.recorder.cursors src) with
    | .inl st => ReadOut.no st
    | .inr l => { status := 0, ty := r.ty.code, octets := l }
  else if k = K.peerMask then
    match s.pendingVal k with
    | some v => { status := 13, ty := r.ty.code, octets := leOctets 16 v.toNat }
    | none => { status := 0, ty := r.ty.code, octets := s.rdB k }
  else if r.ty.isString then
    match s.pendingVal k with
    | some v => { status := 13, ty := r.ty.code, octets := textOf v }
    | none => { status := 0, ty := r.ty.code, octets := s.rdB k }
  else
    match s.pendingVal k with
    | some v => { status := 13, ty := r.ty.code, octets := r.ty.spell v }
    | none => { status := 0, ty := r.ty.code, octets := r.ty.spell (s.view k) }

/-- An index of the security area. -/
def inSecurity (k : Nat) : Bool := decide (0x3C00 ≤ k / 256 ∧ k / 256 ≤ 0x3FFF)

/-- A read of entry `k` (R353, R355, R356, R421): NO_ENTRY before ACCESS before PRIVILEGE; sub 0 reads the highest subindex. -/
def readEntry (s : State) (q : Who) (k : Nat) : ReadOut :=
  match findRow k with
  | none =>
    if k % 256 = 0 ∧ highSub (k / 256) ≠ 0 then
      (if q.engine.isSome ∧ inSecurity k then ReadOut.no 5 else { status := 0, ty := 2, octets := [highSub (k / 256)] })
    else ReadOut.no 6
  | some (_, _, _, r) =>
    if r.acc = .wo then ReadOut.no 7
    else if q.engine.isSome ∧ inSecurity k then ReadOut.no 5
    else if k = K.tokenChallenge ∧ q.level < 2 then ReadOut.no 5
    else readValue s q.src k r

/-- The read clears an RCL entry (R355). -/
def State.clearOnRead (s : State) (k : Nat) : State :=
  match findRow k with
  | some (_, _, _, r) => if r.acc = .rcl then s.wr k 0 else s
  | none => s

/-- Octets padded with zeros to a multiple of 4 (R362). -/
def pad4 (l : List Nat) : List Nat := l ++ List.replicate ((4 - l.length % 4) % 4) 0

/-- A read item of a READ response: a value longer than 255 octets is refused with LENGTH. -/
def itemOut (r : ReadOut) : List Nat :=
  if 255 < r.octets.length then [9, r.ty, 0, 0] else [r.status, r.ty] ++ leOctets 2 r.octets.length ++ pad4 r.octets

/-- The items of a READ in order. -/
def readAll (q : Who) : List Nat → State × List Nat → State × List Nat
  | [], acc => acc
  | k :: t, (s, out) =>
    let r := readEntry s q k
    let s := if (r.status = 0 ∨ r.status = 13) ∧ r.octets.length ≤ 255 then s.clearOnRead k else s
    readAll q t (s, out ++ itemOut r)

/-- READ. A response that no body can hold is refused with LENGTH. -/
def State.read (s : State) (q : Who) (secure : Bool) (ks : List Nat) : State × Ans :=
  if ks.length = 0 ∨ 64 < ks.length then (s, Ans.of 9)
  else
    let r := readAll q ks (s, [])
    if 2048 < r.2.length + (if secure then 20 else 0) then (s, Ans.of 9) else (r.1, { Ans.of 0 with body := r.2 })

/-- BULK_READ (R362): at most 2,000 octets; MORE where octets remain that were asked for; an RCL entry is cleared with its last
octet. -/
def State.bulkRead (s : State) (q : Who) (k off count : Nat) : State × Ans :=
  let r := readEntry s q k
  if r.status ≠ 0 ∧ r.status ≠ 13 then (s, Ans.of r.status)
  else if r.octets.length ≤ off then (s, Ans.of 2)
  else
    let n := min count 2000
    let out := (r.octets.drop off).take n
    let last := decide (r.octets.length ≤ off + n)
    (if last then s.clearOnRead k else s, { Ans.of 0 with body := out, more := !last && decide (n < count) })

/-- CURSOR: sets the requester's cursor and reads the window (R274). A refused request moves nothing. -/
def State.cursorRead (s : State) (q : Who) (c : Nat) : State × Ans :=
  match window s c with
  | .inl st => (s, Ans.of st)
  | .inr l =>
    ({ s with recorder := { s.recorder with cursors := tset s.recorder.cursors q.src c } }, { Ans.of 0 with body := leOctets 8 c ++ l })

/-- SKIM (R362): as a SKIM_CMD write at L1. -/
def State.skimRequest (s : State) (q : Who) (t : Option Nat) : State × Ans :=
  if q.engine.isSome ∨ q.level < 1 then (s, Ans.of 5)
  else
    let n := (s.rd K.skimSeq + 1) % 4294967296
    let s := match t with
      | none => s.skimNow
      | some t => s.skimAt t
    if s.answer = 0 then (s, { Ans.of 0 with body := leOctets 4 n.toNat }) else (s, Ans.of s.answer)

/-- STORE, at L2 (R369): the response waits for the end of the store. -/
def State.storeRequest (s : State) (q : Who) : State × Ans :=
  if q.level < 2 then (s, Ans.of 5)
  else
    let s := s.startStore
    if s.answer = 0 then (s, { Ans.of 0 with held := [(0, .store)] }) else (s, Ans.of s.answer)

end Sys2Proof.Machine
end

