-- ==== Sys2Proof/Machine/Dict.lean ====
section
/-! DEFINITION. Requests to the dictionary from the moment they arrive to the response: levels and sealed sessions, the order of
requests, frames over CAN FD and the two-wire mailboxes, and the commands of the object dictionary. -/

namespace Sys2Proof.Machine

/-! Requests. -/

/-- A request, its plain body read. -/
inductive Req where
  | read (ks : List Nat)
  | write (items : List WItem)
  | broadcast (items : List WItem)
  | store
  | bulk (k off count : Nat)
  | cursor (c : Nat)
  | skim (t : Option Nat)
  | sOpen (level : Nat) (pub nonce : List Nat)
  | sConfirm (plain : List Nat)
  | sClose
  | token (l : List Nat)
  /-- A WRITE whose item of number `n` does not fit its body. -/
  | overrun (n : Nat)
  /-- A request whose opcode is unknown or whose body is malformed: its opcode and the status that refuses it. -/
  | bad (op st : Nat)
  deriving DecidableEq, Repr

/-- The opcode of Table 13.3. -/
def Req.op : Req → Nat
  | .read _ => 1
  | .write _ => 2
  | .broadcast _ => 2
  | .store => 3
  | .bulk _ _ _ => 4
  | .cursor _ => 5
  | .skim _ => 6
  | .sOpen _ _ _ => 7
  | .sConfirm _ => 7
  | .sClose => 7
  | .token _ => 8
  | .overrun _ => 2
  | .bad op _ => op

/-- The keys of a READ body. -/
def readKeys : List Nat → Option (List Nat)
  | [] => some []
  | a :: b :: c :: _ :: t => (readKeys t).map fun l => (leValue [a, b] * 256 + c % 256) :: l
  | _ => none

/-- The items of a WRITE body (R362) from number `i`, with as much fuel as it has octets; or the number of the item that overruns it. -/
def writeItems : Nat → Nat → List Nat → Except Nat (List WItem)
  | _, _, [] => .ok []
  | n + 1, i, a :: b :: c :: len :: t =>
    let k := leValue [a, b] * 256 + c % 256
    let m := if len = 255 then leValue (t.take 2) else len
    let u := if len = 255 then t.drop 4 else t
    let whole := (m + 3) / 4 * 4
    if u.length < whole ∨ (len = 255 ∧ t.length < 4) then .error i
    else (writeItems n (i + 1) (u.drop whole)).map fun l => { key := k, val := u.take m } :: l
  | _, i, _ => .error i

/-- The request that a plain body makes. -/
def parseReq (flags op : Nat) (l : List Nat) : Req :=
  let f (o n : Nat) : Nat := leValue ((l.drop o).take n)
  if op = 1 then (readKeys l).elim (.bad 1 9) .read
  else if op = 2 then
    (match writeItems l.length 0 l with
      | .error i => .overrun i
      | .ok items => if flags.testBit 2 then .broadcast items else .write items)
  else if op = 3 then (if l.isEmpty then .store else .bad 3 9)
  else if op = 4 then (if l.length = 12 then .bulk (f 0 2 * 256 + f 2 1) (f 4 4) (f 8 2) else .bad 4 9)
  else if op = 5 then (if l.length = 8 then .cursor (f 0 8) else .bad 5 9)
  else if op = 6 then (if l.isEmpty then .skim none else if l.length = 8 then .skim (some (f 0 8)) else .bad 6 9)
  else if op = 7 then
    (if f 0 1 = 1 ∧ l.length = 140 then .sOpen (f 4 1) ((l.drop 8).take 97) (l.drop 108)
      else if f 0 1 = 2 then .sConfirm (l.drop 4)
      else if f 0 1 = 3 ∧ l.length = 4 then .sClose else .bad 7 9)
  else if op = 8 then (if l.length ≤ 512 then .token l else .bad 8 9)
  else .bad op 10

/-! Who may be heard. -/

/-- The host transport behind a requester. -/
def transportOf (r : Requester) : Option Transport := if 18 ≤ r.val then some (Fin.ofNat 4 (r.val - 18)) else none

/-- The plumb pair's code or the loader runs, and the transport is awake (Table 17.2) and enabled. -/
def listens (s : State) (r : Requester) : Bool :=
  let low := decide (s.power.phase = .low)
  if r.val < 17 then decide (s.sec.stat = 2 ∨ s.sec.stat = 7) && !low
  else if r.val = 17 then decide (s.sec.stat = 2 ∨ s.sec.stat = 7) && !s.asleep 3
  else if r.val < 20 then
    (if s.sec.stat = 3 then decide (r.val = 18)
      else decide (s.sec.stat = 2 ∨ s.sec.stat = 7) && !s.asleep 2 &&
        s.canOn (Fin.ofNat 2 (r.val - 18)))
  else
    let b : Bus := Fin.ofNat 2 (r.val - 20)
    s.twServes b &&
      (if s.sec.stat = 3 then decide (r.val = 20) else decide (s.sec.stat = 2 ∨ s.sec.stat = 7) && !s.asleep 3)

/-- What the loader serves (R409): READ of the identity and of the security area, SESSION, and the image-update entries. -/
def loaderServes : Req → Bool
  | .read ks => ks.all fun k => decide (k / 256 = 0x1000) || inSecurity k
  | .write items => items.all fun i => decide (i.key / 256 = 0x3C07)
  | .sOpen _ _ _ => true
  | .sConfirm _ => true
  | .sClose => true
  | .broadcast _ => false
  | .store => false
  | .bulk _ _ _ => false
  | .cursor _ => false
  | .skim _ => false
  | .token _ => false
  | .overrun _ => false
  | .bad _ _ => false

/-! Sessions (R356 to R360). -/

/-- A refusal with status SESSION is counted and raises ALERT bit 12. -/
def State.sessionFail (s : State) : State := (s.count K.sessionFails).alert 12

/-- A sealed frame refused under R358: after three in a row the session closes. -/
def State.refuseSealed (s : State) (t : Transport) : State :=
  let s := s.sessionFail
  let h := s.ses t
  if h.phase = .none then s
  else if 3 ≤ h.refusals + 1 then s.closeSession t
  else s.setSes t { h with refusals := h.refusals + 1 }

/-- A sealed frame accepted with counter `c`. -/
def State.acceptSealed (s : State) (t : Transport) (c : Nat) : State :=
  let h := s.ses t
  if h.phase = .none then s else s.setSes t { h with ctrIn := some c, refusals := 0 }

/-- The next counter after the last accepted one. -/
def SessHw.nextIn (h : SessHw) : Nat := h.ctrIn.elim 0 (· + 1)

/-- A key slot of the KEY region holds hash `h`. -/
def slotHolds (s : State) (base n : Nat) (h : List Nat) : Bool := (List.range n).any fun k => decide (s.keySlot base k = some h)

/-- The host's key is held for the level asked (R402); in OPEN any key is (R404). -/
def keyHeld (s : State) (level : Nat) (pub : List Nat) : Bool :=
  let h := hash48 pub
  decide (s.rd K.lifecycle = 1) || slotHolds s 0x130 4 h ||
    (decide (level = 1) && (slotHolds s 0x160 8 h ||
      (List.range 8).any fun k => decide (s.rdB (K.operatorKeys + k) = h ∧ h ≠ List.replicate 48 0)))

/-- SESSION OPEN (R357): an older session closes; without a device seed there is no identity to sign with. -/
def State.openSession (s : State) (t : Transport) (level : Nat) (pub nonce : List Nat) : State × Ans :=
  let s := s.closeSession t
  if pub.length ≠ 97 ∨ nonce.length ≠ 32 then (s, Ans.of 9)
  else
    match deviceSeed s with
    | none => (s.sessionFail, Ans.of 11)
    | some seed =>
      if level ≠ 1 ∧ level ≠ 2 then (s.sessionFail, Ans.of 11)
      else
        let sid := fitOctets 4 (Config.freeOctets s.fresh 4)
        let nd := fitOctets 32 (Config.freeOctets (s.fresh + 1) 32)
        let qd := fitOctets 97 (Config.ephemeralPub (s.fresh + 2))
        let z := fitOctets 48 (Config.ecdh (s.fresh + 2) pub)
        let text := pub ++ nonce ++ qd ++ nd ++ sid
        let key := fitOctets 32 (Config.sha384 (z ++ nonce ++ nd ++ sid ++ [0x53, 0x5A, 0x44, 0x46]))
        let s := s.draw.draw.draw.setSes t
          { phase := .opened, asked := level, sid := sid, key := key, transcript := text, ctrIn := none, ctrOut := 0, refusals := 0 }
        (s, { Ans.of 0 with body := sid ++ pad4 qd ++ nd ++ fitOctets 96 (Config.ecdsaSign (identityKey seed) text) })

/-- SESSION CONFIRM (R357): the key and the signature decide; on any failure K is discarded. -/
def State.confirmSession (s : State) (t : Transport) (plain : List Nat) : State × Ans :=
  let h := s.ses t
  let pub := plain.take 97
  if h.phase = .opened ∧ plain.length = 196 ∧ keyHeld s h.asked pub ∧ Config.ecdsaVerify pub h.transcript (plain.drop 100) then
    ((s.setSes t { h with phase := .confirmed }).wr (K.sessionLevel + t.val) h.asked, Ans.of 0)
  else ((s.closeSession t).sessionFail, Ans.of 11)

/-- TOKEN (R360, R415): within an L2 session only. -/
def State.tokenRequest (s : State) (q : Who) (t : Transport) (l : List Nat) : State × Ans :=
  if 2 ≤ q.level ∧ tokenOk s l then
    (s.acceptToken t l, { Ans.of 0 with body := leOctets 8 (leValue ((l.drop 20).take 8)) })
  else (s.sessionFail, Ans.of 11)

/-! Doing a request. -/

/-- What a request does, and its answer. SESSION and TOKEN belong to the host transports. -/
def State.perform (s : State) (q : Who) (secure : Bool) (r : Req) : State × Ans :=
  if s.sec.stat = 3 ∧ !loaderServes r then (s, Ans.of 10)
  else match r with
    | .read ks => s.read q secure ks
    | .write items => s.write q items
    | .broadcast items => s.broadcast q items
    | .store => s.storeRequest q
    | .bulk k off count => s.bulkRead q k off count
    | .cursor c => s.cursorRead q c
    | .skim t => s.skimRequest q t
    | .sOpen level pub nonce => (transportOf q.src).elim (s, Ans.of 10) fun t => s.openSession t level pub nonce
    | .sConfirm plain =>
      (transportOf q.src).elim (s, Ans.of 10) fun t => if secure then s.confirmSession t plain else ((s.closeSession t).sessionFail, Ans.of 11)
    | .sClose => (transportOf q.src).elim (s, Ans.of 10) fun t => (s.closeSession t, Ans.of 0)
    | .token l => (transportOf q.src).elim (s, Ans.of 10) fun t => s.tokenRequest q t l
    | .overrun n => (s, { Ans.of 9 with body := refusalBody n })
    | .bad _ st => (s, Ans.of st)

/-- The level of a request (R356), none where a sealed frame has no session that stands for it. -/
def levelOf (s : State) (src : Requester) (secure : Bool) (r : Req) : Option Nat :=
  match transportOf src with
  | none => some (if src.val = 17 then 3 else 2)
  | some t =>
    if secure then
      match (s.ses t).phase, r with
      | .confirmed, _ => some (s.rd (K.sessionLevel + t.val)).toNat
      | .opened, .sConfirm _ => some 0
      | _, _ => none
    else some 0

/-! Responses. -/

/-- The eight octets of a header (Table 13.2). -/
def header (flags len op st seq : Nat) : List Nat := [0x5A, flags] ++ leOctets 2 len ++ [op % 256, st % 256] ++ leOctets 2 seq

/-- A whole frame with its trailer (R361). -/
def frame (flags op st seq : Nat) (body : List Nat) : List Nat :=
  let l := header flags body.length op st seq ++ body
  l ++ crc32 l

/-- A response sealed under a session (R358). -/
def sealedFrame (h : SessHw) (flags op st seq : Nat) (body : List Nat) : List Nat :=
  let aad := header (flags + 2) (body.length + 20) op st seq ++ h.sid
  let nonce := [2, 0, 0, 0] ++ leOctets 8 h.ctrOut
  let e := Config.gcmSeal h.key nonce aad body
  frame (flags + 2) op st seq (h.sid ++ fitOctets body.length e.1 ++ fitOctets 16 e.2)

/-- The response to a request of `src`: sealed where the request was, under the session `h` it came under; a SESSION refusal that has ended
the session is not. -/
def State.respond (s : State) (src : Requester) (h : SessHw) (secure : Bool) (op seq : Nat) (a : Ans) : State × List Nat :=
  let flags := if a.more then 9 else 1
  match transportOf src with
  | none => (s, frame flags op a.status seq a.body)
  | some t =>
    if secure ∧ h.phase ≠ .none ∧ (a.status ≠ 11 ∨ (s.ses t).phase ≠ .none) then
      let c := s.ses t
      (if c.phase = .none then s else s.setSes t { c with ctrOut := c.ctrOut + 1 }, sealedFrame h flags op a.status seq a.body)
    else (s, frame flags op a.status seq a.body)

/-- Octets as words of the keeper mailbox. -/
def wordsOf : List Nat → List Nat
  | a :: b :: c :: d :: t => leValue [a, b, c, d] :: wordsOf t
  | [] => []
  | l => [leValue l]

/-- A response stands on the requester's transport: an engine reads it word by word, after
what it has not read yet; on CAN it goes out in segments. -/
def State.present (s : State) (src : Requester) (resp : List Nat) : State :=
  let s := s.setSrc src { s.src src with resp := resp }
  if h : src.val < 17 then
    let e : Eng := ⟨src.val, h⟩
    s.setMbox e { s.mbox e with rx := (s.mbox e).rx ++ wordsOf resp }
  else if src.val = 18 then s.canSend 0 resp
  else if src.val = 19 then s.canSend 1 resp
  else s

/-- A request completes with its response (R364). -/
def State.complete (s : State) (src : Requester) (seq : Nat) (resp : List Nat) : State :=
  let s := s.setSrc src { s.src src with lastSeq := some seq, lastResp := resp, held := none }
  s.present src resp

/-- The status with which what held a response has ended, none while it goes on. -/
def heldEnd (s : State) (w : HeldWhy) : Option Nat :=
  match w with
  | .store => if s.rd K.storeState = 1 then none else if s.rd K.storeState = 3 then some 1 else some 0
  | .otp => if s.otp.job.isSome then none else some 0
  | .port p => if (s.port p).cmdHeld then none else some (s.port p).cmdStatus

/-- A held response is sent once everything that held it has ended; a refusal names its item. -/
def State.collect (s : State) (src : Requester) : State :=
  match (s.src src).held with
  | none => s
  | some h =>
    if h.why.any fun x => (heldEnd s x.2).isNone then s
    else
      let a := match h.why.find? fun x => decide (heldEnd s x.2 ≠ some 0) with
        | some x => if h.opcode = 2 then { Ans.of ((heldEnd s x.2).getD 0) with body := refusalBody x.1 } else Ans.of ((heldEnd s x.2).getD 0)
        | none => Ans.of 0
      let ses := match transportOf src with
        | some t => s.ses t
        | none => SessHw.reset
      let r := s.respond src ses h.secure h.opcode h.seq a
      r.1.complete src h.seq r.2

/-- Every requester. -/
def allRequesters : List Requester := List.finRange 22

/-- Every response that may go out does. -/
def State.collectAll (s : State) : State := allRequesters.foldl State.collect s

/-- A complete request of `src` (R364): refused where its seal stands for nothing, BUSY while an earlier one is in progress, answered
from the stored response where it repeats the last one, otherwise done. -/
def State.serve (s : State) (src : Requester) (seq : Nat) (secure : Bool) (r : Req) : State :=
  if !listens s src then s
  else
    let s := s.collectAll
    let ses := match transportOf src with
      | some t => s.ses t
      | none => SessHw.reset
    match levelOf s src secure r with
    | none =>
      let s := match transportOf src with
        | some t => s.refuseSealed t
        | none => s
      (s.present src (frame 1 r.op 11 seq [])).reply 11
    | some level =>
      if (s.src src).held.isSome then
        let a := s.respond src ses secure r.op seq (Ans.of 1)
        (a.1.present src a.2).reply 1
      else if (s.src src).lastSeq = some seq then s.present src (s.src src).lastResp
      else
        let d := s.perform { src := src, level := level } secure r
        if d.2.held.isEmpty then
          let sealNow := secure && !(match r with | .sOpen _ _ _ => true | _ => false)
          let a := d.1.respond src ses sealNow r.op seq d.2
          (a.1.complete src seq a.2).reply d.2.status
        else
          (d.1.setSrc src { d.1.src src with resp := [], held := some { seq := seq, opcode := r.op, secure := secure, why := d.2.held } }).reply 0

/-! Frames in. -/

/-- A frame discarded (R361): counted for its transport. -/
def State.dfError (s : State) (src : Requester) : State :=
  match transportOf src with
  | some t => s.count (K.dfErr + t.val)
  | none => s

/-- The plain body of a sealed frame and the counter it was sealed with: the counters after the last accepted one are tried. -/
def openSealed (h : SessHw) (head body : List Nat) : Option (Nat × List Nat) :=
  if body.length < 20 ∨ h.phase = .none ∨ body.take 4 ≠ h.sid then none
  else
    let ct := (body.drop 4).take (body.length - 20)
    let tag := body.drop (body.length - 16)
    (List.range (Config.counterTries + 1)).findSome? fun i =>
      let c := h.nextIn + i
      (Config.gcmOpen h.key ([1, 0, 0, 0] ++ leOctets 8 c) (head ++ h.sid) ct tag).map fun l => (c, l)

/-- A whole frame of octets arrives (R361, R358). -/
def State.receive (s : State) (src : Requester) (l : List Nat) : State :=
  let n := leValue ((l.drop 2).take 2)
  let flags := leValue ((l.drop 1).take 1)
  let op := leValue ((l.drop 4).take 1)
  let seq := leValue ((l.drop 6).take 2)
  let body := (l.drop 8).take n
  if l.length ≠ n + 12 ∨ l.take 1 ≠ [0x5A] ∨ 2048 < n ∨ crc32 (l.take (8 + n)) ≠ l.drop (8 + n) then s.dfError src
  else if flags.testBit 1 then
    match transportOf src with
    | none => (s.present src (frame 1 op 11 seq [])).reply 11
    | some t =>
      match openSealed (s.ses t) (l.take 8) body with
      | none => ((s.refuseSealed t).present src (frame 1 op 11 seq [])).reply 11
      | some (c, plain) => (s.acceptSealed t c).serve src seq true (parseReq flags op plain)
  else s.serve src seq false (parseReq flags op body)

/-- A request that reaches the plumb pair as a command: a sealed one has passed its checks with the next counter. -/
def State.request (s : State) (r : ReqHead) (q : Req) : State :=
  let s := match transportOf r.src with
    | some t => if r.secure ∧ listens s r.src then s.acceptSealed t (s.ses t).nextIn else s
    | none => s
  s.serve r.src r.seq.toNat (r.secure && (transportOf r.src).isSome) q

/-- The key of an item. -/
def odKey (i : OdItem) : Nat := i.idx.toNat * 256 + i.sub.toNat

/-- An item of a WRITE. -/
def odItem (i : OdItem) : WItem := { key := odKey i, val := i.val.map (·.toNat) }

end Sys2Proof.Machine
end

