-- ==== Sys2Proof/Machine/IoOps.lean ====
section
/-! DEFINITION. The IO-space of the cores (R282, R283, R308): what a read of a register answers and what a write of it does, register
by register: Tables 3.1, 4.6, 5.5, 6.12, 10.9, 12.1, 16.8 and 17.10. -/

namespace Sys2Proof.Machine

/-- Why an IO access ends in an exception (R282, R283): no register there, or a block that does not complete. -/
inductive IoFault where
  | space | ioto
  deriving DecidableEq, Repr

/-! Reads that show other state. -/

/-- LQ_SLOTS: slots in force, and slots armed. -/
def lqSlots (s : State) : Nat :=
  bitsOf (allSlots.map fun n => (s.slot n).inForce) + 256 * bitsOf (allSlots.map fun n => (s.slot n).armed.isSome)

/-- MB_STAT: free words of the request queue, words of the response queue, TX_OVF, RX_FRAME. The response queue holds 16 words; those of
a longer response wait behind it at the plumb pair (R32). -/
def mbStat (s : State) (e : Eng) : Nat :=
  let m := s.mbox e
  (16 - m.fifo.length) + 32 * min 16 m.rx.length + (if bit (s.ior e.val 0x5008) 10 then 1024 else 0) +
    (if (m.rx.drop m.rxPart).isEmpty then 0 else 2048)

/-- Line 10: an element that the core owns has an event that it enables. -/
def counterLine (s : State) (c : CoreId) : Bool :=
  ((List.finRange 32).any fun k =>
    let h := s.ct k
    s.owns c (s.rT k Kt.ctOwner) && decide (bitsOf [h.capf, h.ovrn, h.evA, h.evB, h.wrap] &&& h.ien ≠ 0)) ||
  ((List.finRange 32).any fun m => s.owns c (s.rU m Ku.tbcOwner) && (s.tbc m).ie && (s.tbc m).fired) ||
  (List.finRange 8).any fun g => s.owns c (s.rX g Kx.tgOwner) && (s.tg g).ie && (s.tg g).evt

/-- An event register with an enabled bit. -/
def eventLine (s : State) (b ev en : Nat) : Bool := decide ((s.ior b ev).toNat &&& (s.ior b en).toNat ≠ 0)

/-- The lines of engine `e` that its sources assert (Table 10.8). Lines 0 to 3 assert while the tile holds a received message. Lines 0 to
10 of an adopted engine are PE16's too (R302). -/
def linesOf (s : State) (e : Eng) : List Bool :=
  let b := s.enginePorts e
  let port (q : Nat) : Bool := b.any fun b => !(s.port (blockPort b q)).held.isEmpty
  let ev (r en : Nat) : Bool := b.any fun b => eventLine s b r en
  let mine : List Nat := e.val :: (if e = pe16 ∧ s.rd K.adoptEng < 16 then [(s.rd K.adoptEng).toNat] else [])
  [port 0, port 1, port 2, port 3, ev 0x1400 0x1404, ev 0x2010 0x2014, ev 0x4020 0x4024, ev 0x6014 0x6018,
    mine.any fun k => !(s.mbox (Fin.ofNat 17 k)).rx.isEmpty, mine.any fun k => decide ((s.ior k 0xF020).toNat % 256 ≠ 0), counterLine s (coreOf e),
    decide (e = pe16) && s.float.pending, (s.mbox e).kcmd.isSome, bit (s.ior e.val 0xF034) 2, bit (s.ior e.val 0xF010) 0]

/-- INT_PEND. -/
def intPend (s : State) (e : Eng) : Nat := bitsOf (linesOf s e)

/-! Reads. -/

/-- A plain register. -/
def State.plain (s : State) (b off : Nat) : Nat × State := (word32 (s.ior b off), s)

/-- A register whose layout the manual does not give: a free value. -/
def State.unknownReg (s : State) : Nat × State := (Config.freeNat s.fresh % 4294967296, s.draw)

/-- Table 4.6, for engine block `b`: the port shadow, and PP_FLT, which a read clears. PP_FLT and the dictionary's PP_FAULT are two
copies, each cleared by its own read: DESIGN CHOICE (log entry 148). -/
def State.readPath (s : State) (b a : Nat) : Nat × State :=
  match shadowWord s b a with
  | some v => (v, s)
  | none => if a < 0x1400 ∧ a % 0x100 = 0x10 then (word32 (s.ior b a), s.iow b a 0) else s.plain b a

/-- Table 5.5. -/
def State.readMirror (s : State) (b a : Nat) : Nat × State :=
  match shadowWord s b a with
  | some v => (v, s)
  | none => s.plain b a

/-- Table 12.1, through the window of core `c`. -/
def State.readWindow (s : State) (c : CoreId) (a : Nat) : Nat × State :=
  if a = 0x3000 then (s.tb % 4294967296, s.latchHi (Fin.ofNat 22 c.val))
  else if a = 0x3004 then (tget s.time.hi (Fin.ofNat 22 c.val) % 4294967296, s)
  else if a = 0x3008 then ((if tget s.time.denied c then 1 else 0), s)
  else if 0x3400 ≤ a ∧ a < 0x3800 then
    let k : Ctr := Fin.ofNat 32 ((a - 0x3400) / 0x20)
    let h := s.ct k
    let o := a % 0x20
    if o = 0 then (h.val, s.latchChain c k)
    else if o = 4 then (memGet s.time.snap (c.val * 32 + k.val), s)
    else if o = 8 then (h.cmpA, s)
    else if o = 0xC then (h.cmpB, s)
    else if o = 0x10 then (h.cap, s.readCap c k)
    else if o = 0x14 then (bitsOf [h.capf, h.ovrn, h.evA, h.evB, h.wrap], s)
    else if o = 0x18 then (h.ien, s)
    else (0, s)
  else if 0x3800 ≤ a ∧ a < 0x3A00 then
    let t := s.tbc (Fin.ofNat 32 ((a - 0x3800) / 0x10))
    let o := a % 0x10
    if o = 0 then (t.value % 4294967296, s)
    else if o = 4 then (t.value / 4294967296 % 4294967296, s)
    else if o = 8 then (bitsOf [t.arm, t.periodic, t.fired, t.late, t.ie], s)
    else (t.step, s)
  else if 0x3A00 ≤ a ∧ a < 0x3A80 then
    let t := s.tg (Fin.ofNat 8 ((a - 0x3A00) / 0x10))
    let o := a % 0x10
    if o = 0 then (t.period, s)
    else if o = 4 then (bitsOf [t.imm, t.skip, t.evt, t.ie, t.run, t.late], s)
    else if o = 8 then (t.count, s)
    else (t.active, s)
  else (0, s)

/-- Table 3.1, for engine block `b`; LQ_ALLOT0–3 hold their reset value until the start releases the engines (R13). -/
def State.readLedger (s : State) (b a : Nat) : Nat × State :=
  if a = 0x4000 then (0, s)
  else if a = 0x4008 then (word32 (s.ior b a), s.iow b a (fieldOf (s.ior b a) 0 2 : Nat))
  else if 0x4010 ≤ a ∧ a < 0x4020 then
    ((if s.sec.stat = 7 then place (effAllot s (blockPort b ((a - 0x4010) / 4))) 0 16 else 0), s)
  else if a = 0x4028 then (lqSlots s, s)
  else s.plain b a

/-- The words of a response DF, by its first word: octets 2 and 3 hold the length of its body. -/
def dfWords (w : Nat) : Nat := (w / 65536 % 65536 + 15) / 4

/-- The next word of a response is taken (R309, Table 10.9). -/
def State.mbRead (s : State) (e : Eng) : Nat × State :=
  let s := s.collectAll
  let m := s.mbox e
  match m.rx with
  | [] => (0, s)
  | w :: rest => (w, s.setMbox e { m with rx := rest, rxPart := (if m.rxPart = 0 then dfWords w else m.rxPart) - 1 })

/-- The mailbox of engine `e`. -/
def State.readMailbox (s : State) (e : Eng) (a : Nat) : Nat × State :=
  if a = 0x5004 then s.mbRead e
  else if a = 0x5008 then (mbStat s e, s)
  else if a = 0x500C then ((s.mbox e).kcmd.getD 0, s.kcmdRead e)
  else (0, s)

/-- Table 6.12, for converter `c`. -/
def State.readQueue (s : State) (c : Conv) (o : Nat) : Nat × State :=
  if o = 0 then s.tqPop c
  else if o = 0x10 then ((s.conv c).queue.length, s)
  else if 0x100 ≤ o ∧ o < 0x180 then (word32 (s.rV c (Kv.result + (o - 0x100) / 4)), s)
  else (word32 (s.tqReg c o), s)

/-- Table 10.9, engine control. -/
def State.readControl (s : State) (e : Eng) (a : Nat) : Nat × State :=
  if a = 0xF000 then (e.val, s)
  else if a = 0xF008 then (intPend s e, s)
  else if a = 0xF004 ∨ a = 0xF018 ∨ a = 0xF024 then (0, s)
  else if a = 0xF038 then (word32 (s.ior e.val a), s.iow e.val a 0)
  else s.plain e.val a

/-- Table 16.8. -/
def State.readOtp (s : State) (a : Nat) : Nat × State :=
  if a = 0xB000 then (0, s)
  else if a = 0xB004 then (word32 (s.rd K.otpAddr), s)
  else if a = 0xB008 then (word32 (s.rd K.otpData), s)
  else if a = 0xB00C then (word32 (s.rd K.otpStat), s)
  else if a = 0xB010 then (word32 (s.rd K.lockApp), s)
  else if a = 0xB014 then s.plain 17 a
  else s.unknownReg

/-- Table 17.10. -/
def State.readKeeper (s : State) (a : Nat) : Nat × State :=
  if a = 0xF000 then (word32 (s.ior 17 a) % 8 + (if s.power.phase = .entering then 8 else 0), s)
  else if a = 0xF004 then
    ((match s.power.phase with | .run => 0 | .entering => 0 | .low => s.power.target | .exiting => s.power.target) +
      (if s.power.phase = .entering ∨ s.power.phase = .exiting then 8 else 0) + place (s.rd K.psRefuse) 4 4, s)
  else if a = 0xF014 then (0, s)
  else if a = 0xF020 then (bitsOf ((List.finRange 8).map fun n => (s.tile n).trst), s)
  else s.plain 17 a

/-- The fault that an access of core `c` at address `a` raises, where it raises one (R282, R283, R297, R308). -/
def ioFault (s : State) (c : CoreId) (a : Nat) : Option IoFault :=
  if c.val = 17 then
    if (0x3000 ≤ a ∧ a < 0x4000) ∨ (0x5000 ≤ a ∧ a < 0x5110) ∨ (0x6000 ≤ a ∧ a < 0x6180) ∨ (0x7000 ≤ a ∧ a < 0x7180) ∨
        (0x8000 ≤ a ∧ a < 0x9000) ∨ (0xA000 ≤ a ∧ a < 0xC000) ∨ (0xF000 ≤ a ∧ a < 0xF024) then none
    else some .space
  else if a < 0x2020 ∨ (0x4000 ≤ a ∧ a < 0x4030) ∨ (0x6000 ≤ a ∧ a < 0x6180) then
    (if (s.enginePorts (Fin.ofNat 17 c.val)).isNone then some .ioto else none)
  else if (0x3000 ≤ a ∧ a < 0x4000) ∨ (0x5000 ≤ a ∧ a < 0x5010) ∨ (0xF000 ≤ a ∧ a < 0xF040) then none
  else if 0xF040 ≤ a ∧ a < 0xF060 then (if c.val = 16 ∨ 0xF058 ≤ a then none else some .space)
  else some .space

/-- What a read of core `c` at address `a` answers, and what it changes. -/
def State.ioRead (s : State) (c : CoreId) (a : Nat) : Nat × State :=
  if c.val = 17 then
    if a < 0x4000 then s.readWindow c a
    else if a < 0x6000 then s.unknownReg
    else if a < 0x7000 then s.readQueue 16 (a - 0x6000)
    else if a < 0x8000 then s.readQueue 17 (a - 0x7000)
    else if a < 0xB000 then s.unknownReg
    else if a < 0xC000 then s.readOtp a
    else s.readKeeper a
  else
    let e : Eng := Fin.ofNat 17 c.val
    let b := (s.enginePorts e).getD 0
    if a < 0x1000 then s.unknownReg
    else if a < 0x2000 then s.readPath b a
    else if a < 0x3000 then s.readMirror b a
    else if a < 0x4000 then s.readWindow c a
    else if a < 0x5000 then s.readLedger b a
    else if a < 0x6000 then s.readMailbox e a
    else if a < 0xF000 then s.readQueue (Fin.ofNat 18 b) (a - 0x6000)
    else s.readControl e a

/-! Writes. -/

/-- Table 12.1, through the window of core `c`: a write to an element that it does not own is ignored and sets WR_DENIED (R349). -/
def State.writeWindow (s : State) (c : CoreId) (a v : Nat) : State :=
  if a = 0x3008 then
    (if v.testBit 0 then { s with time := { s.time with denied := tset s.time.denied c false } } else s)
  else if 0x3400 ≤ a ∧ a < 0x3800 then
    let k : Ctr := Fin.ofNat 32 ((a - 0x3400) / 0x20)
    let h := s.ct k
    let o := a % 0x20
    if !s.owns c (s.rT k Kt.ctOwner) then s.denyWrite c
    else if o = 8 then s.setCt k { h with cmpA := v % 65536 }
    else if o = 0xC then s.setCt k { h with cmpB := v % 65536 }
    else if o = 0x14 then
      s.setCt k { h with ovrn := h.ovrn && !v.testBit 1, evA := h.evA && !v.testBit 2, evB := h.evB && !v.testBit 3,
                         wrap := h.wrap && !v.testBit 4 }
    else if o = 0x18 then s.setCt k { h with ien := v % 32 }
    else s
  else if 0x3800 ≤ a ∧ a < 0x3A00 then
    let m : Tbc := Fin.ofNat 32 ((a - 0x3800) / 0x10)
    let t := s.tbc m
    let o := a % 0x10
    if o = 4 then stateOf s (execTbcHiWrite c m (BitVec.ofNat 32 v) s)
    else if !s.owns c (s.rU m Ku.tbcOwner) then s.denyWrite c
    else if o = 0 then s.setTbc m { t with value := t.value / 4294967296 * 4294967296 + v % 4294967296 }
    else if o = 8 then
      let arm := v.testBit 0
      s.setTbc m { t with arm := arm, periodic := v.testBit 1, fired := t.fired && !v.testBit 2,
                          late := (t.late && !v.testBit 3) || (arm && !t.arm && decide (t.value ≤ s.tb)), ie := v.testBit 4 }
    else s.setTbc m { t with step := v % 4294967296 }
  else if 0x3A00 ≤ a ∧ a < 0x3A80 then
    let g : Tg := Fin.ofNat 8 ((a - 0x3A00) / 0x10)
    let t := s.tg g
    let o := a % 0x10
    if o = 0 then s.writePeriod c g v
    else if !s.owns c (s.rX g Kx.tgOwner) then s.denyWrite c
    else if o = 4 then
      s.setTg g { t with imm := v.testBit 0, skip := t.skip && !v.testBit 1, evt := t.evt && !v.testBit 2, ie := v.testBit 3,
                         late := t.late && !v.testBit 5 }
    else s
  else s

/-- Table 3.1. -/
def State.writeLedger (s : State) (b a v : Nat) : State :=
  if a = 0x4000 then
    let p := blockPort b (v % 4)
    let w := (s.ior b 0x4004).toNat
    let op := v / 4 % 4
    stateOf s (if op = 0 then execLqAdmit p w s else if op = 1 then execLqReserve p w s
      else if op = 2 then execLqRelease p s else execLqLower p w s)
  else if a = 0x4004 then s.rwMask b a v 0xFFFF
  else if a = 0x4020 then s.w1c b a v 0x1FFF
  else if a = 0x4024 then s.rwMask b a v 0x1FFF
  else s

/-- Words as octets. -/
def octetsOf (l : List Nat) : List Nat := l.flatMap (leOctets 4)

/-- A word written to MB_TX (Table 10.9): dropped with TX_OVF where the queue is full; the plumb pair, while it serves requests, takes
the words and does a request once it is whole. -/
def State.mbWrite (s : State) (e : Eng) (v : Nat) : State :=
  let m := s.mbox e
  if 16 ≤ m.fifo.length then s.ioFlag e.val 0x5008 10 true
  else
    let src : Requester := Fin.ofNat 22 e.val
    if !listens s src then s.setMbox e { m with fifo := m.fifo ++ [v % 4294967296] }
    else
      let l := m.tx ++ m.fifo ++ [v % 4294967296]
      let o := octetsOf l
      let n := leValue ((o.drop 2).take 2)
      if 4 ≤ o.length ∧ (n + 12 ≤ o.length ∨ 2048 < n) then
        (s.setMbox e { m with fifo := [], tx := [] }).receive src (o.take (n + 12))
      else s.setMbox e { m with fifo := [], tx := l }

/-- MB_STAT ABORT: the request in progress is discarded. -/
def State.mbAbort (s : State) (e : Eng) : State :=
  let src : Requester := Fin.ofNat 22 e.val
  let s := s.setMbox e { s.mbox e with fifo := [], tx := [] }
  s.setSrc src { s.src src with held := none }

/-- The mailbox of engine `e`. -/
def State.writeMailbox (s : State) (e : Eng) (a v : Nat) : State :=
  if a = 0x5000 then s.mbWrite e v
  else if a = 0x5008 then
    let s := if v.testBit 10 then s.ioFlag e.val 0x5008 10 false else s
    if v.testBit 12 then s.mbAbort e else s
  else s

/-- Table 6.12, for converter `c`: GO of INJ_REQ sends the request; the conversions left before a pass that has been triggered are
not the writer's, so their number is free. -/
def State.writeQueue (s : State) (c : Conv) (o v : Nat) : State :=
  if o = 0x14 then s.setTqReg c o (clearBits (s.tqReg c o) (v &&& 3))
  else if o = 0x18 then s.setTqReg c o (v % 4 : Nat)
  else if o = 0x1C then s.setTqReg c o (v % 1024 : Nat)
  else if o = 0x40 then
    let s := s.setTqReg c o (v % 2048 : Nat)
    if v.testBit 31 then s.draw.inject c (v % 2048) (Config.freeNat s.fresh) else s
  else if o = 0x48 then s.setTqReg c o (clearBits (s.tqReg c o) (v &&& 6))
  else s

/-- Table 10.9, engine control. -/
def State.writeControl (s : State) (e : Eng) (a v : Nat) : State :=
  let b := e.val
  if a = 0xF004 then (if v.testBit 0 then s.failEngine e 5 else s)
  else if a = 0xF00C then s.iow b a (v % 65536 : Nat)
  else if a = 0xF010 then s.iow b a (v % 2 : Nat)
  else if a = 0xF014 then
    (if bit (s.ior b 0xF01C) 0 ∨ v % 65536 < 10 then s else s.iow b a (v % 65536 : Nat))
  else if a = 0xF018 then s.wdKick e v
  else if a = 0xF020 then s.w1c b a v 0xFF
  else if a = 0xF024 then s.ckCommit e (v % 2)
  else if a = 0xF028 then s.w1c b a v 4
  else if a = 0xF034 then
    let s := s.w1c b a v 4
    if v.testBit 0 then s.arrive e else s
  else if a = 0xF040 then (if v.testBit 6 then s.adoptDone else s)
  else s

/-- Table 16.8: the command takes RAW and ARG from its own word. -/
def State.writeOtp (s : State) (a v : Nat) : State :=
  if a = 0xB000 then
    let c := v % 16
    let p := pumpReady s
    let d := s.draw
    let arg := v / 256 % 32
    if c = 1 then s.otpRead
    else if c = 2 then d.otpProgram .keeper (v.testBit 4) p
    else if c = 3 then d.otpRepair .keeper p
    else if c = 4 then d.otpFinalise .keeper arg p
    else if c = 5 then d.otpAdvance arg p
    else s
  else if a = 0xB004 then s.wr K.otpAddr (v % 4096 : Nat)
  else if a = 0xB008 then s.wr K.otpData (v % 4294967296 : Nat)
  else if a = 0xB010 then s.wr K.lockApp (setBits (s.rd K.lockApp) (v % 65536))
  else if a = 0xB014 then s.w1c 17 a v 3
  else s

/-- Table 17.10. -/
def State.writeKeeper (s : State) (a v : Nat) : State :=
  if a = 0xF000 then
    let s := s.iow 17 a (v % 8 : Nat)
    if v.testBit 3 then s.psEnter (v % 8) else s
  else if a = 0xF008 then s.iow 17 a (setBits ((v % 4096 : Nat) : Int) 0xC00)
  else if a = 0xF00C then s.w1c 17 a v 0xFFF
  else if a = 0xF010 then (if 10 ≤ v % 65536 ∧ v % 65536 ≤ 10000 then s.iow 17 a (v % 65536 : Nat) else s)
  else if a = 0xF014 then stateOf s (execKwdKick (BitVec.ofNat 32 v) s)
  else if a = 0xF020 then stateOf s (execTileTrstWrite (BitVec.ofNat 8 v) s)
  else s

/-- What a write of word `v` by core `c` to address `a` does once it lands. A write where no register is does nothing. -/
def State.ioWrite (s : State) (c : CoreId) (a v : Nat) : State :=
  if (ioFault s c a).isSome then s
  else if c.val = 17 then
    if a < 0x4000 then s.writeWindow c a v
    else if a < 0x6000 then s
    else if a < 0x7000 then s.writeQueue 16 (a - 0x6000) v
    else if a < 0x8000 then s.writeQueue 17 (a - 0x7000) v
    else if a < 0xB000 then s
    else if a < 0xC000 then s.writeOtp a v
    else s.writeKeeper a v
  else
    let e : Eng := Fin.ofNat 17 c.val
    let b := (s.enginePorts e).getD 0
    if a < 0x1000 then s
    else if a < 0x2000 then s.writePath b a v
    else if a < 0x3000 then s.writeMirror b a v
    else if a < 0x4000 then s.writeWindow c a v
    else if a < 0x5000 then s.writeLedger b a v
    else if a < 0x6000 then s.writeMailbox e a v
    else if a < 0xF000 then s.writeQueue (Fin.ofNat 18 b) (a - 0x6000) v
    else s.writeControl e a v

end Sys2Proof.Machine
end

