-- ==== Sys2Proof/Machine/Flags.lean ====
section
/-! DEFINITION. The operations of the Zamor-32 and the flags they compute (R318 to R323, Table 11.4). -/

namespace Sys2Proof.Machine

/-- What an operation yields: its result, the flags it changes and their values. -/
structure ZRes where
  val : Nat
  mask : Nat
  flags : Nat
  deriving DecidableEq, Repr

/-- The low `w` bits. -/
def low (w v : Nat) : Nat := v % 2 ^ w

/-- The value of `w` bits read as two's complement. -/
def signed (w v : Nat) : Int := if low w v < 2 ^ (w - 1) then (low w v : Int) else (low w v : Int) - (2 ^ w : Nat)

/-- The `w` bits of an integer. -/
def bitsOfInt (w : Nat) (v : Int) : Nat := (v % (2 ^ w : Nat)).toNat

/-- A flag at its place. -/
def flagIf (b : Bool) (m : Nat) : Nat := if b then m else 0

/-- Z and N of a result of `w` bits (R318). -/
def flagsZN (w r : Nat) : Nat := flagIf (decide (r = 0)) Flag.z + flagIf (r.testBit (w - 1)) Flag.n

/-- Z, N, C and V. -/
def flagsZNCV (w r : Nat) (c v : Bool) : Nat := flagsZN w r + flagIf c Flag.c + flagIf v Flag.v

/-- Whether the integer does not fit `w` bits, signed. -/
def overflows (w : Nat) (v : Int) : Bool := decide (v < -(2 ^ (w - 1) : Nat) ∨ ((2 ^ (w - 1) : Nat) : Int) ≤ v)

/-- A result that changes no flag. -/
def plainRes (v : Nat) : ZRes := { val := v, mask := 0, flags := 0 }

/-- A result that changes Z and N. -/
def znRes (w v : Nat) : ZRes := { val := v, mask := 3, flags := flagsZN w v }

/-- s1 + s2 + carry. -/
def addRes (w a b cin : Nat) : ZRes :=
  let r := low w (a + b + cin)
  { val := r, mask := 15
    flags := flagsZNCV w r (decide (2 ^ w ≤ a + b + cin)) (overflows w (signed w a + signed w b + (cin : Int))) }

/-- s1 − s2 − borrow: C where no borrow occurs. -/
def subRes (w a b bin : Nat) : ZRes :=
  let r := low w (a + (2 ^ w - low w b) + 2 ^ w - bin)
  { val := r, mask := 15
    flags := flagsZNCV w r (decide (b + bin ≤ a)) (overflows w (signed w a - signed w b - (bin : Int))) }

/-- C as a number. -/
def carryOf (flg : Nat) : Nat := flg / 4 % 2

/-- A bit as a number. -/
def bitAt (v i : Nat) : Nat := v / 2 ^ i % 2

/-- A shift's result with Z, N and, where the count is not 0, C. -/
def shiftRes (w r : Nat) (c : Option Bool) : ZRes :=
  match c with
  | none => znRes w r
  | some b => { val := r, mask := 7, flags := flagsZN w r + flagIf b Flag.c }

/-- SHL: R320. -/
def shlRes (w a b : Nat) : ZRes :=
  let c := b % 64
  if c = 0 then shiftRes w a none
  else if c ≤ w then shiftRes w (low w (a * 2 ^ c)) (some (decide (bitAt a (w - c) = 1)))
  else shiftRes w 0 (some false)

/-- SHR: R320. -/
def shrRes (w a b : Nat) : ZRes :=
  let c := b % 64
  if c = 0 then shiftRes w a none
  else if c ≤ w then shiftRes w (a / 2 ^ c) (some (decide (bitAt a (c - 1) = 1)))
  else shiftRes w 0 (some false)

/-- SAR: R320. -/
def sarRes (w a b : Nat) : ZRes :=
  let c := b % 64
  let top := decide (bitAt a (w - 1) = 1)
  if c = 0 then shiftRes w a none
  else if c ≤ w then shiftRes w (bitsOfInt w (signed w a / (2 ^ c : Nat))) (some (decide (bitAt a (c - 1) = 1)))
  else shiftRes w (if top then 2 ^ w - 1 else 0) (some top)

/-- ROR: by the count mod s. -/
def rorRes (w a b : Nat) : ZRes :=
  let c := b % 64 % w
  let r := low w (a / 2 ^ c + a * 2 ^ (w - c))
  if c = 0 then shiftRes w a none else shiftRes w r (some (r.testBit (w - 1)))

/-- A quotient or remainder with Z, N and V. -/
def divRes (w r : Nat) (v : Bool) : ZRes := { val := r, mask := 11, flags := flagsZN w r + flagIf v Flag.v }

/-- DIVU. -/
def divuRes (w a b : Nat) : ZRes := if b = 0 then divRes w (2 ^ w - 1) true else divRes w (a / b) false

/-- REMU. -/
def remuRes (w a b : Nat) : ZRes := if b = 0 then divRes w a true else divRes w (a % b) false

/-- The most negative value by −1. -/
def divOverflow (w a b : Nat) : Bool := decide (a = 2 ^ (w - 1) ∧ b = 2 ^ w - 1)

/-- DIVS: truncated toward zero. -/
def divsRes (w a b : Nat) : ZRes :=
  if b = 0 then divRes w (2 ^ w - 1) true
  else if divOverflow w a b then divRes w a true
  else divRes w (bitsOfInt w ((signed w a).tdiv (signed w b))) false

/-- REMS: with the sign of s1. -/
def remsRes (w a b : Nat) : ZRes :=
  if b = 0 then divRes w a true
  else if divOverflow w a b then divRes w 0 true
  else divRes w (bitsOfInt w ((signed w a).tmod (signed w b))) false

/-- The two octets of a halfword exchanged. -/
def swapHalf (v : Nat) : Nat := v % 256 * 256 + v / 256 % 256

/-- SWAB: by width and SUB. -/
def swabRes (w a sub : Nat) : ZRes :=
  if w = 16 then plainRes (swapHalf a)
  else if sub = 0 then plainRes (swapHalf (a % 65536) + 65536 * swapHalf (a / 65536))
  else if sub = 1 then plainRes (swapHalf (a / 65536) + 65536 * swapHalf (a % 65536))
  else plainRes (a / 65536 % 65536 + 65536 * (a % 65536))

/-- The parity of `n` bits: 1 for an odd count of ones. -/
def parity : Nat → Nat → Nat
  | 0, _ => 0
  | n + 1, v => (v % 2 + parity n (v / 2)) % 2

/-- PAR: Z, and PF takes the parity. -/
def parRes (w a : Nat) : ZRes :=
  let p := parity w a
  { val := p, mask := Flag.z + Flag.pf, flags := flagIf (decide (p = 0)) Flag.z + p * Flag.pf }

/-- Whether a condition holds over FLG (R291): AL, EQ, NE, LT, GE, CS, CC, PF. -/
def condHolds (c : Nat) (flg : Nat) : Bool :=
  let z := flg.testBit 0
  let n := flg.testBit 1
  let k := flg.testBit 2
  let v := flg.testBit 3
  if c = 0 then true else if c = 1 then z else if c = 2 then !z else if c = 3 then n != v else if c = 4 then n == v
  else if c = 5 then k else if c = 6 then !k else flg.testBit 4

/-- PSET: PF from the condition value `c`, the old PF and SUB (Table 11.5). -/
def psetFlag (c pf : Bool) (sub : Nat) : Nat :=
  flagIf (if sub = 0 then c else if sub = 1 then pf && c else if sub = 2 then pf || c else !c) Flag.pf

/-- The width that CRCF gives the register: none for the code 3 (R323). -/
def crcWidth (f : Nat) : Option Nat := if f % 4 = 0 then some 32 else if f % 4 = 1 then some 16 else if f % 4 = 2 then some 8 else none

end Sys2Proof.Machine
end

