-- ==== Sys2Proof/Machine/Operands.lean ====
section
/-! DEFINITION. The operand forms of the Zamor-32 (R311 to R317, Tables 11.1 to 11.3): which fields an instruction uses, where a
specifier points, what it reads, and how the results go out. -/

namespace Sys2Proof.Machine

/-- The short form of a mnemonic (Table 11.6): none; dn ← f(sn); dn with sn; dn with the number SN; dn ← SN; or one of the Misc rows,
by DN, where `arg` says that SN is used. -/
inductive ZShort where
  | none | unary | binary | imm | load
  | misc (dns : List Nat) (arg : Bool)
  deriving DecidableEq, Repr

/-- What D is to an instruction: unused, a destination, or, for PULL and PUSH, a source. -/
inductive ZDest where
  | unused | dest | source
  deriving DecidableEq, Repr

/-- What makes a defined encoding raise ILLOP all the same: CRCF code 3 for the CRC unit (R323), a condition code of PSET above 7. -/
inductive ZCheck where
  | none | crc | pset
  deriving DecidableEq, Repr

/-- The fields that an instruction uses (Tables 11.4 to 11.6): its sizes (none where it has no long form) and SUB values. -/
structure ZUse where
  sizes : List Nat
  subs : List Nat
  s1 : Bool
  s2 : Bool
  d : ZDest
  short : ZShort
  chk : ZCheck := .none
  deriving DecidableEq, Repr

/-- A defined encoding (R313): the size and SUB are the instruction's own, and a field that it does not use holds 0. -/
def ZUse.defined (u : ZUse) (z : ZIns) : Bool :=
  if z.short then
    match u.short with
    | .none => false
    | .misc dns arg => dns.contains z.d.toNat && (arg || decide (z.s1 = 0))
    | _ => true
  else
    u.sizes.contains z.size.val && u.subs.contains z.sub.val && (u.s1 || decide (z.s1 = 0)) && (u.s2 || decide (z.s2 = 0)) &&
      (decide (u.d ≠ .unused) || decide (z.d = 0))

/-- The word of the CRC unit at `a`: its own results at any distance, explicit writes from i + 4 on. -/
def CoreHw.crcWord (h : CoreHw) (a : Nat) : Nat := h.word (h.asUnit 4) a

/-- The condition code of PSET (Tables 11.5 and 11.6). -/
def psetCode (z : ZIns) : Nat := if z.short then z.s1.toNat % 8 else z.d.toNat

/-- ILLOP for another cause than the encoding. -/
def ZUse.raises (u : ZUse) (h : CoreHw) (z : ZIns) : Bool :=
  match u.chk with
  | .none => false
  | .crc => (crcWidth (h.crcWord Page.crcf)).isNone
  | .pset => decide (8 ≤ psetCode z)

/-- The octets of an access (Table 11.1): a short form and the control class work on words. -/
def zOctets (z : ZIns) : Nat := if z.short then 4 else if z.size = 0 then 1 else if z.size = 1 then 2 else 4

/-- Exception codes (Table 10.7). -/
abbrev xIllop : Nat := 1
abbrev xAlign : Nat := 2
abbrev xSpace : Nat := 3
abbrev xEccu : Nat := 4
abbrev xIoto : Nat := 5
abbrev xWdog : Nat := 6
abbrev xIllrpt : Nat := 7
abbrev xRpthz : Nat := 8

/-- The check of an access of `n` octets at address `a` (R279, R333): SPACE, then ALIGN. -/
def checkAt (c : CoreId) (n a : Nat) : Option Nat :=
  if (List.range n).any fun i => decide (dTop c ≤ wrap32 (a + i) ∧ wrap32 (a + i) < pageBase) then some xSpace
  else if a % n ≠ 0 ∨ (pageBase ≤ a ∧ n ≠ 4) then some xAlign
  else none

/-- What processing the specifiers gathers: pointer words updated so far by their frame number, the same as memory writes in order,
and whether a word of local data SRAM has been read. -/
structure ZAcc where
  upd : List (Nat × Nat)
  ptr : List (Nat × Nat)
  loc : Bool
  deriving DecidableEq, Repr

/-- Nothing gathered. -/
def ZAcc.start : ZAcc := { upd := [], ptr := [], loc := false }

/-- The updated value of F `r`, if an earlier specifier of the instruction has updated it (R316). -/
def ZAcc.updated (x : ZAcc) (r : Nat) : Option Nat := x.upd.lookup r

/-- A check that must pass. -/
def mustPass (c : CoreId) (n a : Nat) : Except Nat Unit :=
  match checkAt c n a with
  | some e => .error e
  | none => .ok ()

/-- Where specifier mode `m` with number `r` points, for an access of `n` octets (Table 11.3, R314 to R317). -/
def placeAt (c : CoreId) (h : CoreHw) (n : Nat) (asDest : Bool) (m r : Nat) (x : ZAcc) : Except Nat (Nat × ZAcc) := do
  let fa := wrap32 (h.word h.asAddress Page.fp + 4 * r)
  if m = 0 then
    mustPass c n fa
    pure (fa, x)
  else if m = 3 ∧ asDest = false then
    let ka := wrap32 (h.word h.asAddress Page.kp + 4 * r)
    mustPass c n ka
    pure (ka, x)
  else
    mustPass c 4 fa
    let p := (x.updated r).getD (h.word h.asAddress fa)
    let x := { x with loc := x.loc || decide (fa < dTop c) }
    let q := if m = 3 then wrap32 (p + 4294967296 - n) else p
    mustPass c n q
    let v := if m = 2 then wrap32 (p + n) else q
    pure (q, if m = 1 then x else { x with upd := (r, v) :: x.upd, ptr := x.ptr ++ [(fa, v)] })

/-- A source: its value, its address and what has been gathered. -/
def sourceAt (c : CoreId) (h : CoreHw) (n m r : Nat) (x : ZAcc) : Except Nat (Nat × Nat × ZAcc) := do
  let (a, y) ← placeAt c h n false m r x
  let v :=
    match m, x.updated r with
    | 0, some v => v % 256 ^ n
    | _, _ => h.load h.asOperand n a
  pure (v, a, { y with loc := y.loc || decide (a < dTop c) })

/-- The mode of a specifier: bits [5:4]. -/
def specMode (b : BitVec 6) : Nat := b.toNat / 16

/-- Its number: bits [3:0]. -/
def specNum (b : BitVec 6) : Nat := b.toNat % 16

/-- The mode of a nibble of a short form (Table 11.2): FRAME or PTR. -/
def nibMode (b : BitVec 6) : Nat := b.toNat / 8 % 2

/-- Its frame number. -/
def nibNum (b : BitVec 6) : Nat := b.toNat % 8

/-- The operands of an instruction: s1 (or dn), s2 (or sn), D as a source, the destination, what was gathered. -/
structure ZGot where
  a : Nat
  b : Nat
  e : Nat
  dst : Option Nat
  acc : ZAcc
  deriving DecidableEq, Repr

/-- The operands of a long form, in the order S1, S2, D (R316): sources of `n` octets, a destination of `m`. -/
def longOperands (u : ZUse) (c : CoreId) (h : CoreHw) (z : ZIns) (n m : Nat) : Except Nat ZGot := do
  let (a, _, x) ← if u.s1 then sourceAt c h n (specMode z.s1) (specNum z.s1) ZAcc.start else pure (0, 0, ZAcc.start)
  let (b, _, x) ← if u.s2 then sourceAt c h n (specMode z.s2) (specNum z.s2) x else pure (0, 0, x)
  match u.d with
  | .unused => pure { a := a, b := b, e := 0, dst := none, acc := x }
  | .dest => do
    let (q, x) ← placeAt c h m true (specMode z.d) (specNum z.d) x
    pure { a := a, b := b, e := 0, dst := some q, acc := x }
  | .source => do
    let (e, _, x) ← sourceAt c h n (specMode z.d) (specNum z.d) x
    pure { a := a, b := b, e := e, dst := none, acc := x }

/-- The operands of a short form, in the order SN, DN (R316). -/
def shortOperands (u : ZUse) (c : CoreId) (h : CoreHw) (z : ZIns) : Except Nat ZGot := do
  let dst (q : Nat) : Option Nat := if u.d = .dest then some q else none
  let imm := z.s1.toNat % 16
  match u.short with
  | .unary => do
    let (a, _, x) ← sourceAt c h 4 (nibMode z.s1) (nibNum z.s1) ZAcc.start
    let (q, x) ← placeAt c h 4 true (nibMode z.d) (nibNum z.d) x
    pure { a := a, b := 0, e := 0, dst := dst q, acc := x }
  | .binary => do
    let (b, _, x) ← sourceAt c h 4 (nibMode z.s1) (nibNum z.s1) ZAcc.start
    let (a, q, x) ← sourceAt c h 4 (nibMode z.d) (nibNum z.d) x
    pure { a := a, b := b, e := 0, dst := dst q, acc := x }
  | .imm => do
    let (a, q, x) ← sourceAt c h 4 (nibMode z.d) (nibNum z.d) ZAcc.start
    pure { a := a, b := imm, e := 0, dst := dst q, acc := x }
  | .load => do
    let (q, x) ← placeAt c h 4 true (nibMode z.d) (nibNum z.d) ZAcc.start
    pure { a := imm, b := 0, e := 0, dst := dst q, acc := x }
  | .misc _ arg =>
    if arg ∧ z.d = 1 then do
      let (a, _, x) ← sourceAt c h 4 (nibMode z.s1) (nibNum z.s1) ZAcc.start
      pure { a := a, b := 0, e := 0, dst := none, acc := x }
    else pure { a := imm, b := 0, e := 0, dst := none, acc := ZAcc.start }
  | .none => pure { a := 0, b := 0, e := 0, dst := none, acc := ZAcc.start }

/-- The operands of an instruction whose sources have `n` octets and whose destination has `m`. -/
def operandsOf (u : ZUse) (c : CoreId) (h : CoreHw) (z : ZIns) (n m : Nat) : Except Nat ZGot :=
  if z.short then shortOperands u c h z else longOperands u c h z n m

/-- The pointer words that the specifiers updated go out as memory writes (R316). -/
def ZGot.pointers (g : ZGot) (h : CoreHw) : CoreHw := g.acc.ptr.foldl (fun h x => h.store false 4 x.1 x.2) h

/-- The results go out: pointer words, then the data, which stands over them. -/
def ZGot.commit (g : ZGot) (h : CoreHw) (m v : Nat) : CoreHw :=
  match g.dst with
  | some a => (g.pointers h).store false m a v
  | none => g.pointers h

end Sys2Proof.Machine
end

