-- ==== Sys2Proof/Machine/ZOps.lean ====
section
/-! DEFINITION. How a core runs one instruction (R284 to R287, R292 to R296, R325, R329, R333): issue, the posted IO writes that land,
the condition, undefined encodings, delay slots, repeats, exceptions and their entry. -/

namespace Sys2Proof.Machine

/-- Whether core `c` executes: an engine that lives, or the plumb pair once its code runs; not while it is halted (R417). -/
def State.coreOn (s : State) (c : CoreId) : Bool :=
  !(tget s.sec.halted c) &&
    (if c.val = 17 then decide (s.sec.stat = 2 ∨ s.sec.stat = 7) && !s.asleep 3
      else s.engLive (Fin.ofNat 17 c.val) && !s.asleep 1)

/-- Core `c` issues instructions now. -/
def State.coreRuns (s : State) (c : CoreId) : Bool := s.coreOn c && decide ((s.core c).run = .running)

/-! Posted IO writes. -/

/-- The oldest posted IO write lands. -/
def State.deliverOne (s : State) (c : CoreId) : State :=
  match (s.core c).posted with
  | [] => s
  | x :: t => (s.setCore c { s.core c with posted := t }).ioWrite c x.2.1 x.2.2

/-- `k` posted writes land, oldest first. -/
def State.deliverSome (c : CoreId) : Nat → State → State
  | 0, s => s
  | k + 1, s => State.deliverSome c k (s.deliverOne c)

/-- Every posted write lands. -/
def State.drained (s : State) (c : CoreId) : State := State.deliverSome c (s.core c).posted.length s

/-- The engines that a change declares failed while IO writes of theirs are on their way. -/
def failedPosting (s t : State) : List CoreId :=
  (List.finRange 18).filter fun c =>
    decide (c.val < 17) && s.engLive (Fin.ofNat 17 c.val) && !(t.engLive (Fin.ofNat 17 c.val)) && !(s.core c).posted.isEmpty

/-- A change that may declare an engine failed: the IO writes that the engine has already posted are delivered (R300). -/
def State.withDelivery (f : State → State) (s : State) : State :=
  match failedPosting s (f s) with
  | [] => f s
  | l => f (l.foldl State.drained s)

/-- The posted writes of instructions up to `i - 6` land, oldest first (R285); all of them where `all` says so. -/
def State.deliverDue (c : CoreId) (all : Bool) : Nat → State → State
  | 0, s => s
  | k + 1, s =>
    match (s.core c).posted with
    | [] => s
    | x :: t =>
      if all ∨ x.1 + 6 ≤ (s.core c).idx then
        let u := s.setCore c { s.core c with posted := t }
        State.deliverDue c all k (State.withDelivery (fun v => v.ioWrite c x.2.1 x.2.2) u)
      else s

/-- Everything that core `c` has issued lands, in memory and in IO-space. -/
def State.settleCore (s : State) (c : CoreId) : State :=
  let s := State.deliverDue c true (s.core c).posted.length s
  s.setCore c (s.core c).flushed

/-! Failure, and exception entry. -/

/-- Core `c` is declared failed. The plumb pair has no adoption: it stops, and its watchdog expires. -/
def State.coreFails (s : State) (c : CoreId) (cause : Int) : State :=
  if c.val = 17 then s.setCore c { s.core c with run := .dead }
  else State.withDelivery (fun v => v.failEngine (Fin.ofNat 17 c.val) cause) s

/-- The fields of ECAUSE (R293). -/
def ecauseOf (code ds flg detail : Nat) : Nat :=
  code + ds * 256 + (if flg.testBit 8 then 1024 else 0) + (if flg.testBit 9 then 2048 else 0) + detail % 65536 * 65536

/-- The branch target that entry keeps on the stack: none outside a slot, and none in a slot that RETE has left, whose target stands on
the stack already. -/
def CoreHw.kept (h : CoreHw) (ds : Nat) : Option Nat :=
  match h.target with
  | some (.addr a) => if ds = 0 then none else some a
  | _ => none

/-- What entry makes of a core whose earlier instructions have all landed: `sp` is the stack word where a branch target is kept. -/
def CoreHw.entered (h : CoreHw) (code epc ds detail sp : Nat) : CoreHw :=
  let g := (h.poke Page.epc epc).poke Page.ecause (ecauseOf code ds h.flg detail)
  let g := match h.kept ds with
    | some a => (g.poke Page.sp sp).poke sp a
    | none => g
  { g with
    flg := mergeBits h.flg (Flag.ie + Flag.exl) Flag.exl
    pc := (h.word everything Page.ivb + 16 * code) % 65536 / 2 * 2
    slots := 0, target := none, rpt := none, run := .running, wdog := h.wdog && decide (code ≠ xWdog) }

/-- Exception or interrupt entry of core `c` (R293): a double fault where EXL is set (R295), or where the stack has no place for the
branch target. Entry reads SP as an address of the instruction in whose place it comes (R322). -/
def State.enter (s : State) (c : CoreId) (code epc ds detail : Nat) : State :=
  let sp := wrap32 ((s.core c).word (s.core c).asAddress Page.sp + 4294967292)
  let s := s.settleCore c
  if !s.coreOn c then s
  else
    let h := s.core c
    if (decide (code < 16) && h.flg.testBit 9) || ((h.kept ds).isSome && (checkAt c 4 sp).isSome) then s.coreFails c 2
    else s.setCore c (h.entered code epc ds detail sp)

/-- DSLEFT: the slots of a taken branch that are left, this one included. -/
def CoreHw.dsLeft (h : CoreHw) : Nat := if h.target.isSome then h.slots else 0

/-- Between RPT and its string instruction, or between iterations of a repeat. -/
def CoreHw.inRepeat (h : CoreHw) : Bool :=
  match h.rpt with
  | some r => r.count.isSome || r.begun
  | none => false

/-- RETE has gone to a prefix whose repeat goes on, and the prefix has not been re-entered yet (R329). -/
def CoreHw.reentry (h : CoreHw) : Bool :=
  match h.rpt with
  | some r => r.count.isNone && !r.begun
  | none => false

/-- The repeat goes on without its count load and conditions. -/
def CoreHw.resumed (h : CoreHw) : Bool :=
  match h.rpt with
  | some r => r.count.isNone && r.begun
  | none => false

/-- Between two iterations of a repeat. -/
def CoreHw.between (h : CoreHw) : Bool :=
  match h.rpt with
  | some r => r.count.isNone && r.begun && r.ran
  | none => false

/-- Whether the core stands at a boundary where an interrupt may be taken (R294, R334): not between a taken branch and its slots, nor
between RPT and its string instruction; the iterations of a repeat are interruptible. -/
def CoreHw.interruptible (h : CoreHw) : Bool :=
  h.between || (!(h.target.isSome && decide (h.slots ≠ 0)) && !h.inRepeat)

/-- The address of the prefix. -/
def CoreHw.prefixAddr (h : CoreHw) : Nat :=
  match h.rpt with
  | some r => r.addr
  | none => h.pc

/-- An exception of the present instruction; `rep` where it stands in place of an iteration of a repeat (R329). -/
def State.zTrap (s : State) (c : CoreId) (code detail : Nat) (rep : Bool) : State :=
  let h := s.core c
  if rep then s.enter c code (h.prefixAddr + 1) 0 detail else s.enter c code h.pc h.dsLeft detail

/-! Interrupt lines. -/

/-- The lines of engine `e` that are pending: asserted and enabled (R296). -/
def pendingLines (s : State) (e : Eng) : Nat := intPend s e &&& (s.ior e.val 0xF00C).toNat

/-- Whether a core in WAIT issues again: a line is pending and it is not to be taken, IE being clear or the WAIT standing before the
last slot of a taken branch. The manual gives the plumb pair no lines, so its WAIT ends at once. -/
def State.coreWakes (s : State) (c : CoreId) : Bool :=
  decide (c.val = 17) ||
    (decide (pendingLines s (Fin.ofNat 17 c.val) ≠ 0) && !((s.core c).flagsEx.testBit 8 && (s.core c).interruptible))

/-! One instruction. -/

/-- What kind of instruction it is: a branch, call or return; RETE; a string instruction; RPT; or any other. -/
inductive ZKind where
  | plain | branch | rete | str | rpt
  deriving DecidableEq, Repr

/-- Where the core goes on: the next instruction; with two delay slots and perhaps a target; after RPT; with the same repeat; where
RETE has set it; in WAIT. -/
inductive ZNext where
  | seq
  | branch (t : Option Nat)
  | prefixed (r : RptHw)
  | hold
  | jump
  | wait
  deriving DecidableEq, Repr

/-- An exception that an instruction raises. -/
structure ZTrap where
  code : Nat
  detail : Nat
  deriving DecidableEq, Repr

/-- What an instruction does: the state it leaves, where the core goes on, or the exception that it raises. -/
structure ZOut where
  st : State
  next : ZNext
  trap : Option ZTrap

/-- An instruction that raises an exception. -/
def zRaise (s : State) (code detail : Nat) : ZOut := { st := s, next := .seq, trap := some { code := code, detail := detail } }

/-- An instruction that completes. -/
def zDone (s : State) : ZOut := { st := s, next := .seq, trap := none }

/-- The core after its last slot: at the target, at the word at SP with SP ← SP + 4 where RETE left it there (R294), or at `nxt`. -/
def CoreHw.leaveSlots (h : CoreHw) (nxt : Nat) : CoreHw :=
  match h.target with
  | some (.addr a) => { h with pc := a }
  | some .stack =>
    let sp := h.word everything Page.sp
    { h.store false 4 Page.sp (wrap32 (sp + 4)) with pc := h.word everything sp % 65536 / 2 * 2 }
  | none => { h with pc := nxt }

/-- The exception of the stack access that ends the slots RETE left (R294). -/
def CoreHw.stackFault (c : CoreId) (h : CoreHw) (x : ZNext) : Option Nat :=
  if h.slots = 1 ∧ h.target = some .stack ∧ x ≠ .hold then checkAt c 4 (h.word everything Page.sp) else none

/-- The core goes on after an instruction of `len` octets. -/
def CoreHw.advance (h : CoreHw) (len : Nat) (x : ZNext) : CoreHw :=
  let nxt := (h.pc + len) % 65536
  let seq : CoreHw :=
    if h.slots = 1 then { h.leaveSlots nxt with idx := h.idx + 1, rpt := none, slots := 0, target := none }
    else { h with idx := h.idx + 1, rpt := none, pc := nxt, slots := h.slots - 1, target := if h.slots = 0 then none else h.target }
  match x with
  | .seq => seq
  | .wait => seq
  | .branch t => { h with idx := h.idx + 1, rpt := none, pc := nxt, slots := 2, target := t.map BranchTo.addr }
  | .prefixed r => { seq with rpt := some r }
  | .hold => { h with rpt := h.rpt.map fun r => { r with count := none, begun := true, ran := true } }
  | .jump => { h with idx := h.idx + 1 }

/-- WAIT with no line pending: everything issued lands, and nothing more is issued (R330). -/
def State.waitCore (s : State) (c : CoreId) : State :=
  if c.val = 17 ∨ pendingLines s (Fin.ofNat 17 c.val) ≠ 0 then s
  else
    let s := s.settleCore c
    if s.coreOn c ∧ pendingLines s (Fin.ofNat 17 c.val) = 0 then s.setCore c { s.core c with run := .waiting } else s

/-- The length of an instruction. -/
def zLen (z : ZIns) : Nat := if z.short then 2 else 4

/-- The core goes on. -/
def State.zAdvance (s : State) (c : CoreId) (z : ZIns) (x : ZNext) : State :=
  if !s.coreRuns c then s
  else
    let s := s.setCore c ((s.core c).advance (zLen z) x)
    if x = .wait then s.waitCore c else s

/-- RPT loads its count when its pair goes on (R325): the write is the prefix's own. -/
def CoreHw.loadCount (h : CoreHw) : CoreHw :=
  match h.rpt with
  | some r =>
    match r.count with
    | some v => { h with pend := h.pend ++ [{ idx := h.idx - 1, addr := Page.rc, octets := leOctets 4 v, unit := true }] }
    | none => h
  | none => h

/-- RC as the string unit holds it. -/
def CoreHw.unitRc (h : CoreHw) : Nat := h.word (h.asUnit 5) Page.rc

/-- A repeat with iterations to do. -/
def CoreHw.repeats (h : CoreHw) : Bool := h.inRepeat && decide (h.unitRc ≠ 0)

/-- How the instruction ends: its exception, that of the stack access that ends RETE's slots, WDOG where it waits and nothing else is
raised (R333), or the next instruction. A repeat with no iteration to do leaves WDOG to the instruction after it; at a prefix that
RETE re-enters, an exception leads back to it (R329). -/
def State.zEnd (s : State) (c : CoreId) (z : ZIns) (k : ZKind) (o : ZOut) : State :=
  let rep := (decide (k = .str) && (s.core c).repeats) || (decide (k = .rpt) && (s.core c).reentry)
  match o.trap, (o.st.core c).stackFault c o.next with
  | some t, _ => o.st.zTrap c t.code t.detail rep
  | none, some e => s.zTrap c e 0 rep
  | none, none =>
    if (s.core c).wdog ∧ ¬ (k = .str ∧ (s.core c).inRepeat ∧ (s.core c).unitRc = 0) then s.zTrap c xWdog 0 rep
    else o.st.zAdvance c z o.next

/-- An instruction that has been fetched: control transfers in a slot, then the condition, then undefined encodings and a prefix
without its string instruction, then what it does. -/
def State.zExecute (s : State) (c : CoreId) (z : ZIns) (k : ZKind) (u : ZUse) (act : State → ZOut) : State :=
  let h := s.core c
  let t := s.setCore c h.loadCount
  if (k = .branch ∨ k = .rete) ∧ h.slots ≠ 0 then t.zTrap c xIllop 0 false
  else if !(condHolds z.cond.val h.flagsRead || (decide (k = .str) && h.resumed) || (decide (k = .rpt) && h.reentry)) then
    t.zEnd c z .plain { st := t, next := if k = .branch then .branch none else .seq, trap := none }
  else if !u.defined z || u.raises h z then t.zTrap c xIllop 0 false
  else if h.inRepeat ∧ k ≠ .str then s.enter c xIllrpt h.prefixAddr h.dsLeft 0
  else t.zEnd c z k (act t)

/-- The word that the core fetches is no defined encoding (R313): ILLOP, unless its condition fails. -/
def State.zUndefined (s : State) (c : CoreId) (z : ZIns) : State :=
  let h := s.core c
  let t := s.setCore c h.loadCount
  let first := h.half h.pc
  if condHolds (zCondOf first) h.flagsRead then t.zTrap c xIllop 0 false
  else t.zEnd c { z with short := !zIsLong first } .plain { st := t, next := .seq, trap := none }

/-- An error that the memories correct is counted (R299). -/
def State.countEcc (s : State) (c : CoreId) : State :=
  if c.val = 17 then s
  else (s.iow c.val 0xF038 (satInc (s.ior c.val 0xF038) u16Max)).count (K.engEcc + c.val)

/-- Core `c` runs instruction `z` of kind `k`: what is due lands first; a fetch that cannot be corrected fails the core (R299), and a
word that is no defined encoding raises ILLOP (R313). Which defined instruction the core runs is the command's: DESIGN CHOICE (log 178).
A core that does not execute does nothing. -/
def State.zStep (s : State) (c : CoreId) (z : ZIns) (k : ZKind) (u : ZUse) (act : State → ZOut) : State :=
  if !(s.coreRuns c || (s.coreOn c && decide ((s.core c).run = .waiting) && s.coreWakes c)) then s
  else
    let s := s.setCore c { s.core c with run := .running }
    let s := State.deliverDue c false (s.core c).posted.length s
    if !s.coreRuns c then s
    else
      let s := s.setCore c (s.core c).landed
      if z.ecc = .fatal then s.coreFails c 3
      else
        let s := if z.ecc = .corrected then s.countEcc c else s
        if (s.core c).fetchDefined then s.zExecute c z k u act else s.zUndefined c z

/-- The sizes of a data instruction. -/
abbrev anySize : List Nat := [0, 1, 2]

end Sys2Proof.Machine
end

