-- ==== Sys2Proof/Machine/DictCmds.lean ====
section
/-! DEFINITION. The commands of the object dictionary and its transports ("Object Dictionary and Its Transports"), and those of the
shared two-wire buses that carry dictionary frames. -/

namespace Sys2Proof.Machine

/-! Requests as commands. -/

/-- DF_READ. -/
def execDfRead (r : ReqHead) (items : List OdItem) (s : State) : Host.Outcome State Fault Refusal :=
  done (s.request r (.read (items.map odKey)))

/-- DF_WRITE. -/
def execDfWrite (r : ReqHead) (items : List OdItem) (s : State) : Host.Outcome State Fault Refusal :=
  done (State.withDelivery (fun s => s.request r (.write (items.map odItem))) s)

/-- DF_WRITE_BROADCAST. -/
def execDfWriteBroadcast (r : ReqHead) (items : List OdItem) (s : State) : Host.Outcome State Fault Refusal :=
  done (State.withDelivery (fun s => s.request r (.broadcast (items.map odItem))) s)

/-- DF_STORE. -/
def execDfStore (r : ReqHead) (s : State) : Host.Outcome State Fault Refusal := done (s.request r .store)

/-- STORE_COMPLETE (R369): the store ends, and the response that waited for it goes out. -/
def execStoreComplete (ok : Bool) (s : State) : Host.Outcome State Fault Refusal := done (s.endStore ok).collectAll

/-- DF_BULK_READ. -/
def execDfBulkRead (r : ReqHead) (idx : BitVec 16) (sub : BitVec 8) (off : BitVec 32) (count : BitVec 16) (s : State) :
    Host.Outcome State Fault Refusal :=
  done (s.request r (.bulk (idx.toNat * 256 + sub.toNat) off.toNat count.toNat))

/-- DF_CURSOR. -/
def execDfCursor (r : ReqHead) (cursor : BitVec 64) (s : State) : Host.Outcome State Fault Refusal :=
  done (s.request r (.cursor cursor.toNat))

/-- DF_SKIM. -/
def execDfSkim (r : ReqHead) (at_ : Option (BitVec 64)) (s : State) : Host.Outcome State Fault Refusal :=
  done (s.request r (.skim (at_.map (·.toNat))))

/-- SESSION_OPEN. -/
def execSessionOpen (r : ReqHead) (level : BitVec 8) (pub nonce : List Byte) (s : State) : Host.Outcome State Fault Refusal :=
  done (s.request r (.sOpen level.toNat (pub.map (·.toNat)) (nonce.map (·.toNat))))

/-- SESSION_CONFIRM. -/
def execSessionConfirm (r : ReqHead) (plain : List Byte) (s : State) : Host.Outcome State Fault Refusal :=
  done (s.request r (.sConfirm (plain.map (·.toNat))))

/-- SESSION_CLOSE. -/
def execSessionClose (r : ReqHead) (s : State) : Host.Outcome State Fault Refusal := done (s.request r .sClose)

/-- SESSION_IDLE_EXPIRY (R359). -/
def execSessionIdleExpiry (t : Transport) (s : State) : Host.Outcome State Fault Refusal :=
  done (if (s.ses t).phase = .none then s else s.closeSession t)

/-- DF_TOKEN. -/
def execDfToken (r : ReqHead) (token : List Byte) (s : State) : Host.Outcome State Fault Refusal :=
  done (s.request r (if token.length ≤ 512 then .token (token.map (·.toNat)) else .bad 8 9))

/-- APPLY_STROBE (R367). -/
def execApplyStrobe (s : State) : Host.Outcome State Fault Refusal := done s.applyStrobe

/-- RESTORE_DEFAULTS (R372). -/
def execRestoreDefaults (s : State) : Host.Outcome State Fault Refusal := done (s.restoreDefaults.reply 0)

/-- ALERT_ACK (R380). -/
def execAlertAck (m : BitVec 32) (s : State) : Host.Outcome State Fault Refusal := done ((s.alertAck m.toNat).reply 0)

/-! CAN FD (R374 to R377). -/

/-- What is received of a request is dropped and counted. -/
def State.dropPartial (s : State) (src : Requester) : State :=
  (s.setSrc src { s.src src with part := [], seg := 0 }).dfError src

/-- CAN_SEGMENT_RX (R374, R375, R376): after what the controller has met on its bus, a frame: one in FD base format on the device's request
identifier carries a segment of 63 octets in order, and the LAST one completes the frame, whose end is padding; one on a DF identifier that is
not of 64 octets counts in DF_ERR. A segment to node 0 is left to CAN_NODE0_SKIM, and every other frame is ignored. -/
def execCanSegmentRx (c : Fin 2) (seen : List CanEv) (form : CanForm) (id : BitVec 11) (octets : List Byte) (s : State) :
    Host.Outcome State Fault Refusal :=
  done (
    let src := canSrc c
    let s := seen.foldl (fun s e => s.canMeets c e) s
    if !listens s src then s
    else
      let s := s.canGood c
      let cfg := (s.can c).cfg
      let own := decide ((id.toNat : Int) = tget cfg 2 + tget cfg 0)
      if form ≠ .fd ∨ (¬ own ∧ ¬ ((id.toNat : Int) = tget cfg 2 ∧ tget cfg 9 = 1)) then s
      else if octets.length ≠ 64 then s.dfError src
      else if !own then s
      else
        let l := octets.map (·.toNat)
        let n := l.headD 0 % 64
        let h := s.src src
        if n ≠ 0 ∧ (h.part.isEmpty ∨ n ≠ h.seg) then s.dropPartial src
        else
          let part := if n = 0 then l.drop 1 else h.part ++ l.drop 1
          if (l.headD 0).testBit 6 then
            let s := s.setSrc src { h with part := [], seg := 0 }
            State.withDelivery (fun s => s.receive src (part.take (12 + leValue ((part.drop 2).take 2)))) s
          else s.setSrc src { h with part := part, seg := n + 1 })

/-- CAN_SEGMENT_TIMEOUT (R376). -/
def execCanSegmentTimeout (c : Fin 2) (s : State) : Host.Outcome State Fault Refusal :=
  done (if (s.src (canSrc c)).part.isEmpty then s else s.dropPartial (canSrc c))

/-- CAN_NODE0_SKIM (R377): a request to node 0 on a device that hears it. An unsealed SKIM AT acts at L0 without a response; any other
request is ignored and counted in DF_ERR. -/
def execCanNode0Skim (c : Fin 2) (at_ : Option (BitVec 64)) (s : State) : Host.Outcome State Fault Refusal :=
  done (
    if listens s (canSrc c) ∧ s.sec.stat ≠ 3 ∧ tget (s.can c).cfg 9 = 1 then
      match at_ with
      | some t => s.skimAt t.toNat
      | none => s.dfError (canSrc c)
    else s)

/-- CAN_BUS_OFF (R374). -/
def execCanBusOff (c : Fin 2) (s : State) : Host.Outcome State Fault Refusal := done (s.canBusOff c)

/-- CAN_BUS_OFF_RECOVERY (R374): after 128 occurrences of 11 recessive bits, error active with both counters 0. -/
def execCanBusOffRecovery (c : Fin 2) (s : State) : Host.Outcome State Fault Refusal :=
  done (
    if s.rd (K.canState + c.val) = 3 then
      ((s.wr (K.canState + c.val) 1).wr (K.canTec + c.val) 0).wr (K.canRec + c.val) 0
    else s)

/-! Two-wire mailboxes (R378, R379). -/

/-- The requester of TW0 or TW1. -/
def twReq (b : Bus) : Requester := ⟨20 + b.val, by omega⟩

/-- TW_TARGET_WRITE (R378): the octets of a write transaction stream into the request; it completes at 8 + LENGTH + 4 octets, and
octets beyond are discarded and counted. A LENGTH past 2,048 discards the frame. -/
def execTwTargetWrite (b : Bus) (octets : List Byte) (s : State) : Host.Outcome State Fault Refusal :=
  done (
    let src := twReq b
    if !listens s src then s
    else
      let h := s.src src
      let part := h.part ++ octets.map (·.toNat)
      let n := leValue ((part.drop 2).take 2)
      if part.length < 4 then s.setSrc src { h with part := part }
      else if 2048 < n then s.dropPartial src
      else if part.length < n + 12 then s.setSrc src { h with part := part }
      else
        let s := State.withDelivery (fun s => s.receive src (part.take (n + 12))) (s.setSrc src { h with part := [] })
        if n + 12 < part.length then s.dfError src else s)

/-- TW_TARGET_READ (R379): the response from its first octet, 0x00 while it is not ready, 0xFF beyond its end. -/
def execTwTargetRead (b : Bus) (n : Nat) (s : State) : Host.Outcome State Fault Refusal :=
  done (
    let src := twReq b
    if !listens s src then s
    else
      let s := s.collectAll
      let r := (s.src src).resp
      s.putTw b { s.tw b with sent := (List.range n).map fun i => if r.isEmpty then 0 else r.getD i 0xFF })

/-- TW_DF_TIMEOUT (R378). -/
def execTwDfTimeout (b : Bus) (s : State) : Host.Outcome State Fault Refusal :=
  done (if (s.src (twReq b)).part.isEmpty then s else s.dropPartial (twReq b))

end Sys2Proof.Machine
end

