-- ==== Sys2Proof/Machine/EngCmds.lean ====
section
/-! DEFINITION. The commands that may declare an engine failed (R298, R300, R302, R310), whose posted IO writes are delivered, and the
debug port (R417). -/

namespace Sys2Proof.Machine

/-- WD_KICK (R298). -/
def execWdKick (e : Eng) (key : BitVec 32) (s : State) : Host.Outcome State Fault Refusal :=
  done (State.withDelivery (fun s => s.wdKick e key.toNat) s)

/-- WD_SECOND_EXPIRY (R298): no correct kick within 100 µs of the first. -/
def execWdSecondExpiry (e : Eng) (s : State) : Host.Outcome State Fault Refusal :=
  done (if s.timersRun e ∧ bit (s.ior e.val 0xF01C) 1 then State.withDelivery (fun s => s.failEngine e 1) s else s)

/-- The time that engine `e` has for a commit has passed: CKPT_LATE as it stands for it since the last one (R300, R310). -/
def ckptOver (s : State) (e : Eng) : Bool :=
  let last := (s.ior e.val 0xF02C).toNat + 4294967296 * (s.ior e.val 0xF030).toNat
  !bit (s.ior e.val 0xF028) 1 || decide ((last : Int) + 100000 * tget s.float.ckLate e ≤ s.tb)

/-- CKPT_LATE_EXPIRY (R300): no commit within CKPT_LATE of the one before, or within 10 ms of the start. PE16 commits no checkpoint. -/
def execCkptLateExpiry (e : Eng) (s : State) : Host.Outcome State Fault Refusal :=
  done (if s.timersRun e ∧ e ≠ pe16 ∧ ckptOver s e then State.withDelivery (fun s => s.failEngine e 4) s else s)

/-- ENG_CTRL_FAIL (R300). -/
def execEngCtrlFail (e : Eng) (s : State) : Host.Outcome State Fault Refusal :=
  done (State.withDelivery (fun s => s.failEngine e 5) s)

/-- ENG_CMD_FAIL_ENGINE (R310). -/
def execEngCmdFailEngine (s : State) : Host.Outcome State Fault Refusal := done (State.withDelivery State.cmdFailEngine s)

/-- ADOPT_TIMEOUT (R302): DONE was not written within 2 ms. -/
def execAdoptTimeout (s : State) : Host.Outcome State Fault Refusal :=
  done (if s.float.pending then State.withDelivery (fun s => s.failEngine pe16 7) s else s)

/-- The cores that a halt or release of core `c` reaches: the plumb pair halts and resumes as one. -/
def State.setHalted (s : State) (c : CoreId) (v : Bool) : State := { s with sec := { s.sec with halted := tset s.sec.halted c v } }

/-- DEBUG_HALT (R417): a core that executes halts, its watchdog and CKPT_LATE with it; what it has issued completes. Only where the
port is open. -/
def execDebugHalt (c : CoreId) (s : State) : Host.Outcome State Fault Refusal :=
  done (
    if s.debugOpen ∧ s.coreOn c then
      let s := s.settleCore c
      if s.coreOn c then s.setHalted c true else s
    else s)

/-- A word that the debug port writes in local D-space or the core page of a halted core (R417): FLG takes its defined bits, reserved
words and addresses without memory take nothing. -/
def CoreHw.debugWrite (c : CoreId) (h : CoreHw) (x : BitVec 32 × BitVec 32) : CoreHw :=
  let a := x.1.toNat / 4 * 4
  if a = Page.flg then { h with flg := x.2.toNat &&& Flag.all }
  else if Page.reserved ≤ a ∨ (dTop c ≤ a ∧ a < pageBase) then h
  else h.poke a (pageWord a x.2.toNat)

/-- DEBUG_RESUME (R417): a halted core goes on, with what the port has written meanwhile: DESIGN CHOICE (log 179). -/
def execDebugResume (c : CoreId) (mem : List (BitVec 32 × BitVec 32)) (s : State) : Host.Outcome State Fault Refusal :=
  done (
    if s.debugOpen then
      (if tget s.sec.halted c then s.setCore c (mem.foldl (CoreHw.debugWrite c) (s.core c)) else s).setHalted c false
    else s)

end Sys2Proof.Machine
end

