-- ==== Sys2Proof/Machine/Io.lean ====
section
/-! DEFINITION. The commands of the keeper mailboxes and the plain register writes of the cores. -/

namespace Sys2Proof.Machine

/-- MB_TX_WRITE (R297, R309). -/
def execMbTxWrite (e : Eng) (w : BitVec 32) (s : State) : Host.Outcome State Fault Refusal :=
  done (if s.engLive e then State.withDelivery (fun s => s.mbWrite e w.toNat) s else s)

/-- MB_RX_READ (R297): the next word of the response is taken. -/
def execMbRxRead (e : Eng) (s : State) : Host.Outcome State Fault Refusal := done (if s.engLive e then (s.mbRead e).2 else s)

/-- MB_ABORT (R297): the request in progress is discarded. -/
def execMbAbort (e : Eng) (s : State) : Host.Outcome State Fault Refusal := done (if s.engLive e then s.mbAbort e else s)

/-- REGISTER_WRITE (R11): a word written by core `c` to an IO register: RW fields take it, W1C and W1S bits act on a 1, the others
ignore it. -/
def execRegisterWrite (c : CoreId) (addr : BitVec 16) (val : BitVec 32) (s : State) : Host.Outcome State Fault Refusal :=
  done (if s.coreOn c ∧ addr.toNat % 4 = 0 then State.withDelivery (fun s => s.ioWrite c addr.toNat val.toNat) s else s)

end Sys2Proof.Machine
end

