-- ==== Sys2Proof/Machine/ZAlu.lean ====
section
/-! DEFINITION. The data instructions of the Zamor-32 (R319 to R323, Tables 11.4 and 11.6). -/

namespace Sys2Proof.Machine

/-- The fields of a long data instruction over s1 and s2. -/
def use2 (sub : Nat) (short : ZShort) : ZUse := { sizes := anySize, subs := [sub], s1 := true, s2 := true, d := .dest, short := short }

/-- The fields of a long data instruction over s1. -/
def use1 (sub : Nat) (short : ZShort) : ZUse := { sizes := anySize, subs := [sub], s1 := true, s2 := false, d := .dest, short := short }

/-- A comparison: D unused. -/
def useCmp (sub : Nat) (short : ZShort) : ZUse := { use2 sub short with d := .unused }

/-- A mnemonic that Table 11.6 alone lists. -/
def useShort (d : ZDest) (short : ZShort) : ZUse := { sizes := [], subs := [], s1 := false, s2 := false, d := d, short := short }

/-- An operation over the operands (Tables 11.4 and 11.6): its sources have the instruction's size, its destination `m` octets; the
result goes out and the flags follow. -/
def zCompute (u : ZUse) (m : Nat) (op : Nat → ZGot → Nat → ZRes) (c : CoreId) (z : ZIns) (s : State) : ZOut :=
  let h := s.core c
  match operandsOf u c h z (zOctets z) m with
  | .error e => zRaise s e 0
  | .ok g =>
    if z.ecc = .operand ∧ g.acc.loc then zRaise s xEccu 0
    else
      let r := op (8 * zOctets z) g h.flagsEx
      zDone (s.setCore c ((g.commit h m r.val).update r.mask r.flags))

/-- A plain data instruction whose destination has its size. -/
def zAlu (u : ZUse) (op : Nat → ZGot → Nat → ZRes) (c : CoreId) (z : ZIns) (s : State) : Host.Outcome State Fault Refusal :=
  done (s.zStep c z .plain u (zCompute u (zOctets z) op c z))

/-- MOV: the operation, copies s1. -/
def opMov (_ : Nat) (g : ZGot) (_ : Nat) : ZRes := plainRes g.a

/-- MOV (R319). -/
def execZMov (c : CoreId) (z : ZIns) (s : State) : Host.Outcome State Fault Refusal := zAlu (use1 0 .unary) opMov c z s

/-- ADD: the operation, s1 + s2. -/
def opAdd (w : Nat) (g : ZGot) (_ : Nat) : ZRes := addRes w g.a g.b 0

/-- ADD (R319). -/
def execZAdd (c : CoreId) (z : ZIns) (s : State) : Host.Outcome State Fault Refusal := zAlu (use2 0 .binary) opAdd c z s

/-- ADC: the operation, s1 + s2 + C. -/
def opAdc (w : Nat) (g : ZGot) (f : Nat) : ZRes := addRes w g.a g.b (carryOf f)

/-- ADC (R319). -/
def execZAdc (c : CoreId) (z : ZIns) (s : State) : Host.Outcome State Fault Refusal := zAlu (use2 1 .none) opAdc c z s

/-- SUB: the operation, s1 − s2. -/
def opSub (w : Nat) (g : ZGot) (_ : Nat) : ZRes := subRes w g.a g.b 0

/-- SUB (R319). -/
def execZSub (c : CoreId) (z : ZIns) (s : State) : Host.Outcome State Fault Refusal := zAlu (use2 0 .binary) opSub c z s

/-- SBC: the operation, s1 − s2 − (1 − C). -/
def opSbc (w : Nat) (g : ZGot) (f : Nat) : ZRes := subRes w g.a g.b (1 - carryOf f)

/-- SBC (R319). -/
def execZSbc (c : CoreId) (z : ZIns) (s : State) : Host.Outcome State Fault Refusal := zAlu (use2 1 .none) opSbc c z s

/-- AND: the operation, s1 AND s2. -/
def opAnd (w : Nat) (g : ZGot) (_ : Nat) : ZRes := znRes w (g.a &&& g.b)

/-- AND (R319). -/
def execZAnd (c : CoreId) (z : ZIns) (s : State) : Host.Outcome State Fault Refusal := zAlu (use2 0 .binary) opAnd c z s

/-- ANDN: the operation, s1 AND NOT s2. -/
def opAndn (w : Nat) (g : ZGot) (_ : Nat) : ZRes := znRes w (g.a &&& (2 ^ w - 1 - g.b))

/-- ANDN (R319). -/
def execZAndn (c : CoreId) (z : ZIns) (s : State) : Host.Outcome State Fault Refusal := zAlu (use2 1 .none) opAndn c z s

/-- OR: the operation, s1 OR s2. -/
def opOr (w : Nat) (g : ZGot) (_ : Nat) : ZRes := znRes w (g.a ||| g.b)

/-- OR (R319). -/
def execZOr (c : CoreId) (z : ZIns) (s : State) : Host.Outcome State Fault Refusal := zAlu (use2 0 .binary) opOr c z s

/-- XOR: the operation, s1 XOR s2. -/
def opXor (w : Nat) (g : ZGot) (_ : Nat) : ZRes := znRes w (g.a ^^^ g.b)

/-- XOR (R319). -/
def execZXor (c : CoreId) (z : ZIns) (s : State) : Host.Outcome State Fault Refusal := zAlu (use2 0 .binary) opXor c z s

/-- NOT: the operation, NOT s1. -/
def opNot (w : Nat) (g : ZGot) (_ : Nat) : ZRes := znRes w (2 ^ w - 1 - g.a)

/-- NOT (R319). -/
def execZNot (c : CoreId) (z : ZIns) (s : State) : Host.Outcome State Fault Refusal := zAlu (use1 0 .none) opNot c z s

/-- NEG: the operation, 0 − s1. -/
def opNeg (w : Nat) (g : ZGot) (_ : Nat) : ZRes := subRes w 0 g.a 0

/-- NEG (R319). -/
def execZNeg (c : CoreId) (z : ZIns) (s : State) : Host.Outcome State Fault Refusal := zAlu (use1 1 .none) opNeg c z s

/-- SHL: the operation, s1 shifted left. -/
def opShl (w : Nat) (g : ZGot) (_ : Nat) : ZRes := shlRes w g.a g.b

/-- SHL (R320). -/
def execZShl (c : CoreId) (z : ZIns) (s : State) : Host.Outcome State Fault Refusal := zAlu (use2 0 .none) opShl c z s

/-- SHR: the operation, s1 shifted right. -/
def opShr (w : Nat) (g : ZGot) (_ : Nat) : ZRes := shrRes w g.a g.b

/-- SHR (R320). -/
def execZShr (c : CoreId) (z : ZIns) (s : State) : Host.Outcome State Fault Refusal := zAlu (use2 1 .none) opShr c z s

/-- SAR: the operation, s1 shifted right with its sign. -/
def opSar (w : Nat) (g : ZGot) (_ : Nat) : ZRes := sarRes w g.a g.b

/-- SAR (R320). -/
def execZSar (c : CoreId) (z : ZIns) (s : State) : Host.Outcome State Fault Refusal := zAlu (use2 2 .none) opSar c z s

/-- ROR: the operation, s1 rotated right. -/
def opRor (w : Nat) (g : ZGot) (_ : Nat) : ZRes := rorRes w g.a g.b

/-- ROR (R320). -/
def execZRor (c : CoreId) (z : ZIns) (s : State) : Host.Outcome State Fault Refusal := zAlu (use2 3 .none) opRor c z s

/-- MUL: the operation, the low half of the product. -/
def opMul (w : Nat) (g : ZGot) (_ : Nat) : ZRes := znRes w (low w (g.a * g.b))

/-- MUL (R319). -/
def execZMul (c : CoreId) (z : ZIns) (s : State) : Host.Outcome State Fault Refusal := zAlu (use2 0 .none) opMul c z s

/-- MULHU: the operation, the high half of the unsigned product. -/
def opMulhu (w : Nat) (g : ZGot) (_ : Nat) : ZRes := znRes w (g.a * g.b / 2 ^ w)

/-- MULHU (R319). -/
def execZMulhu (c : CoreId) (z : ZIns) (s : State) : Host.Outcome State Fault Refusal := zAlu (use2 1 .none) opMulhu c z s

/-- MULHS: the operation, the high half of the signed product. -/
def opMulhs (w : Nat) (g : ZGot) (_ : Nat) : ZRes := znRes w (bitsOfInt w (signed w g.a * signed w g.b / (2 ^ w : Nat)))

/-- MULHS (R319). -/
def execZMulhs (c : CoreId) (z : ZIns) (s : State) : Host.Outcome State Fault Refusal := zAlu (use2 2 .none) opMulhs c z s

/-- DIVU: the operation, the unsigned quotient. -/
def opDivu (w : Nat) (g : ZGot) (_ : Nat) : ZRes := divuRes w g.a g.b

/-- DIVU (R320). -/
def execZDivu (c : CoreId) (z : ZIns) (s : State) : Host.Outcome State Fault Refusal := zAlu (use2 0 .none) opDivu c z s

/-- DIVS: the operation, the signed quotient. -/
def opDivs (w : Nat) (g : ZGot) (_ : Nat) : ZRes := divsRes w g.a g.b

/-- DIVS (R320). -/
def execZDivs (c : CoreId) (z : ZIns) (s : State) : Host.Outcome State Fault Refusal := zAlu (use2 1 .none) opDivs c z s

/-- REMU: the operation, the unsigned remainder. -/
def opRemu (w : Nat) (g : ZGot) (_ : Nat) : ZRes := remuRes w g.a g.b

/-- REMU (R320). -/
def execZRemu (c : CoreId) (z : ZIns) (s : State) : Host.Outcome State Fault Refusal := zAlu (use2 2 .none) opRemu c z s

/-- REMS: the operation, the signed remainder. -/
def opRems (w : Nat) (g : ZGot) (_ : Nat) : ZRes := remsRes w g.a g.b

/-- REMS (R320). -/
def execZRems (c : CoreId) (z : ZIns) (s : State) : Host.Outcome State Fault Refusal := zAlu (use2 3 .none) opRems c z s

/-- CMP: the operation, flags of s1 − s2. -/
def opCmp (w : Nat) (g : ZGot) (_ : Nat) : ZRes := subRes w g.a g.b 0

/-- CMP (R319). -/
def execZCmp (c : CoreId) (z : ZIns) (s : State) : Host.Outcome State Fault Refusal := zAlu (useCmp 0 .binary) opCmp c z s

/-- TST: the operation, flags of s1 AND s2. -/
def opTst (w : Nat) (g : ZGot) (_ : Nat) : ZRes := znRes w (g.a &&& g.b)

/-- TST (R319). -/
def execZTst (c : CoreId) (z : ZIns) (s : State) : Host.Outcome State Fault Refusal := zAlu (useCmp 1 .none) opTst c z s

/-- BREV: the operation, the bits of s1 in reverse order. -/
def opBrev (w : Nat) (g : ZGot) (_ : Nat) : ZRes := plainRes (revBits w g.a)

/-- BREV (R319). -/
def execZBrev (c : CoreId) (z : ZIns) (s : State) : Host.Outcome State Fault Refusal := zAlu (use1 0 .none) opBrev c z s

/-- PAR: the operation, the parity of s1. -/
def opPar (w : Nat) (g : ZGot) (_ : Nat) : ZRes := parRes w g.a

/-- PAR (R319). -/
def execZPar (c : CoreId) (z : ZIns) (s : State) : Host.Outcome State Fault Refusal := zAlu (use1 0 .none) opPar c z s

/-- ADDI: the operation, dn + SN. -/
def opAddi (w : Nat) (g : ZGot) (_ : Nat) : ZRes := addRes w g.a g.b 0

/-- ADDI (R321). -/
def execZAddi (c : CoreId) (z : ZIns) (s : State) : Host.Outcome State Fault Refusal := zAlu (useShort .dest .imm) opAddi c z s

/-- SUBI: the operation, dn − SN. -/
def opSubi (w : Nat) (g : ZGot) (_ : Nat) : ZRes := subRes w g.a g.b 0

/-- SUBI (R321). -/
def execZSubi (c : CoreId) (z : ZIns) (s : State) : Host.Outcome State Fault Refusal := zAlu (useShort .dest .imm) opSubi c z s

/-- MOVI: the operation, SN. -/
def opMovi (_ : Nat) (g : ZGot) (_ : Nat) : ZRes := plainRes g.a

/-- MOVI (R321). -/
def execZMovi (c : CoreId) (z : ZIns) (s : State) : Host.Outcome State Fault Refusal := zAlu (useShort .dest .load) opMovi c z s

/-- CMPI: the operation, flags of dn − SN. -/
def opCmpi (w : Nat) (g : ZGot) (_ : Nat) : ZRes := subRes w g.a g.b 0

/-- CMPI (R321). -/
def execZCmpi (c : CoreId) (z : ZIns) (s : State) : Host.Outcome State Fault Refusal := zAlu (useShort .unused .imm) opCmpi c z s

/-- SHLI: the operation, dn shifted left by SN. -/
def opShli (w : Nat) (g : ZGot) (_ : Nat) : ZRes := shlRes w g.a g.b

/-- SHLI (R321). -/
def execZShli (c : CoreId) (z : ZIns) (s : State) : Host.Outcome State Fault Refusal := zAlu (useShort .dest .imm) opShli c z s

/-- SHRI: the operation, dn shifted right by SN. -/
def opShri (w : Nat) (g : ZGot) (_ : Nat) : ZRes := shrRes w g.a g.b

/-- SHRI (R321). -/
def execZShri (c : CoreId) (z : ZIns) (s : State) : Host.Outcome State Fault Refusal := zAlu (useShort .dest .imm) opShri c z s

/-- The fields of EXTZ and EXTS: a byte or a half is the source. -/
def useExt (sub : Nat) : ZUse := { use1 sub .none with sizes := [0, 1] }

/-- EXTZ: the operation. -/
def opExtz (_ : Nat) (g : ZGot) (_ : Nat) : ZRes := znRes 32 g.a

/-- EXTZ (R319): the destination is a word. -/
def execZExtz (c : CoreId) (z : ZIns) (s : State) : Host.Outcome State Fault Refusal :=
  done (s.zStep c z .plain (useExt 0) (zCompute (useExt 0) 4 opExtz c z))

/-- EXTS: the operation. -/
def opExts (w : Nat) (g : ZGot) (_ : Nat) : ZRes := znRes 32 (bitsOfInt 32 (signed w g.a))

/-- EXTS (R319): the destination is a word. -/
def execZExts (c : CoreId) (z : ZIns) (s : State) : Host.Outcome State Fault Refusal :=
  done (s.zStep c z .plain (useExt 1) (zCompute (useExt 1) 4 opExts c z))

/-- The fields of SWAB: SUB 0 for a half, 0 to 2 for a word. -/
def useSwab (z : ZIns) : ZUse := { use1 0 .none with sizes := [1, 2], subs := if z.size = 1 then [0] else [0, 1, 2] }

/-- SWAB (R319). -/
def execZSwab (c : CoreId) (z : ZIns) (s : State) : Host.Outcome State Fault Refusal :=
  zAlu (useSwab z) (fun w g _ => swabRes w g.a z.sub.val) c z s

/-! The CRC unit (R323, R324). -/

/-- A step of the CRC unit over `n` octets of value `d`: CRCV is written through; none where CRCF holds the code 3. -/
def CoreHw.crcOver (h : CoreHw) (n d : Nat) : Option Nat :=
  (crcWidth (h.crcWord Page.crcf)).map fun w =>
    crcStep w (h.crcWord Page.crcp) ((h.crcWord Page.crcf).testBit 2) (8 * n) d (h.crcWord Page.crcv)

/-- The fields of CRC. -/
def useCrc : ZUse := { use1 0 .none with d := .unused, chk := .crc }

/-- What CRC does. -/
def zCrc (c : CoreId) (z : ZIns) (s : State) : ZOut :=
  let h := s.core c
  match operandsOf useCrc c h z (zOctets z) 4 with
  | .error e => zRaise s e 0
  | .ok g =>
    if z.ecc = .operand ∧ g.acc.loc then zRaise s xEccu 0
    else
      let v := (h.crcOver (zOctets z) g.a).getD 0
      zDone (s.setCore c (((g.pointers h).store true 4 Page.crcv v).update Flag.z (flagIf (decide (v = 0)) Flag.z)))

/-- CRC (R323). -/
def execZCrc (c : CoreId) (z : ZIns) (s : State) : Host.Outcome State Fault Refusal :=
  done (s.zStep c z .plain useCrc (zCrc c z))

/-- The presets of Table 11.7: CRCP, CRCF and CRCV. -/
def crcPreset (sub : Nat) : Nat × Nat × Nat :=
  if sub = 0 then (0x04C11DB7, 4, 0xFFFFFFFF) else if sub = 1 then (0x1021, 1, 0xFFFF) else (7, 2, 0)

/-- The fields of a control instruction that uses none. -/
def useNone (subs : List Nat) (short : ZShort) : ZUse :=
  { sizes := [3], subs := subs, s1 := false, s2 := false, d := .unused, short := short }

/-- What CRCSET does. -/
def zCrcset (c : CoreId) (z : ZIns) (s : State) : ZOut :=
  let p := crcPreset z.sub.val
  zDone (s.setCore c ((((s.core c).store true 4 Page.crcp p.1).store true 4 Page.crcf p.2.1).store true 4 Page.crcv p.2.2))

/-- CRCSET (R323). -/
def execZCrcset (c : CoreId) (z : ZIns) (s : State) : Host.Outcome State Fault Refusal :=
  done (s.zStep c z .plain (useNone [0, 1, 2] .none) (zCrcset c z))

end Sys2Proof.Machine
end

