-- ==== Sys2Proof/Machine/ZCtl.lean ====
section
/-! DEFINITION. The control instructions of the Zamor-32 (R287, R294, R322, R325, R330, Table 11.5), and interrupt entry. -/

namespace Sys2Proof.Machine

/-- A branch to `t`. -/
def zTake (s : State) (t : Nat) : ZOut := { st := s, next := .branch (some t), trap := none }

/-- The target of B and CALL: the branch address and twice the offset, mod 64 KiB. -/
def relTarget (h : CoreHw) (z : ZIns) : Nat := (((h.pc : Nat) + 2 * z.off.toInt) % 65536).toNat

/-- B (R322). -/
def execZB (c : CoreId) (z : ZIns) (s : State) : Host.Outcome State Fault Refusal :=
  done (s.zStep c z .branch (useNone [0] .none) fun s => zTake s (relTarget (s.core c) z))

/-- The fields of a control instruction over s1. -/
def useCtl1 : ZUse := { useNone [0] .none with s1 := true }

/-- A branch over the value of s1: an odd target raises ALIGN. `push` says whether the return address goes to the stack. -/
def zToS1 (c : CoreId) (z : ZIns) (push : CoreHw → Except Nat CoreHw) (s : State) : ZOut :=
  let h := s.core c
  match operandsOf useCtl1 c h z 4 4 with
  | .error e => zRaise s e 0
  | .ok g =>
    if g.a % 2 = 1 then zRaise s xAlign 0
    else
      match push (g.pointers h) with
      | .error e => zRaise s e 0
      | .ok k => if z.ecc = .operand ∧ g.acc.loc then zRaise s xEccu 0 else zTake (s.setCore c k) (g.a % 65536)

/-- BR (R322). -/
def execZBr (c : CoreId) (z : ZIns) (s : State) : Host.Outcome State Fault Refusal :=
  done (s.zStep c z .branch useCtl1 (zToS1 c z .ok))

/-- The return address of a call: that of the instruction after the second delay slot, whose lengths I-space gives. -/
def returnAddress (h : CoreHw) : Nat :=
  let a := (h.pc + 4) % 65536
  let b := (a + h.lengthAt a) % 65536
  (b + h.lengthAt b) % 65536

/-- The push of a call (R322): SP ← SP − 4, then the word at the new SP. -/
def pushReturn (c : CoreId) (h : CoreHw) : Except Nat CoreHw :=
  let a := wrap32 (h.word h.asAddress Page.sp + 4294967292)
  match checkAt c 4 a with
  | some e => .error e
  | none => .ok ((h.store false 4 Page.sp a).store false 4 a (returnAddress h))

/-- CALL (R322). -/
def execZCall (c : CoreId) (z : ZIns) (s : State) : Host.Outcome State Fault Refusal :=
  done (s.zStep c z .branch (useNone [0] .none) fun s =>
    match pushReturn c (s.core c) with
    | .error e => zRaise s e 0
    | .ok k => zTake (s.setCore c k) (relTarget (s.core c) z))

/-- CALLR (R322). -/
def execZCallr (c : CoreId) (z : ZIns) (s : State) : Host.Outcome State Fault Refusal :=
  done (s.zStep c z .branch useCtl1 (zToS1 c z (pushReturn c)))

/-- What RET does: the word at SP, SP ← SP + 4 (R322). -/
def zRet (c : CoreId) (z : ZIns) (s : State) : ZOut :=
  let h := s.core c
  let a := h.word h.asAddress Page.sp
  match checkAt c 4 a with
  | some e => zRaise s e 0
  | none =>
    let v := h.word h.asOperand a
    if v % 2 = 1 then zRaise s xAlign 0
    else if z.ecc = .operand ∧ a < dTop c then zRaise s xEccu 0
    else zTake (s.setCore c (h.store false 4 Page.sp (wrap32 (a + 4)))) (v % 65536)

/-- RET (R322). -/
def execZRet (c : CoreId) (z : ZIns) (s : State) : Host.Outcome State Fault Refusal :=
  done (s.zStep c z .branch (useNone [0] (.misc [3] false)) (zRet c z))

/-- The core that RETE leaves (R294, R329): at EPC, IE and EXL from PIE and PEXL, with the slots that DSLEFT counts and their target
still on the stack, or before a prefix to re-enter. -/
def CoreHw.returned (h : CoreHw) : CoreHw :=
  let epc := h.word everything Page.epc
  let cause := h.word everything Page.ecause
  let ds := cause / 256 % 4
  let pc := epc % 65536 / 2 * 2
  { h with
    flg := mergeBits h.flg (Flag.ie + Flag.exl) (flagIf (cause.testBit 10) Flag.ie + flagIf (cause.testBit 11) Flag.exl)
    pc := pc, slots := ds, target := if ds = 0 then none else some .stack
    rpt := if epc % 2 = 1 then some { addr := pc, count := none, begun := false, ran := false } else none }

/-- What RETE does. -/
def zRete (c : CoreId) (s : State) : ZOut :=
  let t := s.settleCore c
  { st := if t.coreRuns c then t.setCore c (t.core c).returned else t, next := .jump, trap := none }

/-- RETE (R294). -/
def execZRete (c : CoreId) (z : ZIns) (s : State) : Host.Outcome State Fault Refusal :=
  done (s.zStep c z .rete (useNone [0] .none) (zRete c))

/-- The fields of RPT. -/
def useRpt : ZUse := { useNone [0] (.misc [0, 1] true) with s1 := true }

/-- What RPT does: its count waits for the string instruction of the pair; re-entered after RETE, it loads none (R325, R329). -/
def zRpt (c : CoreId) (z : ZIns) (s : State) : ZOut :=
  let h := s.core c
  if h.reentry then { st := s, next := .prefixed { addr := h.prefixAddr, count := none, begun := true, ran := false }, trap := none }
  else
    match operandsOf useRpt c h z 4 4 with
    | .error e => zRaise s e 0
    | .ok g =>
      if z.ecc = .operand ∧ g.acc.loc then zRaise s xEccu 0
      else { st := s.setCore c (g.pointers h), next := .prefixed { addr := h.pc, count := some g.a, begun := false, ran := false }, trap := none }

/-- RPT (R325). -/
def execZRpt (c : CoreId) (z : ZIns) (s : State) : Host.Outcome State Fault Refusal :=
  done (s.zStep c z .rpt useRpt (zRpt c z))

/-- What PSET does (Tables 11.5 and 11.6): the condition as OR sees the flags, PF as EX does. The bits of D above the code are unused
and hold 0. -/
def zPset (c : CoreId) (z : ZIns) (s : State) : ZOut :=
  let h := s.core c
  let sub := if z.short then (if z.s1.toNat / 8 % 2 = 1 then 3 else 0) else z.sub.val
  zDone (s.setCore c (h.update Flag.pf (psetFlag (condHolds (psetCode z) h.flagsRead) (h.flagsEx.testBit 4) sub)))

/-- The fields of PSET. -/
def usePset : ZUse := { useNone [0, 1, 2, 3] (.misc [5] true) with d := .dest, chk := .pset }

/-- PSET (R321). -/
def execZPset (c : CoreId) (z : ZIns) (s : State) : Host.Outcome State Fault Refusal :=
  done (s.zStep c z .plain usePset (zPset c z))

/-- WAIT (R330). -/
def execZWait (c : CoreId) (z : ZIns) (s : State) : Host.Outcome State Fault Refusal :=
  done (s.zStep c z .plain (useNone [0] (.misc [4] false)) fun s => { st := s, next := .wait, trap := none })

/-- NOP (R321). -/
def execZNop (c : CoreId) (z : ZIns) (s : State) : Host.Outcome State Fault Refusal :=
  done (s.zStep c z .plain (useNone [0] (.misc [2] false)) zDone)

/-! Interrupts (R292, R294, R296). -/

/-- The lowest bit that is set. -/
def lowestBit (v : Nat) : Option Nat := (List.range 16).find? fun i => v.testBit i

/-- INTERRUPT_ENTRY (R296): the highest pending line is taken while IE is set. The manual gives the plumb pair no lines. -/
def execInterruptEntry (c : CoreId) (s : State) : Host.Outcome State Fault Refusal :=
  done (
    let h := s.core c
    if c.val = 17 ∨ s.coreOn c = false ∨ h.flagsEx.testBit 8 = false ∨ h.interruptible = false ∨
        ¬ (h.run = .running ∨ h.run = .waiting) then s
    else
      match lowestBit (pendingLines s (Fin.ofNat 17 c.val)) with
      | none => s
      | some n => s.enter c (16 + n) (if h.resumed || h.reentry then h.prefixAddr + 1 else h.pc) 0 0)

end Sys2Proof.Machine
end

