-- ==== Sys2Proof/Machine/ZIo.lean ====
section
/-! DEFINITION. IN, OUT, IRD, IWR and the block transfers (R330 to R332). -/

namespace Sys2Proof.Machine

/-- The exception of an IO access at address `a` (R282, R330, R333): SPACE, ALIGN, IOTO. -/
def ioTrap (s : State) (c : CoreId) (a : Nat) : Option Nat :=
  match ioFault s c (a / 4 * 4) with
  | some .space => some xSpace
  | some .ioto => if a % 4 ≠ 0 then some xAlign else some xIoto
  | none => if a % 4 ≠ 0 then some xAlign else none

/-- The exception of an IO access beside its operands: an error in local SRAM comes before IOTO, after the others (R333). DETAIL holds
the IO address, but for ECCU. -/
def ioRaise (s : State) (c : CoreId) (z : ZIns) (loc : Bool) (a : Nat) : Option ZTrap :=
  let ecc := decide (z.ecc = .operand) && loc
  match ioTrap s c a with
  | some e => if e = xIoto ∧ ecc then some { code := xEccu, detail := 0 } else some { code := e, detail := a }
  | none => if ecc then some { code := xEccu, detail := 0 } else none

/-- The fields of IN. -/
def useIn : ZUse := { use1 0 .unary with sizes := [2] }

/-- What IN does: IO-space is read in EX, a register that clears on reading is cleared. -/
def zIn (c : CoreId) (z : ZIns) (s : State) : ZOut :=
  match operandsOf useIn c (s.core c) z 4 4 with
  | .error e => zRaise s e 0
  | .ok g =>
    match ioRaise s c z g.acc.loc (g.a % 65536) with
    | some t => zRaise s t.code t.detail
    | none =>
      let r := s.ioRead c (g.a % 65536)
      zDone (r.2.setCore c (g.commit (r.2.core c) 4 r.1))

/-- IN (R330). -/
def execZIn (c : CoreId) (z : ZIns) (s : State) : Host.Outcome State Fault Refusal :=
  done (s.zStep c z .plain useIn (zIn c z))

/-- The fields of OUT. -/
def useOut : ZUse := { use2 0 .binary with sizes := [2], d := .unused }

/-- What OUT does: the write is issued, and lands six instructions on (R285). -/
def zOut (c : CoreId) (z : ZIns) (s : State) : ZOut :=
  let h := s.core c
  match operandsOf useOut c h z 4 4 with
  | .error e => zRaise s e 0
  | .ok g =>
    match ioRaise s c z g.acc.loc (g.a % 65536) with
    | some t => zRaise s t.code t.detail
    | none => zDone (s.setCore c { g.pointers h with posted := h.posted ++ [(h.idx, g.a % 65536, g.b)] })

/-- OUT (R330). -/
def execZOut (c : CoreId) (z : ZIns) (s : State) : Host.Outcome State Fault Refusal :=
  done (s.zStep c z .plain useOut (zOut c z))

/-- The fields of IRD. -/
def useIrd : ZUse := { use1 0 .none with sizes := [1, 2] }

/-- The halfwords that an I-space access of `n` octets at `a` reaches. -/
def iHalves (n a : Nat) : List Nat := if n = 2 then [a % 65536] else [a % 65536, (a + 2) % 65536]

/-- A word of I-space: the halfword at the address above the next (R331). The contents of keeper ROM are not given, so what a read of
it answers is free, a halfword each. -/
def iRead (s : State) (c : CoreId) (n a : Nat) : Nat × State :=
  let rom (x : Nat) : Bool := decide (c.val = 17) && decide (x < 0x4000)
  let half (x : Nat) : Nat := if rom x then Config.freeNat s.fresh / (x % 4 / 2 * 65535 + 1) % 65536 else (s.core c).half x
  ((iHalves n a).foldl (fun v x => v * 65536 + half x) 0, if (iHalves n a).any rom then s.draw else s)

/-- What IRD does. -/
def zIrd (c : CoreId) (z : ZIns) (s : State) : ZOut :=
  let n := zOctets z
  match operandsOf useIrd c (s.core c) z n n with
  | .error e => zRaise s e 0
  | .ok g =>
    let a := g.a % 65536
    if a % 2 = 1 then zRaise s xAlign 0
    else if z.ecc = .operand ∧ g.acc.loc then zRaise s xEccu 0
    else
      let r := iRead s c n a
      zDone (r.2.setCore c (g.commit (r.2.core c) n r.1))

/-- IRD (R331). At half size the address operand is a half, which holds all of it. -/
def execZIrd (c : CoreId) (z : ZIns) (s : State) : Host.Outcome State Fault Refusal :=
  done (s.zStep c z .plain useIrd (zIrd c z))

/-- The fields of IWR. -/
def useIwr : ZUse := { use2 0 .none with sizes := [1, 2], d := .unused }

/-- What IWR does: SPACE on an engine and on keeper ROM (R278, R331). -/
def zIwr (c : CoreId) (z : ZIns) (s : State) : ZOut :=
  let h := s.core c
  let n := zOctets z
  match operandsOf useIwr c h z n n with
  | .error e => zRaise s e 0
  | .ok g =>
    let a := g.a % 65536
    if c.val ≠ 17 ∨ (iHalves n a).any (fun x => decide (x < 0x4000)) then zRaise s xSpace 0
    else if a % 2 = 1 then zRaise s xAlign 0
    else if z.ecc = .operand ∧ g.acc.loc then zRaise s xEccu 0
    else
      let k := g.pointers h
      let k := if n = 2 then k.store false 2 (iPlace a) g.b
        else (k.store false 2 (iPlace a) (g.b / 65536)).store false 2 (iPlace (a + 2)) (g.b % 65536)
      zDone (s.setCore c k)

/-- IWR (R331). -/
def execZIwr (c : CoreId) (z : ZIns) (s : State) : Host.Outcome State Fault Refusal :=
  done (s.zStep c z .plain useIwr (zIwr c z))

/-- The fields of PULL and PUSH: D is a source. -/
def useXfer : ZUse := { sizes := [3], subs := [0, 1, 2, 3], s1 := true, s2 := true, d := .source, short := .none }

/-- What PULL and PUSH do: the transfer starts, or is DENIED (R288, R289). -/
def zXfer (push : Bool) (c : CoreId) (z : ZIns) (s : State) : ZOut :=
  let h := s.core c
  match operandsOf useXfer c h z 4 4 with
  | .error e => zRaise s e 0
  | .ok g =>
    if z.ecc = .operand ∧ g.acc.loc then zRaise s xEccu 0
    else zDone ((s.setCore c (g.pointers h)).startXfer c push g.e g.a g.b z.sub)

/-- PULL (R332). -/
def execZPull (c : CoreId) (z : ZIns) (s : State) : Host.Outcome State Fault Refusal :=
  done (s.zStep c z .plain useXfer (zXfer false c z))

/-- PUSH (R332). -/
def execZPush (c : CoreId) (z : ZIns) (s : State) : Host.Outcome State Fault Refusal :=
  done (s.zStep c z .plain useXfer (zXfer true c z))

end Sys2Proof.Machine
end

