-- ==== Sys2Proof/Machine/ZStr.lean ====
section
/-! DEFINITION. The string instructions of the Zamor-32 (R325 to R329, Table 11.8). -/

namespace Sys2Proof.Machine

/-- The string instructions. -/
inductive StrOp where
  | movs | fils | cmps | scns | crcs | pars
  deriving DecidableEq, Repr

/-- A string instruction between two iterations: the core with what the iterations so far have written, and the flags of the last. -/
structure StrRun where
  h : CoreHw
  mask : Nat
  flags : Nat

/-- SRC as the string unit holds it: explicit writes from i + 5 on (R327). -/
def CoreHw.unitSrc (h : CoreHw) : Nat := h.word (h.asUnit 5) Page.src

/-- DST as the string unit holds it. -/
def CoreHw.unitDst (h : CoreHw) : Nat := h.word (h.asUnit 5) Page.dst

/-- An element of `n` octets at `a` would overlap the RC word. -/
def onRc (n a : Nat) : Bool := (List.range n).any fun i => decide (Page.rc ≤ wrap32 (a + i) ∧ wrap32 (a + i) < Page.rc + 4)

/-- Whether an iteration reads [SRC]. -/
def readsSrc (k : StrOp) : Bool := decide (k ≠ .fils)

/-- Whether an iteration uses [DST]. -/
def usesDst (k : StrOp) : Bool := decide (k = .movs ∨ k = .fils ∨ k = .cmps)

/-- The exception of an iteration (R328, R333): RPTHZ, then SRC, then DST, then an error in local SRAM. -/
def strTrap (k : StrOp) (c : CoreId) (z : ZIns) (n : Nat) (rep : Bool) (h : CoreHw) : Option Nat :=
  if rep ∧ (k = .movs ∨ k = .fils) ∧ onRc n h.unitDst = true then some xRpthz
  else
    match (if readsSrc k then checkAt c n h.unitSrc else none), (if usesDst k then checkAt c n h.unitDst else none) with
    | some e, _ => some e
    | none, some e => some e
    | none, none =>
      if z.ecc = .operand ∧ ((readsSrc k ∧ h.unitSrc < dTop c) ∨ (k = .cmps ∧ h.unitDst < dTop c)) then some xEccu else none

/-- What an iteration does, with the element at SRC, the element at DST and s1 (Table 11.8): a write at DST or to CRCV, and flags. -/
def strEffect (k : StrOp) (n v : Nat) (x : StrRun) : StrRun :=
  let h := x.h
  let src := h.load h.asElement n h.unitSrc
  let w := 8 * n
  match k with
  | .movs => { x with h := h.store false n h.unitDst src }
  | .fils => { x with h := h.store false n h.unitDst v }
  | .cmps =>
    let r := subRes w src (h.load h.asElement n h.unitDst) 0
    { x with mask := r.mask, flags := r.flags }
  | .scns =>
    let r := subRes w src v 0
    { x with mask := r.mask, flags := r.flags }
  | .crcs =>
    let q := (h.crcOver n src).getD 0
    { h := h.store true 4 Page.crcv q, mask := Flag.z, flags := flagIf (decide (q = 0)) Flag.z }
  | .pars =>
    let pf := if x.mask = 0 then h.flagsEx / Flag.pf % 2 else x.flags / Flag.pf % 2
    { x with mask := Flag.pf, flags := (pf + parity w src) % 2 * Flag.pf }

/-- The pointers of an iteration move on; each is written through (R327). -/
def strMove (k : StrOp) (n : Nat) (src dst : Nat) (x : StrRun) : StrRun :=
  let h := if readsSrc k then x.h.store true 4 Page.src (wrap32 (src + n)) else x.h
  { x with h := if usesDst k then h.store true 4 Page.dst (wrap32 (dst + n)) else h }

/-- One iteration. -/
def strIter (k : StrOp) (c : CoreId) (z : ZIns) (n v : Nat) (rep : Bool) (x : StrRun) : Except Nat StrRun :=
  match strTrap k c z n rep x.h with
  | some e => .error e
  | none => .ok (strMove k n x.h.unitSrc x.h.unitDst (strEffect k n v x))

/-- The early end of CMPS and SCNS (R326): SUB 1 at an iteration that clears Z, SUB 2 at one that sets it. -/
def strEnds (k : StrOp) (sub flags : Nat) : Bool :=
  decide (k = .cmps ∨ k = .scns) &&
    ((decide (sub = 1) && !flags.testBit 0) || (decide (sub = 2) && flags.testBit 0))

/-- How a run of iterations ends: what they leave, how many were done, whether it ended early, and the exception that one raised. -/
structure StrEnd where
  x : StrRun
  count : Nat
  early : Bool
  trap : Option Nat

/-- The iterations of a repeat, `fuel` of them at most; each decrements RC. -/
def strLoop (k : StrOp) (c : CoreId) (z : ZIns) (n v : Nat) : Nat → Nat → StrRun → StrEnd
  | 0, done, x => { x := x, count := done, early := false, trap := none }
  | fuel + 1, done, x =>
    match strIter k c z n v true x with
    | .error e => { x := x, count := done, early := false, trap := some e }
    | .ok y =>
      let y := { y with h := y.h.store true 4 Page.rc (x.h.unitRc - 1) }
      if strEnds k z.sub.val y.flags then { x := y, count := done + 1, early := true, trap := none }
      else strLoop k c z n v fuel (done + 1) y

/-- The iterations of one issue: those of the repeat, up to where an interrupt line stops it, or one. -/
def strRun (k : StrOp) (c : CoreId) (z : ZIns) (n v : Nat) (lim : Option Nat) (h : CoreHw) (x : StrRun) : StrEnd :=
  if h.inRepeat then
    strLoop k c z n v (match lim with | some m => min (max 1 m) h.unitRc | none => h.unitRc) 0 x
  else
    match strIter k c z n v false x with
    | .error e => { x := x, count := 0, early := false, trap := some e }
    | .ok y => { x := y, count := 1, early := false, trap := none }

/-- The fields of a string instruction. -/
def useStr (k : StrOp) : ZUse :=
  { sizes := anySize, subs := if k = .cmps ∨ k = .scns then [0, 1, 2] else [0], s1 := decide (k = .fils ∨ k = .scns), s2 := false
    d := .unused, short := .none, chk := if k = .crcs then .crc else .none }

/-- The PF that a repeat of PARS has gathered where it stopped between two iterations: its own update, still on its way. -/
def CoreHw.gathered (h : CoreHw) : Option Nat :=
  ((h.flgPend.filter fun w => decide (w.land = h.idx + 4 ∧ w.mask = Flag.pf)).getLast?).map (·.val)

/-- A string instruction before its first iteration of this issue; a repeat of PARS goes on from what it has gathered (R326). -/
def strStart (k : StrOp) (h : CoreHw) : StrRun :=
  match (if k = .pars ∧ h.between then h.gathered else none) with
  | some v => { h := h, mask := Flag.pf, flags := v }
  | none => { h := h, mask := 0, flags := 0 }

/-- What a string instruction does. One that has done no iteration leaves nothing where it raises an exception. -/
def zString (k : StrOp) (c : CoreId) (z : ZIns) (lim : Option Nat) (s : State) : ZOut :=
  let h := s.core c
  let n := zOctets z
  match operandsOf (useStr k) c h z n n with
  | .error e => zRaise s e 0
  | .ok g =>
    if z.ecc = .operand ∧ g.acc.loc then zRaise s xEccu 0
    else
      let r := strRun k c z n g.a lim h (strStart k (g.pointers h))
      let t := s.setCore c (r.x.h.update r.x.mask r.x.flags)
      match r.trap with
      | some e => zRaise (if r.count = 0 then s else t) e 0
      | none => { st := t, next := if h.inRepeat && !r.early && decide (r.x.h.unitRc ≠ 0) then .hold else .seq, trap := none }

/-- MOVS (R326). -/
def execZMovs (c : CoreId) (z : ZIns) (lim : Option Nat) (s : State) : Host.Outcome State Fault Refusal :=
  done (s.zStep c z .str (useStr .movs) (zString .movs c z lim))

/-- FILS (R326). -/
def execZFils (c : CoreId) (z : ZIns) (lim : Option Nat) (s : State) : Host.Outcome State Fault Refusal :=
  done (s.zStep c z .str (useStr .fils) (zString .fils c z lim))

/-- CMPS (R326). -/
def execZCmps (c : CoreId) (z : ZIns) (lim : Option Nat) (s : State) : Host.Outcome State Fault Refusal :=
  done (s.zStep c z .str (useStr .cmps) (zString .cmps c z lim))

/-- SCNS (R326). -/
def execZScns (c : CoreId) (z : ZIns) (lim : Option Nat) (s : State) : Host.Outcome State Fault Refusal :=
  done (s.zStep c z .str (useStr .scns) (zString .scns c z lim))

/-- CRCS (R326). -/
def execZCrcs (c : CoreId) (z : ZIns) (lim : Option Nat) (s : State) : Host.Outcome State Fault Refusal :=
  done (s.zStep c z .str (useStr .crcs) (zString .crcs c z lim))

/-- PARS (R326). -/
def execZPars (c : CoreId) (z : ZIns) (lim : Option Nat) (s : State) : Host.Outcome State Fault Refusal :=
  done (s.zStep c z .str (useStr .pars) (zString .pars c z lim))

end Sys2Proof.Machine
end

