-- ==== Sys2Proof/Machine/Dispatch.lean ====
section
/-! DEFINITION. The dispatch of a command to its meaning, one arm per command. -/

namespace Sys2Proof.Machine

def exec (i : Instr) (s : State) : Host.Outcome State Fault Refusal :=
  match i with
  | .lathBlockFail n a b => Sys2Proof.Machine.execLathBlockFail n a b s
  | .lathLockLoss n => Sys2Proof.Machine.execLathLockLoss n s
  | .linkHoldExpiry n => Sys2Proof.Machine.execLinkHoldExpiry n s
  | .lathLinkUp n => Sys2Proof.Machine.execLathLinkUp n s
  | .dpTripBlock p c => Sys2Proof.Machine.execDpTripBlock p c s
  | .refclkMeasure r => Sys2Proof.Machine.execRefclkMeasure r s
  | .refclkLoss => Sys2Proof.Machine.execRefclkLoss s
  | .holdoverExpiry => Sys2Proof.Machine.execHoldoverExpiry s
  | .refclkReturn => Sys2Proof.Machine.execRefclkReturn s
  | .aonCrystalStop => Sys2Proof.Machine.execAonCrystalStop s
  | .hodWord c x cyc sense => Sys2Proof.Machine.execHodWord c x cyc sense s
  | .tqWrite => Sys2Proof.Machine.execTqWrite s
  | .powerSample x => Sys2Proof.Machine.execPowerSample x s
  | .ccTerminationChange p a b => Sys2Proof.Machine.execCcTerminationChange p a b s
  | .ccDebounceExpiry p => Sys2Proof.Machine.execCcDebounceExpiry p s
  | .detachConfirmed p => Sys2Proof.Machine.execDetachConfirmed p s
  | .drpToggle p => Sys2Proof.Machine.execDrpToggle p s
  | .tryTimerExpiry p => Sys2Proof.Machine.execTryTimerExpiry p s
  | .errorRecoveryEnd p => Sys2Proof.Machine.execErrorRecoveryEnd p s
  | .portReset p => Sys2Proof.Machine.execPortReset p s
  | .vconnLimitExpiry p => Sys2Proof.Machine.execVconnLimitExpiry p s
  | .rxRequest p id rev3 epr pos v arg pdo => Sys2Proof.Machine.execRxRequest p id rev3 epr pos v arg pdo s
  | .rxEprModeEnter p id rev3 pdp => Sys2Proof.Machine.execRxEprModeEnter p id rev3 pdp s
  | .rxEprModeExit p id rev3 => Sys2Proof.Machine.execRxEprModeExit p id rev3 s
  | .rxEprKeepalive p id rev3 => Sys2Proof.Machine.execRxEprKeepalive p id rev3 s
  | .rxPrSwap p id rev3 => Sys2Proof.Machine.execRxPrSwap p id rev3 s
  | .rxDrSwap p id rev3 => Sys2Proof.Machine.execRxDrSwap p id rev3 s
  | .rxVconnSwap p id rev3 => Sys2Proof.Machine.execRxVconnSwap p id rev3 s
  | .rxHardReset p => Sys2Proof.Machine.execRxHardReset p s
  | .rxSoftReset p id rev3 => Sys2Proof.Machine.execRxSoftReset p id rev3 s
  | .rxDiscoverIdentity p id rev3 => Sys2Proof.Machine.execRxDiscoverIdentity p id rev3 s
  | .rxAbsentFunction p id rev3 a => Sys2Proof.Machine.execRxAbsentFunction p id rev3 a s
  | .rxUnsupported p id rev3 bist => Sys2Proof.Machine.execRxUnsupported p id rev3 bist s
  | .rxUnexpected p id rev3 m => Sys2Proof.Machine.execRxUnexpected p id rev3 m s
  | .rxSinkCapabilities p id rev3 frs => Sys2Proof.Machine.execRxSinkCapabilities p id rev3 frs s
  | .rxSecurityResponse p id rev3 last => Sys2Proof.Machine.execRxSecurityResponse p id rev3 last s
  | .pdGoodcrcRx p rev3 => Sys2Proof.Machine.execPdGoodcrcRx p rev3 s
  | .pdRetryTimeout p => Sys2Proof.Machine.execPdRetryTimeout p s
  | .senderResponseExpiry p => Sys2Proof.Machine.execSenderResponseExpiry p s
  | .sourceCapRepeat p => Sys2Proof.Machine.execSourceCapRepeat p s
  | .cableDiscovery p => Sys2Proof.Machine.execCableDiscovery p s
  | .cableDiscoveryRetry p => Sys2Proof.Machine.execCableDiscoveryRetry p s
  | .transitionStart p => Sys2Proof.Machine.execTransitionStart p s
  | .vsetSlewEnd p => Sys2Proof.Machine.execVsetSlewEnd p s
  | .transDone p => Sys2Proof.Machine.execTransDone p s
  | .psRdySend p => Sys2Proof.Machine.execPsRdySend p s
  | .transitionTimeout p => Sys2Proof.Machine.execTransitionTimeout p s
  | .ppsTimeout p => Sys2Proof.Machine.execPpsTimeout p s
  | .eprKeepaliveTimeout p => Sys2Proof.Machine.execEprKeepaliveTimeout p s
  | .frSwapSignal p => Sys2Proof.Machine.execFrSwapSignal p s
  | .frsGateOn p => Sys2Proof.Machine.execFrsGateOn p s
  | .frsFail p => Sys2Proof.Machine.execFrsFail p s
  | .authVerifyDone p ok root => Sys2Proof.Machine.execAuthVerifyDone p ok root s
  | .psHardResetExpiry p => Sys2Proof.Machine.execPsHardResetExpiry p s
  | .srcRecoverExpiry p => Sys2Proof.Machine.execSrcRecoverExpiry p s
  | .hardResetComplete p => Sys2Proof.Machine.execHardResetComplete p s
  | .sinkTxWaitEnd p => Sys2Proof.Machine.execSinkTxWaitEnd p s
  | .bistCarrierEnd p => Sys2Proof.Machine.execBistCarrierEnd p s
  | .portCmdHardReset p => Sys2Proof.Machine.execPortCmdHardReset p s
  | .portCmdSoftReset p => Sys2Proof.Machine.execPortCmdSoftReset p s
  | .portCmdReadvertise p => Sys2Proof.Machine.execPortCmdReadvertise p s
  | .portCmdPrSwap p => Sys2Proof.Machine.execPortCmdPrSwap p s
  | .portCmdDrSwap p => Sys2Proof.Machine.execPortCmdDrSwap p s
  | .portCmdVconnSwap p => Sys2Proof.Machine.execPortCmdVconnSwap p s
  | .portCmdErrorRecovery p => Sys2Proof.Machine.execPortCmdErrorRecovery p s
  | .portCmdClearCounters p => Sys2Proof.Machine.execPortCmdClearCounters p s
  | .portCmdDisable p => Sys2Proof.Machine.execPortCmdDisable p s
  | .portCmdEnable p => Sys2Proof.Machine.execPortCmdEnable p s
  | .portCmdAuthenticate p => Sys2Proof.Machine.execPortCmdAuthenticate p s
  | .lqAdmit p w => Sys2Proof.Machine.execLqAdmit p w s
  | .lqReserve p w => Sys2Proof.Machine.execLqReserve p w s
  | .lqRelease p => Sys2Proof.Machine.execLqRelease p s
  | .lqLower p w => Sys2Proof.Machine.execLqLower p w s
  | .waitReadvertise p => Sys2Proof.Machine.execWaitReadvertise p s
  | .stripRecompute => Sys2Proof.Machine.execStripRecompute s
  | .slotArmed t ok => Sys2Proof.Machine.execSlotArmed t ok s
  | .feedLossTerm f c => Sys2Proof.Machine.execFeedLossTerm f c s
  | .tileSliceApply n t => Sys2Proof.Machine.execTileSliceApply n t s
  | .ledgerShedApply t => Sys2Proof.Machine.execLedgerShedApply t s
  | .peerShedIn => Sys2Proof.Machine.execPeerShedIn s
  | .shedNRelease => Sys2Proof.Machine.execShedNRelease s
  | .shedNStuck => Sys2Proof.Machine.execShedNStuck s
  | .derateSample => Sys2Proof.Machine.execDerateSample s
  | .shelfTempExpiry => Sys2Proof.Machine.execShelfTempExpiry s
  | .secondStage => Sys2Proof.Machine.execSecondStage s
  | .shedReadvertise p => Sys2Proof.Machine.execShedReadvertise p s
  | .restoreStart => Sys2Proof.Machine.execRestoreStart s
  | .restoreStep => Sys2Proof.Machine.execRestoreStep s
  | .ledgerCmdRecompute => Sys2Proof.Machine.execLedgerCmdRecompute s
  | .ledgerCmdForgetPeer => Sys2Proof.Machine.execLedgerCmdForgetPeer s
  | .ledgerCmdClearFlags => Sys2Proof.Machine.execLedgerCmdClearFlags s
  | .ledgerCmdAbortRestore => Sys2Proof.Machine.execLedgerCmdAbortRestore s
  | .ledgerCmdResumeRestore => Sys2Proof.Machine.execLedgerCmdResumeRestore s
  | .shedCmdApply n => Sys2Proof.Machine.execShedCmdApply n s
  | .shedCmdRelease n => Sys2Proof.Machine.execShedCmdRelease n s
  | .ledgerFrameRx f => Sys2Proof.Machine.execLedgerFrameRx f s
  | .ledgerFrameTx => Sys2Proof.Machine.execLedgerFrameTx s
  | .reconRoundOpen => Sys2Proof.Machine.execReconRoundOpen s
  | .reconSlotExpiry node => Sys2Proof.Machine.execReconSlotExpiry node s
  | .openerSilent => Sys2Proof.Machine.execOpenerSilent s
  | .reconRoundEnd => Sys2Proof.Machine.execReconRoundEnd s
  | .overcommitLowering => Sys2Proof.Machine.execOvercommitLowering s
  | .restoreTurnTimeout => Sys2Proof.Machine.execRestoreTurnTimeout s
  | .ppCtrlEn p => Sys2Proof.Machine.execPpCtrlEn p s
  | .ppCtrlSink p => Sys2Proof.Machine.execPpCtrlSink p s
  | .ppArm p => Sys2Proof.Machine.execPpArm p s
  | .ppFrsArm p => Sys2Proof.Machine.execPpFrsArm p s
  | .vsetTrimStep p => Sys2Proof.Machine.execVsetTrimStep p s
  | .rampGateRise p => Sys2Proof.Machine.execRampGateRise p s
  | .rampTimeout p => Sys2Proof.Machine.execRampTimeout p s
  | .pgQualComplete p ftStarts => Sys2Proof.Machine.execPgQualComplete p ftStarts s
  | .pgDeglitchDrop p => Sys2Proof.Machine.execPgDeglitchDrop p s
  | .faultTimerExpiry p => Sys2Proof.Machine.execFaultTimerExpiry p s
  | .faultTimerIdle p => Sys2Proof.Machine.execFaultTimerIdle p s
  | .soaUpdate p l => Sys2Proof.Machine.execSoaUpdate p l s
  | .thermalUpdate p l => Sys2Proof.Machine.execThermalUpdate p l s
  | .ntcRead p x => Sys2Proof.Machine.execNtcRead p x s
  | .ntcStartWindowEnd p => Sys2Proof.Machine.execNtcStartWindowEnd p s
  | .pathREstimate p m => Sys2Proof.Machine.execPathREstimate p m s
  | .dpBlind p => Sys2Proof.Machine.execDpBlind p s
  | .faultProtocolReset p => Sys2Proof.Machine.execFaultProtocolReset p s
  | .tileResult p volt x => Sys2Proof.Machine.execTileResult p volt x s
  | .dschMaxExpiry p => Sys2Proof.Machine.execDschMaxExpiry p s
  | .fetStuck p => Sys2Proof.Machine.execFetStuck p s
  | .retryDelayExpiry p => Sys2Proof.Machine.execRetryDelayExpiry p s
  | .retryResetExpiry p => Sys2Proof.Machine.execRetryResetExpiry p s
  | .ppCmdClearLockout p => Sys2Proof.Machine.execPpCmdClearLockout p s
  | .ppCmdClearFaultSet p => Sys2Proof.Machine.execPpCmdClearFaultSet p s
  | .ppCmdForceOff p => Sys2Proof.Machine.execPpCmdForceOff p s
  | .ppCmdReleaseForceOff p => Sys2Proof.Machine.execPpCmdReleaseForceOff p s
  | .seatChange f pin1 seated => Sys2Proof.Machine.execSeatChange f pin1 seated s
  | .feedStart f vin => Sys2Proof.Machine.execFeedStart f vin s
  | .feedRampTimeout f => Sys2Proof.Machine.execFeedRampTimeout f s
  | .feedPgQualComplete f => Sys2Proof.Machine.execFeedPgQualComplete f s
  | .feedPgDrop f => Sys2Proof.Machine.execFeedPgDrop f s
  | .feedFaultTimerExpiry f => Sys2Proof.Machine.execFeedFaultTimerExpiry f s
  | .feedFaultTimerIdle f => Sys2Proof.Machine.execFeedFaultTimerIdle f s
  | .feedSoaUpdate f vin vout arg => Sys2Proof.Machine.execFeedSoaUpdate f vin vout arg s
  | .feedUvWarn f low => Sys2Proof.Machine.execFeedUvWarn f low s
  | .feedStageOff f => Sys2Proof.Machine.execFeedStageOff f s
  | .feedCmdClear f => Sys2Proof.Machine.execFeedCmdClear f s
  | .feedCmdOff f => Sys2Proof.Machine.execFeedCmdOff f s
  | .feedCmdOn f => Sys2Proof.Machine.execFeedCmdOn f s
  | .comparatorCrossing c x => Sys2Proof.Machine.execComparatorCrossing c x s
  | .latchPeriodBoundary c => Sys2Proof.Machine.execLatchPeriodBoundary c s
  | .cmpCmdClearLatch c => Sys2Proof.Machine.execCmpCmdClearLatch c s
  | .cmpCmdSelfchk c => Sys2Proof.Machine.execCmpCmdSelfchk c s
  | .cmpSelfchkGo e q v => Sys2Proof.Machine.execCmpSelfchkGo e q v s
  | .selfCheckEnd c o x => Sys2Proof.Machine.execSelfCheckEnd c o x s
  | .comparatorSettleEnd c x => Sys2Proof.Machine.execComparatorSettleEnd c x s
  | .cvCmdCal => Sys2Proof.Machine.execCvCmdCal s
  | .cvCmdStart => Sys2Proof.Machine.execCvCmdStart s
  | .cvCmdStop => Sys2Proof.Machine.execCvCmdStop s
  | .cvCmdSave => Sys2Proof.Machine.execCvCmdSave s
  | .cvCmdLoad => Sys2Proof.Machine.execCvCmdLoad s
  | .cvCmdClearCounters => Sys2Proof.Machine.execCvCmdClearCounters s
  | .calStart c => Sys2Proof.Machine.execCalStart c s
  | .calEnd c f => Sys2Proof.Machine.execCalEnd c f s
  | .passTrigger src => Sys2Proof.Machine.execPassTrigger src s
  | .passStart c => Sys2Proof.Machine.execPassStart c s
  | .passEnd c => Sys2Proof.Machine.execPassEnd c s
  | .injReqGo c room => Sys2Proof.Machine.execInjReqGo c room s
  | .injTrigger c room => Sys2Proof.Machine.execInjTrigger c room s
  | .refSettled b => Sys2Proof.Machine.execRefSettled b s
  | .refMonitorSample ratio => Sys2Proof.Machine.execRefMonitorSample ratio s
  | .refAgeSave => Sys2Proof.Machine.execRefAgeSave s
  | .refRebase => Sys2Proof.Machine.execRefRebase s
  | .plausTimeoutExpiry c => Sys2Proof.Machine.execPlausTimeoutExpiry c s
  | .tqPop c => Sys2Proof.Machine.execTqPop c s
  | .windowBoundary w => Sys2Proof.Machine.execWindowBoundary w s
  | .skimCmdNow => Sys2Proof.Machine.execSkimCmdNow s
  | .skimCmdAt => Sys2Proof.Machine.execSkimCmdAt s
  | .skimCmdCancel => Sys2Proof.Machine.execSkimCmdCancel s
  | .skimInstant => Sys2Proof.Machine.execSkimInstant s
  | .skimBankComplete => Sys2Proof.Machine.execSkimBankComplete s
  | .metCmdClearAcc => Sys2Proof.Machine.execMetCmdClearAcc s
  | .metCmdClearFlags => Sys2Proof.Machine.execMetCmdClearFlags s
  | .metCmdRecordNow => Sys2Proof.Machine.execMetCmdRecordNow s
  | .intervalCut => Sys2Proof.Machine.execIntervalCut s
  | .recordSigned k => Sys2Proof.Machine.execRecordSigned k s
  | .recordSignFail k => Sys2Proof.Machine.execRecordSignFail k s
  | .seqCmdUp => Sys2Proof.Machine.execSeqCmdUp s
  | .seqCmdDown => Sys2Proof.Machine.execSeqCmdDown s
  | .seqCmdClearFault => Sys2Proof.Machine.execSeqCmdClearFault s
  | .seqCmdRestart => Sys2Proof.Machine.execSeqCmdRestart s
  | .phaseStart => Sys2Proof.Machine.execPhaseStart s
  | .railStartDelayExpiry n => Sys2Proof.Machine.execRailStartDelayExpiry n s
  | .riseTimeout n => Sys2Proof.Machine.execRiseTimeout n s
  | .railPgQualComplete n ftStarts => Sys2Proof.Machine.execRailPgQualComplete n ftStarts s
  | .railFaultTimerExpiry n => Sys2Proof.Machine.execRailFaultTimerExpiry n s
  | .railFaultTimerIdle n => Sys2Proof.Machine.execRailFaultTimerIdle n s
  | .railStopDelayExpiry n => Sys2Proof.Machine.execRailStopDelayExpiry n s
  | .phaseDownComplete => Sys2Proof.Machine.execPhaseDownComplete s
  | .fallTimeout => Sys2Proof.Machine.execFallTimeout s
  | .autoRestartExpiry => Sys2Proof.Machine.execAutoRestartExpiry s
  | .restartCountReload => Sys2Proof.Machine.execRestartCountReload s
  | .seqAutoStart => Sys2Proof.Machine.execSeqAutoStart s
  | .pwrgdQualComplete ftStarts => Sys2Proof.Machine.execPwrgdQualComplete ftStarts s
  | .mgnModeWrite n m => Sys2Proof.Machine.execMgnModeWrite n m s
  | .mgnStep n => Sys2Proof.Machine.execMgnStep n s
  | .mgnDacStep n => Sys2Proof.Machine.execMgnDacStep n s
  | .mgnTimeout n => Sys2Proof.Machine.execMgnTimeout n s
  | .ffLogWritten => Sys2Proof.Machine.execFfLogWritten s
  | .ffCmdClear => Sys2Proof.Machine.execFfCmdClear s
  | .recorderSample => Sys2Proof.Machine.execRecorderSample s
  | .flushStart => Sys2Proof.Machine.execFlushStart s
  | .flushPeriodExpiry => Sys2Proof.Machine.execFlushPeriodExpiry s
  | .flushPendingStart => Sys2Proof.Machine.execFlushPendingStart s
  | .imageFreezeDone => Sys2Proof.Machine.execImageFreezeDone s
  | .leafWritten ok => Sys2Proof.Machine.execLeafWritten ok s
  | .flushComplete => Sys2Proof.Machine.execFlushComplete s
  | .wallEraseDone jrnl ok => Sys2Proof.Machine.execWallEraseDone jrnl ok s
  | .journalAppend => Sys2Proof.Machine.execJournalAppend s
  | .journalLeafWrite ok => Sys2Proof.Machine.execJournalLeafWrite ok s
  | .powerFailDeclared => Sys2Proof.Machine.execPowerFailDeclared s
  | .powerFailRearm => Sys2Proof.Machine.execPowerFailRearm s
  | .opSecondsTick => Sys2Proof.Machine.execOpSecondsTick s
  | .opSecondsSave => Sys2Proof.Machine.execOpSecondsSave s
  | .recCmdFlush => Sys2Proof.Machine.execRecCmdFlush s
  | .recClearImage => Sys2Proof.Machine.execRecClearImage s
  | .recClearWallErase => Sys2Proof.Machine.execRecClearWallErase s
  | .zMov c z => Sys2Proof.Machine.execZMov c z s
  | .zAdd c z => Sys2Proof.Machine.execZAdd c z s
  | .zAdc c z => Sys2Proof.Machine.execZAdc c z s
  | .zSub c z => Sys2Proof.Machine.execZSub c z s
  | .zSbc c z => Sys2Proof.Machine.execZSbc c z s
  | .zAnd c z => Sys2Proof.Machine.execZAnd c z s
  | .zAndn c z => Sys2Proof.Machine.execZAndn c z s
  | .zOr c z => Sys2Proof.Machine.execZOr c z s
  | .zXor c z => Sys2Proof.Machine.execZXor c z s
  | .zNot c z => Sys2Proof.Machine.execZNot c z s
  | .zNeg c z => Sys2Proof.Machine.execZNeg c z s
  | .zShl c z => Sys2Proof.Machine.execZShl c z s
  | .zShr c z => Sys2Proof.Machine.execZShr c z s
  | .zSar c z => Sys2Proof.Machine.execZSar c z s
  | .zRor c z => Sys2Proof.Machine.execZRor c z s
  | .zMul c z => Sys2Proof.Machine.execZMul c z s
  | .zMulhu c z => Sys2Proof.Machine.execZMulhu c z s
  | .zMulhs c z => Sys2Proof.Machine.execZMulhs c z s
  | .zDivu c z => Sys2Proof.Machine.execZDivu c z s
  | .zDivs c z => Sys2Proof.Machine.execZDivs c z s
  | .zRemu c z => Sys2Proof.Machine.execZRemu c z s
  | .zRems c z => Sys2Proof.Machine.execZRems c z s
  | .zCmp c z => Sys2Proof.Machine.execZCmp c z s
  | .zTst c z => Sys2Proof.Machine.execZTst c z s
  | .zExtz c z => Sys2Proof.Machine.execZExtz c z s
  | .zExts c z => Sys2Proof.Machine.execZExts c z s
  | .zSwab c z => Sys2Proof.Machine.execZSwab c z s
  | .zBrev c z => Sys2Proof.Machine.execZBrev c z s
  | .zPar c z => Sys2Proof.Machine.execZPar c z s
  | .zCrc c z => Sys2Proof.Machine.execZCrc c z s
  | .zIn c z => Sys2Proof.Machine.execZIn c z s
  | .zOut c z => Sys2Proof.Machine.execZOut c z s
  | .zIrd c z => Sys2Proof.Machine.execZIrd c z s
  | .zIwr c z => Sys2Proof.Machine.execZIwr c z s
  | .zMovs c z lim => Sys2Proof.Machine.execZMovs c z lim s
  | .zFils c z lim => Sys2Proof.Machine.execZFils c z lim s
  | .zCmps c z lim => Sys2Proof.Machine.execZCmps c z lim s
  | .zScns c z lim => Sys2Proof.Machine.execZScns c z lim s
  | .zCrcs c z lim => Sys2Proof.Machine.execZCrcs c z lim s
  | .zPars c z lim => Sys2Proof.Machine.execZPars c z lim s
  | .zB c z => Sys2Proof.Machine.execZB c z s
  | .zBr c z => Sys2Proof.Machine.execZBr c z s
  | .zCall c z => Sys2Proof.Machine.execZCall c z s
  | .zCallr c z => Sys2Proof.Machine.execZCallr c z s
  | .zRet c z => Sys2Proof.Machine.execZRet c z s
  | .zRete c z => Sys2Proof.Machine.execZRete c z s
  | .zRpt c z => Sys2Proof.Machine.execZRpt c z s
  | .zPull c z => Sys2Proof.Machine.execZPull c z s
  | .zPush c z => Sys2Proof.Machine.execZPush c z s
  | .zCrcset c z => Sys2Proof.Machine.execZCrcset c z s
  | .zPset c z => Sys2Proof.Machine.execZPset c z s
  | .zWait c z => Sys2Proof.Machine.execZWait c z s
  | .zNop c z => Sys2Proof.Machine.execZNop c z s
  | .zAddi c z => Sys2Proof.Machine.execZAddi c z s
  | .zSubi c z => Sys2Proof.Machine.execZSubi c z s
  | .zMovi c z => Sys2Proof.Machine.execZMovi c z s
  | .zCmpi c z => Sys2Proof.Machine.execZCmpi c z s
  | .zShli c z => Sys2Proof.Machine.execZShli c z s
  | .zShri c z => Sys2Proof.Machine.execZShri c z s
  | .interruptEntry c => Sys2Proof.Machine.execInterruptEntry c s
  | .xfComplete c t => Sys2Proof.Machine.execXfComplete c t s
  | .wdKick e key => Sys2Proof.Machine.execWdKick e key s
  | .wdFirstExpiry e => Sys2Proof.Machine.execWdFirstExpiry e s
  | .wdSecondExpiry e => Sys2Proof.Machine.execWdSecondExpiry e s
  | .ckptLateExpiry e => Sys2Proof.Machine.execCkptLateExpiry e s
  | .engCtrlFail e => Sys2Proof.Machine.execEngCtrlFail e s
  | .engCmdFailEngine => Sys2Proof.Machine.execEngCmdFailEngine s
  | .ckCommit e half => Sys2Proof.Machine.execCkCommit e half s
  | .adoptDoneWrite => Sys2Proof.Machine.execAdoptDoneWrite s
  | .adoptTimeout => Sys2Proof.Machine.execAdoptTimeout s
  | .barrierOpen set => Sys2Proof.Machine.execBarrierOpen set s
  | .barArrive e => Sys2Proof.Machine.execBarArrive e s
  | .barrierRelease => Sys2Proof.Machine.execBarrierRelease s
  | .mbTxWrite e w => Sys2Proof.Machine.execMbTxWrite e w s
  | .mbRxRead e => Sys2Proof.Machine.execMbRxRead e s
  | .mbAbort e => Sys2Proof.Machine.execMbAbort e s
  | .kcmdRead e => Sys2Proof.Machine.execKcmdRead e s
  | .lockstepMismatch => Sys2Proof.Machine.execLockstepMismatch s
  | .keeperWdExpiry => Sys2Proof.Machine.execKeeperWdExpiry s
  | .kwdKick key => Sys2Proof.Machine.execKwdKick key s
  | .tbLoRead r => Sys2Proof.Machine.execTbLoRead r s
  | .ppsInEdge rise frac => Sys2Proof.Machine.execPpsInEdge rise frac s
  | .syncInEdge rise frac => Sys2Proof.Machine.execSyncInEdge rise frac s
  | .tbDiscNoEdge => Sys2Proof.Machine.execTbDiscNoEdge s
  | .tbStepWrite n => Sys2Proof.Machine.execTbStepWrite n s
  | .tbStepApply => Sys2Proof.Machine.execTbStepApply s
  | .tbcHiWrite c m v => Sys2Proof.Machine.execTbcHiWrite c m v s
  | .tbcFire m => Sys2Proof.Machine.execTbcFire m s
  | .counterWrap k => Sys2Proof.Machine.execCounterWrap k s
  | .ctCompareMatch k b => Sys2Proof.Machine.execCtCompareMatch k b s
  | .ctCapture k => Sys2Proof.Machine.execCtCapture k s
  | .ctValChainRead c k => Sys2Proof.Machine.execCtValChainRead c k s
  | .ctCapRead c k => Sys2Proof.Machine.execCtCapRead c k s
  | .tgCmdStart g => Sys2Proof.Machine.execTgCmdStart g s
  | .tgCmdStop g => Sys2Proof.Machine.execTgCmdStop g s
  | .tgStartEdge g => Sys2Proof.Machine.execTgStartEdge g s
  | .tgEvent g => Sys2Proof.Machine.execTgEvent g s
  | .tgPeriodWrite c g v => Sys2Proof.Machine.execTgPeriodWrite c g v s
  | .aonCatchupTick => Sys2Proof.Machine.execAonCatchupTick s
  | .dfRead r items => Sys2Proof.Machine.execDfRead r items s
  | .dfWrite r items => Sys2Proof.Machine.execDfWrite r items s
  | .dfWriteBroadcast r items => Sys2Proof.Machine.execDfWriteBroadcast r items s
  | .dfStore r => Sys2Proof.Machine.execDfStore r s
  | .storeComplete ok => Sys2Proof.Machine.execStoreComplete ok s
  | .dfBulkRead r idx sub off count => Sys2Proof.Machine.execDfBulkRead r idx sub off count s
  | .dfCursor r cursor => Sys2Proof.Machine.execDfCursor r cursor s
  | .dfSkim r at_ => Sys2Proof.Machine.execDfSkim r at_ s
  | .sessionOpen r level pub nonce => Sys2Proof.Machine.execSessionOpen r level pub nonce s
  | .sessionConfirm r plain => Sys2Proof.Machine.execSessionConfirm r plain s
  | .sessionClose r => Sys2Proof.Machine.execSessionClose r s
  | .sessionIdleExpiry t => Sys2Proof.Machine.execSessionIdleExpiry t s
  | .dfToken r token => Sys2Proof.Machine.execDfToken r token s
  | .applyStrobe => Sys2Proof.Machine.execApplyStrobe s
  | .restoreDefaults => Sys2Proof.Machine.execRestoreDefaults s
  | .resetRequest => Sys2Proof.Machine.execResetRequest s
  | .canSegmentRx c seen form id octets => Sys2Proof.Machine.execCanSegmentRx c seen form id octets s
  | .canSegmentTimeout c => Sys2Proof.Machine.execCanSegmentTimeout c s
  | .canNode0Skim c t => Sys2Proof.Machine.execCanNode0Skim c t s
  | .canBusOff c => Sys2Proof.Machine.execCanBusOff c s
  | .canBusOffRecovery c => Sys2Proof.Machine.execCanBusOffRecovery c s
  | .twTargetWrite b octets => Sys2Proof.Machine.execTwTargetWrite b octets s
  | .twTargetRead b n => Sys2Proof.Machine.execTwTargetRead b n s
  | .twDfTimeout b => Sys2Proof.Machine.execTwDfTimeout b s
  | .alertAck m => Sys2Proof.Machine.execAlertAck m s
  | .twCtlGo b => Sys2Proof.Machine.execTwCtlGo b s
  | .twCtlAbort b => Sys2Proof.Machine.execTwCtlAbort b s
  | .twBusFree b taken => Sys2Proof.Machine.execTwBusFree b taken s
  | .twBusBusyTimeout b => Sys2Proof.Machine.execTwBusBusyTimeout b s
  | .twCtlComplete b o => Sys2Proof.Machine.execTwCtlComplete b o s
  | .twArbLost b byte bit mine => Sys2Proof.Machine.execTwArbLost b byte bit mine s
  | .twCondLost b acked => Sys2Proof.Machine.execTwCondLost b acked s
  | .twTargetStartAtAck b => Sys2Proof.Machine.execTwTargetStartAtAck b s
  | .twCtlStartAtAck b byte => Sys2Proof.Machine.execTwCtlStartAtAck b byte s
  | .twStretchTimeout b acked => Sys2Proof.Machine.execTwStretchTimeout b acked s
  | .twSclLowTimeout b acked => Sys2Proof.Machine.execTwSclLowTimeout b acked s
  | .twSdaLowTimeout b freed acked => Sys2Proof.Machine.execTwSdaLowTimeout b freed acked s
  | .twCmdClearFlags b => Sys2Proof.Machine.execTwCmdClearFlags b s
  | .twCmdClearCounters b => Sys2Proof.Machine.execTwCmdClearCounters b s
  | .deviceBoot rom cs0 cs1 copyOk => Sys2Proof.Machine.execDeviceBoot rom cs0 cs1 copyOk s
  | .secCmdAdvanceFloors vpp => Sys2Proof.Machine.execSecCmdAdvanceFloors vpp s
  | .secCmdRotateImageKey vpp => Sys2Proof.Machine.execSecCmdRotateImageKey vpp s
  | .secCmdRevokeTokens vpp => Sys2Proof.Machine.execSecCmdRevokeTokens vpp s
  | .secCmdDropToken => Sys2Proof.Machine.execSecCmdDropToken s
  | .cntAdvance k vpp => Sys2Proof.Machine.execCntAdvance k vpp s
  | .tokenExpiry => Sys2Proof.Machine.execTokenExpiry s
  | .imgCmdErase => Sys2Proof.Machine.execImgCmdErase s
  | .imgEraseDone => Sys2Proof.Machine.execImgEraseDone s
  | .imgChunk off octets => Sys2Proof.Machine.execImgChunk off octets s
  | .imgCmdVerify => Sys2Proof.Machine.execImgCmdVerify s
  | .jtagTapInstruction arg => Sys2Proof.Machine.execJtagTapInstruction arg s
  | .debugHalt c => Sys2Proof.Machine.execDebugHalt c s
  | .otpCmdRead via => Sys2Proof.Machine.execOtpCmdRead via s
  | .otpCmdProgram via raw vpp => Sys2Proof.Machine.execOtpCmdProgram via raw vpp s
  | .otpCmdRepair via vpp => Sys2Proof.Machine.execOtpCmdRepair via vpp s
  | .otpCmdFinalise via arg vpp => Sys2Proof.Machine.execOtpCmdFinalise via arg vpp s
  | .otpCmdAdvance via arg vpp => Sys2Proof.Machine.execOtpCmdAdvance via arg vpp s
  | .otpPumpStop => Sys2Proof.Machine.execOtpPumpStop s
  | .lockAppSet m => Sys2Proof.Machine.execLockAppSet m s
  | .psCmdEnter => Sys2Proof.Machine.execPsCmdEnter s
  | .psEntryComplete => Sys2Proof.Machine.execPsEntryComplete s
  | .psCmdExit => Sys2Proof.Machine.execPsCmdExit s
  | .wakeEvent src => Sys2Proof.Machine.execWakeEvent src s
  | .psExitComplete => Sys2Proof.Machine.execPsExitComplete s
  | .por => Sys2Proof.Machine.execPor s
  | .bor => Sys2Proof.Machine.execBor s
  | .pinReset => Sys2Proof.Machine.execPinReset s
  | .softReset => Sys2Proof.Machine.execSoftReset s
  | .degCmdClearSafe => Sys2Proof.Machine.execDegCmdClearSafe s
  | .degCmdReturnEngine => Sys2Proof.Machine.execDegCmdReturnEngine s
  | .handbackReport => Sys2Proof.Machine.execHandbackReport s
  | .handbackTimeout => Sys2Proof.Machine.execHandbackTimeout s
  | .degCmdResetTile => Sys2Proof.Machine.execDegCmdResetTile s
  | .tileTrstWrite m => Sys2Proof.Machine.execTileTrstWrite m s
  | .vddFeUndervoltage n => Sys2Proof.Machine.execVddFeUndervoltage n s
  | .vconnUndervoltage n => Sys2Proof.Machine.execVconnUndervoltage n s
  | .vconnRecovery n => Sys2Proof.Machine.execVconnRecovery n s
  | .registerWrite c addr val => Sys2Proof.Machine.execRegisterWrite c addr val s
  | .shedNHigh => Sys2Proof.Machine.execShedNHigh s
  | .turnOffComplete p x => Sys2Proof.Machine.execTurnOffComplete p x s
  | .debugResume c mem => Sys2Proof.Machine.execDebugResume c mem s
  | .otpCommandEnd burns => Sys2Proof.Machine.execOtpCommandEnd burns s
  | .rxSourceCapabilities p id rev3 pdos => Sys2Proof.Machine.execRxSourceCapabilities p id rev3 pdos s
  | .rxAccept p id rev3 => Sys2Proof.Machine.execRxAccept p id rev3 s
  | .rxReject p id rev3 => Sys2Proof.Machine.execRxReject p id rev3 s
  | .rxWait p id rev3 => Sys2Proof.Machine.execRxWait p id rev3 s
  | .rxPsRdy p id rev3 => Sys2Proof.Machine.execRxPsRdy p id rev3 s
  | .rxGetSourceCap p id rev3 => Sys2Proof.Machine.execRxGetSourceCap p id rev3 s
  | .rxGetSinkCap p id rev3 => Sys2Proof.Machine.execRxGetSinkCap p id rev3 s
  | .rxGetStatus p id rev3 => Sys2Proof.Machine.execRxGetStatus p id rev3 s
  | .rxGetPpsStatus p id rev3 => Sys2Proof.Machine.execRxGetPpsStatus p id rev3 s
  | .rxGetRevision p id rev3 => Sys2Proof.Machine.execRxGetRevision p id rev3 s
  | .rxGetManufacturerInfo p id rev3 => Sys2Proof.Machine.execRxGetManufacturerInfo p id rev3 s
  | .rxGetSourceInfo p id rev3 => Sys2Proof.Machine.execRxGetSourceInfo p id rev3 s
  | .rxGetSourceCapExtended p id rev3 => Sys2Proof.Machine.execRxGetSourceCapExtended p id rev3 s
  | .rxFrSwap p id rev3 => Sys2Proof.Machine.execRxFrSwap p id rev3 s
  | .rxBist p id rev3 m => Sys2Proof.Machine.execRxBist p id rev3 m s
  | .rxCableIdentity p c => Sys2Proof.Machine.execRxCableIdentity p c s

end Sys2Proof.Machine
end

