-- ==== Sys2Proof/Safety.lean ====
section
/-! DEFINITION. What the claims call a sound state: the stores in their canonical form, the pins that follow the state, and the kinds of
register that the manual bounds. -/

namespace Sys2Proof.Machine

/-- The stores of the device are in canonical form: equal contents are equal data. -/
def State.storesOk (s : State) : Bool :=
  SMap.wf odDefault s.od && SMap.wf noPending s.odNew && SMap.wf blobDefault s.blob && SMap.wf ioDefault s.io && SMap.wf zeroCell s.shared

/-- The memories of core `c` are in canonical form. -/
def CoreHw.memoriesOk (h : CoreHw) : Bool := SMap.wf zeroCell h.imem && SMap.wf zeroCell h.dmem

/-- Every store of the device is in canonical form: the dictionary, the IO registers, shared SRAM and the memories of the cores. -/
def State.canonical (s : State) : Bool := s.storesOk && (List.finRange 18).all fun c => (s.core c).memoriesOk

/-- The pins show what the state drives (R164, R165, R380). -/
def State.pinsOk (s : State) : Bool := decide (s.pins = pinsOf s)

/-- A step that stops: a fault or a refusal. -/
def stops (o : Host.Outcome State Fault Refusal) : Bool :=
  match o with
  | .next _ => false
  | .fault _ => true
  | .refused _ => true

/-! Words of the claims about a port's path. -/

/-- A fault of port `p` is followed by a retry: the path is neither cut, forced off nor in SAFE_OFF, and a retry is left (R137). -/
abbrev canRetry (s : State) (p : Port) : Prop :=
  (s.path p).cut = false ∧ (s.path p).force = false ∧ (s.path p).safe = false ∧ 0 < s.rP p Kp.retryLeft

/-- Port `p` is off with fault `code` recorded, its PG down, its power alert set and its retry awaited (R134, R137). -/
abbrev faultedOff (t : State) (p : Port) (code : Nat) : Prop :=
  (t.path p).gate = .off ∧ (t.path p).retryWait = true ∧ t.rP p Kp.ppFault = code ∧ bit (t.rP p Kp.ppFaultSet) code = true ∧
    t.rP p Kp.pg = 0 ∧ t.rP p Kp.ppState = Pp.retryWait ∧ bit (t.rd K.alertSrc) 1 = true

/-! Words of the claims about a port's messages. -/

/-- A new message with MessageID `id` is read by the engine that owns port `p`: the port is attached, no Hard Reset is being signalled,
the engine and the link serve it, no power transition runs, no message of the device waits for tSinkTx and none behind the one on the
wire asks for a swap (R63, R66, R68, R484). -/
abbrev reads (s : State) (p : Port) (id : Nat) : Prop :=
  s.attached p = true ∧ (s.port p).hardReset ≠ .signalling ∧ (s.port p).rxId ≠ some id ∧ s.rP p Kp.pdRev ≠ 0 ∧
    s.serving p = true ∧ s.inTransition p = false ∧ (s.port p).sinkTx = [] ∧
    ((s.port p).tx.drop 1).any TxMsg.asksSwap = false

/-- The port took MessageID `id` and handed message `m` to its tile; nothing else of the port changed. -/
abbrev answered (s t : State) (p : Port) (id : Nat) (m : TxMsg) : Prop :=
  t.port p = { s.port p with rxId := some id, tx := (s.port p).tx ++ [m] }

/-- A message without an answer of its own that the protocol tracks. -/
abbrev msg (k : PdKind) (objs : List Int) : TxMsg := { kind := k, objs := objs, re := none }

/-! Words of the claims about the Zamor-32. -/

/-- Core `c` fetches an instruction now, none of its posted IO writes being due; `h` is the core once what is due in memory and flags has
landed (R284, R285), and the word fetched is a defined encoding (R313). -/
abbrev Fetches (s : State) (c : CoreId) (h : CoreHw) : Prop :=
  s.coreRuns c = true ∧ h = (s.core c).landed ∧ (∀ x ∈ (s.core c).posted, (s.core c).idx < x.1 + 6) ∧ h.fetchDefined = true

/-- Core `c` executes `z`: fetched without an error, its condition holds, its encoding is defined and raises no ILLOP, it stands outside
a repeat, not in the last slot that a RETE has left, and WDOG does not wait (R291, R293, R294, R313, R329). -/
abbrev Issues (s : State) (c : CoreId) (h : CoreHw) (z : ZIns) (u : ZUse) : Prop :=
  Fetches s c h ∧ z.ecc = .clean ∧ condHolds z.cond.val h.flagsRead = true ∧ u.defined z = true ∧ u.raises h z = false ∧
    h.inRepeat = false ∧ (h.slots = 1 → h.target ≠ some .stack) ∧ h.wdog = false

/-- The core after a data instruction with operands `g`: `v` written as `m` octets at the destination, the flags of `mask` taken from
`fl`, the core at the next instruction. -/
def leaves (z : ZIns) (h : CoreHw) (g : ZGot) (m v mask fl : Nat) : CoreHw :=
  ((g.commit h m v).update mask fl).advance (zLen z) .seq

/-! Words of the frames: what a command leaves as it was. -/

/-- The parts of the state, one name per field of `State`. -/
inductive Part where
  | pending | od | odNew | blob | io | fresh | tb | cmps | paths | feeds | slots | ledgerPorts | ledger |
  tiles | ports | scrim | pins | coatFault | clk | convs | ref | mets | recs | otpShadow | rails | coat |
  recorder | nv | answer | cts | tbcs | tgs | time | otp | cores | mboxes | shared | float | power | tws |
  srcs | sess | nvm | sec
  deriving DecidableEq, Repr

/-- Part `x` is the same in both states. -/
def Part.same (x : Part) (s t : State) : Bool :=
  match x with
  | .pending => decide (s.pending = t.pending)
  | .od => decide (s.od = t.od)
  | .odNew => decide (s.odNew = t.odNew)
  | .blob => decide (s.blob = t.blob)
  | .io => decide (s.io = t.io)
  | .fresh => decide (s.fresh = t.fresh)
  | .tb => decide (s.tb = t.tb)
  | .cmps => decide (s.cmps = t.cmps)
  | .paths => decide (s.paths = t.paths)
  | .feeds => decide (s.feeds = t.feeds)
  | .slots => decide (s.slots = t.slots)
  | .ledgerPorts => decide (s.ledgerPorts = t.ledgerPorts)
  | .ledger => decide (s.ledger = t.ledger)
  | .tiles => decide (s.tiles = t.tiles)
  | .ports => decide (s.ports = t.ports)
  | .scrim => decide (s.scrim = t.scrim)
  | .pins => decide (s.pins = t.pins)
  | .coatFault => decide (s.coatFault = t.coatFault)
  | .clk => decide (s.clk = t.clk)
  | .convs => decide (s.convs = t.convs)
  | .ref => decide (s.ref = t.ref)
  | .mets => decide (s.mets = t.mets)
  | .recs => decide (s.recs = t.recs)
  | .otpShadow => decide (s.otpShadow = t.otpShadow)
  | .rails => decide (s.rails = t.rails)
  | .coat => decide (s.coat = t.coat)
  | .recorder => decide (s.recorder = t.recorder)
  | .nv => decide (s.nv = t.nv)
  | .answer => decide (s.answer = t.answer)
  | .cts => decide (s.cts = t.cts)
  | .tbcs => decide (s.tbcs = t.tbcs)
  | .tgs => decide (s.tgs = t.tgs)
  | .time => decide (s.time = t.time)
  | .otp => decide (s.otp = t.otp)
  | .cores => decide (s.cores = t.cores)
  | .mboxes => decide (s.mboxes = t.mboxes)
  | .shared => decide (s.shared = t.shared)
  | .float => decide (s.float = t.float)
  | .power => decide (s.power = t.power)
  | .tws => decide (s.tws = t.tws)
  | .srcs => decide (s.srcs = t.srcs)
  | .sess => decide (s.sess = t.sess)
  | .nvm => decide (s.nvm = t.nvm)
  | .sec => decide (s.sec = t.sec)

/-- Nothing but the listed parts differs. -/
abbrev Only (xs : List Part) (s t : State) : Prop := ∀ x : Part, x ∉ xs → x.same s t = true

/-- No dictionary entry but the listed ones differs. -/
def WroteOnly (ks : List Nat) (s t : State) : Prop := ∀ k, k ∉ ks → t.rd k = s.rd k

/-- No pending value but those of the listed entries differs. -/
def PendedOnly (ks : List Nat) (s t : State) : Prop := ∀ k, k ∉ ks → t.pendingVal k = s.pendingVal k

/-- No dictionary entry outside the listed areas (`key / 256`) differs. -/
def AreasOnly (as : List Nat) (s t : State) : Prop := ∀ k, k / 256 ∉ as → t.rd k = s.rd k

/-- No octet of a memory but the `n` from address `lo` differs. -/
def MemOnly (lo n : Nat) (m m' : SMap Nat) : Prop := ∀ a, ¬(lo ≤ a ∧ a < lo + n) → memGet m' a = memGet m a

/-- No IO register but the listed ones of block `b` differs. -/
def IoOnly (b : Nat) (offs : List Nat) (s t : State) : Prop :=
  ∀ b' o, o < 0x10000 → ¬(b' = b ∧ o ∈ offs) → t.ior b' o = s.ior b' o

/-- Engine `e` has been declared failed with cause code `cause`: it executes no more, the cause is recorded, ALERT bit 7 is set (R300). -/
abbrev declaredFailed (t : State) (e : Eng) (cause : Int) : Prop :=
  t.engLive e = false ∧ t.rd (K.engCause + e.val) = cause ∧ bit (t.rd K.alertSrc) 7 = true

/-! Words of the claims about requests to the dictionary. -/

/-- The octets of an entry's address in an item: index, subindex (R362). -/
def keyOctets (k : Nat) : List Nat := leOctets 2 (k / 256) ++ [k % 256]

/-- An item of a WRITE body: a value of 255 octets or more has its length in two octets (R362). -/
def WItem.octets (i : WItem) : List Nat :=
  keyOctets i.key ++ (if i.val.length < 255 then [i.val.length] else [255] ++ leOctets 2 i.val.length ++ [0, 0]) ++ pad4 i.val

/-- The plain body of a request (Table 13.3). -/
def Req.body : Req → List Nat
  | .read ks => ks.flatMap fun k => keyOctets k ++ [0]
  | .write items => items.flatMap WItem.octets
  | .broadcast items => items.flatMap WItem.octets
  | .store => []
  | .bulk k off count => keyOctets k ++ [0] ++ leOctets 4 off ++ leOctets 2 count ++ [0, 0]
  | .cursor c => leOctets 8 c
  | .skim none => []
  | .skim (some t) => leOctets 8 t
  | .sOpen level pub nonce => [1, 0, 0, 0] ++ leOctets 4 level ++ pub ++ [0, 0, 0] ++ nonce
  | .sConfirm plain => [2, 0, 0, 0] ++ plain
  | .sClose => [3, 0, 0, 0]
  | .token l => l
  | .overrun _ => []
  | .bad _ _ => []

/-- The FLAGS octet of a plain request: bit 2 a broadcast (Table 13.2). -/
def Req.flags : Req → Nat
  | .broadcast _ => 4
  | _ => 0

/-- A request whose operands fit their fields. -/
def Req.encodable : Req → Bool
  | .read ks => ks.all fun k => decide (k < 16777216)
  | .write items => items.all fun i => decide (i.key < 16777216 ∧ i.val.length < 65536)
  | .broadcast items => items.all fun i => decide (i.key < 16777216 ∧ i.val.length < 65536)
  | .store => true
  | .bulk k off count => decide (k < 16777216 ∧ off < 4294967296 ∧ count < 65536)
  | .cursor c => decide (c < 18446744073709551616)
  | .skim t => decide (t.getD 0 < 18446744073709551616)
  | .sOpen level pub nonce => decide (level < 256 ∧ pub.length = 97 ∧ nonce.length = 32)
  | .sConfirm _ => true
  | .sClose => true
  | .token l => decide (l.length ≤ 512)
  | .overrun _ => false
  | .bad _ _ => false

/-- A new request of `r.src` reaches the dictionary in plain at level `level`: the transport is heard, the loader does not run, no response
is held and the request repeats no earlier one (R356, R364). -/
abbrev heard (s : State) (r : ReqHead) (level : Nat) : Prop :=
  listens s r.src = true ∧ s.sec.stat ≠ 3 ∧ (∀ q : Requester, (s.src q).held = none) ∧ (s.src r.src).lastSeq ≠ some r.seq.toNat ∧
    ((r.src.val < 17 ∧ level = 2) ∨ (r.src.val = 17 ∧ level = 3) ∨ (18 ≤ r.src.val ∧ r.secure = false ∧ level = 0))

/-- The requester behind a request, as it is judged. -/
abbrev asker (r : ReqHead) (level : Nat) : Who := { src := r.src, level := level }

/-- The request has been answered in plain with a status and a body (R361, R364). -/
abbrev responds (t : State) (r : ReqHead) (op st : Nat) (body : List Nat) : Prop :=
  t.answer = st ∧ (t.src r.src).lastSeq = some r.seq.toNat ∧ (t.src r.src).held = none ∧
    (t.src r.src).lastResp = frame 1 op st r.seq.toNat body ∧ (t.src r.src).resp = frame 1 op st r.seq.toNat body

/-- What a request without effect of its own may change: the records of the requesters, the mailboxes and the answer. -/
abbrev quietParts : List Part := [.srcs, .mboxes, .answer, .pins]

end Sys2Proof.Machine
end

