-- ==== Sys2Proof/Certificates/Slice0/Obligations.lean ====
section
/-! DEFINITION. The statements for the provers, family by family. -/

open Sys2Proof Sys2Proof.Machine

/-- A step takes the command at the front of the queue and does what that command does on the state with the rest of the queue. On
an empty queue one tick of the time base passes: that is the model's choice, in log entry 2. Rests on 01 R24, 98. -/
def Obligations.StepRunsFront : Prop :=
  (∀ (c : Instr) (q : List Instr) (s : State), step { s with pending := [c] ++ q } = exec c { s with pending := q }) ∧
  (∀ s : State, s.pending = [] → step s = .next (settle s.tick))

/-- Every command of the table completes in every state, with a next state, and leaves the commands that wait behind it as they are,
in their order. Rests on 98. -/
def Obligations.QueueKept : Prop :=
  (∀ (c : Instr) (s t : State), exec c s = .next t → t.pending = s.pending) ∧
  (∀ (c : Instr) (s : State), ∃ t, exec c s = .next t ∧ t.pending = s.pending)

/-- From a state whose stores of dictionary values, pending values, octet strings, IO registers, shared SRAM and core memories are
in canonical form (addresses rising, nothing listed that reads as an unlisted address does), every step leads to such a state, so
that equal contents stay equal data. The form is the model's own, log entry 3. Rests on 10 R279, 13 R355. -/
def Obligations.StoresStayCanonical : Prop :=
  ∀ s t : State, s.canonical = true → step s = .next t → t.canonical = true

/-- At reset no command waits, STAT shows reset with nothing held, the time base is 0, every gate is off, every converter is
stopped, no engine lives, no session is open, the stores are in canonical form and the pins follow the state. Rests on 01 R13, 10
R277, 15 R407, 06 R206. -/
def Obligations.ResetState : Prop :=
  State.reset.pending = [] ∧ State.reset.sec.stat = 0 ∧ State.reset.sec.held = false ∧ State.reset.tb = 0 ∧
  (∀ p : Port, (State.reset.path p).gate = .off) ∧ (∀ c : Conv, (State.reset.conv c).run = .stopped) ∧
  (∀ e : Eng, State.reset.engLive e = false) ∧ (∀ t : Transport, (State.reset.ses t).phase = .none) ∧
  State.reset.canonical = true ∧ State.reset.pinsOk = true

/-- For every request whose operands fit their fields and whose body fits a frame, the frame built from the header of Table 13.2,
the body of Table 13.3 and the CRC trailer is taken as exactly that request, with every operand at every value. Rests on 13 R361,
13 R362, 13 R364, 13 R366. -/
def Obligations.RequestFrames : Prop :=
  ∀ (s : State) (src : Requester) (seq : Nat) (q : Req), q.encodable = true → seq < 65536 → q.body.length ≤ 2048 →
    s.receive src (frame q.flags q.op 0 seq q.body) = s.serve src seq false q

/-- After every command FAULT_N is asserted exactly where a condition selected in the armed FAULT_MASK holds: a port in LOCKOUT
(always selected), a port in SAFE_OFF, a feed in FAULT, a comparator with CHK_FAIL, a failed tile, a rail fault that cuts,
REF_DIVERGE, STRIP_UNARMED, a shed in force. Formalises 05 R164. -/
def Obligations.FaultPin : Prop :=
  ∀ (c : Instr) (s t : State), exec c s = .next t →
    (t.pins.fault = true ↔
      (∃ p : Port, (t.path p).lockout = true) ∨
      (t.scrim.faultMask.testBit 1 = true ∧ ∃ p : Port, (t.path p).safe = true) ∨
      (t.scrim.faultMask.testBit 2 = true ∧ ∃ f : Feed, t.rF f Kf.feedHsState = Hs.fault) ∨
      (t.scrim.faultMask.testBit 3 = true ∧ ∃ k : Cmp, (t.cmp k).chkFail = true) ∨
      (t.scrim.faultMask.testBit 4 = true ∧ ∃ n : Tile, t.lath n = 3) ∨
      (t.scrim.faultMask.testBit 5 = true ∧ t.coatFault = true) ∨
      (t.scrim.faultMask.testBit 6 = true ∧ t.rd K.refDiverge = 1) ∨
      (t.scrim.faultMask.testBit 7 = true ∧ bit (t.rd K.ledgerFlags) 1 = true) ∨
      (t.scrim.faultMask.testBit 8 = true ∧ t.ledger.causes ≠ []))

/-- After every command PWRGD is high exactly where the qualified composite is asserted and no rail selected in the armed
PWRGD_KILL has WIN_L H set (or held at its fault side by a self-check) or L clear; with PWRGD_KILL at 0 it follows the composite
alone. Formalises 05 R165. -/
def Obligations.PwrgdPin : Prop :=
  ∀ (c : Instr) (s t : State), exec c s = .next t →
    (t.pins.pwrgd = true ↔ t.rd K.pwrgdState = 1 ∧
      ∀ n : Rail, t.scrim.pwrgdKill.testBit n.val = true →
        (t.cmp (winL n)).h = false ∧ (t.cmp (winL n)).checking = false ∧ (t.cmp (winL n)).l = true) ∧
    (t.scrim.pwrgdKill = 0 → (t.pins.pwrgd = true ↔ t.rd K.pwrgdState = 1))

/-- The terminations seen stand in the port. From UNATTACHED a port that presents Rp and sees a sink waits in AttachWait.SRC, one
that presents Rd and sees a source in AttachWait.SNK; an attached source that no longer sees Rd on its pin begins to detach. The end
of tCCDebounce attaches: a source gets its orientation, both roles, the cable not yet known, VCONN ownership, a 5 V target of the
RP_LEVEL current and EN; Rd on both pins is a debug accessory. A Try state that sees no partner goes on to TryWait. DRP ports
toggle. A confirmed detach ends in UNATTACHED with the gate off, nothing booked, no contract and the MessageIDs cleared. A port
reset goes through ERROR_RECOVERY, recorded in PD_FAULT, and leaves it when nothing holds the pins open; in SAFE_OFF it changes
nothing, and in link hold it waits for the link. VCONN in limit is turned off with VCONN_OC and the cable counts as not e-marked; an
EPR entry that waits for the cable fails. No other port's records change. Rests on 02 R38, 02 R40, 02 R41, 02 R42, 02 R44, 02 R45,
02 R46, 02 R47, 04 R130, 04 R137, 17 R460. -/
def Obligations.AttachSteps : Prop :=
  (∀ (p : Port) (a : Term) (b : Term) (s : State), (s.port p).ccOpen = true → ∃ t, exec (.ccTerminationChange p a b) s = .next t ∧
    t.port p = { s.port p with ccA := a, ccB := b } ∧ Only [.ports, .pins] s t ∧ (∀ q, q ≠ p → t.port q = s.port q ∧ t.path q = s.path
    q)) ∧
  (∀ (p : Port) (a : Term) (b : Term) (s : State), (s.port p).ccOpen = false → s.rP p Kp.attachState = Att.unattached → (s.port
    p).presentsRp = true → PortHw.seesSink { s.port p with ccA := a, ccB := b } = true → ∃ t, exec (.ccTerminationChange p a b) s =
    .next t ∧ t.rP p Kp.attachState = Att.waitSrc ∧ t.port p = { s.port p with ccA := a, ccB := b } ∧ Only [.od, .ports, .pins] s t ∧
    (∀ q, q ≠ p → t.port q = s.port q ∧ t.path q = s.path q)) ∧
  (∀ (p : Port) (a : Term) (b : Term) (s : State), (s.port p).ccOpen = false → s.rP p Kp.attachState = Att.unattached → (s.port
    p).presentsRp = false → PortHw.seesSource { s.port p with ccA := a, ccB := b } = true → ∃ t, exec (.ccTerminationChange p a b) s =
    .next t ∧ t.rP p Kp.attachState = Att.waitSnk ∧ t.port p = { s.port p with ccA := a, ccB := b } ∧ Only [.od, .ports, .pins] s t ∧
    (∀ q, q ≠ p → t.port q = s.port q ∧ t.path q = s.path q)) ∧
  (∀ (p : Port) (a : Term) (b : Term) (s : State), (s.port p).ccOpen = false → s.rP p Kp.attachState = Att.src → s.rP p Kp.orient = 1 →
    ∃ t, exec (.ccTerminationChange p a b) s = .next t ∧ t.port p = { s.port p with ccA := a, ccB := b, detaching := decide (a ≠ .rd) }
    ∧ Only [.ports, .pins] s t ∧ (∀ q, q ≠ p → t.port q = s.port q ∧ t.path q = s.path q)) ∧
  (∀ (p : Port) (s : State), s.serving p = true → s.power.phase = .run → s.rP p Kp.attachState = Att.waitSrc → (s.port p).one .rd =
    true → s.rP p Kp.role = 0 → ∃ t, exec (.ccDebounceExpiry p) s = .next t ∧ t.rP p Kp.attachState = Att.src ∧ t.rP p Kp.orient = (if
    (s.port p).ccA = .rd then 1 else 2) ∧ t.rP p Kp.powerRole = 1 ∧ t.rP p Kp.dataRole = 1 ∧ t.rP p Kp.cableState = 0 ∧ (t.port
    p).vconnOwner = true ∧ (t.port p).presentsRp = true ∧ t.ior (blockOf p) (0x1004 + 0x100 * localOf p) = s.rpCurrent p * 65536 + 500
    ∧ bit (t.ctrl p) 0 = true ∧ (∀ q, q ≠ p → t.port q = s.port q ∧ t.path q = s.path q)) ∧
  (∀ (p : Port) (s : State), s.serving p = true → s.power.phase = .run → s.rP p Kp.attachState = Att.waitSrc → (s.port p).both .rd =
    true → s.rP p Kp.debugVbus = 0 → ∃ t, exec (.ccDebounceExpiry p) s = .next t ∧ t.rP p Kp.attachState = Att.debug ∧ t.port p =
    s.port p ∧ t.path p = s.path p ∧ (∀ q, q ≠ p → t.port q = s.port q ∧ t.path q = s.path q)) ∧
  (∀ (p : Port) (s : State), s.serving p = true → s.power.phase = .run → s.rP p Kp.attachState = Att.waitSnk → (s.port p).one .rp =
    true → s.rP p Kp.role = 1 → ∃ t, exec (.ccDebounceExpiry p) s = .next t ∧ t.rP p Kp.attachState = Att.snk ∧ t.rP p Kp.orient = (if
    (s.port p).ccA = .rp then 1 else 2) ∧ t.rP p Kp.powerRole = 2 ∧ t.rP p Kp.dataRole = 2 ∧ t.rP p Kp.vconnState = 3 ∧ bit (t.ctrl p)
    1 = true ∧ (∀ q, q ≠ p → t.port q = s.port q ∧ t.path q = s.path q)) ∧
  (∀ (p : Port) (s : State), s.rP p Kp.attachState = Att.trySrc → (s.port p).one .rd = false → ∃ t, exec (.tryTimerExpiry p) s = .next
    t ∧ t.rP p Kp.attachState = Att.tryWaitSnk ∧ t.port p = { s.port p with presentsRp := false } ∧ Only [.od, .ports, .pins] s t ∧ (∀
    q, q ≠ p → t.port q = s.port q ∧ t.path q = s.path q)) ∧
  (∀ (p : Port) (s : State), s.rP p Kp.attachState = Att.trySnk → (s.port p).one .rp = false → ∃ t, exec (.tryTimerExpiry p) s = .next
    t ∧ t.rP p Kp.attachState = Att.tryWaitSrc ∧ t.port p = { s.port p with presentsRp := true } ∧ Only [.od, .ports, .pins] s t ∧ (∀
    q, q ≠ p → t.port q = s.port q ∧ t.path q = s.path q)) ∧
  (∀ (p : Port) (s : State), s.rP p Kp.role = 2 → s.rP p Kp.attachState = Att.unattached → (s.port p).ccOpen = false → ∃ t, exec
    (.drpToggle p) s = .next t ∧ t.port p = { s.port p with presentsRp := !(s.port p).presentsRp } ∧ Only [.ports, .pins] s t ∧ (∀ q, q
    ≠ p → t.port q = s.port q ∧ t.path q = s.path q)) ∧
  (∀ (p : Port) (s : State), s.rP p Kp.role ≠ 2 → ∃ t, exec (.drpToggle p) s = .next t ∧ t.port p = s.port p ∧ Only [.pins] s t ∧ (∀ q,
    q ≠ p → t.port q = s.port q ∧ t.path q = s.path q)) ∧
  (∀ (p : Port) (s : State), (s.port p).detaching = true → s.rP p Kp.role = 0 → ∃ t, exec (.detachConfirmed p) s = .next t ∧ t.rP p
    Kp.attachState = Att.unattached ∧ (t.path p).gate = .off ∧ (t.path p).retryWait = false ∧ t.rP p Kp.pg = 0 ∧ t.rP p Kp.booking = 0
    ∧ t.rP p Kp.contract = Ctr.none ∧ t.rP p Kp.orient = 0 ∧ t.ctrl p = 0 ∧ (t.port p).txId = 0 ∧ (t.port p).held = [] ∧ (t.port
    p).detaching = false ∧ p ∉ t.ledger.waiting ∧ (∀ q, q ≠ p → t.port q = s.port q ∧ t.path q = s.path q)) ∧
  (∀ (p : Port) (s : State), (s.port p).detaching = false → ∃ t, exec (.detachConfirmed p) s = .next t ∧ t.port p = s.port p ∧ Only
    [.pins] s t ∧ (∀ q, q ≠ p → t.port q = s.port q ∧ t.path q = s.path q)) ∧
  (∀ (p : Port) (s : State), (s.path p).safe = false → s.held p = false → ∃ t, exec (.portReset p) s = .next t ∧ t.rP p Kp.attachState
    = Att.errorRecovery ∧ t.rP p Kp.pdFault = PdF.errorRecovery ∧ (t.path p).gate = .off ∧ (t.port p).ccOpen = true ∧ t.rP p
    Kp.contract = Ctr.none ∧ t.rP p Kp.booking = 0 ∧ t.rP p Kp.retryLeft = s.rP p Kp.retryLeft ∧ bit (t.rd K.alertSrc) 0 = true ∧ (∀ q,
    q ≠ p → t.port q = s.port q ∧ t.path q = s.path q)) ∧
  (∀ (p : Port) (s : State), (s.path p).safe = true → s.held p = false → ∃ t, exec (.portReset p) s = .next t ∧ t.port p = s.port p ∧
    Only [.pins] s t ∧ (∀ q, q ≠ p → t.port q = s.port q ∧ t.path q = s.path q)) ∧
  (∀ (p : Port) (s : State), s.held p = true → exec (.portReset p) s = .next (settle (s.toTile p (.reset p)))) ∧
  (∀ (p : Port) (s : State), s.rP p Kp.attachState = Att.errorRecovery → (s.path p).cut = false → (s.path p).lockout = false → s.rP p
    Kp.ledgerState ≠ 4 → (s.port p).toDisable = false → s.rP p Kp.role ≠ 3 → (s.tile (tileOf p)).feOk = true → s.sec.stat = 7 → ∃ t,
    exec (.errorRecoveryEnd p) s = .next t ∧ t.rP p Kp.attachState = Att.unattached ∧ (t.port p).ccOpen = false ∧ (t.port p).presentsRp
    = decide (s.rP p Kp.role ≠ 1) ∧ Only [.od, .ports, .pins] s t ∧ (∀ q, q ≠ p → t.port q = s.port q ∧ t.path q = s.path q)) ∧
  (∀ (p : Port) (s : State), s.rP p Kp.attachState = Att.errorRecovery → (s.path p).cut = false → (s.path p).lockout = false → s.rP p
    Kp.ledgerState ≠ 4 → (s.port p).toDisable = false → (s.tile (tileOf p)).feOk = false → ∃ t, exec (.errorRecoveryEnd p) s = .next t
    ∧ (t.port p).ccOpen = true ∧ (t.port p).clamp = decide (s.storedRole p = 1 ∨ s.storedRole p = 2) ∧ Only [.od, .ports, .pins] s t ∧
    (∀ q, q ≠ p → t.port q = s.port q ∧ t.path q = s.path q)) ∧
  (∀ (p : Port) (s : State), s.rP p Kp.attachState = Att.errorRecovery → (s.path p).lockout = true → ∃ t, exec (.errorRecoveryEnd p) s
    = .next t ∧ t.port p = s.port p ∧ Only [.pins] s t ∧ (∀ q, q ≠ p → t.port q = s.port q ∧ t.path q = s.path q)) ∧
  (∀ (p : Port) (s : State), s.vconnSource p = true → (s.port p).swap = none → ((s.port p).eprEntering = false ∨ (s.port p).cableTries
    = 0) → ∃ t, exec (.vconnLimitExpiry p) s = .next t ∧ t.rP p Kp.vconnState = 0 ∧ (t.port p).vconnOc = true ∧ t.rP p Kp.pdFault =
    PdF.vconnOc ∧ t.rP p Kp.cableState = 1 ∧ t.rP p Kp.cableIMax = 300 ∧ t.rP p Kp.cableVMax = 2000 ∧ t.rP p Kp.cableEpr = 0 ∧ Only
    [.od, .ports, .recorder, .pins] s t ∧ (∀ q, q ≠ p → t.port q = s.port q ∧ t.path q = s.path q)) ∧
  (∀ (p : Port) (s : State), s.vconnSource p = true → (s.port p).swap = none → (s.port p).eprEntering = true → (s.port p).cableTries ≠
    0 → (s.port p).hardReset ≠ .signalling → ∃ t, exec (.vconnLimitExpiry p) s = .next t ∧ (t.port p).eprEntering = false ∧ (t.port
    p).tx = (s.port p).tx ++ [msg .eprEnterFail [EprFail.cable]] ∧ t.rP p Kp.pdFault = PdF.vconnOc ∧ (∀ q, q ≠ p → t.port q = s.port q
    ∧ t.path q = s.path q)) ∧
  (∀ (p : Port) (s : State), s.vconnSource p = false → ∃ t, exec (.vconnLimitExpiry p) s = .next t ∧ t.port p = s.port p ∧ Only [.pins]
    s t ∧ (∀ q, q ≠ p → t.port q = s.port q ∧ t.path q = s.path q))

/-- A message that the owning engine reads is answered with the message the manual names and changes nothing else of the port but
the MessageID: revision, manufacturer, status, PPS status, source information and extended capabilities, identity (NAK while USB_VID
is 0), the fixed answers to absent and unsupported functions, and capabilities refused by role. Source_Capabilities carry the offer
built from the stored objects and reset nothing else. While the first ones wait for the cable none is sent. A message that starts an
exchange cancels a swap request of the device that has not gone out. BIST modes start or are ignored. Nothing outside the port
records changes. Rests on 02 R48, 02 R49, 02 R50, 02 R51, 02 R53, 02 R63, 02 R72. -/
def Obligations.PdAnswers : Prop :=
  (∀ (p : Port) (id : Fin 8) (rev3 : Bool) (s : State), reads s p id → s.rP p Kp.pdRev = 3 → ∃ t, exec (.rxGetRevision p id rev3) s =
    .next t ∧ answered s t p id (msg .revision [3, 2]) ∧ Only [.ports, .pins] s t ∧ (∀ q, q ≠ p → t.port q = s.port q)) ∧
  (∀ (p : Port) (id : Fin 8) (rev3 : Bool) (s : State), s.attached p = true → (s.port p).hardReset ≠ .signalling → (s.port p).rxId ≠
    some id.val → s.rP p Kp.pdRev = 3 → s.serving p = true → s.inTransition p = false → ((s.port p).tx.drop 1).any TxMsg.asksSwap =
    true → ∃ t, exec (.rxGetRevision p id rev3) s = .next t ∧ (t.port p).swap = none ∧ (t.port p).tx = (s.port p).tx.take 1 ++ ((s.port
    p).tx.drop 1).filter (fun m => !m.asksSwap) ++ [msg .revision [3, 2]] ∧ Only [.ports, .pins] s t ∧ (∀ q, q ≠ p → t.port q = s.port
    q)) ∧
  (∀ (p : Port) (id : Fin 8) (rev3 : Bool) (s : State), reads s p id → s.rP p Kp.pdRev = 3 → ∃ t, exec (.rxGetManufacturerInfo p id
    rev3) s = .next t ∧ answered s t p id (msg .manufacturerInfo ([s.rP p Kp.usbVid, s.rP p Kp.usbPid] ++ ((s.useText (keyP p
    Kp.mfrString)).rdB (keyP p Kp.mfrString)).map fun (b : Nat) => (b : Int))) ∧ Only [.odNew, .blob, .ports, .pins] s t ∧ (∀ q, q ≠ p
    → t.port q = s.port q)) ∧
  (∀ (p : Port) (id : Fin 8) (rev3 : Bool) (s : State), reads s p id → s.rP p Kp.pdRev = 3 → ∃ t, exec (.rxGetStatus p id rev3) s =
    .next t ∧ answered s t p id (msg .status [s.rP p Kp.tjModel / 10, b2i (bit (s.rP p Kp.ppFaultSet) 4), b2i (bit (s.rP p Kp.ppFlags)
    3), b2i (bit (s.rP p Kp.ppFaultSet) 8)]) ∧ Only [.ports, .pins] s t ∧ (∀ q, q ≠ p → t.port q = s.port q)) ∧
  (∀ (p : Port) (id : Fin 8) (rev3 : Bool) (s : State), reads s p id → s.rP p Kp.pdRev = 3 → bit (s.rP p Kp.partnerFlags) 4 = true → ∃
    t, exec (.rxGetPpsStatus p id rev3) s = .next t ∧ answered s t p id (msg .ppsStatus [(s.path p).vNow, (s.path p).iNow, b2i (s.port
    p).ppsLimit]) ∧ Only [.ports, .pins] s t ∧ (∀ q, q ≠ p → t.port q = s.port q)) ∧
  (∀ (p : Port) (id : Fin 8) (rev3 : Bool) (s : State), reads s p id → bit (s.rP p Kp.partnerFlags) 4 = false → s.rP p Kp.pdRev = 3 → ∃
    t, exec (.rxGetPpsStatus p id rev3) s = .next t ∧ answered s t p id (msg .notSupported []) ∧ Only [.ports, .pins] s t ∧ (∀ q, q ≠ p
    → t.port q = s.port q)) ∧
  (∀ (p : Port) (id : Fin 8) (rev3 : Bool) (s : State), reads s p id → s.rP p Kp.pdRev = 3 → s.sinkRole p = false → ∃ t, exec
    (.rxGetSourceInfo p id rev3) s = .next t ∧ answered s t p id (msg .sourceInfo [0, effAllot s p, s.rP p Kp.booking, freePower s]) ∧
    Only [.ports, .pins] s t ∧ (∀ q, q ≠ p → t.port q = s.port q)) ∧
  (∀ (p : Port) (id : Fin 8) (rev3 : Bool) (s : State), reads s p id → s.rP p Kp.pdRev = 3 → s.sinkRole p = false → ∃ t, exec
    (.rxGetSourceCapExtended p id rev3) s = .next t ∧ answered s t p id (msg .sourceCapsExt [s.rP p Kp.usbVid, s.rP p Kp.usbPid, s.rP p
    Kp.xid, s.rP p Kp.bcdDevice, effAllot s p / 10]) ∧ Only [.ports, .pins] s t ∧ (∀ q, q ≠ p → t.port q = s.port q)) ∧
  (∀ (p : Port) (id : Fin 8) (rev3 : Bool) (s : State), reads s p id → s.rP p Kp.pdRev = 3 → s.sinkRole p = true → ∃ t, exec
    (.rxGetSourceInfo p id rev3) s = .next t ∧ answered s t p id (msg .notSupported []) ∧ Only [.ports, .pins] s t ∧ (∀ q, q ≠ p →
    t.port q = s.port q)) ∧
  (∀ (p : Port) (id : Fin 8) (rev3 : Bool) (s : State), reads s p id → s.rP p Kp.pdRev = 3 → s.sinkRole p = true → ∃ t, exec
    (.rxGetSourceCapExtended p id rev3) s = .next t ∧ answered s t p id (msg .notSupported []) ∧ Only [.ports, .pins] s t ∧ (∀ q, q ≠ p
    → t.port q = s.port q)) ∧
  (∀ (p : Port) (id : Fin 8) (rev3 : Bool) (s : State), reads s p id → s.rP p Kp.usbVid = 0 → ∃ t, exec (.rxDiscoverIdentity p id rev3)
    s = .next t ∧ answered s t p id (msg .vdmNak []) ∧ Only [.ports, .pins] s t ∧ (∀ q, q ≠ p → t.port q = s.port q)) ∧
  (∀ (p : Port) (id : Fin 8) (rev3 : Bool) (s : State), reads s p id → s.rP p Kp.usbVid ≠ 0 → s.rP p Kp.powerRole = 1 → ∃ t, exec
    (.rxDiscoverIdentity p id rev3) s = .next t ∧ answered s t p id (msg .identity [s.rP p Kp.usbVid + 3 * 2 ^ 23, s.rP p Kp.xid, s.rP
    p Kp.usbPid * 65536 + s.rP p Kp.bcdDevice]) ∧ Only [.ports, .pins] s t ∧ (∀ q, q ≠ p → t.port q = s.port q)) ∧
  (∀ (p : Port) (id : Fin 8) (rev3 : Bool) (a : Absent) (s : State), reads s p id → a = .vdmCommand → ∃ t, exec (.rxAbsentFunction p id
    rev3 a) s = .next t ∧ answered s t p id (msg .vdmNak []) ∧ Only [.ports, .pins] s t ∧ (∀ q, q ≠ p → t.port q = s.port q)) ∧
  (∀ (p : Port) (id : Fin 8) (rev3 : Bool) (a : Absent) (s : State), reads s p id → a = .bistSharedTest → ∃ t, exec (.rxAbsentFunction
    p id rev3 a) s = .next t ∧ t.port p = { s.port p with rxId := some id.val } ∧ Only [.ports, .pins] s t ∧ (∀ q, q ≠ p → t.port q =
    s.port q)) ∧
  (∀ (p : Port) (id : Fin 8) (rev3 : Bool) (a : Absent) (s : State), reads s p id → a = .dataReset → s.rP p Kp.pdRev = 3 → ∃ t, exec
    (.rxAbsentFunction p id rev3 a) s = .next t ∧ answered s t p id (msg .notSupported []) ∧ Only [.ports, .pins] s t ∧ (∀ q, q ≠ p →
    t.port q = s.port q)) ∧
  (∀ (p : Port) (id : Fin 8) (rev3 : Bool) (a : Absent) (s : State), reads s p id → a = .eprEnterDisabled → ∃ t, exec
    (.rxAbsentFunction p id rev3 a) s = .next t ∧ answered s t p id (msg .eprEnterFail [EprFail.unsupported]) ∧ Only [.ports, .pins] s
    t ∧ (∀ q, q ≠ p → t.port q = s.port q)) ∧
  (∀ (p : Port) (id : Fin 8) (rev3 : Bool) (bist : Bool) (s : State), reads s p id → bist = false → s.rP p Kp.pdRev = 3 → ∃ t, exec
    (.rxUnsupported p id rev3 bist) s = .next t ∧ answered s t p id (msg .notSupported []) ∧ Only [.ports, .pins] s t ∧ (∀ q, q ≠ p →
    t.port q = s.port q)) ∧
  (∀ (p : Port) (id : Fin 8) (rev3 : Bool) (bist : Bool) (s : State), reads s p id → bist = false → s.rP p Kp.pdRev = 2 → ∃ t, exec
    (.rxUnsupported p id rev3 bist) s = .next t ∧ answered s t p id (msg .reject []) ∧ Only [.ports, .pins] s t ∧ (∀ q, q ≠ p → t.port
    q = s.port q)) ∧
  (∀ (p : Port) (id : Fin 8) (rev3 : Bool) (bist : Bool) (s : State), reads s p id → bist = true → ∃ t, exec (.rxUnsupported p id rev3
    bist) s = .next t ∧ t.port p = { s.port p with rxId := some id.val } ∧ Only [.ports, .pins] s t ∧ (∀ q, q ≠ p → t.port q = s.port
    q)) ∧
  (∀ (p : Port) (id : Fin 8) (rev3 : Bool) (s : State), reads s p id → s.rP p Kp.role ≠ 1 → s.odNew = [] → s.capsHeld p = false →
    (s.port p).eprMode = false → ∃ t, exec (.rxGetSourceCap p id rev3) s = .next t ∧ t.port p =
    { s.port p with rxId := some id.val, offer := s.buildOffer p false, capsCount := (s.port p).capsCount + 1, tx := (s.port p).tx ++ [msg .sourceCaps (s.buildOffer p false)] }
    ∧ Only [.ports, .pins] s t ∧ (∀ q, q ≠ p → t.port q = s.port q)) ∧
  (∀ (p : Port) (id : Fin 8) (rev3 : Bool) (s : State), reads s p id → s.rP p Kp.role ≠ 1 → s.capsHeld p = true → ∃ t, exec
    (.rxGetSourceCap p id rev3) s = .next t ∧ t.port p = { s.port p with rxId := some id.val } ∧ Only [.ports, .pins] s t ∧ (∀ q, q ≠ p
    → t.port q = s.port q)) ∧
  (∀ (p : Port) (id : Fin 8) (rev3 : Bool) (s : State), reads s p id → s.rP p Kp.role = 1 → s.rP p Kp.pdRev = 3 → ∃ t, exec
    (.rxGetSourceCap p id rev3) s = .next t ∧ answered s t p id (msg .notSupported []) ∧ Only [.ports, .pins] s t ∧ (∀ q, q ≠ p →
    t.port q = s.port q)) ∧
  (∀ (p : Port) (id : Fin 8) (rev3 : Bool) (s : State), reads s p id → s.rP p Kp.role ≠ 0 → s.odNew = [] → ∃ t, exec (.rxGetSinkCap p
    id rev3) s = .next t ∧ answered s t p id (msg .sinkCaps (s.pdos p Kp.snkPdo 7)) ∧ Only [.ports, .pins] s t ∧ (∀ q, q ≠ p → t.port q
    = s.port q)) ∧
  (∀ (p : Port) (id : Fin 8) (rev3 : Bool) (s : State), reads s p id → s.rP p Kp.role = 0 → s.rP p Kp.pdRev = 3 → ∃ t, exec
    (.rxGetSinkCap p id rev3) s = .next t ∧ answered s t p id (msg .notSupported []) ∧ Only [.ports, .pins] s t ∧ (∀ q, q ≠ p → t.port
    q = s.port q)) ∧
  (∀ (p : Port) (id : Fin 8) (rev3 : Bool) (m : BistMode) (s : State), reads s p id → m = .carrier → ∃ t, exec (.rxBist p id rev3 m) s
    = .next t ∧ t.port p = { s.port p with rxId := some id.val, bist := some .carrier } ∧ Only [.ports, .pins] s t ∧ (∀ q, q ≠ p →
    t.port q = s.port q)) ∧
  (∀ (p : Port) (id : Fin 8) (rev3 : Bool) (m : BistMode) (s : State), reads s p id → m = .unknown → ∃ t, exec (.rxBist p id rev3 m) s
    = .next t ∧ t.port p = { s.port p with rxId := some id.val } ∧ Only [.ports, .pins] s t ∧ (∀ q, q ≠ p → t.port q = s.port q)) ∧
  (∀ (p : Port) (s : State), (s.port p).bist = some .carrier → ∃ t, exec (.bistCarrierEnd p) s = .next t ∧ t.port p =
    { s.port p with bist := none } ∧ Only [.ports, .pins] s t ∧ (∀ q, q ≠ p → t.port q = s.port q))

/-- A Request within the offered object is admitted at its power: on a grant the port books that power, Accept goes out and the
contract is in transition toward what was asked; beyond the object it is rejected and counted with the contract as it stood. EPR
entry is acknowledged where its conditions hold, fails while EPR_EN is 0 and, by its own code, where the cable does not qualify;
exit returns to SPR capabilities; a keep-alive is acknowledged. Swaps that policy and role allow are accepted, others rejected and
counted. A sink asks for one of the offered objects, drawn freely; Accept, Reject, Wait and PS_RDY move its contract. Sink
capabilities that name a Fast Role Swap current begin the check of a port without a shed once granted; the port is armed after that
check (PathRequests). Security responses lead on. The FR_Swap exchange after the switch-over makes the port source. Rests on 02 R54,
02 R58, 02 R59, 02 R60, 02 R62, 02 R63, 02 R64, 02 R65, 03 R76, 03 R77. -/
def Obligations.PdRequests : Prop :=
  (∀ (p : Port) (id : Fin 8) (rev3 : Bool) (epr : Bool) (pos : Nat) (v : Nat) (i : Nat) (pdo : Nat) (s : State), reads s p id → epr =
    false → s.rP p Kp.powerRole = 1 → pos ≠ 0 → (s.port p).offer.getD (pos - 1) 0 ≠ 0 → exceeds ((s.port p).offer.getD (pos - 1) 0) v i
    = false → s.cableBeyond p ((s.port p).offer.getD (pos - 1) 0) i = false → s.odNew = [] → admitResult s p (ceilDiv ((wantedOf
    ((s.port p).offer.getD (pos - 1) 0) pos v i false).v * (wantedOf ((s.port p).offer.getD (pos - 1) 0) pos v i false).i) 1000) = 1 →
    ∃ t, exec (.rxRequest p id rev3 epr pos v i pdo) s = .next t ∧ t.rP p Kp.contract = Ctr.transition ∧ t.rP p Kp.booking = ceilDiv
    ((wantedOf ((s.port p).offer.getD (pos - 1) 0) pos v i false).v * (wantedOf ((s.port p).offer.getD (pos - 1) 0) pos v i false).i)
    1000 ∧ t.port p =
    { s.port p with rxId := some id.val, awaits := none, wanted := some (wantedOf ((s.port p).offer.getD (pos - 1) 0) pos v i false), tx := (s.port p).tx ++ [{ kind := .accept, objs := [], re := some .request }] }
    ∧ p ∉ t.ledger.waiting ∧ (∀ q, q ≠ p → t.port q = s.port q)) ∧
  (∀ (p : Port) (id : Fin 8) (rev3 : Bool) (epr : Bool) (pos : Nat) (v : Nat) (i : Nat) (pdo : Nat) (s : State), reads s p id → epr =
    false → s.rP p Kp.powerRole = 1 → pos ≠ 0 → (s.port p).offer.getD (pos - 1) 0 ≠ 0 → exceeds ((s.port p).offer.getD (pos - 1) 0) v i
    = true → s.cableBeyond p ((s.port p).offer.getD (pos - 1) 0) i = false → ∃ t, exec (.rxRequest p id rev3 epr pos v i pdo) s = .next
    t ∧ t.rP p Kp.contract = s.standing p ∧ t.rP p Kp.booking = s.rP p Kp.booking ∧ t.rP p (Kp.pdCounters + 5) = satInc (s.rP p
    (Kp.pdCounters + 5)) u32Max ∧ t.port p =
    { s.port p with rxId := some id.val, awaits := none, tx := (s.port p).tx ++ [{ kind := .reject, objs := [], re := some .request }] }
    ∧ Only [.od, .ports, .pins] s t ∧ (∀ q, q ≠ p → t.port q = s.port q)) ∧
  (∀ (p : Port) (id : Fin 8) (rev3 : Bool) (epr : Bool) (pos : Nat) (v : Nat) (i : Nat) (pdo : Nat) (s : State), reads s p id → epr =
    false → s.rP p Kp.powerRole = 1 → pos = 0 → ∃ t, exec (.rxRequest p id rev3 epr pos v i pdo) s = .next t ∧ t.rP p Kp.pdFault =
    PdF.protocolError ∧ (t.port p).tx = [msg .softReset []] ∧ (t.port p).txId = 0 ∧ (t.port p).rxId = none ∧ (∀ q, q ≠ p → t.port q =
    s.port q)) ∧
  (∀ (p : Port) (id : Fin 8) (rev3 : Bool) (pdp : Nat) (s : State), reads s p id → s.rP p Kp.pdRev = 3 → s.rP p Kp.eprEn = 0 → ∃ t,
    exec (.rxEprModeEnter p id rev3 pdp) s = .next t ∧ answered s t p id (msg .eprEnterFail [EprFail.unsupported]) ∧ Only [.ports,
    .pins] s t ∧ (∀ q, q ≠ p → t.port q = s.port q)) ∧
  (∀ (p : Port) (id : Fin 8) (rev3 : Bool) (pdp : Nat) (s : State), reads s p id → s.rP p Kp.pdRev = 3 → s.rP p Kp.eprEn ≠ 0 → s.rP p
    Kp.powerRole = 1 → s.explicitContract p = true → (s.port p).eprMode = false → s.eprStands p = false → s.rP p Kp.cableEpr = 1 →
    s.odNew = [] → admitResult s p (s.eprPower p pdp) = 1 → ∃ t, exec (.rxEprModeEnter p id rev3 pdp) s = .next t ∧ t.rP p Kp.booking =
    s.eprPower p pdp ∧ bit (t.rP p Kp.partnerFlags) 2 = true ∧ t.port p =
    { s.port p with rxId := some id.val, eprEntering := true, eprGrant := s.eprPower p pdp, tx := (s.port p).tx ++ [msg .eprEnterAck []] }
    ∧ (∀ q, q ≠ p → t.port q = s.port q)) ∧
  (∀ (p : Port) (id : Fin 8) (rev3 : Bool) (s : State), reads s p id → s.rP p Kp.pdRev = 3 → (s.port p).eprMode = true → s.odNew = [] →
    ∃ t, exec (.rxEprModeExit p id rev3) s = .next t ∧ t.port p =
    { s.port p with rxId := some id.val, eprMode := false, eprTimer := false, offer := s.buildOffer p false, capsCount := (s.port p).capsCount + 1, tx := (s.port p).tx ++ [msg .sourceCaps (s.buildOffer p false)] }
    ∧ Only [.ports, .pins] s t ∧ (∀ q, q ≠ p → t.port q = s.port q)) ∧
  (∀ (p : Port) (id : Fin 8) (rev3 : Bool) (s : State), reads s p id → s.rP p Kp.pdRev = 3 → (s.port p).eprMode = true → ∃ t, exec
    (.rxEprKeepalive p id rev3) s = .next t ∧ t.port p =
    { s.port p with rxId := some id.val, eprTimer := true, tx := (s.port p).tx ++ [msg .keepAliveAck []] } ∧ Only [.ports, .pins] s t ∧
    (∀ q, q ≠ p → t.port q = s.port q)) ∧
  (∀ (p : Port) (id : Fin 8) (rev3 : Bool) (s : State), reads s p id → s.explicitContract p = true → s.rP p Kp.role = 2 → bit (s.rP p
    Kp.swapPolicy) 0 = true → (s.port p).eprMode = false → s.eprStands p = false → ∃ t, exec (.rxPrSwap p id rev3) s = .next t ∧ t.port
    p =
    { s.port p with rxId := some id.val, swap := some { kind := .pr, ours := false, accepted := false, give := false }, tx := (s.port p).tx ++ [{ kind := .accept, objs := [], re := some .prSwap }] }
    ∧ Only [.ports, .pins] s t ∧ (∀ q, q ≠ p → t.port q = s.port q)) ∧
  (∀ (p : Port) (id : Fin 8) (rev3 : Bool) (s : State), reads s p id → s.rP p Kp.role = 0 → ∃ t, exec (.rxPrSwap p id rev3) s = .next t
    ∧ answered s t p id { kind := .reject, objs := [], re := some .prSwap } ∧ t.rP p (Kp.pdCounters + 5) = satInc (s.rP p
    (Kp.pdCounters + 5)) u32Max ∧ Only [.od, .ports, .pins] s t ∧ (∀ q, q ≠ p → t.port q = s.port q)) ∧
  (∀ (p : Port) (id : Fin 8) (rev3 : Bool) (s : State), reads s p id → s.explicitContract p = true → bit (s.rP p Kp.swapPolicy) 1 =
    true → ∃ t, exec (.rxDrSwap p id rev3) s = .next t ∧ t.port p =
    { s.port p with rxId := some id.val, swap := some { kind := .dr, ours := false, accepted := false, give := false }, tx := (s.port p).tx ++ [{ kind := .accept, objs := [], re := some .drSwap }] }
    ∧ Only [.ports, .pins] s t ∧ (∀ q, q ≠ p → t.port q = s.port q)) ∧
  (∀ (p : Port) (id : Fin 8) (rev3 : Bool) (s : State), reads s p id → s.explicitContract p = true → bit (s.rP p Kp.swapPolicy) 2 =
    true → (s.port p).vconnOwner = true → ∃ t, exec (.rxVconnSwap p id rev3) s = .next t ∧ t.port p =
    { s.port p with rxId := some id.val, swap := some { kind := .vconn, ours := false, accepted := false, give := false }, tx := (s.port p).tx ++ [{ kind := .accept, objs := [], re := some .vconnSwap }] }
    ∧ Only [.ports, .pins] s t ∧ (∀ q, q ≠ p → t.port q = s.port q)) ∧
  (∀ (p : Port) (id : Fin 8) (rev3 : Bool) (s : State), reads s p id → bit (s.rP p Kp.swapPolicy) 2 = false → ∃ t, exec (.rxVconnSwap p
    id rev3) s = .next t ∧ answered s t p id { kind := .reject, objs := [], re := some .vconnSwap } ∧ Only [.od, .ports, .pins] s t ∧
    (∀ q, q ≠ p → t.port q = s.port q)) ∧
  (∀ (p : Port) (id : Fin 8) (rev3 : Bool) (m : Unx) (s : State), reads s p id → m = .ping → ∃ t, exec (.rxUnexpected p id rev3 m) s =
    .next t ∧ t.port p = { s.port p with rxId := some id.val } ∧ Only [.ports, .pins] s t ∧ (∀ q, q ≠ p → t.port q = s.port q)) ∧
  (∀ (p : Port) (id : Fin 8) (rev3 : Bool) (m : Unx) (s : State), reads s p id → m = .other → ∃ t, exec (.rxUnexpected p id rev3 m) s =
    .next t ∧ t.rP p Kp.pdFault = PdF.protocolError ∧ (t.port p).tx = [msg .softReset []] ∧ (t.port p).txId = 0 ∧ (t.port p).rxId =
    none ∧ (t.port p).awaits = none ∧ Only [.od, .io, .ports, .recorder, .pins] s t ∧ (∀ q, q ≠ p → t.port q = s.port q)) ∧
  (∀ (p : Port) (id : Fin 8) (rev3 : Bool) (s : State), reads s p id → ∃ t, exec (.rxSoftReset p id rev3) s = .next t ∧ t.rP p
    Kp.pdFault = PdF.protocolError ∧ (t.port p).tx = [{ kind := .accept, objs := [], re := some .softReset }] ∧ (t.port p).txId = 0 ∧
    (t.port p).rxId = none ∧ (t.port p).held = [] ∧ Only [.od, .ports, .recorder, .pins] s t ∧ (∀ q, q ≠ p → t.port q = s.port q)) ∧
  (∀ (p : Port) (s : State), s.attached p = true → s.rP p Kp.powerRole = 1 → ∃ t, exec (.rxHardReset p) s = .next t ∧ (t.port
    p).hardReset = .waitOff ∧ t.rP p Kp.contract = Ctr.hardReset ∧ t.rP p Kp.contractPos = 0 ∧ t.rP p Kp.booking = 0 ∧ t.rP p
    Kp.pdFault = PdF.hardResetReceived ∧ t.rP p (Kp.pdCounters + 1) = satInc (s.rP p (Kp.pdCounters + 1)) u32Max ∧ (t.port p).txId = 0
    ∧ (t.port p).eprMode = false ∧ (t.port p).tx = [] ∧ p ∉ t.ledger.waiting ∧ (t.path p).gate = (s.path p).gate ∧ (∀ q, q ≠ p → t.port
    q = s.port q)) ∧
  (∀ (p : Port) (s : State), s.attached p = false → ∃ t, exec (.rxHardReset p) s = .next t ∧ t.port p = s.port p ∧ Only [.pins] s t ∧
    (∀ q, q ≠ p → t.port q = s.port q)) ∧
  (∀ (p : Port) (id : Fin 8) (rev3 : Bool) (frs : Nat) (s : State), reads s p id → frs = 0 → ∃ t, exec (.rxSinkCapabilities p id rev3
    frs) s = .next t ∧ bit (t.rP p Kp.partnerFlags) 1 = false ∧ t.port p = { s.port p with rxId := some id.val } ∧ Only [.od, .ports,
    .pins] s t ∧ (∀ q, q ≠ p → t.port q = s.port q)) ∧
  (∀ (p : Port) (id : Fin 8) (rev3 : Bool) (frs : Nat) (s : State), reads s p id → 0 < frs → s.sinkRole p = true → s.rP p
    Kp.attachState = Att.snk → bit (s.rP p Kp.swapPolicy) 4 = true → (s.lport p).shedAllot = none → s.odNew = [] → admitResult s p
    (ceilDiv (500 * frs) 1000) = 1 → ∃ t, exec (.rxSinkCapabilities p id rev3 frs) s = .next t ∧ bit (t.rP p Kp.partnerFlags) 1 = true
    ∧ (t.port p).frsCurrent = frs ∧ (t.path p).frsWait = true ∧ (t.path p).frsArmed = false ∧ bit (t.ctrl p) 3 = true ∧ t.rP p
    Kp.booking = ceilDiv (500 * frs) 1000 ∧ (t.cmp (winI p)).checking = true ∧ (t.cmp (winV p)).checking = true ∧ (∀ q, q ≠ p → t.port
    q = s.port q)) ∧
  (∀ (p : Port) (id : Fin 8) (rev3 : Bool) (last : Bool) (s : State), reads s p id → (s.port p).authStep = 1 → s.rP p Kp.powerRole = 1
    → s.explicitContract p = true → s.rP p Kp.pdRev = 3 → ∃ t, exec (.rxSecurityResponse p id rev3 last) s = .next t ∧ t.port p =
    { s.port p with rxId := some id.val, awaits := none, authStep := 2, sinkTx := [msg .securityRequest [2]] } ∧ Only [.ports, .pins] s
    t ∧ (∀ q, q ≠ p → t.port q = s.port q)) ∧
  (∀ (p : Port) (id : Fin 8) (rev3 : Bool) (last : Bool) (s : State), reads s p id → s.rP p Kp.pdRev = 3 → (s.port p).authStep = 2 →
    last = true → ∃ t, exec (.rxSecurityResponse p id rev3 last) s = .next t ∧ t.port p =
    { s.port p with rxId := some id.val, awaits := none } ∧ Only [.ports, .pins] s t ∧ (∀ q, q ≠ p → t.port q = s.port q)) ∧
  (∀ (p : Port) (id : Fin 8) (rev3 : Bool) (pdos : List Nat) (s : State), reads s p id → s.rP p Kp.powerRole = 2 → pdos ≠ [] → ∃ t,
    exec (.rxSourceCapabilities p id rev3 pdos) s = .next t ∧ (t.port p).wanted.any (fun w => decide (1 ≤ w.pos ∧ w.pos ≤ pdos.length))
    = true ∧ (t.port p).tx.length = (s.port p).tx.length + 1 ∧ ((t.port p).tx.getLast?.map (·.kind)) = some .request ∧ (t.port
    p).awaits = none ∧ bit (t.rP p Kp.partnerFlags) 0 = bit (pdos.headD 0) 29 ∧ Only [.od, .ports, .pins] s t ∧ (∀ q, q ≠ p → t.port q
    = s.port q)) ∧
  (∀ (p : Port) (id : Fin 8) (rev3 : Bool) (s : State), reads s p id → (s.port p).awaits = some .request → (s.port p).wanted = none → ∃
    t, exec (.rxAccept p id rev3) s = .next t ∧ t.rP p Kp.contract = Ctr.transition ∧ t.port p =
    { s.port p with rxId := some id.val, awaits := none } ∧ Only [.od, .ports, .pins] s t ∧ (∀ q, q ≠ p → t.port q = s.port q)) ∧
  (∀ (p : Port) (id : Fin 8) (rev3 : Bool) (w : Wanted) (s : State), reads s p id → (s.port p).awaits = some .request → (s.port
    p).wanted = some w → (s.path p).dir ≠ .sink → ∃ t, exec (.rxAccept p id rev3) s = .next t ∧ t.rP p Kp.contract = Ctr.transition ∧
    t.port p = { s.port p with rxId := some id.val, awaits := none } ∧ t.ior (blockOf p) (0x1004 + 0x100 * localOf p) = w.i * 65536 +
    w.v ∧ Only [.od, .io, .ports, .pins] s t ∧ (∀ q, q ≠ p → t.port q = s.port q)) ∧
  (∀ (p : Port) (id : Fin 8) (rev3 : Bool) (w : Wanted) (s : State), reads s p id → (s.port p).awaits = some .request → (s.port
    p).wanted = some w → (s.path p).dir = .sink → (s.path p).target < w.v → ∃ t, exec (.rxAccept p id rev3) s = .next t ∧ t.rP p
    Kp.contract = Ctr.transition ∧ t.port p = { s.port p with rxId := some id.val, awaits := none } ∧ t.ior (blockOf p) (0x1004 + 0x100
    * localOf p) = w.i * 65536 + w.v ∧ t.rC (winV p) Kc.hiCode = w.v * (100 + s.rP p Kp.ovpPct) / 160 ∧ t.rC (winV p) Kc.loCode = s.rC
    (winV p) Kc.loCode ∧ Only [.od, .io, .ports, .pins] s t ∧ (∀ q, q ≠ p → t.port q = s.port q)) ∧
  (∀ (p : Port) (id : Fin 8) (rev3 : Bool) (s : State), reads s p id → (s.port p).awaits = some .drSwap → ∃ t, exec (.rxAccept p id
    rev3) s = .next t ∧ t.rP p Kp.dataRole = (if s.rP p Kp.dataRole = 1 then 2 else 1) ∧ t.port p =
    { s.port p with rxId := some id.val, awaits := none, swap := none } ∧ Only [.od, .ports, .pins] s t ∧ (∀ q, q ≠ p → t.port q =
    s.port q)) ∧
  (∀ (p : Port) (id : Fin 8) (rev3 : Bool) (s : State), reads s p id → (s.port p).awaits = some .request → ∃ t, exec (.rxReject p id
    rev3) s = .next t ∧ t.rP p Kp.contract = s.standing p ∧ t.port p =
    { s.port p with rxId := some id.val, awaits := none, wanted := none } ∧ Only [.od, .ports, .pins] s t ∧ (∀ q, q ≠ p → t.port q =
    s.port q)) ∧
  (∀ (p : Port) (id : Fin 8) (rev3 : Bool) (s : State), reads s p id → (s.port p).awaits = some .prSwap → ∃ t, exec (.rxReject p id
    rev3) s = .next t ∧ t.port p = { s.port p with rxId := some id.val, awaits := none, swap := none } ∧ Only [.ports, .pins] s t ∧ (∀
    q, q ≠ p → t.port q = s.port q)) ∧
  (∀ (p : Port) (id : Fin 8) (rev3 : Bool) (s : State), reads s p id → (s.port p).awaits = some .request → ∃ t, exec (.rxWait p id
    rev3) s = .next t ∧ t.rP p Kp.contract = s.standing p ∧ t.port p =
    { s.port p with rxId := some id.val, awaits := none, wanted := none } ∧ Only [.od, .ports, .pins] s t ∧ (∀ q, q ≠ p → t.port q =
    s.port q)) ∧
  (∀ (p : Port) (id : Fin 8) (rev3 : Bool) (w : Wanted) (s : State), reads s p id → (s.port p).swap = none → (s.port p).wanted = some w
    → s.rP p Kp.powerRole = 2 → s.rP p Kp.contract = Ctr.transition → (s.port p).eprMode = false → (s.path p).dir ≠ .sink → ∃ t, exec
    (.rxPsRdy p id rev3) s = .next t ∧ t.rP p Kp.contract = Ctr.spr ∧ t.rP p Kp.contractPos = w.pos ∧ t.rP p Kp.contractV = w.v ∧ t.rP
    p Kp.contractI = w.i ∧ (t.port p).wanted = none ∧ Only [.od, .ports, .recorder, .pins] s t ∧ (∀ q, q ≠ p → t.port q = s.port q)) ∧
  (∀ (p : Port) (id : Fin 8) (rev3 : Bool) (w : Wanted) (s : State), reads s p id → (s.port p).swap = none → (s.port p).wanted = some w
    → s.rP p Kp.powerRole = 2 → s.rP p Kp.contract = Ctr.transition → (s.port p).eprMode = false → (s.path p).dir = .sink → ∃ t, exec
    (.rxPsRdy p id rev3) s = .next t ∧ t.rP p Kp.contract = Ctr.spr ∧ t.rP p Kp.contractPos = w.pos ∧ t.rP p Kp.contractV = w.v ∧ t.rP
    p Kp.contractI = w.i ∧ (t.port p).wanted = none ∧ t.path p = { s.path p with target := w.v } ∧ t.rC (winV p) Kc.hiCode = w.v * (100
    + s.rP p Kp.ovpPct) / 160 ∧ t.rC (winV p) Kc.loCode = ceilDiv (w.v * (100 - s.rP p Kp.pgPct)) 160 ∧ (∀ q, q ≠ p → t.path q = s.path
    q) ∧ Only [.od, .paths, .ports, .recorder, .pins] s t ∧ (∀ q, q ≠ p → t.port q = s.port q)) ∧
  (∀ (p : Port) (id : Fin 8) (rev3 : Bool) (s : State), reads s p id → s.rP p Kp.pdRev = 3 → s.rP p Kp.attachState = Att.snk → (s.path
    p).dir = .source → (s.path p).gate = .on → ∃ t, exec (.rxFrSwap p id rev3) s = .next t ∧ t.rP p Kp.attachState = Att.src ∧ t.rP p
    Kp.powerRole = 1 ∧ t.rP p Kp.contract = Ctr.none ∧ bit (t.ctrl p) 0 = true ∧ (t.port p).tx = (s.port p).tx ++ [msg .accept [], msg
    .psRdy []] ∧ (t.port p).presentsRp = true ∧ Only [.od, .io, .ports, .pins] s t ∧ (∀ q, q ≠ p → t.port q = s.port q)) ∧
  (∀ (p : Port) (c : CableVdo) (s : State), s.attached p = true → (s.port p).hardReset ≠ .signalling → s.serving p = true →
    s.inTransition p = false → (s.port p).cableTries ≠ 0 → (s.port p).vconnOc = false → s.odNew = [] → ∃ t, exec (.rxCableIdentity p c)
    s = .next t ∧ t.rP p Kp.cableState = 2 ∧ t.rP p Kp.cableVdo = c.vdo ∧ t.rP p Kp.cableIMax = c.current ∧ t.rP p Kp.cableVMax =
    c.voltage ∧ t.rP p Kp.cableEpr = (if 500 ≤ c.current ∧ 5000 ≤ c.voltage ∧ c.eprCapable = true then 1 else 0) ∧ (t.port
    p).cableKnown = true ∧ (t.port p).cableTries = 0 ∧ (∀ q, q ≠ p → t.port q = s.port q)) ∧
  (∀ (p : Port) (id : Fin 8) (rev3 : Bool) (pdp : Nat) (s : State), reads s p id → s.rP p Kp.pdRev = 3 → s.rP p Kp.eprEn ≠ 0 → s.rP p
    Kp.cableEpr ≠ 1 → ∃ t, exec (.rxEprModeEnter p id rev3 pdp) s = .next t ∧ answered s t p id (msg .eprEnterFail [EprFail.cable]) ∧
    Only [.ports, .pins] s t ∧ (∀ q, q ≠ p → t.port q = s.port q))

/-- GoodCRC takes the first waiting message off, advances the MessageID modulo 8 and clears the retry count; for Source_Capabilities
of a source the contract is being negotiated, while those of a sink await no Request. Without GoodCRC the tile retries twice with a
Revision 3 partner; then an ordinary message is given up and Soft_Reset follows, PS_RDY leads to a Hard Reset. No required answer
leads to a Hard Reset with NO_RESPONSE. Capabilities repeat while no contract stands and PG is up. Cable discovery starts once and
repeats up to four times while the port is source and VCONN source; unanswered, the cable counts as not e-marked. tSinkTx over, the
first waiting message is sent. Rests on 02 R51, 02 R63, 02 R66, 02 R68, 02 R483, 02 R484. -/
def Obligations.PdTransmission : Prop :=
  (∀ (p : Port) (rev3 : Bool) (m : TxMsg) (l : List TxMsg) (s : State), (s.port p).tx = [m] ++ l → s.rP p Kp.pdRev ≠ 0 → m.kind =
    .psRdy → ∃ t, exec (.pdGoodcrcRx p rev3) s = .next t ∧ t.port p =
    { s.port p with tx := l, retries := 0, txId := ((s.port p).txId + 1) % 8 } ∧ Only [.ports, .pins] s t ∧ (∀ q, q ≠ p → t.port q =
    s.port q)) ∧
  (∀ (p : Port) (rev3 : Bool) (m : TxMsg) (l : List TxMsg) (s : State), (s.port p).tx = [m] ++ l → s.rP p Kp.pdRev ≠ 0 → m.kind =
    .sourceCaps → s.rP p Kp.powerRole = 1 → ∃ t, exec (.pdGoodcrcRx p rev3) s = .next t ∧ t.port p =
    { s.port p with tx := l, retries := 0, txId := ((s.port p).txId + 1) % 8, capsCount := 0, awaits := some .sourceCaps } ∧ t.rP p
    Kp.contract = Ctr.negotiating ∧ Only [.od, .ports, .pins] s t ∧ (∀ q, q ≠ p → t.port q = s.port q)) ∧
  (∀ (p : Port) (rev3 : Bool) (s : State), (s.port p).tx = [] → ∃ t, exec (.pdGoodcrcRx p rev3) s = .next t ∧ t.port p = s.port p ∧
    Only [.pins] s t ∧ (∀ q, q ≠ p → t.port q = s.port q)) ∧
  (∀ (p : Port) (m : TxMsg) (l : List TxMsg) (s : State), (s.port p).tx = [m] ++ l → s.rP p Kp.pdRev = 3 → (s.port p).retries < 2 → ∃
    t, exec (.pdRetryTimeout p) s = .next t ∧ t.port p = { s.port p with retries := (s.port p).retries + 1 } ∧ Only [.ports, .pins] s t
    ∧ (∀ q, q ≠ p → t.port q = s.port q)) ∧
  (∀ (p : Port) (m : TxMsg) (l : List TxMsg) (s : State), (s.port p).tx = [m] ++ l → s.rP p Kp.pdRev = 3 → 2 ≤ (s.port p).retries →
    m.kind = .alert → s.inTransition p = false → (s.port p).hardReset ≠ .signalling → ∃ t, exec (.pdRetryTimeout p) s = .next t ∧ t.rP
    p (Kp.pdCounters + 3) = satInc (s.rP p (Kp.pdCounters + 3)) u32Max ∧ (t.port p).tx = [msg .softReset []] ∧ (t.port p).txId = 0 ∧
    t.rP p Kp.pdFault = PdF.protocolError ∧ Only [.od, .io, .ports, .recorder, .pins] s t ∧ (∀ q, q ≠ p → t.port q = s.port q)) ∧
  (∀ (p : Port) (m : TxMsg) (l : List TxMsg) (s : State), (s.port p).tx = [m] ++ l → s.rP p Kp.pdRev = 2 → 3 ≤ (s.port p).retries →
    m.kind = .psRdy → ∃ t, exec (.pdRetryTimeout p) s = .next t ∧ (t.port p).hardReset = .signalling ∧ t.rP p Kp.contract =
    Ctr.hardReset ∧ t.rP p Kp.pdFault = PdF.hardResetSent ∧ t.rP p Kp.booking = 0 ∧ (∀ q, q ≠ p → t.port q = s.port q)) ∧
  (∀ (p : Port) (s : State), (s.port p).awaits = some .request → ∃ t, exec (.senderResponseExpiry p) s = .next t ∧ (t.port p).hardReset
    = .signalling ∧ t.rP p Kp.contract = Ctr.hardReset ∧ t.rP p Kp.pdFault = PdF.noResponse ∧ t.rP p (Kp.pdCounters + 0) = satInc (s.rP
    p (Kp.pdCounters + 0)) u32Max ∧ (t.port p).awaits = none ∧ (∀ q, q ≠ p → t.port q = s.port q)) ∧
  (∀ (p : Port) (s : State), (s.port p).awaits = some .discoverCable → ∃ t, exec (.senderResponseExpiry p) s = .next t ∧ t.port p =
    { s.port p with awaits := none } ∧ Only [.ports, .pins] s t ∧ (∀ q, q ≠ p → t.port q = s.port q)) ∧
  (∀ (p : Port) (s : State), s.rP p Kp.attachState = Att.src → s.rP p Kp.contract = Ctr.none → s.rP p Kp.pg = 1 → (s.port p).tx = [] →
    (s.port p).capsCount < 50 → s.vconnSource p = false → s.odNew = [] → (s.port p).eprMode = false → (s.port p).hardReset ≠
    .signalling → ∃ t, exec (.sourceCapRepeat p) s = .next t ∧ t.port p =
    { s.port p with offer := s.buildOffer p false, capsCount := (s.port p).capsCount + 1, tx := [msg .sourceCaps (s.buildOffer p false)] }
    ∧ Only [.ports, .pins] s t ∧ (∀ q, q ≠ p → t.port q = s.port q)) ∧
  (∀ (p : Port) (s : State), 50 ≤ (s.port p).capsCount → ∃ t, exec (.sourceCapRepeat p) s = .next t ∧ t.port p = s.port p ∧ Only
    [.pins] s t ∧ (∀ q, q ≠ p → t.port q = s.port q)) ∧
  (∀ (p : Port) (s : State), s.rP p Kp.attachState = Att.src → s.vconnSource p = true → (s.port p).cableTries = 0 → (s.port
    p).cableKnown = false → (s.port p).hardReset ≠ .signalling → ∃ t, exec (.cableDiscovery p) s = .next t ∧ t.port p =
    { s.port p with cableTries := 1, tx := (s.port p).tx ++ [msg .discoverCable []] } ∧ Only [.ports, .pins] s t ∧ (∀ q, q ≠ p → t.port
    q = s.port q)) ∧
  (∀ (p : Port) (s : State), 1 ≤ (s.port p).cableTries → (s.port p).cableTries < 4 → s.vconnSource p = true → s.rP p Kp.powerRole = 1 →
    (s.port p).hardReset ≠ .signalling → ∃ t, exec (.cableDiscoveryRetry p) s = .next t ∧ t.port p =
    { s.port p with cableTries := (s.port p).cableTries + 1, tx := (s.port p).tx ++ [msg .discoverCable []] } ∧ Only [.ports, .pins] s
    t ∧ (∀ q, q ≠ p → t.port q = s.port q)) ∧
  (∀ (p : Port) (s : State), 4 ≤ (s.port p).cableTries → s.vconnSource p = true → s.rP p Kp.powerRole = 1 → s.odNew = [] → ∃ t, exec
    (.cableDiscoveryRetry p) s = .next t ∧ (t.port p).cableTries = 0 ∧ (t.port p).cableKnown = true ∧ t.rP p Kp.cableState = 1 ∧ t.rP p
    Kp.cableIMax = 300 ∧ t.rP p Kp.cableVMax = 2000 ∧ t.rP p Kp.cableEpr = 0 ∧ (∀ q, q ≠ p → t.port q = s.port q)) ∧
  (∀ (p : Port) (m : TxMsg) (l : List TxMsg) (s : State), (s.port p).sinkTx = [m] ++ l → (s.port p).hardReset ≠ .signalling → ∃ t, exec
    (.sinkTxWaitEnd p) s = .next t ∧ t.port p = { s.port p with sinkTx := l, tx := (s.port p).tx ++ [m] } ∧ Only [.ports, .pins] s t ∧
    (∀ q, q ≠ p → t.port q = s.port q)) ∧
  (∀ (p : Port) (rev3 : Bool) (m : TxMsg) (l : List TxMsg) (s : State), (s.port p).tx = [m] ++ l → s.rP p Kp.pdRev ≠ 0 → m.kind =
    .sourceCaps → s.rP p Kp.powerRole = 2 → ∃ t, exec (.pdGoodcrcRx p rev3) s = .next t ∧ t.port p =
    { s.port p with tx := l, retries := 0, txId := ((s.port p).txId + 1) % 8, capsCount := 0 } ∧ Only [.ports, .pins] s t ∧ (∀ q, q ≠ p
    → t.port q = s.port q)) ∧
  (∀ (p : Port) (s : State), s.vconnSource p = false → exec (.cableDiscoveryRetry p) s = .next (settle s))

/-- A transition that waits starts: VSET takes the code of the armed target, a higher contract current is in force, PP_STATE reads
TRANSITION; a fall keeps the upper threshold until VBUS is below it, a rise moves it at once. When VSET has slewed, the armed
contract current is in force and the PG_QUAL window opens; its completion sets TRANS_DONE and ends the strip limit under which the
transition was armed. PS_RDY then makes the contract explicit; it is not sent while the fault timer runs. A transition that takes
too long, a PPS source without Requests and an EPR port without keep-alive are hard-reset with their own fault code. Rests on 02
R56, 02 R57, 02 R60, 02 R65, 04 R108, 04 R114, 04 R122, 04 R128. -/
def Obligations.PdTransitions : Prop :=
  (∀ (p : Port) (code : Nat) (s : State), (s.path p).trans = .wait → (s.path p).gate = .on → (s.path p).falling = false → s.vsetCode p
    (s.path p).armV = some code → ∃ t, exec (.transitionStart p) s = .next t ∧ t.path p =
    { s.path p with trans := .slew, slewing := true, vset := code, target := (s.path p).armV, icon := max (s.path p).icon (s.path p).armI, mode := (s.path p).armMode, upperWaits := false, dsch := false }
    ∧ t.rP p Kp.ppState = Pp.transition ∧ t.rC (winV p) Kc.hiCode = (s.path p).armV * (100 + s.rP p Kp.ovpPct) / 160 ∧ t.rC (winV p)
    Kc.loCode = s.rC (winV p) Kc.loCode ∧ Only [.od, .paths, .pins] s t ∧ (∀ q, q ≠ p → t.port q = s.port q ∧ t.path q = s.path q)) ∧
  (∀ (p : Port) (code : Nat) (s : State), (s.path p).trans = .wait → (s.path p).gate = .on → (s.path p).falling = true → s.vsetCode p
    (s.path p).armV = some code → ∃ t, exec (.transitionStart p) s = .next t ∧ t.path p =
    { s.path p with trans := .slew, slewing := true, vset := code, target := (s.path p).armV, icon := max (s.path p).icon (s.path p).armI, mode := (s.path p).armMode, upperWaits := true, dsch := decide ((s.path p).armV * 5 * (100 + s.rP p Kp.ovpPct) ≤ (s.path p).vNow) }
    ∧ t.rP p Kp.ppState = Pp.transition ∧ t.rC (winV p) Kc.loCode = s.codePg p (s.path p).armV ∧ t.rC (winV p) Kc.hiCode = s.rC (winV
    p) Kc.hiCode ∧ Only [.od, .paths, .pins] s t ∧ (∀ q, q ≠ p → t.port q = s.port q ∧ t.path q = s.path q)) ∧
  (∀ (p : Port) (s : State), (s.path p).trans = .slew → (s.path p).falling = false → ∃ t, exec (.vsetSlewEnd p) s = .next t ∧ t.path p
    = { s.path p with trans := .qual, slewing := false, icon := (s.path p).armI } ∧ t.rC (winV p) Kc.loCode = s.codePg p (s.path
    p).target ∧ t.rC (winI p) Kc.loCode = s.codeI p (t.ilim p) ∧ WroteOnly [keyC (winV p) Kc.loCode, keyC (winI p) Kc.hiCode, keyC
    (winI p) Kc.loCode] s t ∧ Only [.od, .paths, .pins] s t ∧ (∀ q, q ≠ p → t.port q = s.port q ∧ t.path q = s.path q)) ∧
  (∀ (p : Port) (s : State), (s.path p).trans ≠ .slew → ∃ t, exec (.vsetSlewEnd p) s = .next t ∧ t.path p = s.path p ∧ Only [.pins] s t
    ∧ (∀ q, q ≠ p → t.port q = s.port q ∧ t.path q = s.path q)) ∧
  (∀ (p : Port) (s : State), (s.path p).trans = .qual → (s.path p).ft = .idle → s.vbusGood p = true → (s.path p).upperWaits = false →
    (s.path p).armStrip = true → (s.cmp (winI p)).l = false → ∃ t, exec (.transDone p) s = .next t ∧ t.path p =
    { s.path p with trans := .done, strip := none } ∧ bit (t.rP p Kp.ppFlags) 2 = false ∧ t.rP p Kp.ppState = Pp.on ∧ bit (t.ior
    (blockOf p) 0x1400) (8 + localOf p) = true ∧ Only [.od, .io, .paths, .pins] s t ∧ (∀ q, q ≠ p → t.port q = s.port q ∧ t.path q =
    s.path q)) ∧
  (∀ (p : Port) (s : State), (s.path p).trans = .qual → s.vbusGood p = false → ∃ t, exec (.transDone p) s = .next t ∧ t.path p = s.path
    p ∧ Only [.pins] s t ∧ (∀ q, q ≠ p → t.port q = s.port q ∧ t.path q = s.path q)) ∧
  (∀ (p : Port) (w : Wanted) (s : State), (s.port p).swap = none → (s.port p).wanted = some w → (s.path p).trans = .done → (s.path
    p).ft = .idle → s.rP p Kp.powerRole = 1 → s.explicitContract p = true → (s.port p).shedCaps = false → (s.port p).eprMode = false →
    (s.port p).hardReset ≠ .signalling → ∃ t, exec (.psRdySend p) s = .next t ∧ t.rP p Kp.contract = Ctr.spr ∧ t.rP p Kp.contractPos =
    w.pos ∧ t.rP p Kp.contractV = w.v ∧ t.rP p Kp.contractI = w.i ∧ t.path p = { s.path p with trans := .none } ∧ t.port p =
    { s.port p with wanted := none, ppsTimer := decide (w.mode = 1), ppsLimit := false, eprContract := false, tx := (s.port p).tx ++ [msg .psRdy []] }
    ∧ Only [.od, .paths, .ports, .pins] s t ∧ (∀ q, q ≠ p → t.port q = s.port q ∧ t.path q = s.path q)) ∧
  (∀ (p : Port) (s : State), (s.port p).swap = none → (s.port p).wanted = none → ∃ t, exec (.psRdySend p) s = .next t ∧ t.port p =
    s.port p ∧ Only [.pins] s t ∧ (∀ q, q ≠ p → t.port q = s.port q ∧ t.path q = s.path q)) ∧
  (∀ (p : Port) (s : State), (s.path p).trans = .qual → ∃ t, exec (.transitionTimeout p) s = .next t ∧ (t.port p).hardReset =
    .signalling ∧ t.rP p Kp.contract = Ctr.hardReset ∧ t.rP p Kp.pdFault = PdF.transitionFail ∧ (t.path p).trans = .none ∧ t.rP p
    Kp.booking = 0 ∧ (∀ q, q ≠ p → t.port q = s.port q ∧ t.path q = s.path q)) ∧
  (∀ (p : Port) (s : State), (s.path p).trans = .none → ∃ t, exec (.transitionTimeout p) s = .next t ∧ t.port p = s.port p ∧ Only
    [.pins] s t ∧ (∀ q, q ≠ p → t.port q = s.port q ∧ t.path q = s.path q)) ∧
  (∀ (p : Port) (s : State), (s.port p).ppsTimer = true → ∃ t, exec (.ppsTimeout p) s = .next t ∧ (t.port p).hardReset = .signalling ∧
    t.rP p Kp.contract = Ctr.hardReset ∧ t.rP p Kp.pdFault = PdF.ppsTimeout ∧ (t.port p).ppsTimer = false ∧ (∀ q, q ≠ p → t.port q =
    s.port q ∧ t.path q = s.path q)) ∧
  (∀ (p : Port) (s : State), (s.port p).eprTimer = true → ∃ t, exec (.eprKeepaliveTimeout p) s = .next t ∧ (t.port p).hardReset =
    .signalling ∧ t.rP p Kp.contract = Ctr.hardReset ∧ t.rP p Kp.pdFault = PdF.eprKeepAlive ∧ (t.port p).eprMode = false ∧ (∀ q, q ≠ p
    → t.port q = s.port q ∧ t.path q = s.path q)) ∧
  (∀ (p : Port) (s : State), (s.port p).swap = none → (s.path p).ft ≠ .idle → exec (.psRdySend p) s = .next (settle s))

/-- The FR_Swap signal is taken only while armed, and not within 1 ms of VBUS entering its window; then, below vSafe5V, the gate is
driven on as source with VSET at 5 V and the 5 V target, and arming ends; where the limit is active then, the fault timer runs. No
valid VBUS in time records FRS_FAIL. A verified chain under the trusted root leads to the challenge, a verified challenge to
AUTH_STATE 2, a failure, or a chain under another root, to 3 with AUTH_FAIL. After Hard Reset signalling a source goes to vSafe0V
and, once its turn-off and discharge are over, restores 5 V under no contract; a sink has no contract. Rests on 02 R64, 02 R65, 02
R69, 02 R71, 04 R108, 04 R129, 04 R130. -/
def Obligations.PdRecovery : Prop :=
  (∀ (p : Port) (s : State), (s.path p).frsArmed = true → (s.port p).hardReset = .none → (s.path p).inTb.all (fun e => decide (e +
    100000 ≤ s.tb)) = true → ∃ t, exec (.frSwapSignal p) s = .next t ∧ t.path p = { s.path p with frsSeen := true, frsDue := true } ∧
    Only [.paths, .pins] s t ∧ (∀ q, q ≠ p → t.port q = s.port q ∧ t.path q = s.path q)) ∧
  (∀ (p : Port) (s : State), (s.path p).frsArmed = false → ∃ t, exec (.frSwapSignal p) s = .next t ∧ t.path p = s.path p ∧ Only [.pins]
    s t ∧ (∀ q, q ≠ p → t.port q = s.port q ∧ t.path q = s.path q)) ∧
  (∀ (p : Port) (code : Nat) (s : State), (s.path p).frsSeen = true → s.pulldown p = false → (s.path p).lockout = false → s.mayEnable =
    true → s.vsetCode p 500 = some code → (s.cmp (winI p)).l = false → ∃ t, exec (.frsGateOn p) s = .next t ∧ t.path p =
    { s.path p with frsSeen := false, frsArmed := false, dir := .source, gate := .on, vset := code, target := 500, icon := s.rpCurrent p, turning := false, dsch := false, onTb := s.tb, mode := 0, ft := if (s.path p).ft = .running then .held else (s.path p).ft }
    ∧ t.rP p Kp.ppState = Pp.on ∧ bit (t.ctrl p) 3 = false ∧ t.ior (blockOf p) (0x1004 + 0x100 * localOf p) = s.rpCurrent p * 65536 +
    500 ∧ Only [.od, .io, .paths, .pins] s t ∧ (∀ q, q ≠ p → t.port q = s.port q ∧ t.path q = s.path q)) ∧
  (∀ (p : Port) (s : State), (s.path p).frsSeen = false → ∃ t, exec (.frsGateOn p) s = .next t ∧ t.path p = s.path p ∧ Only [.pins] s t
    ∧ (∀ q, q ≠ p → t.port q = s.port q ∧ t.path q = s.path q)) ∧
  (∀ (p : Port) (s : State), (s.path p).frsDue = true → (s.path p).gate ≠ .on → ∃ t, exec (.frsFail p) s = .next t ∧ t.path p =
    { s.path p with frsSeen := false, frsDue := false } ∧ t.rP p Kp.pdFault = PdF.frsFail ∧ bit (t.rd K.alertSrc) 0 = true ∧ Only [.od,
    .paths, .recorder, .pins] s t ∧ (∀ q, q ≠ p → t.port q = s.port q ∧ t.path q = s.path q)) ∧
  (∀ (p : Port) (s : State), (s.path p).frsDue = true → (s.path p).gate = .on → (s.path p).dir = .source → s.vbusGood p = true → ∃ t,
    exec (.frsFail p) s = .next t ∧ t.path p = { s.path p with frsSeen := false, frsDue := false } ∧ Only [.paths, .pins] s t ∧ (∀ q, q
    ≠ p → t.path q = s.path q)) ∧
  (∀ (p : Port) (s : State), (s.path p).frsDue = false → exec (.frsFail p) s = .next (settle s)) ∧
  (∀ (p : Port) (ok : Bool) (root : List Nat) (s : State), (s.port p).authStep = 2 → ok = true → ((List.range 4).foldl (fun x i =>
    x.useText (keyP p (Kp.authRoot + i))) s).rootTrusted p root = true → s.rP p Kp.powerRole = 1 → s.explicitContract p = true → s.rP p
    Kp.pdRev = 3 → ∃ t, exec (.authVerifyDone p ok root) s = .next t ∧ t.port p =
    { s.port p with authStep := 3, sinkTx := (s.port p).sinkTx ++ [msg .securityRequest [3]] } ∧ Only [.odNew, .blob, .ports, .pins] s
    t ∧ (∀ q, q ≠ p → t.port q = s.port q ∧ t.path q = s.path q)) ∧
  (∀ (p : Port) (ok : Bool) (root : List Nat) (s : State), (s.port p).authStep = 3 → ok = true → s.odNew = [] → ∃ t, exec
    (.authVerifyDone p ok root) s = .next t ∧ t.rP p Kp.authState = 2 ∧ (t.port p).authStep = 0 ∧ (∀ q, q ≠ p → t.port q = s.port q ∧
    t.path q = s.path q)) ∧
  (∀ (p : Port) (ok : Bool) (root : List Nat) (s : State), (s.port p).authStep = 3 → ok = false → s.odNew = [] → ∃ t, exec
    (.authVerifyDone p ok root) s = .next t ∧ t.rP p Kp.authState = 3 ∧ (t.port p).authStep = 0 ∧ t.rP p Kp.pdFault = PdF.authFail ∧ (∀
    q, q ≠ p → t.port q = s.port q ∧ t.path q = s.path q)) ∧
  (∀ (p : Port) (ok : Bool) (root : List Nat) (s : State), (s.port p).authStep = 2 → s.rootTrusted p root = false → s.odNew = [] → ∃ t,
    exec (.authVerifyDone p ok root) s = .next t ∧ t.rP p Kp.authState = 3 ∧ (t.port p).authStep = 0 ∧ t.rP p Kp.pdFault = PdF.authFail
    ∧ (∀ q, q ≠ p → t.port q = s.port q ∧ t.path q = s.path q)) ∧
  (∀ (p : Port) (s : State), (s.port p).hardReset = .waitOff → ∃ t, exec (.psHardResetExpiry p) s = .next t ∧ (t.port p).hardReset =
    .recover ∧ (t.path p).gate = .off ∧ t.rP p Kp.pg = 0 ∧ t.rP p Kp.ppState = s.offState p ∧ Only [.od, .odNew, .io, .cmps, .paths,
    .ports, .pins] s t ∧ (∀ q, q ≠ p → t.port q = s.port q ∧ t.path q = s.path q)) ∧
  (∀ (p : Port) (s : State), (s.port p).hardReset = .recover → (s.path p).turning = false → (s.path p).dsch = false → ∃ t, exec
    (.srcRecoverExpiry p) s = .next t ∧ t.port p = { s.port p with hardReset := .none, capsCount := 0 } ∧ t.rP p Kp.contract = Ctr.none
    ∧ (∀ q, q ≠ p → t.port q = s.port q ∧ t.path q = s.path q)) ∧
  (∀ (p : Port) (s : State), (s.port p).hardReset = .signalling → s.rP p Kp.powerRole = 1 → ∃ t, exec (.hardResetComplete p) s = .next
    t ∧ t.port p = { s.port p with hardReset := .waitOff, txId := 0, rxId := none } ∧ Only [.ports, .pins] s t ∧ (∀ q, q ≠ p → t.port q
    = s.port q ∧ t.path q = s.path q)) ∧
  (∀ (p : Port) (s : State), (s.port p).hardReset = .signalling → s.rP p Kp.powerRole = 2 → ∃ t, exec (.hardResetComplete p) s = .next
    t ∧ t.port p = { s.port p with hardReset := .none, txId := 0, rxId := none } ∧ t.rP p Kp.contract = Ctr.none ∧ Only [.od, .ports,
    .pins] s t ∧ (∀ q, q ≠ p → t.port q = s.port q ∧ t.path q = s.path q)) ∧
  (∀ (p : Port) (e : Nat) (s : State), (s.path p).inTb = some e → s.tb < e + 100000 → exec (.frSwapSignal p) s = .next (settle s)) ∧
  (∀ (p : Port) (s : State), (s.path p).gate = .off → ((s.path p).turning = true ∨ (s.path p).dsch = true) → exec (.srcRecoverExpiry p)
    s = .next (settle s)) ∧
  (∀ (p : Port) (code : Nat) (s : State), (s.path p).frsSeen = true → s.pulldown p = false → (s.path p).lockout = false → s.mayEnable =
    true → s.vsetCode p 500 = some code → (s.cmp (winI p)).l = true → ∃ t, exec (.frsGateOn p) s = .next t ∧ t.path p =
    { s.path p with frsSeen := false, frsArmed := false, dir := .source, gate := .on, vset := code, target := 500, icon := s.rpCurrent p, turning := false, dsch := false, onTb := s.tb, mode := 0, ft := .running }
    ∧ t.rP p Kp.ppState = Pp.limit ∧ bit (t.ctrl p) 3 = false ∧ t.ior (blockOf p) (0x1004 + 0x100 * localOf p) = s.rpCurrent p * 65536
    + 500 ∧ Only [.od, .io, .paths, .pins] s t ∧ (∀ q, q ≠ p → t.port q = s.port q ∧ t.path q = s.path q))

/-- A PORT_CMD that can start answers OK with its effect: Hard Reset and Soft_Reset are signalled with their fault, capabilities
are sent anew, a swap is requested and its response held, ERROR_RECOVERY and DISABLE take the port through ERROR_RECOVERY (DISABLE
without a record in PD_FAULT), the counters clear, an enabled port returns to UNATTACHED, authentication begins. Any of them on a
port in SAFE_OFF answers BUSY and changes nothing else. That BUSY is the answer where the manual's conditions do not hold is the
model's reading (log 5). Rests on 02 R63, 02 R73, 02 R44, 02 R71, 02 R72, 02 R65. -/
def Obligations.PortCommands : Prop :=
  (∀ (p : Port) (s : State), s.portCmdOk p 1 = true → ∃ t, exec (.portCmdHardReset p) s = .next t ∧ (t.port p).hardReset = .signalling
    ∧ (t.port p).cmdStatus = 0 ∧ t.rP p Kp.contract = Ctr.hardReset ∧ t.rP p Kp.pdFault = PdF.hardResetSent ∧ t.rP p Kp.booking = 0 ∧
    (∀ q, q ≠ p → t.port q = s.port q ∧ t.path q = s.path q)) ∧
  (∀ (p : Port) (s : State), s.portCmdOk p 1 = false → exec (.portCmdHardReset p) s = .next (settle (s.cmdStatus p 1))) ∧
  (∀ (p : Port) (s : State), s.portCmdOk p 2 = true → (s.port p).hardReset ≠ .signalling → ∃ t, exec (.portCmdSoftReset p) s = .next t
    ∧ (t.port p).tx = [msg .softReset []] ∧ (t.port p).txId = 0 ∧ (t.port p).cmdStatus = 0 ∧ t.rP p Kp.pdFault = PdF.protocolError ∧
    Only [.od, .io, .ports, .recorder, .pins] s t ∧ (∀ q, q ≠ p → t.port q = s.port q ∧ t.path q = s.path q)) ∧
  (∀ (p : Port) (s : State), s.portCmdOk p 2 = false → exec (.portCmdSoftReset p) s = .next (settle (s.cmdStatus p 1))) ∧
  (∀ (p : Port) (s : State), s.portCmdOk p 3 = true → s.odNew = [] → s.explicitContract p = false → (s.port p).eprMode = false →
    (s.port p).hardReset ≠ .signalling → ∃ t, exec (.portCmdReadvertise p) s = .next t ∧ t.port p =
    { s.port p with offer := s.buildOffer p false, capsCount := (s.port p).capsCount + 1, tx := (s.port p).tx ++ [msg .sourceCaps (s.buildOffer p false)], cmdStatus := 0 }
    ∧ Only [.ports, .pins] s t ∧ (∀ q, q ≠ p → t.port q = s.port q ∧ t.path q = s.path q)) ∧
  (∀ (p : Port) (s : State), s.portCmdOk p 3 = false → exec (.portCmdReadvertise p) s = .next (settle (s.cmdStatus p 1))) ∧
  (∀ (p : Port) (s : State), s.portCmdOk p 4 = true → s.rP p Kp.powerRole = 1 → s.rP p Kp.pdRev = 3 → ∃ t, exec (.portCmdPrSwap p) s =
    .next t ∧ t.port p =
    { s.port p with swap := some { kind := .pr, ours := true, accepted := false, give := false }, cmdHeld := true, sinkTx := (s.port p).sinkTx ++ [msg .prSwap []] }
    ∧ Only [.ports, .pins] s t ∧ (∀ q, q ≠ p → t.port q = s.port q ∧ t.path q = s.path q)) ∧
  (∀ (p : Port) (s : State), s.portCmdOk p 4 = false → exec (.portCmdPrSwap p) s = .next (settle (s.cmdStatus p 1))) ∧
  (∀ (p : Port) (s : State), s.portCmdOk p 5 = true → s.rP p Kp.powerRole = 1 → s.rP p Kp.pdRev = 3 → ∃ t, exec (.portCmdDrSwap p) s =
    .next t ∧ t.port p =
    { s.port p with swap := some { kind := .dr, ours := true, accepted := false, give := false }, cmdHeld := true, sinkTx := (s.port p).sinkTx ++ [msg .drSwap []] }
    ∧ Only [.ports, .pins] s t ∧ (∀ q, q ≠ p → t.port q = s.port q ∧ t.path q = s.path q)) ∧
  (∀ (p : Port) (s : State), s.portCmdOk p 6 = true → s.rP p Kp.powerRole = 1 → s.rP p Kp.pdRev = 3 → ∃ t, exec (.portCmdVconnSwap p) s
    = .next t ∧ t.port p =
    { s.port p with swap := some { kind := .vconn, ours := true, accepted := false, give := false }, cmdHeld := true, sinkTx := (s.port p).sinkTx ++ [msg .vconnSwap []] }
    ∧ Only [.ports, .pins] s t ∧ (∀ q, q ≠ p → t.port q = s.port q ∧ t.path q = s.path q)) ∧
  (∀ (p : Port) (s : State), s.portCmdOk p 7 = true → ∃ t, exec (.portCmdErrorRecovery p) s = .next t ∧ t.rP p Kp.attachState =
    Att.errorRecovery ∧ t.rP p Kp.pdFault = PdF.errorRecovery ∧ (t.path p).gate = .off ∧ (t.port p).ccOpen = true ∧ (t.port
    p).cmdStatus = 0 ∧ (∀ q, q ≠ p → t.port q = s.port q ∧ t.path q = s.path q)) ∧
  (∀ (p : Port) (s : State), (s.path p).safe = true → exec (.portCmdErrorRecovery p) s = .next (settle (s.cmdStatus p 1))) ∧
  (∀ (p : Port) (s : State), s.portCmdOk p 8 = true → ∃ t, exec (.portCmdClearCounters p) s = .next t ∧ (∀ n : Fin 10, t.rP p
    (Kp.pdCounters + n) = 0) ∧ t.port p = { s.port p with cmdStatus := 0 } ∧ Only [.od, .ports, .pins] s t ∧ (∀ q, q ≠ p → t.port q =
    s.port q ∧ t.path q = s.path q)) ∧
  (∀ (p : Port) (s : State), (s.path p).safe = true → exec (.portCmdClearCounters p) s = .next (settle (s.cmdStatus p 1))) ∧
  (∀ (p : Port) (s : State), s.portCmdOk p 9 = true → ∃ t, exec (.portCmdDisable p) s = .next t ∧ t.rP p Kp.attachState =
    Att.errorRecovery ∧ t.rP p Kp.pdFault = s.rP p Kp.pdFault ∧ (t.path p).gate = .off ∧ (t.port p).toDisable = true ∧ (t.port
    p).cmdStatus = 0 ∧ (∀ q, q ≠ p → t.port q = s.port q ∧ t.path q = s.path q)) ∧
  (∀ (p : Port) (s : State), s.portCmdOk p 10 = true → s.rP p Kp.attachState = Att.disabled → s.rP p Kp.role ≠ 3 → ∃ t, exec
    (.portCmdEnable p) s = .next t ∧ t.rP p Kp.attachState = Att.unattached ∧ t.port p =
    { s.port p with toDisable := false, cmdStatus := 0, ccOpen := false, presentsRp := decide (s.rP p Kp.role ≠ 1) } ∧ Only [.od,
    .ports, .pins] s t ∧ (∀ q, q ≠ p → t.port q = s.port q ∧ t.path q = s.path q)) ∧
  (∀ (p : Port) (s : State), s.portCmdOk p 10 = false → exec (.portCmdEnable p) s = .next (settle (s.cmdStatus p 1))) ∧
  (∀ (p : Port) (s : State), s.portCmdOk p 11 = true → s.rP p Kp.powerRole = 1 → s.rP p Kp.pdRev = 3 → ∃ t, exec (.portCmdAuthenticate
    p) s = .next t ∧ t.rP p Kp.authState = 1 ∧ t.port p =
    { s.port p with authStep := 1, sinkTx := (s.port p).sinkTx ++ [msg .securityRequest [1]], cmdStatus := 0 } ∧ Only [.od, .ports,
    .pins] s t ∧ (∀ q, q ≠ p → t.port q = s.port q ∧ t.path q = s.path q)) ∧
  (∀ (p : Port) (s : State), s.portCmdOk p 11 = false → exec (.portCmdAuthenticate p) s = .next (settle (s.cmdStatus p 1)))

/-- ADMIT and RESERVE grant exactly where admission holds: the booking becomes the power asked for, the port leaves the wait list,
LEDGER_STATE reads ADMITTED (RESERVED after a RESERVE), RESULT reads GRANT with DONE, and no other port's booking changes; where
it does not hold the booking stays and the denial is counted with its code. RELEASE books 0; LOWER books the lower of the power
asked for and the present booking. On BUDGET_FREE the flag is taken and a waiting port is re-advertised. Rests on 03 R77, 03 R80,
03 R81, 03 R105. -/
def Obligations.LedgerQueries : Prop :=
  (∀ (p : Port) (w : Nat) (s : State), s.odNew = [] → admitResult s p w = 1 → s.rP p Kp.ledgerState ≠ 4 → (s.lport p).changed = false →
    ∃ t, exec (.lqAdmit p w) s = .next t ∧ t.rP p Kp.booking = w ∧ t.rP p Kp.ledgerState = (if w = 0 then 0 else 1) ∧ t.ior (blockOf p)
    0x4008 = 0x80000001 ∧ p ∉ t.ledger.waiting ∧ Only [.od, .io, .ledgerPorts, .ledger, .pins] s t ∧ (∀ q, q ≠ p → t.rP q Kp.booking =
    s.rP q Kp.booking)) ∧
  (∀ (p : Port) (w : Nat) (r : Int) (s : State), s.odNew = [] → admitResult s p w = r → r ≠ 1 → ∃ t, exec (.lqAdmit p w) s = .next t ∧
    t.rP p Kp.booking = s.rP p Kp.booking ∧ t.rP p Kp.denyCount = satInc (s.rP p Kp.denyCount) u32Max ∧ t.ior (blockOf p) 0x4008 =
    0x80000000 + r ∧ t.ior (blockOf p) 0x400C = freePower s ∧ WroteOnly [keyP p Kp.denyCount] s t ∧ Only [.od, .io, .pins] s t ∧ (∀ q,
    q ≠ p → t.rP q Kp.booking = s.rP q Kp.booking)) ∧
  (∀ (p : Port) (w : Nat) (s : State), s.odNew = [] → admitResult s p w = 1 → s.rP p Kp.ledgerState ≠ 4 → (s.lport p).changed = false →
    ∃ t, exec (.lqReserve p w) s = .next t ∧ t.rP p Kp.booking = w ∧ t.rP p Kp.ledgerState = (if w = 0 then 0 else 5) ∧ t.ior (blockOf
    p) 0x4008 = 0x80000001 ∧ p ∉ t.ledger.waiting ∧ Only [.od, .io, .ledgerPorts, .ledger, .pins] s t ∧ (∀ q, q ≠ p → t.rP q Kp.booking
    = s.rP q Kp.booking)) ∧
  (∀ (p : Port) (w : Nat) (r : Int) (s : State), s.odNew = [] → admitResult s p w = r → r ≠ 1 → ∃ t, exec (.lqReserve p w) s = .next t
    ∧ t.rP p Kp.booking = s.rP p Kp.booking ∧ t.rP p Kp.denyCount = satInc (s.rP p Kp.denyCount) u32Max ∧ t.ior (blockOf p) 0x4008 =
    0x80000000 + r ∧ WroteOnly [keyP p Kp.denyCount] s t ∧ Only [.od, .io, .pins] s t ∧ (∀ q, q ≠ p → t.rP q Kp.booking = s.rP q
    Kp.booking)) ∧
  (∀ (p : Port) (s : State), s.rP p Kp.ledgerState ≠ 4 → (s.lport p).changed = false → ∃ t, exec (.lqRelease p) s = .next t ∧ t.rP p
    Kp.booking = 0 ∧ t.rP p Kp.ledgerState = 0 ∧ p ∉ t.ledger.waiting ∧ t.ior (blockOf p) 0x4008 = 0x80000001 ∧ WroteOnly [keyP p
    Kp.booking, keyP p Kp.ledgerState] s t ∧ Only [.od, .io, .ledgerPorts, .ledger, .pins] s t ∧ (∀ q, q ≠ p → t.rP q Kp.booking = s.rP
    q Kp.booking)) ∧
  (∀ (p : Port) (w : Nat) (s : State), ∃ t, exec (.lqLower p w) s = .next t ∧ t.rP p Kp.booking = min (w : Int) (s.rP p Kp.booking) ∧ p
    ∉ t.ledger.waiting ∧ t.ior (blockOf p) 0x4008 = 0x80000001 ∧ WroteOnly [keyP p Kp.booking, keyP p Kp.ledgerState] s t ∧ Only [.od,
    .io, .ledgerPorts, .ledger, .pins] s t ∧ (∀ q, q ≠ p → t.rP q Kp.booking = s.rP q Kp.booking)) ∧
  (∀ (p : Port) (s : State), bit (s.ior (blockOf p) 0x4020) (4 + localOf p) = true → p ∈ s.ledger.waiting → s.odNew = [] →
    s.explicitContract p = false → (s.port p).eprMode = false → (s.port p).hardReset ≠ .signalling → ∃ t, exec (.waitReadvertise p) s =
    .next t ∧ bit (t.ior (blockOf p) 0x4020) (4 + localOf p) = false ∧ (t.port p).offer = s.buildOffer p false ∧ (t.port p).tx =
    (s.port p).tx ++ [msg .sourceCaps (s.buildOffer p false)] ∧ Only [.io, .ports, .pins] s t ∧ (∀ q, q ≠ p → t.rP q Kp.booking = s.rP
    q Kp.booking)) ∧
  (∀ (p : Port) (s : State), bit (s.ior (blockOf p) 0x4020) (4 + localOf p) = false → ∃ t, exec (.waitReadvertise p) s = .next t ∧ Only
    [.pins] s t ∧ (∀ q, q ≠ p → t.rP q Kp.booking = s.rP q Kp.booking))

/-- With STRIP_MODE AUTO and no entry waiting for its apply point, a recomputation writes the table of R84 into the shadow of
every slot whose trigger is neither NONE nor MANUAL and that serves no second stage, for the capacity of Table 3.3 under that
trigger, and starts its copying; STRIP_RECOMPUTE and LEDGER_CMD RECOMPUTE do the same, the command answering OK. In MANUAL strip
mode nothing is written. Rests on 03 R84, 03 R85. -/
def Obligations.StripTables : Prop :=
  (∀ s : State, s.odNew = [] → s.rd K.stripMode = 0 → ∃ t, exec .stripRecompute s = .next t ∧
    ∀ n : Slot, (s.rS n Ks.stTrigger).toNat ≠ 0 → (s.rS n Ks.stTrigger).toNat ≠ 7 → (s.slot n).stageOf = none →
      (t.slot n).writing = true ∧
        t.shadow n = stripTable s (s.rS n Ks.stTrigger).toNat (capAfter s (s.rS n Ks.stTrigger).toNat)) ∧
  (∀ s : State, s.odNew = [] → s.rd K.stripMode = 0 → ∃ t, exec .ledgerCmdRecompute s = .next t ∧ t.answer = 0 ∧
    ∀ n : Slot, (s.rS n Ks.stTrigger).toNat ≠ 0 → (s.rS n Ks.stTrigger).toNat ≠ 7 → (s.slot n).stageOf = none →
      (t.slot n).writing = true ∧
        t.shadow n = stripTable s (s.rS n Ks.stTrigger).toNat (capAfter s (s.rS n Ks.stTrigger).toNat)) ∧
  (∀ s : State, s.odNew = [] → s.rd K.stripMode ≠ 0 → exec .stripRecompute s = .next (settle s) ∧
    exec .ledgerCmdRecompute s = .next (settle (s.reply 0)))

/-- A shadow whose copies all read back becomes the armed copy and is counted; otherwise the armed copy stays. A tile that takes a
strobe cuts the source-role ports of the armed cut mask. The ledger cuts them too: LEDGER_STATE CUT, booking 0, and records the
shed. A falling SHED_N is a PEER trigger only while the input is enabled, not ignored and not stuck; release, stuck and high
follow R97. A derate step entered is its trigger. A second stage needs a free slot and is strobed through the MANUAL path. MANUAL
slots answer SHED_CMD as Table 3.7 says. A port with a slot allotment in force whose offer does not change is left as it is. Rests
on 03 R83, 03 R85, 03 R86, 03 R87, 03 R88, 03 R89, 03 R90, 03 R92, 03 R95, 03 R97, 04 R163, 05 R166. -/
def Obligations.Sheds : Prop :=
  (∀ (t0 : Option Slot) (ok : Bool) (n : Slot) (s : State), t0 = some n → (s.slot n).writing = true → ok = true → s.odNew = [] → ∃ t,
    exec (.slotArmed t0 ok) s = .next t ∧ t.slot n = { s.slot n with armed := some (s.shadow n), writing := false } ∧ (∀ m, m ≠ n →
    t.slot m = s.slot m) ∧ t.rS n Ks.stSeq = satInc (s.rS n Ks.stSeq) u32Max ∧ Only [.od, .slots, .pins] s t) ∧
  (∀ (t0 : Option Slot) (ok : Bool) (s : State), t0 = none → s.scrim.writing = true → ok = true → s.odNew = [] → ∃ t, exec (.slotArmed
    t0 ok) s = .next t ∧ t.scrim =
    { faultMask := (withBit (s.rd K.faultMask) 0 true).toNat, pwrgdKill := (s.rd K.pwrgdKill).toNat, writing := false } ∧ t.rd
    K.maskState = 0 ∧ Only [.od, .scrim, .pins] s t) ∧
  (∀ (t0 : Option Slot) (ok : Bool) (s : State), ok = false → exec (.slotArmed t0 ok) s = .next (settle s)) ∧
  (∀ (n : Tile) (t0 : Nat) (s : State), (s.tile n).strobes = [t0] → s.ledger.causes.contains 1 = false → ∃ t, exec (.tileSliceApply n
    t0) s = .next t ∧ (t.tile n).strobes = [] ∧ (∀ p : Port, p.val / 8 = n.val → s.sourceRole p = true → (s.path p).cut = false →
    (copiesFor s t0).any (fun c => c.cut.testBit p.val) = true → (t.path p).cut = true ∧ (t.path p).gate = .off) ∧ (∀ p : Port, p.val /
    8 ≠ n.val → t.path p = s.path p) ∧ Only [.od, .io, .paths, .tiles, .pins] s t) ∧
  (∀ (n : Tile) (t0 : Nat) (s : State), (s.tile n).strobes = [] → exec (.tileSliceApply n t0) s = .next (settle s)) ∧
  (∀ (t0 : Nat) (s : State), s.ledger.trigs.contains t0 = true → ∃ t, exec (.ledgerShedApply t0) s = .next t ∧ t.rd K.lastShedTb = s.tb
    ∧ bit (t.rd K.alertSrc) 4 = true ∧ (∀ p : Port, s.sourceRole p = true → s.rP p Kp.ledgerState ≠ 4 → (copiesFor s t0).any (fun c =>
    c.cut.testBit p.val) = true → t.rP p Kp.ledgerState = 4 ∧ t.rP p Kp.booking = 0) ∧ (∀ n ∈ armedFor s t0, (t.slot n).inForce = true)
    ∧ t.ledger.trigs = s.ledger.trigs.erase t0) ∧
  (∀ (t0 : Nat) (s : State), s.ledger.trigs.contains t0 = false → exec (.ledgerShedApply t0) s = .next (settle s)) ∧
  (∀ (s : State), s.rd K.shedInEn = 1 → s.ledger.shedIgnore = false → s.ledger.shedStuck = false → ∃ t, exec .peerShedIn s = .next t ∧
    t.ledger.trigs = s.ledger.trigs ++ [3] ∧ 3 ∈ t.ledger.causes ∧ t.ledger.shedLow = true ∧ (∀ n : Tile, (t.tile n).strobes = (s.tile
    n).strobes ++ [3]) ∧ t.rd K.shdCount = satInc (s.rd K.shdCount) u32Max ∧ t.time = (s.emit 3).time ∧ Only [.od, .tiles, .ledger,
    .time, .pins] s t) ∧
  (∀ (s : State), s.rd K.shedInEn = 0 → exec .peerShedIn s = .next (settle ((({ s with ledger := { s.ledger with shedLow := true } } :
    State)).emit 3))) ∧
  (∀ (s : State), ∃ t, exec .shedNRelease s = .next t ∧ t.ledger = { s.ledger with shedDrive := false, shedIgnore := false } ∧ Only
    [.ledger, .pins] s t) ∧
  (∀ (s : State), s.ledger.shedLow = true → ∃ t, exec .shedNStuck s = .next t ∧ t.ledger = { s.ledger with shedStuck := true } ∧ bit
    (t.rd K.ledgerFlags) 5 = true ∧ Only [.od, .ledger, .pins] s t) ∧
  (∀ (s : State), s.ledger.shedLow = false → s.ledger.shedDrive = false → exec .shedNStuck s = .next (settle s)) ∧
  (∀ (s : State), ∃ t, exec .shedNHigh s = .next t ∧ t.ledger = { s.ledger with shedLow := false, shedStuck := false } ∧ Only [.ledger,
    .pins] s t) ∧
  (∀ (s : State), s.rd K.derateStep = 0 → derateStep s (derateTemp s) 0 = 1 → ∃ t, exec .derateSample s = .next t ∧ t.rd K.derateStep =
    1 ∧ t.ledger.trigs = s.ledger.trigs ++ [4] ∧ 4 ∈ t.ledger.causes ∧ Only [.od, .tiles, .ledger, .pins] s t) ∧
  (∀ (s : State), derateStep s (derateTemp s) (s.rd K.derateStep) = s.rd K.derateStep → ∃ t, exec .derateSample s = .next t ∧ WroteOnly
    [] s t ∧ Only [.od, .pins] s t) ∧
  (∀ (s : State), ∃ t, exec .shelfTempExpiry s = .next t ∧ t.rd K.shelfTemp = -32768 ∧ t.pendingVal K.shelfTemp = none ∧ PendedOnly
    [K.shelfTemp] s t ∧ WroteOnly [K.shelfTemp] s t ∧ Only [.od, .odNew, .pins] s t) ∧
  (∀ (c : Int) (k : Nat) (s : State), s.ledger.cap = some c → s.ledger.causes.getLast? = some k → c < runningSum s → secondSlot s =
    none → ∃ t, exec .secondStage s = .next t ∧ bit (t.rd K.ledgerFlags) 8 = true ∧ Only [.od, .pins] s t) ∧
  (∀ (c : Int) (k : Nat) (n : Slot) (s : State), s.ledger.cap = some c → s.ledger.causes.getLast? = some k → c < runningSum s →
    secondSlot s = some n → s.odNew = [] → ∃ t, exec .secondStage s = .next t ∧ t.slot n =
    { s.slot n with armed := some (stripTable s 7 c), writing := false, stageOf := some k } ∧ t.rd K.secondStage = satInc (s.rd
    K.secondStage) u32Max ∧ t.ledger.trigs = s.ledger.trigs ++ [7] ∧ (∀ m : Tile, (t.tile m).strobes = (s.tile m).strobes ++ [7]) ∧
    Only [.od, .slots, .tiles, .ledger, .pins] s t) ∧
  (∀ (c : Int) (s : State), s.ledger.cap = some c → runningSum s ≤ c → exec .secondStage s = .next (settle s)) ∧
  (∀ (p : Port) (s : State), (s.lport p).shedAllot.isSome = true → s.rP p Kp.ledgerState ≠ 4 → (s.port p).eprMode = false → s.rP p
    Kp.attachState = Att.src → (s.port p).offer ≠ [] → s.buildOffer p false ≠ (s.port p).offer → s.odNew = [] → s.explicitContract p =
    false → (s.port p).hardReset ≠ .signalling → ∃ t, exec (.shedReadvertise p) s = .next t ∧ t.port p =
    { s.port p with offer := s.buildOffer p false, capsCount := (s.port p).capsCount + 1, shedCaps := true, tx := (s.port p).tx ++ [msg .sourceCaps (s.buildOffer p false)] }
    ∧ Only [.ports, .pins] s t) ∧
  (∀ (p : Port) (s : State), (s.lport p).shedAllot = none → exec (.shedReadvertise p) s = .next (settle s)) ∧
  (∀ (n : Slot) (s : State), s.rS n Ks.stTrigger = 7 → n ∈ armedFor s 7 → ∃ t, exec (.shedCmdApply n) s = .next t ∧ t.answer = 0 ∧
    t.ledger.trigs = s.ledger.trigs ++ [7] ∧ ((s.slot n).stageOf = none → 7 ∈ t.ledger.causes) ∧ (∀ m : Tile, (t.tile m).strobes =
    (s.tile m).strobes ++ [7]) ∧ Only [.od, .tiles, .ledger, .answer, .pins] s t) ∧
  (∀ (n : Slot) (s : State), s.rS n Ks.stTrigger = 7 → n ∉ armedFor s 7 → exec (.shedCmdApply n) s = .next (settle (s.reply 3))) ∧
  (∀ (n : Slot) (s : State), s.rS n Ks.stTrigger = 1 → exec (.shedCmdApply n) s = .next (settle (s.reply 4))) ∧
  (∀ (n : Slot) (s : State), s.rS n Ks.stTrigger = 7 → (s.slot n).stageOf = none → ∃ t, exec (.shedCmdRelease n) s = .next t ∧ t.slot n
    = { s.slot n with inForce := false } ∧ (∀ m, m ≠ n → t.slot m = s.slot m) ∧ t.answer = 0 ∧ Only [.slots, .answer, .pins] s t) ∧
  (∀ (n : Slot) (s : State), s.rS n Ks.stTrigger = 7 → (s.slot n).stageOf = some 4 → exec (.shedCmdRelease n) s = .next (settle
    (s.reply 1)))

/-- When every cause in force is absent and nothing holds it, restoration begins: the cap of R87 lifts and either steps remain or
it is complete. A shelf-wide cause with a lower member still restoring makes the device wait for its turn, and a missing frame
ends that wait. A step brings a cut port back in RESTART with its reserve booked once FREE covers it. ABORT_RESTORE stops a
running restoration and holds it, RESUME_RESTORE ends the hold; each answers BUSY otherwise. Rests on 03 R93, 03 R94, 03 R103, 04
R137. -/
def Obligations.Restoration : Prop :=
  (∀ (s : State), mayRestore s = true → s.ledger.causes.contains 3 = false → ∃ t, exec .restoreStart s = .next t ∧ t.ledger.cap = none
    ∧ t.ledger.turnWait = false ∧ (bit (t.rd K.ledgerFlags) 4 = true ∨ t.ledger.restoreDone = true)) ∧
  (∀ (s : State), mayRestore s = true → s.ledger.causes.contains 3 = true → hasPeers s = true → lowerBusy s = true → exec .restoreStart
    s = .next (settle ({ s with ledger := { s.ledger with turnWait := true } }))) ∧
  (∀ (s : State), mayRestore s = false → exec .restoreStart s = .next (settle s)) ∧
  (∀ (s : State), s.ledger.turnWait = true → mayRestore s = true → ∃ t, exec .restoreTurnTimeout s = .next t ∧ t.ledger.cap = none ∧
    t.ledger.turnWait = false ∧ (bit (t.rd K.ledgerFlags) 4 = true ∨ t.ledger.restoreDone = true)) ∧
  (∀ (s : State), s.ledger.turnWait = false → exec .restoreTurnTimeout s = .next (settle s)) ∧
  (∀ (p : Port) (s : State), bit (s.rd K.ledgerFlags) 4 = true → nextRestore s = some p → s.rP p Kp.ledgerState = 4 → s.restartReserve
    p ≤ freePower s → ∃ t, exec .restoreStep s = .next t ∧ t.rP p Kp.ledgerState = (if p ∈ s.ledger.waiting then 2 else if
    s.restartReserve p = 0 then 0 else 5) ∧ t.rP p Kp.booking = s.restartReserve p ∧ (t.path p).cut = false ∧ (t.path p).strip = none ∧
    (t.lport p).changed = false ∧ (∀ q, q ≠ p → t.path q = s.path q)) ∧
  (∀ (p : Port) (s : State), bit (s.rd K.ledgerFlags) 4 = true → nextRestore s = some p → s.rP p Kp.ledgerState = 4 → freePower s <
    s.restartReserve p → exec .restoreStep s = .next (settle s)) ∧
  (∀ (s : State), bit (s.rd K.ledgerFlags) 4 = false → exec .restoreStep s = .next (settle s)) ∧
  (∀ (s : State), bit (s.rd K.ledgerFlags) 4 = true → bit (s.rd K.ledgerFlags) 6 = false → ∃ t, exec .ledgerCmdAbortRestore s = .next t
    ∧ bit (t.rd K.ledgerFlags) 4 = false ∧ bit (t.rd K.ledgerFlags) 6 = true ∧ t.answer = 0 ∧ bit (t.rd K.alertSrc) 4 = true ∧
    WroteOnly [K.ledgerFlags, K.alertSrc] s t ∧ Only [.od, .answer, .pins] s t) ∧
  (∀ (s : State), bit (s.rd K.ledgerFlags) 4 = false → exec .ledgerCmdAbortRestore s = .next (settle (s.reply 1))) ∧
  (∀ (s : State), bit (s.rd K.ledgerFlags) 6 = true → ∃ t, exec .ledgerCmdResumeRestore s = .next t ∧ bit (t.rd K.ledgerFlags) 6 =
    false ∧ t.answer = 0 ∧ WroteOnly [K.ledgerFlags, K.alertSrc] s t ∧ Only [.od, .answer, .pins] s t) ∧
  (∀ (s : State), bit (s.rd K.ledgerFlags) 6 = false → exec .ledgerCmdResumeRestore s = .next (settle (s.reply 1))) ∧
  (∀ (s : State), ∃ t, exec .ledgerCmdClearFlags s = .next t ∧ [1, 2, 3, 5, 8].all (fun i => !bit (t.rd K.ledgerFlags) i) = true ∧ bit
    (t.rd K.ledgerFlags) 0 = bit (s.rd K.ledgerFlags) 0 ∧ bit (t.rd K.ledgerFlags) 4 = bit (s.rd K.ledgerFlags) 4 ∧ bit (t.rd
    K.ledgerFlags) 6 = bit (s.rd K.ledgerFlags) 6 ∧ bit (t.rd K.ledgerFlags) 7 = bit (s.rd K.ledgerFlags) 7 ∧ t.answer = 0 ∧ Only [.od,
    .answer, .pins] s t) ∧
  (∀ (s : State), ∃ t, exec .ledgerCmdForgetPeer s = .next t ∧ t.answer = 0 ∧ t.ledger.peers = s.ledger.peers.filter (fun q => !(q.lost
    && decide (q.node = (s.rd K.ledgerArg).toNat))) ∧ Only [.od, .ledger, .answer, .pins] s t)

/-- A frame of a member with the right tag replaces what is known of that member and moves the round on; a wrong tag is counted and
changes nothing else; a frame of no member, on another bus or under another identifier changes nothing. The device sends its frame
in its slot, on LEDGER_BUS under its identifier, the opener opens the next round with its own; while CAN sleeps neither is sent. A
slot that passes moves the round to the next member, a silent opener is followed by the next. The end of a round takes the BUDGET of
R100 and keeps its share, shows overcommit and the round. Under overcommit allotments are lowered; otherwise nothing is. Rests on 03
R98, 03 R99, 03 R100, 03 R101, 03 R102, 03 R104. -/
def Obligations.Reconciliation : Prop :=
  (∀ (f : LedgerFrame) (n : Nat) (s : State), f.raw.length = 56 → f.raw.getD 0 0 = 0x4C → f.raw.getD 1 0 = 1 → f.raw.getD 2 0 = n →
    s.inMask n = true → n ≠ s.node → (f.bus.val : Int) = s.rd K.ledgerBus → f.id = frameIdOf s n → s.asleep 2 = false → f.tag ≠
    s.frameTag f.raw → ∃ t, exec (.ledgerFrameRx f) s = .next t ∧ t.rd K.ledgerFrameErr = satInc (s.rd K.ledgerFrameErr) u32Max ∧
    WroteOnly [K.ledgerFrameErr] s t ∧ Only [.od, .pins] s t) ∧
  (∀ (f : LedgerFrame) (n : Nat) (s : State), f.raw.length = 56 → f.raw.getD 0 0 = 0x4C → f.raw.getD 1 0 = 1 → f.raw.getD 2 0 = n →
    s.inMask n = true → n ≠ s.node → (f.bus.val : Int) = s.rd K.ledgerBus → f.id = frameIdOf s n → s.asleep 2 = false → f.tag =
    s.frameTag f.raw → s.ledger.turnWait = false → ∃ t, exec (.ledgerFrameRx f) s = .next t ∧ (t.peer n).any (fun q => decide (q.sum =
    frameField f.raw 8 4 ∧ q.demand = frameField f.raw 16 4 ∧ q.limit = frameField f.raw 20 4 ∧ q.heard = true ∧ q.lost = false)) =
    true ∧ t.ledger.roundOpen = true ∧ t.ledger.roundNow = leValue ((f.raw.drop 4).take 2) ∧ t.ledger.slotNode = (memberAfter s n).getD
    128 ∧ (∀ m ∈ List.range 128, m ≠ n → (t.peer m).map (·.sum) = (s.peer m).map (·.sum)) ∧ Only [.od, .ledger, .pins] s t) ∧
  (∀ (f : LedgerFrame) (s : State), (s.inMask (f.raw.getD 2 0) = false ∨ (f.bus.val : Int) ≠ s.rd K.ledgerBus ∨ f.id ≠ frameIdOf s
    (f.raw.getD 2 0)) → exec (.ledgerFrameRx f) s = .next (settle s)) ∧
  (∀ (s : State), s.ledger.roundOpen = true → s.ledger.slotNode = s.node → s.ledger.sent = false → s.asleep 2 = false → ∃ t, exec
    .ledgerFrameTx s = .next t ∧ t.ledger =
    { s.ledger with sent := true, frameOut := s.ownFrame s.ledger.roundNow, frameBus := (s.rd K.ledgerBus).toNat, frameId := frameIdOf s s.node, slotNode := (memberAfter s s.node).getD 128 }
    ∧ Only [.ledger, .pins] s t) ∧
  (∀ (s : State), (s.ledger.sent = true ∨ s.asleep 2 = true) → exec .ledgerFrameTx s = .next (settle s)) ∧
  (∀ (s : State), hasPeers s = true → openerNode s = s.node → s.asleep 2 = false → ∃ t, exec .reconRoundOpen s = .next t ∧
    t.ledger.roundOpen = true ∧ t.ledger.roundNow = (s.ledger.roundNow + 1) % 65536 ∧ t.ledger.sent = true ∧ t.ledger.frameBus = (s.rd
    K.ledgerBus).toNat ∧ t.ledger.frameId = frameIdOf s s.node ∧ t.ledger.peers = s.ledger.peers.map (fun q =>
    { q with heard := false }) ∧ Only [.ledger, .pins] s t) ∧
  (∀ (s : State), hasPeers s = false → exec .reconRoundOpen s = .next (settle s)) ∧
  (∀ (node : Nat) (s : State), s.ledger.roundOpen = true → s.ledger.slotNode = node → ∃ t, exec (.reconSlotExpiry node) s = .next t ∧
    t.ledger = { s.ledger with slotNode := (memberAfter s node).getD 128 } ∧ Only [.ledger, .pins] s t) ∧
  (∀ (node : Nat) (s : State), s.ledger.roundOpen = false → exec (.reconSlotExpiry node) s = .next (settle s)) ∧
  (∀ (n : Nat) (s : State), memberAfter s (openerNode s) = some n → ∃ t, exec .openerSilent s = .next t ∧ t.ledger =
    { s.ledger with opener := some n } ∧ Only [.ledger, .pins] s t) ∧
  (∀ (s : State), s.ledger.roundOpen = true → s.ledger.slotNode = 128 → s.odNew = [] → s.ledger.cap = none → ∃ t, exec .reconRoundEnd s
    = .next t ∧ t.rd K.budget = reconBudget s ∧ t.ledger.share = reconShare s ∧ t.ledger.roundOpen = false ∧ t.ledger.overcommit =
    decide (reconSurplus s < 0) ∧ bit (t.rd K.ledgerFlags) 0 = decide (reconSurplus s < 0) ∧ t.rd K.round = s.ledger.roundNow ∧ Only
    [.od, .io, .ledgerPorts, .ledger, .pins] s t) ∧
  (∀ (s : State), s.ledger.slotNode < 128 → exec .reconRoundEnd s = .next (settle s)) ∧
  (∀ (s : State), s.ledger.roundOpen = false → exec .reconRoundEnd s = .next (settle s)) ∧
  (∀ (b : Int) (s : State), lowerTo s = some b → runningSum s ≤ b → exec .overcommitLowering s = .next (settle s)) ∧
  (∀ (s : State), lowerTo s = none → exec .overcommitLowering s = .next (settle s)) ∧
  (∀ (p : Port) (b : Int) (s : State), lowerTo s = some b → (cutOrder s).head? = some p → s.sourceRole p = true → b < runningSum s →
    runningSum s - b ≤ s.rP p Kp.booking → (s.port p).offer = [] → (s.port p).eprMode = false → ∃ t, exec .overcommitLowering s = .next
    t ∧ t.lport p = { s.lport p with overAllot := some (s.rP p Kp.booking - (runningSum s - b)) } ∧ (∀ q, q ≠ p → t.lport q = s.lport
    q) ∧ Only [.ledgerPorts, .pins] s t)

/-- Where no booking is negative and their sum is within BUDGET, the sum is within BUDGET after any ADMIT, RESERVE, RELEASE or
LOWER of any port, and no booking is negative. Rests on 03 R76, 03 R77, 03 R80. -/
def Obligations.LedgerWithinBudget : Prop :=
  ∀ (p : Port) (w : Nat) (s t : State), (∀ q : Port, 0 ≤ s.rP q Kp.booking) → runningSum s ≤ s.rd K.budget →
    (exec (.lqAdmit p w) s = .next t ∨ exec (.lqReserve p w) s = .next t ∨ exec (.lqRelease p) s = .next t ∨
      exec (.lqLower p w) s = .next t) →
    runningSum t ≤ t.rd K.budget ∧ ∀ q : Port, 0 ≤ t.rP q Kp.booking

/-- Seating shows in the flags and a stage that is off follows its conditions. A stage that meets them has its codes set and its
comparators in check; it ramps with its gate on when both have passed, and waits where one has not. PG_QUAL makes it ON with PG
where the gate may be on and its output is inside the window; power good drops, and a ramp times out, only outside that window.
Faults and the feed-loss term of a running stage turn its gate off, record the cause and count it, and are the strip trigger of that
feed; on a stage that does not run they change nothing. CLEAR ends a latched fault, OFF holds the stage, ON ends the hold. The other
stage's records do not change. Rests on 04 R141, 04 R142, 04 R143, 04 R144, 04 R145, 03 R75, 04 R162. -/
def Obligations.FeedStages : Prop :=
  (∀ (f : Feed) (pin1 : Bool) (seated : Bool) (s : State), s.hs f = 0 → seated = true → pin1 = false → ∃ t, exec (.seatChange f pin1
    seated) s = .next t ∧ t.feed f = { s.feed f with seat0 := true } ∧ bit (t.rF f Kf.feedFlags) 1 = true ∧ Only [.od, .feeds, .pins] s
    t ∧ (∀ g, g ≠ f → t.feed g = s.feed g)) ∧
  (∀ (f : Feed) (pin1 : Bool) (seated : Bool) (s : State), s.hs f = 4 → seated = false → pin1 = true → ∃ t, exec (.seatChange f pin1
    seated) s = .next t ∧ (t.feed f).seat1 = false ∧ (t.feed f).gateOn = false ∧ t.rF f Kf.feedHsState = 5 ∧ t.rF f Kf.lossCause = 3 ∧
    (∀ g, g ≠ f → t.feed g = s.feed g)) ∧
  (∀ (f : Feed) (vin : Int) (s : State), FeedHw.seated { s.feed f with vin := vin } = true → (s.setFeed f
    { s.feed f with vin := vin }).feedReady f = true → s.hs f ≤ 2 → s.odNew = [] → ∃ t, exec (.feedStart f vin) s = .next t ∧ t.feed f
    = { s.feed f with vin := vin, starting := true } ∧ t.rF f Kf.feedHsState = 2 ∧ (t.cmp (winF0 f)).checking = true ∧ (t.cmp (winF1
    f)).checking = true ∧ t.rC (winF0 f) Kc.hiCode = s.rF f Kf.feedOv / 2 ∧ Only [.od, .cmps, .feeds, .pins] s t ∧ (∀ g, g ≠ f → t.feed
    g = s.feed g)) ∧
  (∀ (f : Feed) (s : State), s.hs f = 3 → s.feedIn f = false → ∃ t, exec (.feedRampTimeout f) s = .next t ∧ (t.feed f).gateOn = false ∧
    (t.feed f).term = true ∧ t.rF f Kf.feedHsState = 5 ∧ t.rF f Kf.feedFault = 3 ∧ t.rF f Kf.lossCause = 4 ∧ (1 + f.val) ∈
    t.ledger.causes ∧ (∀ g, g ≠ f → t.feed g = s.feed g)) ∧
  (∀ (f : Feed) (s : State), s.hs f = 4 → ∃ t, exec (.feedRampTimeout f) s = .next t ∧ t.feed f = s.feed f ∧ Only [.pins] s t ∧ (∀ g, g
    ≠ f → t.feed g = s.feed g)) ∧
  (∀ (f : Feed) (s : State), s.feedRuns f = true → (s.feed f).ft = .idle → s.feedGate f = true → s.feedIn f = true → ∃ t, exec
    (.feedPgQualComplete f) s = .next t ∧ t.rF f Kf.feedHsState = 4 ∧ bit (t.rF f Kf.feedFlags) 3 = true ∧ bit (t.rd K.feedState) f.val
    = true ∧ t.feed f = s.feed f ∧ Only [.od, .io, .ledger, .pins] s t ∧ (∀ g, g ≠ f → t.feed g = s.feed g)) ∧
  (∀ (f : Feed) (s : State), bit (s.rF f Kf.feedFlags) 3 = true → s.feedIn f = false → ∃ t, exec (.feedPgDrop f) s = .next t ∧ bit
    (t.rF f Kf.feedFlags) 3 = false ∧ bit (t.rd K.feedState) f.val = false ∧ t.feed f = s.feed f ∧ Only [.od, .io, .ledger, .pins] s t
    ∧ (∀ g, g ≠ f → t.feed g = s.feed g)) ∧
  (∀ (f : Feed) (s : State), bit (s.rF f Kf.feedFlags) 3 = false → ∃ t, exec (.feedPgDrop f) s = .next t ∧ t.feed f = s.feed f ∧ Only
    [.pins] s t ∧ (∀ g, g ≠ f → t.feed g = s.feed g)) ∧
  (∀ (f : Feed) (s : State), s.feedRuns f = true → (s.feed f).ft = .running → ∃ t, exec (.feedFaultTimerExpiry f) s = .next t ∧ (t.feed
    f).gateOn = false ∧ t.rF f Kf.feedHsState = 5 ∧ t.rF f Kf.feedFault = 2 ∧ t.rF f Kf.lossCause = 4 ∧ (∀ g, g ≠ f → t.feed g = s.feed
    g)) ∧
  (∀ (f : Feed) (s : State), (s.feed f).ft = .held → ∃ t, exec (.feedFaultTimerIdle f) s = .next t ∧ t.feed f =
    { s.feed f with ft := .idle } ∧ Only [.feeds, .pins] s t ∧ (∀ g, g ≠ f → t.feed g = s.feed g)) ∧
  (∀ (f : Feed) (vin : Int) (vout : Int) (d : Int) (i : Rat) (e : Rat) (s : State), i = ((10 * d : Int) : Rat) / (s.rF f Kf.feedRshunt
    : Int) → e = max 0 ((s.feed f).soaE + ((vin - vout : Int) * i - (1000 * s.rF f Kf.feedSoaP0 : Int))) → s.hs f = 4 → s.asleep 2 =
    false → ((s.rF f Kf.feedIlim : Int) : Rat) ≤ i → e < ((s.rF f Kf.feedSoaE * 10000000 : Int) : Rat) → ∃ t, exec (.feedSoaUpdate f
    vin vout d) s = .next t ∧ t.feed f = { s.feed f with vin := vin, vout := vout, i := i, ft := .running, soaE := e } ∧ Only [.feeds,
    .pins] s t ∧ (∀ g, g ≠ f → t.feed g = s.feed g)) ∧
  (∀ (f : Feed) (vin : Int) (vout : Int) (d : Int) (i : Rat) (e : Rat) (s : State), i = ((10 * d : Int) : Rat) / (s.rF f Kf.feedRshunt
    : Int) → e = max 0 ((s.feed f).soaE + ((vin - vout : Int) * i - (1000 * s.rF f Kf.feedSoaP0 : Int))) → s.feedRuns f = true →
    s.asleep 2 = false → ((s.rF f Kf.feedSoaE * 10000000 : Int) : Rat) ≤ e → ∃ t, exec (.feedSoaUpdate f vin vout d) s = .next t ∧ t.rF
    f Kf.feedFault = 4 ∧ t.rF f Kf.feedHsState = 5 ∧ (t.feed f).gateOn = false ∧ (∀ g, g ≠ f → t.feed g = s.feed g)) ∧
  (∀ (f : Feed) (low : Bool) (s : State), low = true → s.hs f = 4 → ∃ t, exec (.feedUvWarn f low) s = .next t ∧ bit (t.rF f
    Kf.feedFlags) 0 = true ∧ t.feed f = s.feed f ∧ WroteOnly [keyF f Kf.feedFlags] s t ∧ Only [.od, .pins] s t ∧ (∀ g, g ≠ f → t.feed g
    = s.feed g)) ∧
  (∀ (f : Feed) (low : Bool) (s : State), low = false → ∃ t, exec (.feedUvWarn f low) s = .next t ∧ bit (t.rF f Kf.feedFlags) 0 = false
    ∧ t.feed f = s.feed f ∧ WroteOnly [keyF f Kf.feedFlags] s t ∧ Only [.od, .pins] s t ∧ (∀ g, g ≠ f → t.feed g = s.feed g)) ∧
  (∀ (f : Feed) (s : State), s.hs f = 5 → s.rF f Kf.lossCause = 4 → ∃ t, exec (.feedStageOff f) s = .next t ∧ t.feed f =
    { s.feed f with term := false } ∧ t.rF f Kf.feedHsState = 6 ∧ Only [.od, .odNew, .cmps, .feeds, .pins] s t ∧ (∀ g, g ≠ f → t.feed g
    = s.feed g)) ∧
  (∀ (f : Feed) (s : State), s.hs f = 4 → ∃ t, exec (.feedStageOff f) s = .next t ∧ t.feed f = s.feed f ∧ Only [.pins] s t ∧ (∀ g, g ≠
    f → t.feed g = s.feed g)) ∧
  (∀ (f : Feed) (s : State), s.hs f = 6 → ∃ t, exec (.feedCmdClear f) s = .next t ∧ t.rF f Kf.feedHsState = s.idleHs f ∧ t.feed f =
    s.feed f ∧ WroteOnly [keyF f Kf.feedHsState] s t ∧ Only [.od, .pins] s t ∧ (∀ g, g ≠ f → t.feed g = s.feed g)) ∧
  (∀ (f : Feed) (s : State), s.hs f = 4 → ∃ t, exec (.feedCmdClear f) s = .next t ∧ t.feed f = s.feed f ∧ Only [.pins] s t ∧ (∀ g, g ≠
    f → t.feed g = s.feed g)) ∧
  (∀ (f : Feed) (s : State), s.hs f = 2 → ∃ t, exec (.feedCmdOff f) s = .next t ∧ t.feed f =
    { s.feed f with cmdOff := true, starting := false } ∧ t.rF f Kf.feedHsState = 7 ∧ (∀ c, c ≠ winF0 f → c ≠ winF1 f → t.cmp c = s.cmp
    c) ∧ Only [.od, .odNew, .io, .cmps, .feeds, .pins] s t ∧ (∀ g, g ≠ f → t.feed g = s.feed g)) ∧
  (∀ (f : Feed) (s : State), s.hs f = 4 → ∃ t, exec (.feedCmdOff f) s = .next t ∧ (t.feed f).cmdOff = true ∧ (t.feed f).gateOn = false
    ∧ t.rF f Kf.feedHsState = 5 ∧ t.rF f Kf.lossCause = 5 ∧ (1 + f.val) ∈ t.ledger.causes ∧ (∀ g, g ≠ f → t.feed g = s.feed g)) ∧
  (∀ (f : Feed) (s : State), s.hs f = 7 → (s.feed f).seat0 = false → ∃ t, exec (.feedCmdOn f) s = .next t ∧ t.feed f =
    { s.feed f with cmdOff := false } ∧ t.rF f Kf.feedHsState = 0 ∧ Only [.od, .feeds, .pins] s t ∧ (∀ g, g ≠ f → t.feed g = s.feed g)) ∧
  (∀ (f : Feed) (c : LossCause) (s : State), s.feedRuns f = true → ∃ t, exec (.feedLossTerm f c) s = .next t ∧ (t.feed f).gateOn =
    false ∧ (t.feed f).term = true ∧ t.rF f Kf.feedHsState = 5 ∧ t.rF f Kf.lossCause = lossCode c ∧ t.rF f Kf.feedLossCount = satInc
    (s.rF f Kf.feedLossCount) u32Max ∧ t.ledger.trigs = s.ledger.trigs ++ [1 + f.val] ∧ (∀ n : Tile, (t.tile n).strobes = (s.tile
    n).strobes ++ [1 + f.val]) ∧ (∀ g, g ≠ f → t.feed g = s.feed g)) ∧
  (∀ (f : Feed) (c : LossCause) (s : State), s.feedRuns f = false → ∃ t, exec (.feedLossTerm f c) s = .next t ∧ t.feed f = s.feed f ∧
    Only [.pins] s t ∧ (∀ g, g ≠ f → t.feed g = s.feed g)) ∧
  (∀ (f : Feed) (s : State), s.feedIn f = true → exec (.feedRampTimeout f) s = .next (settle s) ∧ exec (.feedPgDrop f) s = .next
    (settle s)) ∧
  (∀ (f : Feed) (s : State), s.feedGate f = false → exec (.feedPgQualComplete f) s = .next (settle s))

/-- EN with SINK clear, on a path that is off and that nothing bars, starts the ramp: direction source, VSET for 5 V, both
comparators in their check, PP_STATE RAMP, and the EN bit set; EN with SINK set and SINK with EN set change nothing. SINK alone sets
its bit. ARM on a path that is on as a source is taken: ARM clears, the transition waits for its start toward PP_TARGET, and
PP_FLAGS[7] is clear; on a path that is not on ARM clears and starts nothing. A target beyond VSET's range is refused with
PP_FLAGS[7]. FRS_ARM begins the check of a sink-role port, and the end of that check arms it; under a shed it does nothing. In link
hold each request is queued for the tile as a PP_CTRL write and does nothing else. Other ports' paths and every core stay as they
are. Rests on 04 R126, 04 R147, 04 R129, 04 R108, 02 R64. -/
def Obligations.PathRequests : Prop :=
  (∀ (p : Port) (code : Nat) (s : State), s.held p = false → bit (s.ctrl p) 1 = false → (s.path p).gate = .off → (s.path p).warm = true
    → s.barred p = false → s.vsetCode p 500 = some code → ∃ t, exec (.ppCtrlEn p) s = .next t ∧ (t.path p).gate = .pre ∧ (t.path p).dir
    = .source ∧ (t.path p).target = 500 ∧ (t.path p).vset = code ∧ t.rP p Kp.ppState = Pp.ramp ∧ (t.cmp (winI p)).checking = true ∧
    (t.cmp (winV p)).checking = true ∧ bit (t.ctrl p) 0 = true ∧ (∀ q, q ≠ p → t.path q = s.path q) ∧ t.cores = s.cores) ∧
  (∀ (p : Port) (s : State), s.held p = false → bit (s.ctrl p) 1 = true → exec (.ppCtrlEn p) s = .next (settle s)) ∧
  (∀ (p : Port) (s : State), s.held p = false → bit (s.ctrl p) 0 = true → exec (.ppCtrlSink p) s = .next (settle s)) ∧
  (∀ (p : Port) (s : State), s.held p = false → bit (s.ctrl p) 0 = false → ∃ t, exec (.ppCtrlSink p) s = .next t ∧ bit (t.ctrl p) 1 =
    true ∧ t.ports = s.ports ∧ (∀ q, q ≠ p → t.path q = s.path q) ∧ t.cores = s.cores) ∧
  (∀ (p : Port) (code : Nat) (s : State), s.held p = false → (s.path p).gate = .on → (s.path p).dir = .source → s.vsetCode p (fieldOf
    (s.ior (blockOf p) (0x1004 + 0x100 * localOf p)) 0 16) = some code → ∃ t, exec (.ppArm p) s = .next t ∧ (t.path p).trans = .wait ∧
    (t.path p).armV = (fieldOf (s.ior (blockOf p) (0x1004 + 0x100 * localOf p)) 0 16 : Nat) ∧ (t.path p).armI = s.ppIcon p ∧ bit
    (t.ctrl p) 2 = false ∧ bit (t.rP p Kp.ppFlags) 7 = false ∧ (∀ q, q ≠ p → t.path q = s.path q) ∧ t.cores = s.cores) ∧
  (∀ (p : Port) (s : State), s.held p = false → (s.path p).gate = .on → (s.path p).dir = .source → s.vsetCode p (fieldOf (s.ior
    (blockOf p) (0x1004 + 0x100 * localOf p)) 0 16) = none → ∃ t, exec (.ppArm p) s = .next t ∧ t.path p = s.path p ∧ bit (t.ctrl p) 2
    = false ∧ bit (t.rP p Kp.ppFlags) 7 = true ∧ (∀ q, q ≠ p → t.path q = s.path q) ∧ t.cores = s.cores) ∧
  (∀ (p : Port) (s : State), s.held p = false → (s.path p).gate ≠ .on → ∃ t, exec (.ppArm p) s = .next t ∧ t.path p = s.path p ∧ bit
    (t.ctrl p) 2 = false ∧ (∀ q, q ≠ p → t.path q = s.path q) ∧ t.cores = s.cores) ∧
  (∀ (p : Port) (s : State), s.held p = false → (s.lport p).shedAllot = none → s.sinkRole p = true → ∃ t, exec (.ppFrsArm p) s = .next
    t ∧ bit (t.ctrl p) 3 = true ∧ (t.path p).frsWait = true ∧ (t.path p).frsArmed = false ∧ (t.path p).frsSeen = false ∧ (t.cmp (winI
    p)).checking = true ∧ (t.cmp (winV p)).checking = true ∧ (∀ q, q ≠ p → t.path q = s.path q) ∧ t.cores = s.cores) ∧
  (∀ (p : Port) (s : State), s.held p = false → (s.lport p).shedAllot = none → s.sinkRole p = false → exec (.ppFrsArm p) s = .next
    (settle (s.setCtrl p 3 true))) ∧
  (∀ (p : Port) (s : State), s.held p = false → (s.lport p).shedAllot.isSome = true → exec (.ppFrsArm p) s = .next (settle s)) ∧
  (∀ (p : Port) (o : CheckOut) (x : Int) (s : State), (s.cmp (winV p)).checking = true → (s.cmp (winI p)).checking = false → (s.path
    p).frsWait = true → checkStep o = 0 → s.power.deg = none → ((s.path p).dsch = false ∨ (s.path p).gate ≠ .off ∨ s.vbusServed p =
    true) → ∃ t, exec (.selfCheckEnd (winV p) o x) s = .next t ∧ t.path p = { s.path p with frsWait := false, frsArmed := true } ∧ (∀
    q, q ≠ p → t.path q = s.path q) ∧ t.cores = s.cores) ∧
  (∀ (p : Port) (s : State), s.held p = true → exec (.ppCtrlEn p) s = .next (settle (s.toTile p (.io (blockOf p) (ppCtrl p) (s.ctrlNext
    p ||| 1)))) ∧ exec (.ppCtrlSink p) s = .next (settle (s.toTile p (.io (blockOf p) (ppCtrl p) (s.ctrlNext p ||| 2)))) ∧ exec (.ppArm
    p) s = .next (settle (s.toTile p (.io (blockOf p) (ppCtrl p) (s.ctrlNext p ||| 4)))) ∧ exec (.ppFrsArm p) s = .next (settle
    (s.toTile p (.io (blockOf p) (ppCtrl p) (s.ctrlNext p ||| 8)))))

/-- Once the pre-turn-on check has ended the gate rises and PP_STATE reads RAMP. PG_QUAL with VBUS inside its window and the fault
timer idle ends the ramp with the gate fully on and PG 1; if the fault timer of a path that is on starts in that cycle PG stays and
the timer runs; a ramp that ends with the limit active ends with the gate on, the timer running and PP_STATE LIMIT. PG drops without
the gate when VBUS has been outside its window for PG_DEGLITCH. The trim moves VSET by one step toward the target when the average
is off by more than 0.25 % plus 10 mV. The held fault timer returns to idle after FT_CLEAR. Other ports' paths and every core stay
as they are. Rests on 04 R126, 04 R127, 04 R133, 04 R109, 04 R115. -/
def Obligations.PathRamp : Prop :=
  (∀ (p : Port) (s : State), (s.path p).gate = .pre → (s.cmp (winI p)).checking = false → (s.cmp (winV p)).checking = false → ∃ t, exec
    (.rampGateRise p) s = .next t ∧ (t.path p).gate = .ramp ∧ (t.path p).turning = false ∧ t.rP p Kp.ppState = Pp.ramp ∧ t.io = s.io ∧
    (∀ q, q ≠ p → t.path q = s.path q) ∧ t.cores = s.cores) ∧
  (∀ (p : Port) (s : State), (s.cmp (winV p)).checking = true → exec (.rampGateRise p) s = .next (settle s)) ∧
  (∀ (p : Port) (ftStarts : Bool) (s : State), (s.path p).gate = .ramp → (s.path p).dir = .source → s.pulldown p = false → s.vbusGood p
    = true → (s.path p).ft = .idle → (s.cmp (winI p)).l = false → ∃ t, exec (.pgQualComplete p ftStarts) s = .next t ∧ (t.path p).gate
    = .on ∧ (t.path p).onTb = s.tb ∧ t.rP p Kp.pg = 1 ∧ t.rP p Kp.ppState = Pp.on ∧ (∀ q, q ≠ p → t.path q = s.path q) ∧ t.cores =
    s.cores) ∧
  (∀ (p : Port) (ftStarts : Bool) (s : State), (s.path p).gate = .on → s.pulldown p = false → s.vbusGood p = true → (s.path p).ft =
    .idle → ftStarts = true → ∃ t, exec (.pgQualComplete p ftStarts) s = .next t ∧ t.path p = { s.path p with ft := .running } ∧ t.od =
    s.od ∧ (∀ q, q ≠ p → t.path q = s.path q) ∧ t.cores = s.cores) ∧
  (∀ (p : Port) (s : State), s.vbusGood p = false → ∃ t, exec (.pgDeglitchDrop p) s = .next t ∧ t.rP p Kp.pg = 0 ∧ t.path p = s.path p
    ∧ (∀ q, q ≠ p → t.path q = s.path q) ∧ t.cores = s.cores) ∧
  (∀ (p : Port) (l : List (Nat × Int)) (s : State), l = (s.path p).recent s.tb → l ≠ [] → (s.path p).dir = .source → (s.path p).gate =
    .on → (s.path p).slewing = false → (s.cmp (winI p)).l = false → (s.port p).ppsLimit = false → (s.path p).vset < 4095 → meanAbove l
    ((s.path p).target * 500) < 0 → (((s.path p).target * 500 + 200000 : Int) : Rat) < 400 * -meanAbove l ((s.path p).target * 500) → ∃
    t, exec (.vsetTrimStep p) s = .next t ∧ (t.path p).vset = (s.path p).vset + 1 ∧ t.od = s.od ∧ (∀ q, q ≠ p → t.path q = s.path q) ∧
    t.cores = s.cores) ∧
  (∀ (p : Port) (s : State), (s.path p).slewing = true → exec (.vsetTrimStep p) s = .next (settle s)) ∧
  (∀ (p : Port) (s : State), (s.path p).ft = .held → ∃ t, exec (.faultTimerIdle p) s = .next t ∧ (t.path p).ft = .idle ∧ t.od = s.od ∧
    (∀ q, q ≠ p → t.path q = s.path q) ∧ t.cores = s.cores) ∧
  (∀ (p : Port) (ftStarts : Bool) (s : State), (s.path p).gate = .ramp → s.pulldown p = false → s.vbusGood p = true → (s.path p).ft =
    .idle → (s.cmp (winI p)).l = true → ∃ t, exec (.pgQualComplete p ftStarts) s = .next t ∧ (t.path p).gate = .on ∧ (t.path p).ft =
    .running ∧ t.rP p Kp.ppState = Pp.limit ∧ t.rP p Kp.pg = (if s.rP p Kp.pgStrict = 1 then 0 else 1) ∧ (∀ q, q ≠ p → t.path q =
    s.path q) ∧ t.cores = s.cores)

/-- On a path that is on and neither cut, forced off nor in SAFE_OFF, with a retry left: RAMP_TIMEOUT, OVERCURRENT and the causes of
a trip block on its way (of two in one cycle, the lower code shown and both in the set) each turn the gate off, record their code in
PP_FAULT and PP_FAULT_SET, drop PG, set the power alert and wait for the retry. DSCH_FAIL, with VBUS above 0.8 V, and FET_STUCK lock
the port out. An SOA step at the limit sends its trip, one below it writes SOA_NOW. Rests on 04 R134, 04 R127, 04 R115, 04 R118, 01
R19, 04 R137, 04 R131, 04 R132, 04 R138. -/
def Obligations.PathFaults : Prop :=
  (∀ (p : Port) (s : State), (s.path p).gate = .ramp → (s.vbusGood p = false ∨ s.pulldown p = true) → canRetry s p → ∃ t, exec
    (.rampTimeout p) s = .next t ∧ faultedOff t p Flt.rampTimeout ∧ t.cores = s.cores) ∧
  (∀ (p : Port) (s : State), (s.path p).gate = .on → (s.path p).ft = .running → canRetry s p → ∃ t, exec (.faultTimerExpiry p) s =
    .next t ∧ faultedOff t p Flt.overcurrent ∧ (t.path p).ft = .held ∧ t.cores = s.cores) ∧
  (∀ (p : Port) (c : DpCause) (s : State), (s.path p).gate = .on → canRetry s p → s.lath (tileOf p) = 0 → [c] ∈ (s.path p).trips → (∀ g
    ∈ (s.path p).trips, c ∈ g → g = [c]) → ∃ t, exec (.dpTripBlock p c) s = .next t ∧ faultedOff t p (tripFault c) ∧ (t.path p).trips =
    (s.path p).trips.erase [c] ∧ t.cores = s.cores) ∧
  (∀ (p : Port) (c : DpCause) (d : DpCause) (s : State), (s.path p).gate = .on → canRetry s p → s.lath (tileOf p) = 0 → (s.path
    p).trips = [[c, d]] → c ≠ d → (∃ x ∈ [c, d], x = .i2t) → ∃ t, exec (.dpTripBlock p c) s = .next t ∧ faultedOff t p Flt.i2t ∧ bit
    (t.rP p Kp.ppFaultSet) (tripFault d) = true ∧ (t.path p).trips = [] ∧ t.cores = s.cores) ∧
  (∀ (p : Port) (c : DpCause) (s : State), s.lath (tileOf p) ≠ 0 → exec (.dpTripBlock p c) s = .next (settle s)) ∧
  (∀ (p : Port) (c : DpCause) (s : State), (∀ g ∈ (s.path p).trips, c ∉ g) → exec (.dpTripBlock p c) s = .next (settle s)) ∧
  (∀ (p : Port) (l : List FetSample) (s : State), bit (s.rP p Kp.ppFlags) 4 = false → l ≠ [] → (s.path p).gate = .on → (s.path p).trips
    = [] → 0 ≤ s.rP p Kp.soaEMax → ((s.rP p Kp.soaEMax * 100 : Int) : Rat) ≤ (s.path p).soaE + (s.meanPfet p l - (s.rP p Kp.soaP0 :
    Int)) → ∃ t, exec (.soaUpdate p l) s = .next t ∧ (t.path p).trips = [[.soa]] ∧ (t.path p).soaE = (s.path p).soaE + (s.meanPfet p l
    - (s.rP p Kp.soaP0 : Int)) ∧ Only [.od, .paths, .pins] s t ∧ t.cores = s.cores) ∧
  (∀ (p : Port) (l : List FetSample) (s : State), bit (s.rP p Kp.ppFlags) 4 = false → l ≠ [] → (s.path p).gate = .off → ∃ t, exec
    (.soaUpdate p l) s = .next t ∧ (t.path p).soaE = max 0 ((s.path p).soaE + (s.meanPfet p l - (s.rP p Kp.soaP0 : Int))) ∧ t.rP p
    Kp.soaNow = clampTo 0 u32Max ((t.path p).soaE / 100).floor ∧ t.cores = s.cores) ∧
  (∀ (p : Port) (l : List FetSample) (s : State), bit (s.rP p Kp.ppFlags) 4 = true → exec (.soaUpdate p l) s = .next (settle s)) ∧
  (∀ (p : Port) (s : State), (s.path p).dsch = true → (s.path p).gate = .off → s.vbusHigh p = true → ∃ t, exec (.dschMaxExpiry p) s =
    .next t ∧ (t.path p).dsch = false ∧ (t.path p).lockout = true ∧ t.rP p Kp.ppState = Pp.lockout ∧ bit (t.rP p Kp.ppFaultSet)
    Flt.dschFail = true ∧ bit (t.rP p Kp.ppFaultSet) Flt.lockout = true ∧ t.cores = s.cores) ∧
  (∀ (p : Port) (s : State), (s.path p).gate = .off → (s.path p).turning = false → ∃ t, exec (.fetStuck p) s = .next t ∧ (t.path
    p).vset = 0 ∧ (t.path p).dsch = false ∧ (t.path p).lockout = true ∧ t.rP p Kp.ppState = Pp.lockout ∧ bit (t.rP p Kp.ppFaultSet)
    Flt.fetStuck = true ∧ t.cores = s.cores)

/-- An NTC reading, converted by the free conversion of log entry 143, stands in T_NTC where it lies from −55 °C to 175 °C, and
before the first valid one clears PP_FLAGS[0]; outside it reads as invalid, and once the start window is over records NTC_INVALID
with the gate as it was. A thermal step below FET_TMAX writes TJ_MODEL as the NTC value plus the rise. The start window's end
returns normal limits. An estimate with at least 1 A moves the filtered resistance; below 1 A nothing changes. DP_BLIND sets
PP_FLAGS[4]. Every core stays as it is. Rests on 04 R119, 04 R120, 04 R121, 04 R124. -/
def Obligations.PathModels : Prop :=
  (∀ (p : Port) (x : Nat) (t0 : Int) (s : State), t0 = (ntcTemp x (s.rP p Kp.ntcRnom) (s.rP p Kp.ntcBeta)).getD 1751 → (s.path p).warm
    = false → ∃ t, exec (.ntcRead p x) s = .next t ∧ (-550 ≤ t0 ∧ t0 ≤ 1750 → t.rP p Kp.tNtc = t0 ∧ bit (t.rP p Kp.ppFlags) 0 = false ∧
    (t.path p).ntcLast = some t0) ∧ (t0 < -550 ∨ 1750 < t0 → t.rP p Kp.tNtc = -32768 ∧ t.path p = s.path p) ∧ (∀ q, q ≠ p → t.path q =
    s.path q) ∧ Only [.od, .paths, .pins] s t) ∧
  (∀ (p : Port) (x : Nat) (t0 : Int) (s : State), t0 = (ntcTemp x (s.rP p Kp.ntcRnom) (s.rP p Kp.ntcBeta)).getD 1751 → (s.path p).warm
    = true → bit (s.rP p Kp.ppFlags) 0 = false → ∃ t, exec (.ntcRead p x) s = .next t ∧ (-550 ≤ t0 ∧ t0 ≤ 1750 → t.rP p Kp.tNtc = t0 ∧
    (t.path p).ntcLast = some t0) ∧ (t0 < -550 ∨ 1750 < t0 → t.rP p Kp.tNtc = -32768 ∧ bit (t.rP p Kp.ppFlags) 0 = true ∧ t.rP p
    Kp.ppFault = Flt.ntcInvalid ∧ (t.path p).gate = (s.path p).gate) ∧ (∀ q, q ≠ p → t.path q = s.path q)) ∧
  (∀ (p : Port) (l : List FetSample) (m : FetSample) (s : State), bit (s.rP p Kp.ppFlags) 4 = false → (s.path p).gate = .off → ∃ t,
    exec (.thermalUpdate p (l ++ [m])) s = .next t ∧ (t.path p).rise = thermalRise (s.path p).rise (s.path p).rPath (s.meanPfet p (l ++
    [m])) (s.sampleI p m) (s.rP p Kp.rthJn) (s.rP p Kp.tauTh) ∧ t.rP p Kp.tjModel = s.modelNtc p + (10 * (t.path p).rise).floor ∧
    t.cores = s.cores) ∧
  (∀ (p : Port) (s : State), (s.path p).startWin = true → ∃ t, exec (.ntcStartWindowEnd p) s = .next t ∧ (t.path p).startWin = false ∧
    bit (t.rP p Kp.ppFlags) 1 = false ∧ t.cores = s.cores) ∧
  (∀ (p : Port) (m : FetSample) (s : State), 10000 ≤ magnitude (s.sampleI p m) → ∃ t, exec (.pathREstimate p m) s = .next t ∧ (t.path
    p).rPath = (s.path p).rPath + ((10000 * vfet m : Int) / s.sampleI p m - (s.path p).rPath) / 1000 ∧ t.rP p Kp.rPathEst = clampTo 0
    u16Max (t.path p).rPath.floor ∧ t.cores = s.cores) ∧
  (∀ (p : Port) (m : FetSample) (s : State), magnitude (s.sampleI p m) < 10000 → exec (.pathREstimate p m) s = .next (settle s)) ∧
  (∀ (p : Port) (s : State), ∃ t, exec (.dpBlind p) s = .next t ∧ bit (t.rP p Kp.ppFlags) 4 = true ∧ (t.path p).i2tAcc = (s.path
    p).i2tAcc ∧ (t.path p).soaE = (s.path p).soaE ∧ (t.path p).rise = (s.path p).rise ∧ Only [.od, .paths, .pins] s t ∧ t.cores =
    s.cores)

/-- The end of a turn-off turns the discharge on with the lower threshold of WIN_V at 0.8 V. A retry delay that ends lowers
RETRY_LEFT and starts the ramp of a port that has run before. PG without a fault for RETRY_RESET restores the count. CLEAR_LOCKOUT
ends a lockout at UNATTACHED with the count restored, or in DISABLED where a DISABLE was answered meanwhile; CLEAR_FAULT_SET clears
PP_FAULT_SET; FORCE_OFF turns the gate off and holds it; RELEASE_FORCE_OFF ends that; in link hold the three are queued for the tile
and do nothing else. A current result stands as the tile's latest, and the discharge ends below 0.8 V, at once where no results come
and the comparator's L is clear. After a fault the engine clears the contract of a source port without a Hard Reset. Rests on 04
R111, 04 R131, 04 R136, 04 R137, 04 R138, 04 R130, 04 R148, 04 R161, 04 R482. -/
def Obligations.PathOff : Prop :=
  (∀ (p : Port) (x : Int) (s : State), (s.path p).turning = true → (s.path p).gate = .off → s.rP p Kp.ppState = Pp.off → s.vbusServed p
    = true → ∃ t, exec (.turnOffComplete p x) s = .next t ∧ (t.path p).turning = false ∧ (t.path p).dsch = true ∧ t.rC (winV p)
    Kc.loCode = 50 ∧ t.rP p Kp.ppState = Pp.discharge ∧ t.cores = s.cores) ∧
  (∀ (p : Port) (code : Nat) (s : State), (s.path p).retryWait = true → (s.path p).otWait = false → (s.path p).warm = true → s.sinkRole
    p = false → (s.setPp p Pp.off).vsetCode p 500 = some code → ∃ t, exec (.retryDelayExpiry p) s = .next t ∧ (t.path p).retryWait =
    false ∧ (t.path p).gate = .pre ∧ t.rP p Kp.retryLeft = s.rP p Kp.retryLeft - 1 ∧ t.rP p Kp.ppState = Pp.ramp ∧ t.cores = s.cores) ∧
  (∀ (p : Port) (s : State), (s.path p).retryWait = false → exec (.retryDelayExpiry p) s = .next (settle s)) ∧
  (∀ (p : Port) (s : State), s.rP p Kp.pg = 1 → ∃ t, exec (.retryResetExpiry p) s = .next t ∧ t.rP p Kp.retryLeft = s.rP p
    Kp.retryCount ∧ t.paths = s.paths ∧ t.cores = s.cores) ∧
  (∀ (p : Port) (s : State), s.held p = false → (s.path p).lockout = true → (s.path p).cut = false → (s.path p).safe = false → (s.path
    p).force = false → (s.path p).retryWait = false → (s.port p).toDisable = false → s.rP p Kp.role ≠ 3 → (s.tile (tileOf p)).feOk =
    true → s.sec.stat = 7 → ∃ t, exec (.ppCmdClearLockout p) s = .next t ∧ (t.path p).lockout = false ∧ (t.port p).ccOpen = false ∧
    t.rP p Kp.retryLeft = s.rP p Kp.retryCount ∧ t.rP p Kp.ppState = Pp.off ∧ t.rP p Kp.attachState = Att.unattached ∧ t.cores =
    s.cores) ∧
  (∀ (p : Port) (s : State), ∃ t, exec (.ppCmdClearFaultSet p) s = .next t ∧ t.rP p Kp.ppFaultSet = 0 ∧ t.paths = s.paths ∧ t.io = s.io
    ∧ t.cores = s.cores) ∧
  (∀ (p : Port) (s : State), s.held p = false → (s.path p).cut = false → (s.path p).safe = false → (s.path p).lockout = false → ∃ t,
    exec (.ppCmdForceOff p) s = .next t ∧ (t.path p).force = true ∧ (t.path p).gate = .off ∧ (t.path p).retryWait = false ∧ t.rP p
    Kp.ppState = Pp.forcedOff ∧ t.rP p Kp.pg = 0 ∧ t.cores = s.cores) ∧
  (∀ (p : Port) (s : State), s.held p = false → (s.path p).force = true → (s.path p).retrySusp = true → (s.path p).cut = false →
    (s.path p).safe = false → (s.path p).lockout = false → ∃ t, exec (.ppCmdReleaseForceOff p) s = .next t ∧ (t.path p).force = false ∧
    (t.path p).retryWait = true ∧ (t.path p).retrySusp = false ∧ t.rP p Kp.ppState = Pp.retryWait ∧ t.cores = s.cores) ∧
  (∀ (p : Port) (s : State), s.held p = false → (s.path p).force = false → exec (.ppCmdReleaseForceOff p) s = .next (settle s)) ∧
  (∀ (p : Port) (volt : Bool) (x : Int) (s : State), volt = false → bit (s.rP p Kp.partnerFlags) 4 = false → ∃ t, exec (.tileResult p
    volt x) s = .next t ∧ (t.path p).iNow = x ∧ t.od = s.od ∧ t.cores = s.cores) ∧
  (∀ (p : Port) (volt : Bool) (x : Int) (s : State), volt = true → (s.path p).dsch = true → (s.path p).gate = .off → (s.path
    p).upperWaits = false → bit (s.ctrl p) 1 = false → x < 40000 → ∃ t, exec (.tileResult p volt x) s = .next t ∧ (t.path p).vNow = x ∧
    (t.path p).dsch = false ∧ t.cores = s.cores) ∧
  (∀ (p : Port) (s : State), s.rP p Kp.attachState = Att.src → (s.rP p Kp.contractPos ≠ 0 ∨ s.rP p Kp.contract = Ctr.spr) → (s.path
    p).gate = .off → ∃ t, exec (.faultProtocolReset p) s = .next t ∧ t.rP p Kp.contract = Ctr.none ∧ t.rP p Kp.attachState = Att.src ∧
    (t.port p).txId = 0 ∧ (t.port p).held = [] ∧ t.cores = s.cores) ∧
  (∀ (p : Port) (s : State), s.held p = false → (s.path p).lockout = true → (s.path p).cut = false → (s.path p).safe = false → (s.port
    p).toDisable = true → ∃ t, exec (.ppCmdClearLockout p) s = .next t ∧ (t.path p).lockout = false ∧ t.rP p Kp.attachState =
    Att.disabled ∧ (t.port p).toDisable = false ∧ (t.port p).ccOpen = true ∧ t.rP p Kp.retryLeft = s.rP p Kp.retryCount ∧ t.cores =
    s.cores) ∧
  (∀ (p : Port) (s : State), s.held p = true → exec (.ppCmdClearLockout p) s = .next (settle (s.toTile p (.cmd p 1))) ∧ exec
    (.ppCmdForceOff p) s = .next (settle (s.toTile p (.cmd p 3))) ∧ exec (.ppCmdReleaseForceOff p) s = .next (settle (s.toTile p (.cmd
    p 4)))) ∧
  (∀ (p : Port) (x : Int) (s : State), (s.path p).turning = true → (s.path p).gate = .off → s.vbusServed p = false → (s.cmp (winV p)).l
    = false → (s.cmp (winV p)).checking = true → s.rP p Kp.ppState = Pp.off → ∃ t, exec (.turnOffComplete p x) s = .next t ∧ (t.path
    p).turning = false ∧ (t.path p).dsch = false ∧ t.rP p Kp.ppState = Pp.off ∧ t.cores = s.cores)

/-- An input inside the window of a port's VBUS sets L and clears H with both resolved and notes when it entered; the input of a
comparator under check changes nothing. After its settling a comparator is evaluated without history, and an input above both
thresholds sets H, L and the latch of H. The WIN_I of a path whose gate is on runs or holds the fault timer after its settling or
check as L stands. Under PERIOD the latches load the live fault sides; a write clears them only under FW. A check on command is BUSY
on a live path and runs otherwise; through the mirror it shows RESULT 3 or GO, and in link hold it waits for the link. A check that
passes clears CHK_FAIL; one that fails sets it and counts it, and its path stays off: the port enters SAFE_OFF, the feed stays in
WAIT. A feed whose second check passes ramps. No other comparator of a port's check changes. Rests on 05 R150, 05 R153, 05 R154, 05
R155, 05 R156, 05 R157, 05 R158, 05 R159. -/
def Obligations.Comparators : Prop :=
  (∀ (c : Cmp) (x : Int) (p : Port) (s : State), c = winV p → (s.cmp c).checking = false → (s.cmp c).settling = false → s.asleep 4 =
    false → (s.cmp c).noHist = false → s.rC c Kc.loCode ≤ x → x < s.rC c Kc.hiCode - s.rC c Kc.hystH → s.rC c Kc.loCode ≤ s.rC c
    Kc.hiCode → 0 ≤ s.rC c Kc.hystH → ∃ t, exec (.comparatorCrossing c x) s = .next t ∧ t.cmp c =
    { s.cmp c with h := false, l := true, hUnres := false, lUnres := false, noHist := false } ∧ t.path p =
    { s.path p with inTb := if (s.cmp c).l = false ∨ (s.cmp c).h = true then some s.tb else (s.path p).inTb } ∧ (∀ q, q ≠ p → t.path q
    = s.path q) ∧ Only [.cmps, .paths, .pins] s t ∧ (∀ d, d ≠ c → t.cmp d = s.cmp d)) ∧
  (∀ (c : Cmp) (x : Int) (s : State), (s.cmp c).checking = true → exec (.comparatorCrossing c x) s = .next (settle s)) ∧
  (∀ (c : Cmp) (x : Int) (s : State), (s.cmp c).settling = true → (∀ p : Port, c = winI p → (s.path p).gate ≠ .on) → s.rC c Kc.loCode ≤
    x → s.rC c Kc.hiCode ≤ x → ∃ t, exec (.comparatorSettleEnd c x) s = .next t ∧ (t.cmp c).h = true ∧ (t.cmp c).l = true ∧ (t.cmp
    c).settling = false ∧ (t.cmp c).hLatch = true ∧ (t.cmp c).hUnres = false ∧ (t.cmp c).noHist = false ∧ (∀ d, d ≠ c → t.cmp d = s.cmp
    d) ∧ Only [.io, .cmps, .pins] s t) ∧
  (∀ (c : Cmp) (x : Int) (p : Port) (s : State), c = winI p → (s.cmp c).settling = true → (s.path p).gate = .on → ∃ t, exec
    (.comparatorSettleEnd c x) s = .next t ∧ (t.cmp c).settling = false ∧ (t.cmp c).noHist = false ∧ ((t.cmp c).l = true → (t.path
    p).ft = .running) ∧ ((t.cmp c).l = false → (t.path p).ft ≠ .running) ∧ (∀ q, q ≠ p → t.path q = s.path q)) ∧
  (∀ (c : Cmp) (x : Int) (s : State), (s.cmp c).settling = false → exec (.comparatorSettleEnd c x) s = .next (settle s)) ∧
  (∀ (c : Cmp) (s : State), s.rC c Kc.latchClr = 1 → ∃ t, exec (.latchPeriodBoundary c) s = .next t ∧ t.cmp c =
    { s.cmp c with hLatch := (s.cmp c).h, lLatch := decide ((s.cmp c).l = faultL c) } ∧ (∀ d, d ≠ c → t.cmp d = s.cmp d) ∧ Only [.io,
    .cmps, .pins] s t) ∧
  (∀ (c : Cmp) (s : State), s.rC c Kc.latchClr = 0 → exec (.latchPeriodBoundary c) s = .next (settle s)) ∧
  (∀ (c : Cmp) (s : State), s.rC c Kc.latchClr = 0 → exec (.cmpCmdClearLatch c) s = .next (settle ((s.setCmp c
    { s.cmp c with hLatch := false, lLatch := false }).reply 0))) ∧
  (∀ (c : Cmp) (s : State), s.rC c Kc.latchClr = 1 → exec (.cmpCmdClearLatch c) s = .next (settle (s.reply 0))) ∧
  (∀ (c : Cmp) (s : State), s.cmpLive c = false → exec (.cmpCmdSelfchk c) s = .next (settle ((s.setCmp c
    { s.cmp c with checking := true }).reply 0))) ∧
  (∀ (c : Cmp) (s : State), s.cmpLive c = true → exec (.cmpCmdSelfchk c) s = .next (settle (s.reply 1))) ∧
  (∀ (e : Eng) (q : Fin 4) (v : Bool) (s : State), e.val < 16 → v = true → s.held (Fin.ofNat 64 (4 * e.val + q.val)) = false →
    s.cmpLive (winV (Fin.ofNat 64 (4 * e.val + q.val))) = false → exec (.cmpSelfchkGo e q v) s = .next (settle ((s.iow e.val 0x2018
    ((q.val : Int) + 4 + 8)).setCmp (winV (Fin.ofNat 64 (4 * e.val + q.val)))
    { s.cmp (winV (Fin.ofNat 64 (4 * e.val + q.val))) with checking := true, asked := true }))) ∧
  (∀ (e : Eng) (q : Fin 4) (v : Bool) (s : State), e.val < 16 → v = false → s.held (Fin.ofNat 64 (4 * e.val + q.val)) = false →
    s.cmpLive (winI (Fin.ofNat 64 (4 * e.val + q.val))) = true → exec (.cmpSelfchkGo e q v) s = .next (settle (s.iow e.val 0x2018
    ((q.val : Int) + 0 + 48)))) ∧
  (∀ (e : Eng) (q : Fin 4) (v : Bool) (s : State), e.val < 16 → s.held (Fin.ofNat 64 (4 * e.val + q.val)) = true → exec (.cmpSelfchkGo
    e q v) s = .next (settle (s.toTile (Fin.ofNat 64 (4 * e.val + q.val)) (.io e.val 0x2018 (q.val + (if v then 12 else 8)))))) ∧
  (∀ (c : Cmp) (o : CheckOut) (x : Int) (p : Port) (s : State), c = winI p → (s.cmp c).checking = true → checkStep o = 0 → s.power.deg
    = none → (s.path p).gate ≠ .on → ∃ t, exec (.selfCheckEnd c o x) s = .next t ∧ (t.cmp c).checking = false ∧ (t.cmp c).chkFail =
    false ∧ (t.cmp c).noHist = false ∧ (∀ d, d ≠ c → t.cmp d = s.cmp d) ∧ ((s.path p).frsWait = false → t.path p = s.path p) ∧ (∀ q, q
    ≠ p → t.path q = s.path q) ∧ Only [.io, .cmps, .tiles, .paths, .pins] s t) ∧
  (∀ (c : Cmp) (o : CheckOut) (x : Int) (p : Port) (s : State), c = winI p → (s.cmp c).checking = true → checkStep o = 0 → s.power.deg
    = none → (s.path p).gate = .on → ∃ t, exec (.selfCheckEnd c o x) s = .next t ∧ (t.cmp c).checking = false ∧ (t.cmp c).chkFail =
    false ∧ (t.cmp c).noHist = false ∧ ((t.cmp c).l = true → (t.path p).ft = .running) ∧ ((t.cmp c).l = false → (t.path p).ft ≠
    .running) ∧ (∀ q, q ≠ p → t.path q = s.path q)) ∧
  (∀ (c : Cmp) (o : CheckOut) (x : Int) (p : Port) (s : State), c = winI p → (s.cmp c).checking = true → checkStep o ≠ 0 → s.power.deg
    = none → (s.path p).safe = false → ∃ t, exec (.selfCheckEnd c o x) s = .next t ∧ (t.cmp c).checking = false ∧ (t.cmp c).chkFail =
    true ∧ t.rC c Kc.chkCount = satInc (s.rC c Kc.chkCount) u32Max ∧ bit (t.rd K.alertSrc) 5 = true ∧ (t.path p).safe = true ∧ (t.path
    p).gate = .off ∧ t.rP p Kp.attachState = Att.safeOff ∧ (∀ d, d ≠ c → d ≠ winV p → t.cmp d = s.cmp d)) ∧
  (∀ (c : Cmp) (o : CheckOut) (x : Int) (f : Feed) (s : State), c = winF1 f → (s.cmp c).checking = true → checkStep o = 0 → s.power.deg
    = none → (s.feed f).starting = true → (s.cmp (winF0 f)).checking = false → (s.cmp (winF0 f)).l = true → (s.cmp (winF0 f)).h = false
    → s.feedReady f = true → s.hs f = 2 → 0 ≤ s.rC c Kc.hystH → s.rC c Kc.loCode ≤ x → x < s.rC c Kc.hiCode - s.rC c Kc.hystH → s.rC c
    Kc.loCode ≤ s.rC c Kc.hiCode → ∃ t, exec (.selfCheckEnd c o x) s = .next t ∧ t.feed f =
    { s.feed f with gateOn := true, term := false, ft := .idle, starting := false } ∧ t.rF f Kf.feedHsState = 3 ∧ (t.cmp c).checking =
    false ∧ (t.cmp c).chkFail = false ∧ Only [.od, .io, .cmps, .tiles, .feeds, .pins] s t) ∧
  (∀ (c : Cmp) (o : CheckOut) (x : Int) (f : Feed) (s : State), c = winF1 f → (s.cmp c).checking = true → checkStep o ≠ 0 → s.power.deg
    = none → (s.feed f).starting = true → s.hs f = 2 → ∃ t, exec (.selfCheckEnd c o x) s = .next t ∧ (t.feed f).starting = false ∧
    (t.feed f).gateOn = (s.feed f).gateOn ∧ t.rF f Kf.feedHsState = 2 ∧ (t.cmp c).chkFail = true)

/-- CAL and START are refused NOT_READY while the reference of a named converter has not settled; CAL schedules every named
converter, START puts a stopped one into its delay or wait for its trigger, STOP ends a run at its boundary and a wait at once, SAVE
writes the image of the factors in force, LOAD waits for the boundary and is refused for a bad image, both after an image still
pending is applied, CLEAR_COUNTERS clears the saturating counters alone. A calibration starts at a boundary, and its end keeps or
replaces the factors. Triggers and pass starts and ends move the run as the manual says; a pass whose conversions are not all made
does not end. Rests on 06 R181, 06 R182, 06 R183, 06 R189, 06 R190, 06 R191, 06 R193, 06 R207. -/
def Obligations.ConverterCommands : Prop :=
  (∀ (s : State), (namedConvs s).any (fun c => !refSettled s c) = true → exec .cvCmdCal s = .next (settle (s.reply 3))) ∧
  (∀ (s : State), (namedConvs s).any (fun c => !refSettled s c) = false → (namedConvs s).any (fun c => decide ((s.conv c).cal ≠ .none))
    = true → exec .cvCmdCal s = .next (settle (s.reply 1))) ∧
  (∀ (s : State), (namedConvs s).any (fun c => !refSettled s c) = false → (namedConvs s).any (fun c => decide ((s.conv c).cal ≠ .none))
    = false → ∃ t, exec .cvCmdCal s = .next t ∧ (∀ c ∈ namedConvs s, t.conv c =
    { s.conv c with cal := .pending, calWas := resumeOf s c }) ∧ (∀ c, c ∉ namedConvs s → t.conv c = s.conv c) ∧ t.rd K.calState = 1 ∧
    t.answer = 0 ∧ WroteOnly [K.calState] s t ∧ Only [.od, .convs, .answer, .pins] s t) ∧
  (∀ (s : State), (namedConvs s).any (fun c => !refSettled s c) = true → exec .cvCmdStart s = .next (settle (s.reply 3))) ∧
  (∀ (s : State), (namedConvs s).any (fun c => !refSettled s c) = false → ∃ t, exec .cvCmdStart s = .next t ∧ (∀ c ∈ namedConvs s,
    (s.conv c).cal = .none → (s.conv c).run = .stopped → (t.conv c).run = if s.rV c Kv.seqTrig ≤ 1 then .delay else .waiting) ∧ (∀ c, c
    ∉ namedConvs s → t.conv c = s.conv c) ∧ t.answer = 0 ∧ Only [.od, .convs, .answer, .pins] s t) ∧
  (∀ (s : State), ∃ t, exec .cvCmdStop s = .next t ∧ (∀ c ∈ namedConvs s, (s.conv c).cal = .none → (s.conv c).run = .running → t.conv c
    = { s.conv c with stopping := true }) ∧ (∀ c ∈ namedConvs s, (s.conv c).cal = .none → (s.conv c).run = .waiting → t.conv c =
    { s.conv c with run := .stopped }) ∧ (∀ c, c ∉ namedConvs s → t.conv c = s.conv c) ∧ t.answer = 0 ∧ Only [.od, .odNew, .paths,
    .convs, .answer, .pins] s t) ∧
  (∀ (s : State), ∃ t, exec .cvCmdSave s = .next t ∧ (∀ c ∈ namedConvs s, t.rdB (keyV c Kv.calImage) = calImage s c) ∧ t.answer = 0 ∧
    Only [.odNew, .blob, .answer, .pins] s t) ∧
  (∀ (s : State), (namedConvs s).any (fun c => !imageOk ((s.useText (keyV c Kv.calImage)).rdB (keyV c Kv.calImage))) = true → ∃ t, exec
    .cvCmdLoad s = .next t ∧ t.answer = 3 ∧ WroteOnly [] s t ∧ Only [.odNew, .blob, .answer, .pins] s t) ∧
  (∀ (s : State), (namedConvs s).any (fun c => !imageOk ((s.useText (keyV c Kv.calImage)).rdB (keyV c Kv.calImage))) = false → ∃ t,
    exec .cvCmdLoad s = .next t ∧ (∀ c ∈ namedConvs s, (s.conv c).run = .running → t.conv c = { s.conv c with loading := true }) ∧
    t.answer = 0) ∧
  (∀ (s : State), ∃ t, exec .cvCmdClearCounters s = .next t ∧ (∀ c ∈ namedConvs s, t.rV c Kv.trigOvrn = 0 ∧ t.rV c Kv.tagqDrop = 0 ∧
    t.rV c Kv.ovrCount = 0 ∧ t.rV c Kv.plausFails = 0 ∧ t.rV c Kv.plausSkew = 0 ∧ t.rV c Kv.mirrorLost = 0 ∧ t.rV c Kv.passCount = s.rV
    c Kv.passCount) ∧ t.answer = 0 ∧ Only [.od, .answer, .pins] s t) ∧
  (∀ (c : Conv) (s : State), (s.conv c).cal = .pending → (s.conv c).atBoundary = true → (s.conv c).inj = none → s.odNew = [] → ∃ t,
    exec (.calStart c) s = .next t ∧ (t.conv c).cal = .running ∧ (t.conv c).run = .stopped ∧ (t.conv c).last = none ∧ t.rd K.calState =
    2 ∧ (∀ d, d ≠ c → t.conv d = s.conv d)) ∧
  (∀ (c : Conv) (s : State), (s.conv c).cal = .none → exec (.calStart c) s = .next (settle s)) ∧
  (∀ (c : Conv) (f : CalFactors) (s : State), (s.conv c).cal = .running → calGood f = true → s.odNew = [] → (s.conv c).loading = false
    → ∃ t, exec (.calEnd c f) s = .next t ∧ (t.conv c).cal = .none ∧ (t.conv c).run = (s.conv c).calWas ∧ (t.conv c).calValid = true ∧
    (t.conv c).calFail = false ∧ (t.conv c).calSrc = 1 ∧ (∀ i : Fin 22, t.rV c (Kv.calOffset + i) = (f.offset ++ f.gain.map (fun (g :
    Nat) => (g : Int)) ++ f.trim).getD i 0) ∧ (∀ d, d ≠ c → t.conv d = s.conv d)) ∧
  (∀ (c : Conv) (f : CalFactors) (s : State), (s.conv c).cal = .running → calGood f = false → s.odNew = [] → (s.conv c).loading = false
    → ∃ t, exec (.calEnd c f) s = .next t ∧ (t.conv c).cal = .none ∧ (t.conv c).run = (s.conv c).calWas ∧ (t.conv c).calValid = false ∧
    (t.conv c).calFail = true ∧ t.rd K.calState = 4 ∧ (∀ i : Fin 22, t.rV c (Kv.calOffset + i) = s.rV c (Kv.calOffset + i)) ∧ (∀ d, d ≠
    c → t.conv d = s.conv d)) ∧
  (∀ (src : Nat) (s : State), s.time.due.contains (.pass src) = true → ∃ t, exec (.passTrigger src) s = .next t ∧ (∀ c : Conv, s.rV c
    Kv.seqTrig = src → (s.conv c).cal = .none → (s.conv c).run = .waiting → t.conv c = { s.conv c with run := .delay }) ∧ (∀ c : Conv,
    s.rV c Kv.seqTrig ≠ src → t.conv c = s.conv c) ∧ t.time = { s.time with due := s.time.due.erase (.pass src) } ∧ Only [.od, .convs,
    .time, .pins] s t) ∧
  (∀ (src : Nat) (s : State), s.time.due.contains (.pass src) = false → exec (.passTrigger src) s = .next (settle s)) ∧
  (∀ (src : Nat) (s : State), s.time.due.contains (.pass src) = false → exec (.passTrigger src) s = .next (settle s)) ∧
  (∀ (c : Conv) (s : State), (s.conv c).run = .delay → exec (.passStart c) s = .next (settle ((s.setConv c
    { s.conv c with run := .running, pos := SeqPos.start, first := true }).wV c Kv.passCount ((s.rV c Kv.passCount + 1) %
    4294967296)))) ∧
  (∀ (c : Conv) (s : State), (s.conv c).run = .stopped → exec (.passStart c) s = .next (settle s)) ∧
  (∀ (c : Conv) (s : State), (s.conv c).run = .running → passMade s c = true → s.asleep 1 = false → s.odNew = [] → (s.conv c).loading =
    false → (s.conv c).stopping = true → ∃ t, exec (.passEnd c) s = .next t ∧ t.conv c =
    { s.conv c with run := .stopped, stopping := false } ∧ (∀ d, d ≠ c → t.conv d = s.conv d) ∧ (∀ p : Port, (s.path p).dsch = false →
    t.path p = s.path p) ∧ Only [.od, .odNew, .io, .cmps, .tiles, .paths, .convs, .pins] s t) ∧
  (∀ (c : Conv) (s : State), (s.conv c).run = .running → passMade s c = true → s.asleep 1 = false → s.odNew = [] → (s.conv c).loading =
    false → (s.conv c).stopping = false → s.rV c Kv.seqTrig = 1 → (s.conv c).cal = .none → ∃ t, exec (.passEnd c) s = .next t ∧ t.conv
    c = { s.conv c with pos := SeqPos.start, first := true } ∧ t.rV c Kv.passCount = (s.rV c Kv.passCount + 1) % 4294967296 ∧ (∀ d, d ≠
    c → t.conv d = s.conv d) ∧ (∀ p : Port, (s.path p).dsch = false → t.path p = s.path p) ∧ ((∀ p : Port, (s.path p).dsch = false) →
    WroteOnly [keyV c Kv.passCount] s t ∧ Only [.od, .convs, .pins] s t) ∧ Only [.od, .odNew, .io, .cmps, .tiles, .paths, .convs,
    .pins] s t) ∧
  (∀ (c : Conv) (s : State), (s.conv c).run = .stopped → exec (.passEnd c) s = .next (settle s)) ∧
  (∀ (c : Conv) (s : State), passMade s c = false → exec (.passEnd c) s = .next (settle s))

/-- A request that is not dropped waits at its converter with the fields of its word, and GO clears; an INJ_TRIGGER takes an event
on its way and does nothing without one. The last conversion of an entry of a controller channel that is not metered puts its code,
with channel, pass and the tag that the thresholds of R176 give, in the result register of that entry and moves the converter and
the mirror on; an injected result for the register, within range, stands in INJ_RES and ends the request. The write port moves the
oldest entry of a lane to the queue; a pop answers the oldest entry of the queue and shows its time; an empty queue changes nothing.
Rests on 06 R175, 06 R181, 06 R184, 06 R185, 06 R186, 06 R187, 06 R195, 06 R198, 06 R201, 06 R205. -/
def Obligations.ConverterResults : Prop :=
  (∀ (c : Conv) (room : Nat) (w : Nat) (s : State), w = (s.tqReg c 0x40).toNat → badEntry c w = false → dropCause s c (eCh w) (eGain w)
    (eFilt w) room = none → ∃ t, exec (.injReqGo c room) s = .next t ∧ t.conv c =
    { s.conv c with inj := some { ch := eCh w, gain := eGain w, filt := eFilt w, queue := eDest w || privileged c (eCh w) }, injLeft := none }
    ∧ bit (t.tqReg c 0x40) 31 = false ∧ bit (t.tqReg c 0x48) 0 = true ∧ (∀ d, d ≠ c → t.conv d = s.conv d) ∧ Only [.io, .convs, .pins]
    s t) ∧
  (∀ (c : Conv) (room : Nat) (w : Nat) (k : Nat) (s : State), w = (s.tqReg c 0x40).toNat → badEntry c w = false → dropCause s c (eCh w)
    (eGain w) (eFilt w) room = some k → ∃ t, exec (.injReqGo c room) s = .next t ∧ t.conv c = s.conv c ∧ t.rV c (Kv.injDrop + k) =
    satInc (s.rV c (Kv.injDrop + k)) u32Max ∧ bit (t.tqReg c 0x40) 31 = false ∧ WroteOnly [keyV c (Kv.injDrop + k)] s t ∧ Only [.od,
    .io, .pins] s t) ∧
  (∀ (c : Conv) (room : Nat) (w : Nat) (s : State), s.time.due.contains (.inj c) = true → w = (s.rV c Kv.injEntry).toNat → badEntry c w
    = false → dropCause s c (eCh w) (eGain w) (eFilt w) room = none → ∃ t, exec (.injTrigger c room) s = .next t ∧ t.conv c =
    { s.conv c with inj := some { ch := eCh w, gain := eGain w, filt := eFilt w, queue := eDest w || privileged c (eCh w) }, injLeft := none }
    ∧ bit (t.tqReg c 0x48) 0 = true ∧ (∀ d, d ≠ c → t.conv d = s.conv d) ∧ t.time = { s.time with due := s.time.due.erase (.inj c) } ∧
    Only [.io, .convs, .time, .pins] s t) ∧
  (∀ (c : Conv) (room : Nat) (s : State), s.time.due.contains (.inj c) = false → exec (.injTrigger c room) s = .next (settle s)) ∧
  (∀ (c : Conv) (x : Int) (cyc : Nat) (sense : Int) (w : Nat) (e : Nat) (s : State), s.asleep 1 = false → onCtl c = true → (s.conv
    c).cal ≠ .running → (s.conv c).inj = none → (s.conv c).run = .running → (s.conv c).first = false → (s.conv c).pos =
    { entry := e, left := some 0, made := 0 } → (s.conv c).mir = (s.conv c).pos → (e : Int) < s.rV c Kv.seqLen → e < 32 → w =
    s.entryWord c e → eCh w = 0x15 → eConv w = 1 → eDest w = false → (s.conv (partner c)).chk = none → (s.conv c).chk = none → (s.conv
    c).withheld = none → overRange (idealCode x (fullScale c 0x15) (2 ^ eGain w)) = false → ∃ t, exec (.hodWord c x cyc sense) s =
    .next t ∧ t.rV c (Kv.result + e) = (((sampleCode s c 0x15 (eGain w) x).1 % 65536).toNat + 0x15 * 2 ^ 16 + (s.conv c).pass % 256 * 2
    ^ 24 : Nat) ∧ (t.conv c).pos = { entry := e + 1, left := none, made := 0 } ∧ (t.conv c).mir = (t.conv c).pos ∧ (t.conv c).last =
    some { ch := 0x15, gain := eGain w, filt := eFilt w } ∧ (t.conv c).lastCyc = some cyc ∧ (∀ d, d ≠ c → t.conv d = s.conv d) ∧
    WroteOnly [keyV c (Kv.result + e)] s t ∧ Only [.od, .fresh, .convs, .mets, .pins] s t) ∧
  (∀ (c : Conv) (x : Int) (cyc : Nat) (sense : Int) (w : Nat) (e : Nat) (s : State), s.asleep 1 = false → onCtl c = true → (s.conv
    c).cal ≠ .running → (s.conv c).inj = none → (s.conv c).run = .running → (s.conv c).first = false → (s.conv c).pos =
    { entry := e, left := some 0, made := 0 } → (s.conv c).mir = (s.conv c).pos → (e : Int) < s.rV c Kv.seqLen → e < 32 → w =
    s.entryWord c e → eCh w = 0x15 → eConv w = 1 → eDest w = false → (s.conv (partner c)).chk = none → (s.conv c).chk = none → (s.conv
    c).withheld = none → overRange (idealCode x (fullScale c 0x15) (2 ^ eGain w)) = true → ∃ t, exec (.hodWord c x cyc sense) s = .next
    t ∧ t.rV c (Kv.result + e) = (((sampleCode s c 0x15 (eGain w) x).1 % 65536).toNat + 0x15 * 2 ^ 16 + 3 * 2 ^ 21 + (s.conv c).pass %
    256 * 2 ^ 24 : Nat) ∧ (t.conv c).pos = { entry := e + 1, left := none, made := 0 } ∧ (t.conv c).mir = (t.conv c).pos ∧ (t.conv
    c).last = some { ch := 0x15, gain := eGain w, filt := eFilt w } ∧ (t.conv c).lastCyc = some cyc ∧ (∀ d, d ≠ c → t.conv d = s.conv
    d) ∧ WroteOnly [keyV c (Kv.result + e), keyV c Kv.ovrCount] s t ∧ Only [.od, .fresh, .convs, .mets, .pins] s t) ∧
  (∀ (c : Conv) (x : Int) (cyc : Nat) (sense : Int) (r : InjReq) (n : Int × Bool) (s : State), s.asleep 1 = false → onCtl c = true →
    (s.conv c).cal ≠ .running → (s.conv (partner c)).chk = none → (s.conv c).inj = some r → (s.conv c).injLeft = some 0 → r.queue =
    false → n = sampleCode s c r.ch r.gain x → overRange (idealCode (channelInput s c r.ch (2 ^ r.gain) x) (fullScale c r.ch) (2 ^
    r.gain)) = false → ∃ t, exec (.hodWord c x cyc sense) s = .next t ∧ (t.conv c).inj = none ∧ (t.conv c).injLeft = none ∧ t.tqReg c
    0x44 = (((n.1 % 65536).toNat + r.ch * 2 ^ 16 + 2 ^ 21 : Nat) : Int) ∧ bit (t.tqReg c 0x48) 0 = false ∧ bit (t.tqReg c 0x48) 1 =
    true ∧ (∀ d, d ≠ c → t.conv d = s.conv d) ∧ Only [.od, .io, .fresh, .convs, .mets, .ref, .pins] s t) ∧
  (∀ (c : Conv) (x : Int) (cyc : Nat) (sense : Int) (s : State), s.asleep 1 = true → exec (.hodWord c x cyc sense) s = .next (settle
    s)) ∧
  (∀ (c : Conv) (e : TqEntry) (l : List TqEntry) (s : State), nextLane s = some c → (s.conv c).lane = [e] ++ l → (s.conv c).dropN = 0 →
    ∃ t, exec .tqWrite s = .next t ∧ t.conv c = { s.conv c with lane := l, queue := (s.conv c).queue ++ [e] } ∧ t.ref =
    { s.ref with lastLane := c.val } ∧ (∀ d, d ≠ c → t.conv d = s.conv d) ∧ WroteOnly [K.tqHigh + c.val] s t ∧ Only [.od, .io, .convs,
    .ref, .pins] s t) ∧
  (∀ (s : State), nextLane s = none → exec .tqWrite s = .next (settle s)) ∧
  (∀ (c : Conv) (e : TqEntry) (l : List TqEntry) (s : State), (s.conv c).queue = [e] ++ l → ∃ t, exec (.tqPop c) s = .next t ∧ t.conv c
    = { s.conv c with queue := l } ∧ t.tqReg c 0x04 = ((e.entry + (if e.inj then 32 else 0) + e.drops * 65536 : Nat) : Int) ∧ t.tqReg c
    0x08 = ((e.ts % 4294967296 : Nat) : Int) ∧ t.tqReg c 0x0C = ((e.ts / 4294967296 : Nat) : Int) ∧ (∀ d, d ≠ c → t.conv d = s.conv d)
    ∧ Only [.io, .convs, .pins] s t) ∧
  (∀ (c : Conv) (s : State), (s.conv c).queue = [] → exec (.tqPop c) s = .next (settle s))

/-- An enabled buffer that has settled shows REF_SETTLED; a disabled one does not. The deviation that a monitor ratio shows from
E(T) joins the last hundred, and REF_DIFF is their rounded mean; a running difference without divergence stays without. REF_AGE goes
to NVM, and REF_REBASE makes it the present difference. A running converter that takes part in no comparison is stale. Rests on 06
R193, 06 R194, 06 R196, 06 R199. -/
def Obligations.Reference : Prop :=
  (∀ (b : Fin 9) (s : State), s.rd (K.refbufEn + b.val) = 1 → s.asleep 3 = false → exec (.refSettled b) s = .next (settle (s.wr
    (K.refSettled + b.val) 1))) ∧
  (∀ (b : Fin 9) (s : State), s.rd (K.refbufEn + b.val) = 0 → exec (.refSettled b) s = .next (settle s)) ∧
  (∀ (ratio : Rat) (s : State), ∃ t, exec (.refMonitorSample ratio) s = .next t ∧ t.ref.samples = ([refDeviation s ratio] ++
    s.ref.samples).take 100 ∧ t.rd K.refDiff = roundRat (refMean (([refDeviation s ratio] ++ s.ref.samples).take 100)) ∧ t.ref.lastLane
    = s.ref.lastLane ∧ t.ref.die0 = s.ref.die0 ∧ t.ref.die1 = s.ref.die1 ∧ Only [.od, .ref, .mets, .recs, .recorder, .pins] s t) ∧
  (∀ (s : State), ∃ t, exec .refAgeSave s = .next t ∧ t.nvGet K.refAge = s.rd K.refAge ∧ Only [.nv, .pins] s t) ∧
  (∀ (s : State), ∃ t, exec .refRebase s = .next t ∧ t.ref = { s.ref with age := refMean s.ref.samples } ∧ t.rd K.refAge = roundRat
    (refMean s.ref.samples) ∧ t.answer = 0 ∧ WroteOnly [K.refAge, K.refAged] s t ∧ Only [.od, .ref, .answer, .pins] s t) ∧
  (∀ (c : Conv) (s : State), (s.conv c).run = .running → ∃ t, exec (.plausTimeoutExpiry c) s = .next t ∧ t.conv c =
    { s.conv c with plausStale := true } ∧ (∀ d, d ≠ c → t.conv d = s.conv d) ∧ Only [.convs, .mets, .pins] s t) ∧
  (∀ (c : Conv) (s : State), (s.conv c).run = .stopped → exec (.plausTimeoutExpiry c) s = .next (settle s))

/-- The first power sample of a channel begins its metering; without a bracketing voltage result none is formed; every sample formed
stands in the channel's present power, and a current result without one leaves. A window that ends on a quantity not yet begun acts
at once. A skim is scheduled at the present TB, or at a TB at least 100 ticks ahead; otherwise RANGE, and BUSY while one is
scheduled, completing or unsigned. A scheduled skim can be cancelled, its instant counts SKIM_SEQ and stands in SKIM_S, its bank,
once complete, reads READY with ALERT bit 10. CLEAR_ACC restarts the accumulation time, CLEAR_FLAGS clears OVR and GAP everywhere.
Rests on 07 R215, 07 R216, 07 R219, 07 R222, 07 R223, 07 R224, 07 R226, 07 R232. -/
def Obligations.MeteringAndSkims : Prop :=
  (∀ (x : Chan) (s : State), nextSample (s.met ⟨x.val, by omega⟩) (s.rd K.interpMax) = none → exec (.powerSample x) s = .next (settle
    s)) ∧
  (∀ (x : Chan) (q : Fin 100) (b : Sample) (s : State), q.val = x.val → nextSample (s.met q) (s.rd K.interpMax) = some (some b) →
    (s.met q).last = none → ∃ t, exec (.powerSample x) s = .next t ∧ (t.met q).pNow = b.p ∧ (t.met q).last = some b ∧ (t.met q).begun =
    (s.met q).begun.or (some b.t) ∧ (t.met q).eFwd = (s.met q).eFwd ∧ (t.met q).cs = (s.met q).cs.drop 1 ∧ (t.met q).joined = true ∧ (∀
    r, r ≠ q → t.met r = s.met r) ∧ Only [.mets, .pins] s t) ∧
  (∀ (x : Chan) (q : Fin 100) (b : Sample) (s : State), q.val = x.val → nextSample (s.met q) (s.rd K.interpMax) = some (some b) → ∃ t,
    exec (.powerSample x) s = .next t ∧ (t.met q).pNow = b.p ∧ (t.met q).cs = (s.met q).cs.drop 1 ∧ (t.met q).vs = keepVolts (s.met
    q).vs ((s.met q).cs.headD (0, 0)).1 ∧ (∀ r, r ≠ q → t.met r = s.met r) ∧ Only [.mets, .pins] s t) ∧
  (∀ (x : Chan) (q : Fin 100) (s : State), q.val = x.val → nextSample (s.met q) (s.rd K.interpMax) = some none → ∃ t, exec
    (.powerSample x) s = .next t ∧ t.met q =
    { s.met q with cs := (s.met q).cs.drop 1, vs := keepVolts (s.met q).vs ((s.met q).cs.headD (0, 0)).1 } ∧ (∀ r, r ≠ q → t.met r =
    s.met r) ∧ Only [.mets, .pins] s t) ∧
  (∀ (w : Fin 3) (n : Nat) (s : State), w = 0 → windowDue s w = true → n = s.cnvAt (s.tb / 10000 * 10000) → ∃ t, exec (.windowBoundary
    w) s = .next t ∧ (∀ x : Fin 100, x.val < 98 → t.met x = (s.met x).cutAt (metEnv s x) (cutHold s)
    { t := n, kind := .window 0 false }) ∧ (∀ x : Fin 100, 98 ≤ x.val → t.met x = s.met x) ∧ tget t.time.winAt 0 = s.tb / 10000 * 10000
    ∧ t.od = s.od ∧ Only [.mets, .time, .pins] s t) ∧
  (∀ (w : Fin 3) (s : State), windowDue s w = false → exec (.windowBoundary w) s = .next (settle s)) ∧
  (∀ (s : State), skimBusy s = false → exec .skimCmdNow s = .next (settle (((({ s with recs := { s.recs with skimT := s.tb } } :
    State).wr K.skimState 1).reply 0)))) ∧
  (∀ (s : State), skimBusy s = true → exec .skimCmdNow s = .next (settle (s.reply 1))) ∧
  (∀ (s : State), skimBusy s = false → s.tb + 100 ≤ (s.rd K.skimT).toNat → exec .skimCmdAt s = .next (settle
    (((({ s with recs := { s.recs with skimT := (s.rd K.skimT).toNat } } : State).wr K.skimState 1).reply 0)))) ∧
  (∀ (s : State), skimBusy s = false → (s.rd K.skimT).toNat < s.tb + 100 → exec .skimCmdAt s = .next (settle (s.reply 2))) ∧
  (∀ (s : State), skimBusy s = true → exec .skimCmdAt s = .next (settle (s.reply 1))) ∧
  (∀ (s : State), s.rd K.skimState = 1 → exec .skimCmdCancel s = .next (settle ((s.wr K.skimState 0).reply 0))) ∧
  (∀ (s : State), s.rd K.skimState = 2 → exec .skimCmdCancel s = .next (settle (s.reply 0))) ∧
  (∀ (s : State), s.rd K.skimState = 1 → s.recs.skimT ≤ s.tb → s.odNew = [] → ∃ t, exec .skimInstant s = .next t ∧ t.rd K.skimState = 2
    ∧ t.rd K.skimSeq = (s.rd K.skimSeq + 1) % 4294967296 ∧ t.rd K.skimS = stampAt s s.recs.skimT ∧ WroteOnly [K.skimState, K.skimSeq,
    K.skimS] s t ∧ Only [.od, .mets, .recs, .nv, .pins] s t) ∧
  (∀ (s : State), (s.rd K.skimState ≠ 1 ∨ s.tb < s.recs.skimT) → exec .skimInstant s = .next (settle s)) ∧
  (∀ (s : State), s.rd K.skimState = 2 → bankDone s (skimRecord s) = true → ∃ t, exec .skimBankComplete s = .next t ∧ t.rd K.skimState
    = 3 ∧ bit (t.rd K.alertSrc) 10 = true ∧ WroteOnly [K.skimState, K.alertSrc] s t ∧ Only [.od, .mets, .pins] s t) ∧
  (∀ (s : State), bankDone s (skimRecord s) = false → exec .skimBankComplete s = .next (settle s)) ∧
  (∀ (s : State), s.rd K.skimState = 1 → exec .skimBankComplete s = .next (settle s)) ∧
  (∀ (s : State), s.rd K.skimState = 0 → ∃ t, exec .metCmdClearAcc s = .next t ∧ t.rd K.accStartTb = s.tb ∧ t.answer = 0 ∧ (∀ x : Fin
    100, x.val < 66 → t.met x = (s.met x).cutAt (metEnv s x) (cutHold s) { t := s.cnvNow, kind := .clear }) ∧ (∀ x : Fin 100, 66 ≤
    x.val → t.met x = s.met x) ∧ WroteOnly [K.accStartTb] s t ∧ Only [.od, .mets, .answer, .pins] s t) ∧
  (∀ (s : State), s.rd K.skimState = 1 → exec .metCmdClearAcc s = .next (settle (s.reply 1))) ∧
  (∀ (s : State), ∃ t, exec .metCmdClearFlags s = .next t ∧ (∀ x : Fin 100, t.met x = { s.met x with ovr := false, gap := false }) ∧
    t.answer = 0 ∧ Only [.mets, .answer, .pins] s t)

/-- A record is cut on command, or at the latest TB multiple of its interval not yet cut, unless one of its kind already waits,
which is counted instead; the cut uses up the next number and waits for its signature. While REC_PERIOD is 0 no interval record is
cut. A record is signed only when its bank is complete; a signed one is published with its number and raises ALERT bit 9; a failed
signature is counted, and in both cases the signer takes the next waiting record. Rests on 07 R227, 07 R230, 07 R231. -/
def Obligations.Records : Prop :=
  (∀ (s : State), recWaits s 2 = false → tget s.recs.wait 2 = none → s.odNew = [] → ∃ t, exec .metCmdRecordNow s = .next t ∧ t.answer =
    0 ∧ (tget t.recs.wait 2).any (fun r => decide (r.seq = s.recNumber ∧ r.tCut = s.tb)) = true ∧ t.nvGet K.recSeq = (s.recNumber :
    Nat) ∧ t.recs.signing.isSome = true ∧ tget t.recs.wait 1 = tget s.recs.wait 1 ∧ WroteOnly [] s t ∧ Only [.od, .mets, .recs, .nv,
    .answer, .pins] s t) ∧
  (∀ (s : State), recWaits s 2 = true → exec .metCmdRecordNow s = .next (settle ((s.count K.recSkip).reply 0))) ∧
  (∀ (s : State), s.rd K.recPeriod = 0 → s.odNew = [] → exec .intervalCut s = .next (settle s)) ∧
  (∀ (s : State), s.rd K.recPeriod ≠ 0 → s.recs.interval < s.tb / ((s.rd K.recPeriod).toNat * 100000000) * ((s.rd K.recPeriod).toNat *
    100000000) → recWaits s 1 = true → ∃ t, exec .intervalCut s = .next t ∧ t.rd K.recSkip = satInc (s.rd K.recSkip) u32Max ∧ t.recs =
    { s.recs with interval := s.tb / ((s.rd K.recPeriod).toNat * 100000000) * ((s.rd K.recPeriod).toNat * 100000000) } ∧ WroteOnly
    [K.recSkip] s t ∧ Only [.od, .recs, .pins] s t) ∧
  (∀ (n : Nat) (s : State), n = s.tb / ((s.rd K.recPeriod).toNat * 100000000) * ((s.rd K.recPeriod).toNat * 100000000) →
    s.recs.interval < n → recWaits s 1 = false → tget s.recs.wait 1 = none → s.odNew = [] → ∃ t, exec .intervalCut s = .next t ∧ (tget
    t.recs.wait 1).any (fun r => decide (r.seq = s.recNumber ∧ r.tCut = n)) = true ∧ t.recs.interval = n ∧ t.nvGet K.recSeq =
    (s.recNumber : Nat) ∧ t.recs.signing.isSome = true ∧ WroteOnly [] s t ∧ Only [.od, .mets, .recs, .nv, .pins] s t) ∧
  (∀ (s : State), 0 < s.rd K.recPeriod → s.tb / ((s.rd K.recPeriod).toNat * 100000000) * ((s.rd K.recPeriod).toNat * 100000000) ≤
    s.recs.interval → exec .intervalCut s = .next (settle s)) ∧
  (∀ (k : Fin 3) (r : RecCut) (d : List Nat) (s : State), s.recs.signing = some k → tget s.recs.wait k = some r → deviceSeed s = some d
    → bankDone s r.seq = true → k = 1 → s.rd K.skimState = 0 → ∃ t, exec (.recordSigned k) s = .next t ∧ t.rd K.recSeq = r.seq ∧ bit
    (t.rd K.alertSrc) 9 = true ∧ tget t.recs.wait 1 = tget s.recs.next 1 ∧ tget t.recs.tPrev 1 = r.tCut ∧ t.recorder.signed =
    s.recorder.signed ++ [t.rdB (K.recSkim + 1)] ∧ WroteOnly [K.recSeq, K.alertSrc] s t ∧ Only [.od, .blob, .mets, .recs, .recorder,
    .pins] s t) ∧
  (∀ (k : Fin 3) (r : RecCut) (s : State), tget s.recs.wait k = some r → bankDone s r.seq = false → exec (.recordSigned k) s = .next
    (settle s)) ∧
  (∀ (k : Fin 3) (s : State), s.recs.signing = none → exec (.recordSigned k) s = .next (settle s)) ∧
  (∀ (k : Fin 3) (s : State), s.recs.signing = some k → k = 1 → s.rd K.skimState = 0 → ∃ t, exec (.recordSignFail k) s = .next t ∧ t.rd
    K.recFail = satInc (s.rd K.recFail) u32Max ∧ tget t.recs.wait 1 = tget s.recs.next 1 ∧ tget t.recs.next 1 = none ∧ WroteOnly
    [K.recFail] s t ∧ Only [.od, .mets, .recs, .pins] s t) ∧
  (∀ (k : Fin 3) (s : State), s.recs.signing = none → exec (.recordSignFail k) s = .next (settle s))

/-- While the sequencer is held in reset a command answers BUSY. UP, RESTART and the one automatic start after a reset from OFF
begin the first used phase: SEQ_STATE POWERING_UP, SEQ_PHASE that phase, its rails awaiting their delay. DOWN goes to POWERING_DOWN
from the highest phase that is on, with PWRGD down. CLEAR_FAULT and an automatic restart end FAULT and release FAULT_N; RESTART is
BUSY on the way down. A phase that is done is followed by the next one; the last phase down ends in OFF. The composite asserts when
what keeps it holds and no timer starts. Rests on 08 R234, 08 R237, 08 R241, 08 R243, 08 R245, 08 R246, 08 R247, 08 R248. -/
def Obligations.RailSequencer : Prop :=
  (∀ (s : State), s.coat.held = true → exec .seqCmdUp s = .next (settle (s.reply 1))) ∧
  (∀ (k : Nat) (l : List Nat) (s : State), s.coat.held = false → s.seqState = Seq.off → usedPhases s = [k] ++ l → (phaseRails s k).any
    (fun n => decide (s.rR n Kr.railPg ≠ 1)) = true → ∃ t, exec .seqCmdUp s = .next t ∧ t.seqState = Seq.poweringUp ∧ t.rd K.seqPhase =
    k ∧ t.coat = { s.coat with phaseDone := false } ∧ (∀ n ∈ phaseRails s k, (s.rail n).en = false → t.railState n = Rs.waitDelay) ∧
    t.rd K.restartsLeft = s.rd K.autoRestart ∧ t.answer = 0 ∧ Only [.od, .coat, .answer, .pins] s t) ∧
  (∀ (s : State), s.coat.held = false → s.seqState = Seq.fault → exec .seqCmdUp s = .next (settle (s.reply 1))) ∧
  (∀ (k : Nat) (s : State), s.coat.held = false → s.seqState = Seq.up → highestOn s 0 = some k → s.odNew = [] → ∃ t, exec .seqCmdDown s
    = .next t ∧ t.seqState = Seq.poweringDown ∧ t.rd K.seqPhase = k ∧ t.rd K.pwrgdState = 0 ∧ t.coat =
    { s.coat with downTo := 0, phaseDone := false } ∧ t.answer = 0 ∧ (∀ n : Rail, (t.rail n).en = (s.rail n).en) ∧ (∀ n : Rail, t.rR n
    Kr.mgnMode = 0) ∧ Only [.od, .cmps, .coat, .rails, .answer, .pins] s t) ∧
  (∀ (s : State), s.coat.held = false → s.seqState = Seq.off → ∃ t, exec .seqCmdDown s = .next t ∧ t.answer = 0 ∧ t.seqState = Seq.off
    ∧ WroteOnly [K.restartsLeft] s t ∧ Only [.od, .answer, .pins] s t) ∧
  (∀ (s : State), s.coat.held = false → s.seqState = Seq.fault → s.odNew = [] → ∃ t, exec .seqCmdClearFault s = .next t ∧ t.seqState =
    Seq.off ∧ t.coatFault = false ∧ (∀ n : Rail, s.railState n = Rs.fault → s.railUsed n = true → t.railState n = Rs.off) ∧ (∀ n :
    Rail, s.railState n ≠ Rs.fault → t.railState n = s.railState n) ∧ t.answer = 0 ∧ Only [.od, .coatFault, .answer, .pins] s t) ∧
  (∀ (s : State), s.coat.held = false → s.seqState = Seq.faultDown → exec .seqCmdClearFault s = .next (settle (s.reply 1))) ∧
  (∀ (k : Nat) (l : List Nat) (s : State), s.coat.held = false → s.seqState = Seq.off → usedPhases s = [k] ++ l → (phaseRails s k).any
    (fun n => decide (s.rR n Kr.railPg ≠ 1)) = true → ∃ t, exec .seqCmdRestart s = .next t ∧ t.seqState = Seq.poweringUp ∧ t.rd
    K.seqPhase = k ∧ (∀ n ∈ phaseRails s k, (s.rail n).en = false → t.railState n = Rs.waitDelay) ∧ t.answer = 0 ∧ Only [.od, .coat,
    .answer, .pins] s t) ∧
  (∀ (s : State), s.coat.held = false → s.seqState = Seq.poweringDown → exec .seqCmdRestart s = .next (settle (s.reply 1))) ∧
  (∀ (k : Nat) (l : List Nat) (s : State), s.coat.held = false → s.coat.autoRan = false → s.rd K.seqAuto = 1 → s.seqState = Seq.off →
    usedPhases s = [k] ++ l → (phaseRails s k).any (fun n => decide (s.rR n Kr.railPg ≠ 1)) = true → ∃ t, exec .seqAutoStart s = .next
    t ∧ t.seqState = Seq.poweringUp ∧ t.rd K.seqPhase = k ∧ t.coat.autoRan = true ∧ (∀ n ∈ phaseRails s k, (s.rail n).en = false →
    t.railState n = Rs.waitDelay) ∧ Only [.od, .coat, .pins] s t) ∧
  (∀ (s : State), s.coat.held = false → s.coat.autoRan = false → s.rd K.seqAuto = 0 → exec .seqAutoStart s = .next (settle
    { s with coat := { s.coat with autoRan := true } })) ∧
  (∀ (k : Nat) (l : List Nat) (s : State), s.seqState = Seq.fault → 0 < s.rd K.restartsLeft → s.rd K.autoRestart ≠ 0 → s.odNew = [] →
    usedPhases s = [k] ++ l → (phaseRails s k).any (fun n => decide (s.rR n Kr.railPg ≠ 1)) = true → ∃ t, exec .autoRestartExpiry s =
    .next t ∧ t.seqState = Seq.poweringUp ∧ t.rd K.seqPhase = k ∧ t.rd K.restartsLeft = s.rd K.restartsLeft - 1 ∧ t.coatFault = false ∧
    (∀ n ∈ phaseRails s k, (s.rail n).en = false → t.railState n = Rs.waitDelay) ∧ Only [.od, .coatFault, .coat, .pins] s t) ∧
  (∀ (s : State), s.rd K.restartsLeft = 0 → exec .autoRestartExpiry s = .next (settle s)) ∧
  (∀ (s : State), s.seqState = Seq.up → exec .restartCountReload s = .next (settle (s.wr K.restartsLeft (s.rd K.autoRestart)))) ∧
  (∀ (s : State), s.seqState = Seq.off → exec .restartCountReload s = .next (settle s)) ∧
  (∀ (k : Nat) (s : State), s.coat.phaseDone = true → s.seqState = Seq.poweringUp → (usedPhases s).find? (fun (j : Nat) => decide (s.rd
    K.seqPhase < (j : Int))) = some k → (phaseRails s k).any (fun n => decide (s.rR n Kr.railPg ≠ 1)) = true → ∃ t, exec .phaseStart s
    = .next t ∧ t.rd K.seqPhase = k ∧ t.coat = { s.coat with phaseDone := false } ∧ t.seqState = Seq.poweringUp ∧ (∀ n ∈ phaseRails s
    k, (s.rail n).en = false → t.railState n = Rs.waitDelay) ∧ Only [.od, .coat, .pins] s t) ∧
  (∀ (k : Nat) (s : State), s.coat.phaseDone = true → s.seqState = Seq.poweringDown → nextDown s = some k → exec .phaseStart s = .next
    (settle ({ s.wr K.seqPhase k with coat := { s.coat with phaseDone := false } }))) ∧
  (∀ (s : State), s.coat.phaseDone = false → exec .phaseStart s = .next (settle s)) ∧
  (∀ (s : State), s.seqState = Seq.poweringDown → s.coat.phaseDone = false → (phaseRails s (s.rd K.seqPhase).toNat).all (fun n =>
    !(s.rail n).en && belowOff s n) = true → (phaseRails s (s.rd K.seqPhase).toNat).all (fun n => decide (s.railState n ≠ Rs.falling))
    = true → (nextDown s).isSome = true → exec .phaseDownComplete s = .next (settle
    ({ s with coat := { s.coat with phaseDone := true } }))) ∧
  (∀ (s : State), s.seqState = Seq.poweringDown → s.coat.phaseDone = false → s.coat.cutAfter = false → s.odNew = [] → (phaseRails s
    (s.rd K.seqPhase).toNat).all (fun n => !(s.rail n).en && belowOff s n) = true → (∀ n : Rail, (s.rail n).en = false) → nextDown s =
    none → ∃ t, exec .phaseDownComplete s = .next t ∧ t.seqState = Seq.off ∧ t.rd K.seqPhase = 255 ∧ Only [.od, .coat, .pins] s t) ∧
  (∀ (s : State), s.seqState = Seq.up → exec .phaseDownComplete s = .next (settle s)) ∧
  (∀ (s : State), s.seqState = Seq.poweringDown → s.coat.phaseDone = false → (nextDown s).isSome = true → s.odNew = [] → ∃ t, exec
    .fallTimeout s = .next t ∧ t.coat = { s.coat with phaseDone := true } ∧ (∀ n ∈ phaseRails s (s.rd K.seqPhase).toNat, belowOff s n =
    false → t.rR n Kr.railFault = RFlt.fallTimeout) ∧ t.seqState = Seq.poweringDown ∧ Only [.od, .coat, .recorder, .pins] s t) ∧
  (∀ (s : State), s.seqState = Seq.up → exec .fallTimeout s = .next (settle s)) ∧
  (∀ (ftStarts : Bool) (s : State), pwrgdKeeps s = true → (selRails s).all (fun n => decide ((s.rail n).ft = .idle)) = true → ftStarts
    = false → exec (.pwrgdQualComplete ftStarts) s = .next (settle (s.wr K.pwrgdState 1))) ∧
  (∀ (ftStarts : Bool) (s : State), ftStarts = true → exec (.pwrgdQualComplete ftStarts) s = .next (settle s)) ∧
  (∀ (ftStarts : Bool) (s : State), pwrgdKeeps s = false → exec (.pwrgdQualComplete ftStarts) s = .next (settle s)) ∧
  (∀ (s : State), (s.coat.held = true ∨ s.coat.autoRan = true) → exec .seqAutoStart s = .next (settle s))

/-- After its start delay a rail is checked; power good makes it GOOD with PG, or starts its timer where that starts in the same
cycle. A rise timeout or an expired fault timer records its code and counts it, without an action under IGNORE. After its stop delay
EN is off and the rail falling. Margining is BUSY without PG and UP, otherwise widens the window and names the goal code, moves one
step at a time while it runs, and fails at its present code when it does not lock. The first-fault entry becomes valid once written,
and CLEAR empties the log. Rests on 08 R237, 08 R238, 08 R239, 08 R241, 08 R242, 08 R243, 08 R249, 08 R250, 08 R251, 08 R253, 08
R254, 08 R255. -/
def Obligations.Rails : Prop :=
  (∀ (n : Rail) (s : State), s.railState n = Rs.waitDelay → s.seqState = Seq.poweringUp → ∃ t, exec (.railStartDelayExpiry n) s = .next
    t ∧ t.railState n = Rs.check ∧ (t.cmp (winL n)).checking = true ∧ (∀ m, m ≠ n → t.railState m = s.railState m) ∧ Only [.od, .odNew,
    .cmps, .pins] s t) ∧
  (∀ (n : Rail) (s : State), s.seqState = Seq.off → exec (.railStartDelayExpiry n) s = .next (settle s)) ∧
  (∀ (n : Rail) (s : State), (s.rail n).en = true → (s.rail n).hadPg = false → s.rR n Kr.faultAction = 0 → ∃ t, exec (.riseTimeout n) s
    = .next t ∧ t.rR n Kr.railFault = RFlt.riseTimeout ∧ t.rR n Kr.railFaultCount = satInc (s.rR n Kr.railFaultCount) u32Max ∧
    WroteOnly [keyR n Kr.railFault, keyR n Kr.railFaultCount] s t ∧ Only [.od, .pins] s t) ∧
  (∀ (n : Rail) (s : State), (s.rail n).en = true → (s.rail n).hadPg = false → s.rR n Kr.faultAction = 1 → s.rd K.ffValid = 0 →
    s.coat.ffNew = none → s.recorder.powerFail = false → ∃ t, exec (.riseTimeout n) s = .next t ∧ t.rR n Kr.railFault =
    RFlt.riseTimeout ∧ bit (t.rd K.alertSrc) 2 = true ∧ t.coat.ffNew.isSome = true ∧ t.rails = s.rails ∧ Only [.od, .coat, .recorder,
    .pins] s t) ∧
  (∀ (n : Rail) (s : State), (s.rail n).hadPg = true → exec (.riseTimeout n) s = .next (settle s)) ∧
  (∀ (n : Rail) (ftStarts : Bool) (s : State), (s.rail n).en = true → railInside s n = true → (s.rail n).ft = .idle → s.rR n Kr.railPg
    = 0 → ftStarts = false → s.seqState = Seq.up → (s.rail n).wide = false → ∃ t, exec (.railPgQualComplete n ftStarts) s = .next t ∧
    t.rR n Kr.railPg = 1 ∧ t.railState n = Rs.good ∧ t.rail n = { s.rail n with hadPg := true } ∧ WroteOnly [keyR n Kr.railPg, keyR n
    Kr.railState, keyR n Kr.riseTime] s t ∧ Only [.od, .rails, .pins] s t) ∧
  (∀ (n : Rail) (ftStarts : Bool) (s : State), (s.rail n).en = true → railInside s n = true → (s.rail n).ft = .idle → s.rR n Kr.railPg
    = 0 → ftStarts = true → exec (.railPgQualComplete n ftStarts) s = .next (settle (s.setRail n { s.rail n with ft := .running }))) ∧
  (∀ (n : Rail) (s : State), (s.rail n).ft = .running → (s.cmp (winL n)).l = false → s.rR n Kr.faultAction = 0 → ∃ t, exec
    (.railFaultTimerExpiry n) s = .next t ∧ t.rR n Kr.railFault = RFlt.uv ∧ t.rR n Kr.railPg = 0 ∧ t.rR n Kr.railFaultCount = satInc
    (s.rR n Kr.railFaultCount) u32Max ∧ WroteOnly [keyR n Kr.railFault, keyR n Kr.railFaultCount, keyR n Kr.railPg, K.pwrgdState] s t ∧
    Only [.od, .pins] s t) ∧
  (∀ (n : Rail) (s : State), (s.rail n).ft = .running → (s.cmp (winL n)).l = false → s.rR n Kr.faultAction = 3 → s.seqState =
    Seq.faultDown → s.railUsed n = true → s.odNew = [] → ∃ t, exec (.railFaultTimerExpiry n) s = .next t ∧ t.rR n Kr.railFault =
    RFlt.uv ∧ (t.rail n).en = false ∧ t.railState n = Rs.fault ∧ t.coatFault = true ∧ t.coat.downTo = 0) ∧
  (∀ (n : Rail) (s : State), (s.rail n).ft = .idle → exec (.railFaultTimerExpiry n) s = .next (settle s)) ∧
  (∀ (n : Rail) (s : State), (s.rail n).ft = .held → exec (.railFaultTimerIdle n) s = .next (settle (s.setRail n
    { s.rail n with ft := .idle }))) ∧
  (∀ (n : Rail) (s : State), s.seqState = Seq.poweringDown → (s.rail n).en = true → s.rd K.seqPhase ≤ s.rR n Kr.railPhase →
    (s.coat.downTo : Int) ≤ s.rR n Kr.railPhase → s.odNew = [] → ∃ t, exec (.railStopDelayExpiry n) s = .next t ∧ (t.rail n).en = false
    ∧ (t.rail n).ft = .idle ∧ t.railState n = Rs.falling ∧ t.rR n Kr.railPg = 0 ∧ t.rR n Kr.mgnMode = 0 ∧ (∀ m, m ≠ n → t.rail m =
    s.rail m) ∧ Only [.od, .cmps, .rails, .pins] s t) ∧
  (∀ (n : Rail) (s : State), s.seqState = Seq.up → exec (.railStopDelayExpiry n) s = .next (settle s)) ∧
  (∀ (n : Rail) (m : Fin 3) (s : State), s.rR n Kr.railPg = 0 → exec (.mgnModeWrite n m) s = .next (settle (s.reply 1))) ∧
  (∀ (n : Rail) (m : Fin 3) (s : State), s.railUsed n = true → s.rR n Kr.railPg = 1 → s.seqState = Seq.up → s.rR n Kr.mgnMode = 0 → m =
    1 → railAvg s n = none → ∃ t, exec (.mgnModeWrite n m) s = .next t ∧ t.rail n =
    { s.rail n with goal := s.rR n Kr.mgnCode, wide := true } ∧ t.rR n Kr.mgnMode = 1 ∧ t.rR n Kr.mgnStatus = 1 ∧ t.railState n =
    Rs.margin ∧ t.answer = 0 ∧ (∀ k, k ≠ n → t.rail k = s.rail k) ∧ Only [.od, .rails, .answer, .pins] s t) ∧
  (∀ (n : Rail) (m : Fin 3) (s : State), s.railUsed n = true → s.rR n Kr.railPg = 1 → s.seqState = Seq.up → m = 0 → railAvg s n = none
    → ∃ t, exec (.mgnModeWrite n m) s = .next t ∧ t.rail n = { s.rail n with goal := 0 } ∧ t.rR n Kr.mgnMode = 0 ∧ t.rR n Kr.mgnStatus
    = 0 ∧ t.answer = 0 ∧ WroteOnly [keyR n Kr.mgnMode, keyR n Kr.mgnStatus] s t ∧ Only [.od, .rails, .answer, .pins] s t) ∧
  (∀ (n : Rail) (v : Int) (s : State), s.rR n Kr.mgnMode = 2 → marginRuns s n = true → s.rR n Kr.mgnStatus ≠ 3 → railAvg s n = some v →
    v < 1000 * s.rR n Kr.mgnTarget → s.rR n Kr.mgnCodeNow < 511 → -514 < s.rR n Kr.mgnCodeNow → ∃ t, exec (.mgnStep n) s = .next t ∧
    t.rail n = { s.rail n with goal := s.rR n Kr.mgnCodeNow + 1 } ∧ t.rR n Kr.mgnStatus = (if 1000 * s.rR n Kr.mgnTarget - v ≤ 1000 *
    s.rR n Kr.mgnTol then 2 else 1) ∧ WroteOnly [keyR n Kr.mgnStatus] s t ∧ Only [.od, .rails, .pins] s t) ∧
  (∀ (n : Rail) (s : State), s.rR n Kr.mgnMode = 0 → exec (.mgnStep n) s = .next (settle s)) ∧
  (∀ (n : Rail) (s : State), s.rR n Kr.mgnCodeNow < (s.rail n).goal → railAvg s n = none → (marginRuns s n = true ∨ s.rR n Kr.mgnMode =
    0) → exec (.mgnDacStep n) s = .next (settle (s.wR n Kr.mgnCodeNow (s.rR n Kr.mgnCodeNow + 1)))) ∧
  (∀ (n : Rail) (s : State), (s.rail n).goal < s.rR n Kr.mgnCodeNow → railAvg s n = none → (marginRuns s n = true ∨ s.rR n Kr.mgnMode =
    0) → exec (.mgnDacStep n) s = .next (settle (s.wR n Kr.mgnCodeNow (s.rR n Kr.mgnCodeNow - 1)))) ∧
  (∀ (n : Rail) (s : State), s.rR n Kr.mgnMode = 2 → s.rR n Kr.mgnStatus ≠ 2 → exec (.mgnTimeout n) s = .next (settle (((s.setRail n
    { s.rail n with goal := s.rR n Kr.mgnCodeNow }).wR n Kr.mgnStatus 3).judgeMargin n))) ∧
  (∀ (n : Rail) (s : State), s.rR n Kr.mgnMode = 2 → s.rR n Kr.mgnStatus = 2 → exec (.mgnTimeout n) s = .next (settle s)) ∧
  (∀ (e : List Nat) (s : State), s.coat.ffNew = some e → ∃ t, exec .ffLogWritten s = .next t ∧ t.rdB K.ffLog = e ∧ t.rd K.ffValid = 1 ∧
    t.coat = { s.coat with ffNew := none } ∧ WroteOnly [K.ffValid] s t ∧ Only [.od, .blob, .coat, .pins] s t) ∧
  (∀ (s : State), s.coat.ffNew = none → exec .ffLogWritten s = .next (settle s)) ∧
  (∀ (s : State), ∃ t, exec .ffCmdClear s = .next t ∧ t.rdB K.ffLog = List.replicate 292 0 ∧ t.rd K.ffValid = 0 ∧ t.rd K.ffLater = 0 ∧
    t.coat = { s.coat with ffNew := none } ∧ t.answer = 0 ∧ WroteOnly [K.ffValid, K.ffLater] s t ∧ Only [.od, .blob, .coat, .answer,
    .pins] s t) ∧
  (∀ (n : Rail) (s : State), marginRuns s n = false → exec (.mgnStep n) s = .next (settle s))

/-- A sample is taken by every channel, or waits while the image is being copied, also after a power-fail declaration. A cause waits
with the lowest code; a flush that is due starts where none runs, with the next number from NVM, the image frozen and the journal
data staged so far owed. Leaves go to erased places of the wall one after another, one that fails or meets a place not erased is
counted and the place skipped, and after the seventeenth the flush ends, shown with its number, address and cause where its leaves
stand on the wall. A signed record goes to staging and from there in leaves to the journal, or is counted where it does not fit. An
erase that is due erases its block; one that fails marks the block, and its leaves are counted. REC_CMD and REC_CLEAR answer OK, and
BUSY while a flush runs for WALL_ERASE. Operating seconds count and are kept. Rests on 09 R258, 09 R262, 09 R264, 09 R265, 09 R266,
09 R267, 09 R269, 09 R270, 09 R273, 09 R275, 07 R217. -/
def Obligations.RecorderFlushes : Prop :=
  (∀ (s : State), (s.recorder.flush = none ∨ ∃ f, s.recorder.flush = some f ∧ f.frozen = true) → ∃ t, exec .recorderSample s = .next t
    ∧ (∀ x : Chan, (tget t.recorder.image.chans x).samples = (tget s.recorder.image.chans x).samples + 1) ∧ t.recorder.frozen =
    s.recorder.frozen ∧ t.recorder.wall = s.recorder.wall ∧ Only [.recorder, .pins] s t) ∧
  (∀ (f : Flush) (s : State), s.recorder.flush = some f → f.frozen = false → ∃ t, exec .recorderSample s = .next t ∧ t.recorder =
    { s.recorder with sampleDue := true } ∧ Only [.recorder, .pins] s t) ∧
  (∀ (c : Nat) (s : State), s.recorder.gapEnd ≤ s.tb → s.recorder.due = some c → s.recorder.flush = none → ∃ t, exec .flushStart s =
    .next t ∧ t.recorder.flush = some
    { cause := c, seq := (s.nvGet K.flushSeq).toNat + 1, stamp := s.opStamp, tb := s.tb, cycles := (s.rd K.powerCycles).toNat, frozen := false, leaf := 0, alt := none }
    ∧ t.recorder.frozen = s.recorder.image ∧ t.recorder.image = s.recorder.image ∧ t.recorder.due = none ∧ t.recorder.owed =
    s.recorder.staging.length ∧ t.nvGet K.flushSeq = ((s.nvGet K.flushSeq).toNat + 1 : Nat) ∧ Only [.recorder, .nv, .pins] s t) ∧
  (∀ (s : State), s.tb < s.recorder.gapEnd → exec .flushStart s = .next (settle s)) ∧
  (∀ (c : Nat) (s : State), s.recorder.gapEnd ≤ s.tb → s.recorder.due = some c → s.recorder.flush = none → ∃ t, exec .flushPendingStart
    s = .next t ∧ t.recorder.flush = some
    { cause := c, seq := (s.nvGet K.flushSeq).toNat + 1, stamp := s.opStamp, tb := s.tb, cycles := (s.rd K.powerCycles).toNat, frozen := false, leaf := 0, alt := none }
    ∧ t.recorder.frozen = s.recorder.image ∧ t.recorder.due = none ∧ t.recorder.owed = s.recorder.staging.length ∧ Only [.recorder,
    .nv, .pins] s t) ∧
  (∀ (s : State), s.recorder.due = none → exec .flushPendingStart s = .next (settle s)) ∧
  (∀ (s : State), s.rd K.flushPeriod ≠ 0 → s.recorder.noWall = false → s.recorder.due = none → exec .flushPeriodExpiry s = .next
    (settle ({ s with recorder := { s.recorder with due := some 3 } }))) ∧
  (∀ (s : State), s.rd K.flushPeriod = 0 → exec .flushPeriodExpiry s = .next (settle s)) ∧
  (∀ (f : Flush) (s : State), s.recorder.flush = some f → f.frozen = false → s.recorder.clearing = false → s.recorder.sampleDue = false
    → ∃ t, exec .imageFreezeDone s = .next t ∧ t.recorder = { s.recorder with flush := some { f with frozen := true } } ∧ Only
    [.recorder, .pins] s t) ∧
  (∀ (s : State), s.recorder.flush = none → exec .imageFreezeDone s = .next (settle s)) ∧
  (∀ (ok : Bool) (f : Flush) (s : State), s.recorder.cutLeaf = none → s.recorder.flush = some f → f.frozen = true → f.leaf < 17 → ok =
    true → placeErased s s.recorder.histHead = true → s.recorder.bad = [] → ∃ t, exec (.leafWritten ok) s = .next t ∧ t.recorder.flush
    = some { f with leaf := f.leaf + 1 } ∧ t.recorder.wall = putLeaf s.recorder.wall s.recorder.histHead (s.nextLeaf f) ∧
    t.recorder.histHead = ringAdd (histRing s).1 (histRing s).2 s.recorder.histHead 4096 ∧ t.recorder.image = s.recorder.image ∧
    t.leafSeq = s.leafSeq + 1 ∧ Only [.recorder, .nv, .pins] s t) ∧
  (∀ (ok : Bool) (f : Flush) (s : State), s.recorder.cutLeaf = none → s.recorder.flush = some f → f.frozen = true → f.leaf < 17 → (ok =
    false ∨ placeErased s s.recorder.histHead = false) → s.recorder.bad = [] → s.recorder.saveDue = false → ∃ t, exec (.leafWritten ok)
    s = .next t ∧ t.recorder = { s.recorder with histHead := ringAdd (histRing s).1 (histRing s).2 s.recorder.histHead 4096 } ∧ t.rd
    K.wallErr = satInc (s.rd K.wallErr) u32Max ∧ WroteOnly [K.wallErr] s t ∧ Only [.od, .recorder, .nv, .pins] s t) ∧
  (∀ (f : Flush) (s : State), s.recorder.flush = some f → 17 ≤ f.leaf → f.cause ≠ 6 → ∃ t, exec .flushComplete s = .next t ∧ t.recorder
    = { s.recorder with flush := none, gapEnd := s.tb + 100000 * (s.rd K.flushMinGap).toNat } ∧ (∀ a, flushOnWall (ringLeaves s
    (histRing s) 1) f.seq = some a → t.rd K.flushSeq = f.seq ∧ t.rd K.lastFlush = a ∧ t.rd K.lastCause = f.cause ∧ bit (t.rd
    K.alertSrc) 11 = true) ∧ (flushOnWall (ringLeaves s (histRing s) 1) f.seq = none → t.od = s.od) ∧ WroteOnly [K.flushSeq,
    K.lastFlush, K.lastCause, K.alertSrc] s t ∧ Only [.od, .recorder, .pins] s t) ∧
  (∀ (s : State), s.recorder.flush = none → exec .flushComplete s = .next (settle s)) ∧
  (∀ (jrnl : Bool) (ok : Bool) (b : Nat) (s : State), s.recorder.noErase = false → s.recorder.noWall = false → jrnl = false → ok = true
    → eraseDue s (histRing s) s.recorder.histHead = some b → ∃ t, exec (.wallEraseDone jrnl ok) s = .next t ∧ t.recorder =
    { s.recorder with wall := erase s.recorder.wall b (s.recorder.eraseAt b) } ∧ Only [.recorder, .pins] s t) ∧
  (∀ (jrnl : Bool) (ok : Bool) (b : Nat) (s : State), s.recorder.noErase = false → s.recorder.noWall = false → jrnl = true → ok = false
    → eraseDue s (jrnlRing s) (s.rd K.jrnlHead).toNat = some b → s.recorder.bad = [] → (s.rd K.jrnlHead).toNat ≠ b → ∃ t, exec
    (.wallEraseDone jrnl ok) s = .next t ∧ t.recorder = { s.recorder with bad := [b] } ∧ t.rd K.wallErr = min u32Max (s.rd K.wallErr +
    (s.recorder.eraseAt b / 4096 : Nat)) ∧ WroteOnly [K.wallErr, K.jrnlHead] s t ∧ Only [.od, .recorder, .pins] s t) ∧
  (∀ (jrnl : Bool) (ok : Bool) (s : State), jrnl = false → eraseDue s (histRing s) s.recorder.histHead = none → exec (.wallEraseDone
    jrnl ok) s = .next (settle s)) ∧
  (∀ (jrnl : Bool) (ok : Bool) (s : State), s.recorder.noErase = true → exec (.wallEraseDone jrnl ok) s = .next (settle s)) ∧
  (∀ (o : List Nat) (l : List (List Nat)) (s : State), s.recorder.signed = [o] ++ l → s.recorder.noWall = false →
    s.recorder.staging.length + o.length ≤ 122880 → ∃ t, exec .journalAppend s = .next t ∧ t.recorder =
    { s.recorder with signed := l, staging := s.recorder.staging ++ o, starts := s.recorder.starts ++ [s.recorder.staging.length] } ∧
    Only [.recorder, .pins] s t) ∧
  (∀ (o : List Nat) (l : List (List Nat)) (s : State), s.recorder.signed = [o] ++ l → s.recorder.noWall = true → ∃ t, exec
    .journalAppend s = .next t ∧ t.recorder = { s.recorder with signed := l } ∧ Only [.recorder, .pins] s t) ∧
  (∀ (s : State), s.recorder.signed = [] → exec .journalAppend s = .next (settle s)) ∧
  (∀ (ok : Bool) (s : State), s.recorder.noWall = false → journalDue s = true → ok = true → placeErased s (s.rd K.jrnlHead).toNat =
    true → s.recorder.bad = [] → ∃ t, exec (.journalLeafWrite ok) s = .next t ∧ t.recorder.staging = s.recorder.staging.drop 4024 ∧
    t.recorder.owed = s.recorder.owed - 4024 ∧ t.rd K.jrnlHead = ringAdd (jrnlRing s).1 (jrnlRing s).2 (s.rd K.jrnlHead).toNat 4096 ∧
    t.leafSeq = s.leafSeq + 1 ∧ t.recorder.image = s.recorder.image ∧ WroteOnly [K.jrnlHead] s t ∧ Only [.od, .recorder, .nv, .fresh,
    .pins] s t) ∧
  (∀ (ok : Bool) (s : State), s.recorder.noWall = false → journalDue s = true → (ok = false ∨ placeErased s (s.rd K.jrnlHead).toNat =
    false) → s.recorder.bad = [] → ∃ t, exec (.journalLeafWrite ok) s = .next t ∧ t.recorder = s.recorder ∧ t.rd K.jrnlHead = ringAdd
    (jrnlRing s).1 (jrnlRing s).2 (s.rd K.jrnlHead).toNat 4096 ∧ t.rd K.wallErr = satInc (s.rd K.wallErr) u32Max ∧ WroteOnly
    [K.jrnlHead, K.wallErr] s t ∧ Only [.od, .nv, .fresh, .pins] s t) ∧
  (∀ (ok : Bool) (s : State), journalDue s = false → exec (.journalLeafWrite ok) s = .next (settle s)) ∧
  (∀ (s : State), ∃ t, exec .opSecondsTick s = .next t ∧ t.rd K.opSeconds = min (s.rd K.opSeconds + 1) (2 ^ 40 - 1) ∧ t.recorder =
    { s.recorder with opEdge := s.time.edges } ∧ WroteOnly [K.opSeconds] s t ∧ Only [.od, .recorder, .pins] s t) ∧
  (∀ (s : State), ∃ t, exec .opSecondsSave s = .next t ∧ t.nvGet K.opSeconds = s.rd K.opSeconds ∧ t.nvGet K.ffLater = s.rd K.ffLater ∧
    (∀ k : Nat, k ≠ K.opSeconds → k ≠ K.ffLater → t.nvGet k = s.nvGet k) ∧ Only [.nv, .pins] s t) ∧
  (∀ (s : State), s.recorder.noWall = false → s.recorder.due = none → exec .recCmdFlush s = .next (settle
    (({ s with recorder := { s.recorder with due := some 2 } } : State).reply 0))) ∧
  (∀ (s : State), s.recorder.due = some 1 → ∃ t, exec .recCmdFlush s = .next t ∧ t.recorder = s.recorder ∧ t.answer = 0 ∧ Only
    [.answer, .pins] s t) ∧
  (∀ (s : State), s.recorder.flush = none → s.recorder.noWall = true → ∃ t, exec .recClearImage s = .next t ∧ t.rd K.imageStart =
    s.opStamp ∧ t.recorder = { s.recorder with image := Hawk.empty s.opStamp (s.rd K.powerCycles).toNat, clearing := false } ∧ t.answer
    = 0 ∧ WroteOnly [K.imageStart] s t ∧ Only [.od, .recorder, .answer, .pins] s t) ∧
  (∀ (s : State), s.recorder.flush = none → s.recorder.noWall = false → s.recorder.due = none → exec .recClearImage s = .next (settle
    (({ s with recorder := { s.recorder with due := some 5, clearing := true } } : State).reply 0))) ∧
  (∀ (s : State), s.recorder.flush.isSome = true → exec .recClearWallErase s = .next (settle (s.reply 1))) ∧
  (∀ (s : State), s.recorder.flush = none → ∃ t, exec .recClearWallErase s = .next t ∧ t.rd K.flushSeq = 0 ∧ t.rd K.lastFlush = 0 ∧
    t.rd K.jrnlHead = (jrnlRing s).1 ∧ t.recorder.histHead = (histRing s).1 ∧ t.recorder.image = s.recorder.image ∧ t.answer = 0 ∧
    WroteOnly [K.flushSeq, K.lastFlush, K.jrnlHead] s t ∧ Only [.od, .recorder, .answer, .pins] s t)

/-- The right watchdog key restarts the period; the first expiry raises WDOG, the second declares the engine failed with cause 1,
as do CKPT_LATE (4), the failure bit (5), ENG_CMD (6) and an adoption not done in time (7). A failed engine whose PE16 is idle is
adopted: ADOPT names it, its checkpoint goes with it and its ports stay as they are. Otherwise its ports enter SAFE_OFF. ADOPT
DONE makes the adoption stand. Rests on 10 R298, 10 R300, 10 R302, 10 R304, 10 R310. -/
def Obligations.EngineFailures : Prop :=
  (∀ (e : Eng) (key : BitVec 32) (s : State), s.engLive e = true → key = 0xA5C3 → exec (.wdKick e key) s = .next (settle (s.iow e.val
    0xF01C 1))) ∧
  (∀ (e : Eng) (key : BitVec 32) (s : State), s.engLive e = true → key ≠ 0xA5C3 → bit (s.ior e.val 0xF01C) 1 = false → 0 ≤ s.ior e.val
    0xF01C → ∃ t, exec (.wdKick e key) s = .next t ∧ bit (t.ior e.val 0xF01C) 1 = true ∧ (t.core (coreOf e)).wdog = true ∧ t.engSt e =
    s.engSt e ∧ (∀ c : CoreId, c ≠ coreOf e → t.core c = s.core c) ∧ Only [.io, .cores, .pins] s t) ∧
  (∀ (e : Eng) (key : BitVec 32) (s : State), s.engLive e = true → key ≠ 0xA5C3 → bit (s.ior e.val 0xF01C) 1 = true → (s.core (coreOf
    e)).posted = [] → ∃ t, exec (.wdKick e key) s = .next t ∧ declaredFailed t e 1) ∧
  (∀ (e : Eng) (key : BitVec 32) (s : State), s.engLive e = false → exec (.wdKick e key) s = .next (settle s)) ∧
  (∀ (e : Eng) (s : State), s.timersRun e = true → bit (s.ior e.val 0xF01C) 0 = true → bit (s.ior e.val 0xF01C) 1 = false → ∃ t, exec
    (.wdFirstExpiry e) s = .next t ∧ bit (t.ior e.val 0xF01C) 1 = true ∧ bit (t.ior e.val 0xF01C) 0 = true ∧ (t.core (coreOf e)).wdog =
    true ∧ (t.core (coreOf e)).run ≠ .waiting ∧ (∀ c : CoreId, c ≠ coreOf e → t.core c = s.core c) ∧ Only [.io, .cores, .pins] s t) ∧
  (∀ (e : Eng) (s : State), bit (s.ior e.val 0xF01C) 0 = false → exec (.wdFirstExpiry e) s = .next (settle s)) ∧
  (∀ (e : Eng) (s : State), s.timersRun e = true → bit (s.ior e.val 0xF01C) 1 = true → (s.core (coreOf e)).posted = [] → ∃ t, exec
    (.wdSecondExpiry e) s = .next t ∧ declaredFailed t e 1) ∧
  (∀ (e : Eng) (s : State), bit (s.ior e.val 0xF01C) 1 = false → exec (.wdSecondExpiry e) s = .next (settle s)) ∧
  (∀ (e : Eng) (s : State), s.timersRun e = true → e ≠ pe16 → (s.core (coreOf e)).posted = [] → ∃ t, exec (.ckptLateExpiry e) s = .next
    t ∧ declaredFailed t e 4) ∧
  (∀ (e : Eng) (s : State), e = pe16 → exec (.ckptLateExpiry e) s = .next (settle s)) ∧
  (∀ (e : Eng) (s : State), s.engSt e = Es.running → e ≠ pe16 → s.engSt pe16 = Es.floatIdle → s.float.pending = false → (s.core (coreOf
    e)).posted = [] → ∃ t, exec (.engCtrlFail e) s = .next t ∧ t.engSt e = Es.stopped ∧ t.rd (K.engCause + e.val) = 5 ∧ bit (t.rd
    K.alertSrc) 7 = true ∧ t.rd K.adoptEng = e.val ∧ t.float.pending = true ∧ t.float.declTb = s.tb ∧ t.ior 16 0xF040 = e.val + 32 ∧
    t.ior 16 0xF044 = fieldOf (s.ior e.val 0xF028) 0 2 ∧ t.paths = s.paths ∧ t.ports = s.ports ∧ t.cmps = s.cmps ∧ t.convs = s.convs ∧
    WroteOnly [K.engState + e.val, K.engCause + e.val, K.adoptEng, K.alertSrc] s t ∧ Only [.od, .io, .cores, .mboxes, .float, .pins] s
    t) ∧
  (∀ (e : Eng) (s : State), s.engSt e = Es.running → e ≠ pe16 → s.engSt pe16 ≠ Es.floatIdle → (s.core (coreOf e)).posted = [] → ∃ t,
    exec (.engCtrlFail e) s = .next t ∧ t.engSt e = Es.safe ∧ declaredFailed t e 5 ∧ (∀ p : Port, p.val / 4 = e.val → (t.path p).safe =
    true) ∧ (∀ p : Port, p.val / 4 ≠ e.val → t.path p = s.path p)) ∧
  (∀ (e : Eng) (k : Fin 16) (s : State), e = pe16 → s.engSt e = Es.floatActive → s.rd K.adoptEng = k.val → (s.core (coreOf e)).posted =
    [] → ∃ t, exec (.engCtrlFail e) s = .next t ∧ t.engSt pe16 = Es.floatLost ∧ t.rd (K.engState + k.val) = Es.safe ∧ t.rd K.adoptEng =
    0xFF ∧ declaredFailed t pe16 5 ∧ (∀ p : Port, p.val / 4 = k.val → (t.path p).safe = true)) ∧
  (∀ (e : Eng) (s : State), s.engLive e = false → exec (.engCtrlFail e) s = .next (settle s)) ∧
  (∀ (e : Eng) (s : State), e = Fin.ofNat 17 (s.rd K.engArg).toNat → s.engSt pe16 = Es.floatIdle → s.float.pending = false → s.engSt e
    = Es.running → (s.core (coreOf e)).posted = [] → ∃ t, exec .engCmdFailEngine s = .next t ∧ t.answer = 0 ∧ declaredFailed t e 6 ∧
    t.rd K.adoptEng = e.val ∧ t.paths = s.paths ∧ Only [.od, .io, .cores, .mboxes, .float, .answer, .pins] s t) ∧
  (∀ (s : State), s.engSt pe16 ≠ Es.floatIdle → exec .engCmdFailEngine s = .next (settle (s.reply 1))) ∧
  (∀ (k : Fin 16) (s : State), s.float.pending = true → s.rd K.adoptEng = k.val → (∀ p : Port, p.val / 4 = k.val → (s.port p).held =
    []) → ∃ t, exec .adoptDoneWrite s = .next t ∧ t.float = { s.float with pending := false } ∧ t.engSt pe16 = Es.floatActive ∧ t.rd
    (K.engState + k.val) = Es.adopted ∧ t.rd K.adoptTime = (min 4294967295 (s.tb - s.float.declTb) : Nat) ∧ bit (t.ior 16 0xF040) 6 =
    true ∧ t.rd K.adoptCount = satInc (s.rd K.adoptCount) u32Max ∧ t.paths = s.paths) ∧
  (∀ (s : State), s.float.pending = false → exec .adoptDoneWrite s = .next (settle s)) ∧
  (∀ (k : Fin 16) (s : State), s.float.pending = true → s.engLive pe16 = true → s.rd K.adoptEng = k.val → (s.core (coreOf pe16)).posted
    = [] → ∃ t, exec .adoptTimeout s = .next t ∧ t.engSt pe16 = Es.floatLost ∧ declaredFailed t pe16 7 ∧ (∀ p : Port, p.val / 4 = k.val
    → (t.path p).safe = true)) ∧
  (∀ (s : State), s.float.pending = false → exec .adoptTimeout s = .next (settle s))

/-- A transfer that ends has moved its octets and nothing else, its tag is free and DONE set. CK_COMMIT makes the half valid with
the next sequence number and the time, unless a PUSH into it runs, it was committed last or the engine is PE16. A barrier opens
for engines that live, each arrives, and its release needs every arrival. A full mailbox drops a word with TX_OVF; a response is
read word by word; ABORT discards the request. A register takes what its fields allow. Rests on 10 R289, 10 R290, 10 R297, 10
R301, 10 R304, 10 R305, 10 R309, 01 R11. -/
def Obligations.EngineCommunication : Prop :=
  (∀ (c : CoreId) (t0 : Fin 4) (x : Xfer) (s : State), c.val < 17 → tget (s.core c).xfers t0 = some x → x.push = true → ∃ t, exec
    (.xfComplete c t0) s = .next t ∧ tget (t.core c).xfers t0 = none ∧ (∀ i < x.len, t.sharedOctet (x.shared + i) = (s.core c).octet
    everything (x.loc + i) % 256) ∧ MemOnly x.shared x.len s.shared t.shared ∧ bit (t.ior c.val 0xF020) (8 + t0.val) = false ∧ bit
    (t.ior c.val 0xF020) t0.val = true ∧ (t.core c).dmem = (s.core c).dmem ∧ (∀ d : CoreId, d ≠ c → t.core d = s.core d) ∧ Only [.io,
    .cores, .shared, .pins] s t) ∧
  (∀ (c : CoreId) (t0 : Fin 4) (x : Xfer) (s : State), c.val < 17 → tget (s.core c).xfers t0 = some x → x.push = false → ∃ t, exec
    (.xfComplete c t0) s = .next t ∧ tget (t.core c).xfers t0 = none ∧ (∀ i < x.len, memGet (t.core c).dmem (x.loc + i) = s.sharedRead
    (x.shared + i)) ∧ MemOnly x.loc x.len (s.core c).dmem (t.core c).dmem ∧ bit (t.ior c.val 0xF020) t0.val = true ∧ (∀ d : CoreId, d ≠
    c → t.core d = s.core d) ∧ Only [.io, .cores, .pins] s t) ∧
  (∀ (c : CoreId) (t0 : Fin 4) (s : State), tget (s.core c).xfers t0 = none → exec (.xfComplete c t0) s = .next (settle s)) ∧
  (∀ (e : Eng) (half : Fin 2) (n : Nat) (s : State), s.engLive e = true → e ≠ pe16 → pushBusy s e half.val = false → (bit (s.ior e.val
    0xF028) 1 && decide (fieldOf (s.ior e.val 0xF028) 0 1 = half.val)) = false → n = fieldOf (s.ior e.val 0xF028) 16 16 → ∃ t, exec
    (.ckCommit e half) s = .next t ∧ fieldOf (t.ior e.val 0xF028) 0 1 = half.val ∧ bit (t.ior e.val 0xF028) 1 = true ∧ fieldOf (t.ior
    e.val 0xF028) 16 16 = (n + 1) % 65536 ∧ bit (t.ior e.val 0xF028) 2 = bit (s.ior e.val 0xF028) 2 ∧ t.ior e.val 0xF02C = (s.tb %
    4294967296 : Nat) ∧ t.ior e.val 0xF030 = (s.tb / 4294967296 : Nat) ∧ IoOnly e.val [0xF028, 0xF02C, 0xF030] s t ∧ WroteOnly
    [K.ckptLate] s t ∧ tget t.float.ckLate e = (s.pendingVal K.ckptLate).getD (s.rd K.ckptLate) ∧ Only [.od, .odNew, .io, .float,
    .pins] s t) ∧
  (∀ (e : Eng) (half : Fin 2) (s : State), s.engLive e = true → (e = pe16 ∨ pushBusy s e half.val = true) → exec (.ckCommit e half) s =
    .next (settle (s.ioFlag e.val 0xF028 2 true))) ∧
  (∀ (e : Eng) (half : Fin 2) (s : State), s.engLive e = false → exec (.ckCommit e half) s = .next (settle s)) ∧
  (∀ (set : List Eng) (s : State), s.float.barrier = [] → set.Nodup → (∀ e ∈ set, s.engLive e = true) → ∃ t, exec (.barrierOpen set) s
    = .next t ∧ t.float = { s.float with barrier := set.map Fin.val, arrived := [] } ∧ (∀ e ∈ set, bit (t.ior e.val 0xF034) 1 = true ∧
    (t.mbox e).kcmd.isSome = true) ∧ (∀ e : Eng, e ∉ set → t.mbox e = s.mbox e) ∧ Only [.io, .fresh, .mboxes, .float, .pins] s t) ∧
  (∀ (set : List Eng) (s : State), s.float.barrier ≠ [] → exec (.barrierOpen set) s = .next (settle s)) ∧
  (∀ (e : Eng) (s : State), e.val ∈ s.float.barrier → s.engLive e = true → e.val ∉ s.float.arrived → ∃ t, exec (.barArrive e) s = .next
    t ∧ t.float = { s.float with arrived := s.float.arrived ++ [e.val] } ∧ bit (t.ior e.val 0xF034) 0 = true ∧ IoOnly e.val [0xF034] s
    t ∧ Only [.io, .float, .pins] s t) ∧
  (∀ (e : Eng) (s : State), e.val ∉ s.float.barrier → exec (.barArrive e) s = .next (settle s)) ∧
  (∀ (s : State), s.float.barrier ≠ [] → (∀ x ∈ s.float.barrier, x ∈ s.float.arrived) → ∃ t, exec .barrierRelease s = .next t ∧ t.float
    = { s.float with barrier := [], arrived := [] } ∧ (∀ x ∈ s.float.barrier, bit (t.ior x 0xF034) 0 = false ∧ bit (t.ior x 0xF034) 1 =
    false ∧ bit (t.ior x 0xF034) 2 = true) ∧ Only [.io, .float, .pins] s t) ∧
  (∀ (s : State), (∃ x ∈ s.float.barrier, x ∉ s.float.arrived) → exec .barrierRelease s = .next (settle s)) ∧
  (∀ (e : Eng) (w : BitVec 32) (s : State), s.engLive e = true → (s.mbox e).fifo.length < 16 → listens s (Fin.ofNat 22 e.val) = false →
    exec (.mbTxWrite e w) s = .next (settle (s.setMbox e { s.mbox e with fifo := (s.mbox e).fifo ++ [w.toNat] }))) ∧
  (∀ (e : Eng) (w : BitVec 32) (s : State), s.engLive e = true → 16 ≤ (s.mbox e).fifo.length → exec (.mbTxWrite e w) s = .next (settle
    (s.ioFlag e.val 0x5008 10 true))) ∧
  (∀ (e : Eng) (w : BitVec 32) (l : List Nat) (s : State), s.engLive e = true → (s.mbox e).fifo.length < 16 → listens s (Fin.ofNat 22
    e.val) = true → l = (s.mbox e).tx ++ (s.mbox e).fifo ++ [w.toNat] → (octetsOf l).length < leValue (((octetsOf l).drop 2).take 2) +
    12 → leValue (((octetsOf l).drop 2).take 2) ≤ 2048 → exec (.mbTxWrite e w) s = .next (settle (s.setMbox e
    { s.mbox e with fifo := [], tx := l }))) ∧
  (∀ (e : Eng) (w : BitVec 32) (s : State), s.engLive e = false → exec (.mbTxWrite e w) s = .next (settle s)) ∧
  (∀ (e : Eng) (w : Nat) (l : List Nat) (s : State), s.engLive e = true → (∀ r : Requester, (s.src r).held = none) → (s.mbox e).rx = w
    :: l → exec (.mbRxRead e) s = .next (settle (s.setMbox e
    { s.mbox e with rx := l, rxPart := (if (s.mbox e).rxPart = 0 then dfWords w else (s.mbox e).rxPart) - 1 }))) ∧
  (∀ (e : Eng) (s : State), s.engLive e = true → (∀ r : Requester, (s.src r).held = none) → (s.mbox e).rx = [] → exec (.mbRxRead e) s =
    .next (settle s)) ∧
  (∀ (e : Eng) (r : Requester) (s : State), s.engLive e = true → r.val = e.val → ∃ t, exec (.mbAbort e) s = .next t ∧ t.mbox e =
    { s.mbox e with fifo := [], tx := [] } ∧ t.src r = { s.src r with held := none } ∧ (∀ x : Eng, x ≠ e → t.mbox x = s.mbox x) ∧ (∀ q
    : Requester, q ≠ r → t.src q = s.src q) ∧ Only [.mboxes, .srcs, .pins] s t) ∧
  (∀ (e : Eng) (s : State), exec (.kcmdRead e) s = .next (settle (s.setMbox e { s.mbox e with kcmd := none }))) ∧
  (∀ (c : CoreId) (addr : BitVec 16) (val : BitVec 32) (s : State), c.val < 17 → s.coreOn c = true → addr = 0xF00C → exec
    (.registerWrite c addr val) s = .next (settle (s.iow c.val 0xF00C (val.toNat % 65536 : Nat)))) ∧
  (∀ (c : CoreId) (addr : BitVec 16) (val : BitVec 32) (s : State), c.val < 17 → s.coreOn c = true → addr = 0xF000 → exec
    (.registerWrite c addr val) s = .next (settle s)) ∧
  (∀ (c : CoreId) (addr : BitVec 16) (val : BitVec 32) (k : Nat) (s : State), c.val < 17 → s.coreOn c = true → addr = 0xF020 → k < 8 →
    0 ≤ s.ior c.val 0xF020 → ∃ t, exec (.registerWrite c addr val) s = .next t ∧ (∀ i : Fin 8, bit (t.ior c.val 0xF020) i.val = (bit
    (s.ior c.val 0xF020) i.val && !val.getLsbD i.val)) ∧ IoOnly c.val [0xF020] s t ∧ Only [.io, .pins] s t) ∧
  (∀ (c : CoreId) (addr : BitVec 16) (val : BitVec 32) (s : State), (s.coreOn c = false ∨ addr.toNat % 4 ≠ 0) → exec (.registerWrite c
    addr val) s = .next (settle s))

/-- An arithmetic or logic instruction whose core fetches it, whose condition holds and whose operands can be read writes its
result at its destination, as many octets as its size, and the flags of Table 11.4; the core goes on to the next instruction and
nothing else of the device changes. Rests on 11 R319, 11 R318, 11 R316, 10 R284, 10 R291. -/
def Obligations.ZArithmetic : Prop :=
  (∀ (c : CoreId) (z : ZIns) (h : CoreHw) (g : ZGot) (w : Nat) (v : Nat) (s : State), Issues s c h z (use2 0 .binary) → w = 8 * zOctets
    z → (operandsOf (use2 0 .binary) c h z (zOctets z) (zOctets z)).toOption = some g → v = (g.a + g.b) % 2 ^ w → exec (.zAdd c z) s =
    .next (settle (s.setCore c (leaves z h g (zOctets z) v 15 (flagsZNCV w v (decide (2 ^ w ≤ g.a + g.b)) (overflows w (signed w g.a +
    signed w g.b))))))) ∧
  (∀ (c : CoreId) (z : ZIns) (h : CoreHw) (g : ZGot) (w : Nat) (v : Nat) (s : State), Issues s c h z (use2 1 .none) → w = 8 * zOctets z
    → (operandsOf (use2 1 .none) c h z (zOctets z) (zOctets z)).toOption = some g → v = (g.a + g.b + carryOf h.flagsEx) % 2 ^ w → exec
    (.zAdc c z) s = .next (settle (s.setCore c (leaves z h g (zOctets z) v 15 (flagsZNCV w v (decide (2 ^ w ≤ g.a + g.b + carryOf
    h.flagsEx)) (overflows w (signed w g.a + signed w g.b + carryOf h.flagsEx))))))) ∧
  (∀ (c : CoreId) (z : ZIns) (h : CoreHw) (g : ZGot) (w : Nat) (v : Nat) (s : State), Issues s c h z (use2 0 .binary) → w = 8 * zOctets
    z → (operandsOf (use2 0 .binary) c h z (zOctets z) (zOctets z)).toOption = some g → v = (((g.a : Int) - g.b) % 2 ^ w).toNat → exec
    (.zSub c z) s = .next (settle (s.setCore c (leaves z h g (zOctets z) v 15 (flagsZNCV w v (decide (g.b ≤ g.a)) (overflows w (signed
    w g.a - signed w g.b))))))) ∧
  (∀ (c : CoreId) (z : ZIns) (h : CoreHw) (g : ZGot) (w : Nat) (v : Nat) (s : State), Issues s c h z (use2 1 .none) → w = 8 * zOctets z
    → (operandsOf (use2 1 .none) c h z (zOctets z) (zOctets z)).toOption = some g → v = (((g.a : Int) - g.b - (1 - carryOf h.flagsEx :
    Nat)) % 2 ^ w).toNat → exec (.zSbc c z) s = .next (settle (s.setCore c (leaves z h g (zOctets z) v 15 (flagsZNCV w v (decide (g.b +
    (1 - carryOf h.flagsEx) ≤ g.a)) (overflows w (signed w g.a - signed w g.b - (1 - carryOf h.flagsEx : Nat)))))))) ∧
  (∀ (c : CoreId) (z : ZIns) (h : CoreHw) (g : ZGot) (w : Nat) (v : Nat) (s : State), Issues s c h z (use1 1 .none) → w = 8 * zOctets z
    → (operandsOf (use1 1 .none) c h z (zOctets z) (zOctets z)).toOption = some g → v = ((-(g.a : Int)) % 2 ^ w).toNat → exec (.zNeg c
    z) s = .next (settle (s.setCore c (leaves z h g (zOctets z) v 15 (flagsZNCV w v (decide (g.a = 0)) (overflows w (-(signed w
    g.a)))))))) ∧
  (∀ (c : CoreId) (z : ZIns) (h : CoreHw) (g : ZGot) (w : Nat) (v : Nat) (s : State), Issues s c h z (useCmp 0 .binary) → w = 8 *
    zOctets z → (operandsOf (useCmp 0 .binary) c h z (zOctets z) (zOctets z)).toOption = some g → v = (((g.a : Int) - g.b) % 2 ^
    w).toNat → exec (.zCmp c z) s = .next (settle (s.setCore c (leaves z h g (zOctets z) v 15 (flagsZNCV w v (decide (g.b ≤ g.a))
    (overflows w (signed w g.a - signed w g.b))))))) ∧
  (∀ (c : CoreId) (z : ZIns) (h : CoreHw) (g : ZGot) (w : Nat) (v : Nat) (s : State), Issues s c h z (use2 0 .binary) → w = 8 * zOctets
    z → (operandsOf (use2 0 .binary) c h z (zOctets z) (zOctets z)).toOption = some g → v = g.a &&& g.b → exec (.zAnd c z) s = .next
    (settle (s.setCore c (leaves z h g (zOctets z) v 3 (flagsZN w v))))) ∧
  (∀ (c : CoreId) (z : ZIns) (h : CoreHw) (g : ZGot) (w : Nat) (v : Nat) (s : State), Issues s c h z (use2 1 .none) → w = 8 * zOctets z
    → (operandsOf (use2 1 .none) c h z (zOctets z) (zOctets z)).toOption = some g → v = g.a &&& (2 ^ w - 1 - g.b) → exec (.zAndn c z) s
    = .next (settle (s.setCore c (leaves z h g (zOctets z) v 3 (flagsZN w v))))) ∧
  (∀ (c : CoreId) (z : ZIns) (h : CoreHw) (g : ZGot) (w : Nat) (v : Nat) (s : State), Issues s c h z (use2 0 .binary) → w = 8 * zOctets
    z → (operandsOf (use2 0 .binary) c h z (zOctets z) (zOctets z)).toOption = some g → v = g.a ||| g.b → exec (.zOr c z) s = .next
    (settle (s.setCore c (leaves z h g (zOctets z) v 3 (flagsZN w v))))) ∧
  (∀ (c : CoreId) (z : ZIns) (h : CoreHw) (g : ZGot) (w : Nat) (v : Nat) (s : State), Issues s c h z (use2 0 .binary) → w = 8 * zOctets
    z → (operandsOf (use2 0 .binary) c h z (zOctets z) (zOctets z)).toOption = some g → v = g.a ^^^ g.b → exec (.zXor c z) s = .next
    (settle (s.setCore c (leaves z h g (zOctets z) v 3 (flagsZN w v))))) ∧
  (∀ (c : CoreId) (z : ZIns) (h : CoreHw) (g : ZGot) (w : Nat) (v : Nat) (s : State), Issues s c h z (use1 0 .none) → w = 8 * zOctets z
    → (operandsOf (use1 0 .none) c h z (zOctets z) (zOctets z)).toOption = some g → v = 2 ^ w - 1 - g.a → exec (.zNot c z) s = .next
    (settle (s.setCore c (leaves z h g (zOctets z) v 3 (flagsZN w v))))) ∧
  (∀ (c : CoreId) (z : ZIns) (h : CoreHw) (g : ZGot) (w : Nat) (v : Nat) (s : State), Issues s c h z (useCmp 1 .none) → w = 8 * zOctets
    z → (operandsOf (useCmp 1 .none) c h z (zOctets z) (zOctets z)).toOption = some g → v = g.a &&& g.b → exec (.zTst c z) s = .next
    (settle (s.setCore c (leaves z h g (zOctets z) v 3 (flagsZN w v))))) ∧
  (∀ (c : CoreId) (z : ZIns) (h : CoreHw) (g : ZGot) (w : Nat) (v : Nat) (s : State), Issues s c h z (use1 0 .unary) → w = 8 * zOctets
    z → (operandsOf (use1 0 .unary) c h z (zOctets z) (zOctets z)).toOption = some g → v = g.a → exec (.zMov c z) s = .next (settle
    (s.setCore c (leaves z h g (zOctets z) v 0 (0))))) ∧
  (∀ (c : CoreId) (z : ZIns) (h : CoreHw) (g : ZGot) (w : Nat) (v : Nat) (s : State), Issues s c h z (use2 0 .none) → w = 8 * zOctets z
    → (operandsOf (use2 0 .none) c h z (zOctets z) (zOctets z)).toOption = some g → v = g.a * g.b % 2 ^ w → exec (.zMul c z) s = .next
    (settle (s.setCore c (leaves z h g (zOctets z) v 3 (flagsZN w v))))) ∧
  (∀ (c : CoreId) (z : ZIns) (h : CoreHw) (g : ZGot) (w : Nat) (v : Nat) (s : State), Issues s c h z (use2 1 .none) → w = 8 * zOctets z
    → (operandsOf (use2 1 .none) c h z (zOctets z) (zOctets z)).toOption = some g → v = g.a * g.b / 2 ^ w → exec (.zMulhu c z) s =
    .next (settle (s.setCore c (leaves z h g (zOctets z) v 3 (flagsZN w v))))) ∧
  (∀ (c : CoreId) (z : ZIns) (h : CoreHw) (g : ZGot) (w : Nat) (v : Nat) (s : State), Issues s c h z (use2 2 .none) → w = 8 * zOctets z
    → (operandsOf (use2 2 .none) c h z (zOctets z) (zOctets z)).toOption = some g → v = ((signed w g.a * signed w g.b / 2 ^ w) % 2 ^
    w).toNat → exec (.zMulhs c z) s = .next (settle (s.setCore c (leaves z h g (zOctets z) v 3 (flagsZN w v))))) ∧
  (∀ (c : CoreId) (z : ZIns) (h : CoreHw) (g : ZGot) (w : Nat) (v : Nat) (s : State), Issues s c h z (useShort .dest .imm) → w = 8 *
    zOctets z → (operandsOf (useShort .dest .imm) c h z (zOctets z) (zOctets z)).toOption = some g → v = (g.a + g.b) % 2 ^ w → exec
    (.zAddi c z) s = .next (settle (s.setCore c (leaves z h g (zOctets z) v 15 (flagsZNCV w v (decide (2 ^ w ≤ g.a + g.b)) (overflows w
    (signed w g.a + signed w g.b))))))) ∧
  (∀ (c : CoreId) (z : ZIns) (h : CoreHw) (g : ZGot) (w : Nat) (v : Nat) (s : State), Issues s c h z (useShort .dest .imm) → w = 8 *
    zOctets z → (operandsOf (useShort .dest .imm) c h z (zOctets z) (zOctets z)).toOption = some g → v = (((g.a : Int) - g.b) % 2 ^
    w).toNat → exec (.zSubi c z) s = .next (settle (s.setCore c (leaves z h g (zOctets z) v 15 (flagsZNCV w v (decide (g.b ≤ g.a))
    (overflows w (signed w g.a - signed w g.b))))))) ∧
  (∀ (c : CoreId) (z : ZIns) (h : CoreHw) (g : ZGot) (w : Nat) (v : Nat) (s : State), Issues s c h z (useShort .unused .imm) → w = 8 *
    zOctets z → (operandsOf (useShort .unused .imm) c h z (zOctets z) (zOctets z)).toOption = some g → v = (((g.a : Int) - g.b) % 2 ^
    w).toNat → exec (.zCmpi c z) s = .next (settle (s.setCore c (leaves z h g (zOctets z) v 15 (flagsZNCV w v (decide (g.b ≤ g.a))
    (overflows w (signed w g.a - signed w g.b))))))) ∧
  (∀ (c : CoreId) (z : ZIns) (h : CoreHw) (s : State), Fetches s c h → z.ecc = .clean → condHolds z.cond.val h.flagsRead = false →
    h.rpt = none → h.wdog = false → exec (.zAdd c z) s = .next (settle (s.setCore c (h.advance (zLen z) .seq)))) ∧
  (∀ (c : CoreId) (z : ZIns) (s : State), s.coreOn c = false → exec (.zAdd c z) s = .next (settle s))

/-- A shift takes its count from the low six bits of its second operand: a count of 0 leaves C, up to the width the last bit out
goes to C, beyond it the result is 0 (for SAR the sign) with C 0 (the sign). ROR counts modulo the width. A division by 0 gives
all ones, its remainder the dividend, with V; the most negative value by -1 gives itself and remainder 0 with V; otherwise the
quotient truncates toward zero and V clears. Rests on 11 R320, 11 R321, 11 R318. -/
def Obligations.ZShiftsAndDivision : Prop :=
  (∀ (c : CoreId) (z : ZIns) (h : CoreHw) (g : ZGot) (w : Nat) (v : Nat) (s : State), Issues s c h z (use2 0 .none) → w = 8 * zOctets z
    → (operandsOf (use2 0 .none) c h z (zOctets z) (zOctets z)).toOption = some g → g.b % 64 = 0 → v = g.a → exec (.zShl c z) s = .next
    (settle (s.setCore c (leaves z h g (zOctets z) v 3 (flagsZN w v))))) ∧
  (∀ (c : CoreId) (z : ZIns) (h : CoreHw) (g : ZGot) (w : Nat) (k : Nat) (v : Nat) (s : State), Issues s c h z (use2 0 .none) → w = 8 *
    zOctets z → (operandsOf (use2 0 .none) c h z (zOctets z) (zOctets z)).toOption = some g → k = g.b % 64 → 1 ≤ k → k ≤ w → v = g.a *
    2 ^ k % 2 ^ w → exec (.zShl c z) s = .next (settle (s.setCore c (leaves z h g (zOctets z) v 7 (flagsZN w v + flagIf (g.a.testBit (w
    - k)) Flag.c))))) ∧
  (∀ (c : CoreId) (z : ZIns) (h : CoreHw) (g : ZGot) (w : Nat) (v : Nat) (s : State), Issues s c h z (use2 0 .none) → w = 8 * zOctets z
    → (operandsOf (use2 0 .none) c h z (zOctets z) (zOctets z)).toOption = some g → w < g.b % 64 → v = 0 → exec (.zShl c z) s = .next
    (settle (s.setCore c (leaves z h g (zOctets z) v 7 (Flag.z))))) ∧
  (∀ (c : CoreId) (z : ZIns) (h : CoreHw) (g : ZGot) (w : Nat) (v : Nat) (s : State), Issues s c h z (useShort .dest .imm) → w = 8 *
    zOctets z → (operandsOf (useShort .dest .imm) c h z (zOctets z) (zOctets z)).toOption = some g → g.b % 64 = 0 → v = g.a → exec
    (.zShli c z) s = .next (settle (s.setCore c (leaves z h g (zOctets z) v 3 (flagsZN w v))))) ∧
  (∀ (c : CoreId) (z : ZIns) (h : CoreHw) (g : ZGot) (w : Nat) (k : Nat) (v : Nat) (s : State), Issues s c h z (useShort .dest .imm) →
    w = 8 * zOctets z → (operandsOf (useShort .dest .imm) c h z (zOctets z) (zOctets z)).toOption = some g → k = g.b % 64 → 1 ≤ k → k ≤
    w → v = g.a * 2 ^ k % 2 ^ w → exec (.zShli c z) s = .next (settle (s.setCore c (leaves z h g (zOctets z) v 7 (flagsZN w v + flagIf
    (g.a.testBit (w - k)) Flag.c))))) ∧
  (∀ (c : CoreId) (z : ZIns) (h : CoreHw) (g : ZGot) (w : Nat) (v : Nat) (s : State), Issues s c h z (use2 1 .none) → w = 8 * zOctets z
    → (operandsOf (use2 1 .none) c h z (zOctets z) (zOctets z)).toOption = some g → g.b % 64 = 0 → v = g.a → exec (.zShr c z) s = .next
    (settle (s.setCore c (leaves z h g (zOctets z) v 3 (flagsZN w v))))) ∧
  (∀ (c : CoreId) (z : ZIns) (h : CoreHw) (g : ZGot) (w : Nat) (k : Nat) (v : Nat) (s : State), Issues s c h z (use2 1 .none) → w = 8 *
    zOctets z → (operandsOf (use2 1 .none) c h z (zOctets z) (zOctets z)).toOption = some g → k = g.b % 64 → 1 ≤ k → k ≤ w → v = g.a /
    2 ^ k → exec (.zShr c z) s = .next (settle (s.setCore c (leaves z h g (zOctets z) v 7 (flagsZN w v + flagIf (g.a.testBit (k - 1))
    Flag.c))))) ∧
  (∀ (c : CoreId) (z : ZIns) (h : CoreHw) (g : ZGot) (w : Nat) (v : Nat) (s : State), Issues s c h z (use2 1 .none) → w = 8 * zOctets z
    → (operandsOf (use2 1 .none) c h z (zOctets z) (zOctets z)).toOption = some g → w < g.b % 64 → v = 0 → exec (.zShr c z) s = .next
    (settle (s.setCore c (leaves z h g (zOctets z) v 7 (Flag.z))))) ∧
  (∀ (c : CoreId) (z : ZIns) (h : CoreHw) (g : ZGot) (w : Nat) (v : Nat) (s : State), Issues s c h z (useShort .dest .imm) → w = 8 *
    zOctets z → (operandsOf (useShort .dest .imm) c h z (zOctets z) (zOctets z)).toOption = some g → g.b % 64 = 0 → v = g.a → exec
    (.zShri c z) s = .next (settle (s.setCore c (leaves z h g (zOctets z) v 3 (flagsZN w v))))) ∧
  (∀ (c : CoreId) (z : ZIns) (h : CoreHw) (g : ZGot) (w : Nat) (k : Nat) (v : Nat) (s : State), Issues s c h z (useShort .dest .imm) →
    w = 8 * zOctets z → (operandsOf (useShort .dest .imm) c h z (zOctets z) (zOctets z)).toOption = some g → k = g.b % 64 → 1 ≤ k → k ≤
    w → v = g.a / 2 ^ k → exec (.zShri c z) s = .next (settle (s.setCore c (leaves z h g (zOctets z) v 7 (flagsZN w v + flagIf
    (g.a.testBit (k - 1)) Flag.c))))) ∧
  (∀ (c : CoreId) (z : ZIns) (h : CoreHw) (g : ZGot) (w : Nat) (v : Nat) (s : State), Issues s c h z (use2 2 .none) → w = 8 * zOctets z
    → (operandsOf (use2 2 .none) c h z (zOctets z) (zOctets z)).toOption = some g → g.b % 64 = 0 → v = g.a → exec (.zSar c z) s = .next
    (settle (s.setCore c (leaves z h g (zOctets z) v 3 (flagsZN w v))))) ∧
  (∀ (c : CoreId) (z : ZIns) (h : CoreHw) (g : ZGot) (w : Nat) (k : Nat) (v : Nat) (s : State), Issues s c h z (use2 2 .none) → w = 8 *
    zOctets z → (operandsOf (use2 2 .none) c h z (zOctets z) (zOctets z)).toOption = some g → k = g.b % 64 → 1 ≤ k → k ≤ w → v =
    ((signed w g.a / 2 ^ k) % 2 ^ w).toNat → exec (.zSar c z) s = .next (settle (s.setCore c (leaves z h g (zOctets z) v 7 (flagsZN w v
    + flagIf (g.a.testBit (k - 1)) Flag.c))))) ∧
  (∀ (c : CoreId) (z : ZIns) (h : CoreHw) (g : ZGot) (w : Nat) (v : Nat) (s : State), Issues s c h z (use2 2 .none) → w = 8 * zOctets z
    → (operandsOf (use2 2 .none) c h z (zOctets z) (zOctets z)).toOption = some g → w < g.b % 64 → v = (if g.a.testBit (w - 1) then 2 ^
    w - 1 else 0) → exec (.zSar c z) s = .next (settle (s.setCore c (leaves z h g (zOctets z) v 7 (flagsZN w v + flagIf (g.a.testBit (w
    - 1)) Flag.c))))) ∧
  (∀ (c : CoreId) (z : ZIns) (h : CoreHw) (g : ZGot) (w : Nat) (v : Nat) (s : State), Issues s c h z (use2 3 .none) → w = 8 * zOctets z
    → (operandsOf (use2 3 .none) c h z (zOctets z) (zOctets z)).toOption = some g → g.b % 64 % w = 0 → v = g.a → exec (.zRor c z) s =
    .next (settle (s.setCore c (leaves z h g (zOctets z) v 3 (flagsZN w v))))) ∧
  (∀ (c : CoreId) (z : ZIns) (h : CoreHw) (g : ZGot) (w : Nat) (k : Nat) (v : Nat) (s : State), Issues s c h z (use2 3 .none) → w = 8 *
    zOctets z → (operandsOf (use2 3 .none) c h z (zOctets z) (zOctets z)).toOption = some g → k = g.b % 64 % w → 1 ≤ k → v = (g.a / 2 ^
    k + g.a * 2 ^ (w - k)) % 2 ^ w → exec (.zRor c z) s = .next (settle (s.setCore c (leaves z h g (zOctets z) v 7 (flagsZN w v +
    flagIf (v.testBit (w - 1)) Flag.c))))) ∧
  (∀ (c : CoreId) (z : ZIns) (h : CoreHw) (g : ZGot) (w : Nat) (v : Nat) (s : State), Issues s c h z (use2 0 .none) → w = 8 * zOctets z
    → (operandsOf (use2 0 .none) c h z (zOctets z) (zOctets z)).toOption = some g → g.b = 0 → v = 2 ^ w - 1 → exec (.zDivu c z) s =
    .next (settle (s.setCore c (leaves z h g (zOctets z) v 11 (flagsZN w v + Flag.v))))) ∧
  (∀ (c : CoreId) (z : ZIns) (h : CoreHw) (g : ZGot) (w : Nat) (v : Nat) (s : State), Issues s c h z (use2 0 .none) → w = 8 * zOctets z
    → (operandsOf (use2 0 .none) c h z (zOctets z) (zOctets z)).toOption = some g → g.b ≠ 0 → v = g.a / g.b → exec (.zDivu c z) s =
    .next (settle (s.setCore c (leaves z h g (zOctets z) v 11 (flagsZN w v))))) ∧
  (∀ (c : CoreId) (z : ZIns) (h : CoreHw) (g : ZGot) (w : Nat) (v : Nat) (s : State), Issues s c h z (use2 1 .none) → w = 8 * zOctets z
    → (operandsOf (use2 1 .none) c h z (zOctets z) (zOctets z)).toOption = some g → g.b = 0 → v = 2 ^ w - 1 → exec (.zDivs c z) s =
    .next (settle (s.setCore c (leaves z h g (zOctets z) v 11 (flagsZN w v + Flag.v))))) ∧
  (∀ (c : CoreId) (z : ZIns) (h : CoreHw) (g : ZGot) (w : Nat) (v : Nat) (s : State), Issues s c h z (use2 1 .none) → w = 8 * zOctets z
    → (operandsOf (use2 1 .none) c h z (zOctets z) (zOctets z)).toOption = some g → g.b ≠ 0 → ¬(g.a = 2 ^ (w - 1) ∧ g.b = 2 ^ w - 1) →
    v = ((signed w g.a).tdiv (signed w g.b) % 2 ^ w).toNat → exec (.zDivs c z) s = .next (settle (s.setCore c (leaves z h g (zOctets z)
    v 11 (flagsZN w v))))) ∧
  (∀ (c : CoreId) (z : ZIns) (h : CoreHw) (g : ZGot) (w : Nat) (v : Nat) (s : State), Issues s c h z (use2 1 .none) → w = 8 * zOctets z
    → (operandsOf (use2 1 .none) c h z (zOctets z) (zOctets z)).toOption = some g → g.a = 2 ^ (w - 1) → g.b = 2 ^ w - 1 → v = g.a →
    exec (.zDivs c z) s = .next (settle (s.setCore c (leaves z h g (zOctets z) v 11 (flagsZN w v + Flag.v))))) ∧
  (∀ (c : CoreId) (z : ZIns) (h : CoreHw) (g : ZGot) (w : Nat) (v : Nat) (s : State), Issues s c h z (use2 2 .none) → w = 8 * zOctets z
    → (operandsOf (use2 2 .none) c h z (zOctets z) (zOctets z)).toOption = some g → g.b = 0 → v = g.a → exec (.zRemu c z) s = .next
    (settle (s.setCore c (leaves z h g (zOctets z) v 11 (flagsZN w v + Flag.v))))) ∧
  (∀ (c : CoreId) (z : ZIns) (h : CoreHw) (g : ZGot) (w : Nat) (v : Nat) (s : State), Issues s c h z (use2 2 .none) → w = 8 * zOctets z
    → (operandsOf (use2 2 .none) c h z (zOctets z) (zOctets z)).toOption = some g → g.b ≠ 0 → v = g.a % g.b → exec (.zRemu c z) s =
    .next (settle (s.setCore c (leaves z h g (zOctets z) v 11 (flagsZN w v))))) ∧
  (∀ (c : CoreId) (z : ZIns) (h : CoreHw) (g : ZGot) (w : Nat) (v : Nat) (s : State), Issues s c h z (use2 3 .none) → w = 8 * zOctets z
    → (operandsOf (use2 3 .none) c h z (zOctets z) (zOctets z)).toOption = some g → g.b = 0 → v = g.a → exec (.zRems c z) s = .next
    (settle (s.setCore c (leaves z h g (zOctets z) v 11 (flagsZN w v + Flag.v))))) ∧
  (∀ (c : CoreId) (z : ZIns) (h : CoreHw) (g : ZGot) (w : Nat) (v : Nat) (s : State), Issues s c h z (use2 3 .none) → w = 8 * zOctets z
    → (operandsOf (use2 3 .none) c h z (zOctets z) (zOctets z)).toOption = some g → g.b ≠ 0 → ¬(g.a = 2 ^ (w - 1) ∧ g.b = 2 ^ w - 1) →
    v = ((signed w g.a).tmod (signed w g.b) % 2 ^ w).toNat → exec (.zRems c z) s = .next (settle (s.setCore c (leaves z h g (zOctets z)
    v 11 (flagsZN w v))))) ∧
  (∀ (c : CoreId) (z : ZIns) (h : CoreHw) (g : ZGot) (w : Nat) (v : Nat) (s : State), Issues s c h z (use2 3 .none) → w = 8 * zOctets z
    → (operandsOf (use2 3 .none) c h z (zOctets z) (zOctets z)).toOption = some g → g.a = 2 ^ (w - 1) → g.b = 2 ^ w - 1 → v = 0 → exec
    (.zRems c z) s = .next (settle (s.setCore c (leaves z h g (zOctets z) v 11 (flagsZN w v + Flag.v)))))

/-- EXTZ and EXTS widen a byte or half to a word with the flags of the word; SWAB exchanges octets or halves and BREV reverses
bits without flags; PAR writes the parity to its destination and PF; MOVI writes the number SN. CRC folds its operand into CRCV
with the polynomial, width and reflection of CRCP and CRCF and sets Z from the result, and raises ILLOP where CRCF holds the code
3; CRCSET loads its preset. Rests on 11 R319, 11 R321, 11 R323, 11 R324. -/
def Obligations.ZMovesAndCrc : Prop :=
  (∀ (c : CoreId) (z : ZIns) (h : CoreHw) (g : ZGot) (w : Nat) (v : Nat) (s : State), Issues s c h z (useExt 0) → w = 8 * zOctets z →
    (operandsOf (useExt 0) c h z (zOctets z) (4)).toOption = some g → v = g.a → exec (.zExtz c z) s = .next (settle (s.setCore c
    (leaves z h g (4) v 3 (flagsZN 32 v))))) ∧
  (∀ (c : CoreId) (z : ZIns) (h : CoreHw) (g : ZGot) (w : Nat) (v : Nat) (s : State), Issues s c h z (useExt 1) → w = 8 * zOctets z →
    (operandsOf (useExt 1) c h z (zOctets z) (4)).toOption = some g → v = (signed w g.a % 2 ^ 32).toNat → exec (.zExts c z) s = .next
    (settle (s.setCore c (leaves z h g (4) v 3 (flagsZN 32 v))))) ∧
  (∀ (c : CoreId) (z : ZIns) (h : CoreHw) (g : ZGot) (w : Nat) (v : Nat) (s : State), Issues s c h z (useSwab z) → w = 8 * zOctets z →
    (operandsOf (useSwab z) c h z (zOctets z) (zOctets z)).toOption = some g → w = 16 → v = g.a % 256 * 256 + g.a / 256 % 256 → exec
    (.zSwab c z) s = .next (settle (s.setCore c (leaves z h g (zOctets z) v 0 (0))))) ∧
  (∀ (c : CoreId) (z : ZIns) (h : CoreHw) (g : ZGot) (w : Nat) (v : Nat) (s : State), Issues s c h z (useSwab z) → w = 8 * zOctets z →
    (operandsOf (useSwab z) c h z (zOctets z) (zOctets z)).toOption = some g → w = 32 → z.sub = 0 → g.a < 2 ^ 32 → v = g.a / 256 % 256
    + g.a % 256 * 256 + (g.a / 16777216 + g.a / 65536 % 256 * 256) * 65536 → exec (.zSwab c z) s = .next (settle (s.setCore c (leaves z
    h g (zOctets z) v 0 (0))))) ∧
  (∀ (c : CoreId) (z : ZIns) (h : CoreHw) (g : ZGot) (w : Nat) (v : Nat) (s : State), Issues s c h z (useSwab z) → w = 8 * zOctets z →
    (operandsOf (useSwab z) c h z (zOctets z) (zOctets z)).toOption = some g → w = 32 → z.sub = 1 → g.a < 2 ^ 32 → v = g.a / 16777216 +
    g.a / 65536 % 256 * 256 + g.a / 256 % 256 * 65536 + g.a % 256 * 16777216 → exec (.zSwab c z) s = .next (settle (s.setCore c (leaves
    z h g (zOctets z) v 0 (0))))) ∧
  (∀ (c : CoreId) (z : ZIns) (h : CoreHw) (g : ZGot) (w : Nat) (v : Nat) (s : State), Issues s c h z (useSwab z) → w = 8 * zOctets z →
    (operandsOf (useSwab z) c h z (zOctets z) (zOctets z)).toOption = some g → w = 32 → z.sub = 2 → g.a < 2 ^ 32 → v = g.a / 65536 +
    g.a % 65536 * 65536 → exec (.zSwab c z) s = .next (settle (s.setCore c (leaves z h g (zOctets z) v 0 (0))))) ∧
  (∀ (c : CoreId) (z : ZIns) (h : CoreHw) (g : ZGot) (w : Nat) (v : Nat) (s : State), Issues s c h z (use1 0 .none) → w = 8 * zOctets z
    → (operandsOf (use1 0 .none) c h z (zOctets z) (zOctets z)).toOption = some g → v = revBits w g.a → exec (.zBrev c z) s = .next
    (settle (s.setCore c (leaves z h g (zOctets z) v 0 (0))))) ∧
  (∀ (c : CoreId) (z : ZIns) (h : CoreHw) (g : ZGot) (w : Nat) (v : Nat) (s : State), Issues s c h z (use1 0 .none) → w = 8 * zOctets z
    → (operandsOf (use1 0 .none) c h z (zOctets z) (zOctets z)).toOption = some g → v = ((List.range w).filter fun i => g.a.testBit
    i).length % 2 → exec (.zPar c z) s = .next (settle (s.setCore c (leaves z h g (zOctets z) v 17 (flagIf (decide (v = 0)) Flag.z + v
    * Flag.pf))))) ∧
  (∀ (c : CoreId) (z : ZIns) (h : CoreHw) (g : ZGot) (w : Nat) (v : Nat) (s : State), Issues s c h z (useShort .dest .load) → w = 8 *
    zOctets z → (operandsOf (useShort .dest .load) c h z (zOctets z) (zOctets z)).toOption = some g → v = g.a → exec (.zMovi c z) s =
    .next (settle (s.setCore c (leaves z h g (zOctets z) v 0 (0))))) ∧
  (∀ (c : CoreId) (z : ZIns) (h : CoreHw) (g : ZGot) (w : Nat) (v : Nat) (s : State), Issues s c h z useCrc → (operandsOf useCrc c h z
    (zOctets z) 4).toOption = some g → crcWidth (h.crcWord Page.crcf) = some w → v = crcStep w (h.crcWord Page.crcp) ((h.crcWord
    Page.crcf).testBit 2) (8 * zOctets z) g.a (h.crcWord Page.crcv) → exec (.zCrc c z) s = .next (settle (s.setCore c ((((g.pointers
    h).store true 4 Page.crcv v).update Flag.z (flagIf (decide (v = 0)) Flag.z)).advance (zLen z) .seq)))) ∧
  (∀ (c : CoreId) (z : ZIns) (h : CoreHw) (p : Nat × Nat × Nat) (s : State), Issues s c h z (useNone [0, 1, 2] .none) → p = (if z.sub =
    0 then (0x04C11DB7, 4, 0xFFFFFFFF) else if z.sub = 1 then (0x1021, 1, 0xFFFF) else (7, 2, 0)) → exec (.zCrcset c z) s = .next
    (settle (s.setCore c ((((h.store true 4 Page.crcp p.1).store true 4 Page.crcf p.2.1).store true 4 Page.crcv p.2.2).advance (zLen z)
    .seq))))

/-- IN reads IO-space at once and writes the word read; OUT posts its word, which lands six instructions on. IRD reads I-space,
the halfword at the address above the next; IWR raises SPACE on an engine, and the plumb pair writes its own. PULL and PUSH start
a transfer where their tag, ranges and rights allow it, and are otherwise DENIED. An IO address out of the space of the core
raises SPACE. Rests on 11 R330, 11 R331, 11 R332, 10 R282, 10 R285, 10 R288, 10 R289. -/
def Obligations.ZIoSpace : Prop :=
  (∀ (c : CoreId) (z : ZIns) (h : CoreHw) (g : ZGot) (r : Nat × State) (s : State), Issues s c h z useIn → (operandsOf useIn c h z 4
    4).toOption = some g → ioTrap (s.setCore c h) c (g.a % 65536) = none → r = (s.setCore c h).ioRead c (g.a % 65536) → r.2.coreRuns c
    = true → exec (.zIn c z) s = .next (settle (r.2.setCore c ((g.commit (r.2.core c) 4 r.1).advance (zLen z) .seq)))) ∧
  (∀ (c : CoreId) (z : ZIns) (h : CoreHw) (g : ZGot) (s : State), Issues s c h z useOut → (operandsOf useOut c h z 4 4).toOption = some
    g → ioTrap (s.setCore c h) c (g.a % 65536) = none → exec (.zOut c z) s = .next (settle (s.setCore c (CoreHw.advance
    { g.pointers h with posted := h.posted ++ [(h.idx, g.a % 65536, g.b)] } (zLen z) .seq)))) ∧
  (∀ (c : CoreId) (z : ZIns) (h : CoreHw) (g : ZGot) (s : State), Issues s c h z useIrd → c.val ≠ 17 → z.size = 2 → (operandsOf useIrd
    c h z 4 4).toOption = some g → g.a % 2 = 0 → exec (.zIrd c z) s = .next (settle (s.setCore c ((g.commit h 4 (h.half (g.a % 65536) *
    65536 + h.half ((g.a % 65536 + 2) % 65536))).advance 4 .seq)))) ∧
  (∀ (c : CoreId) (z : ZIns) (h : CoreHw) (g : ZGot) (s : State), Issues s c h z useIrd → c.val ≠ 17 → z.size = 1 → (operandsOf useIrd
    c h z 2 2).toOption = some g → g.a % 2 = 0 → exec (.zIrd c z) s = .next (settle (s.setCore c ((g.commit h 2 (h.half (g.a %
    65536))).advance 4 .seq)))) ∧
  (∀ (c : CoreId) (z : ZIns) (h : CoreHw) (g : ZGot) (s : State), Issues s c h z useIwr → c.val = 17 → z.size = 1 → (operandsOf useIwr
    c h z 2 2).toOption = some g → g.a % 2 = 0 → 0x4000 ≤ g.a % 65536 → exec (.zIwr c z) s = .next (settle (s.setCore c (((g.pointers
    h).store false 2 (iPlace (g.a % 65536)) g.b).advance 4 .seq)))) ∧
  (∀ (c : CoreId) (z : ZIns) (h : CoreHw) (g : ZGot) (s : State), Issues s c h z useXfer → (operandsOf useXfer c h z 4 4).toOption =
    some g → exec (.zPull c z) s = .next (settle (State.zAdvance ((s.setCore c (g.pointers h)).startXfer c false g.e g.a g.b z.sub) c z
    .seq))) ∧
  (∀ (c : CoreId) (z : ZIns) (h : CoreHw) (g : ZGot) (s : State), Issues s c h z useXfer → (operandsOf useXfer c h z 4 4).toOption =
    some g → exec (.zPush c z) s = .next (settle (State.zAdvance ((s.setCore c (g.pointers h)).startXfer c true g.e g.a g.b z.sub) c z
    .seq))) ∧
  (∀ (c : CoreId) (z : ZIns) (h : CoreHw) (g : ZGot) (s : State), Issues s c h z useXfer → (operandsOf useXfer c h z 4 4).toOption =
    some g → c.val < 16 → xferAllowed (s.setCore c (g.pointers h)) c true g.e g.a g.b z.sub = true → (g.pointers h).run = .running → ∃
    t, exec (.zPush c z) s = .next t ∧ tget (t.core c).xfers z.sub = some
    { push := true, loc := g.e, shared := g.a - 0x01000000, len := g.b } ∧ bit (t.ior c.val 0xF020) (8 + z.sub.val) = true ∧ Only [.io,
    .cores, .pins] s t) ∧
  (∀ (c : CoreId) (z : ZIns) (h : CoreHw) (g : ZGot) (s : State), Issues s c h z useXfer → (operandsOf useXfer c h z 4 4).toOption =
    some g → c.val < 17 → xferAllowed (s.setCore c (g.pointers h)) c false g.e g.a g.b z.sub = false → xferDenied c false g.a = true →
    (g.pointers h).run = .running → ∃ t, exec (.zPull c z) s = .next t ∧ (t.core c).xfers = (g.pointers h).xfers ∧ bit (t.ior c.val
    0xF020) (4 + z.sub.val) = true ∧ t.rd (K.engDeny + c.val) = satInc (s.rd (K.engDeny + c.val)) u32Max ∧ WroteOnly [K.engDeny +
    c.val] s t ∧ Only [.od, .io, .cores, .pins] s t) ∧
  (∀ (c : CoreId) (z : ZIns) (h : CoreHw) (g : ZGot) (s : State), Issues s c h z useXfer → (operandsOf useXfer c h z 4 4).toOption =
    some g → c.val < 17 → xferAllowed (s.setCore c (g.pointers h)) c false g.e g.a g.b z.sub = false → xferDenied c false g.a = false →
    (g.pointers h).run = .running → ∃ t, exec (.zPull c z) s = .next t ∧ (t.core c).xfers = (g.pointers h).xfers ∧ bit (t.ior c.val
    0xF020) (4 + z.sub.val) = true ∧ Only [.io, .cores, .pins] s t)

/-- Outside a repeat a string instruction does one iteration: MOVS copies the element at SRC to DST, FILS writes its operand
there, CMPS and SCNS set the flags of a subtraction, CRCS folds the element into CRCV, PARS adds its parity to PF; the pointers it
uses move on by the element size, and nothing else of the device changes. A repeat whose RC is 0 does nothing. Rests on 11 R325,
11 R326, 11 R327, 11 R328. -/
def Obligations.ZStrings : Prop :=
  (∀ (c : CoreId) (z : ZIns) (lim : Option Nat) (h : CoreHw) (n : Nat) (src : Nat) (dst : Nat) (s : State), Issues s c h z (useStr
    .movs) → n = zOctets z → src = h.unitSrc → dst = h.unitDst → checkAt c n src = none → checkAt c n dst = none → exec (.zMovs c z
    lim) s = .next (settle (s.setCore c ((((h.store false n dst (h.load h.asElement n src)).store true 4 Page.src (wrap32 (src +
    n))).store true 4 Page.dst (wrap32 (dst + n))).advance (zLen z) .seq)))) ∧
  (∀ (c : CoreId) (z : ZIns) (lim : Option Nat) (h : CoreHw) (n : Nat) (src : Nat) (dst : Nat) (g : ZGot) (s : State), Issues s c h z
    (useStr .fils) → n = zOctets z → src = h.unitSrc → dst = h.unitDst → (operandsOf (useStr .fils) c h z n n).toOption = some g →
    checkAt c n dst = none → exec (.zFils c z lim) s = .next (settle (s.setCore c (((((g.pointers h).store false n dst g.a)).store true
    4 Page.dst (wrap32 (dst + n))).advance (zLen z) .seq)))) ∧
  (∀ (c : CoreId) (z : ZIns) (lim : Option Nat) (h : CoreHw) (n : Nat) (src : Nat) (dst : Nat) (s : State), Issues s c h z (useStr
    .cmps) → n = zOctets z → src = h.unitSrc → dst = h.unitDst → checkAt c n src = none → checkAt c n dst = none → exec (.zCmps c z
    lim) s = .next (settle (s.setCore c ((((h.store true 4 Page.src (wrap32 (src + n))).store true 4 Page.dst (wrap32 (dst +
    n))).update 15 (subRes (8 * n) (h.load h.asElement n src) (h.load h.asElement n dst) 0).flags).advance (zLen z) .seq)))) ∧
  (∀ (c : CoreId) (z : ZIns) (lim : Option Nat) (h : CoreHw) (n : Nat) (src : Nat) (dst : Nat) (g : ZGot) (s : State), Issues s c h z
    (useStr .scns) → n = zOctets z → src = h.unitSrc → dst = h.unitDst → (operandsOf (useStr .scns) c h z n n).toOption = some g →
    checkAt c n src = none → exec (.zScns c z lim) s = .next (settle (s.setCore c ((((g.pointers h).store true 4 Page.src (wrap32 (src
    + n))).update 15 (subRes (8 * n) ((g.pointers h).load (g.pointers h).asElement n src) g.a 0).flags).advance (zLen z) .seq)))) ∧
  (∀ (c : CoreId) (z : ZIns) (lim : Option Nat) (h : CoreHw) (n : Nat) (src : Nat) (w : Nat) (v : Nat) (s : State), Issues s c h z
    (useStr .crcs) → n = zOctets z → src = h.unitSrc → checkAt c n src = none → crcWidth (h.crcWord Page.crcf) = some w → v = crcStep w
    (h.crcWord Page.crcp) ((h.crcWord Page.crcf).testBit 2) (8 * n) (h.load h.asElement n src) (h.crcWord Page.crcv) → exec (.zCrcs c z
    lim) s = .next (settle (s.setCore c ((((h.store true 4 Page.crcv v).store true 4 Page.src (wrap32 (src + n))).update Flag.z (flagIf
    (decide (v = 0)) Flag.z)).advance (zLen z) .seq)))) ∧
  (∀ (c : CoreId) (z : ZIns) (lim : Option Nat) (h : CoreHw) (n : Nat) (src : Nat) (p : Nat) (s : State), Issues s c h z (useStr .pars)
    → n = zOctets z → src = h.unitSrc → checkAt c n src = none → p = (h.flagsEx / Flag.pf + parity (8 * n) (h.load h.asElement n src))
    % 2 → exec (.zPars c z lim) s = .next (settle (s.setCore c (((h.store true 4 Page.src (wrap32 (src + n))).update Flag.pf (p *
    Flag.pf)).advance (zLen z) .seq)))) ∧
  (∀ (c : CoreId) (z : ZIns) (lim : Option Nat) (h : CoreHw) (k : CoreHw) (s : State), Fetches s c h → z.ecc = .clean → condHolds
    z.cond.val h.flagsRead = true → (useStr .movs).defined z = true → h.inRepeat = true → k = h.loadCount → k.unitRc = 0 → exec (.zMovs
    c z lim) s = .next (settle (s.setCore c (k.advance (zLen z) .seq)))) ∧
  (∀ (c : CoreId) (z : ZIns) (lim : Option Nat) (h : CoreHw) (k : CoreHw) (s : State), Fetches s c h → z.ecc = .clean → condHolds
    z.cond.val h.flagsRead = true → (useStr .cmps).defined z = true → h.inRepeat = true → k = h.loadCount → k.unitRc = 0 → exec (.zCmps
    c z lim) s = .next (settle (s.setCore c (k.advance (zLen z) .seq)))) ∧
  (∀ (c : CoreId) (z : ZIns) (lim : Option Nat) (h : CoreHw) (e : Nat) (k : CoreHw) (s : State), Issues s c h z (useStr .fils) → s.core
    c = h → (operandsOf (useStr .fils) c h z (zOctets z) (zOctets z)).toOption.isSome = true → checkAt c (zOctets z) h.unitDst = some e
    → h.posted = [] → h.flagsAll.testBit 9 = false → h.slots = 0 → k = h.flushed → ∃ t, exec (.zFils c z lim) s = .next t ∧ t.core c =
    k.entered e h.pc 0 0 (wrap32 (k.word everything Page.sp + 4294967292)) ∧ Only [.cores, .pins] s t)

/-- A branch whose condition holds sets its target behind two delay slots, one whose condition fails has the slots alone; CALL and
CALLR push the address after the second slot, RET pops one. After the last slot the core goes on at the target. RPT hands its
count to the next string instruction. PSET writes PF. WAIT stops the core until a line is pending; NOP only goes on. RETE goes to
EPC and restores IE and EXL. Rests on 11 R322, 10 R287, 11 R325, 11 R321, 11 R330, 10 R294. -/
def Obligations.ZControl : Prop :=
  (∀ (c : CoreId) (z : ZIns) (h : CoreHw) (s : State), Issues s c h z (useNone [0] .none) → h.slots = 0 → exec (.zB c z) s = .next
    (settle (s.setCore c
    { h with idx := h.idx + 1, rpt := none, pc := (h.pc + 4) % 65536, slots := 2, target := some (.addr (((h.pc : Int) + 2 * z.off.toInt) % 65536).toNat) }))) ∧
  (∀ (c : CoreId) (z : ZIns) (h : CoreHw) (s : State), Fetches s c h → z.ecc = .clean → z.short = false → condHolds z.cond.val
    h.flagsRead = false → h.slots = 0 → h.rpt = none → h.wdog = false → exec (.zB c z) s = .next (settle (s.setCore c
    { h with idx := h.idx + 1, rpt := none, pc := (h.pc + 4) % 65536, slots := 2, target := none }))) ∧
  (∀ (c : CoreId) (z : ZIns) (h : CoreHw) (s : State), Fetches s c h → z.ecc = .clean → z.short = false → condHolds z.cond.val
    h.flagsRead = false → h.slots = 0 → h.rpt = none → h.wdog = false → exec (.zBr c z) s = .next (settle (s.setCore c
    { h with idx := h.idx + 1, rpt := none, pc := (h.pc + 4) % 65536, slots := 2, target := none }))) ∧
  (∀ (c : CoreId) (z : ZIns) (h : CoreHw) (s : State), Fetches s c h → z.ecc = .clean → z.short = false → condHolds z.cond.val
    h.flagsRead = false → h.slots = 0 → h.rpt = none → h.wdog = false → exec (.zCall c z) s = .next (settle (s.setCore c
    { h with idx := h.idx + 1, rpt := none, pc := (h.pc + 4) % 65536, slots := 2, target := none }))) ∧
  (∀ (c : CoreId) (z : ZIns) (h : CoreHw) (s : State), Fetches s c h → z.ecc = .clean → z.short = false → condHolds z.cond.val
    h.flagsRead = false → h.slots = 0 → h.rpt = none → h.wdog = false → exec (.zCallr c z) s = .next (settle (s.setCore c
    { h with idx := h.idx + 1, rpt := none, pc := (h.pc + 4) % 65536, slots := 2, target := none }))) ∧
  (∀ (c : CoreId) (z : ZIns) (h : CoreHw) (g : ZGot) (s : State), Issues s c h z useCtl1 → h.slots = 0 → (operandsOf useCtl1 c h z 4
    4).toOption = some g → g.a % 2 = 0 → exec (.zBr c z) s = .next (settle (s.setCore c
    { g.pointers h with idx := h.idx + 1, rpt := none, pc := (h.pc + 4) % 65536, slots := 2, target := some (.addr (g.a % 65536)) }))) ∧
  (∀ (c : CoreId) (z : ZIns) (h : CoreHw) (a : Nat) (s : State), Issues s c h z (useNone [0] .none) → h.slots = 0 → a = wrap32 (h.word
    h.asAddress Page.sp + 4294967292) → checkAt c 4 a = none → exec (.zCall c z) s = .next (settle (s.setCore c
    { (h.store false 4 Page.sp a).store false 4 a (returnAddress h) with idx := h.idx + 1, rpt := none, pc := (h.pc + 4) % 65536, slots := 2, target := some (.addr (((h.pc : Int) + 2 * z.off.toInt) % 65536).toNat) }))) ∧
  (∀ (c : CoreId) (z : ZIns) (h : CoreHw) (g : ZGot) (k : CoreHw) (s : State), Issues s c h z useCtl1 → h.slots = 0 → (operandsOf
    useCtl1 c h z 4 4).toOption = some g → g.a % 2 = 0 → (pushReturn c (g.pointers h)).toOption.isSome = true → k = ((pushReturn c
    (g.pointers h)).toOption.getD h) → exec (.zCallr c z) s = .next (settle (s.setCore c
    { k with idx := h.idx + 1, rpt := none, pc := (h.pc + 4) % 65536, slots := 2, target := some (.addr (g.a % 65536)) }))) ∧
  (∀ (c : CoreId) (z : ZIns) (h : CoreHw) (a : Nat) (v : Nat) (s : State), Issues s c h z (useNone [0] (.misc [3] false)) → h.slots = 0
    → a = h.word h.asAddress Page.sp → checkAt c 4 a = none → v = h.word h.asOperand a → v % 2 = 0 → exec (.zRet c z) s = .next (settle
    (s.setCore c
    { h.store false 4 Page.sp (wrap32 (a + 4)) with idx := h.idx + 1, rpt := none, pc := (h.pc + zLen z) % 65536, slots := 2, target := some (.addr (v % 65536)) }))) ∧
  (∀ (c : CoreId) (z : ZIns) (h : CoreHw) (s : State), Issues s c h z (useNone [0] (.misc [2] false)) → h.slots = 0 → exec (.zNop c z)
    s = .next (settle (s.setCore c { h with idx := h.idx + 1, rpt := none, pc := (h.pc + zLen z) % 65536, target := none }))) ∧
  (∀ (c : CoreId) (z : ZIns) (h : CoreHw) (a : Nat) (s : State), Issues s c h z (useNone [0] (.misc [2] false)) → h.slots = 1 →
    h.target = some (.addr a) → exec (.zNop c z) s = .next (settle (s.setCore c
    { h with idx := h.idx + 1, rpt := none, pc := a, slots := 0, target := none }))) ∧
  (∀ (c : CoreId) (z : ZIns) (h : CoreHw) (s : State), Issues s c h z (useNone [0] (.misc [2] false)) → h.slots = 2 → exec (.zNop c z)
    s = .next (settle (s.setCore c { h with idx := h.idx + 1, rpt := none, pc := (h.pc + zLen z) % 65536, slots := 1 }))) ∧
  (∀ (c : CoreId) (z : ZIns) (h : CoreHw) (g : ZGot) (s : State), Issues s c h z useRpt → h.reentry = false → (operandsOf useRpt c h z
    4 4).toOption = some g → h.slots = 0 → exec (.zRpt c z) s = .next (settle (s.setCore c
    { g.pointers h with idx := h.idx + 1, pc := (h.pc + zLen z) % 65536, target := none, rpt := some { addr := h.pc, count := some g.a, begun := false, ran := false } }))) ∧
  (∀ (c : CoreId) (z : ZIns) (h : CoreHw) (k : Nat) (s : State), Issues s c h z usePset → z.short = false → z.sub = 0 → k = z.d.toNat →
    k < 8 → exec (.zPset c z) s = .next (settle (s.setCore c ((h.update Flag.pf (flagIf (condHolds k h.flagsRead) Flag.pf)).advance 4
    .seq)))) ∧
  (∀ (c : CoreId) (z : ZIns) (h : CoreHw) (k : Nat) (s : State), Issues s c h z usePset → z.short = false → z.sub = 1 → k = z.d.toNat →
    k < 8 → exec (.zPset c z) s = .next (settle (s.setCore c ((h.update Flag.pf (flagIf (h.flagsEx.testBit 4 && condHolds k
    h.flagsRead) Flag.pf)).advance 4 .seq)))) ∧
  (∀ (c : CoreId) (z : ZIns) (h : CoreHw) (k : Nat) (s : State), Issues s c h z usePset → z.short = false → z.sub = 2 → k = z.d.toNat →
    k < 8 → exec (.zPset c z) s = .next (settle (s.setCore c ((h.update Flag.pf (flagIf (h.flagsEx.testBit 4 || condHolds k
    h.flagsRead) Flag.pf)).advance 4 .seq)))) ∧
  (∀ (c : CoreId) (z : ZIns) (h : CoreHw) (k : Nat) (s : State), Issues s c h z usePset → z.short = false → z.sub = 3 → k = z.d.toNat →
    k < 8 → exec (.zPset c z) s = .next (settle (s.setCore c ((h.update Flag.pf (flagIf (!condHolds k h.flagsRead) Flag.pf)).advance 4
    .seq)))) ∧
  (∀ (c : CoreId) (z : ZIns) (h : CoreHw) (k : CoreHw) (s : State), Issues s c h z (useNone [0] (.misc [4] false)) → c.val < 17 →
    h.posted = [] → k = h.advance (zLen z) .wait → pendingLines (s.setCore c k) (Fin.ofNat 17 c.val) = 0 → pendingLines (s.setCore c
    k.flushed) (Fin.ofNat 17 c.val) = 0 → exec (.zWait c z) s = .next (settle (s.setCore c { k.flushed with run := .waiting }))) ∧
  (∀ (c : CoreId) (z : ZIns) (h : CoreHw) (s : State), Issues s c h z (useNone [0] (.misc [4] false)) → c.val = 17 → exec (.zWait c z)
    s = .next (settle (s.setCore c (h.advance (zLen z) .seq)))) ∧
  (∀ (c : CoreId) (z : ZIns) (h : CoreHw) (k : CoreHw) (epc : Nat) (cause : Nat) (s : State), Issues s c h z (useNone [0] .none) →
    h.slots = 0 → h.posted = [] → k = h.flushed → epc = k.word everything Page.epc → cause = k.word everything Page.ecause → cause /
    256 % 4 = 0 → epc % 2 = 0 → ∃ t, exec (.zRete c z) s = .next t ∧ (t.core c).pc = epc % 65536 ∧ (t.core c).flg.testBit 8 =
    cause.testBit 10 ∧ (t.core c).flg.testBit 9 = cause.testBit 11 ∧ (t.core c).slots = 0 ∧ (t.core c).target = none ∧ (t.core c).rpt =
    none ∧ (t.core c).dmem = k.dmem ∧ (t.core c).imem = k.imem ∧ (∀ x : CoreId, x ≠ c → t.core x = s.core x) ∧ Only [.cores, .pins] s
    t) ∧
  (∀ (c : CoreId) (z : ZIns) (h : CoreHw) (k : CoreHw) (cause : Nat) (s : State), Issues s c h z (useNone [0] .none) → h.slots = 0 →
    h.posted = [] → k = h.flushed → cause = k.word everything Page.ecause → cause / 256 % 4 ≠ 0 → ∃ t, exec (.zRete c z) s = .next t ∧
    (t.core c).pc = k.word everything Page.epc % 65536 / 2 * 2 ∧ (t.core c).slots = cause / 256 % 4 ∧ (t.core c).target = some .stack ∧
    (t.core c).dmem = k.dmem ∧ (∀ x : CoreId, x ≠ c → t.core x = s.core x) ∧ Only [.cores, .pins] s t) ∧
  (∀ (c : CoreId) (z : ZIns) (h : CoreHw) (sp : Nat) (s : State), Fetches s c h → z.ecc = .clean → condHolds z.cond.val h.flagsRead =
    true → (useNone [0] (.misc [2] false)).defined z = true → h.inRepeat = false → h.wdog = false → h.slots = 1 → h.target = some
    .stack → sp = h.word everything Page.sp → checkAt c 4 sp = none → exec (.zNop c z) s = .next (settle (s.setCore c
    { h.store false 4 Page.sp (wrap32 (sp + 4)) with idx := h.idx + 1, rpt := none, pc := h.word everything sp % 65536 / 2 * 2, slots := 0, target := none })))

/-- An exception saves the address of the instruction in EPC and its code, delay slots and the flags IE and EXL in ECAUSE, clears
IE, sets EXL and goes to the vector at IVB plus 16 times the code. An interrupt does the same with code 16 and its line, the
lowest pending. While EXL is set an exception fails the engine; so does an error in a fetch that cannot be corrected, and a
corrected one is counted. A core that does not execute takes none. Rests on 10 R292, 10 R293, 10 R294, 10 R295, 10 R296, 10 R299,
11 R313, 11 R322, 11 R333. -/
def Obligations.ZExceptions : Prop :=
  (∀ (c : CoreId) (z : ZIns) (h : CoreHw) (k : CoreHw) (s : State), Fetches s c h → h.posted = [] → k = h.flushed → k.flg.testBit 9 =
    false → h.slots = 0 → h.rpt = none → z.ecc = .clean → condHolds z.cond.val h.flagsRead = true → (useNone [0] (.misc [2]
    false)).defined z = false → ∃ t, exec (.zNop c z) s = .next t ∧ (t.core c).pc = (k.word everything Page.ivb + 16 * 1) % 65536 / 2 *
    2 ∧ (t.core c).flg.testBit 8 = false ∧ (t.core c).flg.testBit 9 = true ∧ (t.core c).word everything Page.epc = h.pc % 4294967296 ∧
    (t.core c).word everything Page.ecause = 1 + (if h.flagsAll.testBit 8 then 1024 else 0) + (if h.flagsAll.testBit 9 then 2048 else
    0) + 0 ∧ (t.core c).slots = 0 ∧ (t.core c).rpt = none ∧ (t.core c).run = .running ∧ (∀ x : CoreId, x ≠ c → t.core x = s.core x) ∧
    Only [.cores, .pins] s t) ∧
  (∀ (c : CoreId) (z : ZIns) (h : CoreHw) (k : CoreHw) (e : Nat) (s : State), Fetches s c h → h.posted = [] → k = h.flushed →
    k.flg.testBit 9 = false → h.slots = 0 → h.rpt = none → z.ecc = .clean → condHolds z.cond.val h.flagsRead = true → (use2 0
    .binary).defined z = true → h.wdog = false → checkAt c 4 (wrap32 (h.word h.asAddress Page.fp + 4 * specNum z.s1)) = some e →
    z.short = false → z.size = 2 → specMode z.s1 = 0 → e < 16 → ∃ t, exec (.zAdd c z) s = .next t ∧ (t.core c).pc = (k.word everything
    Page.ivb + 16 * e) % 65536 / 2 * 2 ∧ (t.core c).flg.testBit 8 = false ∧ (t.core c).flg.testBit 9 = true ∧ (t.core c).word
    everything Page.epc = h.pc % 4294967296 ∧ (t.core c).word everything Page.ecause = e + (if h.flagsAll.testBit 8 then 1024 else 0) +
    (if h.flagsAll.testBit 9 then 2048 else 0) + 0 ∧ (t.core c).slots = 0 ∧ (t.core c).rpt = none ∧ (t.core c).run = .running ∧ (∀ x :
    CoreId, x ≠ c → t.core x = s.core x) ∧ Only [.cores, .pins] s t) ∧
  (∀ (c : CoreId) (z : ZIns) (h : CoreHw) (k : CoreHw) (g : ZGot) (s : State), Fetches s c h → h.posted = [] → k = h.flushed →
    k.flg.testBit 9 = false → h.slots = 0 → h.rpt = none → z.ecc = .clean → condHolds z.cond.val h.flagsRead = true → useCtl1.defined z
    = true → h.wdog = false → (operandsOf useCtl1 c h z 4 4).toOption = some g → g.a % 2 = 1 → ∃ t, exec (.zBr c z) s = .next t ∧
    (t.core c).pc = (k.word everything Page.ivb + 16 * 2) % 65536 / 2 * 2 ∧ (t.core c).flg.testBit 8 = false ∧ (t.core c).flg.testBit 9
    = true ∧ (t.core c).word everything Page.epc = h.pc % 4294967296 ∧ (t.core c).word everything Page.ecause = 2 + (if
    h.flagsAll.testBit 8 then 1024 else 0) + (if h.flagsAll.testBit 9 then 2048 else 0) + 0 ∧ (t.core c).slots = 0 ∧ (t.core c).rpt =
    none ∧ (t.core c).run = .running ∧ (∀ x : CoreId, x ≠ c → t.core x = s.core x) ∧ Only [.cores, .pins] s t) ∧
  (∀ (c : CoreId) (z : ZIns) (h : CoreHw) (k : CoreHw) (g : ZGot) (s : State), Fetches s c h → h.posted = [] → k = h.flushed →
    k.flg.testBit 9 = false → h.slots = 0 → h.rpt = none → z.ecc = .clean → condHolds z.cond.val h.flagsRead = true → useIn.defined z =
    true → h.wdog = false → (operandsOf useIn c h z 4 4).toOption = some g → ioTrap (s.setCore c h) c (g.a % 65536) = some 3 → ∃ t,
    exec (.zIn c z) s = .next t ∧ (t.core c).pc = (k.word everything Page.ivb + 16 * 3) % 65536 / 2 * 2 ∧ (t.core c).flg.testBit 8 =
    false ∧ (t.core c).flg.testBit 9 = true ∧ (t.core c).word everything Page.epc = h.pc % 4294967296 ∧ (t.core c).word everything
    Page.ecause = 3 + (if h.flagsAll.testBit 8 then 1024 else 0) + (if h.flagsAll.testBit 9 then 2048 else 0) + g.a % 65536 * 65536 ∧
    (t.core c).slots = 0 ∧ (t.core c).rpt = none ∧ (t.core c).run = .running ∧ (∀ x : CoreId, x ≠ c → t.core x = s.core x) ∧ Only
    [.cores, .pins] s t) ∧
  (∀ (c : CoreId) (z : ZIns) (h : CoreHw) (k : CoreHw) (s : State), Fetches s c h → h.posted = [] → k = h.flushed → k.flg.testBit 9 =
    false → h.slots = 0 → h.rpt = none → z.ecc = .clean → condHolds z.cond.val h.flagsRead = true → (useNone [0] (.misc [2]
    false)).defined z = true → h.wdog = true → ∃ t, exec (.zNop c z) s = .next t ∧ (t.core c).pc = (k.word everything Page.ivb + 16 *
    6) % 65536 / 2 * 2 ∧ (t.core c).flg.testBit 8 = false ∧ (t.core c).flg.testBit 9 = true ∧ (t.core c).word everything Page.epc =
    h.pc % 4294967296 ∧ (t.core c).word everything Page.ecause = 6 + (if h.flagsAll.testBit 8 then 1024 else 0) + (if
    h.flagsAll.testBit 9 then 2048 else 0) + 0 ∧ (t.core c).slots = 0 ∧ (t.core c).rpt = none ∧ (t.core c).run = .running ∧ (∀ x :
    CoreId, x ≠ c → t.core x = s.core x) ∧ Only [.cores, .pins] s t) ∧
  (∀ (c : CoreId) (z : ZIns) (h : CoreHw) (s : State), Fetches s c h → h.posted = [] → h.flagsAll.testBit 9 = true → h.rpt = none →
    h.slots = 0 → c.val < 16 → s.engSt (Fin.ofNat 17 c.val) = 1 → z.ecc = .clean → condHolds z.cond.val h.flagsRead = true → (useNone
    [0] (.misc [2] false)).defined z = false → ∃ t, exec (.zNop c z) s = .next t ∧ t.rd (K.engCause + c.val) = 2 ∧ t.engLive (Fin.ofNat
    17 c.val) = false ∧ bit (t.rd K.alertSrc) 7 = true) ∧
  (∀ (c : CoreId) (z : ZIns) (h : CoreHw) (s : State), Fetches s c h → z.ecc = .fatal → c.val < 16 → s.engSt (Fin.ofNat 17 c.val) = 1 →
    h.posted = [] → ∃ t, exec (.zNop c z) s = .next t ∧ t.rd (K.engCause + c.val) = 3 ∧ t.engLive (Fin.ofNat 17 c.val) = false ∧ bit
    (t.rd K.alertSrc) 7 = true) ∧
  (∀ (c : CoreId) (z : ZIns) (h : CoreHw) (s : State), Fetches s c h → z.ecc = .corrected → condHolds z.cond.val h.flagsRead = true →
    (useNone [0] (.misc [2] false)).defined z = true → h.inRepeat = false → h.wdog = false → c.val < 17 → h.slots = 0 → ∃ t, exec
    (.zNop c z) s = .next t ∧ t.ior c.val 0xF038 = satInc (s.ior c.val 0xF038) u16Max ∧ t.rd (K.engEcc + c.val) = satInc (s.rd
    (K.engEcc + c.val)) u32Max ∧ (t.core c).pc = (h.pc + zLen z) % 65536 ∧ WroteOnly [K.engEcc + c.val] s t ∧ Only [.od, .io, .cores,
    .pins] s t) ∧
  (∀ (c : CoreId) (z : ZIns) (h : CoreHw) (k : CoreHw) (a : Nat) (sp : Nat) (s : State), Fetches s c h → h.posted = [] → k = h.flushed
    → z.ecc = .clean → k.flg.testBit 9 = false → h.slots = 1 → h.target = some (.addr a) → sp = wrap32 (h.word h.asAddress Page.sp +
    4294967292) → checkAt c 4 sp = none → sp < pageBase → h.rpt = none → ∃ t, exec (.zB c z) s = .next t ∧ (t.core c).pc = (k.word
    everything Page.ivb + 16) % 65536 / 2 * 2 ∧ (t.core c).word everything Page.epc = h.pc % 4294967296 ∧ fieldOf ((t.core c).word
    everything Page.ecause) 8 2 = 1 ∧ (t.core c).word everything Page.sp = sp ∧ (t.core c).word everything sp = a % 4294967296 ∧
    (t.core c).slots = 0 ∧ (t.core c).target = none ∧ Only [.cores, .pins] s t) ∧
  (∀ (c : CoreId) (h : CoreHw) (k : CoreHw) (n : Nat) (s : State), h = s.core c → c.val < 17 → s.coreOn c = true → h.run = .running →
    h.posted = [] → h.flagsEx.testBit 8 = true → h.interruptible = true → h.resumed = false → h.reentry = false → k = h.flushed →
    lowestBit (pendingLines s (Fin.ofNat 17 c.val)) = some n → ∃ t, exec (.interruptEntry c) s = .next t ∧ (t.core c).pc = (k.word
    everything Page.ivb + 16 * (16 + n)) % 65536 / 2 * 2 ∧ (t.core c).flg.testBit 8 = false ∧ (t.core c).flg.testBit 9 = true ∧ (t.core
    c).word everything Page.epc = h.pc % 4294967296 ∧ (t.core c).word everything Page.ecause = (16 + n) + (if h.flagsAll.testBit 8 then
    1024 else 0) + (if h.flagsAll.testBit 9 then 2048 else 0) + 0 ∧ (t.core c).slots = 0 ∧ (t.core c).rpt = none ∧ (t.core c).run =
    .running ∧ (∀ x : CoreId, x ≠ c → t.core x = s.core x) ∧ Only [.cores, .pins] s t) ∧
  (∀ (c : CoreId) (s : State), (s.core c).flagsEx.testBit 8 = false → exec (.interruptEntry c) s = .next (settle s)) ∧
  (∀ (c : CoreId) (s : State), c.val = 17 → exec (.interruptEntry c) s = .next (settle s))

/-- A word that instruction i writes is read by operands from instruction i + 4 on and forms addresses from i + 5 on; the string
unit sees it from i + 5 and the CRC unit from i + 4 on. The reserved bits of CRCF and ECAUSE stay 0 there. Until then each of them
sees what stood there before. Rests on 10 R284, 10 R285, 10 R286, 11 R317, 11 R324, 11 R327. -/
def Obligations.ZPipeline : Prop :=
  ∀ (h : CoreHw) (a v d : Nat), (a + 4 ≤ Page.flg ∨ (Page.flg + 4 ≤ a ∧ a + 4 ≤ Page.reserved)) →
    ∀ (g k : CoreHw), g = { h.store false 4 a v with idx := h.idx + d } → k = { h with idx := h.idx + d } →
      (4 ≤ d → g.word g.asOperand a = pageWord a v % 4294967296) ∧ (d < 4 → g.word g.asOperand a = k.word k.asOperand a) ∧
      (5 ≤ d → g.word g.asAddress a = pageWord a v % 4294967296) ∧ (d < 5 → g.word g.asAddress a = k.word k.asAddress a) ∧
      (5 ≤ d → g.word (g.asUnit 5) a = pageWord a v % 4294967296) ∧ (d < 5 → g.word (g.asUnit 5) a = k.word (k.asUnit 5) a) ∧
      (4 ≤ d → g.crcWord a = pageWord a v % 4294967296) ∧ (d < 4 → g.crcWord a = k.crcWord a)

/-- A repeat of f iterations that neither ends early nor raises an exception does all f of them: RC falls by f, and the pointer of
each element it uses moves on by f times the element size. Rests on 11 R325, 11 R326, 11 R327, 11 R328. -/
def Obligations.ZRepeats : Prop :=
  ∀ (k : StrOp) (c : CoreId) (z : ZIns) (n v f done : Nat) (x : StrRun), 1 ≤ f → f ≤ x.h.unitRc → x.h.unitRc < 4294967296 →
    (strLoop k c z n v f done x).trap = none → (strLoop k c z n v f done x).early = false →
    (strLoop k c z n v f done x).count = done + f ∧
    (strLoop k c z n v f done x).x.h.unitRc = x.h.unitRc - f ∧
    (readsSrc k = true → (strLoop k c z n v f done x).x.h.unitSrc = wrap32 (x.h.unitSrc + n * f)) ∧
    (usesDst k = true → (strLoop k c z n v f done x).x.h.unitDst = wrap32 (x.h.unitDst + n * f))

/-- Reading TB_LO latches TB[63:32] for that reader alone. A TB_STEP write is BUSY for 0 or while one waits, RANGE above 2^48 − 1,
and otherwise waits; applied, TB moves on by it. A PPS or SYNC edge of the selected polarity is stamped and counted, the other edge
does nothing; a SYNC edge that asks for a skim while one is busy counts as missed; an input that is not selected disciplines
nothing. Without an edge TB_LOCK clears and the rate holds. While PLL_B is stopped an AONCLK tick moves TB by 3,051 or 3,052, and
otherwise only the counters that count it. Rests on 12 R335, 12 R336, 12 R337, 12 R338, 12 R339, 12 R347. -/
def Obligations.TimeBase : Prop :=
  (∀ (r : Requester) (s : State), ∃ t, exec (.tbLoRead r) s = .next t ∧ t.time =
    { s.time with hi := tset s.time.hi r (s.tb / 4294967296) } ∧ Only [.time, .pins] s t) ∧
  (∀ (n : Nat) (s : State), n = 0 → exec (.tbStepWrite n) s = .next (settle (s.reply 1))) ∧
  (∀ (n : Nat) (s : State), 2 ^ 48 ≤ n → s.time.step = none → exec (.tbStepWrite n) s = .next (settle (s.reply 2))) ∧
  (∀ (n : Nat) (s : State), 0 < n → n < 2 ^ 48 → s.time.step = none → exec (.tbStepWrite n) s = .next (settle
    (({ s with time := { s.time with step := some n } } : State).reply 0))) ∧
  (∀ (n : Nat) (s : State), s.time.step.isSome = true → exec (.tbStepWrite n) s = .next (settle (s.reply 1))) ∧
  (∀ (n : Nat) (d : Nat) (s : State), s.time.step = some n → s.rd K.tbDisc = 0 → s.rd K.tbSource = 0 → d = (((s.time.frac : Int) +
    4294967296 + s.time.delta) / 4294967296).toNat → ∃ t, exec .tbStepApply s = .next t ∧ t.tb = s.tb + (d + n) ∧ t.time.step = none ∧
    t.time.hi = s.time.hi ∧ t.time.delta = s.time.delta ∧ t.time.edges = s.time.edges + 1 ∧ Only [.od, .odNew, .tb, .mets, .rails,
    .cts, .tbcs, .tgs, .time, .pins] s t) ∧
  (∀ (s : State), s.time.step = none → exec .tbStepApply s = .next (settle s)) ∧
  (∀ (s : State), s.rd K.tbDisc ≠ 0 → exec .tbStepApply s = .next (settle s)) ∧
  (∀ (rise : Bool) (frac : Fin 8) (s : State), rise = decide (s.rd K.ppsPol = 0) → s.rd K.tbDisc = 0 → s.odNew = [] → ∃ t, exec
    (.ppsInEdge rise frac) s = .next t ∧ t.rd K.ppsStamp = s.tb ∧ t.rd K.ppsFrac = frac.val ∧ t.rd K.ppsCount = satInc (s.rd
    K.ppsCount) u32Max ∧ t.time = { (s.emit 1).time with ppsLast := some s.time.edges } ∧ WroteOnly [K.ppsStamp, K.ppsFrac, K.ppsCount]
    s t ∧ Only [.od, .time, .pins] s t) ∧
  (∀ (rise : Bool) (frac : Fin 8) (s : State), rise = decide (s.rd K.ppsPol = 0) → s.rd K.tbDisc = 1 → s.time.ppsLast = none →
    s.time.step = none → s.rd K.tbSource = 0 → s.odNew = [] → ∃ t, exec (.ppsInEdge rise frac) s = .next t ∧ t.rd K.ppsStamp = s.tb ∧
    t.rd K.tbErr = clampTo (-2147483648) 2147483647 (nearDiv (edgeError s.tb frac) 2) ∧ t.time.delta = clampTo (-429496) 429496
    (nearDiv (-(edgeError s.tb frac) * 4294967296) 20000000000) ∧ Only [.od, .time, .pins] s t) ∧
  (∀ (rise : Bool) (frac : Fin 8) (s : State), rise = decide (s.rd K.syncPol = 0) → s.rd K.tbDisc = 0 → s.odNew = [] → bit (s.rd
    K.syncMode) 0 = false → ∃ t, exec (.syncInEdge rise frac) s = .next t ∧ t.rd K.syncStamp = s.tb ∧ t.rd K.syncFrac = frac.val ∧ t.rd
    K.syncCount = satInc (s.rd K.syncCount) u32Max ∧ t.time = { (s.emit 2).time with syncLast := some s.time.edges } ∧ WroteOnly
    [K.syncStamp, K.syncFrac, K.syncCount] s t ∧ Only [.od, .time, .pins] s t) ∧
  (∀ (rise : Bool) (frac : Fin 8) (s : State), rise = decide (s.rd K.syncPol = 0) → s.rd K.tbDisc = 0 → s.odNew = [] → bit (s.rd
    K.syncMode) 0 = true → skimBusy s = false → ∃ t, exec (.syncInEdge rise frac) s = .next t ∧ t.rd K.syncStamp = s.tb ∧ t.rd
    K.skimState = 1 ∧ t.recs.skimT = s.tb ∧ WroteOnly [K.syncStamp, K.syncFrac, K.syncCount, K.skimState] s t ∧ Only [.od, .recs,
    .time, .pins] s t) ∧
  (∀ (rise : Bool) (frac : Fin 8) (s : State), rise = decide (s.rd K.syncPol = 0) → s.rd K.tbDisc = 0 → s.odNew = [] → bit (s.rd
    K.syncMode) 0 = true → skimBusy s = true → ∃ t, exec (.syncInEdge rise frac) s = .next t ∧ t.rd K.skimMissed = satInc (s.rd
    K.skimMissed) u32Max ∧ t.recs = s.recs ∧ WroteOnly [K.syncStamp, K.syncFrac, K.syncCount, K.skimMissed] s t ∧ Only [.od, .time,
    .pins] s t) ∧
  (∀ (rise : Bool) (frac : Fin 8) (s : State), rise ≠ decide (s.rd K.ppsPol = 0) → exec (.ppsInEdge rise frac) s = .next (settle s)) ∧
  (∀ (rise : Bool) (frac : Fin 8) (s : State), rise ≠ decide (s.rd K.syncPol = 0) → exec (.syncInEdge rise frac) s = .next (settle s)) ∧
  (∀ (s : State), ∃ t, exec .tbDiscNoEdge s = .next t ∧ t.rd K.tbLock = 0 ∧ t.time = { s.time with good := 0 } ∧ WroteOnly [K.tbLock] s
    t ∧ Only [.od, .time, .pins] s t) ∧
  (∀ (s : State), s.rd K.tbSource = 1 → ∃ t, exec .aonCatchupTick s = .next t ∧ t.tb = s.tb + (if 31 ≤ s.time.acc then 3052 else 3051)
    ∧ t.time.acc = (if 31 ≤ s.time.acc then s.time.acc - 31 else s.time.acc + 97) ∧ t.time.edges = s.time.edges + (if 31 ≤ s.time.acc
    then 3052 else 3051) ∧ Only [.od, .tb, .cts, .tbcs, .tgs, .time, .pins] s t) ∧
  (∀ (s : State), s.rd K.tbSource = 0 → (∀ k : Ctr, s.rT k Kt.ctSrc ≠ 1) → exec .aonCatchupTick s = .next (settle s)) ∧
  (∀ (s : State), s.rd K.tbSource = 0 → ∃ t, exec .aonCatchupTick s = .next t ∧ t.tb = s.tb ∧ Only [.cts, .pins] s t)

/-- The owner's TBC_HI write arms the channel with the 64-bit value, LATE where it has passed; another core's write is denied. A
single channel that fires disarms. A counter that wraps reads 0 with WRAP, its chained neighbour counts once. A compare match, a
capture, a chain read and the owner's CT_CAP read act on the counter as the manual says. A generator waits for its start edge,
starts with an event and its period, repeats it, and stops; a period is shadowed unless IMMEDIATE. No other element changes. Rests
on 12 R340, 12 R341, 12 R342, 12 R343, 12 R344, 12 R345, 12 R346, 12 R349. -/
def Obligations.Timers : Prop :=
  (∀ (c : CoreId) (m : Tbc) (v : BitVec 32) (s : State), s.owns c (s.rU m Ku.tbcOwner) = true → ∃ t, exec (.tbcHiWrite c m v) s = .next
    t ∧ t.tbc m =
    { s.tbc m with value := (s.tbc m).value % 4294967296 + v.toNat * 4294967296, arm := true, late := (s.tbc m).late || decide ((s.tbc m).value % 4294967296 + v.toNat * 4294967296 ≤ s.tb) }
    ∧ (∀ j, j ≠ m → t.tbc j = s.tbc j) ∧ Only [.tbcs, .pins] s t) ∧
  (∀ (c : CoreId) (m : Tbc) (v : BitVec 32) (s : State), s.owns c (s.rU m Ku.tbcOwner) = false → ∃ t, exec (.tbcHiWrite c m v) s =
    .next t ∧ t.time = { s.time with denied := tset s.time.denied c true } ∧ Only [.time, .pins] s t) ∧
  (∀ (m : Tbc) (n : Nat) (s : State), s.rd K.tbSource = 0 → s.time.step = none → n = (((s.time.frac : Int) + 4294967296 + s.time.delta)
    / 4294967296).toNat → (s.tbc m).arm = true → (s.tbc m).periodic = false → (s.tbc m).value ≤ s.tb + n → ∃ t, exec (.tbcFire m) s =
    .next t ∧ t.tbc m = { s.tbc m with fired := true, arm := false } ∧ t.tb = s.tb + n ∧ t.time.edges = s.time.edges + 1 ∧ (∀ d ∈
    (s.emit (0x10 + m.val)).time.due, d ∈ t.time.due) ∧ Only [.od, .tb, .cts, .tbcs, .tgs, .time, .pins] s t) ∧
  (∀ (m : Tbc) (n : Nat) (s : State), s.rd K.tbSource = 0 → s.time.step = none → n = (((s.time.frac : Int) + 4294967296 + s.time.delta)
    / 4294967296).toNat → (s.tbc m).arm = true → (s.tbc m).periodic = true → (s.tbc m).step ≠ 0 → (s.tbc m).value ≤ s.tb + n → ∃ t,
    exec (.tbcFire m) s = .next t ∧ t.tbc m = { s.tbc m with fired := true, value := (s.tbc m).value + (s.tbc m).step } ∧ t.tb = s.tb +
    n ∧ Only [.od, .tb, .cts, .tbcs, .tgs, .time, .pins] s t) ∧
  (∀ (m : Tbc) (s : State), (s.tbc m).arm = false → exec (.tbcFire m) s = .next (settle s)) ∧
  (∀ (k : Ctr) (s : State), s.rT k Kt.ctSrc = 0 → s.rT k Kt.ctDiv ≤ 1 → s.rd K.tbSource = 0 → s.time.step = none → (s.ct k).val = 65535
    → ∃ t, exec (.counterWrap k) s = .next t ∧ (t.ct k).val = 0 ∧ (t.ct k).wrap = true ∧ t.time.edges = s.time.edges + 1 ∧ Only [.od,
    .tb, .cts, .tbcs, .tgs, .time, .pins] s t) ∧
  (∀ (k : Ctr) (j : Ctr) (s : State), s.rT k Kt.ctSrc = 0 → s.rT k Kt.ctDiv ≤ 1 → s.rd K.tbSource = 0 → s.time.step = none → chainFrom
    s 32 k = [k, j] → (s.ct k).val = 65535 → ∃ t, exec (.counterWrap k) s = .next t ∧ (t.ct k).val = 0 ∧ (t.ct j).val = ((s.ct j).val +
    1) % 65536 ∧ Only [.od, .tb, .cts, .tbcs, .tgs, .time, .pins] s t) ∧
  (∀ (k : Ctr) (b : Bool) (s : State), b = true → s.rT k Kt.ctSrc = 0 → s.rT k Kt.ctDiv ≤ 1 → s.rd K.tbSource = 0 → s.time.step = none
    → (s.ct k).cmpB = ((s.ct k).val + 1) % 65536 → ∃ t, exec (.ctCompareMatch k b) s = .next t ∧ (t.ct k).val = ((s.ct k).val + 1) %
    65536 ∧ (t.ct k).evB = true ∧ t.time.edges = s.time.edges + 1 ∧ Only [.od, .tb, .cts, .tbcs, .tgs, .time, .pins] s t) ∧
  (∀ (k : Ctr) (b : Bool) (s : State), b = false → s.rT k Kt.ctSrc = 0 → s.rT k Kt.ctDiv ≤ 1 → s.rd K.tbSource = 0 → s.time.step = none
    → s.rT k Kt.ctWide = 0 → (s.ct k).cmpA = ((s.ct k).val + 1) % 65536 → ∃ t, exec (.ctCompareMatch k b) s = .next t ∧ (t.ct k).val =
    ((s.ct k).val + 1) % 65536 ∧ (t.ct k).evA = true ∧ t.time.edges = s.time.edges + 1 ∧ Only [.od, .tb, .cts, .tbcs, .tgs, .time,
    .pins] s t) ∧
  (∀ (k : Ctr) (s : State), s.time.due.contains (.cap k) = true → chainFrom s 32 k = [k] → exec (.ctCapture k) s = .next (settle
    ((s.arrived (.cap k)).setCt k { s.ct k with cap := (s.ct k).val, capf := true, ovrn := (s.ct k).ovrn || (s.ct k).capf }))) ∧
  (∀ (k : Ctr) (s : State), s.time.due.contains (.cap k) = false → exec (.ctCapture k) s = .next (settle s)) ∧
  (∀ (c : CoreId) (k : Ctr) (j : Ctr) (s : State), s.chained k = false → chainFrom s 32 k = [k, j] → ∃ t, exec (.ctValChainRead c k) s
    = .next t ∧ memGet t.time.snap (c.val * 32 + j.val) = (s.ct j).val ∧ t.cts = s.cts ∧ Only [.time, .pins] s t) ∧
  (∀ (c : CoreId) (k : Ctr) (s : State), s.chained k = true → exec (.ctValChainRead c k) s = .next (settle s)) ∧
  (∀ (c : CoreId) (k : Ctr) (s : State), s.owns c (s.rT k Kt.ctOwner) = true → exec (.ctCapRead c k) s = .next (settle (s.setCt k
    { s.ct k with capf := false }))) ∧
  (∀ (c : CoreId) (k : Ctr) (s : State), s.owns c (s.rT k Kt.ctOwner) = false → exec (.ctCapRead c k) s = .next (settle s)) ∧
  (∀ (g : Tg) (s : State), ∃ t, exec (.tgCmdStart g) s = .next t ∧ t.tg g =
    { s.tg g with waiting := true, late := (s.tg g).late || decide ((s.rX g Kx.tgT0).toNat ≤ s.tb) } ∧ t.answer = 0 ∧ (∀ j, j ≠ g →
    t.tg j = s.tg j) ∧ Only [.tgs, .answer, .pins] s t) ∧
  (∀ (g : Tg) (s : State), ∃ t, exec (.tgCmdStop g) s = .next t ∧ t.tg g = { s.tg g with waiting := false, stopping := (s.tg g).run } ∧
    t.answer = 0 ∧ (∀ j, j ≠ g → t.tg j = s.tg j) ∧ Only [.tgs, .answer, .pins] s t) ∧
  (∀ (g : Tg) (n : Nat) (s : State), s.rd K.tbSource = 0 → s.time.step = none → n = (((s.time.frac : Int) + 4294967296 + s.time.delta)
    / 4294967296).toNat → (s.tg g).waiting = true → (s.rX g Kx.tgT0).toNat ≤ s.tb + n → ∃ t, exec (.tgStartEdge g) s = .next t ∧ t.tg g
    = { s.tg g with run := true, stopping := false, waiting := false, phase := 0, count := 0, evt := true, active := (s.tg g).period }
    ∧ t.tb = s.tb + n ∧ t.time.edges = s.time.edges + 1 ∧ Only [.od, .tb, .cts, .tbcs, .tgs, .time, .pins] s t) ∧
  (∀ (g : Tg) (s : State), (s.tg g).waiting = false → exec (.tgStartEdge g) s = .next (settle s)) ∧
  (∀ (g : Tg) (s : State), s.rd K.tbSource = 0 → s.time.step = none → s.time.delta = 0 → s.time.frac < 4294967296 → (s.tg g).waiting =
    false → s.rX g Kx.tgDiv ≤ 1 → (s.tg g).run = true → (s.tg g).count + 1 = max 2 (s.tg g).active → (s.tg g).stopping = false → ∃ t,
    exec (.tgEvent g) s = .next t ∧ t.tg g = { s.tg g with count := 0, evt := true, active := (s.tg g).period, phase := 0 } ∧ t.tb =
    s.tb + 1 ∧ Only [.od, .tb, .cts, .tbcs, .tgs, .time, .pins] s t) ∧
  (∀ (g : Tg) (s : State), s.rd K.tbSource = 0 → s.time.step = none → s.time.delta = 0 → s.time.frac < 4294967296 → (s.tg g).waiting =
    false → s.rX g Kx.tgDiv ≤ 1 → (s.tg g).run = true → (s.tg g).count + 1 = max 2 (s.tg g).active → (s.tg g).stopping = true → ∃ t,
    exec (.tgEvent g) s = .next t ∧ (t.tg g).run = false ∧ (t.tg g).stopping = false ∧ (t.tg g).evt = true ∧ t.tb = s.tb + 1 ∧ Only
    [.od, .tb, .cts, .tbcs, .tgs, .time, .pins] s t) ∧
  (∀ (g : Tg) (s : State), (s.tg g).run = false → (s.tg g).waiting = false → exec (.tgEvent g) s = .next (settle s)) ∧
  (∀ (c : CoreId) (g : Tg) (v : BitVec 32) (s : State), s.owns c (s.rX g Kx.tgOwner) = true → 2 ≤ v.toNat → (s.tg g).imm = false → exec
    (.tgPeriodWrite c g v) s = .next (settle (s.setTg g { s.tg g with period := v.toNat }))) ∧
  (∀ (c : CoreId) (g : Tg) (v : BitVec 32) (s : State), s.owns c (s.rX g Kx.tgOwner) = true → 2 ≤ v.toNat → (s.tg g).imm = true → (s.tg
    g).run = true → v.toNat ≤ (s.tg g).count → exec (.tgPeriodWrite c g v) s = .next (settle ((s.setTg g
    { s.tg g with period := v.toNat, active := v.toNat, count := 0, phase := 0, skip := true, evt := true }).emit (0x30 + g.val)))) ∧
  (∀ (c : CoreId) (g : Tg) (v : BitVec 32) (s : State), s.owns c (s.rX g Kx.tgOwner) = false → ∃ t, exec (.tgPeriodWrite c g v) s =
    .next t ∧ t.time = { s.time with denied := tset s.time.denied c true } ∧ Only [.time, .pins] s t) ∧
  (∀ (m : Tbc) (n : Nat) (s : State), s.rd K.tbSource = 0 → s.time.step = none → n = (((s.time.frac : Int) + 4294967296 + s.time.delta)
    / 4294967296).toNat → s.tb + n < (s.tbc m).value → exec (.tbcFire m) s = .next (settle s)) ∧
  (∀ (k : Ctr) (s : State), s.rT k Kt.ctSrc = 0 → s.rT k Kt.ctDiv ≤ 1 → s.rd K.tbSource = 0 → s.time.step = none → (s.ct k).val < 65535
    → exec (.counterWrap k) s = .next (settle s)) ∧
  (∀ (g : Tg) (n : Nat) (s : State), s.rd K.tbSource = 0 → s.time.step = none → n = (((s.time.frac : Int) + 4294967296 + s.time.delta)
    / 4294967296).toNat → s.tb + n < (s.rX g Kx.tgT0).toNat → exec (.tgStartEdge g) s = .next (settle s))

/-- A READ answers its items in order; BULK_READ a slice of one value, MORE where octets asked for remain; CURSOR sets the
requester's cursor and reads its window. A WRITE whose first item is refused writes nothing and names it; one that passes keeps an
RWS value pending, a broadcast in all 64 ports. STORE, for which a lower level has no privilege, takes the snapshot, and its end
turns the banks. An engine may not skim. A repeated SEQ gets the stored response, a request while one is in progress BUSY. Rests on
13 R353, 13 R355, 13 R356, 13 R362, 13 R364, 13 R365, 13 R366, 13 R367, 13 R369, 13 R370, 09 R274, 13 R360. -/
def Obligations.Requests : Prop :=
  (∀ (r : ReqHead) (items : List OdItem) (lv : Nat) (s : State), heard s r lv → 1 ≤ items.length → items.length ≤ 64 → (∀ i ∈ items,
    (findRow (odKey i)).all (fun x => decide (x.2.2.2.acc ≠ .rcl)) = true) → ((items.map odKey).flatMap fun k => itemOut (readEntry s
    (asker r lv) k)).length ≤ 2048 → ∃ t, exec (.dfRead r items) s = .next t ∧ responds t r 1 0 ((items.map odKey).flatMap fun k =>
    itemOut (readEntry s (asker r lv) k)) ∧ Only quietParts s t) ∧
  (∀ (r : ReqHead) (items : List OdItem) (lv : Nat) (s : State), heard s r lv → items.length = 0 → ∃ t, exec (.dfRead r items) s =
    .next t ∧ responds t r 1 9 [] ∧ Only quietParts s t) ∧
  (∀ (r : ReqHead) (items : List OdItem) (s : State), listens s r.src = true → s.sec.stat ≠ 3 → r.src.val < 18 → (∀ q : Requester,
    (s.src q).held = none) → (s.src r.src).lastSeq = some r.seq.toNat → ∃ t, exec (.dfRead r items) s = .next t ∧ (t.src r.src).resp =
    (s.src r.src).lastResp ∧ (t.src r.src).lastResp = (s.src r.src).lastResp ∧ t.answer = s.answer ∧ Only quietParts s t) ∧
  (∀ (r : ReqHead) (items : List OdItem) (s : State), listens s r.src = false → r.secure = false → exec (.dfRead r items) s = .next
    (settle s)) ∧
  (∀ (r : ReqHead) (items : List OdItem) (c : Transport) (h : SessHw) (s : State), transportOf r.src = some c → r.secure = true →
    listens s r.src = true → s.sec.stat ≠ 3 → (∀ q : Requester, (s.src q).held = none) → (s.src r.src).lastSeq ≠ some r.seq.toNat → h =
    s.ses c → h.phase = .confirmed → items.length = 0 → ∃ t, exec (.dfRead r items) s = .next t ∧ t.answer = 9 ∧ t.ses c =
    { h with ctrIn := some h.nextIn, ctrOut := h.ctrOut + 1, refusals := 0 } ∧ (t.src r.src).lastResp = sealedFrame
    { h with ctrIn := some h.nextIn, refusals := 0 } 1 1 9 r.seq.toNat [] ∧ WroteOnly [] s t) ∧
  (∀ (r : ReqHead) (items : List OdItem) (lv : Nat) (i : OdItem) (rest : List OdItem) (w : Will) (st : Nat) (s : State), heard s r lv →
    items = [i] ++ rest → items.length ≤ 64 → w = willOf s (items.map odItem) → st = itemStatus s w (asker r lv) (odKey i) (odItem
    i).val → st ≠ 0 → ∃ t, exec (.dfWrite r items) s = .next t ∧ responds t r 2 st (refusalBody 0) ∧ Only quietParts s t) ∧
  (∀ (r : ReqHead) (items : List OdItem) (lv : Nat) (i : OdItem) (j : Nat) (o : Nat) (row : Row) (x : Int) (s : State), heard s r lv →
    items = [i] → findRow (odKey i) = some (.port, j, o, row) → row.acc = .rws → row.ty.isString = false → itemStatus s (willOf s
    (items.map odItem)) (asker r lv) (odKey i) (odItem i).val = 0 → x = row.masked (row.ty.number (odItem i).val) → (∀ k ∈ ledgerKeys
    ++ [K.peerMask], s.pendingVal k = none) → ∃ t, exec (.dfWrite r items) s = .next t ∧ t.pendingVal (odKey i) = some x ∧ PendedOnly
    [odKey i] s t ∧ responds t r 2 0 [] ∧ Only [.odNew, .srcs, .mboxes, .answer, .pins] s t) ∧
  (∀ (r : ReqHead) (items : List OdItem) (lv : Nat) (s : State), heard s r lv → 64 < items.length → ∃ t, exec (.dfWrite r items) s =
    .next t ∧ responds t r 2 9 (refusalBody 64) ∧ Only quietParts s t) ∧
  (∀ (r : ReqHead) (items : List OdItem) (lv : Nat) (i : OdItem) (rest : List OdItem) (s : State), heard s r lv → items = [i] ++ rest →
    items.length ≤ 64 → inPortZero (odItem i) = false → ∃ t, exec (.dfWriteBroadcast r items) s = .next t ∧ responds t r 2 2
    (refusalBody 0) ∧ Only quietParts s t) ∧
  (∀ (r : ReqHead) (items : List OdItem) (lv : Nat) (i : OdItem) (o : Nat) (row : Row) (x : Int) (s : State), heard s r lv → items =
    [i] → findRow (odKey i) = some (.port, 0, o, row) → (∀ p : Port, findRow (odKey i + 0x4000 * p.val) = some (.port, p.val, o, row))
    → row.acc = .rws → row.ty.isString = false → broadcastRefusal s (willOf s ((items.map odItem).flatMap copies)) (asker r lv)
    (items.map odItem) 0 = none → x = row.masked (row.ty.number (odItem i).val) → ∃ t, exec (.dfWriteBroadcast r items) s = .next t ∧
    (∀ p : Port, t.pendingVal (odKey i + 0x4000 * p.val) = some x) ∧ responds t r 2 0 [] ∧ Only [.odNew, .srcs, .mboxes, .answer,
    .pins] s t) ∧
  (∀ (r : ReqHead) (lv : Nat) (s : State), heard s r lv → 2 ≤ lv → s.rd K.storeState ≠ 1 → s.recorder.powerFail = false → s.rd
    (K.storeCountA + targetBank s) < 100000 → ∃ t, exec (.dfStore r) s = .next t ∧ t.answer = 0 ∧ t.rd K.storeState = 1 ∧ t.nvm =
    { s.nvm with storing := some (snapshot s) } ∧ (t.src r.src).held = some
    { seq := r.seq.toNat, opcode := 3, secure := false, why := [(0, .store)] } ∧ WroteOnly [K.storeState] s t ∧ Only [.od, .nvm, .srcs,
    .answer, .pins] s t) ∧
  (∀ (r : ReqHead) (lv : Nat) (s : State), heard s r lv → 2 ≤ lv → s.rd K.storeState = 1 → ∃ t, exec (.dfStore r) s = .next t ∧
    responds t r 3 1 [] ∧ Only quietParts s t) ∧
  (∀ (r : ReqHead) (lv : Nat) (s : State), heard s r lv → lv < 2 → ∃ t, exec (.dfStore r) s = .next t ∧ responds t r 3 5 [] ∧ Only
    quietParts s t) ∧
  (∀ (r : ReqHead) (h : HeldReq) (s : State), listens s r.src = true → s.sec.stat ≠ 3 → r.src.val = 17 → (∀ q : Requester, q ≠ r.src →
    (s.src q).held = none) → (s.src r.src).held = some h → h.why = [(0, .store)] → s.rd K.storeState = 1 → ∃ t, exec (.dfStore r) s =
    .next t ∧ t.answer = 1 ∧ (t.src r.src).resp = frame 1 3 1 r.seq.toNat [] ∧ (t.src r.src).held = some h ∧ WroteOnly [] s t ∧ Only
    quietParts s t) ∧
  (∀ (ok : Bool) (b : Bank) (s : State), s.nvm.storing = some b → ok = true → (∀ q : Requester, (s.src q).held = none) → ∃ t, exec
    (.storeComplete ok) s = .next t ∧ t.rd K.storeState = 2 ∧ t.rd K.nvmState = targetBank s ∧ t.rd (K.storeCountA + targetBank s) =
    satInc (s.rd (K.storeCountA + targetBank s)) u32Max ∧ t.nvm.bank (targetBank s) = some b ∧ t.nvm.bank (1 - targetBank s) =
    s.nvm.bank (1 - targetBank s) ∧ t.nvm.storing = none ∧ bit (t.rd K.alertSrc) 13 = true ∧ WroteOnly [K.storeState, K.nvmState,
    K.storeCountA + targetBank s, K.alertSrc] s t ∧ Only [.od, .nvm, .pins] s t) ∧
  (∀ (ok : Bool) (b : Bank) (s : State), s.nvm.storing = some b → ok = false → (∀ q : Requester, (s.src q).held = none) → ∃ t, exec
    (.storeComplete ok) s = .next t ∧ t.rd K.storeState = 3 ∧ t.nvm = { s.nvm with storing := none } ∧ WroteOnly [K.storeState] s t ∧
    Only [.od, .nvm, .pins] s t) ∧
  (∀ (ok : Bool) (b : Bank) (q : Requester) (n : Nat) (s : State), s.nvm.storing = some b → ok = true → q.val = 17 → (∀ x : Requester,
    x ≠ q → (s.src x).held = none) → (s.src q).held = some { seq := n, opcode := 3, secure := false, why := [(0, .store)] } → ∃ t, exec
    (.storeComplete ok) s = .next t ∧ (t.src q).held = none ∧ (t.src q).lastResp = frame 1 3 0 n [] ∧ (t.src q).lastSeq = some n) ∧
  (∀ (r : ReqHead) (idx : BitVec 16) (sub : BitVec 8) (off : BitVec 32) (count : BitVec 16) (lv : Nat) (k : Nat) (e : ReadOut) (n :
    Nat) (s : State), heard s r lv → k = idx.toNat * 256 + sub.toNat → (findRow k).all (fun x => decide (x.2.2.2.acc ≠ .rcl)) = true →
    e = readEntry s (asker r lv) k → (e.status = 0 ∨ e.status = 13) → off.toNat < e.octets.length → n = min count.toNat 2000 → ∃ t,
    exec (.dfBulkRead r idx sub off count) s = .next t ∧ t.answer = 0 ∧ (t.src r.src).lastResp = frame (if off.toNat + n <
    e.octets.length ∧ n < count.toNat then 9 else 1) 4 0 r.seq.toNat ((e.octets.drop off.toNat).take n) ∧ Only quietParts s t) ∧
  (∀ (r : ReqHead) (idx : BitVec 16) (sub : BitVec 8) (off : BitVec 32) (count : BitVec 16) (lv : Nat) (e : ReadOut) (s : State), heard
    s r lv → e = readEntry s (asker r lv) (idx.toNat * 256 + sub.toNat) → e.status ≠ 0 → e.status ≠ 13 → ∃ t, exec (.dfBulkRead r idx
    sub off count) s = .next t ∧ responds t r 4 e.status [] ∧ Only quietParts s t) ∧
  (∀ (r : ReqHead) (cursor : BitVec 64) (lv : Nat) (l : List Nat) (s : State), heard s r lv → window s cursor.toNat = .inr l → ∃ t,
    exec (.dfCursor r cursor) s = .next t ∧ responds t r 5 0 (leOctets 8 cursor.toNat ++ l) ∧ tget t.recorder.cursors r.src =
    cursor.toNat ∧ (∀ q : Requester, q ≠ r.src → tget t.recorder.cursors q = tget s.recorder.cursors q) ∧ Only ([.recorder] ++
    quietParts) s t) ∧
  (∀ (r : ReqHead) (cursor : BitVec 64) (lv : Nat) (e : Nat) (s : State), heard s r lv → window s cursor.toNat = .inl e → ∃ t, exec
    (.dfCursor r cursor) s = .next t ∧ responds t r 5 e [] ∧ Only quietParts s t) ∧
  (∀ (r : ReqHead) (at_ : Option (BitVec 64)) (lv : Nat) (s : State), heard s r lv → r.src.val = 17 → at_ = none → skimBusy s = false →
    ∃ t, exec (.dfSkim r at_) s = .next t ∧ responds t r 6 0 (leOctets 4 ((s.rd K.skimSeq + 1) % 4294967296).toNat) ∧ t.rd K.skimState
    = 1 ∧ t.recs = { s.recs with skimT := s.tb } ∧ WroteOnly [K.skimState] s t) ∧
  (∀ (r : ReqHead) (at_ : Option (BitVec 64)) (lv : Nat) (s : State), heard s r lv → r.src.val < 17 → ∃ t, exec (.dfSkim r at_) s =
    .next t ∧ responds t r 6 5 [] ∧ Only quietParts s t)

/-- An OPEN closes the older session; without a device seed it is refused with SESSION, counted and alerted. An opened session is
confirmed where the key is held and the signature verifies, with the level it asked for, and discarded otherwise. CLOSE and the idle
expiry erase the session with its level. The idle expiry of a session with a token also ends that token, and no other session
changes. A token is taken only in an L2 session and only where all its checks pass. The results of signatures are free values. Rests
on 13 R357, 13 R358, 13 R359, 13 R360, 15 R402, 15 R404, 15 R415, 15 R416. -/
def Obligations.Sessions : Prop :=
  (∀ (r : ReqHead) (level : BitVec 8) (pub : List Byte) (nonce : List Byte) (c : Transport) (lv : Nat) (s : State), heard s r lv →
    transportOf r.src = some c → pub.length = 97 → nonce.length = 32 → deviceSeed s = none → tget s.sec.l3 c = none → ∃ t, exec
    (.sessionOpen r level pub nonce) s = .next t ∧ responds t r 7 11 [] ∧ t.ses c = SessHw.reset ∧ t.rd (K.sessionLevel + c.val) = 0 ∧
    t.rd K.sessionFails = satInc (s.rd K.sessionFails) u32Max ∧ bit (t.rd K.alertSrc) 12 = true ∧ WroteOnly [K.sessionLevel + c.val,
    K.sessionFails, K.alertSrc] s t) ∧
  (∀ (r : ReqHead) (level : BitVec 8) (pub : List Byte) (nonce : List Byte) (c : Transport) (lv : Nat) (seed : List Nat) (s : State),
    heard s r lv → transportOf r.src = some c → pub.length = 97 → nonce.length = 32 → deviceSeed s = some seed → (level = 1 ∨ level =
    2) → tget s.sec.l3 c = none → ∃ t, exec (.sessionOpen r level pub nonce) s = .next t ∧ t.answer = 0 ∧ (t.ses c).phase = .opened ∧
    (t.ses c).asked = level.toNat ∧ (t.ses c).ctrIn = none ∧ (t.ses c).ctrOut = 0 ∧ (t.ses c).refusals = 0 ∧ t.rd (K.sessionLevel +
    c.val) = 0 ∧ (∀ q : Transport, q ≠ c → t.ses q = s.ses q) ∧ WroteOnly [K.sessionLevel + c.val] s t ∧ Only ([.od, .sess, .fresh] ++
    quietParts) s t) ∧
  (∀ (r : ReqHead) (plain : List Byte) (c : Transport) (l : List Nat) (s : State), transportOf r.src = some c → r.secure = true →
    listens s r.src = true → s.sec.stat ≠ 3 → (∀ q : Requester, (s.src q).held = none) → (s.src r.src).lastSeq ≠ some r.seq.toNat →
    (s.ses c).phase = .opened → l = plain.map BitVec.toNat → l.length = 196 → keyHeld s (s.ses c).asked (l.take 97) = true → tget
    s.sec.l3 c = none → ∃ t, exec (.sessionConfirm r plain) s = .next t ∧ (Config.ecdsaVerify (l.take 97) (s.ses c).transcript (l.drop
    100) = true → (t.ses c).phase = .confirmed ∧ t.rd (K.sessionLevel + c.val) = (s.ses c).asked ∧ t.answer = 0) ∧ (Config.ecdsaVerify
    (l.take 97) (s.ses c).transcript (l.drop 100) = false → t.ses c = SessHw.reset ∧ t.rd (K.sessionLevel + c.val) = 0 ∧ t.answer = 11
    ∧ t.rd K.sessionFails = satInc (s.rd K.sessionFails) u32Max) ∧ WroteOnly [K.sessionLevel + c.val, K.sessionFails, K.alertSrc] s t) ∧
  (∀ (r : ReqHead) (plain : List Byte) (c : Transport) (l : List Nat) (s : State), transportOf r.src = some c → r.secure = true →
    listens s r.src = true → s.sec.stat ≠ 3 → (∀ q : Requester, (s.src q).held = none) → (s.src r.src).lastSeq ≠ some r.seq.toNat →
    (s.ses c).phase = .opened → l = plain.map BitVec.toNat → l.length = 196 → keyHeld s (s.ses c).asked (l.take 97) = false → tget
    s.sec.l3 c = none → ∃ t, exec (.sessionConfirm r plain) s = .next t ∧ t.ses c = SessHw.reset ∧ t.rd (K.sessionLevel + c.val) = 0 ∧
    t.answer = 11 ∧ t.rd K.sessionFails = satInc (s.rd K.sessionFails) u32Max ∧ WroteOnly [K.sessionLevel + c.val, K.sessionFails,
    K.alertSrc] s t) ∧
  (∀ (r : ReqHead) (c : Transport) (lv : Nat) (s : State), heard s r lv → transportOf r.src = some c → tget s.sec.l3 c = none → ∃ t,
    exec (.sessionClose r) s = .next t ∧ responds t r 7 0 [] ∧ t.ses c = SessHw.reset ∧ t.rd (K.sessionLevel + c.val) = 0 ∧ (∀ q :
    Transport, q ≠ c → t.ses q = s.ses q) ∧ WroteOnly [K.sessionLevel + c.val] s t ∧ Only ([.od, .sess] ++ quietParts) s t) ∧
  (∀ (t0 : Transport) (s : State), (s.ses t0).phase ≠ .none → tget s.sec.l3 t0 = none → ∃ t, exec (.sessionIdleExpiry t0) s = .next t ∧
    t.ses t0 = SessHw.reset ∧ t.rd (K.sessionLevel + t0.val) = 0 ∧ (∀ q : Transport, q ≠ t0 → t.ses q = s.ses q) ∧ WroteOnly
    [K.sessionLevel + t0.val] s t ∧ Only [.od, .sess, .pins] s t) ∧
  (∀ (t0 : Transport) (s : State), (s.ses t0).phase ≠ .none → (tget s.sec.l3 t0).isSome = true → (∀ q : Transport, q ≠ t0 → tget
    s.sec.l3 q = none) → s.sec.jtagUntil = none → ∃ t, exec (.sessionIdleExpiry t0) s = .next t ∧ t.ses t0 = SessHw.reset ∧ t.rd
    (K.sessionLevel + t0.val) = 0 ∧ tget t.sec.l3 t0 = none ∧ (∀ q : Transport, q ≠ t0 → t.ses q = s.ses q ∧ t.rd (K.sessionLevel +
    q.val) = s.rd (K.sessionLevel + q.val)) ∧ t.rd K.tokenScope = 0 ∧ t.rd K.tokenExpiry = 0 ∧ Only [.od, .sec, .sess, .pins] s t) ∧
  (∀ (t0 : Transport) (s : State), (s.ses t0).phase = .none → exec (.sessionIdleExpiry t0) s = .next (settle s)) ∧
  (∀ (r : ReqHead) (token : List Byte) (c : Transport) (lv : Nat) (s : State), heard s r lv → transportOf r.src = some c → token.length
    ≤ 512 → ∃ t, exec (.dfToken r token) s = .next t ∧ responds t r 8 11 [] ∧ t.rd K.sessionFails = satInc (s.rd K.sessionFails) u32Max
    ∧ bit (t.rd K.alertSrc) 12 = true ∧ WroteOnly [K.sessionFails, K.alertSrc] s t ∧ Only ([.od] ++ quietParts) s t) ∧
  (∀ (r : ReqHead) (token : List Byte) (lv : Nat) (s : State), heard s r lv → 512 < token.length → ∃ t, exec (.dfToken r token) s =
    .next t ∧ responds t r 8 9 [] ∧ Only quietParts s t) ∧
  (∀ (r : ReqHead) (token : List Byte) (c : Transport) (l : List Nat) (s : State), transportOf r.src = some c → r.secure = true →
    listens s r.src = true → s.sec.stat ≠ 3 → (∀ q : Requester, (s.src q).held = none) → (s.src r.src).lastSeq ≠ some r.seq.toNat →
    (s.ses c).phase = .confirmed → s.rd (K.sessionLevel + c.val) = 2 → l = token.map BitVec.toNat → l.length ≤ 512 → (∀ q : Transport,
    tget s.sec.l3 q = none) → s.sec.jtagUntil = none → ∃ t, exec (.dfToken r token) s = .next t ∧ (tokenOk s l = true → t.answer = 0 ∧
    t.rd K.tokenScope = leValue ((l.drop 5).take 1) ∧ t.rd K.tokenExpiry = leValue ((l.drop 20).take 8) ∧ (bit (leValue ((l.drop
    5).take 1) : Nat) 0 = true → t.rd (K.sessionLevel + c.val) = 3 ∧ tget t.sec.l3 c = some (leValue ((l.drop 20).take 8)))) ∧ (tokenOk
    s l = false → t.answer = 11 ∧ t.sec = s.sec ∧ t.rd (K.sessionLevel + c.val) = 2))

/-- The strobe applies a pending entry whose condition holds and leaves one whose condition does not. RESTORE_DEFAULTS returns every
cursor to 0, and an entry away from its default pends at its default. ALERT_ACK clears the sources it names and, with the last of
bits 0 and 1, ALERT_PORTS. A reset request sets the soft reset due. Rests on 13 R353, 13 R355, 13 R367, 13 R372, 13 R373, 13 R380,
15 R421. -/
def Obligations.DictionaryEntries : Prop :=
  (∀ (k : Nat) (v : Int) (j : Nat) (o : Nat) (s : State), s.odNew = [(k, some v)] → (splitKey k = (.ct, j, o) ∨ splitKey k = (.tbc, j,
    o) ∨ splitKey k = (.tg, j, o)) → ∃ t, exec .applyStrobe s = .next t ∧ t.rd k = v ∧ t.odNew = [] ∧ WroteOnly [k] s t ∧ Only [.od,
    .odNew, .pins] s t) ∧
  (∀ (k : Nat) (v : Int) (p : Port) (o : Nat) (s : State), s.odNew = [(k, some v)] → splitKey k = (.port, p.val, o) → portApplies s p o
    = false → k = keyP p o → 5 < o → ∃ t, exec .applyStrobe s = .next t ∧ t.odNew = s.odNew ∧ WroteOnly [] s t ∧ Only [.pins] s t) ∧
  (∀ (s : State), (∀ x ∈ s.od, restorable x.1 = false) → s.odNew = [] → (∀ x ∈ s.blob, restorable x.1 = false) → movedFactors s = [] →
    (∀ x ∈ limitKeys, s.rd x.1 ≤ min (s.rd (K.otpCeil + x.2)) (s.rd (K.cap + x.2))) → ∃ t, exec .restoreDefaults s = .next t ∧ t.answer
    = 0 ∧ (∀ i : Fin 22, tget t.recorder.cursors i = 0) ∧ Only [.recorder, .answer, .pins] s t) ∧
  (∀ (p : Port) (s : State), (∀ x ∈ s.od, restorable x.1 = true → x.1 = keyP p Kp.drpDuty) → s.rP p Kp.drpDuty ≠ 50 → s.odNew = [] → (∀
    x ∈ s.blob, restorable x.1 = false) → movedFactors s = [] → (∀ x ∈ limitKeys, s.rd x.1 ≤ min (s.rd (K.otpCeil + x.2)) (s.rd (K.cap
    + x.2))) → ∃ t, exec .restoreDefaults s = .next t ∧ t.answer = 0 ∧ t.pendingVal (keyP p Kp.drpDuty) = some 50 ∧ t.od = s.od ∧ (∀ i
    : Fin 22, tget t.recorder.cursors i = 0) ∧ Only [.odNew, .recorder, .answer, .pins] s t) ∧
  (∀ (s : State), exec .resetRequest s = .next (settle ({ (s.reply 0) with power := { s.power with softDue := true } }))) ∧
  (∀ (m : BitVec 32) (s : State), m.toNat % 4 = 0 → ∃ t, exec (.alertAck m) s = .next t ∧ (∀ i : Fin 32, bit (t.rd K.alertSrc) i.val =
    (bit (s.rd K.alertSrc) i.val && !m.getLsbD i.val)) ∧ t.answer = 0 ∧ WroteOnly [K.alertSrc] s t ∧ Only [.od, .answer, .pins] s t) ∧
  (∀ (m : BitVec 32) (s : State), m.toNat % 4 = 3 → 0 ≤ s.rd K.alertSrc → ∃ t, exec (.alertAck m) s = .next t ∧ (∀ i : Fin 32, bit
    (t.rd K.alertSrc) i.val = (bit (s.rd K.alertSrc) i.val && !m.getLsbD i.val)) ∧ t.rd K.alertPorts = 0 ∧ t.answer = 0 ∧ WroteOnly
    [K.alertSrc, K.alertPorts] s t ∧ Only [.od, .answer, .pins] s t)

/-- A segment is kept in its order; one out of order drops what was received and counts it, as does the timeout. A SKIM AT to node 0
acts where broadcasts are enabled; any other request there is counted and dropped. Bus-off counts and is left after the recovery
with both counters 0. A two-wire request collects octets until it is whole, one that names too great a length is dropped and
counted; a read answers 0x00 until there is a response and 0xFF beyond its end. Rests on 13 R361, 13 R374, 13 R375, 13 R376, 13
R377, 13 R378, 13 R379. -/
def Obligations.HostBuses : Prop :=
  (∀ (c : Fin 2) (id : BitVec 11) (octets : List Byte) (h : SrcHw) (s : State), listens s (canSrc c) = true → (id.toNat : Int) = tget
    (s.can c).cfg 2 + tget (s.can c).cfg 0 → octets.length = 64 → ((octets.map BitVec.toNat).headD 0).testBit 6 = false → (octets.map
    BitVec.toNat).headD 0 % 64 = 0 → h = s.src (canSrc c) → ∃ t, exec (.canSegmentRx c [] .fd id octets) s = .next t ∧ t.src (canSrc c)
    = { h with part := (octets.map BitVec.toNat).drop 1, seg := 1 } ∧ (s.rd (K.canRec + c.val) ≤ 127 → t.rd (K.canRec + c.val) = max 0
    (s.rd (K.canRec + c.val) - 1)) ∧ (∀ q : Requester, q ≠ canSrc c → t.src q = s.src q) ∧ WroteOnly [K.canRec + c.val, K.canState +
    c.val] s t ∧ Only [.od, .fresh, .srcs, .pins] s t) ∧
  (∀ (c : Fin 2) (id : BitVec 11) (octets : List Byte) (h : SrcHw) (n : Nat) (s : State), listens s (canSrc c) = true → (id.toNat :
    Int) = tget (s.can c).cfg 2 + tget (s.can c).cfg 0 → octets.length = 64 → ((octets.map BitVec.toNat).headD 0).testBit 6 = false → n
    = (octets.map BitVec.toNat).headD 0 % 64 → n ≠ 0 → h = s.src (canSrc c) → h.seg = n → h.part ≠ [] → ∃ t, exec (.canSegmentRx c []
    .fd id octets) s = .next t ∧ t.src (canSrc c) = { h with part := h.part ++ (octets.map BitVec.toNat).drop 1, seg := n + 1 } ∧ (s.rd
    (K.canRec + c.val) ≤ 127 → t.rd (K.canRec + c.val) = max 0 (s.rd (K.canRec + c.val) - 1)) ∧ (∀ q : Requester, q ≠ canSrc c → t.src
    q = s.src q) ∧ WroteOnly [K.canRec + c.val, K.canState + c.val] s t ∧ Only [.od, .fresh, .srcs, .pins] s t) ∧
  (∀ (c : Fin 2) (id : BitVec 11) (octets : List Byte) (h : SrcHw) (n : Nat) (s : State), listens s (canSrc c) = true → (id.toNat :
    Int) = tget (s.can c).cfg 2 + tget (s.can c).cfg 0 → octets.length = 64 → n = (octets.map BitVec.toNat).headD 0 % 64 → n ≠ 0 → h =
    s.src (canSrc c) → h.seg ≠ n → ∃ t, exec (.canSegmentRx c [] .fd id octets) s = .next t ∧ t.src (canSrc c) =
    { h with part := [], seg := 0 } ∧ t.rd (K.dfErr + c.val) = satInc (s.rd (K.dfErr + c.val)) u32Max ∧ (s.rd (K.canRec + c.val) ≤ 127
    → t.rd (K.canRec + c.val) = max 0 (s.rd (K.canRec + c.val) - 1)) ∧ (∀ q : Requester, q ≠ canSrc c → t.src q = s.src q) ∧ WroteOnly
    [K.dfErr + c.val, K.canRec + c.val, K.canState + c.val] s t ∧ Only [.od, .fresh, .srcs, .pins] s t) ∧
  (∀ (c : Fin 2) (id : BitVec 11) (octets : List Byte) (s : State), listens s (canSrc c) = true → (id.toNat : Int) = tget (s.can c).cfg
    2 + tget (s.can c).cfg 0 → octets.length ≠ 64 → ∃ t, exec (.canSegmentRx c [] .fd id octets) s = .next t ∧ t.src (canSrc c) = s.src
    (canSrc c) ∧ t.rd (K.dfErr + c.val) = satInc (s.rd (K.dfErr + c.val)) u32Max ∧ (s.rd (K.canRec + c.val) ≤ 127 → t.rd (K.canRec +
    c.val) = max 0 (s.rd (K.canRec + c.val) - 1)) ∧ (∀ q : Requester, q ≠ canSrc c → t.src q = s.src q) ∧ WroteOnly [K.dfErr + c.val,
    K.canRec + c.val, K.canState + c.val] s t ∧ Only [.od, .fresh, .srcs, .pins] s t) ∧
  (∀ (c : Fin 2) (id : BitVec 11) (octets : List Byte) (s : State), listens s (canSrc c) = false → exec (.canSegmentRx c [] .fd id
    octets) s = .next (settle s)) ∧
  (∀ (c : Fin 2) (form : CanForm) (id : BitVec 11) (octets : List Byte) (s : State), listens s (canSrc c) = true → form ≠ .fd → ∃ t,
    exec (.canSegmentRx c [] form id octets) s = .next t ∧ t.src (canSrc c) = s.src (canSrc c) ∧ (s.rd (K.canRec + c.val) ≤ 127 → t.rd
    (K.canRec + c.val) = max 0 (s.rd (K.canRec + c.val) - 1)) ∧ (∀ q : Requester, q ≠ canSrc c → t.src q = s.src q) ∧ WroteOnly
    [K.canRec + c.val, K.canState + c.val] s t ∧ Only [.od, .fresh, .srcs, .pins] s t) ∧
  (∀ (c : Fin 2) (id : BitVec 11) (octets : List Byte) (s : State), s.canOn c = true → s.rd (K.canTec + c.val) + 8 ≤ 255 → ∃ t, exec
    (.canSegmentRx c [.txError] .classical id octets) s = .next t ∧ t.rd (K.canTec + c.val) = s.rd (K.canTec + c.val) + 8 ∧ (127 < s.rd
    (K.canTec + c.val) + 8 → t.rd (K.canState + c.val) = 2) ∧ t.srcs = s.srcs ∧ WroteOnly [K.canTec + c.val, K.canRec + c.val,
    K.canState + c.val] s t ∧ Only [.od, .fresh, .pins] s t) ∧
  (∀ (c : Fin 2) (id : BitVec 11) (octets : List Byte) (s : State), s.canOn c = true → 255 < s.rd (K.canTec + c.val) + 8 → ∃ t, exec
    (.canSegmentRx c [.txError] .classical id octets) s = .next t ∧ t.rd (K.canState + c.val) = 3 ∧ t.rd (K.canTec + c.val) = 255 ∧
    t.rd (K.canBusoff + c.val) = satInc (s.rd (K.canBusoff + c.val)) u32Max ∧ t.srcs = s.srcs ∧ Only [.od, .pins] s t) ∧
  (∀ (c : Fin 2) (v : Vector Int 10) (id : BitVec 11) (octets : List Byte) (s : State), s.canSt c ≠ 0 → (s.can c).next = some v → ∃ t,
    exec (.canSegmentRx c [.idle] .classical id octets) s = .next t ∧ (t.can c).cfg = v ∧ (t.can c).next = none ∧ (tget v 4 ≠ tget
    (s.can c).cfg 4 → (t.can c).away = true) ∧ (∀ q : Requester, q ≠ canSrc c → t.src q = s.src q) ∧ Only [.od, .odNew, .fresh, .srcs,
    .pins] s t) ∧
  (∀ (c : Fin 2) (s : State), (s.src (canSrc c)).part ≠ [] → ∃ t, exec (.canSegmentTimeout c) s = .next t ∧ (t.src (canSrc c)).part =
    [] ∧ (t.src (canSrc c)).seg = 0 ∧ t.rd (K.dfErr + c.val) = satInc (s.rd (K.dfErr + c.val)) u32Max ∧ (∀ q : Requester, q ≠ canSrc c
    → t.src q = s.src q) ∧ WroteOnly [K.dfErr + c.val] s t ∧ Only [.od, .srcs, .pins] s t) ∧
  (∀ (c : Fin 2) (s : State), (s.src (canSrc c)).part = [] → exec (.canSegmentTimeout c) s = .next (settle s)) ∧
  (∀ (c : Fin 2) (t0 : BitVec 64) (s : State), listens s (canSrc c) = true → s.sec.stat ≠ 3 → tget (s.can c).cfg 9 = 1 → skimBusy s =
    false → s.tb + 100 ≤ t0.toNat → ∃ t, exec (.canNode0Skim c (some t0)) s = .next t ∧ t.rd K.skimState = 1 ∧ t.recs =
    { s.recs with skimT := t0.toNat } ∧ WroteOnly [K.skimState] s t ∧ Only [.od, .recs, .answer, .pins] s t) ∧
  (∀ (c : Fin 2) (at_ : Option (BitVec 64)) (s : State), tget (s.can c).cfg 9 = 0 → exec (.canNode0Skim c at_) s = .next (settle s)) ∧
  (∀ (c : Fin 2) (at_ : Option (BitVec 64)) (s : State), listens s (canSrc c) = true → s.sec.stat ≠ 3 → tget (s.can c).cfg 9 = 1 → at_
    = none → ∃ t, exec (.canNode0Skim c at_) s = .next t ∧ t.rd (K.dfErr + c.val) = satInc (s.rd (K.dfErr + c.val)) u32Max ∧ WroteOnly
    [K.dfErr + c.val] s t ∧ Only [.od, .pins] s t) ∧
  (∀ (c : Fin 2) (s : State), (s.rd (K.canState + c.val) = 1 ∨ s.rd (K.canState + c.val) = 2) → ∃ t, exec (.canBusOff c) s = .next t ∧
    t.rd (K.canState + c.val) = 3 ∧ t.rd (K.canBusoff + c.val) = satInc (s.rd (K.canBusoff + c.val)) u32Max ∧ WroteOnly [K.canState +
    c.val, K.canTec + c.val, K.canBusoff + c.val] s t ∧ Only [.od, .pins] s t) ∧
  (∀ (c : Fin 2) (s : State), s.rd (K.canState + c.val) = 0 → exec (.canBusOff c) s = .next (settle s)) ∧
  (∀ (c : Fin 2) (s : State), s.rd (K.canState + c.val) = 3 → ∃ t, exec (.canBusOffRecovery c) s = .next t ∧ t.rd (K.canState + c.val)
    = 1 ∧ t.rd (K.canTec + c.val) = 0 ∧ t.rd (K.canRec + c.val) = 0 ∧ WroteOnly [K.canState + c.val, K.canTec + c.val, K.canRec +
    c.val] s t ∧ Only [.od, .pins] s t) ∧
  (∀ (c : Fin 2) (s : State), s.rd (K.canState + c.val) ≠ 3 → exec (.canBusOffRecovery c) s = .next (settle s)) ∧
  (∀ (b : Bus) (octets : List Byte) (p : List Nat) (s : State), listens s (twReq b) = true → p = (s.src (twReq b)).part ++ octets.map
    BitVec.toNat → (p.length < 4 ∨ (leValue ((p.drop 2).take 2) ≤ 2048 ∧ p.length < leValue ((p.drop 2).take 2) + 12)) → exec
    (.twTargetWrite b octets) s = .next (settle (s.setSrc (twReq b) { s.src (twReq b) with part := p }))) ∧
  (∀ (b : Bus) (octets : List Byte) (p : List Nat) (s : State), listens s (twReq b) = true → p = (s.src (twReq b)).part ++ octets.map
    BitVec.toNat → 4 ≤ p.length → 2048 < leValue ((p.drop 2).take 2) → ∃ t, exec (.twTargetWrite b octets) s = .next t ∧ (t.src (twReq
    b)).part = [] ∧ t.rd (K.dfErr + 2 + b.val) = satInc (s.rd (K.dfErr + 2 + b.val)) u32Max ∧ WroteOnly [K.dfErr + 2 + b.val] s t ∧
    Only [.od, .srcs, .pins] s t) ∧
  (∀ (b : Bus) (n : Nat) (s : State), listens s (twReq b) = true → (∀ q : Requester, (s.src q).held = none) → (s.src (twReq b)).resp =
    [] → ∃ t, exec (.twTargetRead b n) s = .next t ∧ (t.tw b).sent = List.replicate n 0 ∧ (∀ c : Bus, c ≠ b → t.tw c = s.tw c) ∧ Only
    [.od, .tws, .pins] s t) ∧
  (∀ (b : Bus) (n : Nat) (l : List Nat) (s : State), listens s (twReq b) = true → (∀ q : Requester, (s.src q).held = none) → l = (s.src
    (twReq b)).resp → l ≠ [] → ∃ t, exec (.twTargetRead b n) s = .next t ∧ (t.tw b).sent = (l ++ List.replicate n 0xFF).take n ∧ Only
    [.od, .tws, .pins] s t) ∧
  (∀ (b : Bus) (s : State), (s.src (twReq b)).part ≠ [] → ∃ t, exec (.twDfTimeout b) s = .next t ∧ (t.src (twReq b)).part = [] ∧ t.rd
    (K.dfErr + 2 + b.val) = satInc (s.rd (K.dfErr + 2 + b.val)) u32Max ∧ WroteOnly [K.dfErr + 2 + b.val] s t ∧ Only [.od, .srcs, .pins]
    s t) ∧
  (∀ (b : Bus) (s : State), (s.src (twReq b)).part = [] → exec (.twDfTimeout b) s = .next (settle s))

/-- GO is refused RANGE, MODE or BUSY in that order, otherwise it captures the transaction and starts it on a free bus or waits; a
free bus starts what waits. ABORT ends a waiting transaction and marks a running one. A transaction ends with its result and the
octets acknowledged: done, address or data not acknowledged, arbitration lost with no retry left, a lost condition, a clock held
too long, a bus never free. Counters, flags and lines show what happened. Rests on 14 R385, 14 R389, 14 R390, 14 R391, 14 R392, 14
R393, 14 R394, 14 R395, 14 R396, 14 R397, 14 R398. -/
def Obligations.TwoWire : Prop :=
  (∀ (b : Bus) (a : Int) (s : State), a = s.rW b Kw.twCtlTarget → (a < 8 ∨ 0x77 < a ∨ a = s.rW b Kw.twAddr ∨ 64 < s.rW b Kw.twCtlWlen ∨
    64 < s.rW b Kw.twCtlRlen) → exec (.twCtlGo b) s = .next (settle (s.reply 2))) ∧
  (∀ (b : Bus) (a : Int) (s : State), a = s.rW b Kw.twCtlTarget → 8 ≤ a → a ≤ 0x77 → a ≠ s.rW b Kw.twAddr → s.rW b Kw.twCtlWlen ≤ 64 →
    s.rW b Kw.twCtlRlen ≤ 64 → bit (s.rW b Kw.twRole) 1 = false → exec (.twCtlGo b) s = .next (settle (s.reply 4))) ∧
  (∀ (b : Bus) (a : Int) (s : State), a = s.rW b Kw.twCtlTarget → 8 ≤ a → a ≤ 0x77 → a ≠ s.rW b Kw.twAddr → s.rW b Kw.twCtlWlen ≤ 64 →
    s.rW b Kw.twCtlRlen ≤ 64 → bit (s.rW b Kw.twRole) 1 = true → s.rW b Kw.twCtlResult = 1 → exec (.twCtlGo b) s = .next (settle
    (s.reply 1))) ∧
  (∀ (b : Bus) (a : Int) (s : State), a = s.rW b Kw.twCtlTarget → 8 ≤ a → a ≤ 0x77 → a ≠ s.rW b Kw.twAddr → s.rW b Kw.twCtlWlen ≤ 64 →
    s.rW b Kw.twCtlRlen ≤ 64 → bit (s.rW b Kw.twRole) 1 = true → s.rW b Kw.twCtlResult ≠ 1 → (s.tw b).busy = false → (s.tw b).tgt =
    .idle → ∃ t, exec (.twCtlGo b) s = .next t ∧ t.answer = 0 ∧ t.tw b =
    { s.tw b with busy := true, ctl := some { target := a.toNat, wdata := (s.rdB (keyW b Kw.twCtlWdata)).take (s.rW b Kw.twCtlWlen).toNat, rlen := (s.rW b Kw.twCtlRlen).toNat, retries := (s.rW b Kw.twCtlRetries).toNat, onBus := true, aborting := false } }
    ∧ t.rW b Kw.twCtlResult = 1 ∧ t.rW b Kw.twCtlDone = 0 ∧ t.rW b Kw.twCtlTries = 1 ∧ t.rW b Kw.twState = 3 ∧ 0 ≤ t.rW b Kw.twLines ∧
    t.rW b Kw.twLines ≤ 3 ∧ WroteOnly [keyW b Kw.twCtlResult, keyW b Kw.twCtlDone, keyW b Kw.twCtlTries, keyW b Kw.twState, keyW b
    Kw.twLines] s t ∧ Only [.od, .fresh, .tws, .answer, .pins] s t) ∧
  (∀ (b : Bus) (a : Int) (s : State), a = s.rW b Kw.twCtlTarget → 8 ≤ a → a ≤ 0x77 → a ≠ s.rW b Kw.twAddr → s.rW b Kw.twCtlWlen ≤ 64 →
    s.rW b Kw.twCtlRlen ≤ 64 → bit (s.rW b Kw.twRole) 1 = true → s.rW b Kw.twCtlResult ≠ 1 → (s.tw b).busy = true → ∃ t, exec (.twCtlGo
    b) s = .next t ∧ t.answer = 0 ∧ ((t.tw b).ctl.map fun j => j.onBus) = some false ∧ t.rW b Kw.twCtlTries = 0 ∧ t.rW b Kw.twCtlResult
    = 1 ∧ WroteOnly [keyW b Kw.twCtlResult, keyW b Kw.twCtlDone, keyW b Kw.twCtlTries, keyW b Kw.twState] s t ∧ Only [.od, .tws,
    .answer, .pins] s t) ∧
  (∀ (b : Bus) (j : TwJob) (s : State), (s.tw b).ctl = some j → j.onBus = false → ∃ t, exec (.twCtlAbort b) s = .next t ∧ t.answer = 0
    ∧ t.tw b = { s.tw b with ctl := none } ∧ t.rW b Kw.twCtlResult = 9 ∧ t.rW b Kw.twCtlDone = 0 ∧ WroteOnly [keyW b Kw.twCtlResult,
    keyW b Kw.twCtlDone, keyW b Kw.twState] s t ∧ Only [.od, .tws, .answer, .pins] s t) ∧
  (∀ (b : Bus) (j : TwJob) (s : State), (s.tw b).ctl = some j → j.onBus = true → ∃ t, exec (.twCtlAbort b) s = .next t ∧ t.answer = 0 ∧
    t.tw b = { s.tw b with ctl := some { j with aborting := true } } ∧ WroteOnly [keyW b Kw.twState] s t ∧ Only [.od, .tws, .answer,
    .pins] s t) ∧
  (∀ (b : Bus) (s : State), (s.tw b).ctl = none → exec (.twCtlAbort b) s = .next (settle (s.reply 0))) ∧
  (∀ (b : Bus) (j : TwJob) (s : State), (s.tw b).ctl = some j → j.onBus = false → ∃ t, exec (.twBusFree b false) s = .next t ∧ t.tw b =
    { s.tw b with busy := true, tgt := .idle, ctl := some { j with onBus := true } } ∧ 0 ≤ t.rW b Kw.twLines ∧ t.rW b Kw.twLines ≤ 3 ∧
    t.rW b Kw.twState = 3 ∧ t.rW b Kw.twCtlTries = s.rW b Kw.twCtlTries + 1 ∧ WroteOnly [keyW b Kw.twLines, keyW b Kw.twState, keyW b
    Kw.twCtlTries] s t ∧ Only [.od, .fresh, .tws, .pins] s t) ∧
  (∀ (b : Bus) (s : State), (s.tw b).ctl = none → ∃ t, exec (.twBusFree b false) s = .next t ∧ t.tw b =
    { s.tw b with busy := false, tgt := .idle } ∧ t.rW b Kw.twLines = 3 ∧ t.rW b Kw.twState = 0 ∧ WroteOnly [keyW b Kw.twLines, keyW b
    Kw.twState] s t ∧ Only [.od, .tws, .pins] s t) ∧
  (∀ (b : Bus) (s : State), ∃ t, exec (.twBusFree b true) s = .next t ∧ t.tw b = { s.tw b with busy := true, tgt := .idle } ∧ 0 ≤ t.rW
    b Kw.twLines ∧ t.rW b Kw.twLines ≤ 3 ∧ WroteOnly [keyW b Kw.twLines, keyW b Kw.twState] s t ∧ Only [.od, .fresh, .tws, .pins] s t) ∧
  (∀ (b : Bus) (j : TwJob) (s : State), (s.tw b).ctl = some j → j.onBus = false → 0 ≤ s.rW b Kw.twCtlDone → ∃ t, exec
    (.twBusBusyTimeout b) s = .next t ∧ t.tw b = { s.tw b with ctl := none } ∧ t.rW b Kw.twCtlResult = 8 ∧ t.rW b Kw.twCtlDone = s.rW b
    Kw.twCtlDone ∧ WroteOnly [keyW b Kw.twCtlResult, keyW b Kw.twState] s t ∧ Only [.od, .tws, .pins] s t) ∧
  (∀ (b : Bus) (j : TwJob) (s : State), (s.tw b).ctl = some j → j.onBus = true → exec (.twBusBusyTimeout b) s = .next (settle s)) ∧
  (∀ (b : Bus) (o : TwEnd) (j : TwJob) (d : List Byte) (s : State), (s.tw b).ctl = some j → j.onBus = true → j.aborting = false → o =
    .ok d → ∃ t, exec (.twCtlComplete b o) s = .next t ∧ t.tw b = { s.tw b with ctl := none } ∧ t.rW b Kw.twCtlResult = 2 ∧ t.rW b
    Kw.twCtlDone = j.wdata.length ∧ t.rdB (keyW b Kw.twCtlRdata) = ((d.map BitVec.toNat).take j.rlen ++ List.replicate 64 0).take 64 ∧
    t.rW b Kw.twLines = 3 ∧ WroteOnly [keyW b Kw.twCtlResult, keyW b Kw.twCtlDone, keyW b Kw.twState, keyW b Kw.twLines] s t ∧ Only
    [.od, .blob, .tws, .pins] s t) ∧
  (∀ (b : Bus) (o : TwEnd) (j : TwJob) (s : State), (s.tw b).ctl = some j → j.onBus = true → j.aborting = false → o = .nackAddr false →
    ∃ t, exec (.twCtlComplete b o) s = .next t ∧ t.rW b Kw.twCtlResult = 3 ∧ t.rW b Kw.twCtlDone = 0 ∧ t.tw b =
    { s.tw b with ctl := none } ∧ t.rW b Kw.twLines = 3 ∧ WroteOnly [keyW b Kw.twCtlResult, keyW b Kw.twCtlDone, keyW b Kw.twState,
    keyW b Kw.twLines] s t ∧ Only [.od, .tws, .pins] s t) ∧
  (∀ (b : Bus) (o : TwEnd) (j : TwJob) (s : State), (s.tw b).ctl = some j → j.onBus = true → j.aborting = false → o = .nackAddr true →
    0 < j.rlen → ∃ t, exec (.twCtlComplete b o) s = .next t ∧ t.rW b Kw.twCtlResult = 3 ∧ t.rW b Kw.twCtlDone = j.wdata.length ∧ t.tw b
    = { s.tw b with ctl := none } ∧ WroteOnly [keyW b Kw.twLines, keyW b Kw.twCtlResult, keyW b Kw.twCtlDone, keyW b Kw.twState] s t ∧
    Only [.od, .tws, .pins] s t) ∧
  (∀ (b : Bus) (o : TwEnd) (j : TwJob) (k : Nat) (s : State), (s.tw b).ctl = some j → j.onBus = true → j.aborting = false → o =
    .nackData k → ∃ t, exec (.twCtlComplete b o) s = .next t ∧ t.rW b Kw.twCtlResult = 4 ∧ t.rW b Kw.twCtlDone = min k j.wdata.length ∧
    t.tw b = { s.tw b with ctl := none } ∧ t.rW b Kw.twLines = 3 ∧ WroteOnly [keyW b Kw.twCtlResult, keyW b Kw.twCtlDone, keyW b
    Kw.twState, keyW b Kw.twLines] s t ∧ Only [.od, .tws, .pins] s t) ∧
  (∀ (b : Bus) (o : TwEnd) (j : TwJob) (s : State), (s.tw b).ctl = some j → j.onBus = true → j.aborting = true → ∃ t, exec
    (.twCtlComplete b o) s = .next t ∧ t.rW b Kw.twCtlResult = 9 ∧ t.tw b = { s.tw b with ctl := none } ∧ t.rW b Kw.twLines = 3 ∧
    WroteOnly [keyW b Kw.twCtlResult, keyW b Kw.twCtlDone, keyW b Kw.twState, keyW b Kw.twLines] s t) ∧
  (∀ (b : Bus) (o : TwEnd) (s : State), (s.tw b).ctl = none → exec (.twCtlComplete b o) s = .next (settle s)) ∧
  (∀ (b : Bus) (byte : Nat) (bit0 : Fin 8) (mine : Option Bool) (j : TwJob) (s : State), (s.tw b).ctl = some j → j.onBus = true →
    j.aborting = false → 0 < j.retries → mine = none → ∃ t, exec (.twArbLost b byte bit0 mine) s = .next t ∧ t.tw b =
    { s.tw b with busy := true, ctl := some { j with onBus := false, retries := j.retries - 1 } } ∧ t.rW b Kw.twArbPos = (byte % 256 +
    256 * bit0.val : Nat) ∧ t.rW b (Kw.twCount + 1) = satInc (s.rW b (Kw.twCount + 1)) u32Max ∧ bit (t.rW b Kw.twFlags) 3 = true ∧
    WroteOnly [keyW b Kw.twArbPos, keyW b (Kw.twCount + 1), keyW b Kw.twFlags, keyW b Kw.twState] s t ∧ Only [.od, .tws, .pins] s t) ∧
  (∀ (b : Bus) (byte : Nat) (bit0 : Fin 8) (mine : Option Bool) (j : TwJob) (s : State), (s.tw b).ctl = some j → j.onBus = true →
    j.aborting = false → j.retries = 0 → byte ≠ 0 → ∃ t, exec (.twArbLost b byte bit0 mine) s = .next t ∧ t.tw b =
    { s.tw b with ctl := none } ∧ t.rW b Kw.twCtlResult = 5 ∧ t.rW b Kw.twCtlDone = (min (byte - 1) j.wdata.length : Nat) ∧ bit (t.rW b
    Kw.twFlags) 3 = true ∧ Only [.od, .tws, .pins] s t) ∧
  (∀ (b : Bus) (byte : Nat) (bit0 : Fin 8) (mine : Option Bool) (j : TwJob) (rd : Bool) (s : State), (s.tw b).ctl = some j → j.onBus =
    true → j.aborting = false → 0 < j.retries → byte = 0 → mine = some rd → bit (s.rW b Kw.twRole) 0 = true → bit (s.rW b Kw.twFlags) 2
    = false → 2 ≤ s.rW b Kw.twAddr → ∃ t, exec (.twArbLost b byte bit0 mine) s = .next t ∧ (t.tw b).tgt = (if rd then .tx else .rx) ∧
    t.rW b Kw.twState = (if rd then 2 else 1) ∧ Only [.od, .tws, .pins] s t) ∧
  (∀ (b : Bus) (byte : Nat) (bit0 : Fin 8) (mine : Option Bool) (j : TwJob) (s : State), (s.tw b).ctl = some j → j.onBus = true →
    j.aborting = false → 0 < j.retries → (byte ≠ 0 ∨ mine = none ∨ bit (s.rW b Kw.twRole) 0 = false ∨ bit (s.rW b Kw.twFlags) 2 = true
    ∨ s.rW b Kw.twAddr < 2) → ∃ t, exec (.twArbLost b byte bit0 mine) s = .next t ∧ t.tw b =
    { s.tw b with busy := true, ctl := some { j with onBus := false, retries := j.retries - 1 } } ∧ bit (t.rW b Kw.twFlags) 3 = true ∧
    Only [.od, .tws, .pins] s t) ∧
  (∀ (b : Bus) (byte : Nat) (bit0 : Fin 8) (mine : Option Bool) (s : State), (s.tw b).ctl = none → exec (.twArbLost b byte bit0 mine) s
    = .next (settle s)) ∧
  (∀ (b : Bus) (acked : Nat) (j : TwJob) (s : State), (s.tw b).ctl = some j → j.onBus = true → ∃ t, exec (.twCondLost b acked) s =
    .next t ∧ t.tw b = { s.tw b with ctl := none } ∧ t.rW b Kw.twCtlResult = 6 ∧ t.rW b Kw.twCtlDone = (min acked j.wdata.length : Nat)
    ∧ t.rW b (Kw.twCount + 2) = satInc (s.rW b (Kw.twCount + 2)) u32Max ∧ bit (t.rW b Kw.twFlags) 4 = true ∧ WroteOnly [keyW b
    Kw.twCtlResult, keyW b Kw.twCtlDone, keyW b (Kw.twCount + 2), keyW b Kw.twFlags, keyW b Kw.twState] s t ∧ Only [.od, .tws, .pins] s
    t) ∧
  (∀ (b : Bus) (acked : Nat) (s : State), (s.tw b).ctl = none → exec (.twCondLost b acked) s = .next (settle s)) ∧
  (∀ (b : Bus) (s : State), (s.src (twSrc b)).part ≠ [] → ∃ t, exec (.twTargetStartAtAck b) s = .next t ∧ (t.tw b) =
    { s.tw b with tgt := .idle } ∧ (t.src (twSrc b)).part = [] ∧ t.rd (K.dfErr + 2 + b.val) = satInc (s.rd (K.dfErr + 2 + b.val))
    u32Max ∧ t.rW b Kw.twCount = satInc (s.rW b Kw.twCount) u32Max ∧ bit (t.rW b Kw.twFlags) 6 = true ∧ WroteOnly [K.dfErr + 2 + b.val,
    keyW b Kw.twCount, keyW b Kw.twFlags, keyW b Kw.twState] s t ∧ Only [.od, .srcs, .tws, .pins] s t) ∧
  (∀ (b : Bus) (s : State), (s.src (twSrc b)).part = [] → ∃ t, exec (.twTargetStartAtAck b) s = .next t ∧ (t.tw b) =
    { s.tw b with tgt := .idle } ∧ bit (t.rW b Kw.twFlags) 6 = true ∧ WroteOnly [keyW b Kw.twCount, keyW b Kw.twFlags, keyW b
    Kw.twState] s t ∧ Only [.od, .tws, .pins] s t) ∧
  (∀ (b : Bus) (byte : Nat) (j : TwJob) (s : State), (s.tw b).ctl = some j → j.onBus = true → j.aborting = false → 0 < j.retries → ∃ t,
    exec (.twCtlStartAtAck b byte) s = .next t ∧ t.rW b Kw.twCount = satInc (s.rW b Kw.twCount) u32Max ∧ t.rW b (Kw.twCount + 1) =
    satInc (s.rW b (Kw.twCount + 1)) u32Max ∧ bit (t.rW b Kw.twFlags) 6 = true ∧ t.rW b Kw.twArbPos = (byte % 256 + 256 * 8 : Nat) ∧
    t.tw b = { s.tw b with busy := true, ctl := some { j with onBus := false, retries := j.retries - 1 } } ∧ Only [.od, .tws, .pins] s
    t) ∧
  (∀ (b : Bus) (byte : Nat) (s : State), (s.tw b).ctl = none → exec (.twCtlStartAtAck b byte) s = .next (settle s)) ∧
  (∀ (b : Bus) (k : Nat) (j : TwJob) (s : State), (s.tw b).ctl = some j → j.onBus = true → ∃ t, exec (.twStretchTimeout b k) s = .next
    t ∧ t.tw b = { s.tw b with busy := true, tgt := .idle, ctl := none } ∧ t.rW b Kw.twCtlResult = 7 ∧ t.rW b (Kw.twCount + 3) = satInc
    (s.rW b (Kw.twCount + 3)) u32Max ∧ bit (t.rW b Kw.twFlags) 5 = true ∧ (t.src (twSrc b)).part = [] ∧ t.rW b Kw.twCtlDone = (min k
    j.wdata.length : Nat) ∧ Only [.od, .fresh, .srcs, .tws, .pins] s t) ∧
  (∀ (b : Bus) (k : Nat) (s : State), (s.tw b).ctl = none → exec (.twStretchTimeout b k) s = .next (settle s)) ∧
  (∀ (b : Bus) (k : Nat) (s : State), (s.tw b).ctl = none → ∃ t, exec (.twSclLowTimeout b k) s = .next t ∧ t.tw b =
    { s.tw b with tgt := .idle } ∧ bit (t.rW b Kw.twFlags) 0 = true ∧ bit (t.rW b Kw.twLines) 0 = false ∧ t.rW b (Kw.twCount + 4) =
    satInc (s.rW b (Kw.twCount + 4)) u32Max ∧ WroteOnly [keyW b Kw.twFlags, keyW b Kw.twLines, keyW b (Kw.twCount + 4), keyW b
    Kw.twState] s t ∧ Only [.od, .tws, .pins] s t) ∧
  (∀ (b : Bus) (k : Nat) (j : TwJob) (s : State), (s.tw b).ctl = some j → j.onBus = true → ∃ t, exec (.twSclLowTimeout b k) s = .next t
    ∧ t.tw b = { s.tw b with tgt := .idle, ctl := none } ∧ t.rW b Kw.twCtlResult = 7 ∧ bit (t.rW b Kw.twFlags) 0 = true ∧ t.rW b
    Kw.twCtlDone = (min k j.wdata.length : Nat) ∧ Only [.od, .fresh, .tws, .pins] s t) ∧
  (∀ (b : Bus) (freed : Bool) (k : Nat) (s : State), (s.tw b).ctl = none → ∃ t, exec (.twSdaLowTimeout b freed k) s = .next t ∧ t.tw b
    = { s.tw b with tgt := .idle } ∧ bit (t.rW b Kw.twFlags) 1 = true ∧ bit (t.rW b Kw.twLines) 1 = (decide (s.rW b Kw.twBusClear = 1)
    && bit (s.rW b Kw.twRole) 1 && freed) ∧ t.rW b (Kw.twCount + 5) = satInc (s.rW b (Kw.twCount + 5)) u32Max ∧ WroteOnly [keyW b
    Kw.twFlags, keyW b Kw.twLines, keyW b (Kw.twCount + 5), keyW b Kw.twState] s t ∧ Only [.od, .tws, .pins] s t) ∧
  (∀ (b : Bus) (s : State), ∃ t, exec (.twCmdClearFlags b) s = .next t ∧ t.answer = 0 ∧ (∀ i : Fin 8, bit (t.rW b Kw.twFlags) i.val =
    (decide (i = 2) && bit (s.rW b Kw.twFlags) 2)) ∧ WroteOnly [keyW b Kw.twFlags] s t ∧ Only [.od, .answer, .pins] s t) ∧
  (∀ (b : Bus) (s : State), ∃ t, exec (.twCmdClearCounters b) s = .next t ∧ t.answer = 0 ∧ (∀ i : Fin 6, t.rW b (Kw.twCount + i.val) =
    0) ∧ WroteOnly ((List.range 6).map fun i => keyW b (Kw.twCount + i)) s t ∧ Only [.od, .answer, .pins] s t)

/-- A boot runs once after a reset: it is held with code 6, 4 or 5 where the ROM, a region or a critical field fails, and enters the
loader where neither chip select has a wall or no slot is valid. The security commands start their burns, or are BUSY, refused or
not ready. DROP_TOKEN and the expiry end what a token gave. An image is erased, written in chunks and verified in the spare slot,
which stays marked as being written until it verifies. The debug port halts a core that executes only where it is open; EXTEST needs
its own conditions. Rests on 15 R404, 15 R406, 15 R407, 15 R409, 15 R410, 15 R411, 15 R412, 15 R413, 15 R415, 15 R416, 15 R417, 15
R420. -/
def Obligations.BootAndSecurity : Prop :=
  (∀ (rom : Bool) (cs0 : Option WallFound) (cs1 : Option WallFound) (copyOk : Bool) (s : State), s.bootDue = true → rom = false → ∃ t,
    exec (.deviceBoot rom cs0 cs1 copyOk) s = .next t ∧ t.sec = { s.sec with stat := 6, held := true } ∧ Only [.sec, .pins] s t) ∧
  (∀ (rom : Bool) (cs0 : Option WallFound) (cs1 : Option WallFound) (copyOk : Bool) (s : State), s.bootDue = false → exec (.deviceBoot
    rom cs0 cs1 copyOk) s = .next (settle s)) ∧
  (∀ (rom : Bool) (cs0 : Option WallFound) (cs1 : Option WallFound) (copyOk : Bool) (s : State), s.bootDue = true → rom = true → ∃ t,
    exec (.deviceBoot rom cs0 cs1 copyOk) s = .next t ∧ (((State.scanOtp { s with sec := { s.sec with stat := 1 } }).region 0 = 4 ∨
    (State.scanOtp { s with sec := { s.sec with stat := 1 } }).region 1 = 4) → t.sec = { s.sec with stat := 4, held := true }) ∧
    (((State.scanOtp { s with sec := { s.sec with stat := 1 } }).region 0 ≠ 4 ∧ (State.scanOtp
    { s with sec := { s.sec with stat := 1 } }).region 1 ≠ 4 ∧ ∃ f ∈ criticalFields, ((State.scanOtp
    { s with sec := { s.sec with stat := 1 } }).fieldVote f).isNone = true) → t.sec = { s.sec with stat := 5, held := true })) ∧
  (∀ (rom : Bool) (cs0 : Option WallFound) (cs1 : Option WallFound) (copyOk : Bool) (s : State), s.bootDue = true → rom = true → cs0 =
    none → cs1 = none → (State.scanOtp { s with sec := { s.sec with stat := 1 } }).region 0 ≠ 4 → (State.scanOtp
    { s with sec := { s.sec with stat := 1 } }).region 1 ≠ 4 → (∀ f ∈ criticalFields, ((State.scanOtp
    { s with sec := { s.sec with stat := 1 } }).fieldVote f).isSome = true) → ∃ t, exec (.deviceBoot rom cs0 cs1 copyOk) s = .next t ∧
    t.sec.stat = 3 ∧ t.sec.loader = true ∧ t.recorder.noWall = true ∧ t.rd K.bootSlot = 0xFF ∧ t.rd K.wallSize = 0) ∧
  (∀ (vpp : Bool) (s : State), s.sec.loader = false → s.otp.job = none → bit (s.rd K.bootFlags) 1 = false → vpp = true → ∃ t, exec
    (.secCmdAdvanceFloors vpp) s = .next t ∧ t.answer = 0 ∧ t.otp =
    { s.otp with job := some (.floors (s.rd K.keeperSvn).toNat (s.rd K.engineSvn).toNat), stopped := s.recorder.powerFail } ∧ fieldOf
    (t.rd K.otpStat) 0 4 = 1 ∧ WroteOnly [K.otpStat] s t ∧ Only [.od, .otp, .answer, .pins] s t) ∧
  (∀ (vpp : Bool) (s : State), (s.sec.loader = true ∨ s.otp.job.isSome = true) → bit (s.rd K.bootFlags) 1 = false → exec
    (.secCmdAdvanceFloors vpp) s = .next (settle (s.reply 1))) ∧
  (∀ (vpp : Bool) (s : State), bit (s.rd K.bootFlags) 1 = true → exec (.secCmdAdvanceFloors vpp) s = .next (settle (s.reply 4))) ∧
  (∀ (vpp : Bool) (h : List Nat) (s : State), s.otp.job = none → s.imageSlot < 3 → s.keySlot 0x100 (s.imageSlot + 1) = some h →
    s.sec.imageKey = some h → vpp = true → ∃ t, exec (.secCmdRotateImageKey vpp) s = .next t ∧ t.answer = 0 ∧ t.otp =
    { s.otp with job := some (.advance 4), stopped := s.recorder.powerFail } ∧ fieldOf (t.rd K.otpStat) 0 4 = 1 ∧ WroteOnly [K.otpStat]
    s t ∧ Only [.od, .otp, .answer, .pins] s t) ∧
  (∀ (vpp : Bool) (s : State), s.otp.job = none → (s.imageSlot = 3 ∨ s.sec.imageKey ≠ s.keySlot 0x100 (s.imageSlot + 1)) → exec
    (.secCmdRotateImageKey vpp) s = .next (settle (s.reply 3))) ∧
  (∀ (vpp : Bool) (s : State), s.otp.job.isSome = true → exec (.secCmdRotateImageKey vpp) s = .next (settle (s.reply 1))) ∧
  (∀ (vpp : Bool) (s : State), s.otp.job = none → counterValue s.otp.cells 3 < 256 → vpp = true → ∃ t, exec (.secCmdRevokeTokens vpp) s
    = .next t ∧ t.answer = 0 ∧ t.otp = { s.otp with job := some (.advance 3), stopped := s.recorder.powerFail } ∧ fieldOf (t.rd
    K.otpStat) 0 4 = 1 ∧ WroteOnly [K.otpStat] s t ∧ Only [.od, .otp, .answer, .pins] s t) ∧
  (∀ (vpp : Bool) (s : State), s.otp.job.isSome = true → exec (.secCmdRevokeTokens vpp) s = .next (settle (s.reply 1))) ∧
  (∀ (c : Transport) (s : State), (tget s.sec.l3 c).isSome = true → s.rd (K.sessionLevel + c.val) = 3 → ∃ t, exec .secCmdDropToken s =
    .next t ∧ t.answer = 0 ∧ (∀ q : Transport, tget t.sec.l3 q = none) ∧ t.sec.jtagUntil = none ∧ t.rd (K.sessionLevel + c.val) = 2 ∧
    t.rd K.tokenScope = 0 ∧ t.rd K.tokenExpiry = 0 ∧ (s.rd K.lifecycle ≠ 0 → ∀ x : CoreId, tget t.sec.halted x = false) ∧ WroteOnly
    [K.sessionLevel, K.sessionLevel + 1, K.sessionLevel + 2, K.sessionLevel + 3, K.tokenScope, K.tokenExpiry] s t ∧ Only [.od, .sec,
    .answer, .pins] s t) ∧
  (∀ (c : Transport) (n : Nat) (s : State), tget s.sec.l3 c = some n → (∀ q : Transport, q ≠ c → tget s.sec.l3 q = none) →
    s.sec.jtagUntil = none → s.rd (K.sessionLevel + c.val) = 3 → n ≤ (s.rd K.opSeconds).toNat → ∃ t, exec .tokenExpiry s = .next t ∧
    tget t.sec.l3 c = none ∧ t.rd (K.sessionLevel + c.val) = 2 ∧ t.rd K.tokenScope = 0 ∧ t.rd K.tokenExpiry = 0 ∧ WroteOnly
    [K.sessionLevel + c.val, K.tokenScope, K.tokenExpiry] s t ∧ Only [.od, .sec, .pins] s t) ∧
  (∀ (s : State), (∀ q : Transport, ∀ n ∈ tget s.sec.l3 q, (s.rd K.opSeconds).toNat < n) → (∀ n ∈ s.sec.jtagUntil, (s.rd
    K.opSeconds).toNat < n) → (s.rd K.tokenExpiry = 0 ∨ ((s.rd K.opSeconds).toNat : Int) < s.rd K.tokenExpiry) → exec .tokenExpiry s =
    .next (settle s)) ∧
  (∀ (s : State), s.recorder.noWall = false → s.rd K.imgState ≠ 1 → ∃ t, exec .imgCmdErase s = .next t ∧ t.answer = 0 ∧ t.rd K.imgState
    = 1 ∧ t.recorder = { s.recorder with wall := erase s.recorder.wall (slotBase (spareSlot s)) 0x400000 } ∧ WroteOnly [K.imgState] s t
    ∧ t.nvm = { s.nvm with imgOpen := some (spareSlot s) } ∧ Only [.od, .recorder, .nvm, .answer, .pins] s t) ∧
  (∀ (s : State), s.recorder.noWall = true → exec .imgCmdErase s = .next (settle (s.reply 3))) ∧
  (∀ (s : State), s.recorder.noWall = false → s.rd K.imgState = 1 → exec .imgCmdErase s = .next (settle (s.reply 1))) ∧
  (∀ (s : State), s.rd K.imgState = 1 → ∃ t, exec .imgEraseDone s = .next t ∧ t.rd K.imgState = 2 ∧ WroteOnly [K.imgState] s t ∧ Only
    [.od, .pins] s t) ∧
  (∀ (s : State), s.rd K.imgState ≠ 1 → exec .imgEraseDone s = .next (settle s)) ∧
  (∀ (off : Nat) (octets : List Byte) (n : Nat) (s : State), off % 1024 = 0 → off < 0x400000 → s.recorder.noWall = false → s.rd
    K.imgState ≠ 1 → n = (slotBase (spareSlot s) + off) / 1024 → octets.length = 1024 → ∃ t, exec (.imgChunk off octets) s = .next t ∧
    t.answer = 0 ∧ t.rd K.imgState = 3 ∧ t.recorder =
    { s.recorder with wall := putPage s.recorder.wall n (fitOctets 1024 (octets.map BitVec.toNat)) } ∧ WroteOnly [K.imgState] s t ∧
    t.nvm = { s.nvm with imgOpen := some (spareSlot s) } ∧ Only [.od, .recorder, .nvm, .answer, .pins] s t) ∧
  (∀ (off : Nat) (octets : List Byte) (s : State), (off % 1024 ≠ 0 ∨ 0x400000 ≤ off) → exec (.imgChunk off octets) s = .next (settle
    (s.reply 2))) ∧
  (∀ (s : State), s.rd K.imgState ≠ 1 → ∃ t, exec .imgCmdVerify s = .next t ∧ t.answer = 0 ∧ t.rd K.imgState = (if slotValid s
    (spareSlot s) then 4 else 5) ∧ WroteOnly [K.imgState] s t ∧ t.nvm = (if slotValid s (spareSlot s) then
    { s.nvm with imgOpen := none } else s.nvm) ∧ Only [.od, .nvm, .answer, .pins] s t) ∧
  (∀ (s : State), s.rd K.imgState = 1 → exec .imgCmdVerify s = .next (settle (s.reply 1))) ∧
  (∀ (i : TapIns) (s : State), i ≠ .extest → ∃ t, exec (.jtagTapInstruction i) s = .next t ∧ t.sec = { s.sec with tap := i } ∧ Only
    [.sec, .pins] s t) ∧
  (∀ (i : TapIns) (s : State), i = .extest → ∃ t, exec (.jtagTapInstruction i) s = .next t ∧ t.sec =
    { s.sec with tap := if s.extestOk then .extest else .bypass } ∧ Only [.sec, .pins] s t) ∧
  (∀ (c : CoreId) (s : State), s.debugOpen = true → s.coreOn c = true → (s.core c).posted = [] → exec (.debugHalt c) s = .next (settle
    ((s.setCore c (s.core c).flushed).setHalted c true))) ∧
  (∀ (c : CoreId) (s : State), (s.debugOpen = false ∨ s.coreOn c = false) → exec (.debugHalt c) s = .next (settle s)) ∧
  (∀ (c : CoreId) (mem : List (BitVec 32 × BitVec 32)) (s : State), s.debugOpen = true → tget s.sec.halted c = true → exec
    (.debugResume c mem) s = .next (settle ((s.setCore c (mem.foldl (CoreHw.debugWrite c) (s.core c))).setHalted c false))) ∧
  (∀ (c : CoreId) (mem : List (BitVec 32 × BitVec 32)) (s : State), s.debugOpen = false → exec (.debugResume c mem) s = .next (settle
    s)) ∧
  (∀ (rom : Bool) (cs0 cs1 : Option WallFound) (copyOk : Bool) (s u : State), s.bootDue = true → rom = true → (State.scanOtp
    { s with sec := { s.sec with stat := 1 } }).region 0 ≠ 4 → (State.scanOtp { s with sec := { s.sec with stat := 1 } }).region 1 ≠ 4
    → (∀ f ∈ criticalFields, ((State.scanOtp { s with sec := { s.sec with stat := 1 } }).fieldVote f).isSome = true) → u =
    ((criticalFields.foldl State.driveField (State.scanOtp
    { s with sec := { s.sec with stat := 1 } })).loadOtp.loadControl.newChallenge).findWall cs0 cs1 → u.recorder.noWall = false →
    slotValid u 0 = false → slotValid u 1 = false → ∃ t, exec (.deviceBoot rom cs0 cs1 copyOk) s = .next t ∧ t.sec.stat = 3 ∧
    t.sec.loader = true ∧ t.recorder.noWall = false ∧ t.rd K.bootSlot = 0xFF)

/-- A command starts with RESULT 1 and ATTEMPTS and REASON 0, and its job waits for its end; while one runs another answers BUSY and
changes nothing. A read of the device secrets is refused PROTECTED. Programming needs a blank word that nothing bars, repair a
damaged one, finalising all required words good, an advance an integrator counter below its top; a refusal shows its REASON.
LOCK_APP bits written 1 are set and stay. The pump stops only when no burning command runs. A read that ends shows the word and its
state, a program command that verifies leaves the word good with its value. Rests on 16 R424, 16 R431, 16 R432, 16 R433, 16 R435, 16
R436, 16 R439, 16 R442, 15 R409. -/
def Obligations.OtpCommands : Prop :=
  (∀ (via : OtpVia) (a : Nat) (s : State), (via = .debug → s.debugOpen = true) → s.otp.job = none → a = (s.rd K.otpAddr).toNat % 4096 →
    ¬(0x27 ≤ a ∧ a ≤ 0x3E) → ∃ t, exec (.otpCmdRead via) s = .next t ∧ t.otp =
    { s.otp with job := some (.read a), stopped := s.recorder.powerFail } ∧ fieldOf (t.rd K.otpStat) 0 4 = 1 ∧ fieldOf (t.rd K.otpStat)
    12 4 = 0 ∧ WroteOnly [K.otpStat] s t ∧ Only [.od, .otp, .pins] s t) ∧
  (∀ (via : OtpVia) (s : State), (via = .debug → s.debugOpen = true) → s.otp.job = none → 0x27 ≤ (s.rd K.otpAddr).toNat % 4096 → (s.rd
    K.otpAddr).toNat % 4096 ≤ 0x3E → ∃ t, exec (.otpCmdRead via) s = .next t ∧ t.answer = 7 ∧ fieldOf (t.rd K.otpStat) 0 4 = 5 ∧
    fieldOf (t.rd K.otpStat) 12 4 = 5 ∧ WroteOnly [K.otpStat] s t ∧ Only [.od, .answer, .pins] s t) ∧
  (∀ (via : OtpVia) (s : State), (via = .debug → s.debugOpen = true) → s.otp.job.isSome = true → exec (.otpCmdRead via) s = .next
    (settle (s.reply 1))) ∧
  (∀ (via : OtpVia) (raw : Bool) (vpp : Bool) (a : Nat) (s : State), (via = .debug → s.debugOpen = true) → s.otp.job = none → a = (s.rd
    K.otpAddr).toNat % 4096 → burnBar s via a false = none → digestWord a = false → (wordAt s.otp.cells a).st = .blank → vpp = true → ∃
    t, exec (.otpCmdProgram via raw vpp) s = .next t ∧ t.otp =
    { s.otp with job := some (.program a (s.rd K.otpData).toNat), stopped := s.recorder.powerFail } ∧ fieldOf (t.rd K.otpStat) 0 4 = 1
    ∧ bit (t.rd K.otpStat) 16 = true ∧ WroteOnly [K.otpStat] s t ∧ Only [.od, .otp, .pins] s t) ∧
  (∀ (via : OtpVia) (raw : Bool) (vpp : Bool) (a : Nat) (r : Nat) (s : State), (via = .debug → s.debugOpen = true) → s.otp.job = none →
    a = (s.rd K.otpAddr).toNat % 4096 → burnBar s via a false = some r → r < 16 → ∃ t, exec (.otpCmdProgram via raw vpp) s = .next t ∧
    t.answer = 4 ∧ fieldOf (t.rd K.otpStat) 0 4 = 5 ∧ fieldOf (t.rd K.otpStat) 12 4 = r ∧ WroteOnly [K.otpStat] s t ∧ Only [.od,
    .answer, .pins] s t) ∧
  (∀ (via : OtpVia) (raw : Bool) (vpp : Bool) (s : State), (via = .debug → s.debugOpen = true) → s.otp.job.isSome = true → exec
    (.otpCmdProgram via raw vpp) s = .next (settle (s.reply 1))) ∧
  (∀ (via : OtpVia) (vpp : Bool) (a : Nat) (s : State), (via = .debug → s.debugOpen = true) → s.otp.job = none → a = (s.rd
    K.otpAddr).toNat % 4096 → burnBar s via a true = none → lockedRegion a = none → (wordAt s.otp.cells a).st = .bad → vpp = true → ∃
    t, exec (.otpCmdRepair via vpp) s = .next t ∧ t.otp =
    { s.otp with job := some (.repair a (s.rd K.otpData).toNat), stopped := s.recorder.powerFail } ∧ fieldOf (t.rd K.otpStat) 0 4 = 1 ∧
    bit (t.rd K.otpStat) 16 = true ∧ WroteOnly [K.otpStat] s t ∧ Only [.od, .otp, .pins] s t) ∧
  (∀ (via : OtpVia) (vpp : Bool) (a : Nat) (s : State), (via = .debug → s.debugOpen = true) → s.otp.job = none → a = (s.rd
    K.otpAddr).toNat % 4096 → burnBar s via a true = none → (wordAt s.otp.cells a).st = .good → ∃ t, exec (.otpCmdRepair via vpp) s =
    .next t ∧ t.answer = 4 ∧ fieldOf (t.rd K.otpStat) 0 4 = 5 ∧ fieldOf (t.rd K.otpStat) 12 4 = 3 ∧ WroteOnly [K.otpStat] s t ∧ Only
    [.od, .answer, .pins] s t) ∧
  (∀ (via : OtpVia) (arg : Fin 32) (vpp : Bool) (r : Fin 4) (s : State), (via = .debug → s.debugOpen = true) → s.otp.job = none →
    s.otpArgOf via arg = r.val → burnBar s via (regionSpan r).1 false = none → s.finalised r = false → (requiredWords r).all (fun a =>
    decide ((wordAt s.otp.cells a).st = .good)) = true → ((regionWords r).all (fun a => decide ((wordAt s.otp.cells a).st = .good ∨
    (wordAt s.otp.cells a).st = .blank)) = true) → vpp = true → ∃ t, exec (.otpCmdFinalise via arg vpp) s = .next t ∧ t.otp =
    { s.otp with job := some (.finalise r), stopped := s.recorder.powerFail } ∧ fieldOf (t.rd K.otpStat) 0 4 = 1 ∧ WroteOnly
    [K.otpStat] s t ∧ Only [.od, .otp, .pins] s t) ∧
  (∀ (via : OtpVia) (arg : Fin 32) (vpp : Bool) (s : State), (via = .debug → s.debugOpen = true) → s.otp.job = none → 4 ≤ s.otpArgOf
    via arg → ∃ t, exec (.otpCmdFinalise via arg vpp) s = .next t ∧ t.answer = 2 ∧ fieldOf (t.rd K.otpStat) 0 4 = 5 ∧ WroteOnly
    [K.otpStat] s t ∧ Only [.od, .answer, .pins] s t) ∧
  (∀ (via : OtpVia) (arg : Fin 32) (vpp : Bool) (k : Fin 32) (s : State), (via = .debug → s.debugOpen = true) → s.otp.job = none →
    s.otpArgOf via arg = k.val → 5 ≤ k.val → counterValue s.otp.cells k < 256 → vpp = true → ∃ t, exec (.otpCmdAdvance via arg vpp) s =
    .next t ∧ t.otp = { s.otp with job := some (.advance k), stopped := s.recorder.powerFail } ∧ fieldOf (t.rd K.otpStat) 0 4 = 1 ∧
    WroteOnly [K.otpStat] s t ∧ Only [.od, .otp, .pins] s t) ∧
  (∀ (via : OtpVia) (arg : Fin 32) (vpp : Bool) (s : State), (via = .debug → s.debugOpen = true) → s.otp.job = none → 1 ≤ s.otpArgOf
    via arg → s.otpArgOf via arg ≤ 4 → ∃ t, exec (.otpCmdAdvance via arg vpp) s = .next t ∧ t.answer = 2 ∧ fieldOf (t.rd K.otpStat) 0 4
    = 5 ∧ fieldOf (t.rd K.otpStat) 12 4 = 10 ∧ WroteOnly [K.otpStat] s t ∧ Only [.od, .answer, .pins] s t) ∧
  (∀ (k : Nat) (vpp : Bool) (i : Fin 32) (s : State), s.otp.job = none → k = i.val → 5 ≤ k → counterValue s.otp.cells k < 256 → vpp =
    true → ∃ t, exec (.cntAdvance k vpp) s = .next t ∧ t.otp = { s.otp with job := some (.advance i), stopped := s.recorder.powerFail }
    ∧ fieldOf (t.rd K.otpStat) 0 4 = 1 ∧ WroteOnly [K.otpStat] s t ∧ Only [.od, .otp, .pins] s t) ∧
  (∀ (k : Nat) (vpp : Bool) (s : State), k < 5 → exec (.cntAdvance k vpp) s = .next (settle (s.reply 2))) ∧
  (∀ (s : State), (s.otp.job.all fun j => match j with | .read _ => true | _ => false) = true → ∃ t, exec .otpPumpStop s = .next t ∧
    bit (t.rd K.otpStat) 16 = false ∧ WroteOnly [K.otpStat] s t ∧ Only [.od, .pins] s t) ∧
  (∀ (s : State), (s.otp.job.all fun j => match j with | .read _ => true | _ => false) = false → exec .otpPumpStop s = .next (settle
    s)) ∧
  (∀ (m : BitVec 16) (s : State), 0 ≤ s.rd K.lockApp → ∃ t, exec (.lockAppSet m) s = .next t ∧ (∀ i : Fin 16, bit (t.rd K.lockApp) i =
    (bit (s.rd K.lockApp) i || m.getLsbD i)) ∧ t.answer = 0 ∧ WroteOnly [K.lockApp] s t ∧ Only [.od, .answer, .pins] s t) ∧
  (∀ (burns : List Burn) (a : Nat) (s : State), s.otp.job = some (.read a) → a < 0xF00 → (wordAt s.otp.cells a).st = .good → ∃ t, exec
    (.otpCommandEnd burns) s = .next t ∧ t.rd K.otpData = ((wordAt s.otp.cells a).nom % 2 ^ 32 : Nat) ∧ fieldOf (t.rd K.otpStat) 0 4 =
    2 ∧ fieldOf (t.rd K.otpStat) 4 4 = 1 ∧ t.otp = { s.otp with job := none, stopped := false } ∧ t.answer = 0 ∧ WroteOnly [K.otpData,
    K.otpStat] s t ∧ Only [.od, .io, .otp, .answer, .pins] s t) ∧
  (∀ (burns : List Burn) (a : Nat) (d : Nat) (s : State), s.otp.job = some (.program a d) → burns = [] → s.otp.stopped = false →
    lockedRegion a = none → a < 4096 → placeOf s.otp.cells a = a → cellAt s.otp.cells a = OtpWord.blank → ∃ t, exec (.otpCommandEnd
    burns) s = .next t ∧ cellAt t.otp.cells a = OtpWord.programmed d ∧ t.otp.job = none ∧ fieldOf (t.rd K.otpStat) 0 4 = 2 ∧ fieldOf
    (t.rd K.otpStat) 8 4 = 1 ∧ t.answer = 0 ∧ Only [.od, .blob, .io, .otp, .answer, .pins] s t) ∧
  (∀ (burns : List Burn) (s : State), s.otp.job = none → exec (.otpCommandEnd burns) s = .next (settle s)) ∧
  (∀ (via : OtpVia) (raw : Bool) (vpp : Bool) (s : State), via = .debug → s.debugOpen = false → exec (.otpCmdProgram via raw vpp) s =
    .next (settle s))

/-- A failed block of a link that is up is counted; a lock loss takes the link into link hold with its count and the alert, the port
shadow is held, and nothing of the ports changes. A link that comes up without a reset of its tile, the supply of the tile there and
with nothing waiting for it leaves its ports as they are. A hold that expires declares the tile failed and its ports enter SAFE_OFF.
The reference found, lost, expired in holdover or returned, and a stopped crystal, show in CLK_STATUS and the PLL follows. Rests on
01 R20, 01 R22, 01 R29, 01 R30, 01 R31, 02 R68, 17 R461. -/
def Obligations.ClocksAndLinks : Prop :=
  (∀ (n : Tile) (a : Bool) (b : Bool) (s : State), s.lath n = 0 → a = false → b = false → exec (.lathBlockFail n a b) s = .next (settle
    (s.count (K.lathErr + n.val)))) ∧
  (∀ (n : Tile) (a : Bool) (b : Bool) (s : State), s.lath n = 0 → a = true → b = false → (s.conv (tileConv n false)).withheld = none →
    ∃ t, exec (.lathBlockFail n a b) s = .next t ∧ t.rd (K.lathErr + n.val) = satInc (s.rd (K.lathErr + n.val)) u32Max ∧ (t.conv
    (tileConv n false)).withheld = some (1, s.tb - 30) ∧ t.rV (tileConv n false) Kv.mirrorLost = satInc (s.rV (tileConv n false)
    Kv.mirrorLost) u32Max ∧ (∀ c, c ≠ tileConv n false → t.conv c = s.conv c) ∧ Only [.od, .io, .fresh, .convs, .pins] s t) ∧
  (∀ (n : Tile) (a : Bool) (b : Bool) (s : State), s.lath n ≠ 0 → exec (.lathBlockFail n a b) s = .next (settle s)) ∧
  (∀ (n : Tile) (s : State), s.lath n = 0 → s.asleep 2 = false → ∃ t, exec (.lathLockLoss n) s = .next t ∧ t.lath n = 2 ∧ t.rd
    (K.lathHolds + n.val) = satInc (s.rd (K.lathHolds + n.val)) u16Max ∧ bit (t.rd K.alertSrc) 8 = true ∧ t.tile n =
    { s.tile n with shadow := s.shadowOf n } ∧ (∀ m, m ≠ n → t.lath m = s.lath m ∧ t.tile m = s.tile m) ∧ WroteOnly [K.lathState +
    n.val, K.lathHolds + n.val, K.alertSrc] s t ∧ Only [.od, .tiles, .mets, .pins] s t) ∧
  (∀ (n : Tile) (s : State), s.lath n = 2 → exec (.lathLockLoss n) s = .next (settle s)) ∧
  (∀ (n : Tile) (s : State), s.lath n = 2 → s.power.deg = none → ∃ t, exec (.linkHoldExpiry n) s = .next t ∧ t.lath n = 3 ∧ (∀ p :
    Port, p.val / 8 = n.val → (t.path p).safe = true) ∧ (∀ p : Port, p.val / 8 ≠ n.val → t.path p = s.path p) ∧ bit (t.rd K.alertSrc) 8
    = true) ∧
  (∀ (n : Tile) (s : State), s.lath n = 2 → s.power.deg = some (.resetTile n) → ∃ t, exec (.linkHoldExpiry n) s = .next t ∧ t.lath n =
    3 ∧ t.rd K.degResult = 3 ∧ t.power = { s.power with deg := none } ∧ t.ports = s.ports ∧ t.paths = s.paths) ∧
  (∀ (n : Tile) (s : State), s.lath n = 0 → s.power.deg = none → exec (.linkHoldExpiry n) s = .next (settle s)) ∧
  (∀ (n : Tile) (s : State), s.lath n = 2 → (s.tile n).trst = false → (s.tile n).feOk = true → s.power.deg = none → (s.tile n).news =
    [] → (s.tile n).reqs = [] → (∀ p : Port, p.val / 8 = n.val → (s.port p).held = [] ∧ (s.path p).cut = false ∧ (s.path p).strip =
    none) → ∃ t, exec (.lathLinkUp n) s = .next t ∧ t.lath n = 0 ∧ t.tile n =
    { s.tile n with trst := false, feOk := true, filled := true, shadow := [] } ∧ (∀ p : Port, t.port p = s.port p) ∧ bit (t.rd
    K.alertSrc) 8 = true ∧ WroteOnly [K.lathState + n.val, K.alertSrc] s t ∧ Only [.od, .tiles, .ports, .pins] s t) ∧
  (∀ (n : Tile) (s : State), s.lath n = 0 → exec (.lathLinkUp n) s = .next (settle s)) ∧
  (∀ (r : RefFound) (s : State), r = .ref10 → ∃ t, exec (.refclkMeasure r) s = .next t ∧ bit (t.rd K.clkStatus) 5 = false ∧ t.clk =
    { s.clk with pll := .refclk } ∧ WroteOnly [K.clkStatus] s t ∧ Only [.od, .clk, .pins] s t) ∧
  (∀ (r : RefFound) (s : State), r = .ref25 → ∃ t, exec (.refclkMeasure r) s = .next t ∧ bit (t.rd K.clkStatus) 5 = true ∧ t.clk =
    { s.clk with pll := .refclk } ∧ WroteOnly [K.clkStatus] s t ∧ Only [.od, .clk, .pins] s t) ∧
  (∀ (r : RefFound) (s : State), r = .none → ∃ t, exec (.refclkMeasure r) s = .next t ∧ bit (t.rd K.clkStatus) 0 = true ∧ bit (t.rd
    K.clkStatus) 3 = true ∧ t.clk = { s.clk with pll := .oscillator } ∧ WroteOnly [K.clkStatus] s t ∧ Only [.od, .clk, .recs, .pins] s
    t) ∧
  (∀ (s : State), s.clk.pll = .refclk → ∃ t, exec .refclkLoss s = .next t ∧ bit (t.rd K.clkStatus) 0 = true ∧ bit (t.rd K.clkStatus) 1
    = true ∧ bit (t.rd K.clkStatus) 2 = true ∧ t.clk = { s.clk with pll := .holdover } ∧ WroteOnly [K.clkStatus] s t ∧ Only [.od, .clk,
    .recs, .pins] s t) ∧
  (∀ (s : State), s.clk.pll = .oscillator → exec .refclkLoss s = .next (settle s)) ∧
  (∀ (s : State), s.clk.pll = .holdover → ∃ t, exec .holdoverExpiry s = .next t ∧ bit (t.rd K.clkStatus) 3 = true ∧ t.clk =
    { s.clk with pll := .oscillator } ∧ WroteOnly [K.clkStatus] s t ∧ Only [.od, .clk, .pins] s t) ∧
  (∀ (s : State), s.clk.pll = .refclk → exec .holdoverExpiry s = .next (settle s)) ∧
  (∀ (s : State), s.clk.pll = .holdover → 0 ≤ s.rd K.clkStatus → ∃ t, exec .refclkReturn s = .next t ∧ (∀ i : Fin 4, bit (t.rd
    K.clkStatus) i = false) ∧ bit (t.rd K.clkStatus) 4 = bit (s.rd K.clkStatus) 4 ∧ t.clk = { s.clk with pll := .refclk } ∧ WroteOnly
    [K.clkStatus] s t ∧ Only [.od, .clk, .pins] s t) ∧
  (∀ (s : State), s.clk.pll = .refclk → exec .refclkReturn s = .next (settle s)) ∧
  (∀ (s : State), s.clk.aonCrystal = true → ∃ t, exec .aonCrystalStop s = .next t ∧ bit (t.rd K.clkStatus) 4 = true ∧ t.clk =
    { s.clk with aonCrystal := false } ∧ WroteOnly [K.clkStatus] s t ∧ Only [.od, .clk, .pins] s t) ∧
  (∀ (s : State), s.clk.aonCrystal = false → exec .aonCrystalStop s = .next (settle s))

/-- ENTER is RANGE for a number that is none of S1 to S5, BUSY outside S0, refused with the lowest reason that holds, or begins an
entry, from S3 on with a STATE flush due where a wall is fitted. A completed entry is in its state: S2 moves the time base, S3
closes the sessions, S4 forgets the comparators, S5 loses everything but what it keeps. A wake source that acts begins the exit or
unwinds the entry; the completed exit is S0, and from S3 and S4 starts the image empty. A power-fail is recorded with its time, ends
a STORE and saves what lives in NVM once image leaves and journal data stand. Rests on 17 R447, 17 R448, 17 R449, 17 R450, 17 R452,
17 R453, 09 R271, 09 R272. -/
def Obligations.PowerStates : Prop :=
  (∀ (s : State), 0 < s.rd K.psTarget → s.rd K.psTarget ≤ 5 → s.power.phase ≠ .run → exec .psCmdEnter s = .next (settle (s.reply 1))) ∧
  (∀ (r : Nat) (s : State), 0 < s.rd K.psTarget → s.rd K.psTarget ≤ 5 → s.power.phase = .run → enterRefusal s (s.rd K.psTarget).toNat =
    some r → ∃ t, exec .psCmdEnter s = .next t ∧ t.rd K.psRefuse = r ∧ t.answer = 1 ∧ WroteOnly [K.psRefuse] s t ∧ Only [.od, .answer,
    .pins] s t) ∧
  (∀ (n : Nat) (s : State), 0 < s.rd K.psTarget → s.power.phase = .run → n = (s.rd K.psTarget).toNat → enterRefusal s n = none → n < 3
    → exec .psCmdEnter s = .next (settle ({ (s.reply 0) with power := { s.power with phase := .entering, target := n } }))) ∧
  (∀ (n : Nat) (s : State), s.power.phase = .run → n = (s.rd K.psTarget).toNat → enterRefusal s n = none → 3 ≤ n → n ≤ 5 → ∃ t, exec
    .psCmdEnter s = .next t ∧ t.answer = 0 ∧ t.power = { s.power with phase := .entering, target := n } ∧ (s.recorder.noWall = false →
    t.recorder.due.isSome = true) ∧ WroteOnly [] s t ∧ Only [.recorder, .power, .answer, .pins] s t) ∧
  (∀ (s : State), (s.rd K.psTarget ≤ 0 ∨ 5 < s.rd K.psTarget) → exec .psCmdEnter s = .next (settle (s.reply 2))) ∧
  (∀ (s : State), s.power.phase ≠ .entering → exec .psEntryComplete s = .next (settle s)) ∧
  (∀ (s : State), s.power.phase = .entering → s.power.target = 1 → exec .psEntryComplete s = .next (settle
    ({ s with power := { s.power with phase := .low } }))) ∧
  (∀ (s : State), s.power.phase = .entering → s.power.target = 2 → ∃ t, exec .psEntryComplete s = .next t ∧ t.power =
    { s.power with phase := .low } ∧ t.rd K.tbSource = 1 ∧ t.rd K.tbLock = 0 ∧ t.time = { s.time with good := 0 } ∧ WroteOnly
    [K.tbSource, K.tbLock] s t ∧ Only [.od, .time, .power, .pins] s t) ∧
  (∀ (s : State), s.power.phase = .entering → s.power.target = 3 → s.flushIdle = true → ∃ t, exec .psEntryComplete s = .next t ∧
    t.power = { s.power with phase := .low } ∧ (∀ c : Transport, t.ses c = SessHw.reset) ∧ t.tb = s.tb ∧ t.ports = s.ports ∧ t.cmps =
    s.cmps) ∧
  (∀ (s : State), s.power.phase = .entering → s.power.target = 4 → s.flushIdle = true → ∃ t, exec .psEntryComplete s = .next t ∧
    t.power = { s.power with phase := .low } ∧ (∀ c : Cmp, (t.cmp c).noHist = true ∧ (t.cmp c).h = false ∧ (t.cmp c).l = false)) ∧
  (∀ (s : State), s.power.phase = .entering → s.power.target = 5 → s.flushIdle = true → ∃ t, exec .psEntryComplete s = .next t ∧
    t.power = { s.power with phase := .low } ∧ t.sec = SecHw.reset ∧ t.tb = s.tb ∧ t.cts = s.cts ∧ t.ior 17 0xF008 = s.ior 17 0xF008) ∧
  (∀ (s : State), 3 ≤ s.power.target → s.flushIdle = false → exec .psEntryComplete s = .next (settle s)) ∧
  (∀ (s : State), s.power.phase = .low → s.power.target ≤ 2 → exec .psCmdExit s = .next (settle
    ({ (s.reply 0) with power := { s.power with phase := .exiting } }))) ∧
  (∀ (s : State), s.power.phase ≠ .low → exec .psCmdExit s = .next (settle (s.reply 1))) ∧
  (∀ (src : Fin 12) (s : State), s.power.phase = .low → s.wakes src.val = true → ∃ t, exec (.wakeEvent src) s = .next t ∧ t.power =
    { s.power with phase := .exiting } ∧ bit (t.ior 17 0xF00C) src.val = true ∧ IoOnly 17 [0xF00C] s t ∧ Only [.io, .power, .pins] s t) ∧
  (∀ (src : Fin 12) (s : State), s.power.phase = .entering → s.wakes src.val = true → ∃ t, exec (.wakeEvent src) s = .next t ∧ t.power
    = { s.power with phase := .run, target := 0 } ∧ t.rd K.entryAborts = satInc (s.rd K.entryAborts) u32Max ∧ WroteOnly [K.entryAborts]
    s t ∧ IoOnly 17 [0xF00C] s t ∧ Only [.od, .io, .power, .pins] s t) ∧
  (∀ (src : Fin 12) (s : State), (s.power.phase = .run ∨ s.wakes src.val = false) → exec (.wakeEvent src) s = .next (settle s)) ∧
  (∀ (s : State), s.power.phase = .exiting → s.power.target < 3 → ∃ t, exec .psExitComplete s = .next t ∧ t.power =
    { s.power with phase := .run, target := 0 } ∧ t.rd K.lastWake = s.ior 17 0xF00C ∧ t.rd K.tbSource = 0 ∧ WroteOnly [K.lastWake,
    K.tbSource] s t ∧ Only [.od, .power, .pins] s t) ∧
  (∀ (s : State), s.power.phase ≠ .exiting → exec .psExitComplete s = .next (settle s)) ∧
  (∀ (s : State), s.recorder.powerFail = true → exec .powerFailDeclared s = .next (settle s)) ∧
  (∀ (s : State), s.recorder.powerFail = false → s.power.phase = .run → s.rd K.pfEn = 0 → ∃ t, exec .powerFailDeclared s = .next t ∧
    t.recorder.powerFail = true ∧ t.recorder.pfEdge = s.time.edges ∧ t.recorder.noErase = true ∧ t.recorder.flush = s.recorder.flush ∧
    t.rd K.storeState = (if s.rd K.storeState = 1 then 3 else s.rd K.storeState) ∧ (s.rd K.storeState = 1 → t.nvm.storing = none) ∧
    (s.otp.job.isSome = true → t.otp.stopped = true) ∧ (s.recorder.cutLeaf = none → (s.recorder.flush.any fun f => decide (f.cause = 6
    ∧ f.leaf < 17)) = false → (s.recorder.noWall = true ∨ s.recorder.staging = []) → t.nvGet K.refAge = s.rd K.refAge) ∧ t.ports =
    s.ports ∧ t.paths = s.paths) ∧
  (∀ (s : State), s.recorder.powerFail = false → s.power.phase = .entering → s.rd K.pfEn = 0 → ∃ t, exec .powerFailDeclared s = .next t
    ∧ t.recorder.powerFail = true ∧ t.power = { s.power with phase := .run, target := 0 } ∧ t.rd K.entryAborts = satInc (s.rd
    K.entryAborts) u32Max) ∧
  (∀ (s : State), s.recorder.saveDue = false → exec .powerFailRearm s = .next (settle
    ({ s with recorder := { s.recorder with powerFail := false } }))) ∧
  (∀ (s : State), s.recorder.saveDue = true → ∃ t, exec .powerFailRearm s = .next t ∧ t.recorder.powerFail = false ∧ t.recorder.noErase
    = s.recorder.noErase ∧ t.od = s.od ∧ Only [.recorder, .nv, .pins] s t) ∧
  (∀ (s : State), s.power.phase = .exiting → (s.power.target = 3 ∨ s.power.target = 4) → ∃ t, exec .psExitComplete s = .next t ∧
    t.power = { s.power with phase := .run, target := 0 } ∧ t.recorder.image = Hawk.empty s.opStamp (s.rd K.powerCycles).toNat ∧ t.rd
    K.imageStart = s.opStamp ∧ t.rd K.lastWake = s.ior 17 0xF00C ∧ t.rd K.tbSource = 0 ∧ WroteOnly [K.lastWake, K.tbSource,
    K.imageStart] s t ∧ Only [.od, .recorder, .power, .pins] s t)

/-- A device-wide reset records its cause and counts, turns every gate off, empties the sessions and the cores and leaves the boot
to come; the stored image, the OTP and the wall stay. POR, BOR and a pin reset start the time base again, a keeper watchdog, a
lockstep mismatch and a soft reset keep it. The right keeper key restarts its watchdog. A device held by its boot stays held
through the latter three. Rests on 17 R454, 17 R455, 17 R457, 09 R273, 10 R307, 13 R373, 15 R407. -/
def Obligations.Resets : Prop :=
  (∀ (s : State), s.otp.job = none → ∃ t, exec .por s = .next t ∧ t.rd K.resetCause = 1 ∧ t.ior 17 0xF01C = 1 ∧ t.tb = 0 ∧ t.otp.cells
    = s.otp.cells ∧ t.rd K.powerCycles = satInc (s.rd K.powerCycles) u32Max ∧ t.sec = SecHw.reset ∧ (∀ p : Port, (t.path p).gate =
    .off) ∧ (∀ p : Port, t.rP p Kp.attachState = 0) ∧ t.cores = State.reset.cores ∧ t.sess = State.reset.sess ∧ t.recorder.wall =
    s.recorder.wall ∧ t.nvm = { s.nvm with storing := none } ∧ t.pending = s.pending) ∧
  (∀ (s : State), s.otp.job = none → ∃ t, exec .bor s = .next t ∧ t.rd K.resetCause = 2 ∧ t.ior 17 0xF01C = 2 ∧ t.tb = 0 ∧ t.otp.cells
    = s.otp.cells ∧ t.rd K.powerCycles = s.rd K.powerCycles ∧ t.sec = SecHw.reset ∧ (∀ p : Port, (t.path p).gate = .off) ∧ (∀ p : Port,
    t.rP p Kp.attachState = 0) ∧ t.cores = State.reset.cores ∧ t.sess = State.reset.sess ∧ t.recorder.wall = s.recorder.wall ∧ t.nvm =
    { s.nvm with storing := none } ∧ t.pending = s.pending) ∧
  (∀ (s : State), s.otp.job = none → ∃ t, exec .pinReset s = .next t ∧ t.rd K.resetCause = 3 ∧ t.ior 17 0xF01C = 3 ∧ t.tb = 0 ∧
    t.otp.cells = s.otp.cells ∧ t.sec = SecHw.reset ∧ (∀ p : Port, (t.path p).gate = .off) ∧ (∀ p : Port, t.rP p Kp.attachState = 0) ∧
    t.cores = State.reset.cores ∧ t.sess = State.reset.sess ∧ t.recorder.wall = s.recorder.wall ∧ t.nvm =
    { s.nvm with storing := none } ∧ t.pending = s.pending) ∧
  (∀ (s : State), s.power.softDue = true → s.sec.held = false → s.otp.job = none → ∃ t, exec .softReset s = .next t ∧ t.rd K.resetCause
    = 6 ∧ t.ior 17 0xF01C = 6 ∧ t.tb = s.tb ∧ t.cts = s.cts ∧ t.tbcs = s.tbcs ∧ t.tgs = s.tgs ∧ t.time.edges = s.time.edges ∧
    t.time.denied = s.time.denied ∧ t.time.due = [] ∧ t.otp.cells = s.otp.cells ∧ t.sec = SecHw.reset ∧ (∀ p : Port, (t.path p).gate =
    .off) ∧ (∀ p : Port, t.rP p Kp.attachState = 0) ∧ t.cores = State.reset.cores ∧ t.sess = State.reset.sess ∧ t.recorder.wall =
    s.recorder.wall ∧ t.nvm = { s.nvm with storing := none } ∧ t.pending = s.pending) ∧
  (∀ (s : State), s.keeperWdRuns = true → s.otp.job = none → ∃ t, exec .keeperWdExpiry s = .next t ∧ t.rd K.resetCause = 4 ∧ t.ior 17
    0xF01C = 4 ∧ t.tb = s.tb ∧ t.rd (K.resetCount + 3) = satInc (s.rd (K.resetCount + 3)) u32Max ∧ t.otp.cells = s.otp.cells ∧ t.sec =
    SecHw.reset ∧ (∀ p : Port, (t.path p).gate = .off) ∧ (∀ p : Port, t.rP p Kp.attachState = 0) ∧ t.cores = State.reset.cores ∧ t.sess
    = State.reset.sess ∧ t.recorder.wall = s.recorder.wall ∧ t.nvm = { s.nvm with storing := none } ∧ t.pending = s.pending) ∧
  (∀ (key : BitVec 32) (s : State), key ≠ 0x3C5A → s.keeperWdRuns = true → s.otp.job = none → ∃ t, exec (.kwdKick key) s = .next t ∧
    t.rd K.resetCause = 4 ∧ t.tb = s.tb ∧ t.sec = SecHw.reset ∧ (∀ p : Port, (t.path p).gate = .off) ∧ (∀ p : Port, t.rP p
    Kp.attachState = 0) ∧ t.cores = State.reset.cores ∧ t.sess = State.reset.sess ∧ t.recorder.wall = s.recorder.wall ∧ t.nvm =
    { s.nvm with storing := none } ∧ t.pending = s.pending) ∧
  (∀ (s : State), (s.sec.stat ≠ 0 ∨ s.bootDue = true) → s.sec.held = false → s.otp.job = none → ∃ t, exec .lockstepMismatch s = .next t
    ∧ t.rd K.resetCause = 5 ∧ t.ior 17 0xF01C = 5 ∧ t.tb = s.tb ∧ t.rd K.lockstepCount = satInc (s.rd K.lockstepCount) u32Max ∧ t.rd
    (K.resetCount + 3) = satInc (s.rd (K.resetCount + 3)) u32Max ∧ t.sec = SecHw.reset ∧ (∀ p : Port, (t.path p).gate = .off) ∧ (∀ p :
    Port, t.rP p Kp.attachState = 0) ∧ t.cores = State.reset.cores ∧ t.sess = State.reset.sess ∧ t.recorder.wall = s.recorder.wall ∧
    t.nvm = { s.nvm with storing := none } ∧ t.pending = s.pending)

/-- The right keeper key restarts the watchdog and nothing else; an expiry while the keeper watchdog does not run, a soft reset
that was not asked for, and a lockstep mismatch before the release of a reset change nothing. Rests on 17 R457, 10 R307, 13 R373,
15 R407. -/
def Obligations.ResetsThatWait : Prop :=
  (∀ (key : BitVec 32) (s : State), key = 0x3C5A → exec (.kwdKick key) s = .next (settle s)) ∧
  (∀ (key : BitVec 32) (s : State), s.keeperWdRuns = false → exec (.kwdKick key) s = .next (settle s)) ∧
  (∀ (s : State), s.keeperWdRuns = false → exec .keeperWdExpiry s = .next (settle s)) ∧
  (∀ (s : State), s.power.softDue = false → exec .softReset s = .next (settle s)) ∧
  (∀ (s : State), s.sec.held = true → exec .softReset s = .next (settle s)) ∧
  (∀ (s : State), ((s.sec.stat = 0 ∧ s.bootDue = false) ∨ s.sec.held = true) → exec .lockstepMismatch s = .next (settle s))

/-- A DEG_CMD is BUSY where its condition fails or one runs; otherwise it runs and reports. RETURN_ENGINE hands an adopted block
back by way of PE16, or releases the engine where its copy still matches; a copy that does not match puts the ports of the block in
SAFE_OFF; the report moves ownership back, the timeout leaves it. RESET_TILE and TRST stop the ports of the tile and retrain its
link. An undervoltage of the front end fails the tile; one of VCONN removes it and records it, and the recovery applies it again.
Rests on 17 R460, 17 R461, 17 R463, 15 R408, 10 R303, 10 R304, 18 R473. -/
def Obligations.DegradedOperation : Prop :=
  (∀ (p : Port) (s : State), s.power.deg = none → s.rd K.degArg = p.val → (s.path p).safe = true → s.rd (K.safeCause + p.val) = 1 → ∃
    t, exec .degCmdClearSafe s = .next t ∧ t.answer = 0 ∧ t.power = { s.power with deg := some (.clearSafe p) } ∧ t.rd K.degResult = 1
    ∧ t.paths = s.paths) ∧
  (∀ (s : State), (s.power.deg.isSome = true ∨ 64 ≤ (s.rd K.degArg).toNat) → exec .degCmdClearSafe s = .next (settle (s.reply 1))) ∧
  (∀ (k : Fin 16) (s : State), s.power.deg = none → s.rd K.degArg = k.val → s.engLive ⟨k.val, by omega⟩ = false → s.float.pending =
    false → s.rd K.adoptEng = k.val → s.engSt pe16 = Es.floatActive → ∃ t, exec .degCmdReturnEngine s = .next t ∧ t.answer = 0 ∧
    (copyMatches s = true → t.power = { s.power with deg := some (.handback k) } ∧ t.rd K.degResult = 1 ∧ (t.mbox pe16).kcmd.isSome =
    true ∧ t.paths = s.paths) ∧ (copyMatches s = false → t.power = { s.power with deg := none } ∧ t.rd K.degResult = 3 ∧ (∀ p : Port,
    p.val / 4 = k.val → (t.path p).safe = true))) ∧
  (∀ (k : Fin 16) (s : State), s.power.deg = none → s.rd K.degArg = k.val → s.engLive ⟨k.val, by omega⟩ = false → s.float.pending =
    false → s.rd K.adoptEng ≠ k.val → ∃ t, exec .degCmdReturnEngine s = .next t ∧ t.answer = 0 ∧ t.power = { s.power with deg := none }
    ∧ (copyMatches s = true → t.rd K.degResult = 2 ∧ t.engSt ⟨k.val, by omega⟩ = Es.running) ∧ (copyMatches s = false → t.rd
    K.degResult = 3 ∧ (∀ p : Port, p.val / 4 = k.val → (t.path p).safe = true))) ∧
  (∀ (s : State), (s.power.deg.isSome = true ∨ 16 ≤ (s.rd K.degArg).toNat ∨ s.float.pending = true) → exec .degCmdReturnEngine s =
    .next (settle (s.reply 1))) ∧
  (∀ (k : Fin 16) (s : State), s.power.deg = some (.handback k) → ∃ t, exec .handbackReport s = .next t ∧ t.engSt ⟨k.val, by omega⟩ =
    Es.running ∧ t.engSt pe16 = Es.floatIdle ∧ t.rd K.adoptEng = 0xFF ∧ t.rd K.degResult = 2 ∧ t.power = { s.power with deg := none } ∧
    t.paths = s.paths ∧ t.ports = s.ports) ∧
  (∀ (s : State), s.power.deg = none → exec .handbackReport s = .next (settle s)) ∧
  (∀ (k : Fin 16) (s : State), s.power.deg = some (.handback k) → ∃ t, exec .handbackTimeout s = .next t ∧ t.rd K.degResult = 3 ∧
    t.power = { s.power with deg := none } ∧ WroteOnly [K.degResult] s t ∧ Only [.od, .power, .pins] s t) ∧
  (∀ (s : State), s.power.deg = none → exec .handbackTimeout s = .next (settle s)) ∧
  (∀ (n : Tile) (s : State), s.power.deg = none → s.rd K.degArg = n.val → s.lath n = 3 → ∃ t, exec .degCmdResetTile s = .next t ∧
    t.answer = 0 ∧ t.power = { s.power with deg := some (.resetTile n) } ∧ t.rd K.degResult = 1 ∧ t.lath n = 1 ∧ (t.tile n).trst = true
    ∧ (∀ p : Port, p.val / 8 = n.val → (t.path p).gate = .off) ∧ (∀ p : Port, p.val / 8 ≠ n.val → t.path p = s.path p)) ∧
  (∀ (s : State), (s.power.deg.isSome = true ∨ 8 ≤ (s.rd K.degArg).toNat) → exec .degCmdResetTile s = .next (settle (s.reply 1))) ∧
  (∀ (m : BitVec 8) (s : State), m = 0 → exec (.tileTrstWrite m) s = .next (settle s)) ∧
  (∀ (m : BitVec 8) (n : Tile) (s : State), m.toNat = 2 ^ n.val → ∃ t, exec (.tileTrstWrite m) s = .next t ∧ t.lath n = 1 ∧ (t.tile
    n).trst = true ∧ (∀ p : Port, p.val / 8 = n.val → (t.path p).gate = .off) ∧ (∀ p : Port, p.val / 8 ≠ n.val → t.path p = s.path p)) ∧
  (∀ (n : Tile) (s : State), s.power.deg = none → s.lath n ≠ 3 → ∃ t, exec (.vddFeUndervoltage n) s = .next t ∧ t.lath n = 3 ∧ (t.tile
    n).feOk = false ∧ (∀ p : Port, p.val / 8 = n.val → (t.path p).safe = true ∧ ((s.path p).safe = false → (t.path p).gate = .off)) ∧
    (∀ p : Port, p.val / 8 ≠ n.val → t.path p = s.path p) ∧ bit (t.rd K.alertSrc) 8 = true) ∧
  (∀ (n : Tile) (s : State), (∀ p : Port, s.owesVconn p = false) → ∃ t, exec (.vconnUndervoltage n) s = .next t ∧ (t.tile n).vconnOk =
    false ∧ (∀ m : Tile, m ≠ n → t.tile m = s.tile m) ∧ (∀ p : Port, p.val / 8 = n.val → s.vconnSource p = true → t.rP p Kp.pdFault =
    PdF.vconnUv) ∧ t.paths = s.paths) ∧
  (∀ (n : Tile) (s : State), (∀ p : Port, p.val / 8 = n.val → s.attached p = false) → exec (.vconnRecovery n) s = .next (settle
    (s.setTile n { s.tile n with vconnOk := true }))) ∧
  (∀ (n : Tile) (p : Port) (s : State), p.val / 8 = n.val → (∀ q : Port, q.val / 8 = n.val → q ≠ p → s.attached q = false) → s.attached
    p = true → s.vconnDue p = true → ∃ t, exec (.vconnRecovery n) s = .next t ∧ (t.tile n).vconnOk = true ∧ t = settle ((s.setTile n
    { s.tile n with vconnOk := true }).vconnOn p))
end

