-- ==== Sys2Proof/Laws/Store.lean ====
section
/-! SUPPORT. The laws of the sparse store: a read after a write, canonical form kept, and the bits of a value. -/

namespace Sys2Proof.Machine

theorem SMap.get_del {α : Type} (d : Nat → α) (m : SMap α) (k j : Nat) :
    SMap.get d (SMap.del m k) j = if j = k then d k else SMap.get d m j := by
  induction m with
  | nil => simp only [SMap.del, SMap.get]; split <;> simp_all
  | cons p m ih =>
    obtain ⟨a, v⟩ := p
    simp only [SMap.del, SMap.get]
    by_cases h : a = k
    · rw [if_pos h, ih]; subst h
      by_cases e : j = a
      · rw [if_pos e, if_pos e]
      · rw [if_neg e, if_neg e, if_neg (Ne.symm e)]
    · rw [if_neg h]; simp only [SMap.get]; rw [ih]
      by_cases e : j = k
      · subst e; rw [if_pos rfl, if_pos rfl, if_neg h]
      · rw [if_neg e, if_neg e]

theorem SMap.get_ins {α : Type} (d : Nat → α) (m : SMap α) (k j : Nat) (v : α)
    (h : SMap.get (fun _ => (none : Option α)) (m.map fun p => (p.1, some p.2)) k = none) :
    SMap.get d (SMap.ins m k v) j = if j = k then v else SMap.get d m j := by
  induction m with
  | nil =>
    simp only [SMap.ins, SMap.get]
    by_cases e : j = k
    · rw [if_pos e, if_pos e.symm]
    · rw [if_neg e, if_neg (Ne.symm e)]
  | cons p m ih =>
    obtain ⟨a, w⟩ := p
    simp only [List.map_cons, SMap.get] at h
    split at h
    · exact absurd h (by simp)
    · rename_i hak
      simp only [SMap.ins]
      split
      · simp only [SMap.get]
        by_cases e : j = k
        · rw [if_pos e, if_pos e.symm]
        · rw [if_neg e, if_neg (Ne.symm e)]
      · simp only [SMap.get]; rw [ih h]
        by_cases e : j = k
        · subst e; rw [if_pos rfl, if_pos rfl, if_neg hak]
        · rw [if_neg e, if_neg e]

theorem SMap.del_absent {α : Type} (m : SMap α) (k : Nat) :
    SMap.get (fun _ => (none : Option α)) ((SMap.del m k).map fun p => (p.1, some p.2)) k = none := by
  induction m with
  | nil => rfl
  | cons p m ih =>
    obtain ⟨a, v⟩ := p
    simp only [SMap.del]
    split
    · exact ih
    · simp only [List.map_cons, SMap.get]; split <;> simp_all

/-- A read after a write: the written address holds the value, every other address is unchanged. -/
theorem SMap.get_put {α : Type} [DecidableEq α] (d : Nat → α) (m : SMap α) (k j : Nat) (v : α) :
    SMap.get d (SMap.put d m k v) j = if j = k then v else SMap.get d m j := by
  unfold SMap.put
  split
  · subst_vars; exact SMap.get_del d m k j
  · rw [SMap.get_ins d _ k j v (SMap.del_absent m k), SMap.get_del]
    split <;> simp_all

@[simp] theorem odGet_odPut (m : SMap Int) (k j : Nat) (v : Int) :
    odGet (odPut m k v) j = if j = k then v else odGet m j := SMap.get_put ..

@[simp] theorem blobGet_blobPut (m : SMap (List Nat)) (k j : Nat) (v : List Nat) :
    blobGet (blobPut m k v) j = if j = k then v else blobGet m j := SMap.get_put ..

@[simp] theorem memGet_memPut (m : SMap Nat) (k j : Nat) (v : Nat) :
    memGet (memPut m k v) j = if j = k then v else memGet m j := SMap.get_put ..

theorem SMap.wfFrom_weaken {α : Type} [DecidableEq α] (d : Nat → α) (l : Nat) (m : SMap α) (o : Option Nat)
    (h : SMap.wfFrom d (some l) m = true) (ho : ∀ x, o = some x → x ≤ l) : SMap.wfFrom d o m = true := by
  cases m with
  | nil => rfl
  | cons p m =>
    obtain ⟨a, v⟩ := p
    simp only [SMap.wfFrom, Bool.and_eq_true, decide_eq_true_eq] at h ⊢
    refine ⟨⟨?_, h.1.2⟩, h.2⟩
    cases o with
    | none => rfl
    | some x => have := ho x rfl; simp; omega

theorem SMap.wfFrom_del {α : Type} [DecidableEq α] (d : Nat → α) (m : SMap α) (k : Nat) :
    ∀ o, SMap.wfFrom d o m = true → SMap.wfFrom d o (SMap.del m k) = true := by
  induction m with
  | nil => intro o _; rfl
  | cons p m ih =>
    obtain ⟨a, v⟩ := p
    intro o h
    have h' := h
    simp only [SMap.wfFrom, Bool.and_eq_true, decide_eq_true_eq] at h
    simp only [SMap.del]
    split
    · refine ih o (SMap.wfFrom_weaken d a m o h.2 ?_)
      intro x hx; subst hx; simp at h; omega
    · simp only [SMap.wfFrom, Bool.and_eq_true, decide_eq_true_eq]
      exact ⟨h.1, ih _ h.2⟩

theorem SMap.wfFrom_ins {α : Type} [DecidableEq α] (d : Nat → α) (m : SMap α) (k : Nat) (v : α) (hv : v ≠ d k)
    (hk : SMap.get (fun _ => (none : Option α)) (m.map fun p => (p.1, some p.2)) k = none) :
    ∀ o, (∀ x, o = some x → x < k) → SMap.wfFrom d o m = true → SMap.wfFrom d o (SMap.ins m k v) = true := by
  induction m with
  | nil =>
    intro o ho _
    cases o with
    | none => simp [SMap.ins, SMap.wfFrom, hv]
    | some x => simp [SMap.ins, SMap.wfFrom, hv, ho x rfl]
  | cons p m ih =>
    obtain ⟨a, w⟩ := p
    intro o ho h
    simp only [List.map_cons, SMap.get] at hk
    split at hk
    · exact absurd hk (by simp)
    · rename_i hak
      simp only [SMap.ins]
      split
      · simp only [SMap.wfFrom, Bool.and_eq_true, decide_eq_true_eq] at h ⊢
        refine ⟨⟨?_, hv⟩, ⟨by assumption, h.1.2⟩, h.2⟩
        cases o with
        | none => rfl
        | some x => simp [ho x rfl]
      · simp only [SMap.wfFrom, Bool.and_eq_true, decide_eq_true_eq] at h ⊢
        refine ⟨h.1, ih hk _ ?_ h.2⟩
        intro x hx; cases hx; omega

/-- Every write keeps the canonical form. -/
theorem SMap.wf_put {α : Type} [DecidableEq α] (d : Nat → α) (m : SMap α) (k : Nat) (v : α)
    (h : SMap.wf d m = true) : SMap.wf d (SMap.put d m k v) = true := by
  unfold SMap.put SMap.wf at *
  split
  · exact SMap.wfFrom_del d m k _ h
  · exact SMap.wfFrom_ins d _ k v (by assumption) (SMap.del_absent m k) none (by simp) (SMap.wfFrom_del d m k _ h)

theorem SMap.wfFrom_filter {α : Type} [DecidableEq α] (d : Nat → α) (m : SMap α) (f : Nat × α → Bool) :
    ∀ o, SMap.wfFrom d o m = true → SMap.wfFrom d o (m.filter f) = true := by
  induction m with
  | nil => intro o _; rfl
  | cons p m ih =>
    obtain ⟨a, v⟩ := p
    intro o h
    have h' := h
    simp only [SMap.wfFrom, Bool.and_eq_true, decide_eq_true_eq] at h
    rw [List.filter_cons]
    split
    · simp only [SMap.wfFrom, Bool.and_eq_true, decide_eq_true_eq]
      exact ⟨h.1, ih _ h.2⟩
    · refine ih o (SMap.wfFrom_weaken d a m o h.2 ?_)
      intro x hx; subst hx; simp at h; omega

/-- Leaving pairs out keeps the canonical form. -/
theorem SMap.wf_filter {α : Type} [DecidableEq α] (d : Nat → α) (m : SMap α) (f : Nat × α → Bool)
    (h : SMap.wf d m = true) : SMap.wf d (m.filter f) = true := SMap.wfFrom_filter d m f none h

theorem odPut_wf (m : SMap Int) (k : Nat) (v : Int) (h : SMap.wf odDefault m = true) :
    SMap.wf odDefault (odPut m k v) = true := SMap.wf_put _ _ _ _ h

theorem memPut_wf (m : SMap Nat) (k v : Nat) (h : SMap.wf zeroCell m = true) :
    SMap.wf zeroCell (memPut m k v) = true := SMap.wf_put _ _ _ _ h

@[simp] theorem bit_withBit (v : Int) (i j : Nat) (b : Bool) :
    bit (withBit v i b) j = if j = i then b else bit v j := by
  unfold bit withBit
  by_cases h : v.toNat.testBit i = b
  · rw [if_pos h]; simp only [Int.toNat_natCast]
    by_cases e : j = i
    · subst e; rw [if_pos rfl, h]
    · rw [if_neg e]
  · rw [if_neg h]
    simp only [Int.toNat_natCast, Nat.testBit_xor, Nat.testBit_two_pow]
    by_cases e : j = i
    · subst e; rw [if_pos rfl]; cases hb : v.toNat.testBit j <;> cases b <;> simp_all
    · rw [if_neg e]; simp [Ne.symm e]

theorem bit_setBits (v : Int) (m j : Nat) : bit (setBits v m) j = (bit v j || m.testBit j) := by
  simp [bit, setBits]

theorem bit_clearBits (v : Int) (m j : Nat) : bit (clearBits v m) j = (bit v j && !m.testBit j) := by
  simp only [bit, clearBits, Int.toNat_natCast, Nat.testBit_xor, Nat.testBit_and]
  cases v.toNat.testBit j <;> cases m.testBit j <;> rfl

end Sys2Proof.Machine
end

