-- ==== Sys2Proof/Laws/State.lean ====
section
/-! SUPPORT. One lemma per updater and field of the state, all true by unfolding, so that no later proof unfolds a
record update; and the read-after-write laws of the accessors. -/

namespace Sys2Proof.Machine

variable (s : State)

@[simp] theorem State.wr_pending (k : Nat) (v : Int) : (s.wr k v).pending = s.pending := rfl
@[simp] theorem State.wr_odNew (k : Nat) (v : Int) : (s.wr k v).odNew = s.odNew := rfl
@[simp] theorem State.wr_blob (k : Nat) (v : Int) : (s.wr k v).blob = s.blob := rfl
@[simp] theorem State.wr_io (k : Nat) (v : Int) : (s.wr k v).io = s.io := rfl
@[simp] theorem State.wr_fresh (k : Nat) (v : Int) : (s.wr k v).fresh = s.fresh := rfl
@[simp] theorem State.wr_tb (k : Nat) (v : Int) : (s.wr k v).tb = s.tb := rfl
@[simp] theorem State.wr_cmps (k : Nat) (v : Int) : (s.wr k v).cmps = s.cmps := rfl
@[simp] theorem State.wr_paths (k : Nat) (v : Int) : (s.wr k v).paths = s.paths := rfl
@[simp] theorem State.wr_feeds (k : Nat) (v : Int) : (s.wr k v).feeds = s.feeds := rfl
@[simp] theorem State.wr_slots (k : Nat) (v : Int) : (s.wr k v).slots = s.slots := rfl
@[simp] theorem State.wr_ledgerPorts (k : Nat) (v : Int) : (s.wr k v).ledgerPorts = s.ledgerPorts := rfl
@[simp] theorem State.wr_ledger (k : Nat) (v : Int) : (s.wr k v).ledger = s.ledger := rfl
@[simp] theorem State.wr_tiles (k : Nat) (v : Int) : (s.wr k v).tiles = s.tiles := rfl
@[simp] theorem State.wr_ports (k : Nat) (v : Int) : (s.wr k v).ports = s.ports := rfl
@[simp] theorem State.wr_scrim (k : Nat) (v : Int) : (s.wr k v).scrim = s.scrim := rfl
@[simp] theorem State.wr_pins (k : Nat) (v : Int) : (s.wr k v).pins = s.pins := rfl
@[simp] theorem State.wr_coatFault (k : Nat) (v : Int) : (s.wr k v).coatFault = s.coatFault := rfl
@[simp] theorem State.wr_clk (k : Nat) (v : Int) : (s.wr k v).clk = s.clk := rfl
@[simp] theorem State.wr_convs (k : Nat) (v : Int) : (s.wr k v).convs = s.convs := rfl
@[simp] theorem State.wr_ref (k : Nat) (v : Int) : (s.wr k v).ref = s.ref := rfl
@[simp] theorem State.wr_mets (k : Nat) (v : Int) : (s.wr k v).mets = s.mets := rfl
@[simp] theorem State.wr_recs (k : Nat) (v : Int) : (s.wr k v).recs = s.recs := rfl
@[simp] theorem State.wr_otpShadow (k : Nat) (v : Int) : (s.wr k v).otpShadow = s.otpShadow := rfl
@[simp] theorem State.wr_rails (k : Nat) (v : Int) : (s.wr k v).rails = s.rails := rfl
@[simp] theorem State.wr_coat (k : Nat) (v : Int) : (s.wr k v).coat = s.coat := rfl
@[simp] theorem State.wr_recorder (k : Nat) (v : Int) : (s.wr k v).recorder = s.recorder := rfl
@[simp] theorem State.wr_nv (k : Nat) (v : Int) : (s.wr k v).nv = s.nv := rfl
@[simp] theorem State.wr_answer (k : Nat) (v : Int) : (s.wr k v).answer = s.answer := rfl
@[simp] theorem State.wr_cts (k : Nat) (v : Int) : (s.wr k v).cts = s.cts := rfl
@[simp] theorem State.wr_tbcs (k : Nat) (v : Int) : (s.wr k v).tbcs = s.tbcs := rfl
@[simp] theorem State.wr_tgs (k : Nat) (v : Int) : (s.wr k v).tgs = s.tgs := rfl
@[simp] theorem State.wr_time (k : Nat) (v : Int) : (s.wr k v).time = s.time := rfl
@[simp] theorem State.wr_otp (k : Nat) (v : Int) : (s.wr k v).otp = s.otp := rfl
@[simp] theorem State.wr_cores (k : Nat) (v : Int) : (s.wr k v).cores = s.cores := rfl
@[simp] theorem State.wr_mboxes (k : Nat) (v : Int) : (s.wr k v).mboxes = s.mboxes := rfl
@[simp] theorem State.wr_shared (k : Nat) (v : Int) : (s.wr k v).shared = s.shared := rfl
@[simp] theorem State.wr_float (k : Nat) (v : Int) : (s.wr k v).float = s.float := rfl
@[simp] theorem State.wr_power (k : Nat) (v : Int) : (s.wr k v).power = s.power := rfl
@[simp] theorem State.wr_tws (k : Nat) (v : Int) : (s.wr k v).tws = s.tws := rfl
@[simp] theorem State.wr_srcs (k : Nat) (v : Int) : (s.wr k v).srcs = s.srcs := rfl
@[simp] theorem State.wr_sess (k : Nat) (v : Int) : (s.wr k v).sess = s.sess := rfl
@[simp] theorem State.wr_nvm (k : Nat) (v : Int) : (s.wr k v).nvm = s.nvm := rfl
@[simp] theorem State.wr_sec (k : Nat) (v : Int) : (s.wr k v).sec = s.sec := rfl
@[simp] theorem State.wrB_pending (k : Nat) (v : List Nat) : (s.wrB k v).pending = s.pending := rfl
@[simp] theorem State.wrB_od (k : Nat) (v : List Nat) : (s.wrB k v).od = s.od := rfl
@[simp] theorem State.wrB_odNew (k : Nat) (v : List Nat) : (s.wrB k v).odNew = s.odNew := rfl
@[simp] theorem State.wrB_io (k : Nat) (v : List Nat) : (s.wrB k v).io = s.io := rfl
@[simp] theorem State.wrB_fresh (k : Nat) (v : List Nat) : (s.wrB k v).fresh = s.fresh := rfl
@[simp] theorem State.wrB_tb (k : Nat) (v : List Nat) : (s.wrB k v).tb = s.tb := rfl
@[simp] theorem State.wrB_cmps (k : Nat) (v : List Nat) : (s.wrB k v).cmps = s.cmps := rfl
@[simp] theorem State.wrB_paths (k : Nat) (v : List Nat) : (s.wrB k v).paths = s.paths := rfl
@[simp] theorem State.wrB_feeds (k : Nat) (v : List Nat) : (s.wrB k v).feeds = s.feeds := rfl
@[simp] theorem State.wrB_slots (k : Nat) (v : List Nat) : (s.wrB k v).slots = s.slots := rfl
@[simp] theorem State.wrB_ledgerPorts (k : Nat) (v : List Nat) : (s.wrB k v).ledgerPorts = s.ledgerPorts := rfl
@[simp] theorem State.wrB_ledger (k : Nat) (v : List Nat) : (s.wrB k v).ledger = s.ledger := rfl
@[simp] theorem State.wrB_tiles (k : Nat) (v : List Nat) : (s.wrB k v).tiles = s.tiles := rfl
@[simp] theorem State.wrB_ports (k : Nat) (v : List Nat) : (s.wrB k v).ports = s.ports := rfl
@[simp] theorem State.wrB_scrim (k : Nat) (v : List Nat) : (s.wrB k v).scrim = s.scrim := rfl
@[simp] theorem State.wrB_pins (k : Nat) (v : List Nat) : (s.wrB k v).pins = s.pins := rfl
@[simp] theorem State.wrB_coatFault (k : Nat) (v : List Nat) : (s.wrB k v).coatFault = s.coatFault := rfl
@[simp] theorem State.wrB_clk (k : Nat) (v : List Nat) : (s.wrB k v).clk = s.clk := rfl
@[simp] theorem State.wrB_convs (k : Nat) (v : List Nat) : (s.wrB k v).convs = s.convs := rfl
@[simp] theorem State.wrB_ref (k : Nat) (v : List Nat) : (s.wrB k v).ref = s.ref := rfl
@[simp] theorem State.wrB_mets (k : Nat) (v : List Nat) : (s.wrB k v).mets = s.mets := rfl
@[simp] theorem State.wrB_recs (k : Nat) (v : List Nat) : (s.wrB k v).recs = s.recs := rfl
@[simp] theorem State.wrB_otpShadow (k : Nat) (v : List Nat) : (s.wrB k v).otpShadow = s.otpShadow := rfl
@[simp] theorem State.wrB_rails (k : Nat) (v : List Nat) : (s.wrB k v).rails = s.rails := rfl
@[simp] theorem State.wrB_coat (k : Nat) (v : List Nat) : (s.wrB k v).coat = s.coat := rfl
@[simp] theorem State.wrB_recorder (k : Nat) (v : List Nat) : (s.wrB k v).recorder = s.recorder := rfl
@[simp] theorem State.wrB_nv (k : Nat) (v : List Nat) : (s.wrB k v).nv = s.nv := rfl
@[simp] theorem State.wrB_answer (k : Nat) (v : List Nat) : (s.wrB k v).answer = s.answer := rfl
@[simp] theorem State.wrB_cts (k : Nat) (v : List Nat) : (s.wrB k v).cts = s.cts := rfl
@[simp] theorem State.wrB_tbcs (k : Nat) (v : List Nat) : (s.wrB k v).tbcs = s.tbcs := rfl
@[simp] theorem State.wrB_tgs (k : Nat) (v : List Nat) : (s.wrB k v).tgs = s.tgs := rfl
@[simp] theorem State.wrB_time (k : Nat) (v : List Nat) : (s.wrB k v).time = s.time := rfl
@[simp] theorem State.wrB_otp (k : Nat) (v : List Nat) : (s.wrB k v).otp = s.otp := rfl
@[simp] theorem State.wrB_cores (k : Nat) (v : List Nat) : (s.wrB k v).cores = s.cores := rfl
@[simp] theorem State.wrB_mboxes (k : Nat) (v : List Nat) : (s.wrB k v).mboxes = s.mboxes := rfl
@[simp] theorem State.wrB_shared (k : Nat) (v : List Nat) : (s.wrB k v).shared = s.shared := rfl
@[simp] theorem State.wrB_float (k : Nat) (v : List Nat) : (s.wrB k v).float = s.float := rfl
@[simp] theorem State.wrB_power (k : Nat) (v : List Nat) : (s.wrB k v).power = s.power := rfl
@[simp] theorem State.wrB_tws (k : Nat) (v : List Nat) : (s.wrB k v).tws = s.tws := rfl
@[simp] theorem State.wrB_srcs (k : Nat) (v : List Nat) : (s.wrB k v).srcs = s.srcs := rfl
@[simp] theorem State.wrB_sess (k : Nat) (v : List Nat) : (s.wrB k v).sess = s.sess := rfl
@[simp] theorem State.wrB_nvm (k : Nat) (v : List Nat) : (s.wrB k v).nvm = s.nvm := rfl
@[simp] theorem State.wrB_sec (k : Nat) (v : List Nat) : (s.wrB k v).sec = s.sec := rfl
@[simp] theorem State.iow_pending (b o : Nat) (v : Int) : (s.iow b o v).pending = s.pending := rfl
@[simp] theorem State.iow_od (b o : Nat) (v : Int) : (s.iow b o v).od = s.od := rfl
@[simp] theorem State.iow_odNew (b o : Nat) (v : Int) : (s.iow b o v).odNew = s.odNew := rfl
@[simp] theorem State.iow_blob (b o : Nat) (v : Int) : (s.iow b o v).blob = s.blob := rfl
@[simp] theorem State.iow_fresh (b o : Nat) (v : Int) : (s.iow b o v).fresh = s.fresh := rfl
@[simp] theorem State.iow_tb (b o : Nat) (v : Int) : (s.iow b o v).tb = s.tb := rfl
@[simp] theorem State.iow_cmps (b o : Nat) (v : Int) : (s.iow b o v).cmps = s.cmps := rfl
@[simp] theorem State.iow_paths (b o : Nat) (v : Int) : (s.iow b o v).paths = s.paths := rfl
@[simp] theorem State.iow_feeds (b o : Nat) (v : Int) : (s.iow b o v).feeds = s.feeds := rfl
@[simp] theorem State.iow_slots (b o : Nat) (v : Int) : (s.iow b o v).slots = s.slots := rfl
@[simp] theorem State.iow_ledgerPorts (b o : Nat) (v : Int) : (s.iow b o v).ledgerPorts = s.ledgerPorts := rfl
@[simp] theorem State.iow_ledger (b o : Nat) (v : Int) : (s.iow b o v).ledger = s.ledger := rfl
@[simp] theorem State.iow_tiles (b o : Nat) (v : Int) : (s.iow b o v).tiles = s.tiles := rfl
@[simp] theorem State.iow_ports (b o : Nat) (v : Int) : (s.iow b o v).ports = s.ports := rfl
@[simp] theorem State.iow_scrim (b o : Nat) (v : Int) : (s.iow b o v).scrim = s.scrim := rfl
@[simp] theorem State.iow_pins (b o : Nat) (v : Int) : (s.iow b o v).pins = s.pins := rfl
@[simp] theorem State.iow_coatFault (b o : Nat) (v : Int) : (s.iow b o v).coatFault = s.coatFault := rfl
@[simp] theorem State.iow_clk (b o : Nat) (v : Int) : (s.iow b o v).clk = s.clk := rfl
@[simp] theorem State.iow_convs (b o : Nat) (v : Int) : (s.iow b o v).convs = s.convs := rfl
@[simp] theorem State.iow_ref (b o : Nat) (v : Int) : (s.iow b o v).ref = s.ref := rfl
@[simp] theorem State.iow_mets (b o : Nat) (v : Int) : (s.iow b o v).mets = s.mets := rfl
@[simp] theorem State.iow_recs (b o : Nat) (v : Int) : (s.iow b o v).recs = s.recs := rfl
@[simp] theorem State.iow_otpShadow (b o : Nat) (v : Int) : (s.iow b o v).otpShadow = s.otpShadow := rfl
@[simp] theorem State.iow_rails (b o : Nat) (v : Int) : (s.iow b o v).rails = s.rails := rfl
@[simp] theorem State.iow_coat (b o : Nat) (v : Int) : (s.iow b o v).coat = s.coat := rfl
@[simp] theorem State.iow_recorder (b o : Nat) (v : Int) : (s.iow b o v).recorder = s.recorder := rfl
@[simp] theorem State.iow_nv (b o : Nat) (v : Int) : (s.iow b o v).nv = s.nv := rfl
@[simp] theorem State.iow_answer (b o : Nat) (v : Int) : (s.iow b o v).answer = s.answer := rfl
@[simp] theorem State.iow_cts (b o : Nat) (v : Int) : (s.iow b o v).cts = s.cts := rfl
@[simp] theorem State.iow_tbcs (b o : Nat) (v : Int) : (s.iow b o v).tbcs = s.tbcs := rfl
@[simp] theorem State.iow_tgs (b o : Nat) (v : Int) : (s.iow b o v).tgs = s.tgs := rfl
@[simp] theorem State.iow_time (b o : Nat) (v : Int) : (s.iow b o v).time = s.time := rfl
@[simp] theorem State.iow_otp (b o : Nat) (v : Int) : (s.iow b o v).otp = s.otp := rfl
@[simp] theorem State.iow_cores (b o : Nat) (v : Int) : (s.iow b o v).cores = s.cores := rfl
@[simp] theorem State.iow_mboxes (b o : Nat) (v : Int) : (s.iow b o v).mboxes = s.mboxes := rfl
@[simp] theorem State.iow_shared (b o : Nat) (v : Int) : (s.iow b o v).shared = s.shared := rfl
@[simp] theorem State.iow_float (b o : Nat) (v : Int) : (s.iow b o v).float = s.float := rfl
@[simp] theorem State.iow_power (b o : Nat) (v : Int) : (s.iow b o v).power = s.power := rfl
@[simp] theorem State.iow_tws (b o : Nat) (v : Int) : (s.iow b o v).tws = s.tws := rfl
@[simp] theorem State.iow_srcs (b o : Nat) (v : Int) : (s.iow b o v).srcs = s.srcs := rfl
@[simp] theorem State.iow_sess (b o : Nat) (v : Int) : (s.iow b o v).sess = s.sess := rfl
@[simp] theorem State.iow_nvm (b o : Nat) (v : Int) : (s.iow b o v).nvm = s.nvm := rfl
@[simp] theorem State.iow_sec (b o : Nat) (v : Int) : (s.iow b o v).sec = s.sec := rfl
@[simp] theorem State.setCmp_pending (i : Cmp) (x : CmpHw) : (s.setCmp i x).pending = s.pending := rfl
@[simp] theorem State.setCmp_od (i : Cmp) (x : CmpHw) : (s.setCmp i x).od = s.od := rfl
@[simp] theorem State.setCmp_odNew (i : Cmp) (x : CmpHw) : (s.setCmp i x).odNew = s.odNew := rfl
@[simp] theorem State.setCmp_blob (i : Cmp) (x : CmpHw) : (s.setCmp i x).blob = s.blob := rfl
@[simp] theorem State.setCmp_io (i : Cmp) (x : CmpHw) : (s.setCmp i x).io = s.io := rfl
@[simp] theorem State.setCmp_fresh (i : Cmp) (x : CmpHw) : (s.setCmp i x).fresh = s.fresh := rfl
@[simp] theorem State.setCmp_tb (i : Cmp) (x : CmpHw) : (s.setCmp i x).tb = s.tb := rfl
@[simp] theorem State.setCmp_paths (i : Cmp) (x : CmpHw) : (s.setCmp i x).paths = s.paths := rfl
@[simp] theorem State.setCmp_feeds (i : Cmp) (x : CmpHw) : (s.setCmp i x).feeds = s.feeds := rfl
@[simp] theorem State.setCmp_slots (i : Cmp) (x : CmpHw) : (s.setCmp i x).slots = s.slots := rfl
@[simp] theorem State.setCmp_ledgerPorts (i : Cmp) (x : CmpHw) : (s.setCmp i x).ledgerPorts = s.ledgerPorts := rfl
@[simp] theorem State.setCmp_ledger (i : Cmp) (x : CmpHw) : (s.setCmp i x).ledger = s.ledger := rfl
@[simp] theorem State.setCmp_tiles (i : Cmp) (x : CmpHw) : (s.setCmp i x).tiles = s.tiles := rfl
@[simp] theorem State.setCmp_ports (i : Cmp) (x : CmpHw) : (s.setCmp i x).ports = s.ports := rfl
@[simp] theorem State.setCmp_scrim (i : Cmp) (x : CmpHw) : (s.setCmp i x).scrim = s.scrim := rfl
@[simp] theorem State.setCmp_pins (i : Cmp) (x : CmpHw) : (s.setCmp i x).pins = s.pins := rfl
@[simp] theorem State.setCmp_coatFault (i : Cmp) (x : CmpHw) : (s.setCmp i x).coatFault = s.coatFault := rfl
@[simp] theorem State.setCmp_clk (i : Cmp) (x : CmpHw) : (s.setCmp i x).clk = s.clk := rfl
@[simp] theorem State.setCmp_convs (i : Cmp) (x : CmpHw) : (s.setCmp i x).convs = s.convs := rfl
@[simp] theorem State.setCmp_ref (i : Cmp) (x : CmpHw) : (s.setCmp i x).ref = s.ref := rfl
@[simp] theorem State.setCmp_mets (i : Cmp) (x : CmpHw) : (s.setCmp i x).mets = s.mets := rfl
@[simp] theorem State.setCmp_recs (i : Cmp) (x : CmpHw) : (s.setCmp i x).recs = s.recs := rfl
@[simp] theorem State.setCmp_otpShadow (i : Cmp) (x : CmpHw) : (s.setCmp i x).otpShadow = s.otpShadow := rfl
@[simp] theorem State.setCmp_rails (i : Cmp) (x : CmpHw) : (s.setCmp i x).rails = s.rails := rfl
@[simp] theorem State.setCmp_coat (i : Cmp) (x : CmpHw) : (s.setCmp i x).coat = s.coat := rfl
@[simp] theorem State.setCmp_recorder (i : Cmp) (x : CmpHw) : (s.setCmp i x).recorder = s.recorder := rfl
@[simp] theorem State.setCmp_nv (i : Cmp) (x : CmpHw) : (s.setCmp i x).nv = s.nv := rfl
@[simp] theorem State.setCmp_answer (i : Cmp) (x : CmpHw) : (s.setCmp i x).answer = s.answer := rfl
@[simp] theorem State.setCmp_cts (i : Cmp) (x : CmpHw) : (s.setCmp i x).cts = s.cts := rfl
@[simp] theorem State.setCmp_tbcs (i : Cmp) (x : CmpHw) : (s.setCmp i x).tbcs = s.tbcs := rfl
@[simp] theorem State.setCmp_tgs (i : Cmp) (x : CmpHw) : (s.setCmp i x).tgs = s.tgs := rfl
@[simp] theorem State.setCmp_time (i : Cmp) (x : CmpHw) : (s.setCmp i x).time = s.time := rfl
@[simp] theorem State.setCmp_otp (i : Cmp) (x : CmpHw) : (s.setCmp i x).otp = s.otp := rfl
@[simp] theorem State.setCmp_cores (i : Cmp) (x : CmpHw) : (s.setCmp i x).cores = s.cores := rfl
@[simp] theorem State.setCmp_mboxes (i : Cmp) (x : CmpHw) : (s.setCmp i x).mboxes = s.mboxes := rfl
@[simp] theorem State.setCmp_shared (i : Cmp) (x : CmpHw) : (s.setCmp i x).shared = s.shared := rfl
@[simp] theorem State.setCmp_float (i : Cmp) (x : CmpHw) : (s.setCmp i x).float = s.float := rfl
@[simp] theorem State.setCmp_power (i : Cmp) (x : CmpHw) : (s.setCmp i x).power = s.power := rfl
@[simp] theorem State.setCmp_tws (i : Cmp) (x : CmpHw) : (s.setCmp i x).tws = s.tws := rfl
@[simp] theorem State.setCmp_srcs (i : Cmp) (x : CmpHw) : (s.setCmp i x).srcs = s.srcs := rfl
@[simp] theorem State.setCmp_sess (i : Cmp) (x : CmpHw) : (s.setCmp i x).sess = s.sess := rfl
@[simp] theorem State.setCmp_nvm (i : Cmp) (x : CmpHw) : (s.setCmp i x).nvm = s.nvm := rfl
@[simp] theorem State.setCmp_sec (i : Cmp) (x : CmpHw) : (s.setCmp i x).sec = s.sec := rfl
@[simp] theorem State.setPath_pending (i : Port) (x : PathHw) : (s.setPath i x).pending = s.pending := rfl
@[simp] theorem State.setPath_od (i : Port) (x : PathHw) : (s.setPath i x).od = s.od := rfl
@[simp] theorem State.setPath_odNew (i : Port) (x : PathHw) : (s.setPath i x).odNew = s.odNew := rfl
@[simp] theorem State.setPath_blob (i : Port) (x : PathHw) : (s.setPath i x).blob = s.blob := rfl
@[simp] theorem State.setPath_io (i : Port) (x : PathHw) : (s.setPath i x).io = s.io := rfl
@[simp] theorem State.setPath_fresh (i : Port) (x : PathHw) : (s.setPath i x).fresh = s.fresh := rfl
@[simp] theorem State.setPath_tb (i : Port) (x : PathHw) : (s.setPath i x).tb = s.tb := rfl
@[simp] theorem State.setPath_cmps (i : Port) (x : PathHw) : (s.setPath i x).cmps = s.cmps := rfl
@[simp] theorem State.setPath_feeds (i : Port) (x : PathHw) : (s.setPath i x).feeds = s.feeds := rfl
@[simp] theorem State.setPath_slots (i : Port) (x : PathHw) : (s.setPath i x).slots = s.slots := rfl
@[simp] theorem State.setPath_ledgerPorts (i : Port) (x : PathHw) : (s.setPath i x).ledgerPorts = s.ledgerPorts := rfl
@[simp] theorem State.setPath_ledger (i : Port) (x : PathHw) : (s.setPath i x).ledger = s.ledger := rfl
@[simp] theorem State.setPath_tiles (i : Port) (x : PathHw) : (s.setPath i x).tiles = s.tiles := rfl
@[simp] theorem State.setPath_ports (i : Port) (x : PathHw) : (s.setPath i x).ports = s.ports := rfl
@[simp] theorem State.setPath_scrim (i : Port) (x : PathHw) : (s.setPath i x).scrim = s.scrim := rfl
@[simp] theorem State.setPath_pins (i : Port) (x : PathHw) : (s.setPath i x).pins = s.pins := rfl
@[simp] theorem State.setPath_coatFault (i : Port) (x : PathHw) : (s.setPath i x).coatFault = s.coatFault := rfl
@[simp] theorem State.setPath_clk (i : Port) (x : PathHw) : (s.setPath i x).clk = s.clk := rfl
@[simp] theorem State.setPath_convs (i : Port) (x : PathHw) : (s.setPath i x).convs = s.convs := rfl
@[simp] theorem State.setPath_ref (i : Port) (x : PathHw) : (s.setPath i x).ref = s.ref := rfl
@[simp] theorem State.setPath_mets (i : Port) (x : PathHw) : (s.setPath i x).mets = s.mets := rfl
@[simp] theorem State.setPath_recs (i : Port) (x : PathHw) : (s.setPath i x).recs = s.recs := rfl
@[simp] theorem State.setPath_otpShadow (i : Port) (x : PathHw) : (s.setPath i x).otpShadow = s.otpShadow := rfl
@[simp] theorem State.setPath_rails (i : Port) (x : PathHw) : (s.setPath i x).rails = s.rails := rfl
@[simp] theorem State.setPath_coat (i : Port) (x : PathHw) : (s.setPath i x).coat = s.coat := rfl
@[simp] theorem State.setPath_recorder (i : Port) (x : PathHw) : (s.setPath i x).recorder = s.recorder := rfl
@[simp] theorem State.setPath_nv (i : Port) (x : PathHw) : (s.setPath i x).nv = s.nv := rfl
@[simp] theorem State.setPath_answer (i : Port) (x : PathHw) : (s.setPath i x).answer = s.answer := rfl
@[simp] theorem State.setPath_cts (i : Port) (x : PathHw) : (s.setPath i x).cts = s.cts := rfl
@[simp] theorem State.setPath_tbcs (i : Port) (x : PathHw) : (s.setPath i x).tbcs = s.tbcs := rfl
@[simp] theorem State.setPath_tgs (i : Port) (x : PathHw) : (s.setPath i x).tgs = s.tgs := rfl
@[simp] theorem State.setPath_time (i : Port) (x : PathHw) : (s.setPath i x).time = s.time := rfl
@[simp] theorem State.setPath_otp (i : Port) (x : PathHw) : (s.setPath i x).otp = s.otp := rfl
@[simp] theorem State.setPath_cores (i : Port) (x : PathHw) : (s.setPath i x).cores = s.cores := rfl
@[simp] theorem State.setPath_mboxes (i : Port) (x : PathHw) : (s.setPath i x).mboxes = s.mboxes := rfl
@[simp] theorem State.setPath_shared (i : Port) (x : PathHw) : (s.setPath i x).shared = s.shared := rfl
@[simp] theorem State.setPath_float (i : Port) (x : PathHw) : (s.setPath i x).float = s.float := rfl
@[simp] theorem State.setPath_power (i : Port) (x : PathHw) : (s.setPath i x).power = s.power := rfl
@[simp] theorem State.setPath_tws (i : Port) (x : PathHw) : (s.setPath i x).tws = s.tws := rfl
@[simp] theorem State.setPath_srcs (i : Port) (x : PathHw) : (s.setPath i x).srcs = s.srcs := rfl
@[simp] theorem State.setPath_sess (i : Port) (x : PathHw) : (s.setPath i x).sess = s.sess := rfl
@[simp] theorem State.setPath_nvm (i : Port) (x : PathHw) : (s.setPath i x).nvm = s.nvm := rfl
@[simp] theorem State.setPath_sec (i : Port) (x : PathHw) : (s.setPath i x).sec = s.sec := rfl
@[simp] theorem State.setFeed_pending (i : Feed) (x : FeedHw) : (s.setFeed i x).pending = s.pending := rfl
@[simp] theorem State.setFeed_od (i : Feed) (x : FeedHw) : (s.setFeed i x).od = s.od := rfl
@[simp] theorem State.setFeed_odNew (i : Feed) (x : FeedHw) : (s.setFeed i x).odNew = s.odNew := rfl
@[simp] theorem State.setFeed_blob (i : Feed) (x : FeedHw) : (s.setFeed i x).blob = s.blob := rfl
@[simp] theorem State.setFeed_io (i : Feed) (x : FeedHw) : (s.setFeed i x).io = s.io := rfl
@[simp] theorem State.setFeed_fresh (i : Feed) (x : FeedHw) : (s.setFeed i x).fresh = s.fresh := rfl
@[simp] theorem State.setFeed_tb (i : Feed) (x : FeedHw) : (s.setFeed i x).tb = s.tb := rfl
@[simp] theorem State.setFeed_cmps (i : Feed) (x : FeedHw) : (s.setFeed i x).cmps = s.cmps := rfl
@[simp] theorem State.setFeed_paths (i : Feed) (x : FeedHw) : (s.setFeed i x).paths = s.paths := rfl
@[simp] theorem State.setFeed_slots (i : Feed) (x : FeedHw) : (s.setFeed i x).slots = s.slots := rfl
@[simp] theorem State.setFeed_ledgerPorts (i : Feed) (x : FeedHw) : (s.setFeed i x).ledgerPorts = s.ledgerPorts := rfl
@[simp] theorem State.setFeed_ledger (i : Feed) (x : FeedHw) : (s.setFeed i x).ledger = s.ledger := rfl
@[simp] theorem State.setFeed_tiles (i : Feed) (x : FeedHw) : (s.setFeed i x).tiles = s.tiles := rfl
@[simp] theorem State.setFeed_ports (i : Feed) (x : FeedHw) : (s.setFeed i x).ports = s.ports := rfl
@[simp] theorem State.setFeed_scrim (i : Feed) (x : FeedHw) : (s.setFeed i x).scrim = s.scrim := rfl
@[simp] theorem State.setFeed_pins (i : Feed) (x : FeedHw) : (s.setFeed i x).pins = s.pins := rfl
@[simp] theorem State.setFeed_coatFault (i : Feed) (x : FeedHw) : (s.setFeed i x).coatFault = s.coatFault := rfl
@[simp] theorem State.setFeed_clk (i : Feed) (x : FeedHw) : (s.setFeed i x).clk = s.clk := rfl
@[simp] theorem State.setFeed_convs (i : Feed) (x : FeedHw) : (s.setFeed i x).convs = s.convs := rfl
@[simp] theorem State.setFeed_ref (i : Feed) (x : FeedHw) : (s.setFeed i x).ref = s.ref := rfl
@[simp] theorem State.setFeed_mets (i : Feed) (x : FeedHw) : (s.setFeed i x).mets = s.mets := rfl
@[simp] theorem State.setFeed_recs (i : Feed) (x : FeedHw) : (s.setFeed i x).recs = s.recs := rfl
@[simp] theorem State.setFeed_otpShadow (i : Feed) (x : FeedHw) : (s.setFeed i x).otpShadow = s.otpShadow := rfl
@[simp] theorem State.setFeed_rails (i : Feed) (x : FeedHw) : (s.setFeed i x).rails = s.rails := rfl
@[simp] theorem State.setFeed_coat (i : Feed) (x : FeedHw) : (s.setFeed i x).coat = s.coat := rfl
@[simp] theorem State.setFeed_recorder (i : Feed) (x : FeedHw) : (s.setFeed i x).recorder = s.recorder := rfl
@[simp] theorem State.setFeed_nv (i : Feed) (x : FeedHw) : (s.setFeed i x).nv = s.nv := rfl
@[simp] theorem State.setFeed_answer (i : Feed) (x : FeedHw) : (s.setFeed i x).answer = s.answer := rfl
@[simp] theorem State.setFeed_cts (i : Feed) (x : FeedHw) : (s.setFeed i x).cts = s.cts := rfl
@[simp] theorem State.setFeed_tbcs (i : Feed) (x : FeedHw) : (s.setFeed i x).tbcs = s.tbcs := rfl
@[simp] theorem State.setFeed_tgs (i : Feed) (x : FeedHw) : (s.setFeed i x).tgs = s.tgs := rfl
@[simp] theorem State.setFeed_time (i : Feed) (x : FeedHw) : (s.setFeed i x).time = s.time := rfl
@[simp] theorem State.setFeed_otp (i : Feed) (x : FeedHw) : (s.setFeed i x).otp = s.otp := rfl
@[simp] theorem State.setFeed_cores (i : Feed) (x : FeedHw) : (s.setFeed i x).cores = s.cores := rfl
@[simp] theorem State.setFeed_mboxes (i : Feed) (x : FeedHw) : (s.setFeed i x).mboxes = s.mboxes := rfl
@[simp] theorem State.setFeed_shared (i : Feed) (x : FeedHw) : (s.setFeed i x).shared = s.shared := rfl
@[simp] theorem State.setFeed_float (i : Feed) (x : FeedHw) : (s.setFeed i x).float = s.float := rfl
@[simp] theorem State.setFeed_power (i : Feed) (x : FeedHw) : (s.setFeed i x).power = s.power := rfl
@[simp] theorem State.setFeed_tws (i : Feed) (x : FeedHw) : (s.setFeed i x).tws = s.tws := rfl
@[simp] theorem State.setFeed_srcs (i : Feed) (x : FeedHw) : (s.setFeed i x).srcs = s.srcs := rfl
@[simp] theorem State.setFeed_sess (i : Feed) (x : FeedHw) : (s.setFeed i x).sess = s.sess := rfl
@[simp] theorem State.setFeed_nvm (i : Feed) (x : FeedHw) : (s.setFeed i x).nvm = s.nvm := rfl
@[simp] theorem State.setFeed_sec (i : Feed) (x : FeedHw) : (s.setFeed i x).sec = s.sec := rfl
@[simp] theorem State.setSlot_pending (i : Slot) (x : SlotHw) : (s.setSlot i x).pending = s.pending := rfl
@[simp] theorem State.setSlot_od (i : Slot) (x : SlotHw) : (s.setSlot i x).od = s.od := rfl
@[simp] theorem State.setSlot_odNew (i : Slot) (x : SlotHw) : (s.setSlot i x).odNew = s.odNew := rfl
@[simp] theorem State.setSlot_blob (i : Slot) (x : SlotHw) : (s.setSlot i x).blob = s.blob := rfl
@[simp] theorem State.setSlot_io (i : Slot) (x : SlotHw) : (s.setSlot i x).io = s.io := rfl
@[simp] theorem State.setSlot_fresh (i : Slot) (x : SlotHw) : (s.setSlot i x).fresh = s.fresh := rfl
@[simp] theorem State.setSlot_tb (i : Slot) (x : SlotHw) : (s.setSlot i x).tb = s.tb := rfl
@[simp] theorem State.setSlot_cmps (i : Slot) (x : SlotHw) : (s.setSlot i x).cmps = s.cmps := rfl
@[simp] theorem State.setSlot_paths (i : Slot) (x : SlotHw) : (s.setSlot i x).paths = s.paths := rfl
@[simp] theorem State.setSlot_feeds (i : Slot) (x : SlotHw) : (s.setSlot i x).feeds = s.feeds := rfl
@[simp] theorem State.setSlot_ledgerPorts (i : Slot) (x : SlotHw) : (s.setSlot i x).ledgerPorts = s.ledgerPorts := rfl
@[simp] theorem State.setSlot_ledger (i : Slot) (x : SlotHw) : (s.setSlot i x).ledger = s.ledger := rfl
@[simp] theorem State.setSlot_tiles (i : Slot) (x : SlotHw) : (s.setSlot i x).tiles = s.tiles := rfl
@[simp] theorem State.setSlot_ports (i : Slot) (x : SlotHw) : (s.setSlot i x).ports = s.ports := rfl
@[simp] theorem State.setSlot_scrim (i : Slot) (x : SlotHw) : (s.setSlot i x).scrim = s.scrim := rfl
@[simp] theorem State.setSlot_pins (i : Slot) (x : SlotHw) : (s.setSlot i x).pins = s.pins := rfl
@[simp] theorem State.setSlot_coatFault (i : Slot) (x : SlotHw) : (s.setSlot i x).coatFault = s.coatFault := rfl
@[simp] theorem State.setSlot_clk (i : Slot) (x : SlotHw) : (s.setSlot i x).clk = s.clk := rfl
@[simp] theorem State.setSlot_convs (i : Slot) (x : SlotHw) : (s.setSlot i x).convs = s.convs := rfl
@[simp] theorem State.setSlot_ref (i : Slot) (x : SlotHw) : (s.setSlot i x).ref = s.ref := rfl
@[simp] theorem State.setSlot_mets (i : Slot) (x : SlotHw) : (s.setSlot i x).mets = s.mets := rfl
@[simp] theorem State.setSlot_recs (i : Slot) (x : SlotHw) : (s.setSlot i x).recs = s.recs := rfl
@[simp] theorem State.setSlot_otpShadow (i : Slot) (x : SlotHw) : (s.setSlot i x).otpShadow = s.otpShadow := rfl
@[simp] theorem State.setSlot_rails (i : Slot) (x : SlotHw) : (s.setSlot i x).rails = s.rails := rfl
@[simp] theorem State.setSlot_coat (i : Slot) (x : SlotHw) : (s.setSlot i x).coat = s.coat := rfl
@[simp] theorem State.setSlot_recorder (i : Slot) (x : SlotHw) : (s.setSlot i x).recorder = s.recorder := rfl
@[simp] theorem State.setSlot_nv (i : Slot) (x : SlotHw) : (s.setSlot i x).nv = s.nv := rfl
@[simp] theorem State.setSlot_answer (i : Slot) (x : SlotHw) : (s.setSlot i x).answer = s.answer := rfl
@[simp] theorem State.setSlot_cts (i : Slot) (x : SlotHw) : (s.setSlot i x).cts = s.cts := rfl
@[simp] theorem State.setSlot_tbcs (i : Slot) (x : SlotHw) : (s.setSlot i x).tbcs = s.tbcs := rfl
@[simp] theorem State.setSlot_tgs (i : Slot) (x : SlotHw) : (s.setSlot i x).tgs = s.tgs := rfl
@[simp] theorem State.setSlot_time (i : Slot) (x : SlotHw) : (s.setSlot i x).time = s.time := rfl
@[simp] theorem State.setSlot_otp (i : Slot) (x : SlotHw) : (s.setSlot i x).otp = s.otp := rfl
@[simp] theorem State.setSlot_cores (i : Slot) (x : SlotHw) : (s.setSlot i x).cores = s.cores := rfl
@[simp] theorem State.setSlot_mboxes (i : Slot) (x : SlotHw) : (s.setSlot i x).mboxes = s.mboxes := rfl
@[simp] theorem State.setSlot_shared (i : Slot) (x : SlotHw) : (s.setSlot i x).shared = s.shared := rfl
@[simp] theorem State.setSlot_float (i : Slot) (x : SlotHw) : (s.setSlot i x).float = s.float := rfl
@[simp] theorem State.setSlot_power (i : Slot) (x : SlotHw) : (s.setSlot i x).power = s.power := rfl
@[simp] theorem State.setSlot_tws (i : Slot) (x : SlotHw) : (s.setSlot i x).tws = s.tws := rfl
@[simp] theorem State.setSlot_srcs (i : Slot) (x : SlotHw) : (s.setSlot i x).srcs = s.srcs := rfl
@[simp] theorem State.setSlot_sess (i : Slot) (x : SlotHw) : (s.setSlot i x).sess = s.sess := rfl
@[simp] theorem State.setSlot_nvm (i : Slot) (x : SlotHw) : (s.setSlot i x).nvm = s.nvm := rfl
@[simp] theorem State.setSlot_sec (i : Slot) (x : SlotHw) : (s.setSlot i x).sec = s.sec := rfl
@[simp] theorem State.setLport_pending (i : Port) (x : LedgerPort) : (s.setLport i x).pending = s.pending := rfl
@[simp] theorem State.setLport_od (i : Port) (x : LedgerPort) : (s.setLport i x).od = s.od := rfl
@[simp] theorem State.setLport_odNew (i : Port) (x : LedgerPort) : (s.setLport i x).odNew = s.odNew := rfl
@[simp] theorem State.setLport_blob (i : Port) (x : LedgerPort) : (s.setLport i x).blob = s.blob := rfl
@[simp] theorem State.setLport_io (i : Port) (x : LedgerPort) : (s.setLport i x).io = s.io := rfl
@[simp] theorem State.setLport_fresh (i : Port) (x : LedgerPort) : (s.setLport i x).fresh = s.fresh := rfl
@[simp] theorem State.setLport_tb (i : Port) (x : LedgerPort) : (s.setLport i x).tb = s.tb := rfl
@[simp] theorem State.setLport_cmps (i : Port) (x : LedgerPort) : (s.setLport i x).cmps = s.cmps := rfl
@[simp] theorem State.setLport_paths (i : Port) (x : LedgerPort) : (s.setLport i x).paths = s.paths := rfl
@[simp] theorem State.setLport_feeds (i : Port) (x : LedgerPort) : (s.setLport i x).feeds = s.feeds := rfl
@[simp] theorem State.setLport_slots (i : Port) (x : LedgerPort) : (s.setLport i x).slots = s.slots := rfl
@[simp] theorem State.setLport_ledger (i : Port) (x : LedgerPort) : (s.setLport i x).ledger = s.ledger := rfl
@[simp] theorem State.setLport_tiles (i : Port) (x : LedgerPort) : (s.setLport i x).tiles = s.tiles := rfl
@[simp] theorem State.setLport_ports (i : Port) (x : LedgerPort) : (s.setLport i x).ports = s.ports := rfl
@[simp] theorem State.setLport_scrim (i : Port) (x : LedgerPort) : (s.setLport i x).scrim = s.scrim := rfl
@[simp] theorem State.setLport_pins (i : Port) (x : LedgerPort) : (s.setLport i x).pins = s.pins := rfl
@[simp] theorem State.setLport_coatFault (i : Port) (x : LedgerPort) : (s.setLport i x).coatFault = s.coatFault := rfl
@[simp] theorem State.setLport_clk (i : Port) (x : LedgerPort) : (s.setLport i x).clk = s.clk := rfl
@[simp] theorem State.setLport_convs (i : Port) (x : LedgerPort) : (s.setLport i x).convs = s.convs := rfl
@[simp] theorem State.setLport_ref (i : Port) (x : LedgerPort) : (s.setLport i x).ref = s.ref := rfl
@[simp] theorem State.setLport_mets (i : Port) (x : LedgerPort) : (s.setLport i x).mets = s.mets := rfl
@[simp] theorem State.setLport_recs (i : Port) (x : LedgerPort) : (s.setLport i x).recs = s.recs := rfl
@[simp] theorem State.setLport_otpShadow (i : Port) (x : LedgerPort) : (s.setLport i x).otpShadow = s.otpShadow := rfl
@[simp] theorem State.setLport_rails (i : Port) (x : LedgerPort) : (s.setLport i x).rails = s.rails := rfl
@[simp] theorem State.setLport_coat (i : Port) (x : LedgerPort) : (s.setLport i x).coat = s.coat := rfl
@[simp] theorem State.setLport_recorder (i : Port) (x : LedgerPort) : (s.setLport i x).recorder = s.recorder := rfl
@[simp] theorem State.setLport_nv (i : Port) (x : LedgerPort) : (s.setLport i x).nv = s.nv := rfl
@[simp] theorem State.setLport_answer (i : Port) (x : LedgerPort) : (s.setLport i x).answer = s.answer := rfl
@[simp] theorem State.setLport_cts (i : Port) (x : LedgerPort) : (s.setLport i x).cts = s.cts := rfl
@[simp] theorem State.setLport_tbcs (i : Port) (x : LedgerPort) : (s.setLport i x).tbcs = s.tbcs := rfl
@[simp] theorem State.setLport_tgs (i : Port) (x : LedgerPort) : (s.setLport i x).tgs = s.tgs := rfl
@[simp] theorem State.setLport_time (i : Port) (x : LedgerPort) : (s.setLport i x).time = s.time := rfl
@[simp] theorem State.setLport_otp (i : Port) (x : LedgerPort) : (s.setLport i x).otp = s.otp := rfl
@[simp] theorem State.setLport_cores (i : Port) (x : LedgerPort) : (s.setLport i x).cores = s.cores := rfl
@[simp] theorem State.setLport_mboxes (i : Port) (x : LedgerPort) : (s.setLport i x).mboxes = s.mboxes := rfl
@[simp] theorem State.setLport_shared (i : Port) (x : LedgerPort) : (s.setLport i x).shared = s.shared := rfl
@[simp] theorem State.setLport_float (i : Port) (x : LedgerPort) : (s.setLport i x).float = s.float := rfl
@[simp] theorem State.setLport_power (i : Port) (x : LedgerPort) : (s.setLport i x).power = s.power := rfl
@[simp] theorem State.setLport_tws (i : Port) (x : LedgerPort) : (s.setLport i x).tws = s.tws := rfl
@[simp] theorem State.setLport_srcs (i : Port) (x : LedgerPort) : (s.setLport i x).srcs = s.srcs := rfl
@[simp] theorem State.setLport_sess (i : Port) (x : LedgerPort) : (s.setLport i x).sess = s.sess := rfl
@[simp] theorem State.setLport_nvm (i : Port) (x : LedgerPort) : (s.setLport i x).nvm = s.nvm := rfl
@[simp] theorem State.setLport_sec (i : Port) (x : LedgerPort) : (s.setLport i x).sec = s.sec := rfl
@[simp] theorem State.setPort_pending (i : Port) (x : PortHw) : (s.setPort i x).pending = s.pending := rfl
@[simp] theorem State.setPort_od (i : Port) (x : PortHw) : (s.setPort i x).od = s.od := rfl
@[simp] theorem State.setPort_odNew (i : Port) (x : PortHw) : (s.setPort i x).odNew = s.odNew := rfl
@[simp] theorem State.setPort_blob (i : Port) (x : PortHw) : (s.setPort i x).blob = s.blob := rfl
@[simp] theorem State.setPort_io (i : Port) (x : PortHw) : (s.setPort i x).io = s.io := rfl
@[simp] theorem State.setPort_fresh (i : Port) (x : PortHw) : (s.setPort i x).fresh = s.fresh := rfl
@[simp] theorem State.setPort_tb (i : Port) (x : PortHw) : (s.setPort i x).tb = s.tb := rfl
@[simp] theorem State.setPort_cmps (i : Port) (x : PortHw) : (s.setPort i x).cmps = s.cmps := rfl
@[simp] theorem State.setPort_paths (i : Port) (x : PortHw) : (s.setPort i x).paths = s.paths := rfl
@[simp] theorem State.setPort_feeds (i : Port) (x : PortHw) : (s.setPort i x).feeds = s.feeds := rfl
@[simp] theorem State.setPort_slots (i : Port) (x : PortHw) : (s.setPort i x).slots = s.slots := rfl
@[simp] theorem State.setPort_ledgerPorts (i : Port) (x : PortHw) : (s.setPort i x).ledgerPorts = s.ledgerPorts := rfl
@[simp] theorem State.setPort_ledger (i : Port) (x : PortHw) : (s.setPort i x).ledger = s.ledger := rfl
@[simp] theorem State.setPort_tiles (i : Port) (x : PortHw) : (s.setPort i x).tiles = s.tiles := rfl
@[simp] theorem State.setPort_scrim (i : Port) (x : PortHw) : (s.setPort i x).scrim = s.scrim := rfl
@[simp] theorem State.setPort_pins (i : Port) (x : PortHw) : (s.setPort i x).pins = s.pins := rfl
@[simp] theorem State.setPort_coatFault (i : Port) (x : PortHw) : (s.setPort i x).coatFault = s.coatFault := rfl
@[simp] theorem State.setPort_clk (i : Port) (x : PortHw) : (s.setPort i x).clk = s.clk := rfl
@[simp] theorem State.setPort_convs (i : Port) (x : PortHw) : (s.setPort i x).convs = s.convs := rfl
@[simp] theorem State.setPort_ref (i : Port) (x : PortHw) : (s.setPort i x).ref = s.ref := rfl
@[simp] theorem State.setPort_mets (i : Port) (x : PortHw) : (s.setPort i x).mets = s.mets := rfl
@[simp] theorem State.setPort_recs (i : Port) (x : PortHw) : (s.setPort i x).recs = s.recs := rfl
@[simp] theorem State.setPort_otpShadow (i : Port) (x : PortHw) : (s.setPort i x).otpShadow = s.otpShadow := rfl
@[simp] theorem State.setPort_rails (i : Port) (x : PortHw) : (s.setPort i x).rails = s.rails := rfl
@[simp] theorem State.setPort_coat (i : Port) (x : PortHw) : (s.setPort i x).coat = s.coat := rfl
@[simp] theorem State.setPort_recorder (i : Port) (x : PortHw) : (s.setPort i x).recorder = s.recorder := rfl
@[simp] theorem State.setPort_nv (i : Port) (x : PortHw) : (s.setPort i x).nv = s.nv := rfl
@[simp] theorem State.setPort_answer (i : Port) (x : PortHw) : (s.setPort i x).answer = s.answer := rfl
@[simp] theorem State.setPort_cts (i : Port) (x : PortHw) : (s.setPort i x).cts = s.cts := rfl
@[simp] theorem State.setPort_tbcs (i : Port) (x : PortHw) : (s.setPort i x).tbcs = s.tbcs := rfl
@[simp] theorem State.setPort_tgs (i : Port) (x : PortHw) : (s.setPort i x).tgs = s.tgs := rfl
@[simp] theorem State.setPort_time (i : Port) (x : PortHw) : (s.setPort i x).time = s.time := rfl
@[simp] theorem State.setPort_otp (i : Port) (x : PortHw) : (s.setPort i x).otp = s.otp := rfl
@[simp] theorem State.setPort_cores (i : Port) (x : PortHw) : (s.setPort i x).cores = s.cores := rfl
@[simp] theorem State.setPort_mboxes (i : Port) (x : PortHw) : (s.setPort i x).mboxes = s.mboxes := rfl
@[simp] theorem State.setPort_shared (i : Port) (x : PortHw) : (s.setPort i x).shared = s.shared := rfl
@[simp] theorem State.setPort_float (i : Port) (x : PortHw) : (s.setPort i x).float = s.float := rfl
@[simp] theorem State.setPort_power (i : Port) (x : PortHw) : (s.setPort i x).power = s.power := rfl
@[simp] theorem State.setPort_tws (i : Port) (x : PortHw) : (s.setPort i x).tws = s.tws := rfl
@[simp] theorem State.setPort_srcs (i : Port) (x : PortHw) : (s.setPort i x).srcs = s.srcs := rfl
@[simp] theorem State.setPort_sess (i : Port) (x : PortHw) : (s.setPort i x).sess = s.sess := rfl
@[simp] theorem State.setPort_nvm (i : Port) (x : PortHw) : (s.setPort i x).nvm = s.nvm := rfl
@[simp] theorem State.setPort_sec (i : Port) (x : PortHw) : (s.setPort i x).sec = s.sec := rfl
@[simp] theorem State.setConv_pending (i : Conv) (x : ConvHw) : (s.setConv i x).pending = s.pending := rfl
@[simp] theorem State.setConv_od (i : Conv) (x : ConvHw) : (s.setConv i x).od = s.od := rfl
@[simp] theorem State.setConv_odNew (i : Conv) (x : ConvHw) : (s.setConv i x).odNew = s.odNew := rfl
@[simp] theorem State.setConv_blob (i : Conv) (x : ConvHw) : (s.setConv i x).blob = s.blob := rfl
@[simp] theorem State.setConv_io (i : Conv) (x : ConvHw) : (s.setConv i x).io = s.io := rfl
@[simp] theorem State.setConv_fresh (i : Conv) (x : ConvHw) : (s.setConv i x).fresh = s.fresh := rfl
@[simp] theorem State.setConv_tb (i : Conv) (x : ConvHw) : (s.setConv i x).tb = s.tb := rfl
@[simp] theorem State.setConv_cmps (i : Conv) (x : ConvHw) : (s.setConv i x).cmps = s.cmps := rfl
@[simp] theorem State.setConv_paths (i : Conv) (x : ConvHw) : (s.setConv i x).paths = s.paths := rfl
@[simp] theorem State.setConv_feeds (i : Conv) (x : ConvHw) : (s.setConv i x).feeds = s.feeds := rfl
@[simp] theorem State.setConv_slots (i : Conv) (x : ConvHw) : (s.setConv i x).slots = s.slots := rfl
@[simp] theorem State.setConv_ledgerPorts (i : Conv) (x : ConvHw) : (s.setConv i x).ledgerPorts = s.ledgerPorts := rfl
@[simp] theorem State.setConv_ledger (i : Conv) (x : ConvHw) : (s.setConv i x).ledger = s.ledger := rfl
@[simp] theorem State.setConv_tiles (i : Conv) (x : ConvHw) : (s.setConv i x).tiles = s.tiles := rfl
@[simp] theorem State.setConv_ports (i : Conv) (x : ConvHw) : (s.setConv i x).ports = s.ports := rfl
@[simp] theorem State.setConv_scrim (i : Conv) (x : ConvHw) : (s.setConv i x).scrim = s.scrim := rfl
@[simp] theorem State.setConv_pins (i : Conv) (x : ConvHw) : (s.setConv i x).pins = s.pins := rfl
@[simp] theorem State.setConv_coatFault (i : Conv) (x : ConvHw) : (s.setConv i x).coatFault = s.coatFault := rfl
@[simp] theorem State.setConv_clk (i : Conv) (x : ConvHw) : (s.setConv i x).clk = s.clk := rfl
@[simp] theorem State.setConv_ref (i : Conv) (x : ConvHw) : (s.setConv i x).ref = s.ref := rfl
@[simp] theorem State.setConv_mets (i : Conv) (x : ConvHw) : (s.setConv i x).mets = s.mets := rfl
@[simp] theorem State.setConv_recs (i : Conv) (x : ConvHw) : (s.setConv i x).recs = s.recs := rfl
@[simp] theorem State.setConv_otpShadow (i : Conv) (x : ConvHw) : (s.setConv i x).otpShadow = s.otpShadow := rfl
@[simp] theorem State.setConv_rails (i : Conv) (x : ConvHw) : (s.setConv i x).rails = s.rails := rfl
@[simp] theorem State.setConv_coat (i : Conv) (x : ConvHw) : (s.setConv i x).coat = s.coat := rfl
@[simp] theorem State.setConv_recorder (i : Conv) (x : ConvHw) : (s.setConv i x).recorder = s.recorder := rfl
@[simp] theorem State.setConv_nv (i : Conv) (x : ConvHw) : (s.setConv i x).nv = s.nv := rfl
@[simp] theorem State.setConv_answer (i : Conv) (x : ConvHw) : (s.setConv i x).answer = s.answer := rfl
@[simp] theorem State.setConv_cts (i : Conv) (x : ConvHw) : (s.setConv i x).cts = s.cts := rfl
@[simp] theorem State.setConv_tbcs (i : Conv) (x : ConvHw) : (s.setConv i x).tbcs = s.tbcs := rfl
@[simp] theorem State.setConv_tgs (i : Conv) (x : ConvHw) : (s.setConv i x).tgs = s.tgs := rfl
@[simp] theorem State.setConv_time (i : Conv) (x : ConvHw) : (s.setConv i x).time = s.time := rfl
@[simp] theorem State.setConv_otp (i : Conv) (x : ConvHw) : (s.setConv i x).otp = s.otp := rfl
@[simp] theorem State.setConv_cores (i : Conv) (x : ConvHw) : (s.setConv i x).cores = s.cores := rfl
@[simp] theorem State.setConv_mboxes (i : Conv) (x : ConvHw) : (s.setConv i x).mboxes = s.mboxes := rfl
@[simp] theorem State.setConv_shared (i : Conv) (x : ConvHw) : (s.setConv i x).shared = s.shared := rfl
@[simp] theorem State.setConv_float (i : Conv) (x : ConvHw) : (s.setConv i x).float = s.float := rfl
@[simp] theorem State.setConv_power (i : Conv) (x : ConvHw) : (s.setConv i x).power = s.power := rfl
@[simp] theorem State.setConv_tws (i : Conv) (x : ConvHw) : (s.setConv i x).tws = s.tws := rfl
@[simp] theorem State.setConv_srcs (i : Conv) (x : ConvHw) : (s.setConv i x).srcs = s.srcs := rfl
@[simp] theorem State.setConv_sess (i : Conv) (x : ConvHw) : (s.setConv i x).sess = s.sess := rfl
@[simp] theorem State.setConv_nvm (i : Conv) (x : ConvHw) : (s.setConv i x).nvm = s.nvm := rfl
@[simp] theorem State.setConv_sec (i : Conv) (x : ConvHw) : (s.setConv i x).sec = s.sec := rfl
@[simp] theorem State.setMet_pending (i : Fin 100) (x : MetHw) : (s.setMet i x).pending = s.pending := rfl
@[simp] theorem State.setMet_od (i : Fin 100) (x : MetHw) : (s.setMet i x).od = s.od := rfl
@[simp] theorem State.setMet_odNew (i : Fin 100) (x : MetHw) : (s.setMet i x).odNew = s.odNew := rfl
@[simp] theorem State.setMet_blob (i : Fin 100) (x : MetHw) : (s.setMet i x).blob = s.blob := rfl
@[simp] theorem State.setMet_io (i : Fin 100) (x : MetHw) : (s.setMet i x).io = s.io := rfl
@[simp] theorem State.setMet_fresh (i : Fin 100) (x : MetHw) : (s.setMet i x).fresh = s.fresh := rfl
@[simp] theorem State.setMet_tb (i : Fin 100) (x : MetHw) : (s.setMet i x).tb = s.tb := rfl
@[simp] theorem State.setMet_cmps (i : Fin 100) (x : MetHw) : (s.setMet i x).cmps = s.cmps := rfl
@[simp] theorem State.setMet_paths (i : Fin 100) (x : MetHw) : (s.setMet i x).paths = s.paths := rfl
@[simp] theorem State.setMet_feeds (i : Fin 100) (x : MetHw) : (s.setMet i x).feeds = s.feeds := rfl
@[simp] theorem State.setMet_slots (i : Fin 100) (x : MetHw) : (s.setMet i x).slots = s.slots := rfl
@[simp] theorem State.setMet_ledgerPorts (i : Fin 100) (x : MetHw) : (s.setMet i x).ledgerPorts = s.ledgerPorts := rfl
@[simp] theorem State.setMet_ledger (i : Fin 100) (x : MetHw) : (s.setMet i x).ledger = s.ledger := rfl
@[simp] theorem State.setMet_tiles (i : Fin 100) (x : MetHw) : (s.setMet i x).tiles = s.tiles := rfl
@[simp] theorem State.setMet_ports (i : Fin 100) (x : MetHw) : (s.setMet i x).ports = s.ports := rfl
@[simp] theorem State.setMet_scrim (i : Fin 100) (x : MetHw) : (s.setMet i x).scrim = s.scrim := rfl
@[simp] theorem State.setMet_pins (i : Fin 100) (x : MetHw) : (s.setMet i x).pins = s.pins := rfl
@[simp] theorem State.setMet_coatFault (i : Fin 100) (x : MetHw) : (s.setMet i x).coatFault = s.coatFault := rfl
@[simp] theorem State.setMet_clk (i : Fin 100) (x : MetHw) : (s.setMet i x).clk = s.clk := rfl
@[simp] theorem State.setMet_convs (i : Fin 100) (x : MetHw) : (s.setMet i x).convs = s.convs := rfl
@[simp] theorem State.setMet_ref (i : Fin 100) (x : MetHw) : (s.setMet i x).ref = s.ref := rfl
@[simp] theorem State.setMet_recs (i : Fin 100) (x : MetHw) : (s.setMet i x).recs = s.recs := rfl
@[simp] theorem State.setMet_otpShadow (i : Fin 100) (x : MetHw) : (s.setMet i x).otpShadow = s.otpShadow := rfl
@[simp] theorem State.setMet_rails (i : Fin 100) (x : MetHw) : (s.setMet i x).rails = s.rails := rfl
@[simp] theorem State.setMet_coat (i : Fin 100) (x : MetHw) : (s.setMet i x).coat = s.coat := rfl
@[simp] theorem State.setMet_recorder (i : Fin 100) (x : MetHw) : (s.setMet i x).recorder = s.recorder := rfl
@[simp] theorem State.setMet_nv (i : Fin 100) (x : MetHw) : (s.setMet i x).nv = s.nv := rfl
@[simp] theorem State.setMet_answer (i : Fin 100) (x : MetHw) : (s.setMet i x).answer = s.answer := rfl
@[simp] theorem State.setMet_cts (i : Fin 100) (x : MetHw) : (s.setMet i x).cts = s.cts := rfl
@[simp] theorem State.setMet_tbcs (i : Fin 100) (x : MetHw) : (s.setMet i x).tbcs = s.tbcs := rfl
@[simp] theorem State.setMet_tgs (i : Fin 100) (x : MetHw) : (s.setMet i x).tgs = s.tgs := rfl
@[simp] theorem State.setMet_time (i : Fin 100) (x : MetHw) : (s.setMet i x).time = s.time := rfl
@[simp] theorem State.setMet_otp (i : Fin 100) (x : MetHw) : (s.setMet i x).otp = s.otp := rfl
@[simp] theorem State.setMet_cores (i : Fin 100) (x : MetHw) : (s.setMet i x).cores = s.cores := rfl
@[simp] theorem State.setMet_mboxes (i : Fin 100) (x : MetHw) : (s.setMet i x).mboxes = s.mboxes := rfl
@[simp] theorem State.setMet_shared (i : Fin 100) (x : MetHw) : (s.setMet i x).shared = s.shared := rfl
@[simp] theorem State.setMet_float (i : Fin 100) (x : MetHw) : (s.setMet i x).float = s.float := rfl
@[simp] theorem State.setMet_power (i : Fin 100) (x : MetHw) : (s.setMet i x).power = s.power := rfl
@[simp] theorem State.setMet_tws (i : Fin 100) (x : MetHw) : (s.setMet i x).tws = s.tws := rfl
@[simp] theorem State.setMet_srcs (i : Fin 100) (x : MetHw) : (s.setMet i x).srcs = s.srcs := rfl
@[simp] theorem State.setMet_sess (i : Fin 100) (x : MetHw) : (s.setMet i x).sess = s.sess := rfl
@[simp] theorem State.setMet_nvm (i : Fin 100) (x : MetHw) : (s.setMet i x).nvm = s.nvm := rfl
@[simp] theorem State.setMet_sec (i : Fin 100) (x : MetHw) : (s.setMet i x).sec = s.sec := rfl
@[simp] theorem State.setRail_pending (i : Rail) (x : RailHw) : (s.setRail i x).pending = s.pending := rfl
@[simp] theorem State.setRail_od (i : Rail) (x : RailHw) : (s.setRail i x).od = s.od := rfl
@[simp] theorem State.setRail_odNew (i : Rail) (x : RailHw) : (s.setRail i x).odNew = s.odNew := rfl
@[simp] theorem State.setRail_blob (i : Rail) (x : RailHw) : (s.setRail i x).blob = s.blob := rfl
@[simp] theorem State.setRail_io (i : Rail) (x : RailHw) : (s.setRail i x).io = s.io := rfl
@[simp] theorem State.setRail_fresh (i : Rail) (x : RailHw) : (s.setRail i x).fresh = s.fresh := rfl
@[simp] theorem State.setRail_tb (i : Rail) (x : RailHw) : (s.setRail i x).tb = s.tb := rfl
@[simp] theorem State.setRail_cmps (i : Rail) (x : RailHw) : (s.setRail i x).cmps = s.cmps := rfl
@[simp] theorem State.setRail_paths (i : Rail) (x : RailHw) : (s.setRail i x).paths = s.paths := rfl
@[simp] theorem State.setRail_feeds (i : Rail) (x : RailHw) : (s.setRail i x).feeds = s.feeds := rfl
@[simp] theorem State.setRail_slots (i : Rail) (x : RailHw) : (s.setRail i x).slots = s.slots := rfl
@[simp] theorem State.setRail_ledgerPorts (i : Rail) (x : RailHw) : (s.setRail i x).ledgerPorts = s.ledgerPorts := rfl
@[simp] theorem State.setRail_ledger (i : Rail) (x : RailHw) : (s.setRail i x).ledger = s.ledger := rfl
@[simp] theorem State.setRail_tiles (i : Rail) (x : RailHw) : (s.setRail i x).tiles = s.tiles := rfl
@[simp] theorem State.setRail_ports (i : Rail) (x : RailHw) : (s.setRail i x).ports = s.ports := rfl
@[simp] theorem State.setRail_scrim (i : Rail) (x : RailHw) : (s.setRail i x).scrim = s.scrim := rfl
@[simp] theorem State.setRail_pins (i : Rail) (x : RailHw) : (s.setRail i x).pins = s.pins := rfl
@[simp] theorem State.setRail_coatFault (i : Rail) (x : RailHw) : (s.setRail i x).coatFault = s.coatFault := rfl
@[simp] theorem State.setRail_clk (i : Rail) (x : RailHw) : (s.setRail i x).clk = s.clk := rfl
@[simp] theorem State.setRail_convs (i : Rail) (x : RailHw) : (s.setRail i x).convs = s.convs := rfl
@[simp] theorem State.setRail_ref (i : Rail) (x : RailHw) : (s.setRail i x).ref = s.ref := rfl
@[simp] theorem State.setRail_mets (i : Rail) (x : RailHw) : (s.setRail i x).mets = s.mets := rfl
@[simp] theorem State.setRail_recs (i : Rail) (x : RailHw) : (s.setRail i x).recs = s.recs := rfl
@[simp] theorem State.setRail_otpShadow (i : Rail) (x : RailHw) : (s.setRail i x).otpShadow = s.otpShadow := rfl
@[simp] theorem State.setRail_coat (i : Rail) (x : RailHw) : (s.setRail i x).coat = s.coat := rfl
@[simp] theorem State.setRail_recorder (i : Rail) (x : RailHw) : (s.setRail i x).recorder = s.recorder := rfl
@[simp] theorem State.setRail_nv (i : Rail) (x : RailHw) : (s.setRail i x).nv = s.nv := rfl
@[simp] theorem State.setRail_answer (i : Rail) (x : RailHw) : (s.setRail i x).answer = s.answer := rfl
@[simp] theorem State.setRail_cts (i : Rail) (x : RailHw) : (s.setRail i x).cts = s.cts := rfl
@[simp] theorem State.setRail_tbcs (i : Rail) (x : RailHw) : (s.setRail i x).tbcs = s.tbcs := rfl
@[simp] theorem State.setRail_tgs (i : Rail) (x : RailHw) : (s.setRail i x).tgs = s.tgs := rfl
@[simp] theorem State.setRail_time (i : Rail) (x : RailHw) : (s.setRail i x).time = s.time := rfl
@[simp] theorem State.setRail_otp (i : Rail) (x : RailHw) : (s.setRail i x).otp = s.otp := rfl
@[simp] theorem State.setRail_cores (i : Rail) (x : RailHw) : (s.setRail i x).cores = s.cores := rfl
@[simp] theorem State.setRail_mboxes (i : Rail) (x : RailHw) : (s.setRail i x).mboxes = s.mboxes := rfl
@[simp] theorem State.setRail_shared (i : Rail) (x : RailHw) : (s.setRail i x).shared = s.shared := rfl
@[simp] theorem State.setRail_float (i : Rail) (x : RailHw) : (s.setRail i x).float = s.float := rfl
@[simp] theorem State.setRail_power (i : Rail) (x : RailHw) : (s.setRail i x).power = s.power := rfl
@[simp] theorem State.setRail_tws (i : Rail) (x : RailHw) : (s.setRail i x).tws = s.tws := rfl
@[simp] theorem State.setRail_srcs (i : Rail) (x : RailHw) : (s.setRail i x).srcs = s.srcs := rfl
@[simp] theorem State.setRail_sess (i : Rail) (x : RailHw) : (s.setRail i x).sess = s.sess := rfl
@[simp] theorem State.setRail_nvm (i : Rail) (x : RailHw) : (s.setRail i x).nvm = s.nvm := rfl
@[simp] theorem State.setRail_sec (i : Rail) (x : RailHw) : (s.setRail i x).sec = s.sec := rfl
@[simp] theorem State.setTile_pending (i : Tile) (x : TileHw) : (s.setTile i x).pending = s.pending := rfl
@[simp] theorem State.setTile_od (i : Tile) (x : TileHw) : (s.setTile i x).od = s.od := rfl
@[simp] theorem State.setTile_odNew (i : Tile) (x : TileHw) : (s.setTile i x).odNew = s.odNew := rfl
@[simp] theorem State.setTile_blob (i : Tile) (x : TileHw) : (s.setTile i x).blob = s.blob := rfl
@[simp] theorem State.setTile_io (i : Tile) (x : TileHw) : (s.setTile i x).io = s.io := rfl
@[simp] theorem State.setTile_fresh (i : Tile) (x : TileHw) : (s.setTile i x).fresh = s.fresh := rfl
@[simp] theorem State.setTile_tb (i : Tile) (x : TileHw) : (s.setTile i x).tb = s.tb := rfl
@[simp] theorem State.setTile_cmps (i : Tile) (x : TileHw) : (s.setTile i x).cmps = s.cmps := rfl
@[simp] theorem State.setTile_paths (i : Tile) (x : TileHw) : (s.setTile i x).paths = s.paths := rfl
@[simp] theorem State.setTile_feeds (i : Tile) (x : TileHw) : (s.setTile i x).feeds = s.feeds := rfl
@[simp] theorem State.setTile_slots (i : Tile) (x : TileHw) : (s.setTile i x).slots = s.slots := rfl
@[simp] theorem State.setTile_ledgerPorts (i : Tile) (x : TileHw) : (s.setTile i x).ledgerPorts = s.ledgerPorts := rfl
@[simp] theorem State.setTile_ledger (i : Tile) (x : TileHw) : (s.setTile i x).ledger = s.ledger := rfl
@[simp] theorem State.setTile_ports (i : Tile) (x : TileHw) : (s.setTile i x).ports = s.ports := rfl
@[simp] theorem State.setTile_scrim (i : Tile) (x : TileHw) : (s.setTile i x).scrim = s.scrim := rfl
@[simp] theorem State.setTile_pins (i : Tile) (x : TileHw) : (s.setTile i x).pins = s.pins := rfl
@[simp] theorem State.setTile_coatFault (i : Tile) (x : TileHw) : (s.setTile i x).coatFault = s.coatFault := rfl
@[simp] theorem State.setTile_clk (i : Tile) (x : TileHw) : (s.setTile i x).clk = s.clk := rfl
@[simp] theorem State.setTile_convs (i : Tile) (x : TileHw) : (s.setTile i x).convs = s.convs := rfl
@[simp] theorem State.setTile_ref (i : Tile) (x : TileHw) : (s.setTile i x).ref = s.ref := rfl
@[simp] theorem State.setTile_mets (i : Tile) (x : TileHw) : (s.setTile i x).mets = s.mets := rfl
@[simp] theorem State.setTile_recs (i : Tile) (x : TileHw) : (s.setTile i x).recs = s.recs := rfl
@[simp] theorem State.setTile_otpShadow (i : Tile) (x : TileHw) : (s.setTile i x).otpShadow = s.otpShadow := rfl
@[simp] theorem State.setTile_rails (i : Tile) (x : TileHw) : (s.setTile i x).rails = s.rails := rfl
@[simp] theorem State.setTile_coat (i : Tile) (x : TileHw) : (s.setTile i x).coat = s.coat := rfl
@[simp] theorem State.setTile_recorder (i : Tile) (x : TileHw) : (s.setTile i x).recorder = s.recorder := rfl
@[simp] theorem State.setTile_nv (i : Tile) (x : TileHw) : (s.setTile i x).nv = s.nv := rfl
@[simp] theorem State.setTile_answer (i : Tile) (x : TileHw) : (s.setTile i x).answer = s.answer := rfl
@[simp] theorem State.setTile_cts (i : Tile) (x : TileHw) : (s.setTile i x).cts = s.cts := rfl
@[simp] theorem State.setTile_tbcs (i : Tile) (x : TileHw) : (s.setTile i x).tbcs = s.tbcs := rfl
@[simp] theorem State.setTile_tgs (i : Tile) (x : TileHw) : (s.setTile i x).tgs = s.tgs := rfl
@[simp] theorem State.setTile_time (i : Tile) (x : TileHw) : (s.setTile i x).time = s.time := rfl
@[simp] theorem State.setTile_otp (i : Tile) (x : TileHw) : (s.setTile i x).otp = s.otp := rfl
@[simp] theorem State.setTile_cores (i : Tile) (x : TileHw) : (s.setTile i x).cores = s.cores := rfl
@[simp] theorem State.setTile_mboxes (i : Tile) (x : TileHw) : (s.setTile i x).mboxes = s.mboxes := rfl
@[simp] theorem State.setTile_shared (i : Tile) (x : TileHw) : (s.setTile i x).shared = s.shared := rfl
@[simp] theorem State.setTile_float (i : Tile) (x : TileHw) : (s.setTile i x).float = s.float := rfl
@[simp] theorem State.setTile_power (i : Tile) (x : TileHw) : (s.setTile i x).power = s.power := rfl
@[simp] theorem State.setTile_tws (i : Tile) (x : TileHw) : (s.setTile i x).tws = s.tws := rfl
@[simp] theorem State.setTile_srcs (i : Tile) (x : TileHw) : (s.setTile i x).srcs = s.srcs := rfl
@[simp] theorem State.setTile_sess (i : Tile) (x : TileHw) : (s.setTile i x).sess = s.sess := rfl
@[simp] theorem State.setTile_nvm (i : Tile) (x : TileHw) : (s.setTile i x).nvm = s.nvm := rfl
@[simp] theorem State.setTile_sec (i : Tile) (x : TileHw) : (s.setTile i x).sec = s.sec := rfl
@[simp] theorem State.setCt_pending (i : Ctr) (x : CtHw) : (s.setCt i x).pending = s.pending := rfl
@[simp] theorem State.setCt_od (i : Ctr) (x : CtHw) : (s.setCt i x).od = s.od := rfl
@[simp] theorem State.setCt_odNew (i : Ctr) (x : CtHw) : (s.setCt i x).odNew = s.odNew := rfl
@[simp] theorem State.setCt_blob (i : Ctr) (x : CtHw) : (s.setCt i x).blob = s.blob := rfl
@[simp] theorem State.setCt_io (i : Ctr) (x : CtHw) : (s.setCt i x).io = s.io := rfl
@[simp] theorem State.setCt_fresh (i : Ctr) (x : CtHw) : (s.setCt i x).fresh = s.fresh := rfl
@[simp] theorem State.setCt_tb (i : Ctr) (x : CtHw) : (s.setCt i x).tb = s.tb := rfl
@[simp] theorem State.setCt_cmps (i : Ctr) (x : CtHw) : (s.setCt i x).cmps = s.cmps := rfl
@[simp] theorem State.setCt_paths (i : Ctr) (x : CtHw) : (s.setCt i x).paths = s.paths := rfl
@[simp] theorem State.setCt_feeds (i : Ctr) (x : CtHw) : (s.setCt i x).feeds = s.feeds := rfl
@[simp] theorem State.setCt_slots (i : Ctr) (x : CtHw) : (s.setCt i x).slots = s.slots := rfl
@[simp] theorem State.setCt_ledgerPorts (i : Ctr) (x : CtHw) : (s.setCt i x).ledgerPorts = s.ledgerPorts := rfl
@[simp] theorem State.setCt_ledger (i : Ctr) (x : CtHw) : (s.setCt i x).ledger = s.ledger := rfl
@[simp] theorem State.setCt_tiles (i : Ctr) (x : CtHw) : (s.setCt i x).tiles = s.tiles := rfl
@[simp] theorem State.setCt_ports (i : Ctr) (x : CtHw) : (s.setCt i x).ports = s.ports := rfl
@[simp] theorem State.setCt_scrim (i : Ctr) (x : CtHw) : (s.setCt i x).scrim = s.scrim := rfl
@[simp] theorem State.setCt_pins (i : Ctr) (x : CtHw) : (s.setCt i x).pins = s.pins := rfl
@[simp] theorem State.setCt_coatFault (i : Ctr) (x : CtHw) : (s.setCt i x).coatFault = s.coatFault := rfl
@[simp] theorem State.setCt_clk (i : Ctr) (x : CtHw) : (s.setCt i x).clk = s.clk := rfl
@[simp] theorem State.setCt_convs (i : Ctr) (x : CtHw) : (s.setCt i x).convs = s.convs := rfl
@[simp] theorem State.setCt_ref (i : Ctr) (x : CtHw) : (s.setCt i x).ref = s.ref := rfl
@[simp] theorem State.setCt_mets (i : Ctr) (x : CtHw) : (s.setCt i x).mets = s.mets := rfl
@[simp] theorem State.setCt_recs (i : Ctr) (x : CtHw) : (s.setCt i x).recs = s.recs := rfl
@[simp] theorem State.setCt_otpShadow (i : Ctr) (x : CtHw) : (s.setCt i x).otpShadow = s.otpShadow := rfl
@[simp] theorem State.setCt_rails (i : Ctr) (x : CtHw) : (s.setCt i x).rails = s.rails := rfl
@[simp] theorem State.setCt_coat (i : Ctr) (x : CtHw) : (s.setCt i x).coat = s.coat := rfl
@[simp] theorem State.setCt_recorder (i : Ctr) (x : CtHw) : (s.setCt i x).recorder = s.recorder := rfl
@[simp] theorem State.setCt_nv (i : Ctr) (x : CtHw) : (s.setCt i x).nv = s.nv := rfl
@[simp] theorem State.setCt_answer (i : Ctr) (x : CtHw) : (s.setCt i x).answer = s.answer := rfl
@[simp] theorem State.setCt_tbcs (i : Ctr) (x : CtHw) : (s.setCt i x).tbcs = s.tbcs := rfl
@[simp] theorem State.setCt_tgs (i : Ctr) (x : CtHw) : (s.setCt i x).tgs = s.tgs := rfl
@[simp] theorem State.setCt_time (i : Ctr) (x : CtHw) : (s.setCt i x).time = s.time := rfl
@[simp] theorem State.setCt_otp (i : Ctr) (x : CtHw) : (s.setCt i x).otp = s.otp := rfl
@[simp] theorem State.setCt_cores (i : Ctr) (x : CtHw) : (s.setCt i x).cores = s.cores := rfl
@[simp] theorem State.setCt_mboxes (i : Ctr) (x : CtHw) : (s.setCt i x).mboxes = s.mboxes := rfl
@[simp] theorem State.setCt_shared (i : Ctr) (x : CtHw) : (s.setCt i x).shared = s.shared := rfl
@[simp] theorem State.setCt_float (i : Ctr) (x : CtHw) : (s.setCt i x).float = s.float := rfl
@[simp] theorem State.setCt_power (i : Ctr) (x : CtHw) : (s.setCt i x).power = s.power := rfl
@[simp] theorem State.setCt_tws (i : Ctr) (x : CtHw) : (s.setCt i x).tws = s.tws := rfl
@[simp] theorem State.setCt_srcs (i : Ctr) (x : CtHw) : (s.setCt i x).srcs = s.srcs := rfl
@[simp] theorem State.setCt_sess (i : Ctr) (x : CtHw) : (s.setCt i x).sess = s.sess := rfl
@[simp] theorem State.setCt_nvm (i : Ctr) (x : CtHw) : (s.setCt i x).nvm = s.nvm := rfl
@[simp] theorem State.setCt_sec (i : Ctr) (x : CtHw) : (s.setCt i x).sec = s.sec := rfl
@[simp] theorem State.setTbc_pending (i : Tbc) (x : TbcHw) : (s.setTbc i x).pending = s.pending := rfl
@[simp] theorem State.setTbc_od (i : Tbc) (x : TbcHw) : (s.setTbc i x).od = s.od := rfl
@[simp] theorem State.setTbc_odNew (i : Tbc) (x : TbcHw) : (s.setTbc i x).odNew = s.odNew := rfl
@[simp] theorem State.setTbc_blob (i : Tbc) (x : TbcHw) : (s.setTbc i x).blob = s.blob := rfl
@[simp] theorem State.setTbc_io (i : Tbc) (x : TbcHw) : (s.setTbc i x).io = s.io := rfl
@[simp] theorem State.setTbc_fresh (i : Tbc) (x : TbcHw) : (s.setTbc i x).fresh = s.fresh := rfl
@[simp] theorem State.setTbc_tb (i : Tbc) (x : TbcHw) : (s.setTbc i x).tb = s.tb := rfl
@[simp] theorem State.setTbc_cmps (i : Tbc) (x : TbcHw) : (s.setTbc i x).cmps = s.cmps := rfl
@[simp] theorem State.setTbc_paths (i : Tbc) (x : TbcHw) : (s.setTbc i x).paths = s.paths := rfl
@[simp] theorem State.setTbc_feeds (i : Tbc) (x : TbcHw) : (s.setTbc i x).feeds = s.feeds := rfl
@[simp] theorem State.setTbc_slots (i : Tbc) (x : TbcHw) : (s.setTbc i x).slots = s.slots := rfl
@[simp] theorem State.setTbc_ledgerPorts (i : Tbc) (x : TbcHw) : (s.setTbc i x).ledgerPorts = s.ledgerPorts := rfl
@[simp] theorem State.setTbc_ledger (i : Tbc) (x : TbcHw) : (s.setTbc i x).ledger = s.ledger := rfl
@[simp] theorem State.setTbc_tiles (i : Tbc) (x : TbcHw) : (s.setTbc i x).tiles = s.tiles := rfl
@[simp] theorem State.setTbc_ports (i : Tbc) (x : TbcHw) : (s.setTbc i x).ports = s.ports := rfl
@[simp] theorem State.setTbc_scrim (i : Tbc) (x : TbcHw) : (s.setTbc i x).scrim = s.scrim := rfl
@[simp] theorem State.setTbc_pins (i : Tbc) (x : TbcHw) : (s.setTbc i x).pins = s.pins := rfl
@[simp] theorem State.setTbc_coatFault (i : Tbc) (x : TbcHw) : (s.setTbc i x).coatFault = s.coatFault := rfl
@[simp] theorem State.setTbc_clk (i : Tbc) (x : TbcHw) : (s.setTbc i x).clk = s.clk := rfl
@[simp] theorem State.setTbc_convs (i : Tbc) (x : TbcHw) : (s.setTbc i x).convs = s.convs := rfl
@[simp] theorem State.setTbc_ref (i : Tbc) (x : TbcHw) : (s.setTbc i x).ref = s.ref := rfl
@[simp] theorem State.setTbc_mets (i : Tbc) (x : TbcHw) : (s.setTbc i x).mets = s.mets := rfl
@[simp] theorem State.setTbc_recs (i : Tbc) (x : TbcHw) : (s.setTbc i x).recs = s.recs := rfl
@[simp] theorem State.setTbc_otpShadow (i : Tbc) (x : TbcHw) : (s.setTbc i x).otpShadow = s.otpShadow := rfl
@[simp] theorem State.setTbc_rails (i : Tbc) (x : TbcHw) : (s.setTbc i x).rails = s.rails := rfl
@[simp] theorem State.setTbc_coat (i : Tbc) (x : TbcHw) : (s.setTbc i x).coat = s.coat := rfl
@[simp] theorem State.setTbc_recorder (i : Tbc) (x : TbcHw) : (s.setTbc i x).recorder = s.recorder := rfl
@[simp] theorem State.setTbc_nv (i : Tbc) (x : TbcHw) : (s.setTbc i x).nv = s.nv := rfl
@[simp] theorem State.setTbc_answer (i : Tbc) (x : TbcHw) : (s.setTbc i x).answer = s.answer := rfl
@[simp] theorem State.setTbc_cts (i : Tbc) (x : TbcHw) : (s.setTbc i x).cts = s.cts := rfl
@[simp] theorem State.setTbc_tgs (i : Tbc) (x : TbcHw) : (s.setTbc i x).tgs = s.tgs := rfl
@[simp] theorem State.setTbc_time (i : Tbc) (x : TbcHw) : (s.setTbc i x).time = s.time := rfl
@[simp] theorem State.setTbc_otp (i : Tbc) (x : TbcHw) : (s.setTbc i x).otp = s.otp := rfl
@[simp] theorem State.setTbc_cores (i : Tbc) (x : TbcHw) : (s.setTbc i x).cores = s.cores := rfl
@[simp] theorem State.setTbc_mboxes (i : Tbc) (x : TbcHw) : (s.setTbc i x).mboxes = s.mboxes := rfl
@[simp] theorem State.setTbc_shared (i : Tbc) (x : TbcHw) : (s.setTbc i x).shared = s.shared := rfl
@[simp] theorem State.setTbc_float (i : Tbc) (x : TbcHw) : (s.setTbc i x).float = s.float := rfl
@[simp] theorem State.setTbc_power (i : Tbc) (x : TbcHw) : (s.setTbc i x).power = s.power := rfl
@[simp] theorem State.setTbc_tws (i : Tbc) (x : TbcHw) : (s.setTbc i x).tws = s.tws := rfl
@[simp] theorem State.setTbc_srcs (i : Tbc) (x : TbcHw) : (s.setTbc i x).srcs = s.srcs := rfl
@[simp] theorem State.setTbc_sess (i : Tbc) (x : TbcHw) : (s.setTbc i x).sess = s.sess := rfl
@[simp] theorem State.setTbc_nvm (i : Tbc) (x : TbcHw) : (s.setTbc i x).nvm = s.nvm := rfl
@[simp] theorem State.setTbc_sec (i : Tbc) (x : TbcHw) : (s.setTbc i x).sec = s.sec := rfl
@[simp] theorem State.setCore_pending (i : CoreId) (x : CoreHw) : (s.setCore i x).pending = s.pending := rfl
@[simp] theorem State.setCore_od (i : CoreId) (x : CoreHw) : (s.setCore i x).od = s.od := rfl
@[simp] theorem State.setCore_odNew (i : CoreId) (x : CoreHw) : (s.setCore i x).odNew = s.odNew := rfl
@[simp] theorem State.setCore_blob (i : CoreId) (x : CoreHw) : (s.setCore i x).blob = s.blob := rfl
@[simp] theorem State.setCore_io (i : CoreId) (x : CoreHw) : (s.setCore i x).io = s.io := rfl
@[simp] theorem State.setCore_fresh (i : CoreId) (x : CoreHw) : (s.setCore i x).fresh = s.fresh := rfl
@[simp] theorem State.setCore_tb (i : CoreId) (x : CoreHw) : (s.setCore i x).tb = s.tb := rfl
@[simp] theorem State.setCore_cmps (i : CoreId) (x : CoreHw) : (s.setCore i x).cmps = s.cmps := rfl
@[simp] theorem State.setCore_paths (i : CoreId) (x : CoreHw) : (s.setCore i x).paths = s.paths := rfl
@[simp] theorem State.setCore_feeds (i : CoreId) (x : CoreHw) : (s.setCore i x).feeds = s.feeds := rfl
@[simp] theorem State.setCore_slots (i : CoreId) (x : CoreHw) : (s.setCore i x).slots = s.slots := rfl
@[simp] theorem State.setCore_ledgerPorts (i : CoreId) (x : CoreHw) : (s.setCore i x).ledgerPorts = s.ledgerPorts := rfl
@[simp] theorem State.setCore_ledger (i : CoreId) (x : CoreHw) : (s.setCore i x).ledger = s.ledger := rfl
@[simp] theorem State.setCore_tiles (i : CoreId) (x : CoreHw) : (s.setCore i x).tiles = s.tiles := rfl
@[simp] theorem State.setCore_ports (i : CoreId) (x : CoreHw) : (s.setCore i x).ports = s.ports := rfl
@[simp] theorem State.setCore_scrim (i : CoreId) (x : CoreHw) : (s.setCore i x).scrim = s.scrim := rfl
@[simp] theorem State.setCore_pins (i : CoreId) (x : CoreHw) : (s.setCore i x).pins = s.pins := rfl
@[simp] theorem State.setCore_coatFault (i : CoreId) (x : CoreHw) : (s.setCore i x).coatFault = s.coatFault := rfl
@[simp] theorem State.setCore_clk (i : CoreId) (x : CoreHw) : (s.setCore i x).clk = s.clk := rfl
@[simp] theorem State.setCore_convs (i : CoreId) (x : CoreHw) : (s.setCore i x).convs = s.convs := rfl
@[simp] theorem State.setCore_ref (i : CoreId) (x : CoreHw) : (s.setCore i x).ref = s.ref := rfl
@[simp] theorem State.setCore_mets (i : CoreId) (x : CoreHw) : (s.setCore i x).mets = s.mets := rfl
@[simp] theorem State.setCore_recs (i : CoreId) (x : CoreHw) : (s.setCore i x).recs = s.recs := rfl
@[simp] theorem State.setCore_otpShadow (i : CoreId) (x : CoreHw) : (s.setCore i x).otpShadow = s.otpShadow := rfl
@[simp] theorem State.setCore_rails (i : CoreId) (x : CoreHw) : (s.setCore i x).rails = s.rails := rfl
@[simp] theorem State.setCore_coat (i : CoreId) (x : CoreHw) : (s.setCore i x).coat = s.coat := rfl
@[simp] theorem State.setCore_recorder (i : CoreId) (x : CoreHw) : (s.setCore i x).recorder = s.recorder := rfl
@[simp] theorem State.setCore_nv (i : CoreId) (x : CoreHw) : (s.setCore i x).nv = s.nv := rfl
@[simp] theorem State.setCore_answer (i : CoreId) (x : CoreHw) : (s.setCore i x).answer = s.answer := rfl
@[simp] theorem State.setCore_cts (i : CoreId) (x : CoreHw) : (s.setCore i x).cts = s.cts := rfl
@[simp] theorem State.setCore_tbcs (i : CoreId) (x : CoreHw) : (s.setCore i x).tbcs = s.tbcs := rfl
@[simp] theorem State.setCore_tgs (i : CoreId) (x : CoreHw) : (s.setCore i x).tgs = s.tgs := rfl
@[simp] theorem State.setCore_time (i : CoreId) (x : CoreHw) : (s.setCore i x).time = s.time := rfl
@[simp] theorem State.setCore_otp (i : CoreId) (x : CoreHw) : (s.setCore i x).otp = s.otp := rfl
@[simp] theorem State.setCore_mboxes (i : CoreId) (x : CoreHw) : (s.setCore i x).mboxes = s.mboxes := rfl
@[simp] theorem State.setCore_shared (i : CoreId) (x : CoreHw) : (s.setCore i x).shared = s.shared := rfl
@[simp] theorem State.setCore_float (i : CoreId) (x : CoreHw) : (s.setCore i x).float = s.float := rfl
@[simp] theorem State.setCore_power (i : CoreId) (x : CoreHw) : (s.setCore i x).power = s.power := rfl
@[simp] theorem State.setCore_tws (i : CoreId) (x : CoreHw) : (s.setCore i x).tws = s.tws := rfl
@[simp] theorem State.setCore_srcs (i : CoreId) (x : CoreHw) : (s.setCore i x).srcs = s.srcs := rfl
@[simp] theorem State.setCore_sess (i : CoreId) (x : CoreHw) : (s.setCore i x).sess = s.sess := rfl
@[simp] theorem State.setCore_nvm (i : CoreId) (x : CoreHw) : (s.setCore i x).nvm = s.nvm := rfl
@[simp] theorem State.setCore_sec (i : CoreId) (x : CoreHw) : (s.setCore i x).sec = s.sec := rfl
@[simp] theorem State.setMbox_pending (i : Eng) (x : MboxHw) : (s.setMbox i x).pending = s.pending := rfl
@[simp] theorem State.setMbox_od (i : Eng) (x : MboxHw) : (s.setMbox i x).od = s.od := rfl
@[simp] theorem State.setMbox_odNew (i : Eng) (x : MboxHw) : (s.setMbox i x).odNew = s.odNew := rfl
@[simp] theorem State.setMbox_blob (i : Eng) (x : MboxHw) : (s.setMbox i x).blob = s.blob := rfl
@[simp] theorem State.setMbox_io (i : Eng) (x : MboxHw) : (s.setMbox i x).io = s.io := rfl
@[simp] theorem State.setMbox_fresh (i : Eng) (x : MboxHw) : (s.setMbox i x).fresh = s.fresh := rfl
@[simp] theorem State.setMbox_tb (i : Eng) (x : MboxHw) : (s.setMbox i x).tb = s.tb := rfl
@[simp] theorem State.setMbox_cmps (i : Eng) (x : MboxHw) : (s.setMbox i x).cmps = s.cmps := rfl
@[simp] theorem State.setMbox_paths (i : Eng) (x : MboxHw) : (s.setMbox i x).paths = s.paths := rfl
@[simp] theorem State.setMbox_feeds (i : Eng) (x : MboxHw) : (s.setMbox i x).feeds = s.feeds := rfl
@[simp] theorem State.setMbox_slots (i : Eng) (x : MboxHw) : (s.setMbox i x).slots = s.slots := rfl
@[simp] theorem State.setMbox_ledgerPorts (i : Eng) (x : MboxHw) : (s.setMbox i x).ledgerPorts = s.ledgerPorts := rfl
@[simp] theorem State.setMbox_ledger (i : Eng) (x : MboxHw) : (s.setMbox i x).ledger = s.ledger := rfl
@[simp] theorem State.setMbox_tiles (i : Eng) (x : MboxHw) : (s.setMbox i x).tiles = s.tiles := rfl
@[simp] theorem State.setMbox_ports (i : Eng) (x : MboxHw) : (s.setMbox i x).ports = s.ports := rfl
@[simp] theorem State.setMbox_scrim (i : Eng) (x : MboxHw) : (s.setMbox i x).scrim = s.scrim := rfl
@[simp] theorem State.setMbox_pins (i : Eng) (x : MboxHw) : (s.setMbox i x).pins = s.pins := rfl
@[simp] theorem State.setMbox_coatFault (i : Eng) (x : MboxHw) : (s.setMbox i x).coatFault = s.coatFault := rfl
@[simp] theorem State.setMbox_clk (i : Eng) (x : MboxHw) : (s.setMbox i x).clk = s.clk := rfl
@[simp] theorem State.setMbox_convs (i : Eng) (x : MboxHw) : (s.setMbox i x).convs = s.convs := rfl
@[simp] theorem State.setMbox_ref (i : Eng) (x : MboxHw) : (s.setMbox i x).ref = s.ref := rfl
@[simp] theorem State.setMbox_mets (i : Eng) (x : MboxHw) : (s.setMbox i x).mets = s.mets := rfl
@[simp] theorem State.setMbox_recs (i : Eng) (x : MboxHw) : (s.setMbox i x).recs = s.recs := rfl
@[simp] theorem State.setMbox_otpShadow (i : Eng) (x : MboxHw) : (s.setMbox i x).otpShadow = s.otpShadow := rfl
@[simp] theorem State.setMbox_rails (i : Eng) (x : MboxHw) : (s.setMbox i x).rails = s.rails := rfl
@[simp] theorem State.setMbox_coat (i : Eng) (x : MboxHw) : (s.setMbox i x).coat = s.coat := rfl
@[simp] theorem State.setMbox_recorder (i : Eng) (x : MboxHw) : (s.setMbox i x).recorder = s.recorder := rfl
@[simp] theorem State.setMbox_nv (i : Eng) (x : MboxHw) : (s.setMbox i x).nv = s.nv := rfl
@[simp] theorem State.setMbox_answer (i : Eng) (x : MboxHw) : (s.setMbox i x).answer = s.answer := rfl
@[simp] theorem State.setMbox_cts (i : Eng) (x : MboxHw) : (s.setMbox i x).cts = s.cts := rfl
@[simp] theorem State.setMbox_tbcs (i : Eng) (x : MboxHw) : (s.setMbox i x).tbcs = s.tbcs := rfl
@[simp] theorem State.setMbox_tgs (i : Eng) (x : MboxHw) : (s.setMbox i x).tgs = s.tgs := rfl
@[simp] theorem State.setMbox_time (i : Eng) (x : MboxHw) : (s.setMbox i x).time = s.time := rfl
@[simp] theorem State.setMbox_otp (i : Eng) (x : MboxHw) : (s.setMbox i x).otp = s.otp := rfl
@[simp] theorem State.setMbox_cores (i : Eng) (x : MboxHw) : (s.setMbox i x).cores = s.cores := rfl
@[simp] theorem State.setMbox_shared (i : Eng) (x : MboxHw) : (s.setMbox i x).shared = s.shared := rfl
@[simp] theorem State.setMbox_float (i : Eng) (x : MboxHw) : (s.setMbox i x).float = s.float := rfl
@[simp] theorem State.setMbox_power (i : Eng) (x : MboxHw) : (s.setMbox i x).power = s.power := rfl
@[simp] theorem State.setMbox_tws (i : Eng) (x : MboxHw) : (s.setMbox i x).tws = s.tws := rfl
@[simp] theorem State.setMbox_srcs (i : Eng) (x : MboxHw) : (s.setMbox i x).srcs = s.srcs := rfl
@[simp] theorem State.setMbox_sess (i : Eng) (x : MboxHw) : (s.setMbox i x).sess = s.sess := rfl
@[simp] theorem State.setMbox_nvm (i : Eng) (x : MboxHw) : (s.setMbox i x).nvm = s.nvm := rfl
@[simp] theorem State.setMbox_sec (i : Eng) (x : MboxHw) : (s.setMbox i x).sec = s.sec := rfl
@[simp] theorem State.setTw_pending (i : Bus) (x : TwHw) : (s.setTw i x).pending = s.pending := rfl
@[simp] theorem State.setTw_od (i : Bus) (x : TwHw) : (s.setTw i x).od = s.od := rfl
@[simp] theorem State.setTw_odNew (i : Bus) (x : TwHw) : (s.setTw i x).odNew = s.odNew := rfl
@[simp] theorem State.setTw_blob (i : Bus) (x : TwHw) : (s.setTw i x).blob = s.blob := rfl
@[simp] theorem State.setTw_io (i : Bus) (x : TwHw) : (s.setTw i x).io = s.io := rfl
@[simp] theorem State.setTw_fresh (i : Bus) (x : TwHw) : (s.setTw i x).fresh = s.fresh := rfl
@[simp] theorem State.setTw_tb (i : Bus) (x : TwHw) : (s.setTw i x).tb = s.tb := rfl
@[simp] theorem State.setTw_cmps (i : Bus) (x : TwHw) : (s.setTw i x).cmps = s.cmps := rfl
@[simp] theorem State.setTw_paths (i : Bus) (x : TwHw) : (s.setTw i x).paths = s.paths := rfl
@[simp] theorem State.setTw_feeds (i : Bus) (x : TwHw) : (s.setTw i x).feeds = s.feeds := rfl
@[simp] theorem State.setTw_slots (i : Bus) (x : TwHw) : (s.setTw i x).slots = s.slots := rfl
@[simp] theorem State.setTw_ledgerPorts (i : Bus) (x : TwHw) : (s.setTw i x).ledgerPorts = s.ledgerPorts := rfl
@[simp] theorem State.setTw_ledger (i : Bus) (x : TwHw) : (s.setTw i x).ledger = s.ledger := rfl
@[simp] theorem State.setTw_tiles (i : Bus) (x : TwHw) : (s.setTw i x).tiles = s.tiles := rfl
@[simp] theorem State.setTw_ports (i : Bus) (x : TwHw) : (s.setTw i x).ports = s.ports := rfl
@[simp] theorem State.setTw_scrim (i : Bus) (x : TwHw) : (s.setTw i x).scrim = s.scrim := rfl
@[simp] theorem State.setTw_pins (i : Bus) (x : TwHw) : (s.setTw i x).pins = s.pins := rfl
@[simp] theorem State.setTw_coatFault (i : Bus) (x : TwHw) : (s.setTw i x).coatFault = s.coatFault := rfl
@[simp] theorem State.setTw_clk (i : Bus) (x : TwHw) : (s.setTw i x).clk = s.clk := rfl
@[simp] theorem State.setTw_convs (i : Bus) (x : TwHw) : (s.setTw i x).convs = s.convs := rfl
@[simp] theorem State.setTw_ref (i : Bus) (x : TwHw) : (s.setTw i x).ref = s.ref := rfl
@[simp] theorem State.setTw_mets (i : Bus) (x : TwHw) : (s.setTw i x).mets = s.mets := rfl
@[simp] theorem State.setTw_recs (i : Bus) (x : TwHw) : (s.setTw i x).recs = s.recs := rfl
@[simp] theorem State.setTw_otpShadow (i : Bus) (x : TwHw) : (s.setTw i x).otpShadow = s.otpShadow := rfl
@[simp] theorem State.setTw_rails (i : Bus) (x : TwHw) : (s.setTw i x).rails = s.rails := rfl
@[simp] theorem State.setTw_coat (i : Bus) (x : TwHw) : (s.setTw i x).coat = s.coat := rfl
@[simp] theorem State.setTw_recorder (i : Bus) (x : TwHw) : (s.setTw i x).recorder = s.recorder := rfl
@[simp] theorem State.setTw_nv (i : Bus) (x : TwHw) : (s.setTw i x).nv = s.nv := rfl
@[simp] theorem State.setTw_answer (i : Bus) (x : TwHw) : (s.setTw i x).answer = s.answer := rfl
@[simp] theorem State.setTw_cts (i : Bus) (x : TwHw) : (s.setTw i x).cts = s.cts := rfl
@[simp] theorem State.setTw_tbcs (i : Bus) (x : TwHw) : (s.setTw i x).tbcs = s.tbcs := rfl
@[simp] theorem State.setTw_tgs (i : Bus) (x : TwHw) : (s.setTw i x).tgs = s.tgs := rfl
@[simp] theorem State.setTw_time (i : Bus) (x : TwHw) : (s.setTw i x).time = s.time := rfl
@[simp] theorem State.setTw_otp (i : Bus) (x : TwHw) : (s.setTw i x).otp = s.otp := rfl
@[simp] theorem State.setTw_cores (i : Bus) (x : TwHw) : (s.setTw i x).cores = s.cores := rfl
@[simp] theorem State.setTw_mboxes (i : Bus) (x : TwHw) : (s.setTw i x).mboxes = s.mboxes := rfl
@[simp] theorem State.setTw_shared (i : Bus) (x : TwHw) : (s.setTw i x).shared = s.shared := rfl
@[simp] theorem State.setTw_float (i : Bus) (x : TwHw) : (s.setTw i x).float = s.float := rfl
@[simp] theorem State.setTw_power (i : Bus) (x : TwHw) : (s.setTw i x).power = s.power := rfl
@[simp] theorem State.setTw_srcs (i : Bus) (x : TwHw) : (s.setTw i x).srcs = s.srcs := rfl
@[simp] theorem State.setTw_sess (i : Bus) (x : TwHw) : (s.setTw i x).sess = s.sess := rfl
@[simp] theorem State.setTw_nvm (i : Bus) (x : TwHw) : (s.setTw i x).nvm = s.nvm := rfl
@[simp] theorem State.setTw_sec (i : Bus) (x : TwHw) : (s.setTw i x).sec = s.sec := rfl
@[simp] theorem State.setSrc_pending (i : Requester) (x : SrcHw) : (s.setSrc i x).pending = s.pending := rfl
@[simp] theorem State.setSrc_od (i : Requester) (x : SrcHw) : (s.setSrc i x).od = s.od := rfl
@[simp] theorem State.setSrc_odNew (i : Requester) (x : SrcHw) : (s.setSrc i x).odNew = s.odNew := rfl
@[simp] theorem State.setSrc_blob (i : Requester) (x : SrcHw) : (s.setSrc i x).blob = s.blob := rfl
@[simp] theorem State.setSrc_io (i : Requester) (x : SrcHw) : (s.setSrc i x).io = s.io := rfl
@[simp] theorem State.setSrc_fresh (i : Requester) (x : SrcHw) : (s.setSrc i x).fresh = s.fresh := rfl
@[simp] theorem State.setSrc_tb (i : Requester) (x : SrcHw) : (s.setSrc i x).tb = s.tb := rfl
@[simp] theorem State.setSrc_cmps (i : Requester) (x : SrcHw) : (s.setSrc i x).cmps = s.cmps := rfl
@[simp] theorem State.setSrc_paths (i : Requester) (x : SrcHw) : (s.setSrc i x).paths = s.paths := rfl
@[simp] theorem State.setSrc_feeds (i : Requester) (x : SrcHw) : (s.setSrc i x).feeds = s.feeds := rfl
@[simp] theorem State.setSrc_slots (i : Requester) (x : SrcHw) : (s.setSrc i x).slots = s.slots := rfl
@[simp] theorem State.setSrc_ledgerPorts (i : Requester) (x : SrcHw) : (s.setSrc i x).ledgerPorts = s.ledgerPorts := rfl
@[simp] theorem State.setSrc_ledger (i : Requester) (x : SrcHw) : (s.setSrc i x).ledger = s.ledger := rfl
@[simp] theorem State.setSrc_tiles (i : Requester) (x : SrcHw) : (s.setSrc i x).tiles = s.tiles := rfl
@[simp] theorem State.setSrc_ports (i : Requester) (x : SrcHw) : (s.setSrc i x).ports = s.ports := rfl
@[simp] theorem State.setSrc_scrim (i : Requester) (x : SrcHw) : (s.setSrc i x).scrim = s.scrim := rfl
@[simp] theorem State.setSrc_pins (i : Requester) (x : SrcHw) : (s.setSrc i x).pins = s.pins := rfl
@[simp] theorem State.setSrc_coatFault (i : Requester) (x : SrcHw) : (s.setSrc i x).coatFault = s.coatFault := rfl
@[simp] theorem State.setSrc_clk (i : Requester) (x : SrcHw) : (s.setSrc i x).clk = s.clk := rfl
@[simp] theorem State.setSrc_convs (i : Requester) (x : SrcHw) : (s.setSrc i x).convs = s.convs := rfl
@[simp] theorem State.setSrc_ref (i : Requester) (x : SrcHw) : (s.setSrc i x).ref = s.ref := rfl
@[simp] theorem State.setSrc_mets (i : Requester) (x : SrcHw) : (s.setSrc i x).mets = s.mets := rfl
@[simp] theorem State.setSrc_recs (i : Requester) (x : SrcHw) : (s.setSrc i x).recs = s.recs := rfl
@[simp] theorem State.setSrc_otpShadow (i : Requester) (x : SrcHw) : (s.setSrc i x).otpShadow = s.otpShadow := rfl
@[simp] theorem State.setSrc_rails (i : Requester) (x : SrcHw) : (s.setSrc i x).rails = s.rails := rfl
@[simp] theorem State.setSrc_coat (i : Requester) (x : SrcHw) : (s.setSrc i x).coat = s.coat := rfl
@[simp] theorem State.setSrc_recorder (i : Requester) (x : SrcHw) : (s.setSrc i x).recorder = s.recorder := rfl
@[simp] theorem State.setSrc_nv (i : Requester) (x : SrcHw) : (s.setSrc i x).nv = s.nv := rfl
@[simp] theorem State.setSrc_answer (i : Requester) (x : SrcHw) : (s.setSrc i x).answer = s.answer := rfl
@[simp] theorem State.setSrc_cts (i : Requester) (x : SrcHw) : (s.setSrc i x).cts = s.cts := rfl
@[simp] theorem State.setSrc_tbcs (i : Requester) (x : SrcHw) : (s.setSrc i x).tbcs = s.tbcs := rfl
@[simp] theorem State.setSrc_tgs (i : Requester) (x : SrcHw) : (s.setSrc i x).tgs = s.tgs := rfl
@[simp] theorem State.setSrc_time (i : Requester) (x : SrcHw) : (s.setSrc i x).time = s.time := rfl
@[simp] theorem State.setSrc_otp (i : Requester) (x : SrcHw) : (s.setSrc i x).otp = s.otp := rfl
@[simp] theorem State.setSrc_cores (i : Requester) (x : SrcHw) : (s.setSrc i x).cores = s.cores := rfl
@[simp] theorem State.setSrc_mboxes (i : Requester) (x : SrcHw) : (s.setSrc i x).mboxes = s.mboxes := rfl
@[simp] theorem State.setSrc_shared (i : Requester) (x : SrcHw) : (s.setSrc i x).shared = s.shared := rfl
@[simp] theorem State.setSrc_float (i : Requester) (x : SrcHw) : (s.setSrc i x).float = s.float := rfl
@[simp] theorem State.setSrc_power (i : Requester) (x : SrcHw) : (s.setSrc i x).power = s.power := rfl
@[simp] theorem State.setSrc_tws (i : Requester) (x : SrcHw) : (s.setSrc i x).tws = s.tws := rfl
@[simp] theorem State.setSrc_sess (i : Requester) (x : SrcHw) : (s.setSrc i x).sess = s.sess := rfl
@[simp] theorem State.setSrc_nvm (i : Requester) (x : SrcHw) : (s.setSrc i x).nvm = s.nvm := rfl
@[simp] theorem State.setSrc_sec (i : Requester) (x : SrcHw) : (s.setSrc i x).sec = s.sec := rfl
@[simp] theorem State.setSes_pending (i : Transport) (x : SessHw) : (s.setSes i x).pending = s.pending := rfl
@[simp] theorem State.setSes_od (i : Transport) (x : SessHw) : (s.setSes i x).od = s.od := rfl
@[simp] theorem State.setSes_odNew (i : Transport) (x : SessHw) : (s.setSes i x).odNew = s.odNew := rfl
@[simp] theorem State.setSes_blob (i : Transport) (x : SessHw) : (s.setSes i x).blob = s.blob := rfl
@[simp] theorem State.setSes_io (i : Transport) (x : SessHw) : (s.setSes i x).io = s.io := rfl
@[simp] theorem State.setSes_fresh (i : Transport) (x : SessHw) : (s.setSes i x).fresh = s.fresh := rfl
@[simp] theorem State.setSes_tb (i : Transport) (x : SessHw) : (s.setSes i x).tb = s.tb := rfl
@[simp] theorem State.setSes_cmps (i : Transport) (x : SessHw) : (s.setSes i x).cmps = s.cmps := rfl
@[simp] theorem State.setSes_paths (i : Transport) (x : SessHw) : (s.setSes i x).paths = s.paths := rfl
@[simp] theorem State.setSes_feeds (i : Transport) (x : SessHw) : (s.setSes i x).feeds = s.feeds := rfl
@[simp] theorem State.setSes_slots (i : Transport) (x : SessHw) : (s.setSes i x).slots = s.slots := rfl
@[simp] theorem State.setSes_ledgerPorts (i : Transport) (x : SessHw) : (s.setSes i x).ledgerPorts = s.ledgerPorts := rfl
@[simp] theorem State.setSes_ledger (i : Transport) (x : SessHw) : (s.setSes i x).ledger = s.ledger := rfl
@[simp] theorem State.setSes_tiles (i : Transport) (x : SessHw) : (s.setSes i x).tiles = s.tiles := rfl
@[simp] theorem State.setSes_ports (i : Transport) (x : SessHw) : (s.setSes i x).ports = s.ports := rfl
@[simp] theorem State.setSes_scrim (i : Transport) (x : SessHw) : (s.setSes i x).scrim = s.scrim := rfl
@[simp] theorem State.setSes_pins (i : Transport) (x : SessHw) : (s.setSes i x).pins = s.pins := rfl
@[simp] theorem State.setSes_coatFault (i : Transport) (x : SessHw) : (s.setSes i x).coatFault = s.coatFault := rfl
@[simp] theorem State.setSes_clk (i : Transport) (x : SessHw) : (s.setSes i x).clk = s.clk := rfl
@[simp] theorem State.setSes_convs (i : Transport) (x : SessHw) : (s.setSes i x).convs = s.convs := rfl
@[simp] theorem State.setSes_ref (i : Transport) (x : SessHw) : (s.setSes i x).ref = s.ref := rfl
@[simp] theorem State.setSes_mets (i : Transport) (x : SessHw) : (s.setSes i x).mets = s.mets := rfl
@[simp] theorem State.setSes_recs (i : Transport) (x : SessHw) : (s.setSes i x).recs = s.recs := rfl
@[simp] theorem State.setSes_otpShadow (i : Transport) (x : SessHw) : (s.setSes i x).otpShadow = s.otpShadow := rfl
@[simp] theorem State.setSes_rails (i : Transport) (x : SessHw) : (s.setSes i x).rails = s.rails := rfl
@[simp] theorem State.setSes_coat (i : Transport) (x : SessHw) : (s.setSes i x).coat = s.coat := rfl
@[simp] theorem State.setSes_recorder (i : Transport) (x : SessHw) : (s.setSes i x).recorder = s.recorder := rfl
@[simp] theorem State.setSes_nv (i : Transport) (x : SessHw) : (s.setSes i x).nv = s.nv := rfl
@[simp] theorem State.setSes_answer (i : Transport) (x : SessHw) : (s.setSes i x).answer = s.answer := rfl
@[simp] theorem State.setSes_cts (i : Transport) (x : SessHw) : (s.setSes i x).cts = s.cts := rfl
@[simp] theorem State.setSes_tbcs (i : Transport) (x : SessHw) : (s.setSes i x).tbcs = s.tbcs := rfl
@[simp] theorem State.setSes_tgs (i : Transport) (x : SessHw) : (s.setSes i x).tgs = s.tgs := rfl
@[simp] theorem State.setSes_time (i : Transport) (x : SessHw) : (s.setSes i x).time = s.time := rfl
@[simp] theorem State.setSes_otp (i : Transport) (x : SessHw) : (s.setSes i x).otp = s.otp := rfl
@[simp] theorem State.setSes_cores (i : Transport) (x : SessHw) : (s.setSes i x).cores = s.cores := rfl
@[simp] theorem State.setSes_mboxes (i : Transport) (x : SessHw) : (s.setSes i x).mboxes = s.mboxes := rfl
@[simp] theorem State.setSes_shared (i : Transport) (x : SessHw) : (s.setSes i x).shared = s.shared := rfl
@[simp] theorem State.setSes_float (i : Transport) (x : SessHw) : (s.setSes i x).float = s.float := rfl
@[simp] theorem State.setSes_power (i : Transport) (x : SessHw) : (s.setSes i x).power = s.power := rfl
@[simp] theorem State.setSes_tws (i : Transport) (x : SessHw) : (s.setSes i x).tws = s.tws := rfl
@[simp] theorem State.setSes_srcs (i : Transport) (x : SessHw) : (s.setSes i x).srcs = s.srcs := rfl
@[simp] theorem State.setSes_nvm (i : Transport) (x : SessHw) : (s.setSes i x).nvm = s.nvm := rfl
@[simp] theorem State.setSes_sec (i : Transport) (x : SessHw) : (s.setSes i x).sec = s.sec := rfl
@[simp] theorem State.setTg_pending (i : Tg) (x : TgHw) : (s.setTg i x).pending = s.pending := rfl
@[simp] theorem State.setTg_od (i : Tg) (x : TgHw) : (s.setTg i x).od = s.od := rfl
@[simp] theorem State.setTg_odNew (i : Tg) (x : TgHw) : (s.setTg i x).odNew = s.odNew := rfl
@[simp] theorem State.setTg_blob (i : Tg) (x : TgHw) : (s.setTg i x).blob = s.blob := rfl
@[simp] theorem State.setTg_io (i : Tg) (x : TgHw) : (s.setTg i x).io = s.io := rfl
@[simp] theorem State.setTg_fresh (i : Tg) (x : TgHw) : (s.setTg i x).fresh = s.fresh := rfl
@[simp] theorem State.setTg_tb (i : Tg) (x : TgHw) : (s.setTg i x).tb = s.tb := rfl
@[simp] theorem State.setTg_cmps (i : Tg) (x : TgHw) : (s.setTg i x).cmps = s.cmps := rfl
@[simp] theorem State.setTg_paths (i : Tg) (x : TgHw) : (s.setTg i x).paths = s.paths := rfl
@[simp] theorem State.setTg_feeds (i : Tg) (x : TgHw) : (s.setTg i x).feeds = s.feeds := rfl
@[simp] theorem State.setTg_slots (i : Tg) (x : TgHw) : (s.setTg i x).slots = s.slots := rfl
@[simp] theorem State.setTg_ledgerPorts (i : Tg) (x : TgHw) : (s.setTg i x).ledgerPorts = s.ledgerPorts := rfl
@[simp] theorem State.setTg_ledger (i : Tg) (x : TgHw) : (s.setTg i x).ledger = s.ledger := rfl
@[simp] theorem State.setTg_tiles (i : Tg) (x : TgHw) : (s.setTg i x).tiles = s.tiles := rfl
@[simp] theorem State.setTg_ports (i : Tg) (x : TgHw) : (s.setTg i x).ports = s.ports := rfl
@[simp] theorem State.setTg_scrim (i : Tg) (x : TgHw) : (s.setTg i x).scrim = s.scrim := rfl
@[simp] theorem State.setTg_pins (i : Tg) (x : TgHw) : (s.setTg i x).pins = s.pins := rfl
@[simp] theorem State.setTg_coatFault (i : Tg) (x : TgHw) : (s.setTg i x).coatFault = s.coatFault := rfl
@[simp] theorem State.setTg_clk (i : Tg) (x : TgHw) : (s.setTg i x).clk = s.clk := rfl
@[simp] theorem State.setTg_convs (i : Tg) (x : TgHw) : (s.setTg i x).convs = s.convs := rfl
@[simp] theorem State.setTg_ref (i : Tg) (x : TgHw) : (s.setTg i x).ref = s.ref := rfl
@[simp] theorem State.setTg_mets (i : Tg) (x : TgHw) : (s.setTg i x).mets = s.mets := rfl
@[simp] theorem State.setTg_recs (i : Tg) (x : TgHw) : (s.setTg i x).recs = s.recs := rfl
@[simp] theorem State.setTg_otpShadow (i : Tg) (x : TgHw) : (s.setTg i x).otpShadow = s.otpShadow := rfl
@[simp] theorem State.setTg_rails (i : Tg) (x : TgHw) : (s.setTg i x).rails = s.rails := rfl
@[simp] theorem State.setTg_coat (i : Tg) (x : TgHw) : (s.setTg i x).coat = s.coat := rfl
@[simp] theorem State.setTg_recorder (i : Tg) (x : TgHw) : (s.setTg i x).recorder = s.recorder := rfl
@[simp] theorem State.setTg_nv (i : Tg) (x : TgHw) : (s.setTg i x).nv = s.nv := rfl
@[simp] theorem State.setTg_answer (i : Tg) (x : TgHw) : (s.setTg i x).answer = s.answer := rfl
@[simp] theorem State.setTg_cts (i : Tg) (x : TgHw) : (s.setTg i x).cts = s.cts := rfl
@[simp] theorem State.setTg_tbcs (i : Tg) (x : TgHw) : (s.setTg i x).tbcs = s.tbcs := rfl
@[simp] theorem State.setTg_time (i : Tg) (x : TgHw) : (s.setTg i x).time = s.time := rfl
@[simp] theorem State.setTg_otp (i : Tg) (x : TgHw) : (s.setTg i x).otp = s.otp := rfl
@[simp] theorem State.setTg_cores (i : Tg) (x : TgHw) : (s.setTg i x).cores = s.cores := rfl
@[simp] theorem State.setTg_mboxes (i : Tg) (x : TgHw) : (s.setTg i x).mboxes = s.mboxes := rfl
@[simp] theorem State.setTg_shared (i : Tg) (x : TgHw) : (s.setTg i x).shared = s.shared := rfl
@[simp] theorem State.setTg_float (i : Tg) (x : TgHw) : (s.setTg i x).float = s.float := rfl
@[simp] theorem State.setTg_power (i : Tg) (x : TgHw) : (s.setTg i x).power = s.power := rfl
@[simp] theorem State.setTg_tws (i : Tg) (x : TgHw) : (s.setTg i x).tws = s.tws := rfl
@[simp] theorem State.setTg_srcs (i : Tg) (x : TgHw) : (s.setTg i x).srcs = s.srcs := rfl
@[simp] theorem State.setTg_sess (i : Tg) (x : TgHw) : (s.setTg i x).sess = s.sess := rfl
@[simp] theorem State.setTg_nvm (i : Tg) (x : TgHw) : (s.setTg i x).nvm = s.nvm := rfl
@[simp] theorem State.setTg_sec (i : Tg) (x : TgHw) : (s.setTg i x).sec = s.sec := rfl

@[simp] theorem State.rd_wr (k j : Nat) (v : Int) : (s.wr k v).rd j = if j = k then v else s.rd j := odGet_odPut ..
@[simp] theorem State.rdB_wrB (k j : Nat) (v : List Nat) : (s.wrB k v).rdB j = if j = k then v else s.rdB j :=
  blobGet_blobPut ..
@[simp] theorem State.ior_iow (b o c q : Nat) (v : Int) :
    (s.iow b o v).ior c q = if c * 0x10000 + q = b * 0x10000 + o then v else s.ior c q := SMap.get_put ..
@[simp] theorem State.wr_rdB (k : Nat) (v : Int) (j : Nat) : (s.wr k v).rdB j = s.rdB j := rfl
@[simp] theorem State.wr_ior (k : Nat) (v : Int) (c q : Nat) : (s.wr k v).ior c q = s.ior c q := rfl
@[simp] theorem State.wr_cmp (k : Nat) (v : Int) (j : Cmp) : (s.wr k v).cmp j = s.cmp j := rfl
@[simp] theorem State.wr_path (k : Nat) (v : Int) (j : Port) : (s.wr k v).path j = s.path j := rfl
@[simp] theorem State.wr_feed (k : Nat) (v : Int) (j : Feed) : (s.wr k v).feed j = s.feed j := rfl
@[simp] theorem State.wr_slot (k : Nat) (v : Int) (j : Slot) : (s.wr k v).slot j = s.slot j := rfl
@[simp] theorem State.wr_lport (k : Nat) (v : Int) (j : Port) : (s.wr k v).lport j = s.lport j := rfl
@[simp] theorem State.wr_port (k : Nat) (v : Int) (j : Port) : (s.wr k v).port j = s.port j := rfl
@[simp] theorem State.wr_conv (k : Nat) (v : Int) (j : Conv) : (s.wr k v).conv j = s.conv j := rfl
@[simp] theorem State.wr_met (k : Nat) (v : Int) (j : Fin 100) : (s.wr k v).met j = s.met j := rfl
@[simp] theorem State.wr_rail (k : Nat) (v : Int) (j : Rail) : (s.wr k v).rail j = s.rail j := rfl
@[simp] theorem State.wr_tile (k : Nat) (v : Int) (j : Tile) : (s.wr k v).tile j = s.tile j := rfl
@[simp] theorem State.wr_ct (k : Nat) (v : Int) (j : Ctr) : (s.wr k v).ct j = s.ct j := rfl
@[simp] theorem State.wr_tbc (k : Nat) (v : Int) (j : Tbc) : (s.wr k v).tbc j = s.tbc j := rfl
@[simp] theorem State.wr_core (k : Nat) (v : Int) (j : CoreId) : (s.wr k v).core j = s.core j := rfl
@[simp] theorem State.wr_mbox (k : Nat) (v : Int) (j : Eng) : (s.wr k v).mbox j = s.mbox j := rfl
@[simp] theorem State.wr_tw (k : Nat) (v : Int) (j : Bus) : (s.wr k v).tw j = s.tw j := rfl
@[simp] theorem State.wr_src (k : Nat) (v : Int) (j : Requester) : (s.wr k v).src j = s.src j := rfl
@[simp] theorem State.wr_ses (k : Nat) (v : Int) (j : Transport) : (s.wr k v).ses j = s.ses j := rfl
@[simp] theorem State.wr_tg (k : Nat) (v : Int) (j : Tg) : (s.wr k v).tg j = s.tg j := rfl
@[simp] theorem State.wrB_rd (k : Nat) (v : List Nat) (j : Nat) : (s.wrB k v).rd j = s.rd j := rfl
@[simp] theorem State.wrB_ior (k : Nat) (v : List Nat) (c q : Nat) : (s.wrB k v).ior c q = s.ior c q := rfl
@[simp] theorem State.wrB_cmp (k : Nat) (v : List Nat) (j : Cmp) : (s.wrB k v).cmp j = s.cmp j := rfl
@[simp] theorem State.wrB_path (k : Nat) (v : List Nat) (j : Port) : (s.wrB k v).path j = s.path j := rfl
@[simp] theorem State.wrB_feed (k : Nat) (v : List Nat) (j : Feed) : (s.wrB k v).feed j = s.feed j := rfl
@[simp] theorem State.wrB_slot (k : Nat) (v : List Nat) (j : Slot) : (s.wrB k v).slot j = s.slot j := rfl
@[simp] theorem State.wrB_lport (k : Nat) (v : List Nat) (j : Port) : (s.wrB k v).lport j = s.lport j := rfl
@[simp] theorem State.wrB_port (k : Nat) (v : List Nat) (j : Port) : (s.wrB k v).port j = s.port j := rfl
@[simp] theorem State.wrB_conv (k : Nat) (v : List Nat) (j : Conv) : (s.wrB k v).conv j = s.conv j := rfl
@[simp] theorem State.wrB_met (k : Nat) (v : List Nat) (j : Fin 100) : (s.wrB k v).met j = s.met j := rfl
@[simp] theorem State.wrB_rail (k : Nat) (v : List Nat) (j : Rail) : (s.wrB k v).rail j = s.rail j := rfl
@[simp] theorem State.wrB_tile (k : Nat) (v : List Nat) (j : Tile) : (s.wrB k v).tile j = s.tile j := rfl
@[simp] theorem State.wrB_ct (k : Nat) (v : List Nat) (j : Ctr) : (s.wrB k v).ct j = s.ct j := rfl
@[simp] theorem State.wrB_tbc (k : Nat) (v : List Nat) (j : Tbc) : (s.wrB k v).tbc j = s.tbc j := rfl
@[simp] theorem State.wrB_core (k : Nat) (v : List Nat) (j : CoreId) : (s.wrB k v).core j = s.core j := rfl
@[simp] theorem State.wrB_mbox (k : Nat) (v : List Nat) (j : Eng) : (s.wrB k v).mbox j = s.mbox j := rfl
@[simp] theorem State.wrB_tw (k : Nat) (v : List Nat) (j : Bus) : (s.wrB k v).tw j = s.tw j := rfl
@[simp] theorem State.wrB_src (k : Nat) (v : List Nat) (j : Requester) : (s.wrB k v).src j = s.src j := rfl
@[simp] theorem State.wrB_ses (k : Nat) (v : List Nat) (j : Transport) : (s.wrB k v).ses j = s.ses j := rfl
@[simp] theorem State.wrB_tg (k : Nat) (v : List Nat) (j : Tg) : (s.wrB k v).tg j = s.tg j := rfl
@[simp] theorem State.iow_rd (b o : Nat) (v : Int) (j : Nat) : (s.iow b o v).rd j = s.rd j := rfl
@[simp] theorem State.iow_rdB (b o : Nat) (v : Int) (j : Nat) : (s.iow b o v).rdB j = s.rdB j := rfl
@[simp] theorem State.iow_cmp (b o : Nat) (v : Int) (j : Cmp) : (s.iow b o v).cmp j = s.cmp j := rfl
@[simp] theorem State.iow_path (b o : Nat) (v : Int) (j : Port) : (s.iow b o v).path j = s.path j := rfl
@[simp] theorem State.iow_feed (b o : Nat) (v : Int) (j : Feed) : (s.iow b o v).feed j = s.feed j := rfl
@[simp] theorem State.iow_slot (b o : Nat) (v : Int) (j : Slot) : (s.iow b o v).slot j = s.slot j := rfl
@[simp] theorem State.iow_lport (b o : Nat) (v : Int) (j : Port) : (s.iow b o v).lport j = s.lport j := rfl
@[simp] theorem State.iow_port (b o : Nat) (v : Int) (j : Port) : (s.iow b o v).port j = s.port j := rfl
@[simp] theorem State.iow_conv (b o : Nat) (v : Int) (j : Conv) : (s.iow b o v).conv j = s.conv j := rfl
@[simp] theorem State.iow_met (b o : Nat) (v : Int) (j : Fin 100) : (s.iow b o v).met j = s.met j := rfl
@[simp] theorem State.iow_rail (b o : Nat) (v : Int) (j : Rail) : (s.iow b o v).rail j = s.rail j := rfl
@[simp] theorem State.iow_tile (b o : Nat) (v : Int) (j : Tile) : (s.iow b o v).tile j = s.tile j := rfl
@[simp] theorem State.iow_ct (b o : Nat) (v : Int) (j : Ctr) : (s.iow b o v).ct j = s.ct j := rfl
@[simp] theorem State.iow_tbc (b o : Nat) (v : Int) (j : Tbc) : (s.iow b o v).tbc j = s.tbc j := rfl
@[simp] theorem State.iow_core (b o : Nat) (v : Int) (j : CoreId) : (s.iow b o v).core j = s.core j := rfl
@[simp] theorem State.iow_mbox (b o : Nat) (v : Int) (j : Eng) : (s.iow b o v).mbox j = s.mbox j := rfl
@[simp] theorem State.iow_tw (b o : Nat) (v : Int) (j : Bus) : (s.iow b o v).tw j = s.tw j := rfl
@[simp] theorem State.iow_src (b o : Nat) (v : Int) (j : Requester) : (s.iow b o v).src j = s.src j := rfl
@[simp] theorem State.iow_ses (b o : Nat) (v : Int) (j : Transport) : (s.iow b o v).ses j = s.ses j := rfl
@[simp] theorem State.iow_tg (b o : Nat) (v : Int) (j : Tg) : (s.iow b o v).tg j = s.tg j := rfl
@[simp] theorem State.setCmp_rd (i : Cmp) (x : CmpHw) (j : Nat) : (s.setCmp i x).rd j = s.rd j := rfl
@[simp] theorem State.setCmp_rdB (i : Cmp) (x : CmpHw) (j : Nat) : (s.setCmp i x).rdB j = s.rdB j := rfl
@[simp] theorem State.setCmp_ior (i : Cmp) (x : CmpHw) (c q : Nat) : (s.setCmp i x).ior c q = s.ior c q := rfl
@[simp] theorem State.setCmp_path (i : Cmp) (x : CmpHw) (j : Port) : (s.setCmp i x).path j = s.path j := rfl
@[simp] theorem State.setCmp_feed (i : Cmp) (x : CmpHw) (j : Feed) : (s.setCmp i x).feed j = s.feed j := rfl
@[simp] theorem State.setCmp_slot (i : Cmp) (x : CmpHw) (j : Slot) : (s.setCmp i x).slot j = s.slot j := rfl
@[simp] theorem State.setCmp_lport (i : Cmp) (x : CmpHw) (j : Port) : (s.setCmp i x).lport j = s.lport j := rfl
@[simp] theorem State.setCmp_port (i : Cmp) (x : CmpHw) (j : Port) : (s.setCmp i x).port j = s.port j := rfl
@[simp] theorem State.setCmp_conv (i : Cmp) (x : CmpHw) (j : Conv) : (s.setCmp i x).conv j = s.conv j := rfl
@[simp] theorem State.setCmp_met (i : Cmp) (x : CmpHw) (j : Fin 100) : (s.setCmp i x).met j = s.met j := rfl
@[simp] theorem State.setCmp_rail (i : Cmp) (x : CmpHw) (j : Rail) : (s.setCmp i x).rail j = s.rail j := rfl
@[simp] theorem State.setCmp_tile (i : Cmp) (x : CmpHw) (j : Tile) : (s.setCmp i x).tile j = s.tile j := rfl
@[simp] theorem State.setCmp_ct (i : Cmp) (x : CmpHw) (j : Ctr) : (s.setCmp i x).ct j = s.ct j := rfl
@[simp] theorem State.setCmp_tbc (i : Cmp) (x : CmpHw) (j : Tbc) : (s.setCmp i x).tbc j = s.tbc j := rfl
@[simp] theorem State.setCmp_core (i : Cmp) (x : CmpHw) (j : CoreId) : (s.setCmp i x).core j = s.core j := rfl
@[simp] theorem State.setCmp_mbox (i : Cmp) (x : CmpHw) (j : Eng) : (s.setCmp i x).mbox j = s.mbox j := rfl
@[simp] theorem State.setCmp_tw (i : Cmp) (x : CmpHw) (j : Bus) : (s.setCmp i x).tw j = s.tw j := rfl
@[simp] theorem State.setCmp_src (i : Cmp) (x : CmpHw) (j : Requester) : (s.setCmp i x).src j = s.src j := rfl
@[simp] theorem State.setCmp_ses (i : Cmp) (x : CmpHw) (j : Transport) : (s.setCmp i x).ses j = s.ses j := rfl
@[simp] theorem State.setCmp_tg (i : Cmp) (x : CmpHw) (j : Tg) : (s.setCmp i x).tg j = s.tg j := rfl
@[simp] theorem State.setPath_rd (i : Port) (x : PathHw) (j : Nat) : (s.setPath i x).rd j = s.rd j := rfl
@[simp] theorem State.setPath_rdB (i : Port) (x : PathHw) (j : Nat) : (s.setPath i x).rdB j = s.rdB j := rfl
@[simp] theorem State.setPath_ior (i : Port) (x : PathHw) (c q : Nat) : (s.setPath i x).ior c q = s.ior c q := rfl
@[simp] theorem State.setPath_cmp (i : Port) (x : PathHw) (j : Cmp) : (s.setPath i x).cmp j = s.cmp j := rfl
@[simp] theorem State.setPath_feed (i : Port) (x : PathHw) (j : Feed) : (s.setPath i x).feed j = s.feed j := rfl
@[simp] theorem State.setPath_slot (i : Port) (x : PathHw) (j : Slot) : (s.setPath i x).slot j = s.slot j := rfl
@[simp] theorem State.setPath_lport (i : Port) (x : PathHw) (j : Port) : (s.setPath i x).lport j = s.lport j := rfl
@[simp] theorem State.setPath_port (i : Port) (x : PathHw) (j : Port) : (s.setPath i x).port j = s.port j := rfl
@[simp] theorem State.setPath_conv (i : Port) (x : PathHw) (j : Conv) : (s.setPath i x).conv j = s.conv j := rfl
@[simp] theorem State.setPath_met (i : Port) (x : PathHw) (j : Fin 100) : (s.setPath i x).met j = s.met j := rfl
@[simp] theorem State.setPath_rail (i : Port) (x : PathHw) (j : Rail) : (s.setPath i x).rail j = s.rail j := rfl
@[simp] theorem State.setPath_tile (i : Port) (x : PathHw) (j : Tile) : (s.setPath i x).tile j = s.tile j := rfl
@[simp] theorem State.setPath_ct (i : Port) (x : PathHw) (j : Ctr) : (s.setPath i x).ct j = s.ct j := rfl
@[simp] theorem State.setPath_tbc (i : Port) (x : PathHw) (j : Tbc) : (s.setPath i x).tbc j = s.tbc j := rfl
@[simp] theorem State.setPath_core (i : Port) (x : PathHw) (j : CoreId) : (s.setPath i x).core j = s.core j := rfl
@[simp] theorem State.setPath_mbox (i : Port) (x : PathHw) (j : Eng) : (s.setPath i x).mbox j = s.mbox j := rfl
@[simp] theorem State.setPath_tw (i : Port) (x : PathHw) (j : Bus) : (s.setPath i x).tw j = s.tw j := rfl
@[simp] theorem State.setPath_src (i : Port) (x : PathHw) (j : Requester) : (s.setPath i x).src j = s.src j := rfl
@[simp] theorem State.setPath_ses (i : Port) (x : PathHw) (j : Transport) : (s.setPath i x).ses j = s.ses j := rfl
@[simp] theorem State.setPath_tg (i : Port) (x : PathHw) (j : Tg) : (s.setPath i x).tg j = s.tg j := rfl
@[simp] theorem State.setFeed_rd (i : Feed) (x : FeedHw) (j : Nat) : (s.setFeed i x).rd j = s.rd j := rfl
@[simp] theorem State.setFeed_rdB (i : Feed) (x : FeedHw) (j : Nat) : (s.setFeed i x).rdB j = s.rdB j := rfl
@[simp] theorem State.setFeed_ior (i : Feed) (x : FeedHw) (c q : Nat) : (s.setFeed i x).ior c q = s.ior c q := rfl
@[simp] theorem State.setFeed_cmp (i : Feed) (x : FeedHw) (j : Cmp) : (s.setFeed i x).cmp j = s.cmp j := rfl
@[simp] theorem State.setFeed_path (i : Feed) (x : FeedHw) (j : Port) : (s.setFeed i x).path j = s.path j := rfl
@[simp] theorem State.setFeed_slot (i : Feed) (x : FeedHw) (j : Slot) : (s.setFeed i x).slot j = s.slot j := rfl
@[simp] theorem State.setFeed_lport (i : Feed) (x : FeedHw) (j : Port) : (s.setFeed i x).lport j = s.lport j := rfl
@[simp] theorem State.setFeed_port (i : Feed) (x : FeedHw) (j : Port) : (s.setFeed i x).port j = s.port j := rfl
@[simp] theorem State.setFeed_conv (i : Feed) (x : FeedHw) (j : Conv) : (s.setFeed i x).conv j = s.conv j := rfl
@[simp] theorem State.setFeed_met (i : Feed) (x : FeedHw) (j : Fin 100) : (s.setFeed i x).met j = s.met j := rfl
@[simp] theorem State.setFeed_rail (i : Feed) (x : FeedHw) (j : Rail) : (s.setFeed i x).rail j = s.rail j := rfl
@[simp] theorem State.setFeed_tile (i : Feed) (x : FeedHw) (j : Tile) : (s.setFeed i x).tile j = s.tile j := rfl
@[simp] theorem State.setFeed_ct (i : Feed) (x : FeedHw) (j : Ctr) : (s.setFeed i x).ct j = s.ct j := rfl
@[simp] theorem State.setFeed_tbc (i : Feed) (x : FeedHw) (j : Tbc) : (s.setFeed i x).tbc j = s.tbc j := rfl
@[simp] theorem State.setFeed_core (i : Feed) (x : FeedHw) (j : CoreId) : (s.setFeed i x).core j = s.core j := rfl
@[simp] theorem State.setFeed_mbox (i : Feed) (x : FeedHw) (j : Eng) : (s.setFeed i x).mbox j = s.mbox j := rfl
@[simp] theorem State.setFeed_tw (i : Feed) (x : FeedHw) (j : Bus) : (s.setFeed i x).tw j = s.tw j := rfl
@[simp] theorem State.setFeed_src (i : Feed) (x : FeedHw) (j : Requester) : (s.setFeed i x).src j = s.src j := rfl
@[simp] theorem State.setFeed_ses (i : Feed) (x : FeedHw) (j : Transport) : (s.setFeed i x).ses j = s.ses j := rfl
@[simp] theorem State.setFeed_tg (i : Feed) (x : FeedHw) (j : Tg) : (s.setFeed i x).tg j = s.tg j := rfl
@[simp] theorem State.setSlot_rd (i : Slot) (x : SlotHw) (j : Nat) : (s.setSlot i x).rd j = s.rd j := rfl
@[simp] theorem State.setSlot_rdB (i : Slot) (x : SlotHw) (j : Nat) : (s.setSlot i x).rdB j = s.rdB j := rfl
@[simp] theorem State.setSlot_ior (i : Slot) (x : SlotHw) (c q : Nat) : (s.setSlot i x).ior c q = s.ior c q := rfl
@[simp] theorem State.setSlot_cmp (i : Slot) (x : SlotHw) (j : Cmp) : (s.setSlot i x).cmp j = s.cmp j := rfl
@[simp] theorem State.setSlot_path (i : Slot) (x : SlotHw) (j : Port) : (s.setSlot i x).path j = s.path j := rfl
@[simp] theorem State.setSlot_feed (i : Slot) (x : SlotHw) (j : Feed) : (s.setSlot i x).feed j = s.feed j := rfl
@[simp] theorem State.setSlot_lport (i : Slot) (x : SlotHw) (j : Port) : (s.setSlot i x).lport j = s.lport j := rfl
@[simp] theorem State.setSlot_port (i : Slot) (x : SlotHw) (j : Port) : (s.setSlot i x).port j = s.port j := rfl
@[simp] theorem State.setSlot_conv (i : Slot) (x : SlotHw) (j : Conv) : (s.setSlot i x).conv j = s.conv j := rfl
@[simp] theorem State.setSlot_met (i : Slot) (x : SlotHw) (j : Fin 100) : (s.setSlot i x).met j = s.met j := rfl
@[simp] theorem State.setSlot_rail (i : Slot) (x : SlotHw) (j : Rail) : (s.setSlot i x).rail j = s.rail j := rfl
@[simp] theorem State.setSlot_tile (i : Slot) (x : SlotHw) (j : Tile) : (s.setSlot i x).tile j = s.tile j := rfl
@[simp] theorem State.setSlot_ct (i : Slot) (x : SlotHw) (j : Ctr) : (s.setSlot i x).ct j = s.ct j := rfl
@[simp] theorem State.setSlot_tbc (i : Slot) (x : SlotHw) (j : Tbc) : (s.setSlot i x).tbc j = s.tbc j := rfl
@[simp] theorem State.setSlot_core (i : Slot) (x : SlotHw) (j : CoreId) : (s.setSlot i x).core j = s.core j := rfl
@[simp] theorem State.setSlot_mbox (i : Slot) (x : SlotHw) (j : Eng) : (s.setSlot i x).mbox j = s.mbox j := rfl
@[simp] theorem State.setSlot_tw (i : Slot) (x : SlotHw) (j : Bus) : (s.setSlot i x).tw j = s.tw j := rfl
@[simp] theorem State.setSlot_src (i : Slot) (x : SlotHw) (j : Requester) : (s.setSlot i x).src j = s.src j := rfl
@[simp] theorem State.setSlot_ses (i : Slot) (x : SlotHw) (j : Transport) : (s.setSlot i x).ses j = s.ses j := rfl
@[simp] theorem State.setSlot_tg (i : Slot) (x : SlotHw) (j : Tg) : (s.setSlot i x).tg j = s.tg j := rfl
@[simp] theorem State.setLport_rd (i : Port) (x : LedgerPort) (j : Nat) : (s.setLport i x).rd j = s.rd j := rfl
@[simp] theorem State.setLport_rdB (i : Port) (x : LedgerPort) (j : Nat) : (s.setLport i x).rdB j = s.rdB j := rfl
@[simp] theorem State.setLport_ior (i : Port) (x : LedgerPort) (c q : Nat) : (s.setLport i x).ior c q = s.ior c q := rfl
@[simp] theorem State.setLport_cmp (i : Port) (x : LedgerPort) (j : Cmp) : (s.setLport i x).cmp j = s.cmp j := rfl
@[simp] theorem State.setLport_path (i : Port) (x : LedgerPort) (j : Port) : (s.setLport i x).path j = s.path j := rfl
@[simp] theorem State.setLport_feed (i : Port) (x : LedgerPort) (j : Feed) : (s.setLport i x).feed j = s.feed j := rfl
@[simp] theorem State.setLport_slot (i : Port) (x : LedgerPort) (j : Slot) : (s.setLport i x).slot j = s.slot j := rfl
@[simp] theorem State.setLport_port (i : Port) (x : LedgerPort) (j : Port) : (s.setLport i x).port j = s.port j := rfl
@[simp] theorem State.setLport_conv (i : Port) (x : LedgerPort) (j : Conv) : (s.setLport i x).conv j = s.conv j := rfl
@[simp] theorem State.setLport_met (i : Port) (x : LedgerPort) (j : Fin 100) : (s.setLport i x).met j = s.met j := rfl
@[simp] theorem State.setLport_rail (i : Port) (x : LedgerPort) (j : Rail) : (s.setLport i x).rail j = s.rail j := rfl
@[simp] theorem State.setLport_tile (i : Port) (x : LedgerPort) (j : Tile) : (s.setLport i x).tile j = s.tile j := rfl
@[simp] theorem State.setLport_ct (i : Port) (x : LedgerPort) (j : Ctr) : (s.setLport i x).ct j = s.ct j := rfl
@[simp] theorem State.setLport_tbc (i : Port) (x : LedgerPort) (j : Tbc) : (s.setLport i x).tbc j = s.tbc j := rfl
@[simp] theorem State.setLport_core (i : Port) (x : LedgerPort) (j : CoreId) : (s.setLport i x).core j = s.core j := rfl
@[simp] theorem State.setLport_mbox (i : Port) (x : LedgerPort) (j : Eng) : (s.setLport i x).mbox j = s.mbox j := rfl
@[simp] theorem State.setLport_tw (i : Port) (x : LedgerPort) (j : Bus) : (s.setLport i x).tw j = s.tw j := rfl
@[simp] theorem State.setLport_src (i : Port) (x : LedgerPort) (j : Requester) : (s.setLport i x).src j = s.src j := rfl
@[simp] theorem State.setLport_ses (i : Port) (x : LedgerPort) (j : Transport) : (s.setLport i x).ses j = s.ses j := rfl
@[simp] theorem State.setLport_tg (i : Port) (x : LedgerPort) (j : Tg) : (s.setLport i x).tg j = s.tg j := rfl
@[simp] theorem State.setPort_rd (i : Port) (x : PortHw) (j : Nat) : (s.setPort i x).rd j = s.rd j := rfl
@[simp] theorem State.setPort_rdB (i : Port) (x : PortHw) (j : Nat) : (s.setPort i x).rdB j = s.rdB j := rfl
@[simp] theorem State.setPort_ior (i : Port) (x : PortHw) (c q : Nat) : (s.setPort i x).ior c q = s.ior c q := rfl
@[simp] theorem State.setPort_cmp (i : Port) (x : PortHw) (j : Cmp) : (s.setPort i x).cmp j = s.cmp j := rfl
@[simp] theorem State.setPort_path (i : Port) (x : PortHw) (j : Port) : (s.setPort i x).path j = s.path j := rfl
@[simp] theorem State.setPort_feed (i : Port) (x : PortHw) (j : Feed) : (s.setPort i x).feed j = s.feed j := rfl
@[simp] theorem State.setPort_slot (i : Port) (x : PortHw) (j : Slot) : (s.setPort i x).slot j = s.slot j := rfl
@[simp] theorem State.setPort_lport (i : Port) (x : PortHw) (j : Port) : (s.setPort i x).lport j = s.lport j := rfl
@[simp] theorem State.setPort_conv (i : Port) (x : PortHw) (j : Conv) : (s.setPort i x).conv j = s.conv j := rfl
@[simp] theorem State.setPort_met (i : Port) (x : PortHw) (j : Fin 100) : (s.setPort i x).met j = s.met j := rfl
@[simp] theorem State.setPort_rail (i : Port) (x : PortHw) (j : Rail) : (s.setPort i x).rail j = s.rail j := rfl
@[simp] theorem State.setPort_tile (i : Port) (x : PortHw) (j : Tile) : (s.setPort i x).tile j = s.tile j := rfl
@[simp] theorem State.setPort_ct (i : Port) (x : PortHw) (j : Ctr) : (s.setPort i x).ct j = s.ct j := rfl
@[simp] theorem State.setPort_tbc (i : Port) (x : PortHw) (j : Tbc) : (s.setPort i x).tbc j = s.tbc j := rfl
@[simp] theorem State.setPort_core (i : Port) (x : PortHw) (j : CoreId) : (s.setPort i x).core j = s.core j := rfl
@[simp] theorem State.setPort_mbox (i : Port) (x : PortHw) (j : Eng) : (s.setPort i x).mbox j = s.mbox j := rfl
@[simp] theorem State.setPort_tw (i : Port) (x : PortHw) (j : Bus) : (s.setPort i x).tw j = s.tw j := rfl
@[simp] theorem State.setPort_src (i : Port) (x : PortHw) (j : Requester) : (s.setPort i x).src j = s.src j := rfl
@[simp] theorem State.setPort_ses (i : Port) (x : PortHw) (j : Transport) : (s.setPort i x).ses j = s.ses j := rfl
@[simp] theorem State.setPort_tg (i : Port) (x : PortHw) (j : Tg) : (s.setPort i x).tg j = s.tg j := rfl
@[simp] theorem State.setConv_rd (i : Conv) (x : ConvHw) (j : Nat) : (s.setConv i x).rd j = s.rd j := rfl
@[simp] theorem State.setConv_rdB (i : Conv) (x : ConvHw) (j : Nat) : (s.setConv i x).rdB j = s.rdB j := rfl
@[simp] theorem State.setConv_ior (i : Conv) (x : ConvHw) (c q : Nat) : (s.setConv i x).ior c q = s.ior c q := rfl
@[simp] theorem State.setConv_cmp (i : Conv) (x : ConvHw) (j : Cmp) : (s.setConv i x).cmp j = s.cmp j := rfl
@[simp] theorem State.setConv_path (i : Conv) (x : ConvHw) (j : Port) : (s.setConv i x).path j = s.path j := rfl
@[simp] theorem State.setConv_feed (i : Conv) (x : ConvHw) (j : Feed) : (s.setConv i x).feed j = s.feed j := rfl
@[simp] theorem State.setConv_slot (i : Conv) (x : ConvHw) (j : Slot) : (s.setConv i x).slot j = s.slot j := rfl
@[simp] theorem State.setConv_lport (i : Conv) (x : ConvHw) (j : Port) : (s.setConv i x).lport j = s.lport j := rfl
@[simp] theorem State.setConv_port (i : Conv) (x : ConvHw) (j : Port) : (s.setConv i x).port j = s.port j := rfl
@[simp] theorem State.setConv_met (i : Conv) (x : ConvHw) (j : Fin 100) : (s.setConv i x).met j = s.met j := rfl
@[simp] theorem State.setConv_rail (i : Conv) (x : ConvHw) (j : Rail) : (s.setConv i x).rail j = s.rail j := rfl
@[simp] theorem State.setConv_tile (i : Conv) (x : ConvHw) (j : Tile) : (s.setConv i x).tile j = s.tile j := rfl
@[simp] theorem State.setConv_ct (i : Conv) (x : ConvHw) (j : Ctr) : (s.setConv i x).ct j = s.ct j := rfl
@[simp] theorem State.setConv_tbc (i : Conv) (x : ConvHw) (j : Tbc) : (s.setConv i x).tbc j = s.tbc j := rfl
@[simp] theorem State.setConv_core (i : Conv) (x : ConvHw) (j : CoreId) : (s.setConv i x).core j = s.core j := rfl
@[simp] theorem State.setConv_mbox (i : Conv) (x : ConvHw) (j : Eng) : (s.setConv i x).mbox j = s.mbox j := rfl
@[simp] theorem State.setConv_tw (i : Conv) (x : ConvHw) (j : Bus) : (s.setConv i x).tw j = s.tw j := rfl
@[simp] theorem State.setConv_src (i : Conv) (x : ConvHw) (j : Requester) : (s.setConv i x).src j = s.src j := rfl
@[simp] theorem State.setConv_ses (i : Conv) (x : ConvHw) (j : Transport) : (s.setConv i x).ses j = s.ses j := rfl
@[simp] theorem State.setConv_tg (i : Conv) (x : ConvHw) (j : Tg) : (s.setConv i x).tg j = s.tg j := rfl
@[simp] theorem State.setMet_rd (i : Fin 100) (x : MetHw) (j : Nat) : (s.setMet i x).rd j = s.rd j := rfl
@[simp] theorem State.setMet_rdB (i : Fin 100) (x : MetHw) (j : Nat) : (s.setMet i x).rdB j = s.rdB j := rfl
@[simp] theorem State.setMet_ior (i : Fin 100) (x : MetHw) (c q : Nat) : (s.setMet i x).ior c q = s.ior c q := rfl
@[simp] theorem State.setMet_cmp (i : Fin 100) (x : MetHw) (j : Cmp) : (s.setMet i x).cmp j = s.cmp j := rfl
@[simp] theorem State.setMet_path (i : Fin 100) (x : MetHw) (j : Port) : (s.setMet i x).path j = s.path j := rfl
@[simp] theorem State.setMet_feed (i : Fin 100) (x : MetHw) (j : Feed) : (s.setMet i x).feed j = s.feed j := rfl
@[simp] theorem State.setMet_slot (i : Fin 100) (x : MetHw) (j : Slot) : (s.setMet i x).slot j = s.slot j := rfl
@[simp] theorem State.setMet_lport (i : Fin 100) (x : MetHw) (j : Port) : (s.setMet i x).lport j = s.lport j := rfl
@[simp] theorem State.setMet_port (i : Fin 100) (x : MetHw) (j : Port) : (s.setMet i x).port j = s.port j := rfl
@[simp] theorem State.setMet_conv (i : Fin 100) (x : MetHw) (j : Conv) : (s.setMet i x).conv j = s.conv j := rfl
@[simp] theorem State.setMet_rail (i : Fin 100) (x : MetHw) (j : Rail) : (s.setMet i x).rail j = s.rail j := rfl
@[simp] theorem State.setMet_tile (i : Fin 100) (x : MetHw) (j : Tile) : (s.setMet i x).tile j = s.tile j := rfl
@[simp] theorem State.setMet_ct (i : Fin 100) (x : MetHw) (j : Ctr) : (s.setMet i x).ct j = s.ct j := rfl
@[simp] theorem State.setMet_tbc (i : Fin 100) (x : MetHw) (j : Tbc) : (s.setMet i x).tbc j = s.tbc j := rfl
@[simp] theorem State.setMet_core (i : Fin 100) (x : MetHw) (j : CoreId) : (s.setMet i x).core j = s.core j := rfl
@[simp] theorem State.setMet_mbox (i : Fin 100) (x : MetHw) (j : Eng) : (s.setMet i x).mbox j = s.mbox j := rfl
@[simp] theorem State.setMet_tw (i : Fin 100) (x : MetHw) (j : Bus) : (s.setMet i x).tw j = s.tw j := rfl
@[simp] theorem State.setMet_src (i : Fin 100) (x : MetHw) (j : Requester) : (s.setMet i x).src j = s.src j := rfl
@[simp] theorem State.setMet_ses (i : Fin 100) (x : MetHw) (j : Transport) : (s.setMet i x).ses j = s.ses j := rfl
@[simp] theorem State.setMet_tg (i : Fin 100) (x : MetHw) (j : Tg) : (s.setMet i x).tg j = s.tg j := rfl
@[simp] theorem State.setRail_rd (i : Rail) (x : RailHw) (j : Nat) : (s.setRail i x).rd j = s.rd j := rfl
@[simp] theorem State.setRail_rdB (i : Rail) (x : RailHw) (j : Nat) : (s.setRail i x).rdB j = s.rdB j := rfl
@[simp] theorem State.setRail_ior (i : Rail) (x : RailHw) (c q : Nat) : (s.setRail i x).ior c q = s.ior c q := rfl
@[simp] theorem State.setRail_cmp (i : Rail) (x : RailHw) (j : Cmp) : (s.setRail i x).cmp j = s.cmp j := rfl
@[simp] theorem State.setRail_path (i : Rail) (x : RailHw) (j : Port) : (s.setRail i x).path j = s.path j := rfl
@[simp] theorem State.setRail_feed (i : Rail) (x : RailHw) (j : Feed) : (s.setRail i x).feed j = s.feed j := rfl
@[simp] theorem State.setRail_slot (i : Rail) (x : RailHw) (j : Slot) : (s.setRail i x).slot j = s.slot j := rfl
@[simp] theorem State.setRail_lport (i : Rail) (x : RailHw) (j : Port) : (s.setRail i x).lport j = s.lport j := rfl
@[simp] theorem State.setRail_port (i : Rail) (x : RailHw) (j : Port) : (s.setRail i x).port j = s.port j := rfl
@[simp] theorem State.setRail_conv (i : Rail) (x : RailHw) (j : Conv) : (s.setRail i x).conv j = s.conv j := rfl
@[simp] theorem State.setRail_met (i : Rail) (x : RailHw) (j : Fin 100) : (s.setRail i x).met j = s.met j := rfl
@[simp] theorem State.setRail_tile (i : Rail) (x : RailHw) (j : Tile) : (s.setRail i x).tile j = s.tile j := rfl
@[simp] theorem State.setRail_ct (i : Rail) (x : RailHw) (j : Ctr) : (s.setRail i x).ct j = s.ct j := rfl
@[simp] theorem State.setRail_tbc (i : Rail) (x : RailHw) (j : Tbc) : (s.setRail i x).tbc j = s.tbc j := rfl
@[simp] theorem State.setRail_core (i : Rail) (x : RailHw) (j : CoreId) : (s.setRail i x).core j = s.core j := rfl
@[simp] theorem State.setRail_mbox (i : Rail) (x : RailHw) (j : Eng) : (s.setRail i x).mbox j = s.mbox j := rfl
@[simp] theorem State.setRail_tw (i : Rail) (x : RailHw) (j : Bus) : (s.setRail i x).tw j = s.tw j := rfl
@[simp] theorem State.setRail_src (i : Rail) (x : RailHw) (j : Requester) : (s.setRail i x).src j = s.src j := rfl
@[simp] theorem State.setRail_ses (i : Rail) (x : RailHw) (j : Transport) : (s.setRail i x).ses j = s.ses j := rfl
@[simp] theorem State.setRail_tg (i : Rail) (x : RailHw) (j : Tg) : (s.setRail i x).tg j = s.tg j := rfl
@[simp] theorem State.setTile_rd (i : Tile) (x : TileHw) (j : Nat) : (s.setTile i x).rd j = s.rd j := rfl
@[simp] theorem State.setTile_rdB (i : Tile) (x : TileHw) (j : Nat) : (s.setTile i x).rdB j = s.rdB j := rfl
@[simp] theorem State.setTile_ior (i : Tile) (x : TileHw) (c q : Nat) : (s.setTile i x).ior c q = s.ior c q := rfl
@[simp] theorem State.setTile_cmp (i : Tile) (x : TileHw) (j : Cmp) : (s.setTile i x).cmp j = s.cmp j := rfl
@[simp] theorem State.setTile_path (i : Tile) (x : TileHw) (j : Port) : (s.setTile i x).path j = s.path j := rfl
@[simp] theorem State.setTile_feed (i : Tile) (x : TileHw) (j : Feed) : (s.setTile i x).feed j = s.feed j := rfl
@[simp] theorem State.setTile_slot (i : Tile) (x : TileHw) (j : Slot) : (s.setTile i x).slot j = s.slot j := rfl
@[simp] theorem State.setTile_lport (i : Tile) (x : TileHw) (j : Port) : (s.setTile i x).lport j = s.lport j := rfl
@[simp] theorem State.setTile_port (i : Tile) (x : TileHw) (j : Port) : (s.setTile i x).port j = s.port j := rfl
@[simp] theorem State.setTile_conv (i : Tile) (x : TileHw) (j : Conv) : (s.setTile i x).conv j = s.conv j := rfl
@[simp] theorem State.setTile_met (i : Tile) (x : TileHw) (j : Fin 100) : (s.setTile i x).met j = s.met j := rfl
@[simp] theorem State.setTile_rail (i : Tile) (x : TileHw) (j : Rail) : (s.setTile i x).rail j = s.rail j := rfl
@[simp] theorem State.setTile_ct (i : Tile) (x : TileHw) (j : Ctr) : (s.setTile i x).ct j = s.ct j := rfl
@[simp] theorem State.setTile_tbc (i : Tile) (x : TileHw) (j : Tbc) : (s.setTile i x).tbc j = s.tbc j := rfl
@[simp] theorem State.setTile_core (i : Tile) (x : TileHw) (j : CoreId) : (s.setTile i x).core j = s.core j := rfl
@[simp] theorem State.setTile_mbox (i : Tile) (x : TileHw) (j : Eng) : (s.setTile i x).mbox j = s.mbox j := rfl
@[simp] theorem State.setTile_tw (i : Tile) (x : TileHw) (j : Bus) : (s.setTile i x).tw j = s.tw j := rfl
@[simp] theorem State.setTile_src (i : Tile) (x : TileHw) (j : Requester) : (s.setTile i x).src j = s.src j := rfl
@[simp] theorem State.setTile_ses (i : Tile) (x : TileHw) (j : Transport) : (s.setTile i x).ses j = s.ses j := rfl
@[simp] theorem State.setTile_tg (i : Tile) (x : TileHw) (j : Tg) : (s.setTile i x).tg j = s.tg j := rfl
@[simp] theorem State.setCt_rd (i : Ctr) (x : CtHw) (j : Nat) : (s.setCt i x).rd j = s.rd j := rfl
@[simp] theorem State.setCt_rdB (i : Ctr) (x : CtHw) (j : Nat) : (s.setCt i x).rdB j = s.rdB j := rfl
@[simp] theorem State.setCt_ior (i : Ctr) (x : CtHw) (c q : Nat) : (s.setCt i x).ior c q = s.ior c q := rfl
@[simp] theorem State.setCt_cmp (i : Ctr) (x : CtHw) (j : Cmp) : (s.setCt i x).cmp j = s.cmp j := rfl
@[simp] theorem State.setCt_path (i : Ctr) (x : CtHw) (j : Port) : (s.setCt i x).path j = s.path j := rfl
@[simp] theorem State.setCt_feed (i : Ctr) (x : CtHw) (j : Feed) : (s.setCt i x).feed j = s.feed j := rfl
@[simp] theorem State.setCt_slot (i : Ctr) (x : CtHw) (j : Slot) : (s.setCt i x).slot j = s.slot j := rfl
@[simp] theorem State.setCt_lport (i : Ctr) (x : CtHw) (j : Port) : (s.setCt i x).lport j = s.lport j := rfl
@[simp] theorem State.setCt_port (i : Ctr) (x : CtHw) (j : Port) : (s.setCt i x).port j = s.port j := rfl
@[simp] theorem State.setCt_conv (i : Ctr) (x : CtHw) (j : Conv) : (s.setCt i x).conv j = s.conv j := rfl
@[simp] theorem State.setCt_met (i : Ctr) (x : CtHw) (j : Fin 100) : (s.setCt i x).met j = s.met j := rfl
@[simp] theorem State.setCt_rail (i : Ctr) (x : CtHw) (j : Rail) : (s.setCt i x).rail j = s.rail j := rfl
@[simp] theorem State.setCt_tile (i : Ctr) (x : CtHw) (j : Tile) : (s.setCt i x).tile j = s.tile j := rfl
@[simp] theorem State.setCt_tbc (i : Ctr) (x : CtHw) (j : Tbc) : (s.setCt i x).tbc j = s.tbc j := rfl
@[simp] theorem State.setCt_core (i : Ctr) (x : CtHw) (j : CoreId) : (s.setCt i x).core j = s.core j := rfl
@[simp] theorem State.setCt_mbox (i : Ctr) (x : CtHw) (j : Eng) : (s.setCt i x).mbox j = s.mbox j := rfl
@[simp] theorem State.setCt_tw (i : Ctr) (x : CtHw) (j : Bus) : (s.setCt i x).tw j = s.tw j := rfl
@[simp] theorem State.setCt_src (i : Ctr) (x : CtHw) (j : Requester) : (s.setCt i x).src j = s.src j := rfl
@[simp] theorem State.setCt_ses (i : Ctr) (x : CtHw) (j : Transport) : (s.setCt i x).ses j = s.ses j := rfl
@[simp] theorem State.setCt_tg (i : Ctr) (x : CtHw) (j : Tg) : (s.setCt i x).tg j = s.tg j := rfl
@[simp] theorem State.setTbc_rd (i : Tbc) (x : TbcHw) (j : Nat) : (s.setTbc i x).rd j = s.rd j := rfl
@[simp] theorem State.setTbc_rdB (i : Tbc) (x : TbcHw) (j : Nat) : (s.setTbc i x).rdB j = s.rdB j := rfl
@[simp] theorem State.setTbc_ior (i : Tbc) (x : TbcHw) (c q : Nat) : (s.setTbc i x).ior c q = s.ior c q := rfl
@[simp] theorem State.setTbc_cmp (i : Tbc) (x : TbcHw) (j : Cmp) : (s.setTbc i x).cmp j = s.cmp j := rfl
@[simp] theorem State.setTbc_path (i : Tbc) (x : TbcHw) (j : Port) : (s.setTbc i x).path j = s.path j := rfl
@[simp] theorem State.setTbc_feed (i : Tbc) (x : TbcHw) (j : Feed) : (s.setTbc i x).feed j = s.feed j := rfl
@[simp] theorem State.setTbc_slot (i : Tbc) (x : TbcHw) (j : Slot) : (s.setTbc i x).slot j = s.slot j := rfl
@[simp] theorem State.setTbc_lport (i : Tbc) (x : TbcHw) (j : Port) : (s.setTbc i x).lport j = s.lport j := rfl
@[simp] theorem State.setTbc_port (i : Tbc) (x : TbcHw) (j : Port) : (s.setTbc i x).port j = s.port j := rfl
@[simp] theorem State.setTbc_conv (i : Tbc) (x : TbcHw) (j : Conv) : (s.setTbc i x).conv j = s.conv j := rfl
@[simp] theorem State.setTbc_met (i : Tbc) (x : TbcHw) (j : Fin 100) : (s.setTbc i x).met j = s.met j := rfl
@[simp] theorem State.setTbc_rail (i : Tbc) (x : TbcHw) (j : Rail) : (s.setTbc i x).rail j = s.rail j := rfl
@[simp] theorem State.setTbc_tile (i : Tbc) (x : TbcHw) (j : Tile) : (s.setTbc i x).tile j = s.tile j := rfl
@[simp] theorem State.setTbc_ct (i : Tbc) (x : TbcHw) (j : Ctr) : (s.setTbc i x).ct j = s.ct j := rfl
@[simp] theorem State.setTbc_core (i : Tbc) (x : TbcHw) (j : CoreId) : (s.setTbc i x).core j = s.core j := rfl
@[simp] theorem State.setTbc_mbox (i : Tbc) (x : TbcHw) (j : Eng) : (s.setTbc i x).mbox j = s.mbox j := rfl
@[simp] theorem State.setTbc_tw (i : Tbc) (x : TbcHw) (j : Bus) : (s.setTbc i x).tw j = s.tw j := rfl
@[simp] theorem State.setTbc_src (i : Tbc) (x : TbcHw) (j : Requester) : (s.setTbc i x).src j = s.src j := rfl
@[simp] theorem State.setTbc_ses (i : Tbc) (x : TbcHw) (j : Transport) : (s.setTbc i x).ses j = s.ses j := rfl
@[simp] theorem State.setTbc_tg (i : Tbc) (x : TbcHw) (j : Tg) : (s.setTbc i x).tg j = s.tg j := rfl
@[simp] theorem State.setCore_rd (i : CoreId) (x : CoreHw) (j : Nat) : (s.setCore i x).rd j = s.rd j := rfl
@[simp] theorem State.setCore_rdB (i : CoreId) (x : CoreHw) (j : Nat) : (s.setCore i x).rdB j = s.rdB j := rfl
@[simp] theorem State.setCore_ior (i : CoreId) (x : CoreHw) (c q : Nat) : (s.setCore i x).ior c q = s.ior c q := rfl
@[simp] theorem State.setCore_cmp (i : CoreId) (x : CoreHw) (j : Cmp) : (s.setCore i x).cmp j = s.cmp j := rfl
@[simp] theorem State.setCore_path (i : CoreId) (x : CoreHw) (j : Port) : (s.setCore i x).path j = s.path j := rfl
@[simp] theorem State.setCore_feed (i : CoreId) (x : CoreHw) (j : Feed) : (s.setCore i x).feed j = s.feed j := rfl
@[simp] theorem State.setCore_slot (i : CoreId) (x : CoreHw) (j : Slot) : (s.setCore i x).slot j = s.slot j := rfl
@[simp] theorem State.setCore_lport (i : CoreId) (x : CoreHw) (j : Port) : (s.setCore i x).lport j = s.lport j := rfl
@[simp] theorem State.setCore_port (i : CoreId) (x : CoreHw) (j : Port) : (s.setCore i x).port j = s.port j := rfl
@[simp] theorem State.setCore_conv (i : CoreId) (x : CoreHw) (j : Conv) : (s.setCore i x).conv j = s.conv j := rfl
@[simp] theorem State.setCore_met (i : CoreId) (x : CoreHw) (j : Fin 100) : (s.setCore i x).met j = s.met j := rfl
@[simp] theorem State.setCore_rail (i : CoreId) (x : CoreHw) (j : Rail) : (s.setCore i x).rail j = s.rail j := rfl
@[simp] theorem State.setCore_tile (i : CoreId) (x : CoreHw) (j : Tile) : (s.setCore i x).tile j = s.tile j := rfl
@[simp] theorem State.setCore_ct (i : CoreId) (x : CoreHw) (j : Ctr) : (s.setCore i x).ct j = s.ct j := rfl
@[simp] theorem State.setCore_tbc (i : CoreId) (x : CoreHw) (j : Tbc) : (s.setCore i x).tbc j = s.tbc j := rfl
@[simp] theorem State.setCore_mbox (i : CoreId) (x : CoreHw) (j : Eng) : (s.setCore i x).mbox j = s.mbox j := rfl
@[simp] theorem State.setCore_tw (i : CoreId) (x : CoreHw) (j : Bus) : (s.setCore i x).tw j = s.tw j := rfl
@[simp] theorem State.setCore_src (i : CoreId) (x : CoreHw) (j : Requester) : (s.setCore i x).src j = s.src j := rfl
@[simp] theorem State.setCore_ses (i : CoreId) (x : CoreHw) (j : Transport) : (s.setCore i x).ses j = s.ses j := rfl
@[simp] theorem State.setCore_tg (i : CoreId) (x : CoreHw) (j : Tg) : (s.setCore i x).tg j = s.tg j := rfl
@[simp] theorem State.setMbox_rd (i : Eng) (x : MboxHw) (j : Nat) : (s.setMbox i x).rd j = s.rd j := rfl
@[simp] theorem State.setMbox_rdB (i : Eng) (x : MboxHw) (j : Nat) : (s.setMbox i x).rdB j = s.rdB j := rfl
@[simp] theorem State.setMbox_ior (i : Eng) (x : MboxHw) (c q : Nat) : (s.setMbox i x).ior c q = s.ior c q := rfl
@[simp] theorem State.setMbox_cmp (i : Eng) (x : MboxHw) (j : Cmp) : (s.setMbox i x).cmp j = s.cmp j := rfl
@[simp] theorem State.setMbox_path (i : Eng) (x : MboxHw) (j : Port) : (s.setMbox i x).path j = s.path j := rfl
@[simp] theorem State.setMbox_feed (i : Eng) (x : MboxHw) (j : Feed) : (s.setMbox i x).feed j = s.feed j := rfl
@[simp] theorem State.setMbox_slot (i : Eng) (x : MboxHw) (j : Slot) : (s.setMbox i x).slot j = s.slot j := rfl
@[simp] theorem State.setMbox_lport (i : Eng) (x : MboxHw) (j : Port) : (s.setMbox i x).lport j = s.lport j := rfl
@[simp] theorem State.setMbox_port (i : Eng) (x : MboxHw) (j : Port) : (s.setMbox i x).port j = s.port j := rfl
@[simp] theorem State.setMbox_conv (i : Eng) (x : MboxHw) (j : Conv) : (s.setMbox i x).conv j = s.conv j := rfl
@[simp] theorem State.setMbox_met (i : Eng) (x : MboxHw) (j : Fin 100) : (s.setMbox i x).met j = s.met j := rfl
@[simp] theorem State.setMbox_rail (i : Eng) (x : MboxHw) (j : Rail) : (s.setMbox i x).rail j = s.rail j := rfl
@[simp] theorem State.setMbox_tile (i : Eng) (x : MboxHw) (j : Tile) : (s.setMbox i x).tile j = s.tile j := rfl
@[simp] theorem State.setMbox_ct (i : Eng) (x : MboxHw) (j : Ctr) : (s.setMbox i x).ct j = s.ct j := rfl
@[simp] theorem State.setMbox_tbc (i : Eng) (x : MboxHw) (j : Tbc) : (s.setMbox i x).tbc j = s.tbc j := rfl
@[simp] theorem State.setMbox_core (i : Eng) (x : MboxHw) (j : CoreId) : (s.setMbox i x).core j = s.core j := rfl
@[simp] theorem State.setMbox_tw (i : Eng) (x : MboxHw) (j : Bus) : (s.setMbox i x).tw j = s.tw j := rfl
@[simp] theorem State.setMbox_src (i : Eng) (x : MboxHw) (j : Requester) : (s.setMbox i x).src j = s.src j := rfl
@[simp] theorem State.setMbox_ses (i : Eng) (x : MboxHw) (j : Transport) : (s.setMbox i x).ses j = s.ses j := rfl
@[simp] theorem State.setMbox_tg (i : Eng) (x : MboxHw) (j : Tg) : (s.setMbox i x).tg j = s.tg j := rfl
@[simp] theorem State.setTw_rd (i : Bus) (x : TwHw) (j : Nat) : (s.setTw i x).rd j = s.rd j := rfl
@[simp] theorem State.setTw_rdB (i : Bus) (x : TwHw) (j : Nat) : (s.setTw i x).rdB j = s.rdB j := rfl
@[simp] theorem State.setTw_ior (i : Bus) (x : TwHw) (c q : Nat) : (s.setTw i x).ior c q = s.ior c q := rfl
@[simp] theorem State.setTw_cmp (i : Bus) (x : TwHw) (j : Cmp) : (s.setTw i x).cmp j = s.cmp j := rfl
@[simp] theorem State.setTw_path (i : Bus) (x : TwHw) (j : Port) : (s.setTw i x).path j = s.path j := rfl
@[simp] theorem State.setTw_feed (i : Bus) (x : TwHw) (j : Feed) : (s.setTw i x).feed j = s.feed j := rfl
@[simp] theorem State.setTw_slot (i : Bus) (x : TwHw) (j : Slot) : (s.setTw i x).slot j = s.slot j := rfl
@[simp] theorem State.setTw_lport (i : Bus) (x : TwHw) (j : Port) : (s.setTw i x).lport j = s.lport j := rfl
@[simp] theorem State.setTw_port (i : Bus) (x : TwHw) (j : Port) : (s.setTw i x).port j = s.port j := rfl
@[simp] theorem State.setTw_conv (i : Bus) (x : TwHw) (j : Conv) : (s.setTw i x).conv j = s.conv j := rfl
@[simp] theorem State.setTw_met (i : Bus) (x : TwHw) (j : Fin 100) : (s.setTw i x).met j = s.met j := rfl
@[simp] theorem State.setTw_rail (i : Bus) (x : TwHw) (j : Rail) : (s.setTw i x).rail j = s.rail j := rfl
@[simp] theorem State.setTw_tile (i : Bus) (x : TwHw) (j : Tile) : (s.setTw i x).tile j = s.tile j := rfl
@[simp] theorem State.setTw_ct (i : Bus) (x : TwHw) (j : Ctr) : (s.setTw i x).ct j = s.ct j := rfl
@[simp] theorem State.setTw_tbc (i : Bus) (x : TwHw) (j : Tbc) : (s.setTw i x).tbc j = s.tbc j := rfl
@[simp] theorem State.setTw_core (i : Bus) (x : TwHw) (j : CoreId) : (s.setTw i x).core j = s.core j := rfl
@[simp] theorem State.setTw_mbox (i : Bus) (x : TwHw) (j : Eng) : (s.setTw i x).mbox j = s.mbox j := rfl
@[simp] theorem State.setTw_src (i : Bus) (x : TwHw) (j : Requester) : (s.setTw i x).src j = s.src j := rfl
@[simp] theorem State.setTw_ses (i : Bus) (x : TwHw) (j : Transport) : (s.setTw i x).ses j = s.ses j := rfl
@[simp] theorem State.setTw_tg (i : Bus) (x : TwHw) (j : Tg) : (s.setTw i x).tg j = s.tg j := rfl
@[simp] theorem State.setSrc_rd (i : Requester) (x : SrcHw) (j : Nat) : (s.setSrc i x).rd j = s.rd j := rfl
@[simp] theorem State.setSrc_rdB (i : Requester) (x : SrcHw) (j : Nat) : (s.setSrc i x).rdB j = s.rdB j := rfl
@[simp] theorem State.setSrc_ior (i : Requester) (x : SrcHw) (c q : Nat) : (s.setSrc i x).ior c q = s.ior c q := rfl
@[simp] theorem State.setSrc_cmp (i : Requester) (x : SrcHw) (j : Cmp) : (s.setSrc i x).cmp j = s.cmp j := rfl
@[simp] theorem State.setSrc_path (i : Requester) (x : SrcHw) (j : Port) : (s.setSrc i x).path j = s.path j := rfl
@[simp] theorem State.setSrc_feed (i : Requester) (x : SrcHw) (j : Feed) : (s.setSrc i x).feed j = s.feed j := rfl
@[simp] theorem State.setSrc_slot (i : Requester) (x : SrcHw) (j : Slot) : (s.setSrc i x).slot j = s.slot j := rfl
@[simp] theorem State.setSrc_lport (i : Requester) (x : SrcHw) (j : Port) : (s.setSrc i x).lport j = s.lport j := rfl
@[simp] theorem State.setSrc_port (i : Requester) (x : SrcHw) (j : Port) : (s.setSrc i x).port j = s.port j := rfl
@[simp] theorem State.setSrc_conv (i : Requester) (x : SrcHw) (j : Conv) : (s.setSrc i x).conv j = s.conv j := rfl
@[simp] theorem State.setSrc_met (i : Requester) (x : SrcHw) (j : Fin 100) : (s.setSrc i x).met j = s.met j := rfl
@[simp] theorem State.setSrc_rail (i : Requester) (x : SrcHw) (j : Rail) : (s.setSrc i x).rail j = s.rail j := rfl
@[simp] theorem State.setSrc_tile (i : Requester) (x : SrcHw) (j : Tile) : (s.setSrc i x).tile j = s.tile j := rfl
@[simp] theorem State.setSrc_ct (i : Requester) (x : SrcHw) (j : Ctr) : (s.setSrc i x).ct j = s.ct j := rfl
@[simp] theorem State.setSrc_tbc (i : Requester) (x : SrcHw) (j : Tbc) : (s.setSrc i x).tbc j = s.tbc j := rfl
@[simp] theorem State.setSrc_core (i : Requester) (x : SrcHw) (j : CoreId) : (s.setSrc i x).core j = s.core j := rfl
@[simp] theorem State.setSrc_mbox (i : Requester) (x : SrcHw) (j : Eng) : (s.setSrc i x).mbox j = s.mbox j := rfl
@[simp] theorem State.setSrc_tw (i : Requester) (x : SrcHw) (j : Bus) : (s.setSrc i x).tw j = s.tw j := rfl
@[simp] theorem State.setSrc_ses (i : Requester) (x : SrcHw) (j : Transport) : (s.setSrc i x).ses j = s.ses j := rfl
@[simp] theorem State.setSrc_tg (i : Requester) (x : SrcHw) (j : Tg) : (s.setSrc i x).tg j = s.tg j := rfl
@[simp] theorem State.setSes_rd (i : Transport) (x : SessHw) (j : Nat) : (s.setSes i x).rd j = s.rd j := rfl
@[simp] theorem State.setSes_rdB (i : Transport) (x : SessHw) (j : Nat) : (s.setSes i x).rdB j = s.rdB j := rfl
@[simp] theorem State.setSes_ior (i : Transport) (x : SessHw) (c q : Nat) : (s.setSes i x).ior c q = s.ior c q := rfl
@[simp] theorem State.setSes_cmp (i : Transport) (x : SessHw) (j : Cmp) : (s.setSes i x).cmp j = s.cmp j := rfl
@[simp] theorem State.setSes_path (i : Transport) (x : SessHw) (j : Port) : (s.setSes i x).path j = s.path j := rfl
@[simp] theorem State.setSes_feed (i : Transport) (x : SessHw) (j : Feed) : (s.setSes i x).feed j = s.feed j := rfl
@[simp] theorem State.setSes_slot (i : Transport) (x : SessHw) (j : Slot) : (s.setSes i x).slot j = s.slot j := rfl
@[simp] theorem State.setSes_lport (i : Transport) (x : SessHw) (j : Port) : (s.setSes i x).lport j = s.lport j := rfl
@[simp] theorem State.setSes_port (i : Transport) (x : SessHw) (j : Port) : (s.setSes i x).port j = s.port j := rfl
@[simp] theorem State.setSes_conv (i : Transport) (x : SessHw) (j : Conv) : (s.setSes i x).conv j = s.conv j := rfl
@[simp] theorem State.setSes_met (i : Transport) (x : SessHw) (j : Fin 100) : (s.setSes i x).met j = s.met j := rfl
@[simp] theorem State.setSes_rail (i : Transport) (x : SessHw) (j : Rail) : (s.setSes i x).rail j = s.rail j := rfl
@[simp] theorem State.setSes_tile (i : Transport) (x : SessHw) (j : Tile) : (s.setSes i x).tile j = s.tile j := rfl
@[simp] theorem State.setSes_ct (i : Transport) (x : SessHw) (j : Ctr) : (s.setSes i x).ct j = s.ct j := rfl
@[simp] theorem State.setSes_tbc (i : Transport) (x : SessHw) (j : Tbc) : (s.setSes i x).tbc j = s.tbc j := rfl
@[simp] theorem State.setSes_core (i : Transport) (x : SessHw) (j : CoreId) : (s.setSes i x).core j = s.core j := rfl
@[simp] theorem State.setSes_mbox (i : Transport) (x : SessHw) (j : Eng) : (s.setSes i x).mbox j = s.mbox j := rfl
@[simp] theorem State.setSes_tw (i : Transport) (x : SessHw) (j : Bus) : (s.setSes i x).tw j = s.tw j := rfl
@[simp] theorem State.setSes_src (i : Transport) (x : SessHw) (j : Requester) : (s.setSes i x).src j = s.src j := rfl
@[simp] theorem State.setSes_tg (i : Transport) (x : SessHw) (j : Tg) : (s.setSes i x).tg j = s.tg j := rfl
@[simp] theorem State.setTg_rd (i : Tg) (x : TgHw) (j : Nat) : (s.setTg i x).rd j = s.rd j := rfl
@[simp] theorem State.setTg_rdB (i : Tg) (x : TgHw) (j : Nat) : (s.setTg i x).rdB j = s.rdB j := rfl
@[simp] theorem State.setTg_ior (i : Tg) (x : TgHw) (c q : Nat) : (s.setTg i x).ior c q = s.ior c q := rfl
@[simp] theorem State.setTg_cmp (i : Tg) (x : TgHw) (j : Cmp) : (s.setTg i x).cmp j = s.cmp j := rfl
@[simp] theorem State.setTg_path (i : Tg) (x : TgHw) (j : Port) : (s.setTg i x).path j = s.path j := rfl
@[simp] theorem State.setTg_feed (i : Tg) (x : TgHw) (j : Feed) : (s.setTg i x).feed j = s.feed j := rfl
@[simp] theorem State.setTg_slot (i : Tg) (x : TgHw) (j : Slot) : (s.setTg i x).slot j = s.slot j := rfl
@[simp] theorem State.setTg_lport (i : Tg) (x : TgHw) (j : Port) : (s.setTg i x).lport j = s.lport j := rfl
@[simp] theorem State.setTg_port (i : Tg) (x : TgHw) (j : Port) : (s.setTg i x).port j = s.port j := rfl
@[simp] theorem State.setTg_conv (i : Tg) (x : TgHw) (j : Conv) : (s.setTg i x).conv j = s.conv j := rfl
@[simp] theorem State.setTg_met (i : Tg) (x : TgHw) (j : Fin 100) : (s.setTg i x).met j = s.met j := rfl
@[simp] theorem State.setTg_rail (i : Tg) (x : TgHw) (j : Rail) : (s.setTg i x).rail j = s.rail j := rfl
@[simp] theorem State.setTg_tile (i : Tg) (x : TgHw) (j : Tile) : (s.setTg i x).tile j = s.tile j := rfl
@[simp] theorem State.setTg_ct (i : Tg) (x : TgHw) (j : Ctr) : (s.setTg i x).ct j = s.ct j := rfl
@[simp] theorem State.setTg_tbc (i : Tg) (x : TgHw) (j : Tbc) : (s.setTg i x).tbc j = s.tbc j := rfl
@[simp] theorem State.setTg_core (i : Tg) (x : TgHw) (j : CoreId) : (s.setTg i x).core j = s.core j := rfl
@[simp] theorem State.setTg_mbox (i : Tg) (x : TgHw) (j : Eng) : (s.setTg i x).mbox j = s.mbox j := rfl
@[simp] theorem State.setTg_tw (i : Tg) (x : TgHw) (j : Bus) : (s.setTg i x).tw j = s.tw j := rfl
@[simp] theorem State.setTg_src (i : Tg) (x : TgHw) (j : Requester) : (s.setTg i x).src j = s.src j := rfl
@[simp] theorem State.setTg_ses (i : Tg) (x : TgHw) (j : Transport) : (s.setTg i x).ses j = s.ses j := rfl

theorem tget_tset {α : Type} {n : Nat} (v : Vector α n) (i j : Fin n) (x : α) :
    tget (tset v i x) j = if j = i then x else tget v j := by
  simp only [tget, tset, Vector.getElem_set]
  by_cases h : j = i
  · subst h; simp
  · rw [if_neg h, if_neg (fun e => h (Fin.ext e.symm))]

@[simp] theorem State.setCmp_cmp (i j : Cmp) (x : CmpHw) :
    (s.setCmp i x).cmp j = if j = i then x else s.cmp j := tget_tset ..
@[simp] theorem State.setPath_path (i j : Port) (x : PathHw) :
    (s.setPath i x).path j = if j = i then x else s.path j := tget_tset ..
@[simp] theorem State.setFeed_feed (i j : Feed) (x : FeedHw) :
    (s.setFeed i x).feed j = if j = i then x else s.feed j := tget_tset ..
@[simp] theorem State.setSlot_slot (i j : Slot) (x : SlotHw) :
    (s.setSlot i x).slot j = if j = i then x else s.slot j := tget_tset ..
@[simp] theorem State.setLport_lport (i j : Port) (x : LedgerPort) :
    (s.setLport i x).lport j = if j = i then x else s.lport j := tget_tset ..
@[simp] theorem State.setPort_port (i j : Port) (x : PortHw) :
    (s.setPort i x).port j = if j = i then x else s.port j := tget_tset ..
@[simp] theorem State.setConv_conv (i j : Conv) (x : ConvHw) :
    (s.setConv i x).conv j = if j = i then x else s.conv j := tget_tset ..
@[simp] theorem State.setMet_met (i j : Fin 100) (x : MetHw) :
    (s.setMet i x).met j = if j = i then x else s.met j := tget_tset ..
@[simp] theorem State.setRail_rail (i j : Rail) (x : RailHw) :
    (s.setRail i x).rail j = if j = i then x else s.rail j := tget_tset ..
@[simp] theorem State.setTile_tile (i j : Tile) (x : TileHw) :
    (s.setTile i x).tile j = if j = i then x else s.tile j := tget_tset ..
@[simp] theorem State.setCt_ct (i j : Ctr) (x : CtHw) :
    (s.setCt i x).ct j = if j = i then x else s.ct j := tget_tset ..
@[simp] theorem State.setTbc_tbc (i j : Tbc) (x : TbcHw) :
    (s.setTbc i x).tbc j = if j = i then x else s.tbc j := tget_tset ..
@[simp] theorem State.setCore_core (i j : CoreId) (x : CoreHw) :
    (s.setCore i x).core j = if j = i then x else s.core j := tget_tset ..
@[simp] theorem State.setMbox_mbox (i j : Eng) (x : MboxHw) :
    (s.setMbox i x).mbox j = if j = i then x else s.mbox j := tget_tset ..
@[simp] theorem State.setTw_tw (i j : Bus) (x : TwHw) :
    (s.setTw i x).tw j = if j = i then x else s.tw j := tget_tset ..
@[simp] theorem State.setSrc_src (i j : Requester) (x : SrcHw) :
    (s.setSrc i x).src j = if j = i then x else s.src j := tget_tset ..
@[simp] theorem State.setSes_ses (i j : Transport) (x : SessHw) :
    (s.setSes i x).ses j = if j = i then x else s.ses j := tget_tset ..
@[simp] theorem State.setTg_tg (i j : Tg) (x : TgHw) :
    (s.setTg i x).tg j = if j = i then x else s.tg j := tget_tset ..

@[simp] theorem State.rP_wr (k : Nat) (v : Int) (i : Port) (e : Nat) :
    (s.wr k v).rP i e = if keyP i e = k then v else s.rP i e := State.rd_wr ..
@[simp] theorem State.rP_wP (i j : Port) (e f : Nat) (v : Int) :
    (s.wP i e v).rP j f = if keyP j f = keyP i e then v else s.rP j f := State.rd_wr ..

@[simp] theorem State.rR_wr (k : Nat) (v : Int) (i : Rail) (e : Nat) :
    (s.wr k v).rR i e = if keyR i e = k then v else s.rR i e := State.rd_wr ..
@[simp] theorem State.rR_wR (i j : Rail) (e f : Nat) (v : Int) :
    (s.wR i e v).rR j f = if keyR j f = keyR i e then v else s.rR j f := State.rd_wr ..

@[simp] theorem State.rV_wr (k : Nat) (v : Int) (i : Conv) (e : Nat) :
    (s.wr k v).rV i e = if keyV i e = k then v else s.rV i e := State.rd_wr ..
@[simp] theorem State.rV_wV (i j : Conv) (e f : Nat) (v : Int) :
    (s.wV i e v).rV j f = if keyV j f = keyV i e then v else s.rV j f := State.rd_wr ..

@[simp] theorem State.rC_wr (k : Nat) (v : Int) (i : Cmp) (e : Nat) :
    (s.wr k v).rC i e = if keyC i e = k then v else s.rC i e := State.rd_wr ..
@[simp] theorem State.rC_wC (i j : Cmp) (e f : Nat) (v : Int) :
    (s.wC i e v).rC j f = if keyC j f = keyC i e then v else s.rC j f := State.rd_wr ..

@[simp] theorem State.rF_wr (k : Nat) (v : Int) (i : Feed) (e : Nat) :
    (s.wr k v).rF i e = if keyF i e = k then v else s.rF i e := State.rd_wr ..
@[simp] theorem State.rF_wF (i j : Feed) (e f : Nat) (v : Int) :
    (s.wF i e v).rF j f = if keyF j f = keyF i e then v else s.rF j f := State.rd_wr ..

@[simp] theorem State.rS_wr (k : Nat) (v : Int) (i : Slot) (e : Nat) :
    (s.wr k v).rS i e = if keyS i e = k then v else s.rS i e := State.rd_wr ..
@[simp] theorem State.rS_wS (i j : Slot) (e f : Nat) (v : Int) :
    (s.wS i e v).rS j f = if keyS j f = keyS i e then v else s.rS j f := State.rd_wr ..

@[simp] theorem State.rM_wr (k : Nat) (v : Int) (i : Chan) (e : Nat) :
    (s.wr k v).rM i e = if keyM i e = k then v else s.rM i e := State.rd_wr ..
@[simp] theorem State.rM_wM (i j : Chan) (e f : Nat) (v : Int) :
    (s.wM i e v).rM j f = if keyM j f = keyM i e then v else s.rM j f := State.rd_wr ..

@[simp] theorem State.rW_wr (k : Nat) (v : Int) (i : Bus) (e : Nat) :
    (s.wr k v).rW i e = if keyW i e = k then v else s.rW i e := State.rd_wr ..
@[simp] theorem State.rW_wW (i j : Bus) (e f : Nat) (v : Int) :
    (s.wW i e v).rW j f = if keyW j f = keyW i e then v else s.rW j f := State.rd_wr ..

@[simp] theorem State.rT_wr (k : Nat) (v : Int) (i : Ctr) (e : Nat) :
    (s.wr k v).rT i e = if keyT i e = k then v else s.rT i e := State.rd_wr ..
@[simp] theorem State.rT_wT (i j : Ctr) (e f : Nat) (v : Int) :
    (s.wT i e v).rT j f = if keyT j f = keyT i e then v else s.rT j f := State.rd_wr ..

@[simp] theorem State.rU_wr (k : Nat) (v : Int) (i : Tbc) (e : Nat) :
    (s.wr k v).rU i e = if keyU i e = k then v else s.rU i e := State.rd_wr ..
@[simp] theorem State.rU_wU (i j : Tbc) (e f : Nat) (v : Int) :
    (s.wU i e v).rU j f = if keyU j f = keyU i e then v else s.rU j f := State.rd_wr ..

@[simp] theorem State.rX_wr (k : Nat) (v : Int) (i : Tg) (e : Nat) :
    (s.wr k v).rX i e = if keyX i e = k then v else s.rX i e := State.rd_wr ..
@[simp] theorem State.rX_wX (i j : Tg) (e f : Nat) (v : Int) :
    (s.wX i e v).rX j f = if keyX j f = keyX i e then v else s.rX j f := State.rd_wr ..

end Sys2Proof.Machine
end

