-- ==== Sys2Proof/Laws/Frame.lean ====
section
/-! SUPPORT. What a change of the state can move: the parts that it may change, with the stores left in canonical form. -/

namespace Sys2Proof.Machine

theorem Part.same_refl (x : Part) (s : State) : x.same s s = true := by cases x <;> exact decide_eq_true rfl

theorem Part.same_trans (x : Part) {s t u : State} (h : x.same s t = true) (g : x.same t u = true) : x.same s u = true := by
  cases x <;> simp only [Part.same, decide_eq_true_eq] at * <;> exact h.trans g

/-- From `s` to `t` nothing but the parts `xs` changes, and the stores stay in canonical form. -/
structure Moves (xs : List Part) (s t : State) : Prop where
  only : Only xs s t
  canon : s.canonical = true → t.canonical = true

/-- Every part but the listed ones. -/
def partsBut (ys : List Part) : List Part :=
  [Part.od, .odNew, .blob, .io, .fresh, .tb, .cmps, .paths, .feeds, .slots, .ledgerPorts, .ledger, .tiles, .ports, .scrim, .pins, .coatFault,
    .clk, .convs, .ref, .mets, .recs, .otpShadow, .rails, .coat, .recorder, .nv, .answer, .cts, .tbcs, .tgs, .time, .otp, .cores, .mboxes,
    .shared, .float, .power, .tws, .srcs, .sess, .nvm, .sec].filter fun x => !ys.contains x

theorem Moves.refl (xs : List Part) (s : State) : Moves xs s s := ⟨fun x _ => x.same_refl s, id⟩

theorem Moves.step {xs ys : List Part} {s t u : State} (hy : ∀ y ∈ ys, y ∈ xs) (h : Moves xs s t) (g : Moves ys t u) : Moves xs s u :=
  ⟨fun x hx => x.same_trans (h.only x hx) (g.only x fun hy' => hx (hy x hy')), fun c => g.canon (h.canon c)⟩

theorem Moves.after {xs ys : List Part} {s t u : State} (g : Moves ys t u) (hy : ∀ y ∈ ys, y ∈ xs) (h : Moves xs s t) : Moves xs s u :=
  h.step hy g

theorem Moves.mono {xs ys : List Part} {s t : State} (hy : ∀ y ∈ ys, y ∈ xs) (g : Moves ys s t) : Moves xs s t :=
  (Moves.refl xs s).step hy g

theorem Moves.ite {xs : List Part} {s a b : State} {c : Prop} [Decidable c] (h : Moves xs s a) (g : Moves xs s b) :
    Moves xs s (if c then a else b) := by split <;> assumption

theorem Moves.dite {xs : List Part} {s : State} {c : Prop} [Decidable c] {a : c → State} {b : ¬c → State} (h : ∀ k, Moves xs s (a k))
    (g : ∀ k, Moves xs s (b k)) : Moves xs s (if k : c then a k else b k) := by
  split
  · exact h _
  · exact g _

theorem Moves.ite_fst {xs : List Part} {α : Type} {s : State} {a b : State × α} {c : Prop} [Decidable c] (h : Moves xs s a.1)
    (g : Moves xs s b.1) : Moves xs s (if c then a else b).1 := by split <;> assumption

theorem Moves.ite_snd {xs : List Part} {α : Type} {s : State} {a b : α × State} {c : Prop} [Decidable c] (h : Moves xs s a.2)
    (g : Moves xs s b.2) : Moves xs s (if c then a else b).2 := by split <;> assumption

theorem Moves.elim {xs : List Part} {α : Type} {s a : State} {o : Option α} {f : α → State} (h : Moves xs s a)
    (g : ∀ x, Moves xs s (f x)) : Moves xs s (o.elim a f) := by
  cases o
  · exact h
  · exact g _

theorem Moves.elim_fst {xs : List Part} {α β : Type} {s : State} {a : State × β} {o : Option α} {f : α → State × β} (h : Moves xs s a.1)
    (g : ∀ x, Moves xs s (f x).1) : Moves xs s (o.elim a f).1 := by
  cases o
  · exact h
  · exact g _

theorem Moves.foldl {xs : List Part} {α : Type} {f : State → α → State} {s t : State} {l : List α} (hf : ∀ u x, Moves xs u (f u x))
    (h : Moves xs s t) : Moves xs s (l.foldl f t) := by
  induction l generalizing t with
  | nil => exact h
  | cons x l ih => exact ih (h.step (fun _ hy => hy) (hf t x))

theorem Moves.fst_eq {xs : List Part} {α : Type} {s b : State} {a : α} {p : State × α} (e : p = (b, a)) (h : Moves xs s p.1) :
    Moves xs s b := by subst e; exact h

theorem Moves.snd_eq {xs : List Part} {α : Type} {s b : State} {a : α} {p : α × State} (e : p = (a, b)) (h : Moves xs s p.2) :
    Moves xs s b := by subst e; exact h

/-- A part outside the list is the same in both states. -/
theorem Moves.same {xs : List Part} {s t : State} (h : Moves xs s t) (x : Part) (hx : x ∉ xs) : x.same s t = true := h.only x hx

theorem Moves.upd_od (s : State) (v0 : SMap Int) (h : SMap.wf odDefault s.od = true → SMap.wf odDefault v0 = true) : Moves [.od] s { s with od := v0 } := by
  refine ⟨fun x hx => by cases x <;> first | exact decide_eq_true rfl | exact absurd (by decide) hx, fun c => ?_⟩
  simp only [State.canonical, State.storesOk, Bool.and_eq_true] at c ⊢
  obtain ⟨⟨⟨⟨⟨a, b⟩, d⟩, e⟩, f⟩, g⟩ := c
  exact ⟨⟨⟨⟨⟨h a, b⟩, d⟩, e⟩, f⟩, g⟩

theorem Moves.upd_odNew (s : State) (v0 : SMap (Option Int)) (h : SMap.wf noPending s.odNew = true → SMap.wf noPending v0 = true) : Moves [.odNew] s { s with odNew := v0 } := by
  refine ⟨fun x hx => by cases x <;> first | exact decide_eq_true rfl | exact absurd (by decide) hx, fun c => ?_⟩
  simp only [State.canonical, State.storesOk, Bool.and_eq_true] at c ⊢
  obtain ⟨⟨⟨⟨⟨a, b⟩, d⟩, e⟩, f⟩, g⟩ := c
  exact ⟨⟨⟨⟨⟨a, h b⟩, d⟩, e⟩, f⟩, g⟩

theorem Moves.upd_blob (s : State) (v0 : SMap (List Nat)) (h : SMap.wf blobDefault s.blob = true → SMap.wf blobDefault v0 = true) : Moves [.blob] s { s with blob := v0 } := by
  refine ⟨fun x hx => by cases x <;> first | exact decide_eq_true rfl | exact absurd (by decide) hx, fun c => ?_⟩
  simp only [State.canonical, State.storesOk, Bool.and_eq_true] at c ⊢
  obtain ⟨⟨⟨⟨⟨a, b⟩, d⟩, e⟩, f⟩, g⟩ := c
  exact ⟨⟨⟨⟨⟨a, b⟩, h d⟩, e⟩, f⟩, g⟩

theorem Moves.upd_io (s : State) (v0 : SMap Int) (h : SMap.wf ioDefault s.io = true → SMap.wf ioDefault v0 = true) : Moves [.io] s { s with io := v0 } := by
  refine ⟨fun x hx => by cases x <;> first | exact decide_eq_true rfl | exact absurd (by decide) hx, fun c => ?_⟩
  simp only [State.canonical, State.storesOk, Bool.and_eq_true] at c ⊢
  obtain ⟨⟨⟨⟨⟨a, b⟩, d⟩, e⟩, f⟩, g⟩ := c
  exact ⟨⟨⟨⟨⟨a, b⟩, d⟩, h e⟩, f⟩, g⟩

theorem Moves.upd_fresh (s : State) (v0 : Nat) : Moves [.fresh] s { s with fresh := v0 } :=
  ⟨fun x hx => by cases x <;> first | exact decide_eq_true rfl | exact absurd (by decide) hx, id⟩

theorem Moves.upd_tb (s : State) (v0 : Nat) : Moves [.tb] s { s with tb := v0 } :=
  ⟨fun x hx => by cases x <;> first | exact decide_eq_true rfl | exact absurd (by decide) hx, id⟩

theorem Moves.upd_cmps (s : State) (v0 : Vector CmpHw 164) : Moves [.cmps] s { s with cmps := v0 } :=
  ⟨fun x hx => by cases x <;> first | exact decide_eq_true rfl | exact absurd (by decide) hx, id⟩

theorem Moves.upd_paths (s : State) (v0 : Vector PathHw 64) : Moves [.paths] s { s with paths := v0 } :=
  ⟨fun x hx => by cases x <;> first | exact decide_eq_true rfl | exact absurd (by decide) hx, id⟩

theorem Moves.upd_feeds (s : State) (v0 : Vector FeedHw 2) : Moves [.feeds] s { s with feeds := v0 } :=
  ⟨fun x hx => by cases x <;> first | exact decide_eq_true rfl | exact absurd (by decide) hx, id⟩

theorem Moves.upd_slots (s : State) (v0 : Vector SlotHw 8) : Moves [.slots] s { s with slots := v0 } :=
  ⟨fun x hx => by cases x <;> first | exact decide_eq_true rfl | exact absurd (by decide) hx, id⟩

theorem Moves.upd_ledgerPorts (s : State) (v0 : Vector LedgerPort 64) : Moves [.ledgerPorts] s { s with ledgerPorts := v0 } :=
  ⟨fun x hx => by cases x <;> first | exact decide_eq_true rfl | exact absurd (by decide) hx, id⟩

theorem Moves.upd_ledger (s : State) (v0 : LedgerHw) : Moves [.ledger] s { s with ledger := v0 } :=
  ⟨fun x hx => by cases x <;> first | exact decide_eq_true rfl | exact absurd (by decide) hx, id⟩

theorem Moves.upd_tiles (s : State) (v0 : Vector TileHw 8) : Moves [.tiles] s { s with tiles := v0 } :=
  ⟨fun x hx => by cases x <;> first | exact decide_eq_true rfl | exact absurd (by decide) hx, id⟩

theorem Moves.upd_ports (s : State) (v0 : Vector PortHw 64) : Moves [.ports] s { s with ports := v0 } :=
  ⟨fun x hx => by cases x <;> first | exact decide_eq_true rfl | exact absurd (by decide) hx, id⟩

theorem Moves.upd_scrim (s : State) (v0 : ScrimHw) : Moves [.scrim] s { s with scrim := v0 } :=
  ⟨fun x hx => by cases x <;> first | exact decide_eq_true rfl | exact absurd (by decide) hx, id⟩

theorem Moves.upd_pins (s : State) (v0 : Pins) : Moves [.pins] s { s with pins := v0 } :=
  ⟨fun x hx => by cases x <;> first | exact decide_eq_true rfl | exact absurd (by decide) hx, id⟩

theorem Moves.upd_coatFault (s : State) (v0 : Bool) : Moves [.coatFault] s { s with coatFault := v0 } :=
  ⟨fun x hx => by cases x <;> first | exact decide_eq_true rfl | exact absurd (by decide) hx, id⟩

theorem Moves.upd_clk (s : State) (v0 : ClkHw) : Moves [.clk] s { s with clk := v0 } :=
  ⟨fun x hx => by cases x <;> first | exact decide_eq_true rfl | exact absurd (by decide) hx, id⟩

theorem Moves.upd_convs (s : State) (v0 : Vector ConvHw 18) : Moves [.convs] s { s with convs := v0 } :=
  ⟨fun x hx => by cases x <;> first | exact decide_eq_true rfl | exact absurd (by decide) hx, id⟩

theorem Moves.upd_ref (s : State) (v0 : RefHw) : Moves [.ref] s { s with ref := v0 } :=
  ⟨fun x hx => by cases x <;> first | exact decide_eq_true rfl | exact absurd (by decide) hx, id⟩

theorem Moves.upd_mets (s : State) (v0 : Vector MetHw 100) : Moves [.mets] s { s with mets := v0 } :=
  ⟨fun x hx => by cases x <;> first | exact decide_eq_true rfl | exact absurd (by decide) hx, id⟩

theorem Moves.upd_recs (s : State) (v0 : RecHw) : Moves [.recs] s { s with recs := v0 } :=
  ⟨fun x hx => by cases x <;> first | exact decide_eq_true rfl | exact absurd (by decide) hx, id⟩

theorem Moves.upd_otpShadow (s : State) (v0 : SMap (Option Nat)) : Moves [.otpShadow] s { s with otpShadow := v0 } :=
  ⟨fun x hx => by cases x <;> first | exact decide_eq_true rfl | exact absurd (by decide) hx, id⟩

theorem Moves.upd_rails (s : State) (v0 : Vector RailHw 32) : Moves [.rails] s { s with rails := v0 } :=
  ⟨fun x hx => by cases x <;> first | exact decide_eq_true rfl | exact absurd (by decide) hx, id⟩

theorem Moves.upd_coat (s : State) (v0 : CoatHw) : Moves [.coat] s { s with coat := v0 } :=
  ⟨fun x hx => by cases x <;> first | exact decide_eq_true rfl | exact absurd (by decide) hx, id⟩

theorem Moves.upd_recorder (s : State) (v0 : RecorderHw) : Moves [.recorder] s { s with recorder := v0 } :=
  ⟨fun x hx => by cases x <;> first | exact decide_eq_true rfl | exact absurd (by decide) hx, id⟩

theorem Moves.upd_nv (s : State) (v0 : SMap Int) : Moves [.nv] s { s with nv := v0 } :=
  ⟨fun x hx => by cases x <;> first | exact decide_eq_true rfl | exact absurd (by decide) hx, id⟩

theorem Moves.upd_answer (s : State) (v0 : Nat) : Moves [.answer] s { s with answer := v0 } :=
  ⟨fun x hx => by cases x <;> first | exact decide_eq_true rfl | exact absurd (by decide) hx, id⟩

theorem Moves.upd_cts (s : State) (v0 : Vector CtHw 32) : Moves [.cts] s { s with cts := v0 } :=
  ⟨fun x hx => by cases x <;> first | exact decide_eq_true rfl | exact absurd (by decide) hx, id⟩

theorem Moves.upd_tbcs (s : State) (v0 : Vector TbcHw 32) : Moves [.tbcs] s { s with tbcs := v0 } :=
  ⟨fun x hx => by cases x <;> first | exact decide_eq_true rfl | exact absurd (by decide) hx, id⟩

theorem Moves.upd_tgs (s : State) (v0 : Vector TgHw 8) : Moves [.tgs] s { s with tgs := v0 } :=
  ⟨fun x hx => by cases x <;> first | exact decide_eq_true rfl | exact absurd (by decide) hx, id⟩

theorem Moves.upd_time (s : State) (v0 : TimeHw) : Moves [.time] s { s with time := v0 } :=
  ⟨fun x hx => by cases x <;> first | exact decide_eq_true rfl | exact absurd (by decide) hx, id⟩

theorem Moves.upd_otp (s : State) (v0 : OtpHw) : Moves [.otp] s { s with otp := v0 } :=
  ⟨fun x hx => by cases x <;> first | exact decide_eq_true rfl | exact absurd (by decide) hx, id⟩

theorem Moves.upd_mboxes (s : State) (v0 : Vector MboxHw 17) : Moves [.mboxes] s { s with mboxes := v0 } :=
  ⟨fun x hx => by cases x <;> first | exact decide_eq_true rfl | exact absurd (by decide) hx, id⟩

theorem Moves.upd_shared (s : State) (v0 : SMap Nat) (h : SMap.wf zeroCell s.shared = true → SMap.wf zeroCell v0 = true) : Moves [.shared] s { s with shared := v0 } := by
  refine ⟨fun x hx => by cases x <;> first | exact decide_eq_true rfl | exact absurd (by decide) hx, fun c => ?_⟩
  simp only [State.canonical, State.storesOk, Bool.and_eq_true] at c ⊢
  obtain ⟨⟨⟨⟨⟨a, b⟩, d⟩, e⟩, f⟩, g⟩ := c
  exact ⟨⟨⟨⟨⟨a, b⟩, d⟩, e⟩, h f⟩, g⟩

theorem Moves.upd_float (s : State) (v0 : FloatHw) : Moves [.float] s { s with float := v0 } :=
  ⟨fun x hx => by cases x <;> first | exact decide_eq_true rfl | exact absurd (by decide) hx, id⟩

theorem Moves.upd_power (s : State) (v0 : PowerHw) : Moves [.power] s { s with power := v0 } :=
  ⟨fun x hx => by cases x <;> first | exact decide_eq_true rfl | exact absurd (by decide) hx, id⟩

theorem Moves.upd_tws (s : State) (v0 : Vector TwHw 2) : Moves [.tws] s { s with tws := v0 } :=
  ⟨fun x hx => by cases x <;> first | exact decide_eq_true rfl | exact absurd (by decide) hx, id⟩

theorem Moves.upd_srcs (s : State) (v0 : Vector SrcHw 22) : Moves [.srcs] s { s with srcs := v0 } :=
  ⟨fun x hx => by cases x <;> first | exact decide_eq_true rfl | exact absurd (by decide) hx, id⟩

theorem Moves.upd_sess (s : State) (v0 : Vector SessHw 4) : Moves [.sess] s { s with sess := v0 } :=
  ⟨fun x hx => by cases x <;> first | exact decide_eq_true rfl | exact absurd (by decide) hx, id⟩

theorem Moves.upd_nvm (s : State) (v0 : NvmHw) : Moves [.nvm] s { s with nvm := v0 } :=
  ⟨fun x hx => by cases x <;> first | exact decide_eq_true rfl | exact absurd (by decide) hx, id⟩

theorem Moves.upd_sec (s : State) (v0 : SecHw) : Moves [.sec] s { s with sec := v0 } :=
  ⟨fun x hx => by cases x <;> first | exact decide_eq_true rfl | exact absurd (by decide) hx, id⟩

theorem Moves.upd_answer_recorder (s : State) (v0 : Nat) (v1 : RecorderHw) : Moves [.answer, .recorder] s { s with answer := v0, recorder := v1 } :=
  ⟨fun x hx => by cases x <;> first | exact decide_eq_true rfl | exact absurd (by decide) hx, id⟩

theorem Moves.upd_clk_recs (s : State) (v0 : ClkHw) (v1 : RecHw) : Moves [.clk, .recs] s { s with clk := v0, recs := v1 } :=
  ⟨fun x hx => by cases x <;> first | exact decide_eq_true rfl | exact absurd (by decide) hx, id⟩

theorem Moves.upd_mets_time (s : State) (v0 : Vector MetHw 100) (v1 : TimeHw) : Moves [.mets, .time] s { s with mets := v0, time := v1 } :=
  ⟨fun x hx => by cases x <;> first | exact decide_eq_true rfl | exact absurd (by decide) hx, id⟩

theorem Moves.upd_coat_sec (s : State) (v0 : CoatHw) (v1 : SecHw) : Moves [.coat, .sec] s { s with coat := v0, sec := v1 } :=
  ⟨fun x hx => by cases x <;> first | exact decide_eq_true rfl | exact absurd (by decide) hx, id⟩

theorem Moves.upd_recorder_nvm (s : State) (v0 : RecorderHw) (v1 : NvmHw) : Moves [.recorder, .nvm] s { s with recorder := v0, nvm := v1 } :=
  ⟨fun x hx => by cases x <;> first | exact decide_eq_true rfl | exact absurd (by decide) hx, id⟩

theorem Moves.upd_recs_recorder (s : State) (v0 : RecHw) (v1 : RecorderHw) : Moves [.recs, .recorder] s { s with recs := v0, recorder := v1 } :=
  ⟨fun x hx => by cases x <;> first | exact decide_eq_true rfl | exact absurd (by decide) hx, id⟩

theorem Moves.upd_tb_cts_tbcs_tgs_time (s : State) (v0 : Nat) (v1 : Vector CtHw 32) (v2 : Vector TbcHw 32) (v3 : Vector TgHw 8) (v4 : TimeHw) : Moves [.tb, .cts, .tbcs, .tgs, .time] s { s with tb := v0, cts := v1, tbcs := v2, tgs := v3, time := v4 } :=
  ⟨fun x hx => by cases x <;> first | exact decide_eq_true rfl | exact absurd (by decide) hx, id⟩

/-- A core is replaced by one whose memories are in canonical form where the old one's are. -/
theorem Moves.upd_core (s : State) (c : CoreId) (v : CoreHw) (h : (s.core c).memoriesOk = true → v.memoriesOk = true) :
    Moves [.cores] s (s.setCore c v) := by
  refine ⟨fun x hx => by cases x <;> first | exact decide_eq_true rfl | exact absurd (by decide) hx, fun k => ?_⟩
  simp only [State.canonical, Bool.and_eq_true, List.all_eq_true] at k ⊢
  refine ⟨k.1, fun i hi => ?_⟩
  have := k.2 i hi
  by_cases e : i = c
  · subst e; simpa [State.core, State.setCore, tget, tset] using h (k.2 _ (List.mem_finRange _))
  · have e' : ¬ c.val = i.val := fun z => e (Fin.ext z.symm)
    simpa [State.core, State.setCore, tget, tset, Vector.getElem_set, e'] using this

end Sys2Proof.Machine
end

