-- ==== Sys2Proof/Laws/Cores.lean ====
section
/-! SUPPORT. The memories of a core: what writes them, and that every operation on a core keeps them in canonical form. -/

namespace Sys2Proof.Machine

/-- A fold of octets over a memory keeps it in canonical form. -/
theorem memPuts_wf {α : Type} (f : α → Nat) (g : α → Nat) (l : List α) (m : SMap Nat) (h : SMap.wf zeroCell m = true) :
    SMap.wf zeroCell (l.foldl (fun m x => memPut m (f x) (g x)) m) = true := by
  induction l generalizing m with
  | nil => exact h
  | cons x l ih => exact ih _ (memPut_wf _ _ _ h)

theorem CoreHw.mem_of_eq {h g : CoreHw} (hi : g.imem = h.imem) (hd : g.dmem = h.dmem) (k : h.memoriesOk = true) : g.memoriesOk = true := by
  simpa [CoreHw.memoriesOk, hi, hd] using k

theorem CoreHw.stopped_mem (h : CoreHw) (k : h.memoriesOk = true) : h.stopped.memoriesOk = true := by
  unfold CoreHw.memoriesOk at *
  rw [Bool.and_eq_true] at *
  exact ⟨rfl, k.2⟩

theorem imemOf_wf (a : Nat) (l : List Nat) : SMap.wf zeroCell (imemOf a l) = true := memPuts_wf _ _ _ _ rfl

theorem CoreHw.released_mem (h : CoreHw) (a : Nat) (l : List Nat) (pc : Nat) : (h.released (imemOf a l) pc).memoriesOk = true := by
  simp [CoreHw.memoriesOk, CoreHw.released, imemOf_wf]
  rfl

@[simp] theorem CoreHw.store_imem (h : CoreHw) (b : Bool) (n a v : Nat) : (h.store b n a v).imem = h.imem := by
  unfold CoreHw.store; (repeat' split) <;> rfl

@[simp] theorem CoreHw.store_dmem (h : CoreHw) (b : Bool) (n a v : Nat) : (h.store b n a v).dmem = h.dmem := by
  unfold CoreHw.store; (repeat' split) <;> rfl

@[simp] theorem CoreHw.update_imem (h : CoreHw) (m v : Nat) : (h.update m v).imem = h.imem := by unfold CoreHw.update; split <;> rfl

@[simp] theorem CoreHw.update_dmem (h : CoreHw) (m v : Nat) : (h.update m v).dmem = h.dmem := by unfold CoreHw.update; split <;> rfl

@[simp] theorem ZGot.pointers_imem (g : ZGot) (h : CoreHw) : (g.pointers h).imem = h.imem := by
  unfold ZGot.pointers
  generalize g.acc.ptr = l
  induction l generalizing h with
  | nil => rfl
  | cons x l ih => exact (ih _).trans (CoreHw.store_imem ..)

@[simp] theorem ZGot.pointers_dmem (g : ZGot) (h : CoreHw) : (g.pointers h).dmem = h.dmem := by
  unfold ZGot.pointers
  generalize g.acc.ptr = l
  induction l generalizing h with
  | nil => rfl
  | cons x l ih => exact (ih _).trans (CoreHw.store_dmem ..)

@[simp] theorem ZGot.commit_imem (g : ZGot) (h : CoreHw) (m v : Nat) : (g.commit h m v).imem = h.imem := by
  unfold ZGot.commit; split <;> simp

@[simp] theorem ZGot.commit_dmem (g : ZGot) (h : CoreHw) (m v : Nat) : (g.commit h m v).dmem = h.dmem := by
  unfold ZGot.commit; split <;> simp

@[simp] theorem CoreHw.leaveSlots_imem (h : CoreHw) (n : Nat) : (h.leaveSlots n).imem = h.imem := by
  unfold CoreHw.leaveSlots; split <;> simp

@[simp] theorem CoreHw.leaveSlots_dmem (h : CoreHw) (n : Nat) : (h.leaveSlots n).dmem = h.dmem := by
  unfold CoreHw.leaveSlots; split <;> simp

@[simp] theorem CoreHw.advance_imem (h : CoreHw) (n : Nat) (x : ZNext) : (h.advance n x).imem = h.imem := by
  unfold CoreHw.advance; cases x <;> dsimp only <;> split <;> simp

@[simp] theorem CoreHw.advance_dmem (h : CoreHw) (n : Nat) (x : ZNext) : (h.advance n x).dmem = h.dmem := by
  unfold CoreHw.advance; cases x <;> dsimp only <;> split <;> simp

@[simp] theorem CoreHw.loadCount_imem (h : CoreHw) : h.loadCount.imem = h.imem := by
  unfold CoreHw.loadCount; (repeat' split) <;> rfl

@[simp] theorem CoreHw.loadCount_dmem (h : CoreHw) : h.loadCount.dmem = h.dmem := by
  unfold CoreHw.loadCount; (repeat' split) <;> rfl

theorem CoreHw.landWrite_mem (h : CoreHw) (w : PendWrite) (k : h.memoriesOk = true) : (h.landWrite w).memoriesOk = true := by
  unfold CoreHw.memoriesOk at *
  rw [Bool.and_eq_true] at *
  unfold CoreHw.landWrite
  split
  · exact ⟨memPuts_wf _ _ _ _ k.1, k.2⟩
  · exact ⟨k.1, memPuts_wf _ _ _ _ k.2⟩

theorem CoreHw.landWrites_mem (l : List PendWrite) (h : CoreHw) (k : h.memoriesOk = true) : (l.foldl CoreHw.landWrite h).memoriesOk = true := by
  induction l generalizing h with
  | nil => exact k
  | cons x l ih => exact ih _ (h.landWrite_mem x k)

theorem CoreHw.landed_mem (h : CoreHw) (k : h.memoriesOk = true) : h.landed.memoriesOk = true := CoreHw.landWrites_mem _ h k

theorem CoreHw.flushed_mem (h : CoreHw) (k : h.memoriesOk = true) : h.flushed.memoriesOk = true := CoreHw.landWrites_mem _ h k

theorem CoreHw.poke_mem (h : CoreHw) (a v : Nat) (k : h.memoriesOk = true) : (h.poke a v).memoriesOk = true := h.landWrite_mem _ k

theorem CoreHw.entered_mem (h : CoreHw) (code epc ds detail sp : Nat) (k : h.memoriesOk = true) :
    (h.entered code epc ds detail sp).memoriesOk = true := by
  unfold CoreHw.entered
  refine CoreHw.mem_of_eq rfl rfl (h := match h.kept ds with | some a => _ | none => _) ?_
  split
  · exact CoreHw.poke_mem _ _ _ (CoreHw.poke_mem _ _ _ (CoreHw.poke_mem _ _ _ (CoreHw.poke_mem _ _ _ k)))
  · exact CoreHw.poke_mem _ _ _ (CoreHw.poke_mem _ _ _ k)

theorem CoreHw.returned_mem (h : CoreHw) (k : h.memoriesOk = true) : h.returned.memoriesOk = true := k

/-- One string iteration writes through the pipeline only. -/
theorem strIter_mem (k : StrOp) (c : CoreId) (z : ZIns) (n v : Nat) (rep : Bool) (x y : StrRun) (h : strIter k c z n v rep x = .ok y) :
    y.h.imem = x.h.imem ∧ y.h.dmem = x.h.dmem := by
  unfold strIter at h
  split at h
  · cases h
  · cases h
    unfold strMove strEffect
    cases k <;> simp [readsSrc, usesDst]

theorem strLoop_mem (k : StrOp) (c : CoreId) (z : ZIns) (n v f d : Nat) (x : StrRun) :
    (strLoop k c z n v f d x).x.h.imem = x.h.imem ∧ (strLoop k c z n v f d x).x.h.dmem = x.h.dmem := by
  induction f generalizing d x with
  | zero => exact ⟨rfl, rfl⟩
  | succ f ih =>
    unfold strLoop
    split
    · exact ⟨rfl, rfl⟩
    · rename_i y e
      have := strIter_mem _ _ _ _ _ _ _ _ e
      dsimp only
      split
      · simpa using this
      · refine ⟨(ih _ _).1.trans ?_, (ih _ _).2.trans ?_⟩ <;> simp [this]

@[simp] theorem strStart_core (k : StrOp) (h : CoreHw) : (strStart k h).h = h := by unfold strStart; split <;> rfl

theorem strRun_mem (k : StrOp) (c : CoreId) (z : ZIns) (n v : Nat) (lim : Option Nat) (h : CoreHw) (x : StrRun) :
    (strRun k c z n v lim h x).x.h.imem = x.h.imem ∧ (strRun k c z n v lim h x).x.h.dmem = x.h.dmem := by
  unfold strRun
  split
  · exact strLoop_mem ..
  · split
    · exact ⟨rfl, rfl⟩
    · rename_i y e
      exact strIter_mem _ _ _ _ _ _ _ _ e

end Sys2Proof.Machine
end

