-- ==== Sys2Proof/Laws/MovesPort.lean ====
section
/-! SUPPORT. The parts that each operation on the state can move: the ports: accessors, shared operations, paths, attach and the port engine. -/

namespace Sys2Proof.Machine

theorem State.wr_moves (s : State) (k : Nat) (v : Int) : Moves [.od] s (State.wr s k v) := Moves.upd_od _ _ fun h => odPut_wf _ _ _ h

theorem State.wrB_moves (s : State) (k : Nat) (v : List Nat) : Moves [.blob] s (State.wrB s k v) :=
  Moves.upd_blob _ _ fun h => SMap.wf_put _ _ _ _ h

theorem State.iow_moves (s : State) (b : Nat) (off : Nat) (v : Int) : Moves [.io] s (State.iow s b off v) := by
  unfold State.iow
  with_reducible repeat' first
    | exact Moves.refl _ _
    | decide
    | apply Moves.after (Moves.upd_io _ _ (fun hw => SMap.wf_put _ _ _ _ hw))

theorem State.wP_moves (s : State) (i : Port) (e : Nat) (v : Int) : Moves [.od] s (State.wP s i e v) := by
  unfold State.wP
  with_reducible repeat' first
    | exact Moves.refl _ _
    | decide
    | apply Moves.after (State.wr_moves ..)

theorem State.wR_moves (s : State) (i : Rail) (e : Nat) (v : Int) : Moves [.od] s (State.wR s i e v) := by
  unfold State.wR
  with_reducible repeat' first
    | exact Moves.refl _ _
    | decide
    | apply Moves.after (State.wr_moves ..)

theorem State.wV_moves (s : State) (i : Conv) (e : Nat) (v : Int) : Moves [.od] s (State.wV s i e v) := by
  unfold State.wV
  with_reducible repeat' first
    | exact Moves.refl _ _
    | decide
    | apply Moves.after (State.wr_moves ..)

theorem State.wC_moves (s : State) (i : Cmp) (e : Nat) (v : Int) : Moves [.od] s (State.wC s i e v) := by
  unfold State.wC
  with_reducible repeat' first
    | exact Moves.refl _ _
    | decide
    | apply Moves.after (State.wr_moves ..)

theorem State.wF_moves (s : State) (i : Feed) (e : Nat) (v : Int) : Moves [.od] s (State.wF s i e v) := by
  unfold State.wF
  with_reducible repeat' first
    | exact Moves.refl _ _
    | decide
    | apply Moves.after (State.wr_moves ..)

theorem State.wS_moves (s : State) (i : Slot) (e : Nat) (v : Int) : Moves [.od] s (State.wS s i e v) := by
  unfold State.wS
  with_reducible repeat' first
    | exact Moves.refl _ _
    | decide
    | apply Moves.after (State.wr_moves ..)

theorem State.wM_moves (s : State) (i : Chan) (e : Nat) (v : Int) : Moves [.od] s (State.wM s i e v) := by
  unfold State.wM
  with_reducible repeat' first
    | exact Moves.refl _ _
    | decide
    | apply Moves.after (State.wr_moves ..)

theorem State.wW_moves (s : State) (i : Bus) (e : Nat) (v : Int) : Moves [.od] s (State.wW s i e v) := by
  unfold State.wW
  with_reducible repeat' first
    | exact Moves.refl _ _
    | decide
    | apply Moves.after (State.wr_moves ..)

theorem State.wT_moves (s : State) (i : Ctr) (e : Nat) (v : Int) : Moves [.od] s (State.wT s i e v) := by
  unfold State.wT
  with_reducible repeat' first
    | exact Moves.refl _ _
    | decide
    | apply Moves.after (State.wr_moves ..)

theorem State.wU_moves (s : State) (i : Tbc) (e : Nat) (v : Int) : Moves [.od] s (State.wU s i e v) := by
  unfold State.wU
  with_reducible repeat' first
    | exact Moves.refl _ _
    | decide
    | apply Moves.after (State.wr_moves ..)

theorem State.wX_moves (s : State) (i : Tg) (e : Nat) (v : Int) : Moves [.od] s (State.wX s i e v) := by
  unfold State.wX
  with_reducible repeat' first
    | exact Moves.refl _ _
    | decide
    | apply Moves.after (State.wr_moves ..)

theorem State.setCmp_moves (s : State) (i : Cmp) (x : CmpHw) : Moves [.cmps] s (State.setCmp s i x) := by
  unfold State.setCmp
  with_reducible repeat' first
    | exact Moves.refl _ _
    | decide
    | apply Moves.after (Moves.upd_cmps ..)

theorem State.setPath_moves (s : State) (i : Port) (x : PathHw) : Moves [.paths] s (State.setPath s i x) := by
  unfold State.setPath
  with_reducible repeat' first
    | exact Moves.refl _ _
    | decide
    | apply Moves.after (Moves.upd_paths ..)

theorem State.setFeed_moves (s : State) (i : Feed) (x : FeedHw) : Moves [.feeds] s (State.setFeed s i x) := by
  unfold State.setFeed
  with_reducible repeat' first
    | exact Moves.refl _ _
    | decide
    | apply Moves.after (Moves.upd_feeds ..)

theorem State.setSlot_moves (s : State) (i : Slot) (x : SlotHw) : Moves [.slots] s (State.setSlot s i x) := by
  unfold State.setSlot
  with_reducible repeat' first
    | exact Moves.refl _ _
    | decide
    | apply Moves.after (Moves.upd_slots ..)

theorem State.setLport_moves (s : State) (i : Port) (x : LedgerPort) : Moves [.ledgerPorts] s (State.setLport s i x) := by
  unfold State.setLport
  with_reducible repeat' first
    | exact Moves.refl _ _
    | decide
    | apply Moves.after (Moves.upd_ledgerPorts ..)

theorem State.setPort_moves (s : State) (i : Port) (x : PortHw) : Moves [.ports] s (State.setPort s i x) := by
  unfold State.setPort
  with_reducible repeat' first
    | exact Moves.refl _ _
    | decide
    | apply Moves.after (Moves.upd_ports ..)

theorem State.setConv_moves (s : State) (i : Conv) (x : ConvHw) : Moves [.convs] s (State.setConv s i x) := by
  unfold State.setConv
  with_reducible repeat' first
    | exact Moves.refl _ _
    | decide
    | apply Moves.after (Moves.upd_convs ..)

theorem State.setMet_moves (s : State) (i : Fin 100) (x : MetHw) : Moves [.mets] s (State.setMet s i x) := by
  unfold State.setMet
  with_reducible repeat' first
    | exact Moves.refl _ _
    | decide
    | apply Moves.after (Moves.upd_mets ..)

theorem State.setRail_moves (s : State) (i : Rail) (x : RailHw) : Moves [.rails] s (State.setRail s i x) := by
  unfold State.setRail
  with_reducible repeat' first
    | exact Moves.refl _ _
    | decide
    | apply Moves.after (Moves.upd_rails ..)

theorem State.setTile_moves (s : State) (i : Tile) (x : TileHw) : Moves [.tiles] s (State.setTile s i x) := by
  unfold State.setTile
  with_reducible repeat' first
    | exact Moves.refl _ _
    | decide
    | apply Moves.after (Moves.upd_tiles ..)

theorem State.setCt_moves (s : State) (i : Ctr) (x : CtHw) : Moves [.cts] s (State.setCt s i x) := by
  unfold State.setCt
  with_reducible repeat' first
    | exact Moves.refl _ _
    | decide
    | apply Moves.after (Moves.upd_cts ..)

theorem State.setTbc_moves (s : State) (i : Tbc) (x : TbcHw) : Moves [.tbcs] s (State.setTbc s i x) := by
  unfold State.setTbc
  with_reducible repeat' first
    | exact Moves.refl _ _
    | decide
    | apply Moves.after (Moves.upd_tbcs ..)

theorem State.setCore_moves (s : State) (i : CoreId) (x : CoreHw) (h : (s.core i).memoriesOk = true → x.memoriesOk = true) :
    Moves [.cores] s (State.setCore s i x) := Moves.upd_core _ _ _ h

theorem State.setMbox_moves (s : State) (i : Eng) (x : MboxHw) : Moves [.mboxes] s (State.setMbox s i x) := by
  unfold State.setMbox
  with_reducible repeat' first
    | exact Moves.refl _ _
    | decide
    | apply Moves.after (Moves.upd_mboxes ..)

theorem State.setTw_moves (s : State) (i : Bus) (x : TwHw) : Moves [.tws] s (State.setTw s i x) := by
  unfold State.setTw
  with_reducible repeat' first
    | exact Moves.refl _ _
    | decide
    | apply Moves.after (Moves.upd_tws ..)

theorem State.setSrc_moves (s : State) (i : Requester) (x : SrcHw) : Moves [.srcs] s (State.setSrc s i x) := by
  unfold State.setSrc
  with_reducible repeat' first
    | exact Moves.refl _ _
    | decide
    | apply Moves.after (Moves.upd_srcs ..)

theorem State.setSes_moves (s : State) (i : Transport) (x : SessHw) : Moves [.sess] s (State.setSes s i x) := by
  unfold State.setSes
  with_reducible repeat' first
    | exact Moves.refl _ _
    | decide
    | apply Moves.after (Moves.upd_sess ..)

theorem State.setTg_moves (s : State) (i : Tg) (x : TgHw) : Moves [.tgs] s (State.setTg s i x) := by
  unfold State.setTg
  with_reducible repeat' first
    | exact Moves.refl _ _
    | decide
    | apply Moves.after (Moves.upd_tgs ..)

theorem State.count_moves (s : State) (k : Nat) : Moves [.od] s (State.count s k) := by
  unfold State.count
  with_reducible repeat' first
    | exact Moves.refl _ _
    | decide
    | apply Moves.after (State.wr_moves ..)

theorem State.flag_moves (s : State) (k : Nat) (i : Nat) (b : Bool) : Moves [.od] s (State.flag s k i b) := by
  unfold State.flag
  with_reducible repeat' first
    | exact Moves.refl _ _
    | decide
    | apply Moves.after (State.wr_moves ..)

theorem State.ioFlag_moves (s : State) (b : Nat) (off : Nat) (i : Nat) (v : Bool) : Moves [.io] s (State.ioFlag s b off i v) := by
  unfold State.ioFlag
  with_reducible repeat' first
    | exact Moves.refl _ _
    | decide
    | apply Moves.after (State.iow_moves ..)

theorem State.alert_moves (s : State) (b : Nat) : Moves [.od] s (State.alert s b) := by
  unfold State.alert
  with_reducible repeat' first
    | exact Moves.refl _ _
    | decide
    | apply Moves.after (State.flag_moves ..)

theorem State.alertPort_moves (s : State) (b : Nat) (p : Port) : Moves [.od] s (State.alertPort s b p) := by
  unfold State.alertPort
  with_reducible repeat' first
    | exact Moves.refl _ _
    | decide
    | apply Moves.after (State.flag_moves ..)
    | apply Moves.after (State.alert_moves ..)

theorem State.flushCause_moves (s : State) (c : Nat) : Moves [.recorder] s (State.flushCause s c) := by
  unfold State.flushCause
  extract_lets a1
  try clear_value a1
  repeat' first
    | with_reducible exact Moves.refl _ _
    | decide
    | with_reducible apply Moves.ite
    | split
    | with_reducible apply Moves.after (Moves.upd_recorder ..)

theorem State.flushClass_moves (s : State) (i : Fin 7) : Moves [.recorder] s (State.flushClass s i) := by
  unfold State.flushClass
  extract_lets a1 a2 a3 a4
  try clear_value a1
  try clear_value a2
  try clear_value a3
  have h4 : Moves [.recorder] s a4 := by
    unfold a4
    with_reducible repeat' first
      | exact Moves.refl _ _
      | decide
      | apply Moves.after (Moves.upd_recorder ..)
  try clear_value a4
  with_reducible repeat' first
    | assumption
    | decide
    | apply Moves.ite
    | apply Moves.after (State.flushCause_moves ..)

theorem State.portEvent_moves (s : State) (p : Port) (off : Nat) (base : Nat) : Moves [.io] s (State.portEvent s p off base) := by
  unfold State.portEvent
  with_reducible repeat' first
    | exact Moves.refl _ _
    | decide
    | apply Moves.after (State.ioFlag_moves ..)

theorem State.draw_moves (s : State) : Moves [.fresh] s (State.draw s) := by
  unfold State.draw
  with_reducible repeat' first
    | exact Moves.refl _ _
    | decide
    | apply Moves.after (Moves.upd_fresh ..)

theorem State.reply_moves (s : State) (st : Nat) : Moves [.answer] s (State.reply s st) := by
  unfold State.reply
  with_reducible repeat' first
    | exact Moves.refl _ _
    | decide
    | apply Moves.after (Moves.upd_answer ..)

theorem State.nvPut_moves (s : State) (k : Nat) (v : Int) : Moves [.nv] s (State.nvPut s k v) := by
  unfold State.nvPut
  with_reducible repeat' first
    | exact Moves.refl _ _
    | decide
    | apply Moves.after (Moves.upd_nv ..)

theorem State.applyKey_moves (s : State) (k : Nat) : Moves [.od, .odNew] s (State.applyKey s k) := by
  unfold State.applyKey
  split
  · exact Moves.refl _ _
  · exact Moves.step (by decide) (Moves.mono (by decide) (State.wr_moves ..))
      (Moves.upd_odNew (s.wr k _) _ fun h => SMap.wf_put _ _ _ _ h)

theorem State.applyKeys_moves (s : State) (ks : List Nat) : Moves [.od, .odNew] s (State.applyKeys s ks) := by
  unfold State.applyKeys
  repeat' first
    | with_reducible exact Moves.refl _ _
    | decide
    | with_reducible apply Moves.after (State.applyKey_moves ..)
    | with_reducible apply Moves.foldl
    | intro _ _

theorem settle_moves (s : State) : Moves [.pins] s (settle s) := by
  unfold settle
  with_reducible repeat' first
    | exact Moves.refl _ _
    | decide
    | apply Moves.after (Moves.upd_pins ..)

theorem State.budgetFree_moves (s : State) : Moves [.io] s (State.budgetFree s) := by
  unfold State.budgetFree
  repeat' first
    | with_reducible exact Moves.refl _ _
    | decide
    | with_reducible apply Moves.after (State.portEvent_moves ..)
    | split

theorem State.showLedger_moves (s : State) (p : Port) : Moves [.od] s (State.showLedger s p) := by
  unfold State.showLedger
  with_reducible repeat' first
    | exact Moves.refl _ _
    | decide
    | apply Moves.ite
    | apply Moves.after (State.wP_moves ..)

theorem State.setBooking_moves (s : State) (p : Port) (w : Int) : Moves [.od] s (State.setBooking s p w) := by
  unfold State.setBooking
  repeat' first
    | with_reducible exact Moves.refl _ _
    | ((with_reducible intro _ _); decide +revert)
    | with_reducible apply Moves.after (State.showLedger_moves ..)
    | with_reducible apply Moves.after (State.wP_moves ..)

theorem State.book_moves (s : State) (p : Port) (w : Int) : Moves [.od, .io] s (State.book s p w) := by
  unfold State.book
  extract_lets a1
  have h1 : Moves [.od, .io] s a1 := by
    unfold a1
    repeat' first
      | with_reducible exact Moves.refl _ _
      | with_reducible assumption
      | ((with_reducible intro _ _); decide +revert)
      | with_reducible apply Moves.after (State.setBooking_moves ..)
  try clear_value a1
  repeat' first
    | with_reducible exact Moves.refl _ _
    | with_reducible assumption
    | ((with_reducible intro _ _); decide +revert)
    | with_reducible apply Moves.ite
    | with_reducible apply Moves.after (State.budgetFree_moves ..)

theorem State.leaveWait_moves (s : State) (p : Port) : Moves [.ledger] s (State.leaveWait s p) := by
  unfold State.leaveWait
  extract_lets a1
  try clear_value a1
  with_reducible repeat' first
    | exact Moves.refl _ _
    | decide
    | apply Moves.after (Moves.upd_ledger ..)

theorem State.enterWait_moves (s : State) (p : Port) (w : Int) : Moves [.od, .ledgerPorts, .ledger] s (State.enterWait s p w) := by
  unfold State.enterWait
  extract_lets a1 a2 a3 a4
  try clear_value a1
  have h2 : Moves [.od, .ledgerPorts, .ledger] s a2 := by
    unfold a2
    with_reducible repeat' first
      | exact Moves.refl _ _
      | decide
      | apply Moves.after (State.setLport_moves ..)
  try clear_value a2
  try clear_value a3
  have h4 : Moves [.od, .ledgerPorts, .ledger] s a4 := by
    unfold a4
    with_reducible repeat' first
      | assumption
      | decide
      | apply Moves.after (Moves.upd_ledger ..)
  try clear_value a4
  with_reducible repeat' first
    | assumption
    | decide
    | apply Moves.after (State.showLedger_moves ..)

theorem State.setBudget_moves (s : State) (v : Int) : Moves [.od, .io] s (State.setBudget s v) := by
  unfold State.setBudget
  extract_lets a1 a2
  try clear_value a1
  have h2 : Moves [.od, .io] s a2 := by
    unfold a2
    repeat' first
      | with_reducible exact Moves.refl _ _
      | decide
      | with_reducible apply Moves.after (State.wr_moves ..)
      | with_reducible apply Moves.after (State.ioFlag_moves ..)
      | with_reducible apply Moves.foldl
      | intro _ _
  try clear_value a2
  with_reducible repeat' first
    | exact Moves.refl _ _
    | assumption
    | decide
    | apply Moves.ite
    | apply Moves.after (State.budgetFree_moves ..)

theorem State.refreshBudget_moves (s : State) : Moves [.od, .io, .ledger] s (State.refreshBudget s) := by
  unfold State.refreshBudget
  extract_lets a1 a2
  try clear_value a1
  have h2 : Moves [.od, .io, .ledger] s a2 := by
    unfold a2
    with_reducible repeat' first
      | exact Moves.refl _ _
      | decide
      | apply Moves.ite
      | apply Moves.after (Moves.upd_ledger ..)
  try clear_value a2
  with_reducible repeat' first
    | assumption
    | decide
    | apply Moves.after (State.setBudget_moves ..)

theorem State.setAvail_moves (s : State) (f : Feed) (b : Bool) : Moves [.od, .io, .ledger] s (State.setAvail s f b) := by
  unfold State.setAvail
  with_reducible repeat' first
    | exact Moves.refl _ _
    | decide
    | apply Moves.ite
    | apply Moves.after (State.flag_moves ..)
    | apply Moves.after (State.refreshBudget_moves ..)

theorem State.ledgerFlag_moves (s : State) (i : Nat) (b : Bool) : Moves [.od] s (State.ledgerFlag s i b) := by
  unfold State.ledgerFlag
  with_reducible repeat' first
    | exact Moves.refl _ _
    | decide
    | apply Moves.ite
    | apply Moves.after (State.flag_moves ..)
    | apply Moves.after (State.alert_moves ..)

theorem State.lqAnswer_moves (s : State) (p : Port) (r : Int) : Moves [.io] s (State.lqAnswer s p r) := by
  unfold State.lqAnswer
  with_reducible repeat' first
    | exact Moves.refl _ _
    | decide
    | apply Moves.after (State.iow_moves ..)

theorem State.grant_moves (s : State) (p : Port) (w : Int) (reserve : Bool) : Moves [.od, .io, .ledgerPorts, .ledger] s (State.grant s p w reserve) := by
  unfold State.grant
  extract_lets a1
  try clear_value a1
  with_reducible repeat' first
    | exact Moves.refl _ _
    | decide
    | apply Moves.after (State.setLport_moves ..)
    | apply Moves.after (State.book_moves ..)
    | apply Moves.after (State.leaveWait_moves ..)

theorem State.admitPower_moves (s : State) (p : Port) (w : Int) (reserve : Bool) : Moves [.od, .odNew, .io, .ledgerPorts, .ledger] s (State.admitPower s p w reserve) := by
  unfold State.admitPower
  extract_lets a1 a2 a3
  have h1 : Moves [.od, .odNew, .io, .ledgerPorts, .ledger] s a1 := by
    unfold a1
    with_reducible repeat' first
      | exact Moves.refl _ _
      | decide
      | apply Moves.after (State.iow_moves ..)
      | apply Moves.after (State.applyKeys_moves ..)
  try clear_value a1
  try clear_value a2
  have h3 : Moves [.od, .odNew, .io, .ledgerPorts, .ledger] s a3 := by
    unfold a3
    with_reducible repeat' first
      | assumption
      | decide
      | apply Moves.ite
      | apply Moves.after (State.count_moves ..)
      | apply Moves.after (State.grant_moves ..)
  try clear_value a3
  with_reducible repeat' first
    | assumption
    | decide
    | apply Moves.after (State.lqAnswer_moves ..)

theorem State.pdFault_moves (s : State) (p : Port) (code : Int) : Moves [.od, .recorder] s (State.pdFault s p code) := by
  unfold State.pdFault
  with_reducible repeat' first
    | exact Moves.refl _ _
    | decide
    | apply Moves.after (State.wP_moves ..)
    | apply Moves.after (State.alertPort_moves ..)
    | apply Moves.after (State.flushClass_moves ..)

theorem State.pdCount_moves (s : State) (p : Port) (n : Nat) : Moves [.od] s (State.pdCount s p n) := by
  unfold State.pdCount
  with_reducible repeat' first
    | exact Moves.refl _ _
    | decide
    | apply Moves.after (State.count_moves ..)

theorem State.setWinI_moves (s : State) (p : Port) : Moves [.od] s (State.setWinI s p) := by
  unfold State.setWinI
  with_reducible repeat' first
    | exact Moves.refl _ _
    | decide
    | apply Moves.after (State.wC_moves ..)

theorem State.setOvp_moves (s : State) (p : Port) (vt : Int) : Moves [.od] s (State.setOvp s p vt) := by
  unfold State.setOvp
  with_reducible repeat' first
    | exact Moves.refl _ _
    | decide
    | apply Moves.after (State.wC_moves ..)

theorem State.setPgLow_moves (s : State) (p : Port) (vt : Int) : Moves [.od] s (State.setPgLow s p vt) := by
  unfold State.setPgLow
  with_reducible repeat' first
    | exact Moves.refl _ _
    | decide
    | apply Moves.after (State.wC_moves ..)

theorem State.setWinV_moves (s : State) (p : Port) (vt : Int) : Moves [.od] s (State.setWinV s p vt) := by
  unfold State.setWinV
  with_reducible repeat' first
    | exact Moves.refl _ _
    | decide
    | apply Moves.after (State.setOvp_moves ..)
    | apply Moves.after (State.setPgLow_moves ..)

theorem State.shadowNews_moves (s : State) (n : TileNews) : Moves [.io] s (State.shadowNews s n) := by
  unfold State.shadowNews
  repeat' first
    | with_reducible exact Moves.refl _ _
    | ((with_reducible intro _ _); decide +revert)
    | with_reducible apply Moves.after (State.ioFlag_moves ..)
    | with_reducible apply Moves.after (State.iow_moves ..)
    | split

theorem State.tell_moves (s : State) (p : Port) (n : TileNews) : Moves [.tiles] s (State.tell s p n) := by
  unfold State.tell
  repeat' first
    | with_reducible exact Moves.refl _ _
    | ((with_reducible intro _ _); decide +revert)
    | with_reducible apply Moves.after (State.setTile_moves ..)
    | extract_lets

theorem State.report_moves (s : State) (p : Port) (n : TileNews) : Moves [.io, .tiles] s (State.report s p n) := by
  unfold State.report
  repeat' first
    | with_reducible exact Moves.refl _ _
    | ((with_reducible intro _ _); decide +revert)
    | with_reducible apply Moves.ite
    | with_reducible apply Moves.after (State.shadowNews_moves ..)
    | with_reducible apply Moves.after (State.tell_moves ..)

theorem State.setLatch_moves (s : State) (c : Cmp) (high : Bool) (b : Bool) : Moves [.io, .cmps, .tiles] s (State.setLatch s c high b) := by
  unfold State.setLatch
  extract_lets a1 a2 a3
  try clear_value a1
  try clear_value a2
  have h3 : Moves [.io, .cmps, .tiles] s a3 := by
    unfold a3
    repeat' first
      | with_reducible exact Moves.refl _ _
      | with_reducible assumption
      | ((with_reducible intro _ _); decide +revert)
      | with_reducible apply Moves.ite
      | with_reducible apply Moves.after (State.setCmp_moves ..)
  try clear_value a3
  repeat' first
    | with_reducible exact Moves.refl _ _
    | with_reducible assumption
    | ((with_reducible intro _ _); decide +revert)
    | with_reducible apply Moves.ite
    | with_reducible apply Moves.after (State.report_moves ..)

theorem State.evalCmp_moves (s : State) (c : Cmp) (x : Int) : Moves [.io, .cmps, .tiles] s (State.evalCmp s c x) := by
  unfold State.evalCmp
  extract_lets a1 a2 a3 a4 a5 a6
  try clear_value a1
  try clear_value a2
  try clear_value a3
  try clear_value a4
  try clear_value a5
  have h6 : Moves [.io, .cmps, .tiles] s a6 := by
    unfold a6
    repeat' first
      | with_reducible exact Moves.refl _ _
      | with_reducible assumption
      | ((with_reducible intro _ _); decide +revert)
      | with_reducible apply Moves.after (State.setCmp_moves ..)
  try clear_value a6
  repeat' first
    | with_reducible exact Moves.refl _ _
    | with_reducible assumption
    | ((with_reducible intro _ _); decide +revert)
    | with_reducible apply Moves.after (State.setLatch_moves ..)

theorem State.setMode_moves (s : State) (c : Cmp) (live : Bool) : Moves [.od, .odNew, .cmps] s (State.setMode s c live) := by
  unfold State.setMode
  extract_lets a1 a2 a3
  have h1 : Moves [.od, .odNew, .cmps] s a1 := by
    unfold a1
    with_reducible repeat' first
      | exact Moves.refl _ _
      | decide
      | apply Moves.after (State.applyKeys_moves ..)
  try clear_value a1
  try clear_value a2
  try clear_value a3
  with_reducible repeat' first
    | assumption
    | decide
    | apply Moves.ite
    | apply Moves.after (State.setCmp_moves ..)

theorem State.startCheck_moves (s : State) (c : Cmp) : Moves [.cmps] s (State.startCheck s c) := by
  unfold State.startCheck
  extract_lets a1
  try clear_value a1
  with_reducible repeat' first
    | exact Moves.refl _ _
    | decide
    | apply Moves.after (State.setCmp_moves ..)

theorem State.preCheck_moves (s : State) (p : Port) : Moves [.od, .odNew, .cmps] s (State.preCheck s p) := by
  unfold State.preCheck
  with_reducible repeat' first
    | exact Moves.refl _ _
    | decide
    | apply Moves.after (State.setMode_moves ..)
    | apply Moves.after (State.startCheck_moves ..)

theorem State.tileEvent_moves (s : State) (p : Port) (off : Nat) (base : Nat) : Moves [.io, .tiles] s (State.tileEvent s p off base) := by
  unfold State.tileEvent
  repeat' first
    | with_reducible exact Moves.refl _ _
    | ((with_reducible intro _ _); decide +revert)
    | with_reducible apply Moves.after (State.report_moves ..)

theorem State.setPg_moves (s : State) (p : Port) (b : Bool) : Moves [.od, .io, .tiles] s (State.setPg s p b) := by
  unfold State.setPg
  repeat' first
    | with_reducible exact Moves.refl _ _
    | ((with_reducible intro _ _); decide +revert)
    | with_reducible apply Moves.ite
    | with_reducible apply Moves.after (State.tileEvent_moves ..)
    | with_reducible apply Moves.after (State.wP_moves ..)

theorem State.applyOff_moves (s : State) (p : Port) : Moves [.od, .odNew] s (State.applyOff s p) := by
  unfold State.applyOff
  extract_lets a1 a2
  try clear_value a1
  have h2 : Moves [.od, .odNew] s a2 := by
    unfold a2
    repeat' first
      | with_reducible exact Moves.refl _ _
      | with_reducible assumption
      | ((with_reducible intro _ _); decide +revert)
      | with_reducible apply Moves.after (State.applyKeys_moves ..)
  try clear_value a2
  repeat' first
    | with_reducible exact Moves.refl _ _
    | with_reducible assumption
    | ((with_reducible intro _ _); decide +revert)
    | with_reducible apply Moves.ite
    | with_reducible apply Moves.after (State.setWinI_moves ..)

theorem State.setPp_moves (s : State) (p : Port) (st : Int) : Moves [.od, .odNew] s (State.setPp s p st) := by
  unfold State.setPp
  extract_lets a1
  have h1 : Moves [.od, .odNew] s a1 := by
    unfold a1
    repeat' first
      | with_reducible exact Moves.refl _ _
      | with_reducible assumption
      | ((with_reducible intro _ _); decide +revert)
      | with_reducible apply Moves.after (State.wP_moves ..)
  try clear_value a1
  repeat' first
    | with_reducible exact Moves.refl _ _
    | with_reducible assumption
    | ((with_reducible intro _ _); decide +revert)
    | with_reducible apply Moves.ite
    | with_reducible apply Moves.after (State.applyOff_moves ..)

theorem State.idleCmps_moves (s : State) (p : Port) : Moves [.od, .odNew, .cmps] s (State.idleCmps s p) := by
  unfold State.idleCmps
  repeat' first
    | with_reducible exact Moves.refl _ _
    | ((with_reducible intro _ _); decide +revert)
    | with_reducible apply Moves.ite
    | with_reducible apply Moves.after (State.setMode_moves ..)

theorem State.gateOff_moves (s : State) (p : Port) (st : Int) : Moves [.od, .odNew, .io, .cmps, .paths, .tiles] s (State.gateOff s p st) := by
  unfold State.gateOff
  extract_lets a1 a2 a3 a4
  try clear_value a1
  try clear_value a2
  have h3 : Moves [.od, .odNew, .io, .cmps, .paths, .tiles] s a3 := by
    unfold a3
    repeat' first
      | with_reducible exact Moves.refl _ _
      | with_reducible assumption
      | ((with_reducible intro _ _); decide +revert)
      | with_reducible apply Moves.ite
      | with_reducible apply Moves.after (State.setPath_moves ..)
  try clear_value a3
  have h4 : Moves [.od, .odNew, .io, .cmps, .paths, .tiles] s a4 := by
    unfold a4
    repeat' first
      | with_reducible exact Moves.refl _ _
      | with_reducible assumption
      | ((with_reducible intro _ _); decide +revert)
      | with_reducible apply Moves.ite
      | with_reducible apply Moves.after (State.idleCmps_moves ..)
  try clear_value a4
  repeat' first
    | with_reducible exact Moves.refl _ _
    | with_reducible assumption
    | ((with_reducible intro _ _); decide +revert)
    | with_reducible apply Moves.after (State.setPg_moves ..)
    | with_reducible apply Moves.after (State.setPp_moves ..)

theorem State.recordFault_moves (s : State) (p : Port) (code : Nat) : Moves [.od, .io, .tiles, .recorder] s (State.recordFault s p code) := by
  unfold State.recordFault
  repeat' first
    | with_reducible exact Moves.refl _ _
    | ((with_reducible intro _ _); decide +revert)
    | with_reducible apply Moves.after (State.alertPort_moves ..)
    | with_reducible apply Moves.after (State.count_moves ..)
    | with_reducible apply Moves.after (State.flag_moves ..)
    | with_reducible apply Moves.after (State.flushClass_moves ..)
    | with_reducible apply Moves.after (State.report_moves ..)
    | with_reducible apply Moves.after (State.tileEvent_moves ..)
    | with_reducible apply Moves.after (State.wP_moves ..)

theorem State.putTarget_moves (s : State) (p : Port) (v : Int) (i : Int) : Moves [.od, .io] s (State.putTarget s p v i) := by
  unfold State.putTarget
  repeat' first
    | with_reducible exact Moves.refl _ _
    | ((with_reducible intro _ _); decide +revert)
    | with_reducible apply Moves.after (State.iow_moves ..)
    | with_reducible apply Moves.after (State.setWinI_moves ..)

theorem State.implicitTarget_moves (s : State) (p : Port) : Moves [.od, .io] s (State.implicitTarget s p) := by
  unfold State.implicitTarget
  repeat' first
    | with_reducible exact Moves.refl _ _
    | ((with_reducible intro _ _); decide +revert)
    | with_reducible apply Moves.after (State.putTarget_moves ..)

theorem State.clearContract_moves (s : State) (p : Port) : Moves [.od, .io] s (State.clearContract s p) := by
  unfold State.clearContract
  with_reducible repeat' first
    | exact Moves.refl _ _
    | decide
    | apply Moves.after (State.wP_moves ..)
    | apply Moves.after (State.implicitTarget_moves ..)

theorem State.vconnOff_moves (s : State) (p : Port) : Moves [.od] s (State.vconnOff s p) := by
  unfold State.vconnOff
  with_reducible repeat' first
    | exact Moves.refl _ _
    | decide
    | apply Moves.after (State.wP_moves ..)

theorem State.clearLatches_moves (s : State) (p : Port) : Moves [.cmps] s (State.clearLatches s p) := by
  unfold State.clearLatches
  with_reducible repeat' first
    | exact Moves.refl _ _
    | decide
    | apply Moves.after (State.setCmp_moves ..)

theorem State.setCtrl_moves (s : State) (p : Port) (i : Nat) (b : Bool) : Moves [.io] s (State.setCtrl s p i b) := by
  unfold State.setCtrl
  with_reducible repeat' first
    | exact Moves.refl _ _
    | decide
    | apply Moves.after (State.ioFlag_moves ..)

theorem State.endPpsLimit_moves (s : State) (p : Port) : Moves [.od, .ports] s (State.endPpsLimit s p) := by
  unfold State.endPpsLimit
  repeat' first
    | with_reducible exact Moves.refl _ _
    | ((with_reducible intro _ _); decide +revert)
    | with_reducible apply Moves.ite
    | with_reducible apply Moves.after (State.setPgLow_moves ..)
    | with_reducible apply Moves.after (State.setPort_moves ..)
    | extract_lets

theorem State.frsEnded_moves (s : State) (p : Port) : Moves [.od, .odNew, .cmps, .paths] s (State.frsEnded s p) := by
  unfold State.frsEnded
  extract_lets a1
  have h1 : Moves [.od, .odNew, .cmps, .paths] s a1 := by
    unfold a1
    repeat' first
      | with_reducible exact Moves.refl _ _
      | with_reducible assumption
      | ((with_reducible intro _ _); decide +revert)
      | with_reducible apply Moves.after (State.setPath_moves ..)
  try clear_value a1
  repeat' first
    | with_reducible exact Moves.refl _ _
    | with_reducible assumption
    | ((with_reducible intro _ _); decide +revert)
    | with_reducible apply Moves.ite
    | with_reducible apply Moves.after (State.idleCmps_moves ..)

theorem State.dropPort_moves (s : State) (p : Port) (st : Int) : Moves [.od, .odNew, .io, .cmps, .paths, .ledger, .ports] s (State.dropPort s p st) := by
  unfold State.dropPort
  try dsimp only
  repeat' first
    | with_reducible exact Moves.refl _ _
    | with_reducible assumption
    | ((with_reducible intro _ _); decide +revert)
    | with_reducible apply Moves.after (State.book_moves ..)
    | with_reducible apply Moves.after (State.clearContract_moves ..)
    | with_reducible apply Moves.after (State.endPpsLimit_moves ..)
    | with_reducible apply Moves.after (State.frsEnded_moves ..)
    | with_reducible apply Moves.after (State.iow_moves ..)
    | with_reducible apply Moves.after (State.leaveWait_moves ..)
    | with_reducible apply Moves.after (State.setPath_moves ..)
    | with_reducible apply Moves.after (State.setPort_moves ..)
    | with_reducible apply Moves.after (State.vconnOff_moves ..)
    | with_reducible apply Moves.after (State.wP_moves ..)

theorem State.errorRecovery_moves (s : State) (p : Port) : Moves [.od, .odNew, .io, .cmps, .paths, .ledger, .ports, .recorder] s (State.errorRecovery s p) := by
  unfold State.errorRecovery
  repeat' first
    | with_reducible exact Moves.refl _ _
    | ((with_reducible intro _ _); decide +revert)
    | with_reducible apply Moves.after (State.clearLatches_moves ..)
    | with_reducible apply Moves.after (State.dropPort_moves ..)
    | with_reducible apply Moves.after (State.pdFault_moves ..)

theorem State.lockOut_moves (s : State) (p : Port) : Moves [.od, .odNew, .io, .cmps, .paths, .ledger, .tiles, .ports, .recorder] s (State.lockOut s p) := by
  unfold State.lockOut
  dsimp only
  with_reducible repeat' first
    | exact Moves.refl _ _
    | assumption
    | decide
    | apply Moves.after (State.errorRecovery_moves ..)
    | apply Moves.after (State.recordFault_moves ..)
    | apply Moves.after (State.setPath_moves ..)
    | apply Moves.after (State.setPp_moves ..)

theorem State.send_moves (s : State) (p : Port) (m : TxMsg) : Moves [.ports] s (State.send s p m) := by
  unfold State.send
  repeat' first
    | with_reducible exact Moves.refl _ _
    | ((with_reducible intro _ _); decide +revert)
    | with_reducible apply Moves.ite
    | with_reducible apply Moves.after (State.setPort_moves ..)
    | extract_lets

theorem State.startAms_moves (s : State) (p : Port) (m : TxMsg) : Moves [.ports] s (State.startAms s p m) := by
  unfold State.startAms
  extract_lets a1
  try clear_value a1
  with_reducible repeat' first
    | exact Moves.refl _ _
    | decide
    | apply Moves.ite
    | apply Moves.after (State.setPort_moves ..)
    | apply Moves.after (State.send_moves ..)

theorem State.sendAlert_moves (s : State) (p : Port) (t : Int) : Moves [.ports] s (State.sendAlert s p t) := by
  unfold State.sendAlert
  repeat' first
    | with_reducible exact Moves.refl _ _
    | ((with_reducible intro _ _); decide +revert)
    | with_reducible apply Moves.ite
    | with_reducible apply Moves.after (State.startAms_moves ..)

theorem State.faultAlert_moves (s : State) (p : Port) (code : Nat) : Moves [.ports] s (State.faultAlert s p code) := by
  unfold State.faultAlert
  repeat' first
    | with_reducible exact Moves.refl _ _
    | ((with_reducible intro _ _); decide +revert)
    | with_reducible apply Moves.ite
    | with_reducible apply Moves.after (State.sendAlert_moves ..)

theorem State.faultActs_moves (s : State) (p : Port) (was : PathHw) (left : Int) (retry : Bool) (ot : Bool) : Moves [.od, .odNew, .io, .cmps, .paths, .ledger, .tiles, .ports, .recorder] s (State.faultActs s p was left retry ot) := by
  unfold State.faultActs
  repeat' first
    | with_reducible exact Moves.refl _ _
    | ((with_reducible intro _ _); decide +revert)
    | with_reducible apply Moves.ite
    | with_reducible apply Moves.after (State.gateOff_moves ..)
    | with_reducible apply Moves.after (State.lockOut_moves ..)
    | with_reducible apply Moves.after (State.setPath_moves ..)
    | extract_lets

theorem State.pathFault_moves (s : State) (p : Port) (code : Nat) : Moves [.od, .odNew, .io, .cmps, .paths, .ledger, .tiles, .ports, .recorder] s (State.pathFault s p code) := by
  unfold State.pathFault
  repeat' first
    | with_reducible exact Moves.refl _ _
    | ((with_reducible intro _ _); decide +revert)
    | with_reducible apply Moves.after (State.faultActs_moves ..)
    | with_reducible apply Moves.after (State.faultAlert_moves ..)
    | with_reducible apply Moves.after (State.recordFault_moves ..)

theorem State.safeOff_moves (s : State) (p : Port) (cause : Int) : Moves [.od, .odNew, .io, .cmps, .paths, .ledger, .tiles, .ports, .recorder] s (State.safeOff s p cause) := by
  unfold State.safeOff
  repeat' first
    | with_reducible exact Moves.refl _ _
    | ((with_reducible intro _ _); decide +revert)
    | with_reducible apply Moves.ite
    | with_reducible apply Moves.after (State.dropPort_moves ..)
    | with_reducible apply Moves.after (State.flag_moves ..)
    | with_reducible apply Moves.after (State.flushClass_moves ..)
    | with_reducible apply Moves.after (State.gateOff_moves ..)
    | with_reducible apply Moves.after (State.recordFault_moves ..)
    | with_reducible apply Moves.after (State.setPath_moves ..)
    | with_reducible apply Moves.after (State.setPort_moves ..)
    | with_reducible apply Moves.after (State.setPp_moves ..)
    | with_reducible apply Moves.after (State.wr_moves ..)
    | extract_lets

theorem State.deadBattery_moves (s : State) (p : Port) : Moves [.ports] s (State.deadBattery s p) := by
  unfold State.deadBattery
  repeat' first
    | with_reducible exact Moves.refl _ _
    | ((with_reducible intro _ _); decide +revert)
    | with_reducible apply Moves.after (State.setPort_moves ..)
    | extract_lets

theorem State.holdCc_moves (s : State) (p : Port) : Moves [.ports] s (State.holdCc s p) := by
  unfold State.holdCc
  repeat' first
    | with_reducible exact Moves.refl _ _
    | ((with_reducible intro _ _); decide +revert)
    | with_reducible apply Moves.ite
    | with_reducible apply Moves.after (State.deadBattery_moves ..)

theorem State.leaveSafe_moves (s : State) (p : Port) : Moves [.od, .odNew, .paths, .ports] s (State.leaveSafe s p) := by
  unfold State.leaveSafe
  try dsimp only
  repeat' first
    | with_reducible exact Moves.refl _ _
    | with_reducible assumption
    | ((with_reducible intro _ _); decide +revert)
    | with_reducible apply Moves.after (State.flag_moves ..)
    | with_reducible apply Moves.after (State.holdCc_moves ..)
    | with_reducible apply Moves.after (State.setPath_moves ..)
    | with_reducible apply Moves.after (State.setPort_moves ..)
    | with_reducible apply Moves.after (State.setPp_moves ..)
    | with_reducible apply Moves.after (State.wP_moves ..)
    | with_reducible apply Moves.after (State.wr_moves ..)

theorem State.sendTrips_moves (s : State) (p : Port) (l : List DpCause) : Moves [.paths] s (State.sendTrips s p l) := by
  unfold State.sendTrips
  extract_lets a1 a2
  try clear_value a1
  try clear_value a2
  repeat' first
    | with_reducible exact Moves.refl _ _
    | with_reducible assumption
    | ((with_reducible intro _ _); decide +revert)
    | with_reducible apply Moves.ite
    | with_reducible apply Moves.after (State.setPath_moves ..)

theorem State.sendTrip_moves (s : State) (p : Port) (c : DpCause) : Moves [.paths] s (State.sendTrip s p c) := by
  unfold State.sendTrip
  repeat' first
    | with_reducible exact Moves.refl _ _
    | ((with_reducible intro _ _); decide +revert)
    | with_reducible apply Moves.after (State.sendTrips_moves ..)

theorem State.sendKind_moves (s : State) (p : Port) (k : PdKind) (objs : List Int) (re : Option PdKind) : Moves [.ports] s (State.sendKind s p k objs re) := by
  unfold State.sendKind
  with_reducible repeat' first
    | exact Moves.refl _ _
    | decide
    | apply Moves.after (State.send_moves ..)

theorem State.coldStart_moves (s : State) (p : Port) : Moves [.od, .io, .paths, .tiles, .recorder] s (State.coldStart s p) := by
  unfold State.coldStart
  repeat' first
    | with_reducible exact Moves.refl _ _
    | ((with_reducible intro _ _); decide +revert)
    | with_reducible apply Moves.ite
    | with_reducible apply Moves.after (State.flag_moves ..)
    | with_reducible apply Moves.after (State.recordFault_moves ..)
    | with_reducible apply Moves.after (State.setPath_moves ..)
    | with_reducible apply Moves.after (State.wP_moves ..)
    | extract_lets

theorem State.startRamp_moves (s : State) (p : Port) (d : Dir) (vt : Int) : Moves [.od, .odNew, .io, .cmps, .paths, .tiles, .mets, .recorder] s (State.startRamp s p d vt) := by
  unfold State.startRamp
  extract_lets a1
  have h1 : Moves [.od, .odNew, .io, .cmps, .paths, .tiles, .mets, .recorder] s a1 := by
    unfold a1
    repeat' first
      | with_reducible exact Moves.refl _ _
      | with_reducible assumption
      | ((with_reducible intro _ _); decide +revert)
      | with_reducible apply Moves.after (State.coldStart_moves ..)
  try clear_value a1
  repeat' first
    | with_reducible exact Moves.refl _ _
    | with_reducible assumption
    | ((with_reducible intro _ _); decide +revert)
    | with_reducible apply Moves.ite
    | with_reducible apply Moves.after (State.flag_moves ..)
    | with_reducible apply Moves.after (State.preCheck_moves ..)
    | with_reducible apply Moves.after (State.setMet_moves ..)
    | with_reducible apply Moves.after (State.setPath_moves ..)
    | with_reducible apply Moves.after (State.setPp_moves ..)
    | with_reducible apply Moves.after (State.setWinI_moves ..)
    | with_reducible apply Moves.after (State.setWinV_moves ..)
    | split
    | extract_lets

theorem State.sourceOn_moves (s : State) (p : Port) : Moves [.od, .odNew, .io, .cmps, .paths, .tiles, .mets, .recorder] s (State.sourceOn s p) := by
  unfold State.sourceOn
  repeat' first
    | with_reducible exact Moves.refl _ _
    | ((with_reducible intro _ _); decide +revert)
    | with_reducible apply Moves.ite
    | with_reducible apply Moves.after (State.startRamp_moves ..)

theorem State.sinkOn_moves (s : State) (p : Port) : Moves [.od, .odNew, .io, .cmps, .paths, .tiles, .mets, .recorder] s (State.sinkOn s p) := by
  unfold State.sinkOn
  repeat' first
    | with_reducible exact Moves.refl _ _
    | ((with_reducible intro _ _); decide +revert)
    | with_reducible apply Moves.ite
    | with_reducible apply Moves.after (State.startRamp_moves ..)

theorem State.dischargeEnd_moves (s : State) (p : Port) : Moves [.od, .odNew, .paths] s (State.dischargeEnd s p) := by
  unfold State.dischargeEnd
  dsimp only
  with_reducible repeat' first
    | exact Moves.refl _ _
    | assumption
    | decide
    | apply Moves.ite
    | apply Moves.after (State.setPath_moves ..)
    | apply Moves.after (State.setPgLow_moves ..)
    | apply Moves.after (State.setPp_moves ..)

theorem State.toStanding_moves (s : State) (p : Port) : Moves [.od] s (State.toStanding s p) := by
  unfold State.toStanding
  with_reducible repeat' first
    | exact Moves.refl _ _
    | decide
    | apply Moves.after (State.wP_moves ..)

theorem State.vconnOn_moves (s : State) (p : Port) : Moves [.od] s (State.vconnOn s p) := by
  unfold State.vconnOn
  with_reducible repeat' first
    | exact Moves.refl _ _
    | decide
    | apply Moves.ite
    | apply Moves.after (State.wP_moves ..)

theorem State.cableDefault_moves (s : State) (p : Port) (st : Int) : Moves [.od] s (State.cableDefault s p st) := by
  unfold State.cableDefault
  with_reducible repeat' first
    | exact Moves.refl _ _
    | decide
    | apply Moves.after (State.wP_moves ..)

theorem State.sendCaps_moves (s : State) (p : Port) (ams : Bool) : Moves [.od, .odNew, .ports] s (State.sendCaps s p ams) := by
  unfold State.sendCaps
  extract_lets a1 a2 a3 a4 a5 a6
  have h1 : Moves [.od, .odNew, .ports] s a1 := by
    unfold a1
    with_reducible repeat' first
      | exact Moves.refl _ _
      | decide
      | apply Moves.after (State.applyKeys_moves ..)
  try clear_value a1
  try clear_value a2
  try clear_value a3
  try clear_value a4
  have h5 : Moves [.od, .odNew, .ports] s a5 := by
    unfold a5
    with_reducible repeat' first
      | assumption
      | decide
      | apply Moves.after (State.setPort_moves ..)
  try clear_value a5
  try clear_value a6
  with_reducible repeat' first
    | assumption
    | decide
    | apply Moves.ite
    | apply Moves.after (State.send_moves ..)
    | apply Moves.after (State.startAms_moves ..)

theorem State.readvertise_moves (s : State) (p : Port) : Moves [.od, .odNew, .ports] s (State.readvertise s p) := by
  unfold State.readvertise
  repeat' first
    | with_reducible exact Moves.refl _ _
    | ((with_reducible intro _ _); decide +revert)
    | with_reducible apply Moves.ite
    | with_reducible apply Moves.after (State.sendCaps_moves ..)

theorem State.notSupported_moves (s : State) (p : Port) : Moves [.ports] s (State.notSupported s p) := by
  unfold State.notSupported
  repeat' first
    | with_reducible exact Moves.refl _ _
    | ((with_reducible intro _ _); decide +revert)
    | with_reducible apply Moves.ite
    | with_reducible apply Moves.after (State.sendKind_moves ..)

theorem State.reject_moves (s : State) (p : Port) (re : Option PdKind) : Moves [.od, .ports] s (State.reject s p re) := by
  unfold State.reject
  repeat' first
    | with_reducible exact Moves.refl _ _
    | ((with_reducible intro _ _); decide +revert)
    | with_reducible apply Moves.after (State.pdCount_moves ..)
    | with_reducible apply Moves.after (State.sendKind_moves ..)

theorem State.frsWithdraw_moves (s : State) (p : Port) : Moves [.od, .odNew, .io, .cmps, .paths] s (State.frsWithdraw s p) := by
  unfold State.frsWithdraw
  repeat' first
    | with_reducible exact Moves.refl _ _
    | ((with_reducible intro _ _); decide +revert)
    | with_reducible apply Moves.after (State.frsEnded_moves ..)
    | with_reducible apply Moves.after (State.setCtrl_moves ..)

theorem State.authOutcome_moves (s : State) (p : Port) (st : Int) : Moves [.od, .ports, .recorder] s (State.authOutcome s p st) := by
  unfold State.authOutcome
  try dsimp only
  repeat' first
    | with_reducible exact Moves.refl _ _
    | with_reducible assumption
    | ((with_reducible intro _ _); decide +revert)
    | with_reducible apply Moves.ite
    | with_reducible apply Moves.after (State.pdCount_moves ..)
    | with_reducible apply Moves.after (State.pdFault_moves ..)
    | with_reducible apply Moves.after (State.setPort_moves ..)
    | with_reducible apply Moves.after (State.wP_moves ..)

theorem State.authBroken_moves (s : State) (p : Port) : Moves [.od, .ports, .recorder] s (State.authBroken s p) := by
  unfold State.authBroken
  repeat' first
    | with_reducible exact Moves.refl _ _
    | ((with_reducible intro _ _); decide +revert)
    | with_reducible apply Moves.ite
    | with_reducible apply Moves.after (State.authOutcome_moves ..)

theorem State.hardClear_moves (s : State) (p : Port) (st : HardReset) : Moves [.od, .odNew, .io, .cmps, .paths, .ledger, .ports, .recorder] s (State.hardClear s p st) := by
  unfold State.hardClear
  try dsimp only
  repeat' first
    | with_reducible exact Moves.refl _ _
    | with_reducible assumption
    | ((with_reducible intro _ _); decide +revert)
    | with_reducible apply Moves.after (State.authBroken_moves ..)
    | with_reducible apply Moves.after (State.book_moves ..)
    | with_reducible apply Moves.after (State.clearContract_moves ..)
    | with_reducible apply Moves.after (State.endPpsLimit_moves ..)
    | with_reducible apply Moves.after (State.frsWithdraw_moves ..)
    | with_reducible apply Moves.after (State.leaveWait_moves ..)
    | with_reducible apply Moves.after (State.setPath_moves ..)
    | with_reducible apply Moves.after (State.setPort_moves ..)
    | with_reducible apply Moves.after (State.wP_moves ..)

theorem State.hardReset_moves (s : State) (p : Port) (fault : Int) : Moves [.od, .odNew, .io, .cmps, .paths, .ledger, .ports, .recorder] s (State.hardReset s p fault) := by
  unfold State.hardReset
  repeat' first
    | with_reducible exact Moves.refl _ _
    | ((with_reducible intro _ _); decide +revert)
    | with_reducible apply Moves.after (State.hardClear_moves ..)
    | with_reducible apply Moves.after (State.pdCount_moves ..)
    | with_reducible apply Moves.after (State.pdFault_moves ..)

theorem State.softClear_moves (s : State) (p : Port) : Moves [.od, .io, .ports, .recorder] s (State.softClear s p) := by
  unfold State.softClear
  extract_lets a1 a2 a3
  have h1 : Moves [.od, .io, .ports, .recorder] s a1 := by
    unfold a1
    repeat' first
      | with_reducible exact Moves.refl _ _
      | with_reducible assumption
      | ((with_reducible intro _ _); decide +revert)
      | with_reducible apply Moves.after (State.authBroken_moves ..)
  try clear_value a1
  have h2 : Moves [.od, .io, .ports, .recorder] s a2 := by
    unfold a2
    repeat' first
      | with_reducible exact Moves.refl _ _
      | with_reducible assumption
      | ((with_reducible intro _ _); decide +revert)
      | with_reducible apply Moves.ite
      | with_reducible apply Moves.after (State.book_moves ..)
  try clear_value a2
  try clear_value a3
  repeat' first
    | with_reducible exact Moves.refl _ _
    | with_reducible assumption
    | ((with_reducible intro _ _); decide +revert)
    | with_reducible apply Moves.after (State.setPort_moves ..)
    | with_reducible apply Moves.after (State.toStanding_moves ..)
    | extract_lets

theorem State.softReset_moves (s : State) (p : Port) : Moves [.od, .io, .paths, .ledger, .ports, .recorder] s (State.softReset s p) := by
  unfold State.softReset
  with_reducible repeat' first
    | exact Moves.refl _ _
    | decide
    | apply Moves.after (State.pdFault_moves ..)
    | apply Moves.after (State.pdCount_moves ..)
    | apply Moves.after (State.sendKind_moves ..)
    | apply Moves.after (State.softClear_moves ..)

theorem State.unexpected_moves (s : State) (p : Port) : Moves [.od, .odNew, .io, .cmps, .paths, .ledger, .ports, .recorder] s (State.unexpected s p) := by
  unfold State.unexpected
  repeat' first
    | with_reducible exact Moves.refl _ _
    | ((with_reducible intro _ _); decide +revert)
    | with_reducible apply Moves.ite
    | with_reducible apply Moves.after (State.hardReset_moves ..)
    | with_reducible apply Moves.after (State.softReset_moves ..)

theorem State.becomeSink_moves (s : State) (p : Port) : Moves [.od, .io, .ports] s (State.becomeSink s p) := by
  unfold State.becomeSink
  extract_lets a1 a2
  try clear_value a1
  have h2 : Moves [.od, .io, .ports] s a2 := by
    unfold a2
    with_reducible repeat' first
      | exact Moves.refl _ _
      | decide
      | apply Moves.after (State.setPort_moves ..)
  try clear_value a2
  with_reducible repeat' first
    | assumption
    | decide
    | apply Moves.after (State.wP_moves ..)
    | apply Moves.after (State.setCtrl_moves ..)

theorem State.becomeSource_moves (s : State) (p : Port) : Moves [.od, .io, .ports] s (State.becomeSource s p) := by
  unfold State.becomeSource
  extract_lets a1 a2
  try clear_value a1
  have h2 : Moves [.od, .io, .ports] s a2 := by
    unfold a2
    with_reducible repeat' first
      | exact Moves.refl _ _
      | decide
      | apply Moves.after (State.setPort_moves ..)
  try clear_value a2
  with_reducible repeat' first
    | assumption
    | decide
    | apply Moves.after (State.wP_moves ..)
    | apply Moves.after (State.setCtrl_moves ..)

theorem State.swapAccepted_moves (s : State) (p : Port) (k : SwapKind) : Moves [.od, .odNew, .io, .cmps, .paths, .ledger, .tiles, .ports, .recorder] s (State.swapAccepted s p k) := by
  unfold State.swapAccepted
  repeat' first
    | with_reducible exact Moves.refl _ _
    | ((with_reducible intro _ _); decide +revert)
    | with_reducible apply Moves.ite
    | with_reducible apply Moves.after (State.book_moves ..)
    | with_reducible apply Moves.after (State.clearContract_moves ..)
    | with_reducible apply Moves.after (State.endPpsLimit_moves ..)
    | with_reducible apply Moves.after (State.gateOff_moves ..)
    | with_reducible apply Moves.after (State.hardReset_moves ..)
    | with_reducible apply Moves.after (State.setCtrl_moves ..)
    | with_reducible apply Moves.after (State.setPort_moves ..)
    | with_reducible apply Moves.after (State.vconnOn_moves ..)
    | with_reducible apply Moves.after (State.wP_moves ..)
    | split
    | extract_lets

theorem State.authRequest_moves (s : State) (p : Port) (step : Nat) : Moves [.ports] s (State.authRequest s p step) := by
  unfold State.authRequest
  repeat' first
    | with_reducible exact Moves.refl _ _
    | ((with_reducible intro _ _); decide +revert)
    | with_reducible apply Moves.after (State.setPort_moves ..)
    | with_reducible apply Moves.after (State.startAms_moves ..)
    | extract_lets

theorem State.authEnd_moves (s : State) (p : Port) (st : Int) : Moves [.od, .odNew, .ports, .recorder] s (State.authEnd s p st) := by
  unfold State.authEnd
  try dsimp only
  repeat' first
    | with_reducible exact Moves.refl _ _
    | with_reducible assumption
    | ((with_reducible intro _ _); decide +revert)
    | with_reducible apply Moves.after (State.authOutcome_moves ..)
    | with_reducible apply Moves.after (State.readvertise_moves ..)

theorem State.authStart_moves (s : State) (p : Port) : Moves [.od, .odNew, .ports, .recorder] s (State.authStart s p) := by
  unfold State.authStart
  try dsimp only
  repeat' first
    | with_reducible exact Moves.refl _ _
    | with_reducible assumption
    | ((with_reducible intro _ _); decide +revert)
    | with_reducible apply Moves.ite
    | with_reducible apply Moves.after (State.authEnd_moves ..)
    | with_reducible apply Moves.after (State.authRequest_moves ..)
    | with_reducible apply Moves.after (State.wP_moves ..)

theorem State.makeContract_moves (s : State) (p : Port) (w : Wanted) : Moves [.od, .ports] s (State.makeContract s p w) := by
  unfold State.makeContract
  extract_lets a1 a2 a3
  have h1 : Moves [.od, .ports] s a1 := by
    unfold a1
    repeat' first
      | with_reducible exact Moves.refl _ _
      | with_reducible assumption
      | ((with_reducible intro _ _); decide +revert)
      | with_reducible apply Moves.ite
      | with_reducible apply Moves.after (State.wP_moves ..)
  try clear_value a1
  have h2 : Moves [.od, .ports] s a2 := by
    unfold a2
    repeat' first
      | with_reducible exact Moves.refl _ _
      | with_reducible assumption
      | ((with_reducible intro _ _); decide +revert)
      | with_reducible apply Moves.after (State.flag_moves ..)
  try clear_value a2
  have h3 : Moves [.od, .ports] s a3 := by
    unfold a3
    repeat' first
      | with_reducible exact Moves.refl _ _
      | with_reducible assumption
      | ((with_reducible intro _ _); decide +revert)
      | with_reducible apply Moves.after (State.endPpsLimit_moves ..)
  try clear_value a3
  repeat' first
    | with_reducible exact Moves.refl _ _
    | with_reducible assumption
    | ((with_reducible intro _ _); decide +revert)
    | with_reducible apply Moves.after (State.setPort_moves ..)
    | extract_lets

theorem State.shedAdvertise_moves (s : State) (p : Port) : Moves [.od, .odNew, .io, .paths, .ledger, .ports, .recorder] s (State.shedAdvertise s p) := by
  unfold State.shedAdvertise
  with_reducible repeat' first
    | exact Moves.refl _ _
    | decide
    | apply Moves.ite
    | apply Moves.after (State.startAms_moves ..)
    | apply Moves.after (State.readvertise_moves ..)

theorem State.leaveEpr_moves (s : State) (p : Port) : Moves [.ports] s (State.leaveEpr s p) := by
  unfold State.leaveEpr
  extract_lets a1
  try clear_value a1
  with_reducible repeat' first
    | exact Moves.refl _ _
    | decide
    | apply Moves.after (State.setPort_moves ..)

theorem State.toUnattached_moves (s : State) (p : Port) : Moves [.od, .ports] s (State.toUnattached s p) := by
  unfold State.toUnattached
  repeat' first
    | with_reducible exact Moves.refl _ _
    | ((with_reducible intro _ _); decide +revert)
    | with_reducible apply Moves.ite
    | with_reducible apply Moves.after (State.holdCc_moves ..)
    | with_reducible apply Moves.after (State.setPort_moves ..)
    | with_reducible apply Moves.after (State.wP_moves ..)
    | extract_lets

theorem State.freshAttach_moves (s : State) (p : Port) : Moves [.od, .ports] s (State.freshAttach s p) := by
  unfold State.freshAttach
  repeat' first
    | with_reducible exact Moves.refl _ _
    | ((with_reducible intro _ _); decide +revert)
    | with_reducible apply Moves.after (State.cableDefault_moves ..)
    | with_reducible apply Moves.after (State.pdCount_moves ..)
    | with_reducible apply Moves.after (State.setPort_moves ..)
    | with_reducible apply Moves.after (State.wP_moves ..)
    | extract_lets

theorem State.attachSrc_moves (s : State) (p : Port) : Moves [.od, .odNew, .io, .cmps, .paths, .tiles, .ports, .mets, .recorder] s (State.attachSrc s p) := by
  unfold State.attachSrc
  extract_lets a1 a2 a3 a4 a5
  try clear_value a1
  try clear_value a2
  have h3 : Moves [.od, .odNew, .io, .cmps, .paths, .tiles, .ports, .mets, .recorder] s a3 := by
    unfold a3
    with_reducible repeat' first
      | exact Moves.refl _ _
      | decide
      | apply Moves.after (State.setPort_moves ..)
      | apply Moves.after (State.freshAttach_moves ..)
  try clear_value a3
  have h4 : Moves [.od, .odNew, .io, .cmps, .paths, .tiles, .ports, .mets, .recorder] s a4 := by
    unfold a4
    with_reducible repeat' first
      | assumption
      | decide
      | apply Moves.after (State.wP_moves ..)
  try clear_value a4
  have h5 : Moves [.od, .odNew, .io, .cmps, .paths, .tiles, .ports, .mets, .recorder] s a5 := by
    unfold a5
    with_reducible repeat' first
      | assumption
      | decide
      | apply Moves.ite
      | apply Moves.after (State.vconnOn_moves ..)
  try clear_value a5
  with_reducible repeat' first
    | assumption
    | decide
    | apply Moves.after (State.implicitTarget_moves ..)
    | apply Moves.after (State.setCtrl_moves ..)
    | apply Moves.after (State.sourceOn_moves ..)

theorem State.attachSnk_moves (s : State) (p : Port) : Moves [.od, .odNew, .io, .cmps, .paths, .tiles, .ports, .mets, .recorder] s (State.attachSnk s p) := by
  unfold State.attachSnk
  extract_lets a1 a2 a3 a4
  try clear_value a1
  try clear_value a2
  have h3 : Moves [.od, .odNew, .io, .cmps, .paths, .tiles, .ports, .mets, .recorder] s a3 := by
    unfold a3
    with_reducible repeat' first
      | exact Moves.refl _ _
      | decide
      | apply Moves.after (State.setPort_moves ..)
      | apply Moves.after (State.freshAttach_moves ..)
  try clear_value a3
  have h4 : Moves [.od, .odNew, .io, .cmps, .paths, .tiles, .ports, .mets, .recorder] s a4 := by
    unfold a4
    with_reducible repeat' first
      | assumption
      | decide
      | apply Moves.after (State.wP_moves ..)
  try clear_value a4
  with_reducible repeat' first
    | assumption
    | decide
    | apply Moves.after (State.wP_moves ..)
    | apply Moves.after (State.implicitTarget_moves ..)
    | apply Moves.after (State.setCtrl_moves ..)
    | apply Moves.after (State.sinkOn_moves ..)

theorem State.portReset_moves (s : State) (p : Port) : Moves [.od, .odNew, .io, .cmps, .paths, .ledger, .tiles, .ports, .recorder] s (State.portReset s p) := by
  unfold State.portReset
  repeat' first
    | with_reducible exact Moves.refl _ _
    | ((with_reducible intro _ _); decide +revert)
    | with_reducible apply Moves.ite
    | with_reducible apply Moves.after (State.errorRecovery_moves ..)
    | with_reducible apply Moves.after (State.gateOff_moves ..)
    | with_reducible apply Moves.after (State.setPath_moves ..)
    | extract_lets

theorem State.requestSource_moves (s : State) (p : Port) : Moves [.od, .odNew, .io, .cmps, .paths, .tiles, .mets, .recorder] s (State.requestSource s p) := by
  unfold State.requestSource
  repeat' first
    | with_reducible exact Moves.refl _ _
    | ((with_reducible intro _ _); decide +revert)
    | with_reducible apply Moves.ite
    | with_reducible apply Moves.after (State.setCtrl_moves ..)
    | with_reducible apply Moves.after (State.sourceOn_moves ..)

theorem State.toTile_moves (s : State) (p : Port) (r : TileReq) : Moves [.tiles] s (State.toTile s p r) := by
  unfold State.toTile
  repeat' first
    | with_reducible exact Moves.refl _ _
    | ((with_reducible intro _ _); decide +revert)
    | with_reducible apply Moves.after (State.setTile_moves ..)
    | extract_lets

theorem State.writeBit_moves {xs : List Part} {s : State} {p : Port} {i : Nat} {f : State → State} (hx : ∀ y ∈ [Part.tiles], y ∈ xs)
    (h : Moves xs s (f s)) : Moves xs s (State.writeBit s p i f) := by
  unfold State.writeBit
  exact Moves.ite (Moves.mono hx (State.toTile_moves ..)) h

theorem execPpCtrlEn_moves (r0 : State) (p : Port) (s : State) : Moves [.od, .odNew, .io, .cmps, .paths, .tiles, .pins, .mets, .recorder] s (stateOf r0 (execPpCtrlEn p s)) :=
  Moves.after (settle_moves _) (by decide) (State.writeBit_moves (by decide) (Moves.mono (by decide) (State.requestSource_moves ..)))

theorem State.requestSink_moves (s : State) (p : Port) : Moves [.od, .odNew, .io, .cmps, .paths, .tiles, .mets, .recorder] s (State.requestSink s p) := by
  unfold State.requestSink
  repeat' first
    | with_reducible exact Moves.refl _ _
    | ((with_reducible intro _ _); decide +revert)
    | with_reducible apply Moves.ite
    | with_reducible apply Moves.after (State.setCtrl_moves ..)
    | with_reducible apply Moves.after (State.sinkOn_moves ..)

theorem execPpCtrlSink_moves (r0 : State) (p : Port) (s : State) : Moves [.od, .odNew, .io, .cmps, .paths, .tiles, .pins, .mets, .recorder] s (stateOf r0 (execPpCtrlSink p s)) :=
  Moves.after (settle_moves _) (by decide) (State.writeBit_moves (by decide) (Moves.mono (by decide) (State.requestSink_moves ..)))

theorem State.takeArm_moves (s : State) (p : Port) : Moves [.od, .io, .paths] s (State.takeArm s p) := by
  unfold State.takeArm
  extract_lets a1 a2 a3 a4
  try clear_value a1
  have h2 : Moves [.od, .io, .paths] s a2 := by
    unfold a2
    with_reducible repeat' first
      | exact Moves.refl _ _
      | decide
      | apply Moves.after (State.setCtrl_moves ..)
  try clear_value a2
  have h3 : Moves [.od, .io, .paths] s a3 := by
    unfold a3
    with_reducible repeat' first
      | assumption
      | decide
      | apply Moves.after (State.flag_moves ..)
  try clear_value a3
  try clear_value a4
  repeat' first
    | with_reducible assumption
    | decide
    | with_reducible apply Moves.ite
    | with_reducible apply Moves.after (State.setPath_moves ..)
    | with_reducible apply Moves.after (State.flag_moves ..)
    | split

theorem execPpArm_moves (r0 : State) (p : Port) (s : State) : Moves [.od, .io, .paths, .tiles, .pins] s (stateOf r0 (execPpArm p s)) :=
  Moves.after (settle_moves _) (by decide) (State.writeBit_moves (by decide) (Moves.mono (by decide) (State.takeArm_moves ..)))

theorem State.frsCheck_moves (s : State) (p : Port) : Moves [.od, .odNew, .cmps, .paths] s (State.frsCheck s p) := by
  unfold State.frsCheck
  dsimp only
  with_reducible repeat' first
    | exact Moves.refl _ _
    | assumption
    | decide
    | apply Moves.ite
    | apply Moves.after (State.preCheck_moves ..)
    | apply Moves.after (State.setPath_moves ..)
    | apply Moves.after (State.startCheck_moves ..)

theorem State.requestFrs_moves (s : State) (p : Port) : Moves [.od, .odNew, .io, .cmps, .paths] s (State.requestFrs s p) := by
  unfold State.requestFrs
  repeat' first
    | with_reducible exact Moves.refl _ _
    | ((with_reducible intro _ _); decide +revert)
    | with_reducible apply Moves.ite
    | with_reducible apply Moves.after (State.frsCheck_moves ..)
    | with_reducible apply Moves.after (State.setCtrl_moves ..)
    | extract_lets

theorem execPpFrsArm_moves (r0 : State) (p : Port) (s : State) : Moves [.od, .odNew, .io, .cmps, .paths, .tiles, .pins] s (stateOf r0 (execPpFrsArm p s)) :=
  Moves.after (settle_moves _) (by decide) (State.writeBit_moves (by decide) (Moves.mono (by decide) (State.requestFrs_moves ..)))

theorem State.judgeWarn_moves (s : State) (p : Port) : Moves [.od, .ports] s (State.judgeWarn s p) := by
  unfold State.judgeWarn
  extract_lets a1 a2 a3
  try clear_value a1
  try clear_value a2
  have h3 : Moves [.od, .ports] s a3 := by
    unfold a3
    repeat' first
      | with_reducible exact Moves.refl _ _
      | with_reducible assumption
      | ((with_reducible intro _ _); decide +revert)
      | with_reducible apply Moves.after (State.flag_moves ..)
  try clear_value a3
  repeat' first
    | with_reducible exact Moves.refl _ _
    | with_reducible assumption
    | ((with_reducible intro _ _); decide +revert)
    | with_reducible apply Moves.ite
    | with_reducible apply Moves.after (State.sendAlert_moves ..)

theorem State.fallResult_moves (s : State) (p : Port) (x : Int) : Moves [.od, .paths] s (State.fallResult s p x) := by
  unfold State.fallResult
  extract_lets a1 a2
  try clear_value a1
  try clear_value a2
  repeat' first
    | with_reducible exact Moves.refl _ _
    | with_reducible assumption
    | ((with_reducible intro _ _); decide +revert)
    | with_reducible apply Moves.ite
    | with_reducible apply Moves.after (State.setOvp_moves ..)
    | with_reducible apply Moves.after (State.setPath_moves ..)
    | extract_lets

theorem State.vbusResult_moves (s : State) (p : Port) (x : Int) : Moves [.od, .odNew, .io, .cmps, .paths, .tiles, .mets, .recorder] s (State.vbusResult s p x) := by
  unfold State.vbusResult
  extract_lets a1 a2 a3 a4
  try clear_value a1
  have h2 : Moves [.od, .odNew, .io, .cmps, .paths, .tiles, .mets, .recorder] s a2 := by
    unfold a2
    repeat' first
      | with_reducible exact Moves.refl _ _
      | with_reducible assumption
      | ((with_reducible intro _ _); decide +revert)
      | with_reducible apply Moves.after (State.setPath_moves ..)
  try clear_value a2
  have h3 : Moves [.od, .odNew, .io, .cmps, .paths, .tiles, .mets, .recorder] s a3 := by
    unfold a3
    repeat' first
      | with_reducible exact Moves.refl _ _
      | with_reducible assumption
      | ((with_reducible intro _ _); decide +revert)
      | with_reducible apply Moves.ite
      | with_reducible apply Moves.after (State.dischargeEnd_moves ..)
  try clear_value a3
  have h4 : Moves [.od, .odNew, .io, .cmps, .paths, .tiles, .mets, .recorder] s a4 := by
    unfold a4
    repeat' first
      | with_reducible exact Moves.refl _ _
      | with_reducible assumption
      | ((with_reducible intro _ _); decide +revert)
      | with_reducible apply Moves.after (State.fallResult_moves ..)
  try clear_value a4
  repeat' first
    | with_reducible exact Moves.refl _ _
    | with_reducible assumption
    | ((with_reducible intro _ _); decide +revert)
    | with_reducible apply Moves.ite
    | with_reducible apply Moves.after (State.sinkOn_moves ..)

theorem State.ppsServo_moves (s : State) (p : Port) (x : Int) : Moves [.od, .fresh, .paths, .ports] s (State.ppsServo s p x) := by
  unfold State.ppsServo
  extract_lets a1 a2 a3 a4 a5 a6
  try clear_value a1
  try clear_value a2
  have h3 : Moves [.od, .fresh, .paths, .ports] s a3 := by
    unfold a3
    with_reducible repeat' first
      | exact Moves.refl _ _
      | decide
      | apply Moves.after (State.setPath_moves ..)
      | apply Moves.after (State.draw_moves ..)
  try clear_value a3
  try clear_value a4
  have h5 : Moves [.od, .fresh, .paths, .ports] s a5 := by
    unfold a5
    with_reducible repeat' first
      | exact Moves.refl _ _
      | decide
      | apply Moves.after (State.setPath_moves ..)
  try clear_value a5
  try clear_value a6
  with_reducible repeat' first
    | exact Moves.refl _ _
    | assumption
    | decide
    | apply Moves.ite
    | apply Moves.after (State.setPort_moves ..)
    | apply Moves.after (State.setPgLow_moves ..)

theorem State.pathCmd_moves {xs : List Part} {s : State} {p : Port} {c : Nat} {f : State → State} (hx : ∀ y ∈ [Part.tiles], y ∈ xs)
    (h : Moves xs s (f s)) : Moves xs s (State.pathCmd s p c f) := by
  unfold State.pathCmd
  exact Moves.ite (Moves.mono hx (State.toTile_moves ..)) h

theorem State.leaveRecovery_moves (s : State) (p : Port) : Moves [.od, .ports] s (State.leaveRecovery s p) := by
  unfold State.leaveRecovery
  repeat' first
    | with_reducible exact Moves.refl _ _
    | ((with_reducible intro _ _); decide +revert)
    | with_reducible apply Moves.ite
    | with_reducible apply Moves.after (State.setPort_moves ..)
    | with_reducible apply Moves.after (State.toUnattached_moves ..)
    | with_reducible apply Moves.after (State.wP_moves ..)
    | extract_lets

theorem State.clearLockout_moves (s : State) (p : Port) : Moves [.od, .odNew, .paths, .ports] s (State.clearLockout s p) := by
  unfold State.clearLockout
  repeat' first
    | with_reducible exact Moves.refl _ _
    | ((with_reducible intro _ _); decide +revert)
    | with_reducible apply Moves.ite
    | with_reducible apply Moves.after (State.leaveRecovery_moves ..)
    | with_reducible apply Moves.after (State.setPath_moves ..)
    | with_reducible apply Moves.after (State.setPp_moves ..)
    | with_reducible apply Moves.after (State.wP_moves ..)
    | extract_lets

theorem execPpCmdClearLockout_moves (r0 : State) (p : Port) (s : State) : Moves [.od, .odNew, .paths, .tiles, .ports, .pins] s (stateOf r0 (execPpCmdClearLockout p s)) :=
  Moves.after (settle_moves _) (by decide) (State.pathCmd_moves (by decide) (Moves.mono (by decide) (State.clearLockout_moves ..)))

theorem execPpCmdClearFaultSet_moves (r0 : State) (p : Port) (s : State) : Moves [.od, .pins] s (stateOf r0 (execPpCmdClearFaultSet p s)) := by
  unfold execPpCmdClearFaultSet
  refine Moves.after (settle_moves _) (by decide) ?_
  with_reducible repeat' first
    | exact Moves.refl _ _
    | decide
    | apply Moves.after (State.wP_moves ..)

theorem State.forceOff_moves (s : State) (p : Port) : Moves [.od, .odNew, .io, .cmps, .paths, .tiles] s (State.forceOff s p) := by
  unfold State.forceOff
  extract_lets a1 a2
  try clear_value a1
  have h2 : Moves [.od, .odNew, .io, .cmps, .paths, .tiles] s a2 := by
    unfold a2
    repeat' first
      | with_reducible exact Moves.refl _ _
      | with_reducible assumption
      | ((with_reducible intro _ _); decide +revert)
      | with_reducible apply Moves.ite
      | with_reducible apply Moves.after (State.gateOff_moves ..)
  try clear_value a2
  repeat' first
    | with_reducible exact Moves.refl _ _
    | with_reducible assumption
    | ((with_reducible intro _ _); decide +revert)
    | with_reducible apply Moves.after (State.setPath_moves ..)
    | extract_lets

theorem execPpCmdForceOff_moves (r0 : State) (p : Port) (s : State) : Moves [.od, .odNew, .io, .cmps, .paths, .tiles, .pins] s (stateOf r0 (execPpCmdForceOff p s)) :=
  Moves.after (settle_moves _) (by decide) (State.pathCmd_moves (by decide) (Moves.mono (by decide) (State.forceOff_moves ..)))

theorem State.releaseForce_moves (s : State) (p : Port) : Moves [.od, .odNew, .io, .cmps, .paths, .tiles, .mets, .recorder] s (State.releaseForce s p) := by
  unfold State.releaseForce
  extract_lets a1
  try clear_value a1
  repeat' first
    | with_reducible exact Moves.refl _ _
    | with_reducible assumption
    | ((with_reducible intro _ _); decide +revert)
    | with_reducible apply Moves.ite
    | with_reducible apply Moves.after (State.setPath_moves ..)
    | with_reducible apply Moves.after (State.setPp_moves ..)
    | with_reducible apply Moves.after (State.sinkOn_moves ..)
    | with_reducible apply Moves.after (State.sourceOn_moves ..)
    | extract_lets

theorem execPpCmdReleaseForceOff_moves (r0 : State) (p : Port) (s : State) : Moves [.od, .odNew, .io, .cmps, .paths, .tiles, .pins, .mets, .recorder] s (stateOf r0 (execPpCmdReleaseForceOff p s)) :=
  Moves.after (settle_moves _) (by decide) (State.pathCmd_moves (by decide) (Moves.mono (by decide) (State.releaseForce_moves ..)))

theorem State.cancelSwap_moves (s : State) (p : Port) : Moves [.ports] s (State.cancelSwap s p) := by
  unfold State.cancelSwap
  extract_lets a1 a2
  try clear_value a1
  try clear_value a2
  with_reducible repeat' first
    | exact Moves.refl _ _
    | decide
    | apply Moves.ite
    | apply Moves.after (State.setPort_moves ..)

theorem State.rxRequest_moves (s : State) (p : Port) (epr : Bool) (pos : Nat) (v : Int) (i : Int) (pdo : Int) : Moves [.od, .odNew, .io, .cmps, .paths, .ledgerPorts, .ledger, .ports, .recorder] s (State.rxRequest s p epr pos v i pdo) := by
  unfold State.rxRequest
  repeat' first
    | with_reducible exact Moves.refl _ _
    | ((with_reducible intro _ _); decide +revert)
    | with_reducible apply Moves.ite
    | with_reducible apply Moves.after (State.admitPower_moves ..)
    | with_reducible apply Moves.after (State.enterWait_moves ..)
    | with_reducible apply Moves.after (State.pdCount_moves ..)
    | with_reducible apply Moves.after (State.pdFault_moves ..)
    | with_reducible apply Moves.after (State.reject_moves ..)
    | with_reducible apply Moves.after (State.sendKind_moves ..)
    | with_reducible apply Moves.after (State.setPort_moves ..)
    | with_reducible apply Moves.after (State.softReset_moves ..)
    | with_reducible apply Moves.after (State.toStanding_moves ..)
    | with_reducible apply Moves.after (State.unexpected_moves ..)
    | with_reducible apply Moves.after (State.wP_moves ..)
    | extract_lets

theorem State.rxEprEnter_moves (s : State) (p : Port) (pdp : Int) : Moves [.od, .odNew, .io, .ledgerPorts, .ledger, .ports] s (State.rxEprEnter s p pdp) := by
  unfold State.rxEprEnter
  try dsimp only
  repeat' first
    | with_reducible exact Moves.refl _ _
    | with_reducible assumption
    | ((with_reducible intro _ _); decide +revert)
    | with_reducible apply Moves.ite
    | with_reducible apply Moves.after (State.admitPower_moves ..)
    | with_reducible apply Moves.after (State.flag_moves ..)
    | with_reducible apply Moves.after (State.sendKind_moves ..)
    | with_reducible apply Moves.after (State.setPort_moves ..)

theorem State.eprOutcome_moves (s : State) (p : Port) (ok : Bool) : Moves [.od, .io, .paths, .ledger, .ports, .recorder] s (State.eprOutcome s p ok) := by
  unfold State.eprOutcome
  extract_lets a1 a2
  try clear_value a1
  have h2 : Moves [.od, .io, .paths, .ledger, .ports, .recorder] s a2 := by
    unfold a2
    with_reducible repeat' first
      | exact Moves.refl _ _
      | decide
      | apply Moves.after (State.setPort_moves ..)
  try clear_value a2
  with_reducible repeat' first
    | assumption
    | decide
    | apply Moves.ite
    | apply Moves.after (State.book_moves ..)
    | apply Moves.after (State.sendKind_moves ..)

theorem State.rxEprExit_moves (s : State) (p : Port) : Moves [.od, .odNew, .io, .cmps, .paths, .ledger, .ports, .recorder] s (State.rxEprExit s p) := by
  unfold State.rxEprExit
  repeat' first
    | with_reducible exact Moves.refl _ _
    | ((with_reducible intro _ _); decide +revert)
    | with_reducible apply Moves.ite
    | with_reducible apply Moves.after (State.leaveEpr_moves ..)
    | with_reducible apply Moves.after (State.sendCaps_moves ..)
    | with_reducible apply Moves.after (State.unexpected_moves ..)

theorem State.rxSwap_moves (s : State) (p : Port) (k : SwapKind) : Moves [.od, .ports] s (State.rxSwap s p k) := by
  unfold State.rxSwap
  try dsimp only
  repeat' first
    | with_reducible exact Moves.refl _ _
    | with_reducible assumption
    | ((with_reducible intro _ _); decide +revert)
    | with_reducible apply Moves.ite
    | with_reducible apply Moves.after (State.pdCount_moves ..)
    | with_reducible apply Moves.after (State.reject_moves ..)
    | with_reducible apply Moves.after (State.sendKind_moves ..)
    | with_reducible apply Moves.after (State.setPort_moves ..)
    | with_reducible apply Moves.after (State.startAms_moves ..)

theorem State.rxSoftReset_moves (s : State) (p : Port) : Moves [.od, .io, .paths, .ledger, .ports, .recorder] s (State.rxSoftReset s p) := by
  unfold State.rxSoftReset
  extract_lets a1 a2 a3
  have h1 : Moves [.od, .io, .paths, .ledger, .ports, .recorder] s a1 := by
    unfold a1
    with_reducible repeat' first
      | exact Moves.refl _ _
      | decide
      | apply Moves.after (State.softClear_moves ..)
  try clear_value a1
  try clear_value a2
  have h3 : Moves [.od, .io, .paths, .ledger, .ports, .recorder] s a3 := by
    unfold a3
    with_reducible repeat' first
      | assumption
      | decide
      | apply Moves.after (State.setPort_moves ..)
  try clear_value a3
  with_reducible repeat' first
    | assumption
    | decide
    | apply Moves.after (State.pdFault_moves ..)
    | apply Moves.after (State.pdCount_moves ..)
    | apply Moves.after (State.sendKind_moves ..)

theorem State.capsNow_moves (s : State) (p : Port) : Moves [.od, .odNew, .ports] s (State.capsNow s p) := by
  unfold State.capsNow
  repeat' first
    | with_reducible exact Moves.refl _ _
    | ((with_reducible intro _ _); decide +revert)
    | with_reducible apply Moves.ite
    | with_reducible apply Moves.after (State.sendCaps_moves ..)

theorem State.softDone_moves (s : State) (p : Port) : Moves [.od, .odNew, .ports] s (State.softDone s p) := by
  unfold State.softDone
  repeat' first
    | with_reducible exact Moves.refl _ _
    | ((with_reducible intro _ _); decide +revert)
    | with_reducible apply Moves.ite
    | with_reducible apply Moves.after (State.capsNow_moves ..)

theorem State.rxIdentity_moves (s : State) (p : Port) : Moves [.od, .io, .paths, .ledger, .ports, .recorder] s (State.rxIdentity s p) := by
  unfold State.rxIdentity
  extract_lets a1
  try clear_value a1
  with_reducible repeat' first
    | exact Moves.refl _ _
    | decide
    | apply Moves.ite
    | apply Moves.after (State.sendKind_moves ..)

theorem State.rxAbsent_moves (s : State) (p : Port) (a : Absent) : Moves [.od, .io, .paths, .ledger, .ports, .recorder] s (State.rxAbsent s p a) := by
  unfold State.rxAbsent
  repeat' first
    | with_reducible exact Moves.refl _ _
    | decide
    | with_reducible apply Moves.after (State.sendKind_moves ..)
    | with_reducible apply Moves.after (State.notSupported_moves ..)
    | split

theorem State.rxSinkCaps_moves (s : State) (p : Port) (frs : Int) : Moves [.od, .odNew, .io, .cmps, .paths, .ledgerPorts, .ledger, .ports] s (State.rxSinkCaps s p frs) := by
  unfold State.rxSinkCaps
  extract_lets a1
  have h1 : Moves [.od, .odNew, .io, .cmps, .paths, .ledgerPorts, .ledger, .ports] s a1 := by
    unfold a1
    repeat' first
      | with_reducible exact Moves.refl _ _
      | with_reducible assumption
      | ((with_reducible intro _ _); decide +revert)
      | with_reducible apply Moves.after (State.flag_moves ..)
  try clear_value a1
  repeat' first
    | with_reducible exact Moves.refl _ _
    | with_reducible assumption
    | ((with_reducible intro _ _); decide +revert)
    | with_reducible apply Moves.ite
    | with_reducible apply Moves.after (State.admitPower_moves ..)
    | with_reducible apply Moves.after (State.requestFrs_moves ..)
    | with_reducible apply Moves.after (State.setPort_moves ..)
    | extract_lets

theorem State.rxSecurity_moves (s : State) (p : Port) (last : Bool) : Moves [.od, .odNew, .io, .cmps, .paths, .ledger, .ports, .recorder] s (State.rxSecurity s p last) := by
  unfold State.rxSecurity
  extract_lets a1
  try clear_value a1
  repeat' first
    | with_reducible exact Moves.refl _ _
    | with_reducible assumption
    | ((with_reducible intro _ _); decide +revert)
    | with_reducible apply Moves.ite
    | with_reducible apply Moves.after (State.authRequest_moves ..)
    | with_reducible apply Moves.after (State.setPort_moves ..)
    | with_reducible apply Moves.after (State.unexpected_moves ..)
    | extract_lets

theorem State.rxSourceCaps_moves (s : State) (p : Port) (pdos : List Nat) : Moves [.od, .odNew, .io, .cmps, .paths, .ledger, .ports, .recorder] s (State.rxSourceCaps s p pdos) := by
  unfold State.rxSourceCaps
  repeat' first
    | with_reducible exact Moves.refl _ _
    | ((with_reducible intro _ _); decide +revert)
    | with_reducible apply Moves.ite
    | with_reducible apply Moves.after (State.flag_moves ..)
    | with_reducible apply Moves.after (State.sendKind_moves ..)
    | with_reducible apply Moves.after (State.setPort_moves ..)
    | with_reducible apply Moves.after (State.unexpected_moves ..)
    | extract_lets

theorem State.sinkMoves_moves (s : State) (p : Port) (w : Wanted) : Moves [.od, .io] s (State.sinkMoves s p w) := by
  unfold State.sinkMoves
  extract_lets a1
  have h1 : Moves [.od, .io] s a1 := by
    unfold a1
    repeat' first
      | with_reducible exact Moves.refl _ _
      | with_reducible assumption
      | ((with_reducible intro _ _); decide +revert)
      | with_reducible apply Moves.after (State.putTarget_moves ..)
  try clear_value a1
  repeat' first
    | with_reducible exact Moves.refl _ _
    | with_reducible assumption
    | ((with_reducible intro _ _); decide +revert)
    | with_reducible apply Moves.ite
    | with_reducible apply Moves.after (State.setOvp_moves ..)
    | with_reducible apply Moves.after (State.setPgLow_moves ..)

theorem State.sinkMoved_moves (s : State) (p : Port) (w : Wanted) : Moves [.od, .paths] s (State.sinkMoved s p w) := by
  unfold State.sinkMoved
  extract_lets a1
  try clear_value a1
  with_reducible repeat' first
    | exact Moves.refl _ _
    | decide
    | apply Moves.ite
    | apply Moves.after (State.setPath_moves ..)
    | apply Moves.after (State.setWinV_moves ..)

theorem State.rxAccept_moves (s : State) (p : Port) : Moves [.od, .odNew, .io, .cmps, .paths, .ledger, .tiles, .ports, .recorder] s (State.rxAccept s p) := by
  unfold State.rxAccept
  repeat' first
    | with_reducible exact Moves.refl _ _
    | ((with_reducible intro _ _); decide +revert)
    | with_reducible apply Moves.after (State.setPort_moves ..)
    | with_reducible apply Moves.after (State.sinkMoves_moves ..)
    | with_reducible apply Moves.after (State.softDone_moves ..)
    | with_reducible apply Moves.after (State.swapAccepted_moves ..)
    | with_reducible apply Moves.after (State.unexpected_moves ..)
    | with_reducible apply Moves.after (State.wP_moves ..)
    | split
    | extract_lets

theorem State.rxRefusal_moves (s : State) (p : Port) : Moves [.od, .odNew, .io, .cmps, .paths, .ledger, .ports, .recorder] s (State.rxRefusal s p) := by
  unfold State.rxRefusal
  repeat' first
    | with_reducible exact Moves.refl _ _
    | ((with_reducible intro _ _); decide +revert)
    | with_reducible apply Moves.ite
    | with_reducible apply Moves.after (State.setPort_moves ..)
    | with_reducible apply Moves.after (State.toStanding_moves ..)
    | with_reducible apply Moves.after (State.unexpected_moves ..)
    | split
    | extract_lets

theorem State.firstAuth_moves (s : State) (p : Port) (first : Bool) : Moves [.od, .odNew, .ports, .recorder] s (State.firstAuth s p first) := by
  unfold State.firstAuth
  repeat' first
    | with_reducible exact Moves.refl _ _
    | ((with_reducible intro _ _); decide +revert)
    | with_reducible apply Moves.ite
    | with_reducible apply Moves.after (State.authStart_moves ..)

theorem State.rxPsRdy_moves (s : State) (p : Port) : Moves [.od, .odNew, .io, .cmps, .paths, .ledger, .tiles, .ports, .mets, .recorder] s (State.rxPsRdy s p) := by
  unfold State.rxPsRdy
  repeat' first
    | with_reducible exact Moves.refl _ _
    | ((with_reducible intro _ _); decide +revert)
    | with_reducible apply Moves.ite
    | with_reducible apply Moves.after (State.becomeSource_moves ..)
    | with_reducible apply Moves.after (State.firstAuth_moves ..)
    | with_reducible apply Moves.after (State.makeContract_moves ..)
    | with_reducible apply Moves.after (State.setCtrl_moves ..)
    | with_reducible apply Moves.after (State.setPort_moves ..)
    | with_reducible apply Moves.after (State.sinkMoved_moves ..)
    | with_reducible apply Moves.after (State.sinkOn_moves ..)
    | with_reducible apply Moves.after (State.sourceOn_moves ..)
    | with_reducible apply Moves.after (State.unexpected_moves ..)
    | with_reducible apply Moves.after (State.vconnOff_moves ..)
    | with_reducible apply Moves.after (State.wP_moves ..)
    | split
    | extract_lets

theorem State.rxGetSourceCap_moves (s : State) (p : Port) : Moves [.od, .odNew, .ports] s (State.rxGetSourceCap s p) := by
  unfold State.rxGetSourceCap
  try dsimp only
  repeat' first
    | with_reducible exact Moves.refl _ _
    | with_reducible assumption
    | ((with_reducible intro _ _); decide +revert)
    | with_reducible apply Moves.ite
    | with_reducible apply Moves.after (State.capsNow_moves ..)
    | with_reducible apply Moves.after (State.notSupported_moves ..)

theorem State.rxGetSinkCap_moves (s : State) (p : Port) : Moves [.od, .odNew, .io, .paths, .ledger, .ports, .recorder] s (State.rxGetSinkCap s p) := by
  unfold State.rxGetSinkCap
  extract_lets a1
  have h1 : Moves [.od, .odNew, .io, .paths, .ledger, .ports, .recorder] s a1 := by
    unfold a1
    with_reducible repeat' first
      | exact Moves.refl _ _
      | decide
      | apply Moves.after (State.applyKeys_moves ..)
  try clear_value a1
  with_reducible repeat' first
    | exact Moves.refl _ _
    | assumption
    | decide
    | apply Moves.ite
    | apply Moves.after (State.sendKind_moves ..)
    | apply Moves.after (State.notSupported_moves ..)

theorem State.rxFrSwap_moves (s : State) (p : Port) : Moves [.od, .odNew, .io, .cmps, .paths, .ledger, .ports, .recorder] s (State.rxFrSwap s p) := by
  unfold State.rxFrSwap
  repeat' first
    | with_reducible exact Moves.refl _ _
    | ((with_reducible intro _ _); decide +revert)
    | with_reducible apply Moves.ite
    | with_reducible apply Moves.after (State.becomeSource_moves ..)
    | with_reducible apply Moves.after (State.book_moves ..)
    | with_reducible apply Moves.after (State.clearContract_moves ..)
    | with_reducible apply Moves.after (State.sendKind_moves ..)
    | with_reducible apply Moves.after (State.unexpected_moves ..)
    | extract_lets

theorem State.rxBist_moves (s : State) (p : Port) (m : BistMode) : Moves [.ports] s (State.rxBist s p m) := by
  unfold State.rxBist
  extract_lets a1
  try clear_value a1
  repeat' first
    | with_reducible exact Moves.refl _ _
    | decide
    | with_reducible apply Moves.after (State.setPort_moves ..)
    | split

theorem State.rxCable_moves (s : State) (p : Port) (c : CableVdo) : Moves [.od, .odNew, .io, .paths, .ledger, .ports, .recorder] s (State.rxCable s p c) := by
  unfold State.rxCable
  extract_lets a1 a2 a3 a4
  try clear_value a1
  have h2 : Moves [.od, .odNew, .io, .paths, .ledger, .ports, .recorder] s a2 := by
    unfold a2
    with_reducible repeat' first
      | exact Moves.refl _ _
      | decide
      | apply Moves.after (State.wP_moves ..)
  try clear_value a2
  try clear_value a3
  have h4 : Moves [.od, .odNew, .io, .paths, .ledger, .ports, .recorder] s a4 := by
    unfold a4
    with_reducible repeat' first
      | assumption
      | decide
      | apply Moves.after (State.setPort_moves ..)
  try clear_value a4
  with_reducible repeat' first
    | exact Moves.refl _ _
    | assumption
    | decide
    | apply Moves.ite
    | apply Moves.after (State.sendCaps_moves ..)
    | apply Moves.after (State.eprOutcome_moves ..)

theorem State.useText_moves (s : State) (k : Nat) : Moves [.odNew, .blob] s (State.useText s k) := by
  unfold State.useText
  split
  · exact Moves.refl _ _
  · exact Moves.step (by decide) (Moves.mono (by decide) (State.wrB_moves ..)) (Moves.upd_odNew _ _ fun h => SMap.wf_put _ _ _ _ h)

theorem State.rxAct_moves (s : State) (p : Port) (m : RxMsg) : Moves [.od, .odNew, .blob, .io, .cmps, .paths, .ledgerPorts, .ledger, .tiles, .ports, .mets, .recorder] s (State.rxAct s p m) := by
  unfold State.rxAct
  try dsimp only
  repeat' first
    | with_reducible exact Moves.refl _ _
    | with_reducible assumption
    | ((with_reducible intro _ _); decide +revert)
    | with_reducible apply Moves.ite
    | with_reducible apply Moves.after (State.cancelSwap_moves ..)
    | with_reducible apply Moves.after (State.hardReset_moves ..)
    | with_reducible apply Moves.after (State.notSupported_moves ..)
    | with_reducible apply Moves.after (State.rxAbsent_moves ..)
    | with_reducible apply Moves.after (State.rxAccept_moves ..)
    | with_reducible apply Moves.after (State.rxBist_moves ..)
    | with_reducible apply Moves.after (State.rxCable_moves ..)
    | with_reducible apply Moves.after (State.rxEprEnter_moves ..)
    | with_reducible apply Moves.after (State.rxEprExit_moves ..)
    | with_reducible apply Moves.after (State.rxFrSwap_moves ..)
    | with_reducible apply Moves.after (State.rxGetSinkCap_moves ..)
    | with_reducible apply Moves.after (State.rxGetSourceCap_moves ..)
    | with_reducible apply Moves.after (State.rxIdentity_moves ..)
    | with_reducible apply Moves.after (State.rxPsRdy_moves ..)
    | with_reducible apply Moves.after (State.rxRefusal_moves ..)
    | with_reducible apply Moves.after (State.rxRequest_moves ..)
    | with_reducible apply Moves.after (State.rxSecurity_moves ..)
    | with_reducible apply Moves.after (State.rxSinkCaps_moves ..)
    | with_reducible apply Moves.after (State.rxSoftReset_moves ..)
    | with_reducible apply Moves.after (State.rxSourceCaps_moves ..)
    | with_reducible apply Moves.after (State.rxSwap_moves ..)
    | with_reducible apply Moves.after (State.sendKind_moves ..)
    | with_reducible apply Moves.after (State.setPort_moves ..)
    | with_reducible apply Moves.after (State.unexpected_moves ..)
    | with_reducible apply Moves.after (State.useText_moves ..)
    | split

theorem State.rxServe_moves (s : State) (p : Port) (id : Nat) (rev3 : Bool) (m : RxMsg) : Moves (partsBut [.pending, .tb, .clk, .otpShadow, .cts, .tbcs, .shared]) s (State.rxServe s p id rev3 m) := by
  unfold State.rxServe
  extract_lets a1 a2 a3 a4
  try clear_value a1
  have h2 : Moves (partsBut [.pending, .tb, .clk, .otpShadow, .cts, .tbcs, .shared]) s a2 := by
    unfold a2
    with_reducible repeat' first
      | exact Moves.refl _ _
      | decide
      | apply Moves.after (State.setPort_moves ..)
  try clear_value a2
  have h3 : Moves (partsBut [.pending, .tb, .clk, .otpShadow, .cts, .tbcs, .shared]) s a3 := by
    unfold a3
    with_reducible repeat' first
      | assumption
      | decide
      | apply Moves.ite
      | apply Moves.after (State.wP_moves ..)
  try clear_value a3
  try clear_value a4
  with_reducible repeat' first
    | exact Moves.refl _ _
    | assumption
    | decide
    | apply Moves.ite
    | apply Moves.after (State.setPort_moves ..)
    | apply Moves.after (State.pdCount_moves ..)
    | apply Moves.after (State.rxAct_moves ..)

theorem State.rxLate_moves (s : State) (p : Port) (m : RxMsg) : Moves [.od, .odNew, .blob, .io, .cmps, .paths, .ledgerPorts, .ledger, .tiles, .ports, .mets, .recorder] s (State.rxLate s p m) := by
  unfold State.rxLate
  try dsimp only
  repeat' first
    | with_reducible exact Moves.refl _ _
    | with_reducible assumption
    | ((with_reducible intro _ _); decide +revert)
    | with_reducible apply Moves.after (State.rxAct_moves ..)
    | with_reducible apply Moves.after (State.setPort_moves ..)
    | split

theorem State.replayHeld_moves (s : State) (p : Port) (float : Bool) : Moves [.od, .odNew, .blob, .io, .cmps, .paths, .ledgerPorts, .ledger, .tiles, .ports, .mets, .recorder] s (State.replayHeld s p float) := by
  unfold State.replayHeld
  try dsimp only
  repeat' first
    | with_reducible exact Moves.refl _ _
    | with_reducible assumption
    | ((with_reducible intro _ _); decide +revert)
    | with_reducible apply Moves.ite
    | with_reducible refine Moves.foldl (fun _ _ => ?_) ?_
    | with_reducible apply Moves.after (State.rxAct_moves ..)
    | with_reducible apply Moves.after (State.rxLate_moves ..)
    | with_reducible apply Moves.after (State.setPort_moves ..)

theorem State.armContract_moves (s : State) (p : Port) (w : Wanted) : Moves [.od, .io, .paths] s (State.armContract s p w) := by
  unfold State.armContract
  extract_lets a1 a2 a3 a4
  try clear_value a1
  try clear_value a2
  try clear_value a3
  have h4 : Moves [.od, .io, .paths] s a4 := by
    unfold a4
    repeat' first
      | with_reducible exact Moves.refl _ _
      | with_reducible assumption
      | ((with_reducible intro _ _); decide +revert)
      | with_reducible apply Moves.ite
      | with_reducible apply Moves.after (State.iow_moves ..)
      | with_reducible apply Moves.after (State.putTarget_moves ..)
  try clear_value a4
  repeat' first
    | with_reducible exact Moves.refl _ _
    | with_reducible assumption
    | ((with_reducible intro _ _); decide +revert)
    | with_reducible apply Moves.after (State.takeArm_moves ..)

theorem State.acked_moves (s : State) (p : Port) (m : TxMsg) : Moves [.od, .odNew, .io, .cmps, .paths, .ledger, .tiles, .ports, .recorder] s (State.acked s p m) := by
  unfold State.acked
  extract_lets a1 a2 a3
  try clear_value a2
  have h3 : Moves [.od, .odNew, .io, .cmps, .paths, .ledger, .tiles, .ports, .recorder] s a3 := by
    unfold a3
    with_reducible repeat' first
      | exact Moves.refl _ _
      | decide
      | apply Moves.after (State.setPort_moves ..)
  try clear_value a3
  repeat' first
    | with_reducible exact Moves.refl _ _
    | with_reducible assumption
    | decide
    | with_reducible apply Moves.ite
    | with_reducible apply Moves.after (State.wP_moves ..)
    | with_reducible apply Moves.after (State.setPort_moves ..)
    | with_reducible apply Moves.after (State.sendKind_moves ..)
    | with_reducible apply Moves.after (State.sendCaps_moves ..)
    | with_reducible apply Moves.after (State.swapAccepted_moves ..)
    | with_reducible apply Moves.after (State.leaveEpr_moves ..)
    | with_reducible apply Moves.after (State.eprOutcome_moves ..)
    | with_reducible apply Moves.after (State.softDone_moves ..)
    | with_reducible apply Moves.after (State.armContract_moves ..)
    | split

theorem State.gaveUp_moves (s : State) (p : Port) (m : TxMsg) : Moves [.od, .odNew, .io, .cmps, .paths, .ledger, .ports, .recorder] s (State.gaveUp s p m) := by
  unfold State.gaveUp
  repeat' first
    | with_reducible exact Moves.refl _ _
    | ((with_reducible intro _ _); decide +revert)
    | with_reducible apply Moves.ite
    | with_reducible apply Moves.after (State.hardReset_moves ..)
    | with_reducible apply Moves.after (State.softReset_moves ..)
    | split

theorem State.cmdStatus_moves (s : State) (p : Port) (st : Nat) : Moves [.ports] s (State.cmdStatus s p st) := by
  unfold State.cmdStatus
  extract_lets a1
  try clear_value a1
  with_reducible repeat' first
    | exact Moves.refl _ _
    | decide
    | apply Moves.after (State.setPort_moves ..)

theorem State.askSwap_moves (s : State) (p : Port) (k : SwapKind) : Moves [.od, .io, .paths, .ledger, .ports, .recorder] s (State.askSwap s p k) := by
  unfold State.askSwap
  extract_lets a1
  try clear_value a1
  with_reducible repeat' first
    | exact Moves.refl _ _
    | decide
    | apply Moves.after (State.setPort_moves ..)
    | apply Moves.after (State.startAms_moves ..)

theorem execPortCmdHardReset_moves (r0 : State) (p : Port) (s : State) : Moves [.od, .odNew, .io, .cmps, .paths, .ledger, .ports, .pins, .recorder] s (stateOf r0 (execPortCmdHardReset p s)) := by
  unfold execPortCmdHardReset
  refine Moves.after (settle_moves _) (by decide) ?_
  repeat' first
    | with_reducible exact Moves.refl _ _
    | ((with_reducible intro _ _); decide +revert)
    | with_reducible apply Moves.ite
    | with_reducible apply Moves.after (State.cmdStatus_moves ..)
    | with_reducible apply Moves.after (State.hardReset_moves ..)

theorem execPortCmdSoftReset_moves (r0 : State) (p : Port) (s : State) : Moves [.od, .io, .paths, .ledger, .ports, .pins, .recorder] s (stateOf r0 (execPortCmdSoftReset p s)) := by
  unfold execPortCmdSoftReset
  refine Moves.after (settle_moves _) (by decide) ?_
  with_reducible repeat' first
    | exact Moves.refl _ _
    | decide
    | apply Moves.ite
    | apply Moves.after (State.softReset_moves ..)
    | apply Moves.after (State.cmdStatus_moves ..)

theorem execPortCmdReadvertise_moves (r0 : State) (p : Port) (s : State) : Moves [.od, .odNew, .io, .paths, .ledger, .ports, .pins, .recorder] s (stateOf r0 (execPortCmdReadvertise p s)) := by
  unfold execPortCmdReadvertise
  refine Moves.after (settle_moves _) (by decide) ?_
  with_reducible repeat' first
    | exact Moves.refl _ _
    | decide
    | apply Moves.ite
    | apply Moves.after (State.sendCaps_moves ..)
    | apply Moves.after (State.cmdStatus_moves ..)

theorem execPortCmdPrSwap_moves (r0 : State) (p : Port) (s : State) : Moves [.od, .io, .paths, .ledger, .ports, .pins, .recorder] s (stateOf r0 (execPortCmdPrSwap p s)) := by
  unfold execPortCmdPrSwap
  refine Moves.after (settle_moves _) (by decide) ?_
  with_reducible repeat' first
    | exact Moves.refl _ _
    | decide
    | apply Moves.ite
    | apply Moves.after (State.cmdStatus_moves ..)
    | apply Moves.after (State.askSwap_moves ..)

theorem execPortCmdDrSwap_moves (r0 : State) (p : Port) (s : State) : Moves [.od, .io, .paths, .ledger, .ports, .pins, .recorder] s (stateOf r0 (execPortCmdDrSwap p s)) := by
  unfold execPortCmdDrSwap
  refine Moves.after (settle_moves _) (by decide) ?_
  with_reducible repeat' first
    | exact Moves.refl _ _
    | decide
    | apply Moves.ite
    | apply Moves.after (State.cmdStatus_moves ..)
    | apply Moves.after (State.askSwap_moves ..)

theorem execPortCmdVconnSwap_moves (r0 : State) (p : Port) (s : State) : Moves [.od, .io, .paths, .ledger, .ports, .pins, .recorder] s (stateOf r0 (execPortCmdVconnSwap p s)) := by
  unfold execPortCmdVconnSwap
  refine Moves.after (settle_moves _) (by decide) ?_
  with_reducible repeat' first
    | exact Moves.refl _ _
    | decide
    | apply Moves.ite
    | apply Moves.after (State.cmdStatus_moves ..)
    | apply Moves.after (State.askSwap_moves ..)

theorem State.quietReset_moves (s : State) (p : Port) : Moves [.od, .odNew, .io, .cmps, .paths, .ledger, .tiles, .ports] s (State.quietReset s p) := by
  unfold State.quietReset
  extract_lets a1 a2
  try clear_value a1
  have h2 : Moves [.od, .odNew, .io, .cmps, .paths, .ledger, .tiles, .ports] s a2 := by
    unfold a2
    with_reducible repeat' first
      | exact Moves.refl _ _
      | decide
      | apply Moves.after (State.setPath_moves ..)
  try clear_value a2
  with_reducible repeat' first
    | assumption
    | decide
    | apply Moves.after (State.gateOff_moves ..)
    | apply Moves.after (State.clearLatches_moves ..)
    | apply Moves.after (State.dropPort_moves ..)

theorem execPortCmdErrorRecovery_moves (r0 : State) (p : Port) (s : State) : Moves [.od, .odNew, .io, .cmps, .paths, .ledger, .tiles, .ports, .pins, .recorder] s (stateOf r0 (execPortCmdErrorRecovery p s)) := by
  unfold execPortCmdErrorRecovery
  refine Moves.after (settle_moves _) (by decide) ?_
  repeat' first
    | with_reducible exact Moves.refl _ _
    | ((with_reducible intro _ _); decide +revert)
    | with_reducible apply Moves.ite
    | with_reducible apply Moves.after (State.cmdStatus_moves ..)
    | with_reducible apply Moves.after (State.pdFault_moves ..)
    | with_reducible apply Moves.after (State.quietReset_moves ..)

theorem execPortCmdClearCounters_moves (r0 : State) (p : Port) (s : State) : Moves [.od, .ports, .pins] s (stateOf r0 (execPortCmdClearCounters p s)) := by
  unfold execPortCmdClearCounters
  refine Moves.after (settle_moves _) (by decide) ?_
  repeat' first
    | with_reducible exact Moves.refl _ _
    | decide
    | with_reducible apply Moves.ite
    | with_reducible apply Moves.after (State.wP_moves ..)
    | with_reducible apply Moves.after (State.cmdStatus_moves ..)
    | with_reducible apply Moves.foldl
    | intro _ _

theorem execPortCmdDisable_moves (r0 : State) (p : Port) (s : State) : Moves [.od, .odNew, .io, .cmps, .paths, .ledger, .tiles, .ports, .pins] s (stateOf r0 (execPortCmdDisable p s)) := by
  unfold execPortCmdDisable
  refine Moves.after (settle_moves _) (by decide) ?_
  repeat' first
    | with_reducible exact Moves.refl _ _
    | ((with_reducible intro _ _); decide +revert)
    | with_reducible apply Moves.ite
    | with_reducible apply Moves.after (State.cmdStatus_moves ..)
    | with_reducible apply Moves.after (State.quietReset_moves ..)
    | with_reducible apply Moves.after (State.setPort_moves ..)
    | extract_lets

theorem execPortCmdEnable_moves (r0 : State) (p : Port) (s : State) : Moves [.od, .ports, .pins] s (stateOf r0 (execPortCmdEnable p s)) := by
  unfold execPortCmdEnable
  extract_lets a1 a2 a3
  try clear_value a1
  have h2 : Moves [.od, .ports, .pins] s a2 := by
    unfold a2
    with_reducible repeat' first
      | exact Moves.refl _ _
      | decide
      | apply Moves.after (State.setPort_moves ..)
      | apply Moves.after (State.cmdStatus_moves ..)
  try clear_value a2
  try clear_value a3
  refine Moves.after (settle_moves _) (by decide) ?_
  with_reducible repeat' first
    | exact Moves.refl _ _
    | assumption
    | decide
    | apply Moves.ite
    | apply Moves.after (State.wP_moves ..)
    | apply Moves.after (State.setPort_moves ..)
    | apply Moves.after (State.cmdStatus_moves ..)

theorem execPortCmdAuthenticate_moves (r0 : State) (p : Port) (s : State) : Moves [.od, .odNew, .ports, .pins, .recorder] s (stateOf r0 (execPortCmdAuthenticate p s)) := by
  unfold execPortCmdAuthenticate
  refine Moves.after (settle_moves _) (by decide) ?_
  repeat' first
    | with_reducible exact Moves.refl _ _
    | ((with_reducible intro _ _); decide +revert)
    | with_reducible apply Moves.ite
    | with_reducible apply Moves.after (State.authStart_moves ..)
    | with_reducible apply Moves.after (State.cmdStatus_moves ..)

theorem State.applyString_moves (s : State) (k : Nat) (n : Nat) : Moves [.odNew, .blob] s (State.applyString s k n) := by
  unfold State.applyString
  split
  · exact Moves.refl _ _
  · exact Moves.after (Moves.upd_odNew _ _ (fun hw => SMap.wf_put _ _ _ _ hw)) (by decide) (Moves.mono (by decide) (State.wrB_moves ..))

theorem State.idleFeed_moves (s : State) (f : Feed) : Moves [.od, .odNew, .cmps] s (State.idleFeed s f) := by
  unfold State.idleFeed
  repeat' first
    | with_reducible exact Moves.refl _ _
    | ((with_reducible intro _ _); decide +revert)
    | with_reducible apply Moves.ite
    | with_reducible apply Moves.after (State.setMode_moves ..)

theorem State.dropCaps_moves (s : State) (seq : Nat) : Moves [.mets] s (State.dropCaps s seq) := by
  unfold State.dropCaps
  repeat' first
    | with_reducible exact Moves.refl _ _
    | ((with_reducible intro _ _); decide +revert)
    | with_reducible apply Moves.after (Moves.upd_mets _ _)

theorem State.withhold_moves (s : State) (c : Conv) : Moves [.od, .convs] s (State.withhold s c) := by
  unfold State.withhold
  extract_lets a1 a2
  try clear_value a1
  try clear_value a2
  repeat' first
    | with_reducible exact Moves.refl _ _
    | with_reducible assumption
    | ((with_reducible intro _ _); decide +revert)
    | with_reducible apply Moves.after (State.count_moves ..)
    | with_reducible apply Moves.after (State.setConv_moves ..)

theorem State.sampleAs_moves (s : State) (c : Conv) (x : Int) (ch : Nat) (gain : Nat) (filt : Nat) (settles : Bool) (inj : Bool) (queue : Bool) (starts : Bool) : Moves [.fresh, .convs] s (State.sampleAs s c x ch gain filt settles inj queue starts).1 := by
  unfold State.sampleAs
  extract_lets a1 a2 a3
  try clear_value a1
  try clear_value a2
  try clear_value a3
  repeat' first
    | with_reducible exact Moves.refl _ _
    | with_reducible assumption
    | ((with_reducible intro _ _); decide +revert)
    | with_reducible apply Moves.after (State.draw_moves ..)
    | with_reducible apply Moves.after (State.setConv_moves ..)
    | extract_lets

theorem State.convert_moves (s : State) (c : Conv) (x : Int) : Moves [.fresh, .convs] s (State.convert s c x).1 := by
  unfold State.convert
  extract_lets a1
  try clear_value a1
  repeat' first
    | with_reducible exact Moves.refl _ _
    | with_reducible assumption
    | ((with_reducible intro _ _); decide +revert)
    | with_reducible apply Moves.ite
    | with_reducible apply Moves.ite_fst
    | with_reducible apply Moves.after (State.sampleAs_moves ..)
    | with_reducible apply Moves.after (State.setConv_moves ..)
    | split
    | extract_lets

theorem State.setHead_moves (s : State) (jrnl : Bool) (a : Nat) : Moves [.od, .recorder] s (State.setHead s jrnl a) := by
  unfold State.setHead
  extract_lets a1 a2 a3
  clear_value a1
  clear_value a2
  have h3 : Moves [.od, .recorder] s a3 := by
    unfold a3
    repeat' first
      | with_reducible exact Moves.refl _ _
      | with_reducible assumption
      | ((with_reducible intro _ _); decide +revert)
      | with_reducible apply Moves.ite
      | with_reducible apply Moves.after (State.wr_moves ..)
      | with_reducible apply Moves.after (Moves.upd_recorder _ _)
  clear_value a3
  repeat' first
    | with_reducible exact Moves.refl _ _
    | with_reducible assumption
    | ((with_reducible intro _ _); decide +revert)
    | with_reducible apply Moves.ite
    | with_reducible apply Moves.after (State.wr_moves ..)
    | with_reducible apply Moves.after (Moves.upd_recorder _ _)

theorem State.findHeads_moves (s : State) : Moves [.od, .recorder] s (State.findHeads s) := by
  unfold State.findHeads
  extract_lets a1 a2 a3
  try clear_value a1
  try clear_value a2
  have h3 : Moves [.od, .recorder] s a3 := by
    unfold a3
    repeat' first
      | with_reducible exact Moves.refl _ _
      | with_reducible assumption
      | ((with_reducible intro _ _); decide +revert)
      | with_reducible apply Moves.after (State.wr_moves ..)
      | split
  try clear_value a3
  repeat' first
    | with_reducible exact Moves.refl _ _
    | with_reducible assumption
    | ((with_reducible intro _ _); decide +revert)
    | with_reducible apply Moves.after (State.setHead_moves ..)

theorem State.findWall_moves (s : State) (cs0 : Option WallFound) (cs1 : Option WallFound) : Moves [.od, .recorder] s (State.findWall s cs0 cs1) := by
  unfold State.findWall
  extract_lets a1 a2
  clear_value a1
  clear_value a2
  repeat' first
    | with_reducible exact Moves.refl _ _
    | with_reducible assumption
    | ((with_reducible intro _ _); decide +revert)
    | with_reducible apply Moves.after (State.wr_moves ..)
    | with_reducible apply Moves.after (Moves.upd_recorder _ _)

theorem State.stopPllB_moves (s : State) : Moves [.od, .time] s (State.stopPllB s) := by
  unfold State.stopPllB
  extract_lets a1
  have h1 : Moves [.od, .time] s a1 := by
    unfold a1
    repeat' first
      | with_reducible exact Moves.refl _ _
      | with_reducible assumption
      | ((with_reducible intro _ _); decide +revert)
      | with_reducible apply Moves.after (State.wr_moves ..)
  try clear_value a1
  repeat' first
    | with_reducible exact Moves.refl _ _
    | with_reducible assumption
    | ((with_reducible intro _ _); decide +revert)
    | with_reducible apply Moves.after (Moves.upd_time _ _)
    | extract_lets

theorem State.frsDisarm_moves (s : State) (p : Port) : Moves [.od, .odNew, .io, .cmps, .paths] s (State.frsDisarm s p) := by
  unfold State.frsDisarm
  extract_lets a1
  have h1 : Moves [.od, .odNew, .io, .cmps, .paths] s a1 := by
    unfold a1
    repeat' first
      | with_reducible exact Moves.refl _ _
      | with_reducible assumption
      | ((with_reducible intro _ _); decide +revert)
      | with_reducible apply Moves.after (State.frsEnded_moves ..)
      | with_reducible apply Moves.after (State.setCtrl_moves ..)
  try clear_value a1
  repeat' first
    | with_reducible exact Moves.refl _ _
    | with_reducible assumption
    | ((with_reducible intro _ _); decide +revert)
    | with_reducible apply Moves.ite
    | with_reducible apply Moves.after (State.book_moves ..)

theorem State.takeCtrl_moves (s : State) (p : Port) (v : Nat) : Moves [.od, .odNew, .io, .cmps, .paths, .tiles, .mets, .recorder] s (State.takeCtrl s p v) := by
  unfold State.takeCtrl
  repeat' first
    | with_reducible exact Moves.refl _ _
    | ((with_reducible intro _ _); decide +revert)
    | with_reducible apply Moves.ite
    | with_reducible apply Moves.after (State.frsDisarm_moves ..)
    | with_reducible apply Moves.after (State.gateOff_moves ..)
    | with_reducible apply Moves.after (State.requestFrs_moves ..)
    | with_reducible apply Moves.after (State.requestSink_moves ..)
    | with_reducible apply Moves.after (State.requestSource_moves ..)
    | with_reducible apply Moves.after (State.setCtrl_moves ..)
    | with_reducible apply Moves.after (State.takeArm_moves ..)
    | extract_lets

theorem State.dieResult_moves (s : State) (c : Conv) (r : Conversion) (tag : Nat) : Moves [.ref] s (State.dieResult s c r tag) := by
  unfold State.dieResult
  repeat' first
    | with_reducible exact Moves.refl _ _
    | ((with_reducible intro _ _); decide +revert)
    | with_reducible apply Moves.ite
    | with_reducible apply Moves.after (Moves.upd_ref _ _)
    | extract_lets

theorem State.frsChecked_moves (s : State) (p : Port) : Moves [.paths] s (State.frsChecked s p) := by
  unfold State.frsChecked
  repeat' first
    | with_reducible exact Moves.refl _ _
    | ((with_reducible intro _ _); decide +revert)
    | with_reducible apply Moves.ite
    | with_reducible apply Moves.after (State.setPath_moves ..)
    | extract_lets

theorem State.mirrorRestart_moves (s : State) (c : Conv) : Moves [.convs] s (State.mirrorRestart s c) := by
  unfold State.mirrorRestart
  repeat' first
    | with_reducible exact Moves.refl _ _
    | ((with_reducible intro _ _); decide +revert)
    | with_reducible apply Moves.after (State.setConv_moves ..)
    | extract_lets

theorem State.takeNews_moves (s : State) (n : TileNews) : Moves [.od, .odNew, .io, .cmps, .paths, .ledger, .tiles, .ports, .recorder] s (State.takeNews s n) := by
  unfold State.takeNews
  try dsimp only
  repeat' first
    | with_reducible exact Moves.refl _ _
    | with_reducible assumption
    | ((with_reducible intro _ _); decide +revert)
    | with_reducible apply Moves.after (State.acked_moves ..)
    | with_reducible apply Moves.after (State.gaveUp_moves ..)
    | with_reducible apply Moves.after (State.shadowNews_moves ..)
    | split

theorem State.pathFaults_moves (s : State) (p : Port) (codes : List Nat) : Moves [.od, .odNew, .io, .cmps, .paths, .ledger, .tiles, .ports, .recorder] s (State.pathFaults s p codes) := by
  unfold State.pathFaults
  repeat' first
    | with_reducible exact Moves.refl _ _
    | ((with_reducible intro _ _); decide +revert)
    | with_reducible refine Moves.foldl (fun _ _ => ?_) ?_
    | with_reducible apply Moves.after (State.faultActs_moves ..)
    | with_reducible apply Moves.after (State.recordFault_moves ..)

theorem State.settleRecord_moves (s : State) (seq : Nat) : Moves [.mets] s (State.settleRecord s seq) := by
  unfold State.settleRecord
  repeat' first
    | with_reducible exact Moves.refl _ _
    | ((with_reducible intro _ _); decide +revert)
    | split
    | with_reducible apply Moves.after (Moves.upd_mets _ _)

theorem State.feedGiveUp_moves (s : State) (f : Feed) : Moves [.od, .odNew, .cmps, .feeds] s (State.feedGiveUp s f) := by
  unfold State.feedGiveUp
  repeat' first
    | with_reducible exact Moves.refl _ _
    | ((with_reducible intro _ _); decide +revert)
    | with_reducible apply Moves.ite
    | with_reducible apply Moves.after (State.idleFeed_moves ..)
    | with_reducible apply Moves.after (State.setFeed_moves ..)
    | extract_lets

theorem State.dischargeWatch_moves (s : State) (p : Port) : Moves [.od, .odNew, .paths] s (State.dischargeWatch s p) := by
  unfold State.dischargeWatch
  repeat' first
    | with_reducible exact Moves.refl _ _
    | ((with_reducible intro _ _); decide +revert)
    | with_reducible apply Moves.ite
    | with_reducible apply Moves.after (State.dischargeEnd_moves ..)

theorem State.dischargesOf_moves (s : State) (c : Conv) : Moves [.od, .odNew, .paths] s (State.dischargesOf s c) := by
  unfold State.dischargesOf
  repeat' first
    | with_reducible exact Moves.refl _ _
    | ((with_reducible intro _ _); decide +revert)
    | with_reducible refine Moves.foldl (fun _ _ => ?_) ?_
    | with_reducible apply Moves.after (State.dischargeWatch_moves ..)

theorem State.emit_moves (s : State) (n : Nat) : Moves [.time] s (State.emit s n) := by
  unfold State.emit
  extract_lets a1 a2
  try clear_value a1
  try clear_value a2
  repeat' first
    | with_reducible exact Moves.refl _ _
    | with_reducible assumption
    | ((with_reducible intro _ _); decide +revert)
    | with_reducible apply Moves.after (Moves.upd_time _ _)
    | extract_lets

theorem State.tgOut_moves (s : State) (g : Tg) : Moves [.time] s (State.tgOut s g) := by
  unfold State.tgOut
  repeat' first
    | with_reducible exact Moves.refl _ _
    | ((with_reducible intro _ _); decide +revert)
    | with_reducible apply Moves.after (State.emit_moves ..)

theorem State.gapWindows_moves (s : State) : Moves [.mets] s (State.gapWindows s) := by
  unfold State.gapWindows
  repeat' first
    | with_reducible exact Moves.refl _ _
    | ((with_reducible intro _ _); decide +revert)
    | with_reducible apply Moves.after (Moves.upd_mets _ _)

theorem State.otpReach_moves {xs : List Part} {s : State} {via : OtpVia} {f : State → State} (h : Moves xs s (f s)) :
    Moves xs s (State.otpReach s via f) := Moves.ite (Moves.refl _ _) h

theorem State.takeLate_moves (s : State) (e : Eng) : Moves [.od, .odNew, .float] s (State.takeLate s e) := by
  unfold State.takeLate
  try dsimp only
  repeat' first
    | with_reducible exact Moves.refl _ _
    | with_reducible assumption
    | ((with_reducible intro _ _); decide +revert)
    | with_reducible apply Moves.ite
    | with_reducible apply Moves.after (State.applyKey_moves ..)
    | with_reducible apply Moves.after (Moves.upd_float _ _)

theorem State.twRuns_moves (s : State) (b : Bus) : Moves [.od, .fresh] s (State.twRuns s b) := by
  unfold State.twRuns
  repeat' first
    | with_reducible exact Moves.refl _ _
    | ((with_reducible intro _ _); decide +revert)
    | with_reducible apply Moves.after (State.draw_moves ..)
    | with_reducible apply Moves.after (State.wW_moves ..)

theorem State.burnt_moves (s : State) (b : Burner) : Moves [.otp] s (State.burnt s b) := by
  unfold State.burnt
  repeat' first
    | with_reducible exact Moves.refl _ _
    | ((with_reducible intro _ _); decide +revert)
    | with_reducible apply Moves.after (Moves.upd_otp _ _)
    | extract_lets

theorem State.setCan_moves (s : State) (c : Fin 2) (h : CanHw) : Moves [.srcs] s (State.setCan s c h) := by
  unfold State.setCan
  repeat' first
    | with_reducible exact Moves.refl _ _
    | ((with_reducible intro _ _); decide +revert)
    | with_reducible apply Moves.after (State.setSrc_moves ..)
    | extract_lets

theorem State.canEntry_moves (s : State) (k : Nat) (v : Int) : Moves [.od, .odNew] s (State.canEntry s k v) := by
  unfold State.canEntry
  repeat' first
    | with_reducible exact Moves.refl _ _
    | ((with_reducible intro _ _); decide +revert)
    | with_reducible apply Moves.ite
    | with_reducible apply Moves.after (State.applyKey_moves ..)
    | with_reducible apply Moves.after (State.wr_moves ..)

theorem State.programLeaf_moves (s : State) (a : Nat) (ok : Bool) (l : List Nat) : Moves [.od, .recorder] s (State.programLeaf s a ok l) := by
  unfold State.programLeaf
  repeat' first
    | with_reducible exact Moves.refl _ _
    | ((with_reducible intro _ _); decide +revert)
    | with_reducible apply Moves.ite
    | with_reducible apply Moves.after (State.count_moves ..)
    | with_reducible apply Moves.after (Moves.upd_recorder _ _)
    | extract_lets

theorem State.canSend_moves (s : State) (c : Fin 2) (resp : List Nat) : Moves [.srcs] s (State.canSend s c resp) := by
  unfold State.canSend
  extract_lets a1 a2
  try clear_value a1
  try clear_value a2
  repeat' first
    | with_reducible exact Moves.refl _ _
    | with_reducible assumption
    | ((with_reducible intro _ _); decide +revert)
    | with_reducible apply Moves.after (State.setCan_moves ..)

theorem State.arrived_moves (s : State) (d : Due) : Moves [.time] s (State.arrived s d) := by
  unfold State.arrived
  repeat' first
    | with_reducible exact Moves.refl _ _
    | ((with_reducible intro _ _); decide +revert)
    | with_reducible apply Moves.after (Moves.upd_time _ _)
    | extract_lets

theorem State.canBusOff_moves (s : State) (c : Fin 2) : Moves [.od] s (State.canBusOff s c) := by
  unfold State.canBusOff
  repeat' first
    | with_reducible exact Moves.refl _ _
    | ((with_reducible intro _ _); decide +revert)
    | with_reducible apply Moves.ite
    | with_reducible apply Moves.after (State.count_moves ..)
    | with_reducible apply Moves.after (State.wr_moves ..)

theorem State.canShow_moves (s : State) (c : Fin 2) : Moves [.od] s (State.canShow s c) := by
  unfold State.canShow
  repeat' first
    | with_reducible exact Moves.refl _ _
    | ((with_reducible intro _ _); decide +revert)
    | with_reducible apply Moves.ite
    | with_reducible apply Moves.after (State.wr_moves ..)

theorem State.canGood_moves (s : State) (c : Fin 2) : Moves [.od, .fresh] s (State.canGood s c) := by
  unfold State.canGood
  extract_lets a1
  try clear_value a1
  repeat' first
    | with_reducible exact Moves.refl _ _
    | with_reducible assumption
    | ((with_reducible intro _ _); decide +revert)
    | with_reducible apply Moves.ite
    | with_reducible apply Moves.after (State.canShow_moves ..)
    | with_reducible apply Moves.after (State.draw_moves ..)
    | with_reducible apply Moves.after (State.wr_moves ..)

theorem State.unclamp_moves (s : State) (p : Port) : Moves [.od, .ports] s (State.unclamp s p) := by
  unfold State.unclamp
  repeat' first
    | with_reducible exact Moves.refl _ _
    | ((with_reducible intro _ _); decide +revert)
    | with_reducible apply Moves.ite
    | with_reducible apply Moves.after (State.setPort_moves ..)
    | with_reducible apply Moves.after (State.toUnattached_moves ..)
    | extract_lets

end Sys2Proof.Machine
end

