-- ==== Sys2Proof/Laws/MovesUnits.lean ====
section
/-! SUPPORT. The parts that each operation on the state can move: the ledger, feeds, metering, converters, rails and comparators. -/

namespace Sys2Proof.Machine

theorem State.strobe_moves (s : State) (t : Nat) : Moves [.od, .ledger, .tiles] s (State.strobe s t) := by
  unfold State.strobe
  extract_lets a1 a2
  have h1 : Moves [.od, .ledger, .tiles] s a1 := by
    unfold a1
    repeat' first
      | with_reducible exact Moves.refl _ _
      | decide
      | with_reducible apply Moves.after (State.setTile_moves ..)
      | with_reducible apply Moves.after (State.count_moves ..)
      | with_reducible apply Moves.foldl
      | intro _ _
  try clear_value a1
  try clear_value a2
  with_reducible repeat' first
    | assumption
    | decide
    | apply Moves.ite
    | apply Moves.after (Moves.upd_ledger ..)

theorem State.stopRestore_moves (s : State) : Moves [.od, .ledger] s (State.stopRestore s) := by
  unfold State.stopRestore
  extract_lets a1 a2
  have h1 : Moves [.od, .ledger] s a1 := by
    unfold a1
    with_reducible repeat' first
      | exact Moves.refl _ _
      | decide
      | apply Moves.after (State.ledgerFlag_moves ..)
  try clear_value a1
  try clear_value a2
  with_reducible repeat' first
    | assumption
    | decide
    | apply Moves.after (Moves.upd_ledger ..)

theorem State.trigger_moves (s : State) (t : Nat) : Moves [.od, .ledger, .tiles] s (State.trigger s t) := by
  unfold State.trigger
  extract_lets a1 a2 a3
  have h1 : Moves [.od, .ledger, .tiles] s a1 := by
    unfold a1
    with_reducible repeat' first
      | exact Moves.refl _ _
      | decide
      | apply Moves.after (State.stopRestore_moves ..)
  try clear_value a1
  have h2 : Moves [.od, .ledger, .tiles] s a2 := by
    unfold a2
    with_reducible repeat' first
      | assumption
      | decide
      | apply Moves.ite
      | apply Moves.after (State.strobe_moves ..)
  try clear_value a2
  try clear_value a3
  with_reducible repeat' first
    | assumption
    | decide
    | apply Moves.after (Moves.upd_ledger ..)

theorem State.writeShadow_moves (s : State) (n : Slot) (c : SlotCopy) : Moves [.od] s (State.writeShadow s n c) := by
  unfold State.writeShadow
  extract_lets a1
  have h1 : Moves [.od] s a1 := by
    unfold a1
    with_reducible repeat' first
      | exact Moves.refl _ _
      | decide
      | apply Moves.after (State.wS_moves ..)
  try clear_value a1
  repeat' first
    | with_reducible exact Moves.refl _ _
    | with_reducible assumption
    | decide
    | with_reducible apply Moves.after (State.wS_moves ..)
    | with_reducible apply Moves.foldl
    | intro _ _

theorem State.applyLedgerEntries_moves (s : State) : Moves [.od, .odNew] s (State.applyLedgerEntries s) := by
  unfold State.applyLedgerEntries
  with_reducible repeat' first
    | exact Moves.refl _ _
    | decide
    | apply Moves.after (State.applyKeys_moves ..)

theorem State.recompute_moves (s : State) : Moves [.od, .odNew, .slots] s (State.recompute s) := by
  unfold State.recompute
  extract_lets a1
  have h1 : Moves [.od, .odNew, .slots] s a1 := by
    unfold a1
    with_reducible repeat' first
      | exact Moves.refl _ _
      | decide
      | apply Moves.after (State.applyLedgerEntries_moves ..)
  try clear_value a1
  repeat' first
    | with_reducible exact Moves.refl _ _
    | with_reducible assumption
    | decide
    | with_reducible apply Moves.ite
    | with_reducible apply Moves.after (State.setSlot_moves ..)
    | with_reducible apply Moves.after (State.writeShadow_moves ..)
    | with_reducible apply Moves.foldl
    | intro _ _

theorem State.ledgerCut_moves (s : State) (p : Port) : Moves [.od, .odNew, .io, .cmps, .paths, .ledgerPorts, .ledger, .ports, .recorder] s (State.ledgerCut s p) := by
  unfold State.ledgerCut
  repeat' first
    | with_reducible exact Moves.refl _ _
    | ((with_reducible intro _ _); decide +revert)
    | with_reducible apply Moves.ite
    | with_reducible apply Moves.after (State.errorRecovery_moves ..)
    | with_reducible apply Moves.after (State.leaveWait_moves ..)
    | with_reducible apply Moves.after (State.portEvent_moves ..)
    | with_reducible apply Moves.after (State.setBooking_moves ..)
    | with_reducible apply Moves.after (State.setLport_moves ..)
    | with_reducible apply Moves.after (State.wP_moves ..)
    | extract_lets

theorem State.ledgerLimit_moves (s : State) (p : Port) (allot : Int) (code : Int) : Moves [.od, .io, .ledgerPorts] s (State.ledgerLimit s p allot code) := by
  unfold State.ledgerLimit
  extract_lets a1 a2 a3 a4 a5 a6 a7 a8
  try clear_value a1
  try clear_value a2
  try clear_value a3
  try clear_value a4
  try clear_value a5
  try clear_value a6
  have h7 : Moves [.od, .io, .ledgerPorts] s a7 := by
    unfold a7
    repeat' first
      | with_reducible exact Moves.refl _ _
      | with_reducible assumption
      | ((with_reducible intro _ _); decide +revert)
      | with_reducible apply Moves.after (State.setLport_moves ..)
  try clear_value a7
  have h8 : Moves [.od, .io, .ledgerPorts] s a8 := by
    unfold a8
    repeat' first
      | with_reducible exact Moves.refl _ _
      | with_reducible assumption
      | ((with_reducible intro _ _); decide +revert)
      | with_reducible apply Moves.ite
      | with_reducible apply Moves.after (State.setBooking_moves ..)
      | with_reducible apply Moves.after (State.showLedger_moves ..)
  try clear_value a8
  repeat' first
    | with_reducible exact Moves.refl _ _
    | with_reducible assumption
    | ((with_reducible intro _ _); decide +revert)
    | with_reducible apply Moves.ite
    | with_reducible apply Moves.after (State.portEvent_moves ..)

theorem State.ledgerSink_moves (s : State) (p : Port) : Moves [.od, .odNew, .io, .cmps, .paths, .ledgerPorts] s (State.ledgerSink s p) := by
  unfold State.ledgerSink
  extract_lets a1
  have h1 : Moves [.od, .odNew, .io, .cmps, .paths, .ledgerPorts] s a1 := by
    unfold a1
    repeat' first
      | with_reducible exact Moves.refl _ _
      | with_reducible assumption
      | ((with_reducible intro _ _); decide +revert)
      | with_reducible apply Moves.ite
      | with_reducible apply Moves.after (State.frsWithdraw_moves ..)
  try clear_value a1
  repeat' first
    | with_reducible exact Moves.refl _ _
    | with_reducible assumption
    | ((with_reducible intro _ _); decide +revert)
    | with_reducible apply Moves.after (State.ledgerLimit_moves ..)

theorem State.ledgerPort_moves (s : State) (cs : List SlotCopy) (all : Bool) (p : Port) : Moves [.od, .odNew, .io, .cmps, .paths, .ledgerPorts, .ledger, .ports, .recorder] s (State.ledgerPort s cs all p) := by
  unfold State.ledgerPort
  repeat' first
    | with_reducible exact Moves.refl _ _
    | ((with_reducible intro _ _); decide +revert)
    | with_reducible apply Moves.ite
    | with_reducible refine Moves.foldl (fun _ _ => ?_) ?_
    | with_reducible apply Moves.after (State.ledgerCut_moves ..)
    | with_reducible apply Moves.after (State.ledgerLimit_moves ..)
    | with_reducible apply Moves.after (State.ledgerSink_moves ..)

theorem State.ledgerShed_moves (s : State) (t : Nat) : Moves [.od, .odNew, .io, .cmps, .paths, .slots, .ledgerPorts, .ledger, .ports, .recorder] s (State.ledgerShed s t) := by
  unfold State.ledgerShed
  try dsimp only
  repeat' first
    | with_reducible exact Moves.refl _ _
    | with_reducible assumption
    | ((with_reducible intro _ _); decide +revert)
    | with_reducible apply Moves.ite
    | with_reducible refine Moves.foldl (fun _ _ => ?_) ?_
    | with_reducible apply Moves.after (State.alert_moves ..)
    | with_reducible apply Moves.after (State.budgetFree_moves ..)
    | with_reducible apply Moves.after (State.count_moves ..)
    | with_reducible apply Moves.after (State.flushClass_moves ..)
    | with_reducible apply Moves.after (State.ledgerFlag_moves ..)
    | with_reducible apply Moves.after (State.ledgerPort_moves ..)
    | with_reducible apply Moves.after (State.refreshBudget_moves ..)
    | with_reducible apply Moves.after (State.setAvail_moves ..)
    | with_reducible apply Moves.after (State.setSlot_moves ..)
    | with_reducible apply Moves.after (State.wr_moves ..)
    | with_reducible apply Moves.after (Moves.upd_ledger _ _)

theorem State.restoreFinish_moves (s : State) : Moves [.od, .slots, .ledger] s (State.restoreFinish s) := by
  unfold State.restoreFinish
  extract_lets a1 a2 a3
  have h1 : Moves [.od, .slots, .ledger] s a1 := by
    unfold a1
    repeat' first
      | with_reducible exact Moves.refl _ _
      | decide
      | with_reducible apply Moves.after (State.setSlot_moves ..)
      | with_reducible apply Moves.foldl
      | intro _ _
  try clear_value a1
  have h2 : Moves [.od, .slots, .ledger] s a2 := by
    unfold a2
    with_reducible repeat' first
      | assumption
      | decide
      | apply Moves.after (State.ledgerFlag_moves ..)
  try clear_value a2
  try clear_value a3
  with_reducible repeat' first
    | assumption
    | decide
    | apply Moves.after (Moves.upd_ledger ..)

theorem State.restoreCheck_moves (s : State) : Moves [.od, .slots, .ledger] s (State.restoreCheck s) := by
  unfold State.restoreCheck
  with_reducible repeat' first
    | exact Moves.refl _ _
    | decide
    | apply Moves.ite
    | apply Moves.after (State.restoreFinish_moves ..)

theorem State.restoreBegin_moves (s : State) : Moves [.od, .odNew, .io, .paths, .slots, .ledgerPorts, .ledger, .ports, .recorder] s (State.restoreBegin s) := by
  unfold State.restoreBegin
  extract_lets a1 a2 a3 a4
  try clear_value a1
  have h2 : Moves [.od, .odNew, .io, .paths, .slots, .ledgerPorts, .ledger, .ports, .recorder] s a2 := by
    unfold a2
    with_reducible repeat' first
      | exact Moves.refl _ _
      | decide
      | apply Moves.after (State.refreshBudget_moves ..)
      | apply Moves.after (Moves.upd_ledger ..)
  try clear_value a2
  have h3 : Moves [.od, .odNew, .io, .paths, .slots, .ledgerPorts, .ledger, .ports, .recorder] s a3 := by
    unfold a3
    with_reducible repeat' first
      | assumption
      | decide
      | apply Moves.after (State.ledgerFlag_moves ..)
  try clear_value a3
  have h4 : Moves [.od, .odNew, .io, .paths, .slots, .ledgerPorts, .ledger, .ports, .recorder] s a4 := by
    unfold a4
    repeat' first
      | with_reducible exact Moves.refl _ _
      | with_reducible assumption
      | decide
      | with_reducible apply Moves.ite
      | with_reducible apply Moves.after (State.setLport_moves ..)
      | with_reducible apply Moves.after (State.readvertise_moves ..)
      | with_reducible apply Moves.foldl
      | intro _ _
  try clear_value a4
  with_reducible repeat' first
    | assumption
    | decide
    | apply Moves.after (State.restoreCheck_moves ..)

theorem State.tileRelease_moves (s : State) (p : Port) : Moves [.od, .odNew, .paths, .ports] s (State.tileRelease s p) := by
  unfold State.tileRelease
  repeat' first
    | with_reducible exact Moves.refl _ _
    | ((with_reducible intro _ _); decide +revert)
    | with_reducible apply Moves.ite
    | with_reducible apply Moves.after (State.flag_moves ..)
    | with_reducible apply Moves.after (State.leaveRecovery_moves ..)
    | with_reducible apply Moves.after (State.setPath_moves ..)
    | with_reducible apply Moves.after (State.setPp_moves ..)
    | with_reducible apply Moves.after (State.setWinI_moves ..)
    | extract_lets

theorem State.restoreLimited_moves (s : State) (p : Port) : Moves [.od, .odNew, .io, .paths, .ledgerPorts, .ledger, .ports, .recorder] s (State.restoreLimited s p) := by
  unfold State.restoreLimited
  extract_lets a1 a2
  try clear_value a1
  have h2 : Moves [.od, .odNew, .io, .paths, .ledgerPorts, .ledger, .ports, .recorder] s a2 := by
    unfold a2
    with_reducible repeat' first
      | exact Moves.refl _ _
      | decide
      | apply Moves.after (State.setLport_moves ..)
  try clear_value a2
  with_reducible repeat' first
    | assumption
    | decide
    | apply Moves.after (State.portEvent_moves ..)
    | apply Moves.after (State.showLedger_moves ..)
    | apply Moves.after (State.readvertise_moves ..)
    | apply Moves.after (State.tileRelease_moves ..)

theorem State.restoreCut_moves (s : State) (p : Port) : Moves [.od, .odNew, .io, .paths, .ledgerPorts, .ports] s (State.restoreCut s p) := by
  unfold State.restoreCut
  extract_lets a1 a2 a3
  try clear_value a1
  have h2 : Moves [.od, .odNew, .io, .paths, .ledgerPorts, .ports] s a2 := by
    unfold a2
    with_reducible repeat' first
      | exact Moves.refl _ _
      | decide
      | apply Moves.after (State.setLport_moves ..)
  try clear_value a2
  have h3 : Moves [.od, .odNew, .io, .paths, .ledgerPorts, .ports] s a3 := by
    unfold a3
    with_reducible repeat' first
      | assumption
      | decide
      | apply Moves.after (State.wP_moves ..)
      | apply Moves.after (State.book_moves ..)
  try clear_value a3
  with_reducible repeat' first
    | assumption
    | decide
    | apply Moves.after (State.portEvent_moves ..)
    | apply Moves.after (State.tileRelease_moves ..)

theorem State.restoreStep_moves (s : State) : Moves [.od, .odNew, .io, .paths, .slots, .ledgerPorts, .ledger, .ports, .recorder] s (State.restoreStep s) := by
  unfold State.restoreStep
  repeat' first
    | with_reducible exact Moves.refl _ _
    | decide
    | with_reducible apply Moves.ite
    | with_reducible apply Moves.after (State.restoreCheck_moves ..)
    | with_reducible apply Moves.after (State.restoreLimited_moves ..)
    | with_reducible apply Moves.after (State.restoreCut_moves ..)
    | split

theorem State.setPeer_moves (s : State) (q : Peer) : Moves [.ledger] s (State.setPeer s q) := by
  unfold State.setPeer
  extract_lets a1 a2
  try clear_value a1
  try clear_value a2
  with_reducible repeat' first
    | exact Moves.refl _ _
    | decide
    | apply Moves.after (Moves.upd_ledger ..)

theorem State.sendFrame_moves (s : State) (round : Nat) : Moves [.ledger] s (State.sendFrame s round) := by
  unfold State.sendFrame
  extract_lets a1
  try clear_value a1
  with_reducible repeat' first
    | exact Moves.refl _ _
    | decide
    | apply Moves.after (Moves.upd_ledger ..)

theorem State.peerLostFlag_moves (s : State) : Moves [.od] s (State.peerLostFlag s) := by
  unfold State.peerLostFlag
  with_reducible repeat' first
    | exact Moves.refl _ _
    | decide
    | apply Moves.after (State.ledgerFlag_moves ..)

theorem State.syncPeers_moves (s : State) : Moves [.od, .ledgerPorts, .ledger] s (State.syncPeers s) := by
  unfold State.syncPeers
  extract_lets a1 a2 a3 a4 a5 a6
  clear_value a1
  clear_value a2
  clear_value a3
  have h4 : Moves [.od, .ledgerPorts, .ledger] s a4 := by
    unfold a4
    repeat' first
      | with_reducible exact Moves.refl _ _
      | with_reducible assumption
      | ((with_reducible intro _ _); decide +revert)
      | with_reducible apply Moves.ite
      | with_reducible refine Moves.foldl (fun _ _ => ?_) ?_
      | with_reducible apply Moves.after (State.ledgerFlag_moves ..)
      | with_reducible apply Moves.after (State.peerLostFlag_moves ..)
      | with_reducible apply Moves.after (State.setLport_moves ..)
      | with_reducible apply Moves.after (Moves.upd_ledger _ _)
  clear_value a4
  clear_value a5
  have h6 : Moves [.od, .ledgerPorts, .ledger] s a6 := by
    unfold a6
    repeat' first
      | with_reducible exact Moves.refl _ _
      | with_reducible assumption
      | ((with_reducible intro _ _); decide +revert)
      | with_reducible apply Moves.ite
      | with_reducible refine Moves.foldl (fun _ _ => ?_) ?_
      | with_reducible apply Moves.after (State.ledgerFlag_moves ..)
      | with_reducible apply Moves.after (State.peerLostFlag_moves ..)
      | with_reducible apply Moves.after (State.setLport_moves ..)
      | with_reducible apply Moves.after (Moves.upd_ledger _ _)
  clear_value a6
  repeat' first
    | with_reducible exact Moves.refl _ _
    | with_reducible assumption
    | ((with_reducible intro _ _); decide +revert)
    | with_reducible apply Moves.ite
    | with_reducible refine Moves.foldl (fun _ _ => ?_) ?_
    | with_reducible apply Moves.after (State.ledgerFlag_moves ..)
    | with_reducible apply Moves.after (State.peerLostFlag_moves ..)
    | with_reducible apply Moves.after (State.setLport_moves ..)
    | with_reducible apply Moves.after (Moves.upd_ledger _ _)

theorem State.applyLedgerConfig_moves (s : State) : Moves [.od, .odNew, .blob, .io, .slots, .ledgerPorts, .ledger] s (State.applyLedgerConfig s) := by
  unfold State.applyLedgerConfig
  repeat' first
    | with_reducible exact Moves.refl _ _
    | ((with_reducible intro _ _); decide +revert)
    | with_reducible apply Moves.ite
    | with_reducible refine Moves.foldl (fun _ _ => ?_) ?_
    | with_reducible apply Moves.after (State.applyKeys_moves ..)
    | with_reducible apply Moves.after (State.applyString_moves ..)
    | with_reducible apply Moves.after (State.recompute_moves ..)
    | with_reducible apply Moves.after (State.refreshBudget_moves ..)
    | with_reducible apply Moves.after (State.syncPeers_moves ..)
    | extract_lets

theorem State.refreshFeed_moves (s : State) (f : Feed) : Moves [.od] s (State.refreshFeed s f) := by
  unfold State.refreshFeed
  with_reducible repeat' first
    | exact Moves.refl _ _
    | decide
    | apply Moves.ite
    | apply Moves.after (State.wF_moves ..)

theorem State.setFeedCodes_moves (s : State) (f : Feed) : Moves [.od] s (State.setFeedCodes s f) := by
  unfold State.setFeedCodes
  extract_lets a1 a2
  try clear_value a1
  have h2 : Moves [.od] s a2 := by
    unfold a2
    with_reducible repeat' first
      | exact Moves.refl _ _
      | decide
      | apply Moves.after (State.wC_moves ..)
  try clear_value a2
  with_reducible repeat' first
    | assumption
    | decide
    | apply Moves.after (State.wC_moves ..)

theorem State.feedPg_moves (s : State) (f : Feed) (b : Bool) : Moves [.od, .io, .ledger] s (State.feedPg s f b) := by
  unfold State.feedPg
  with_reducible repeat' first
    | exact Moves.refl _ _
    | decide
    | apply Moves.after (State.flag_moves ..)
    | apply Moves.after (State.setAvail_moves ..)

theorem State.applyFeed_moves (s : State) (f : Feed) : Moves [.od, .odNew] s (State.applyFeed s f) := by
  unfold State.applyFeed
  repeat' first
    | with_reducible exact Moves.refl _ _
    | ((with_reducible intro _ _); decide +revert)
    | with_reducible apply Moves.after (State.applyKeys_moves ..)
    | with_reducible apply Moves.after (State.setFeedCodes_moves ..)

theorem State.feedLoss_moves (s : State) (f : Feed) (c : LossCause) : Moves [.od, .odNew, .io, .cmps, .feeds, .ledger, .tiles, .recorder] s (State.feedLoss s f c) := by
  unfold State.feedLoss
  repeat' first
    | with_reducible exact Moves.refl _ _
    | ((with_reducible intro _ _); decide +revert)
    | with_reducible apply Moves.ite
    | with_reducible apply Moves.after (State.alert_moves ..)
    | with_reducible apply Moves.after (State.applyFeed_moves ..)
    | with_reducible apply Moves.after (State.count_moves ..)
    | with_reducible apply Moves.after (State.feedPg_moves ..)
    | with_reducible apply Moves.after (State.flag_moves ..)
    | with_reducible apply Moves.after (State.flushClass_moves ..)
    | with_reducible apply Moves.after (State.idleFeed_moves ..)
    | with_reducible apply Moves.after (State.setFeed_moves ..)
    | with_reducible apply Moves.after (State.trigger_moves ..)
    | with_reducible apply Moves.after (State.wF_moves ..)
    | extract_lets

theorem State.feedFault_moves (s : State) (f : Feed) (code : Int) : Moves [.od, .odNew, .io, .cmps, .feeds, .ledger, .tiles, .recorder] s (State.feedFault s f code) := by
  unfold State.feedFault
  repeat' first
    | with_reducible exact Moves.refl _ _
    | ((with_reducible intro _ _); decide +revert)
    | with_reducible apply Moves.ite
    | with_reducible apply Moves.after (State.alert_moves ..)
    | with_reducible apply Moves.after (State.feedLoss_moves ..)
    | with_reducible apply Moves.after (State.wF_moves ..)

theorem State.feedWatch_moves (s : State) (f : Feed) (k : CmpHw) (flt : Int) (c : LossCause) : Moves [.od, .odNew, .io, .cmps, .feeds, .ledger, .tiles, .recorder] s (State.feedWatch s f k flt c) := by
  unfold State.feedWatch
  repeat' first
    | with_reducible exact Moves.refl _ _
    | ((with_reducible intro _ _); decide +revert)
    | with_reducible apply Moves.ite
    | with_reducible apply Moves.after (State.feedFault_moves ..)
    | with_reducible apply Moves.after (State.feedLoss_moves ..)

theorem State.feedNoStart_moves (s : State) (f : Feed) : Moves [.od, .odNew, .cmps, .feeds] s (State.feedNoStart s f) := by
  unfold State.feedNoStart
  repeat' first
    | with_reducible exact Moves.refl _ _
    | ((with_reducible intro _ _); decide +revert)
    | with_reducible apply Moves.after (State.feedGiveUp_moves ..)
    | with_reducible apply Moves.after (State.refreshFeed_moves ..)

theorem State.feedRamp_moves (s : State) (f : Feed) : Moves [.od, .odNew, .io, .cmps, .feeds, .ledger, .tiles, .recorder] s (State.feedRamp s f) := by
  unfold State.feedRamp
  extract_lets a1 a2 a3
  try clear_value a1
  have h2 : Moves [.od, .odNew, .io, .cmps, .feeds, .ledger, .tiles, .recorder] s a2 := by
    unfold a2
    with_reducible repeat' first
      | exact Moves.refl _ _
      | decide
      | apply Moves.after (State.setFeed_moves ..)
  try clear_value a2
  have h3 : Moves [.od, .odNew, .io, .cmps, .feeds, .ledger, .tiles, .recorder] s a3 := by
    unfold a3
    with_reducible repeat' first
      | assumption
      | decide
      | apply Moves.after (State.wF_moves ..)
  try clear_value a3
  with_reducible repeat' first
    | assumption
    | decide
    | apply Moves.after (State.feedWatch_moves ..)

theorem State.feedChecked_moves (s : State) (f : Feed) (ok : Bool) : Moves [.od, .odNew, .io, .cmps, .feeds, .ledger, .tiles, .recorder] s (State.feedChecked s f ok) := by
  unfold State.feedChecked
  with_reducible repeat' first
    | exact Moves.refl _ _
    | decide
    | apply Moves.ite
    | apply Moves.after (State.wF_moves ..)
    | apply Moves.after (State.feedNoStart_moves ..)
    | apply Moves.after (State.feedRamp_moves ..)

theorem execFeedCmdClear_moves (r0 : State) (f : Feed) (s : State) : Moves [.od, .pins] s (stateOf r0 (execFeedCmdClear f s)) := by
  unfold execFeedCmdClear
  refine Moves.after (settle_moves _) (by decide) ?_
  with_reducible repeat' first
    | exact Moves.refl _ _
    | decide
    | apply Moves.ite
    | apply Moves.after (State.wF_moves ..)

theorem execFeedCmdOff_moves (r0 : State) (f : Feed) (s : State) : Moves [.od, .odNew, .io, .cmps, .feeds, .ledger, .tiles, .pins, .recorder] s (stateOf r0 (execFeedCmdOff f s)) := by
  unfold execFeedCmdOff
  refine Moves.after (settle_moves _) (by decide) ?_
  extract_lets a1
  have h1 : Moves [.od, .odNew, .io, .cmps, .feeds, .ledger, .tiles, .pins, .recorder] s a1 := by
    unfold a1
    repeat' first
      | with_reducible exact Moves.refl _ _
      | with_reducible assumption
      | ((with_reducible intro _ _); decide +revert)
      | with_reducible apply Moves.after (State.feedGiveUp_moves ..)
  try clear_value a1
  repeat' first
    | with_reducible exact Moves.refl _ _
    | with_reducible assumption
    | ((with_reducible intro _ _); decide +revert)
    | with_reducible apply Moves.after (State.feedLoss_moves ..)
    | with_reducible apply Moves.after (State.refreshFeed_moves ..)
    | with_reducible apply Moves.after (State.setFeed_moves ..)
    | extract_lets

theorem execFeedCmdOn_moves (r0 : State) (f : Feed) (s : State) : Moves [.od, .feeds, .pins] s (stateOf r0 (execFeedCmdOn f s)) := by
  unfold execFeedCmdOn
  extract_lets a1
  try clear_value a1
  refine Moves.after (settle_moves _) (by decide) ?_
  with_reducible repeat' first
    | exact Moves.refl _ _
    | decide
    | apply Moves.after (State.setFeed_moves ..)
    | apply Moves.after (State.refreshFeed_moves ..)

theorem execLqAdmit_moves (r0 : State) (p : Port) (w : Nat) (s : State) : Moves [.od, .odNew, .io, .ledgerPorts, .ledger, .pins] s (stateOf r0 (execLqAdmit p w s)) := by
  unfold execLqAdmit
  refine Moves.after (settle_moves _) (by decide) ?_
  with_reducible repeat' first
    | exact Moves.refl _ _
    | decide
    | apply Moves.after (State.admitPower_moves ..)

theorem execLqReserve_moves (r0 : State) (p : Port) (w : Nat) (s : State) : Moves [.od, .odNew, .io, .ledgerPorts, .ledger, .pins] s (stateOf r0 (execLqReserve p w s)) := by
  unfold execLqReserve
  refine Moves.after (settle_moves _) (by decide) ?_
  with_reducible repeat' first
    | exact Moves.refl _ _
    | decide
    | apply Moves.after (State.admitPower_moves ..)

theorem execLqRelease_moves (r0 : State) (p : Port) (s : State) : Moves [.od, .io, .ledgerPorts, .ledger, .pins] s (stateOf r0 (execLqRelease p s)) := by
  unfold execLqRelease
  refine Moves.after (settle_moves _) (by decide) ?_
  with_reducible repeat' first
    | exact Moves.refl _ _
    | decide
    | apply Moves.after (State.lqAnswer_moves ..)
    | apply Moves.after (State.grant_moves ..)

theorem execLqLower_moves (r0 : State) (p : Port) (w : Nat) (s : State) : Moves [.od, .io, .ledgerPorts, .ledger, .pins] s (stateOf r0 (execLqLower p w s)) := by
  unfold execLqLower
  refine Moves.after (settle_moves _) (by decide) ?_
  with_reducible repeat' first
    | exact Moves.refl _ _
    | decide
    | apply Moves.after (State.iow_moves ..)
    | apply Moves.after (State.lqAnswer_moves ..)
    | apply Moves.after (State.grant_moves ..)

theorem State.tileCut_moves (s : State) (p : Port) : Moves [.od, .odNew, .io, .cmps, .paths, .tiles] s (State.tileCut s p) := by
  unfold State.tileCut
  repeat' first
    | with_reducible exact Moves.refl _ _
    | ((with_reducible intro _ _); decide +revert)
    | with_reducible apply Moves.ite
    | with_reducible apply Moves.after (State.gateOff_moves ..)
    | with_reducible apply Moves.after (State.setPath_moves ..)
    | extract_lets

theorem State.tileLimit_moves (s : State) (p : Port) (code : Int) : Moves [.od, .paths] s (State.tileLimit s p code) := by
  unfold State.tileLimit
  extract_lets a1
  try clear_value a1
  with_reducible repeat' first
    | exact Moves.refl _ _
    | decide
    | apply Moves.ite
    | apply Moves.after (State.setPath_moves ..)
    | apply Moves.after (State.flag_moves ..)
    | apply Moves.after (State.setWinI_moves ..)

theorem execLedgerCmdRecompute_moves (r0 : State) (s : State) : Moves [.od, .odNew, .slots, .pins, .answer] s (stateOf r0 (execLedgerCmdRecompute s)) := by
  unfold execLedgerCmdRecompute
  refine Moves.after (settle_moves _) (by decide) ?_
  with_reducible repeat' first
    | exact Moves.refl _ _
    | decide
    | apply Moves.after (State.reply_moves ..)
    | apply Moves.after (State.recompute_moves ..)

theorem execLedgerCmdForgetPeer_moves (r0 : State) (s : State) : Moves [.od, .ledger, .pins, .answer] s (stateOf r0 (execLedgerCmdForgetPeer s)) := by
  unfold execLedgerCmdForgetPeer
  extract_lets a1 a2
  try clear_value a1
  try clear_value a2
  refine Moves.after (settle_moves _) (by decide) ?_
  with_reducible repeat' first
    | exact Moves.refl _ _
    | decide
    | apply Moves.after (State.reply_moves ..)
    | apply Moves.after (State.peerLostFlag_moves ..)
    | apply Moves.after (Moves.upd_ledger ..)

theorem execLedgerCmdClearFlags_moves (r0 : State) (s : State) : Moves [.od, .pins, .answer] s (stateOf r0 (execLedgerCmdClearFlags s)) := by
  unfold execLedgerCmdClearFlags
  refine Moves.after (settle_moves _) (by decide) ?_
  repeat' first
    | with_reducible exact Moves.refl _ _
    | decide
    | with_reducible apply Moves.after (State.reply_moves ..)
    | with_reducible apply Moves.after (State.ledgerFlag_moves ..)
    | with_reducible apply Moves.foldl
    | intro _ _

theorem execLedgerCmdAbortRestore_moves (r0 : State) (s : State) : Moves [.od, .pins, .answer] s (stateOf r0 (execLedgerCmdAbortRestore s)) := by
  unfold execLedgerCmdAbortRestore
  refine Moves.after (settle_moves _) (by decide) ?_
  with_reducible repeat' first
    | exact Moves.refl _ _
    | decide
    | apply Moves.ite
    | apply Moves.after (State.reply_moves ..)
    | apply Moves.after (State.ledgerFlag_moves ..)

theorem execLedgerCmdResumeRestore_moves (r0 : State) (s : State) : Moves [.od, .pins, .answer] s (stateOf r0 (execLedgerCmdResumeRestore s)) := by
  unfold execLedgerCmdResumeRestore
  refine Moves.after (settle_moves _) (by decide) ?_
  with_reducible repeat' first
    | exact Moves.refl _ _
    | decide
    | apply Moves.ite
    | apply Moves.after (State.reply_moves ..)
    | apply Moves.after (State.ledgerFlag_moves ..)

theorem execShedCmdApply_moves (r0 : State) (n : Slot) (s : State) : Moves [.od, .ledger, .tiles, .pins, .answer] s (stateOf r0 (execShedCmdApply n s)) := by
  unfold execShedCmdApply
  refine Moves.after (settle_moves _) (by decide) ?_
  with_reducible repeat' first
    | exact Moves.refl _ _
    | decide
    | apply Moves.ite
    | apply Moves.after (State.reply_moves ..)
    | apply Moves.after (State.trigger_moves ..)

theorem execShedCmdRelease_moves (r0 : State) (n : Slot) (s : State) : Moves [.slots, .pins, .answer] s (stateOf r0 (execShedCmdRelease n s)) := by
  unfold execShedCmdRelease
  extract_lets a1
  try clear_value a1
  refine Moves.after (settle_moves _) (by decide) ?_
  with_reducible repeat' first
    | exact Moves.refl _ _
    | decide
    | apply Moves.ite
    | apply Moves.after (State.setSlot_moves ..)
    | apply Moves.after (State.reply_moves ..)

theorem State.refreshUnc_moves (s : State) (c : Conv) : Moves [.mets] s (State.refreshUnc s c) := by
  unfold State.refreshUnc
  with_reducible repeat' first
    | exact Moves.refl _ _
    | decide
    | apply Moves.ite
    | apply Moves.after (Moves.upd_mets ..)

theorem State.refreshUncAll_moves (s : State) : Moves [.mets] s (State.refreshUncAll s) := by
  unfold State.refreshUncAll
  with_reducible repeat' first
    | exact Moves.refl _ _
    | decide
    | apply Moves.after (Moves.upd_mets ..)

theorem State.cutAll_moves (s : State) (sel : Fin 100 → Bool) (c : Cut) : Moves [.mets] s (State.cutAll s sel c) := by
  unfold State.cutAll
  with_reducible repeat' first
    | exact Moves.refl _ _
    | decide
    | apply Moves.after (Moves.upd_mets ..)

theorem State.pushVolt_moves (s : State) (x : Fin 100) (t : Nat) (v : Int) : Moves [.mets] s (State.pushVolt s x t v) := by
  unfold State.pushVolt
  extract_lets a1
  try clear_value a1
  with_reducible repeat' first
    | exact Moves.refl _ _
    | decide
    | apply Moves.after (State.setMet_moves ..)

theorem State.meterVolt_moves (s : State) (x : Fin 100) (ovr : Bool) (t : Nat) (v : Int) : Moves [.mets] s (State.meterVolt s x ovr t v) := by
  unfold State.meterVolt
  extract_lets a1
  try clear_value a1
  with_reducible repeat' first
    | exact Moves.refl _ _
    | decide
    | apply Moves.after (State.setMet_moves ..)

theorem State.meterAmp_moves (s : State) (x : Fin 100) (ovr : Bool) (t : Nat) (i : Int) : Moves [.mets] s (State.meterAmp s x ovr t i) := by
  unfold State.meterAmp
  extract_lets a1 a2
  try clear_value a1
  try clear_value a2
  with_reducible repeat' first
    | exact Moves.refl _ _
    | decide
    | apply Moves.after (State.setMet_moves ..)

theorem State.meter_moves (s : State) (c : Conv) (ch : Nat) (code : Int) (ovr : Bool) (t : Nat) (die : Int) : Moves [.ref, .mets] s (State.meter s c ch code ovr t die) := by
  unfold State.meter
  extract_lets a1 a2 a3 a4
  try clear_value a1
  try clear_value a2
  try clear_value a3
  try clear_value a4
  repeat' first
    | with_reducible exact Moves.refl _ _
    | decide
    | with_reducible apply Moves.ite
    | with_reducible apply Moves.after (State.setMet_moves ..)
    | with_reducible apply Moves.after (State.pushVolt_moves ..)
    | with_reducible apply Moves.after (State.meterVolt_moves ..)
    | with_reducible apply Moves.after (State.meterAmp_moves ..)
    | split
    | dsimp only
    | with_reducible apply Moves.after (Moves.upd_ref ..)

theorem State.protect_moves (s : State) (p : Port) (code : Int) (g : Nat) (t : Nat) : Moves [.od, .paths] s (State.protect s p code g t) := by
  unfold State.protect
  extract_lets a1 a2 a3 a4 a5 a6 a7 a8 a9 a10
  try clear_value a1
  try clear_value a2
  try clear_value a3
  try clear_value a4
  try clear_value a5
  try clear_value a6
  try clear_value a7
  try clear_value a8
  have h9 : Moves [.od, .paths] s a9 := by
    unfold a9
    repeat' first
      | with_reducible exact Moves.refl _ _
      | with_reducible assumption
      | ((with_reducible intro _ _); decide +revert)
      | with_reducible apply Moves.ite
      | with_reducible apply Moves.after (State.setPath_moves ..)
  try clear_value a9
  have h10 : Moves [.od, .paths] s a10 := by
    unfold a10
    repeat' first
      | with_reducible exact Moves.refl _ _
      | with_reducible assumption
      | ((with_reducible intro _ _); decide +revert)
      | with_reducible apply Moves.ite
      | with_reducible apply Moves.after (State.sendTrips_moves ..)
  try clear_value a10
  repeat' first
    | with_reducible exact Moves.refl _ _
    | with_reducible assumption
    | ((with_reducible intro _ _); decide +revert)
    | with_reducible apply Moves.after (State.flag_moves ..)
    | with_reducible apply Moves.after (State.wP_moves ..)

theorem State.setTqReg_moves (s : State) (c : Conv) (off : Nat) (v : Int) : Moves [.io] s (State.setTqReg s c off v) := by
  unfold State.setTqReg
  with_reducible repeat' first
    | exact Moves.refl _ _
    | decide
    | apply Moves.after (State.iow_moves ..)

theorem State.tqBit_moves (s : State) (c : Conv) (off : Nat) (i : Nat) (b : Bool) : Moves [.io] s (State.tqBit s c off i b) := by
  unfold State.tqBit
  with_reducible repeat' first
    | exact Moves.refl _ _
    | decide
    | apply Moves.after (State.setTqReg_moves ..)

theorem State.setFactors_moves (s : State) (c : Conv) (f : List Int) : Moves [.od] s (State.setFactors s c f) := by
  unfold State.setFactors
  repeat' first
    | with_reducible exact Moves.refl _ _
    | decide
    | with_reducible apply Moves.after (State.wV_moves ..)
    | with_reducible apply Moves.foldl
    | intro _ _

theorem State.boundary_moves (s : State) (c : Conv) : Moves [.od, .odNew, .paths, .convs, .mets] s (State.boundary s c) := by
  unfold State.boundary
  try dsimp only
  repeat' first
    | with_reducible exact Moves.refl _ _
    | with_reducible assumption
    | ((with_reducible intro _ _); decide +revert)
    | with_reducible apply Moves.ite
    | with_reducible apply Moves.after (State.applyKeys_moves ..)
    | with_reducible apply Moves.after (State.dischargesOf_moves ..)
    | with_reducible apply Moves.after (State.refreshUnc_moves ..)
    | with_reducible apply Moves.after (State.setConv_moves ..)
    | with_reducible apply Moves.after (State.setFactors_moves ..)

theorem State.beginPass_moves (s : State) (c : Conv) : Moves [.od, .convs] s (State.beginPass s c) := by
  unfold State.beginPass
  extract_lets a1
  try clear_value a1
  with_reducible repeat' first
    | exact Moves.refl _ _
    | decide
    | apply Moves.after (State.wV_moves ..)
    | apply Moves.after (State.setConv_moves ..)

theorem State.overrun_moves (s : State) (c : Conv) : Moves [.od] s (State.overrun s c) := by
  unfold State.overrun
  with_reducible repeat' first
    | exact Moves.refl _ _
    | decide
    | apply Moves.after (State.count_moves ..)

theorem State.inject_moves (s : State) (c : Conv) (w : Nat) (room : Nat) : Moves [.od, .io, .convs] s (State.inject s c w room) := by
  unfold State.inject
  extract_lets a1
  try clear_value a1
  repeat' first
    | with_reducible exact Moves.refl _ _
    | decide
    | with_reducible apply Moves.ite
    | with_reducible apply Moves.after (State.setConv_moves ..)
    | with_reducible apply Moves.after (State.count_moves ..)
    | with_reducible apply Moves.after (State.setTqReg_moves ..)
    | with_reducible apply Moves.after (State.tqBit_moves ..)
    | split

theorem State.toLane_moves (s : State) (c : Conv) (e : TqEntry) : Moves [.od, .io, .convs] s (State.toLane s c e) := by
  unfold State.toLane
  extract_lets a1
  try clear_value a1
  with_reducible repeat' first
    | exact Moves.refl _ _
    | decide
    | apply Moves.ite
    | apply Moves.after (State.setConv_moves ..)
    | apply Moves.after (State.count_moves ..)
    | apply Moves.after (State.tqBit_moves ..)

theorem State.markLane_moves (s : State) (c : Conv) (n : Nat) (t : Nat) : Moves [.convs] s (State.markLane s c n t) := by
  unfold State.markLane
  extract_lets a1
  try clear_value a1
  with_reducible repeat' first
    | exact Moves.refl _ _
    | decide
    | apply Moves.ite
    | apply Moves.after (State.setConv_moves ..)

theorem State.serveLane_moves (s : State) (c : Conv) : Moves [.od, .io, .convs, .ref] s (State.serveLane s c) := by
  unfold State.serveLane
  extract_lets a1 a2
  try clear_value a1
  try clear_value a2
  repeat' first
    | with_reducible exact Moves.refl _ _
    | decide
    | with_reducible apply Moves.ite
    | with_reducible apply Moves.after (State.wr_moves ..)
    | with_reducible apply Moves.after (State.setConv_moves ..)
    | with_reducible apply Moves.after (State.tqBit_moves ..)
    | split
    | dsimp only
    | with_reducible apply Moves.after (Moves.upd_ref ..)

theorem State.tqPop_moves (s : State) (c : Conv) : Moves [.io, .convs] s (State.tqPop s c).2 := by
  unfold State.tqPop
  extract_lets a1
  try clear_value a1
  repeat' first
    | with_reducible exact Moves.refl _ _
    | decide
    | with_reducible apply Moves.after (State.setConv_moves ..)
    | with_reducible apply Moves.after (State.setTqReg_moves ..)
    | split

theorem State.rebase_moves (s : State) (c : Conv) : Moves [.convs] s (State.rebase s c) := by
  unfold State.rebase
  dsimp only
  repeat' first
    | with_reducible exact Moves.refl _ _
    | with_reducible assumption
    | decide
    | with_reducible apply Moves.after (State.markLane_moves ..)
    | with_reducible apply Moves.after (State.setConv_moves ..)
    | split

theorem State.charge_moves (s : State) (c : Conv) (charged : Bool) (passed : Bool) : Moves [.od, .convs, .mets] s (State.charge s c charged passed) := by
  unfold State.charge
  extract_lets a1 a2 a3 a4 a5 a6
  try clear_value a1
  try clear_value a2
  try clear_value a3
  try clear_value a4
  try clear_value a5
  have h6 : Moves [.od, .convs, .mets] s a6 := by
    unfold a6
    with_reducible repeat' first
      | exact Moves.refl _ _
      | decide
      | apply Moves.after (State.setConv_moves ..)
  try clear_value a6
  with_reducible repeat' first
    | assumption
    | decide
    | apply Moves.ite
    | apply Moves.after (State.count_moves ..)
    | apply Moves.after (State.refreshUnc_moves ..)

theorem State.compareChk_moves (s : State) (c : Conv) (a : Int) (b : Int) : Moves [.od, .odNew, .convs, .mets] s (State.compareChk s c a b) := by
  unfold State.compareChk
  extract_lets a1 a2 a3 a4 a5 a6 a7 a8 a9
  have h1 : Moves [.od, .odNew, .convs, .mets] s a1 := by
    unfold a1
    with_reducible repeat' first
      | exact Moves.refl _ _
      | decide
      | apply Moves.after (State.applyKeys_moves ..)
  try clear_value a1
  try clear_value a2
  try clear_value a3
  try clear_value a4
  try clear_value a5
  try clear_value a6
  try clear_value a7
  have h8 : Moves [.od, .odNew, .convs, .mets] s a8 := by
    unfold a8
    with_reducible repeat' first
      | assumption
      | decide
      | apply Moves.after (State.charge_moves ..)
  try clear_value a8
  try clear_value a9
  with_reducible repeat' first
    | assumption
    | decide
    | apply Moves.after (State.setConv_moves ..)

theorem State.checkWord_moves (s : State) (c : Conv) (cyc : Nat) (x : Option ChkWord) : Moves [.od, .odNew, .convs, .mets] s (State.checkWord s c cyc x) := by
  unfold State.checkWord
  extract_lets a1 a2 a3 a4 a5 a6 a7 a8 a9
  try clear_value a1
  try clear_value a3
  have h4 : Moves [.od, .odNew, .convs, .mets] s a4 := by
    unfold a4
    with_reducible repeat' first
      | exact Moves.refl _ _
      | decide
      | apply Moves.ite
      | apply Moves.after (State.count_moves ..)
  try clear_value a4
  try clear_value a5
  have h6 : Moves [.od, .odNew, .convs, .mets] s a6 := by
    unfold a6
    with_reducible repeat' first
      | assumption
      | decide
      | apply Moves.after (State.setConv_moves ..)
  try clear_value a6
  try clear_value a7
  have h8 : Moves [.od, .odNew, .convs, .mets] s a8 := by
    unfold a8
    with_reducible repeat' first
      | assumption
      | decide
      | apply Moves.after (State.setConv_moves ..)
  try clear_value a8
  try clear_value a9
  repeat' first
    | with_reducible assumption
    | decide
    | with_reducible apply Moves.ite
    | with_reducible apply Moves.after (State.setConv_moves ..)
    | with_reducible apply Moves.after (State.count_moves ..)
    | with_reducible apply Moves.after (State.compareChk_moves ..)
    | split

theorem State.hodProtect_moves (s : State) (c : Conv) (r : Conversion) (tag : Nat) : Moves [.od, .paths] s (State.hodProtect s c r tag) := by
  unfold State.hodProtect
  dsimp only
  repeat' first
    | with_reducible exact Moves.refl _ _
    | with_reducible assumption
    | decide
    | with_reducible apply Moves.ite
    | with_reducible apply Moves.after (State.protect_moves ..)
    | split

theorem execCvCmdCal_moves (r0 : State) (s : State) : Moves [.od, .pins, .convs, .answer] s (stateOf r0 (execCvCmdCal s)) := by
  unfold execCvCmdCal
  extract_lets a1 a2
  try clear_value a1
  have h2 : Moves [.od, .pins, .convs, .answer] s a2 := by
    unfold a2
    repeat' first
      | with_reducible exact Moves.refl _ _
      | decide
      | with_reducible apply Moves.after (State.setConv_moves ..)
      | with_reducible apply Moves.foldl
      | intro _ _
  try clear_value a2
  refine Moves.after (settle_moves _) (by decide) ?_
  with_reducible repeat' first
    | exact Moves.refl _ _
    | assumption
    | decide
    | apply Moves.ite
    | apply Moves.after (State.wr_moves ..)
    | apply Moves.after (State.reply_moves ..)

theorem State.startConv_moves (s : State) (c : Conv) : Moves [.od, .convs] s (State.startConv s c) := by
  unfold State.startConv
  extract_lets a1 a2
  try clear_value a1
  try clear_value a2
  with_reducible repeat' first
    | exact Moves.refl _ _
    | decide
    | apply Moves.ite
    | apply Moves.after (State.setConv_moves ..)
    | apply Moves.after (State.overrun_moves ..)

theorem execCvCmdStart_moves (r0 : State) (s : State) : Moves [.od, .pins, .convs, .answer] s (stateOf r0 (execCvCmdStart s)) := by
  unfold execCvCmdStart
  extract_lets a1
  try clear_value a1
  refine Moves.after (settle_moves _) (by decide) ?_
  repeat' first
    | with_reducible exact Moves.refl _ _
    | decide
    | with_reducible apply Moves.ite
    | with_reducible apply Moves.after (State.reply_moves ..)
    | with_reducible apply Moves.after (State.startConv_moves ..)
    | with_reducible apply Moves.foldl
    | intro _ _

theorem State.stopConv_moves (s : State) (c : Conv) : Moves [.od, .odNew, .paths, .convs] s (State.stopConv s c) := by
  unfold State.stopConv
  extract_lets a1
  try clear_value a1
  repeat' first
    | with_reducible exact Moves.refl _ _
    | with_reducible assumption
    | ((with_reducible intro _ _); decide +revert)
    | with_reducible apply Moves.ite
    | with_reducible apply Moves.after (State.dischargesOf_moves ..)
    | with_reducible apply Moves.after (State.setConv_moves ..)

theorem execCvCmdStop_moves (r0 : State) (s : State) : Moves [.od, .odNew, .paths, .pins, .convs, .answer] s (stateOf r0 (execCvCmdStop s)) := by
  unfold execCvCmdStop
  refine Moves.after (settle_moves _) (by decide) ?_
  repeat' first
    | with_reducible exact Moves.refl _ _
    | ((with_reducible intro _ _); decide +revert)
    | with_reducible refine Moves.foldl (fun _ _ => ?_) ?_
    | with_reducible apply Moves.after (State.reply_moves ..)
    | with_reducible apply Moves.after (State.stopConv_moves ..)

theorem execCvCmdSave_moves (r0 : State) (s : State) : Moves [.odNew, .blob, .pins, .answer] s (stateOf r0 (execCvCmdSave s)) := by
  unfold execCvCmdSave
  refine Moves.after (settle_moves _) (by decide) ?_
  repeat' first
    | with_reducible exact Moves.refl _ _
    | ((with_reducible intro _ _); decide +revert)
    | with_reducible refine Moves.foldl (fun _ _ => ?_) ?_
    | with_reducible apply Moves.after (State.reply_moves ..)
    | with_reducible apply Moves.after (State.useText_moves ..)
    | with_reducible apply Moves.after (State.wrB_moves ..)

theorem execCvCmdLoad_moves (r0 : State) (s : State) : Moves [.od, .odNew, .blob, .paths, .pins, .convs, .mets, .answer] s (stateOf r0 (execCvCmdLoad s)) := by
  unfold execCvCmdLoad
  refine Moves.after (settle_moves _) (by decide) ?_
  extract_lets a1 a2
  try clear_value a1
  have h2 : Moves [.od, .odNew, .blob, .paths, .pins, .convs, .mets, .answer] s a2 := by
    unfold a2
    repeat' first
      | with_reducible exact Moves.refl _ _
      | with_reducible assumption
      | ((with_reducible intro _ _); decide +revert)
      | with_reducible refine Moves.foldl (fun _ _ => ?_) ?_
      | with_reducible apply Moves.after (State.useText_moves ..)
  try clear_value a2
  repeat' first
    | with_reducible exact Moves.refl _ _
    | with_reducible assumption
    | ((with_reducible intro _ _); decide +revert)
    | with_reducible apply Moves.ite
    | with_reducible refine Moves.foldl (fun _ _ => ?_) ?_
    | with_reducible apply Moves.after (State.boundary_moves ..)
    | with_reducible apply Moves.after (State.reply_moves ..)
    | with_reducible apply Moves.after (State.setConv_moves ..)
    | extract_lets

theorem execCvCmdClearCounters_moves (r0 : State) (s : State) : Moves [.od, .pins, .answer] s (stateOf r0 (execCvCmdClearCounters s)) := by
  unfold execCvCmdClearCounters
  extract_lets a1
  try clear_value a1
  refine Moves.after (settle_moves _) (by decide) ?_
  repeat' first
    | with_reducible exact Moves.refl _ _
    | decide
    | with_reducible apply Moves.after (State.wV_moves ..)
    | with_reducible apply Moves.after (State.reply_moves ..)
    | with_reducible apply Moves.foldl
    | intro _ _

theorem State.triggerConv_moves (s : State) (c : Conv) : Moves [.od, .convs] s (State.triggerConv s c) := by
  unfold State.triggerConv
  extract_lets a1
  try clear_value a1
  repeat' first
    | with_reducible exact Moves.refl _ _
    | decide
    | with_reducible apply Moves.ite
    | with_reducible apply Moves.after (State.setConv_moves ..)
    | with_reducible apply Moves.after (State.overrun_moves ..)
    | split

theorem State.setAge_moves (s : State) (a : Rat) : Moves [.od, .ref] s (State.setAge s a) := by
  unfold State.setAge
  extract_lets a1 a2 a3
  try clear_value a1
  have h2 : Moves [.od, .ref] s a2 := by
    unfold a2
    with_reducible repeat' first
      | exact Moves.refl _ _
      | decide
      | apply Moves.after (State.wr_moves ..)
      | apply Moves.after (Moves.upd_ref ..)
  try clear_value a2
  try clear_value a3
  with_reducible repeat' first
    | assumption
    | decide
    | apply Moves.ite
    | apply Moves.after (State.wr_moves ..)

theorem execRefRebase_moves (r0 : State) (s : State) : Moves [.od, .pins, .ref, .answer] s (stateOf r0 (execRefRebase s)) := by
  unfold execRefRebase
  refine Moves.after (settle_moves _) (by decide) ?_
  with_reducible repeat' first
    | exact Moves.refl _ _
    | decide
    | apply Moves.after (State.reply_moves ..)
    | apply Moves.after (State.setAge_moves ..)

theorem State.windowEnd_moves (s : State) (w : Fin 3) (split : Bool) : Moves [.od, .odNew, .mets, .time] s (State.windowEnd s w split) := by
  unfold State.windowEnd
  extract_lets a b d c
  have h : Moves [.od, .odNew, .mets, .time] s b := Moves.mono (by decide) (State.cutAll_moves ..)
  have g : Moves [.od, .odNew, .mets, .time] s c := Moves.after (Moves.upd_time _ _) (by decide) h
  exact Moves.ite (Moves.after (State.applyKeys_moves ..) (by decide) g) g

theorem State.useNumber_moves (s : State) : Moves [.nv] s (State.useNumber s) := by
  unfold State.useNumber
  with_reducible repeat' first
    | exact Moves.refl _ _
    | decide
    | apply Moves.after (Moves.upd_nv ..)

theorem State.cutRecord_moves (s : State) (k : Fin 3) (t : Nat) (tCut : Nat) : Moves [.od, .odNew, .mets, .recs, .nv] s (State.cutRecord s k t tCut) := by
  unfold State.cutRecord
  extract_lets a1 a2 a3 a4 a5 a6
  have h1 : Moves [.od, .odNew, .mets, .recs, .nv] s a1 := by
    unfold a1
    with_reducible repeat' first
      | exact Moves.refl _ _
      | decide
      | apply Moves.after (State.applyKeys_moves ..)
      | apply Moves.after (State.freezeBody_moves ..)
  try clear_value a1
  try clear_value a2
  have h3 : Moves [.od, .odNew, .mets, .recs, .nv] s a3 := by
    unfold a3
    with_reducible repeat' first
      | assumption
      | decide
      | apply Moves.after (State.cutAll_moves ..)
      | apply Moves.after (State.useNumber_moves ..)
  try clear_value a3
  try clear_value a4
  try clear_value a5
  try clear_value a6
  with_reducible repeat' first
    | assumption
    | decide
    | apply Moves.after (Moves.upd_recs ..)

theorem State.tryCut_moves (s : State) (k : Fin 3) (t : Nat) (tCut : Nat) : Moves [.od, .odNew, .mets, .recs, .nv] s (State.tryCut s k t tCut) := by
  unfold State.tryCut
  repeat' first
    | with_reducible exact Moves.refl _ _
    | ((with_reducible intro _ _); decide +revert)
    | with_reducible apply Moves.ite
    | with_reducible apply Moves.after (State.count_moves ..)
    | with_reducible apply Moves.after (State.cutRecord_moves ..)

theorem State.nextRecord_moves (s : State) (k : Fin 3) : Moves [.od, .mets, .recs] s (State.nextRecord s k) := by
  unfold State.nextRecord
  extract_lets a1 a2 a3 a4 a5
  have h1 : Moves [.od, .mets, .recs] s a1 := by
    unfold a1
    repeat' first
      | with_reducible exact Moves.refl _ _
      | with_reducible assumption
      | ((with_reducible intro _ _); decide +revert)
      | with_reducible apply Moves.ite
      | with_reducible apply Moves.after (State.dropCaps_moves ..)
      | with_reducible apply Moves.after (State.wr_moves ..)
      | with_reducible apply Moves.after (Moves.upd_recs _ _)
  clear_value a1
  clear_value a2
  clear_value a3
  have h4 : Moves [.od, .mets, .recs] s a4 := by
    unfold a4
    repeat' first
      | with_reducible exact Moves.refl _ _
      | with_reducible assumption
      | ((with_reducible intro _ _); decide +revert)
      | with_reducible apply Moves.ite
      | with_reducible apply Moves.after (State.dropCaps_moves ..)
      | with_reducible apply Moves.after (State.wr_moves ..)
      | with_reducible apply Moves.after (Moves.upd_recs _ _)
  clear_value a4
  have h5 : Moves [.od, .mets, .recs] s a5 := by
    unfold a5
    repeat' first
      | with_reducible exact Moves.refl _ _
      | with_reducible assumption
      | ((with_reducible intro _ _); decide +revert)
      | with_reducible apply Moves.ite
      | with_reducible apply Moves.after (State.dropCaps_moves ..)
      | with_reducible apply Moves.after (State.wr_moves ..)
      | with_reducible apply Moves.after (Moves.upd_recs _ _)
  clear_value a5
  repeat' first
    | with_reducible exact Moves.refl _ _
    | with_reducible assumption
    | ((with_reducible intro _ _); decide +revert)
    | with_reducible apply Moves.ite
    | with_reducible apply Moves.after (State.dropCaps_moves ..)
    | with_reducible apply Moves.after (State.wr_moves ..)
    | with_reducible apply Moves.after (Moves.upd_recs _ _)

theorem State.publish_moves (s : State) (k : Fin 3) (r : RecCut) (seed : List Nat) : Moves [.od, .blob, .recs, .recorder] s (State.publish s k r seed) := by
  unfold State.publish
  extract_lets a1 a2 a3 a4 a5 a6
  try clear_value a1
  try clear_value a2
  have h3 : Moves [.od, .blob, .recs, .recorder] s a3 := by
    unfold a3
    with_reducible repeat' first
      | exact Moves.refl _ _
      | decide
      | apply Moves.after (State.wr_moves ..)
      | apply Moves.after (State.wrB_moves ..)
  try clear_value a3
  try clear_value a4
  try clear_value a5
  have h6 : Moves [.od, .blob, .recs, .recorder] s a6 := by
    unfold a6
    with_reducible repeat' first
      | assumption
      | decide
      | apply Moves.after (Moves.upd_recs_recorder ..)
  try clear_value a6
  with_reducible repeat' first
    | assumption
    | decide
    | apply Moves.after (State.alert_moves ..)

theorem execMetCmdRecordNow_moves (r0 : State) (s : State) : Moves [.od, .odNew, .pins, .mets, .recs, .nv, .answer] s (stateOf r0 (execMetCmdRecordNow s)) := by
  unfold execMetCmdRecordNow
  refine Moves.after (settle_moves _) (by decide) ?_
  repeat' first
    | with_reducible exact Moves.refl _ _
    | ((with_reducible intro _ _); decide +revert)
    | with_reducible apply Moves.after (State.reply_moves ..)
    | with_reducible apply Moves.after (State.tryCut_moves ..)

theorem execMetCmdClearFlags_moves (r0 : State) (s : State) : Moves [.pins, .mets, .answer] s (stateOf r0 (execMetCmdClearFlags s)) := by
  unfold execMetCmdClearFlags
  refine Moves.after (settle_moves _) (by decide) ?_
  with_reducible repeat' first
    | exact Moves.refl _ _
    | decide
    | apply Moves.after (State.reply_moves ..)
    | apply Moves.after (Moves.upd_mets ..)

theorem State.schedule_moves (s : State) (t : Nat) : Moves [.od, .recs] s (State.schedule s t) := by
  unfold State.schedule
  extract_lets a1
  try clear_value a1
  with_reducible repeat' first
    | exact Moves.refl _ _
    | decide
    | apply Moves.after (State.wr_moves ..)
    | apply Moves.after (Moves.upd_recs ..)

theorem execMetCmdClearAcc_moves (r0 : State) (s : State) : Moves [.od, .pins, .mets, .answer] s (stateOf r0 (execMetCmdClearAcc s)) := by
  unfold execMetCmdClearAcc
  refine Moves.after (settle_moves _) (by decide) ?_
  repeat' first
    | with_reducible exact Moves.refl _ _
    | ((with_reducible intro _ _); decide +revert)
    | with_reducible apply Moves.ite
    | with_reducible apply Moves.after (State.cutAll_moves ..)
    | with_reducible apply Moves.after (State.reply_moves ..)
    | with_reducible apply Moves.after (State.wr_moves ..)

theorem State.skimNow_moves (s : State) : Moves [.od, .recs, .answer] s (State.skimNow s) := by
  unfold State.skimNow
  with_reducible repeat' first
    | exact Moves.refl _ _
    | decide
    | apply Moves.ite
    | apply Moves.after (State.reply_moves ..)
    | apply Moves.after (State.schedule_moves ..)

theorem State.skimAt_moves (s : State) (t : Nat) : Moves [.od, .recs, .answer] s (State.skimAt s t) := by
  unfold State.skimAt
  with_reducible repeat' first
    | exact Moves.refl _ _
    | decide
    | apply Moves.ite
    | apply Moves.after (State.reply_moves ..)
    | apply Moves.after (State.schedule_moves ..)

theorem execSkimCmdNow_moves (r0 : State) (s : State) : Moves [.od, .pins, .recs, .answer] s (stateOf r0 (execSkimCmdNow s)) := by
  unfold execSkimCmdNow
  refine Moves.after (settle_moves _) (by decide) ?_
  with_reducible repeat' first
    | exact Moves.refl _ _
    | decide
    | apply Moves.after (State.skimNow_moves ..)

theorem execSkimCmdAt_moves (r0 : State) (s : State) : Moves [.od, .pins, .recs, .answer] s (stateOf r0 (execSkimCmdAt s)) := by
  unfold execSkimCmdAt
  refine Moves.after (settle_moves _) (by decide) ?_
  with_reducible repeat' first
    | exact Moves.refl _ _
    | decide
    | apply Moves.after (State.skimAt_moves ..)

theorem execSkimCmdCancel_moves (r0 : State) (s : State) : Moves [.od, .pins, .answer] s (stateOf r0 (execSkimCmdCancel s)) := by
  unfold execSkimCmdCancel
  refine Moves.after (settle_moves _) (by decide) ?_
  with_reducible repeat' first
    | exact Moves.refl _ _
    | decide
    | apply Moves.ite
    | apply Moves.after (State.wr_moves ..)
    | apply Moves.after (State.reply_moves ..)

theorem State.setRailCodes_moves (s : State) (n : Rail) (lo : Int) (hi : Int) : Moves [.od] s (State.setRailCodes s n lo hi) := by
  unfold State.setRailCodes
  extract_lets a1
  try clear_value a1
  with_reducible repeat' first
    | exact Moves.refl _ _
    | decide
    | apply Moves.after (State.wC_moves ..)

theorem State.setRailWindow_moves (s : State) (n : Rail) : Moves [.od] s (State.setRailWindow s n) := by
  unfold State.setRailWindow
  extract_lets a1
  try clear_value a1
  with_reducible repeat' first
    | exact Moves.refl _ _
    | decide
    | apply Moves.after (State.setRailCodes_moves ..)

theorem State.setMarginWindow_moves (s : State) (n : Rail) : Moves [.od] s (State.setMarginWindow s n) := by
  unfold State.setMarginWindow
  with_reducible repeat' first
    | exact Moves.refl _ _
    | decide
    | apply Moves.after (State.setRailCodes_moves ..)

theorem State.applyRail_moves (s : State) (n : Rail) : Moves [.od, .odNew] s (State.applyRail s n) := by
  unfold State.applyRail
  extract_lets a1
  have h1 : Moves [.od, .odNew] s a1 := by
    unfold a1
    with_reducible repeat' first
      | exact Moves.refl _ _
      | decide
      | apply Moves.after (State.applyKeys_moves ..)
      | apply Moves.after (State.setRailWindow_moves ..)
  try clear_value a1
  with_reducible repeat' first
    | exact Moves.refl _ _
    | assumption
    | decide
    | apply Moves.ite
    | apply Moves.after (State.wR_moves ..)

theorem State.railOff_moves (s : State) (n : Rail) : Moves [.od, .odNew] s (State.railOff s n) := by
  unfold State.railOff
  with_reducible repeat' first
    | exact Moves.refl _ _
    | decide
    | apply Moves.after (State.wR_moves ..)
    | apply Moves.after (State.applyRail_moves ..)

theorem State.refreshPwrgd_moves (s : State) : Moves [.od] s (State.refreshPwrgd s) := by
  unfold State.refreshPwrgd
  with_reducible repeat' first
    | exact Moves.refl _ _
    | decide
    | apply Moves.ite
    | apply Moves.after (State.wr_moves ..)

theorem State.setSeq_moves (s : State) (v : Int) : Moves [.od] s (State.setSeq s v) := by
  unfold State.setSeq
  with_reducible repeat' first
    | exact Moves.refl _ _
    | decide
    | apply Moves.after (State.wr_moves ..)
    | apply Moves.after (State.refreshPwrgd_moves ..)

theorem State.railPgDrop_moves (s : State) (n : Rail) : Moves [.od] s (State.railPgDrop s n) := by
  unfold State.railPgDrop
  with_reducible repeat' first
    | exact Moves.refl _ _
    | decide
    | apply Moves.after (State.wR_moves ..)
    | apply Moves.after (State.refreshPwrgd_moves ..)

theorem State.endMargin_moves (s : State) (n : Rail) : Moves [.od, .rails] s (State.endMargin s n) := by
  unfold State.endMargin
  extract_lets a1 a2
  try clear_value a1
  have h2 : Moves [.od, .rails] s a2 := by
    unfold a2
    with_reducible repeat' first
      | exact Moves.refl _ _
      | decide
      | apply Moves.after (State.wR_moves ..)
      | apply Moves.after (State.setRail_moves ..)
  try clear_value a2
  with_reducible repeat' first
    | assumption
    | decide
    | apply Moves.ite
    | apply Moves.after (State.setRailWindow_moves ..)

theorem State.enOff_moves (s : State) (n : Rail) (st : Int) : Moves [.od, .odNew, .cmps, .rails] s (State.enOff s n st) := by
  unfold State.enOff
  extract_lets a1 a2
  try clear_value a1
  have h2 : Moves [.od, .odNew, .cmps, .rails] s a2 := by
    unfold a2
    with_reducible repeat' first
      | exact Moves.refl _ _
      | decide
      | apply Moves.after (State.setRail_moves ..)
  try clear_value a2
  with_reducible repeat' first
    | assumption
    | decide
    | apply Moves.after (State.wR_moves ..)
    | apply Moves.after (State.setMode_moves ..)
    | apply Moves.after (State.railPgDrop_moves ..)
    | apply Moves.after (State.endMargin_moves ..)

theorem State.startPhase_moves (s : State) (k : Nat) : Moves [.od, .coat] s (State.startPhase s k) := by
  unfold State.startPhase
  extract_lets a1 a2 a3
  have h1 : Moves [.od, .coat] s a1 := by
    unfold a1
    with_reducible repeat' first
      | exact Moves.refl _ _
      | decide
      | apply Moves.after (State.wr_moves ..)
  try clear_value a1
  try clear_value a2
  have h3 : Moves [.od, .coat] s a3 := by
    unfold a3
    with_reducible repeat' first
      | assumption
      | decide
      | apply Moves.after (Moves.upd_coat ..)
  try clear_value a3
  repeat' first
    | with_reducible exact Moves.refl _ _
    | with_reducible assumption
    | decide
    | with_reducible apply Moves.ite
    | with_reducible apply Moves.after (State.wR_moves ..)
    | with_reducible apply Moves.foldl
    | intro _ _

theorem State.checkPhase_moves (s : State) : Moves [.od, .coat] s (State.checkPhase s) := by
  unfold State.checkPhase
  extract_lets a1 a2
  try clear_value a1
  try clear_value a2
  with_reducible repeat' first
    | exact Moves.refl _ _
    | decide
    | apply Moves.ite
    | apply Moves.after (State.wr_moves ..)
    | apply Moves.after (State.setSeq_moves ..)
    | apply Moves.after (Moves.upd_coat ..)

theorem State.powerUp_moves (s : State) : Moves [.od, .coat] s (State.powerUp s) := by
  unfold State.powerUp
  repeat' first
    | with_reducible exact Moves.refl _ _
    | decide
    | with_reducible apply Moves.after (State.setSeq_moves ..)
    | with_reducible apply Moves.after (State.startPhase_moves ..)
    | with_reducible apply Moves.after (State.checkPhase_moves ..)
    | split

theorem State.railToFault_moves (s : State) (n : Rail) : Moves [.od, .odNew, .cmps, .rails] s (State.railToFault s n) := by
  unfold State.railToFault
  with_reducible repeat' first
    | exact Moves.refl _ _
    | decide
    | apply Moves.after (State.applyRail_moves ..)
    | apply Moves.after (State.enOff_moves ..)

theorem State.endMargins_moves (s : State) : Moves [.od, .rails] s (State.endMargins s) := by
  unfold State.endMargins
  repeat' first
    | with_reducible exact Moves.refl _ _
    | decide
    | with_reducible apply Moves.ite
    | with_reducible apply Moves.after (State.wR_moves ..)
    | with_reducible apply Moves.after (State.endMargin_moves ..)
    | with_reducible apply Moves.foldl
    | intro _ _

theorem State.endDown_moves (s : State) : Moves [.od, .odNew, .coat] s (State.endDown s) := by
  unfold State.endDown
  extract_lets a1 a2 a3 a4
  try clear_value a1
  have h2 : Moves [.od, .odNew, .coat] s a2 := by
    unfold a2
    with_reducible repeat' first
      | exact Moves.refl _ _
      | decide
      | apply Moves.after (State.wr_moves ..)
  try clear_value a2
  try clear_value a3
  have h4 : Moves [.od, .odNew, .coat] s a4 := by
    unfold a4
    with_reducible repeat' first
      | assumption
      | decide
      | apply Moves.after (State.setSeq_moves ..)
      | apply Moves.after (Moves.upd_coat ..)
  try clear_value a4
  repeat' first
    | with_reducible exact Moves.refl _ _
    | with_reducible assumption
    | decide
    | with_reducible apply Moves.ite
    | with_reducible apply Moves.after (State.railOff_moves ..)
    | with_reducible apply Moves.foldl
    | intro _ _

theorem State.startDown_moves (s : State) (st : Int) (lo : Nat) (top : Option Nat) : Moves [.od, .odNew, .cmps, .rails, .coat] s (State.startDown s st lo top) := by
  unfold State.startDown
  try dsimp only
  repeat' first
    | with_reducible exact Moves.refl _ _
    | with_reducible assumption
    | ((with_reducible intro _ _); decide +revert)
    | with_reducible apply Moves.ite
    | with_reducible refine Moves.foldl (fun _ _ => ?_) ?_
    | with_reducible apply Moves.after (State.endDown_moves ..)
    | with_reducible apply Moves.after (State.endMargins_moves ..)
    | with_reducible apply Moves.after (State.railOff_moves ..)
    | with_reducible apply Moves.after (State.setMode_moves ..)
    | with_reducible apply Moves.after (State.setRail_moves ..)
    | with_reducible apply Moves.after (State.setSeq_moves ..)
    | with_reducible apply Moves.after (State.wr_moves ..)
    | split
    | with_reducible apply Moves.after (Moves.upd_coat _ _)

theorem State.phaseDown_moves (s : State) : Moves [.od, .odNew, .coat] s (State.phaseDown s) := by
  unfold State.phaseDown
  extract_lets a1 a2
  have h1 : Moves [.od, .odNew, .coat] s a1 := by
    unfold a1
    repeat' first
      | with_reducible exact Moves.refl _ _
      | decide
      | with_reducible apply Moves.ite
      | with_reducible apply Moves.after (State.railOff_moves ..)
      | with_reducible apply Moves.foldl
      | intro _ _
  try clear_value a1
  try clear_value a2
  with_reducible repeat' first
    | assumption
    | decide
    | apply Moves.ite
    | apply Moves.after (State.endDown_moves ..)
    | apply Moves.after (Moves.upd_coat ..)

theorem State.logFault_moves (s : State) (n : Rail) (code : Int) : Moves [.od, .coat] s (State.logFault s n code) := by
  unfold State.logFault
  try dsimp only
  repeat' first
    | with_reducible exact Moves.refl _ _
    | with_reducible assumption
    | ((with_reducible intro _ _); decide +revert)
    | with_reducible apply Moves.ite
    | with_reducible apply Moves.after (State.count_moves ..)
    | split
    | with_reducible apply Moves.after (Moves.upd_coat _ _)

theorem State.recordRail_moves (s : State) (n : Rail) (code : Int) : Moves [.od, .odNew, .cmps, .coatFault, .rails, .coat, .recorder] s (State.recordRail s n code) := by
  unfold State.recordRail
  extract_lets a1
  have h1 : Moves [.od, .odNew, .cmps, .coatFault, .rails, .coat, .recorder] s a1 := by
    unfold a1
    with_reducible repeat' first
      | exact Moves.refl _ _
      | decide
      | apply Moves.after (State.wR_moves ..)
      | apply Moves.after (State.count_moves ..)
  try clear_value a1
  with_reducible repeat' first
    | assumption
    | decide
    | apply Moves.ite
    | apply Moves.after (State.alert_moves ..)
    | apply Moves.after (State.flushClass_moves ..)

theorem State.cutRails_moves (s : State) (n : Rail) (lo : Nat) : Moves [.od, .odNew, .cmps, .coatFault, .rails, .coat] s (State.cutRails s n lo) := by
  unfold State.cutRails
  extract_lets a1 a2 a3
  have h1 : Moves [.od, .odNew, .cmps, .coatFault, .rails, .coat] s a1 := by
    unfold a1
    with_reducible repeat' first
      | exact Moves.refl _ _
      | decide
      | apply Moves.after (Moves.upd_coatFault ..)
  try clear_value a1
  try clear_value a2
  have h3 : Moves [.od, .odNew, .cmps, .coatFault, .rails, .coat] s a3 := by
    unfold a3
    with_reducible repeat' first
      | assumption
      | decide
      | apply Moves.after (State.railToFault_moves ..)
  try clear_value a3
  with_reducible repeat' first
    | assumption
    | decide
    | apply Moves.ite
    | apply Moves.after (State.railToFault_moves ..)
    | apply Moves.after (State.startDown_moves ..)
    | apply Moves.after (Moves.upd_coat ..)

theorem State.railFault_moves (s : State) (n : Rail) (code : Int) : Moves [.od, .odNew, .cmps, .coatFault, .rails, .coat, .recorder] s (State.railFault s n code) := by
  unfold State.railFault
  extract_lets a1 a2 a3
  try clear_value a1
  have h2 : Moves [.od, .odNew, .cmps, .coatFault, .rails, .coat, .recorder] s a2 := by
    unfold a2
    with_reducible repeat' first
      | exact Moves.refl _ _
      | decide
      | apply Moves.after (State.recordRail_moves ..)
  try clear_value a2
  have h3 : Moves [.od, .odNew, .cmps, .coatFault, .rails, .coat, .recorder] s a3 := by
    unfold a3
    with_reducible repeat' first
      | assumption
      | decide
      | apply Moves.after (State.logFault_moves ..)
  try clear_value a3
  with_reducible repeat' first
    | assumption
    | decide
    | apply Moves.ite
    | apply Moves.after (State.cutRails_moves ..)

theorem State.railWatch_moves (s : State) (n : Rail) (rose : Bool) : Moves [.od, .odNew, .cmps, .coatFault, .rails, .coat, .recorder] s (State.railWatch s n rose) := by
  unfold State.railWatch
  extract_lets a1 a2 a3 a4 a5 a6 a7 a8
  try clear_value a1
  try clear_value a2
  try clear_value a3
  try clear_value a4
  have h5 : Moves [.od, .odNew, .cmps, .coatFault, .rails, .coat, .recorder] s a5 := by
    unfold a5
    with_reducible repeat' first
      | exact Moves.refl _ _
      | decide
      | apply Moves.after (State.setRail_moves ..)
  try clear_value a5
  have h6 : Moves [.od, .odNew, .cmps, .coatFault, .rails, .coat, .recorder] s a6 := by
    unfold a6
    with_reducible repeat' first
      | assumption
      | decide
      | apply Moves.ite
      | apply Moves.after (State.wR_moves ..)
  try clear_value a6
  have h7 : Moves [.od, .odNew, .cmps, .coatFault, .rails, .coat, .recorder] s a7 := by
    unfold a7
    with_reducible repeat' first
      | assumption
      | decide
      | apply Moves.ite
      | apply Moves.after (State.railPgDrop_moves ..)
  try clear_value a7
  have h8 : Moves [.od, .odNew, .cmps, .coatFault, .rails, .coat, .recorder] s a8 := by
    unfold a8
    with_reducible repeat' first
      | exact Moves.refl _ _
      | decide
      | apply Moves.after (State.setRail_moves ..)
  try clear_value a8
  with_reducible repeat' first
    | exact Moves.refl _ _
    | assumption
    | decide
    | apply Moves.ite
    | apply Moves.after (State.wr_moves ..)
    | apply Moves.after (State.wR_moves ..)
    | apply Moves.after (State.railPgDrop_moves ..)
    | apply Moves.after (State.railFault_moves ..)

theorem State.railChecked_moves (s : State) (n : Rail) (ok : Bool) : Moves [.od, .odNew, .cmps, .coatFault, .rails, .coat, .recorder] s (State.railChecked s n ok) := by
  unfold State.railChecked
  repeat' first
    | with_reducible exact Moves.refl _ _
    | ((with_reducible intro _ _); decide +revert)
    | with_reducible apply Moves.ite
    | with_reducible apply Moves.after (State.railFault_moves ..)
    | with_reducible apply Moves.after (State.railToFault_moves ..)
    | with_reducible apply Moves.after (State.railWatch_moves ..)
    | with_reducible apply Moves.after (State.setMode_moves ..)
    | with_reducible apply Moves.after (State.setRail_moves ..)
    | with_reducible apply Moves.after (State.wR_moves ..)
    | extract_lets

theorem State.narrow_moves (s : State) (n : Rail) : Moves [.od, .rails] s (State.narrow s n) := by
  unfold State.narrow
  extract_lets a1 a2
  try clear_value a1
  have h2 : Moves [.od, .rails] s a2 := by
    unfold a2
    with_reducible repeat' first
      | exact Moves.refl _ _
      | decide
      | apply Moves.after (State.setRail_moves ..)
      | apply Moves.after (State.setRailWindow_moves ..)
  try clear_value a2
  with_reducible repeat' first
    | assumption
    | decide
    | apply Moves.ite
    | apply Moves.after (State.wR_moves ..)

theorem State.marginOff_moves (s : State) (n : Rail) (st : Int) : Moves [.od, .rails] s (State.marginOff s n st) := by
  unfold State.marginOff
  extract_lets a1
  try clear_value a1
  with_reducible repeat' first
    | exact Moves.refl _ _
    | decide
    | apply Moves.after (State.wR_moves ..)
    | apply Moves.after (State.setRail_moves ..)

theorem State.marginApplied_moves (s : State) (n : Rail) (o : Nat) : Moves [.od, .rails] s (State.marginApplied s n o) := by
  unfold State.marginApplied
  extract_lets a1
  try clear_value a1
  with_reducible repeat' first
    | exact Moves.refl _ _
    | decide
    | apply Moves.ite
    | apply Moves.after (State.wR_moves ..)
    | apply Moves.after (State.setRail_moves ..)
    | apply Moves.after (State.setMarginWindow_moves ..)

theorem State.judgeMargin_moves (s : State) (n : Rail) : Moves [.od, .rails] s (State.judgeMargin s n) := by
  unfold State.judgeMargin
  with_reducible repeat' first
    | exact Moves.refl _ _
    | decide
    | apply Moves.ite
    | apply Moves.after (State.narrow_moves ..)
    | apply Moves.after (State.marginOff_moves ..)

theorem State.reloadRestarts_moves (s : State) : Moves [.od] s (State.reloadRestarts s) := by
  unfold State.reloadRestarts
  with_reducible repeat' first
    | exact Moves.refl _ _
    | decide
    | apply Moves.after (State.wr_moves ..)

theorem State.seqCmd_moves {xs : List Part} (s : State) (b : List Int) (f : State → State) (hx : ∀ y ∈ [Part.od, .answer], y ∈ xs)
    (hf : ∀ u, Moves xs u (f u)) : Moves xs s (State.seqCmd s b f) := by
  unfold State.seqCmd
  split
  · exact Moves.mono (fun y h => hx y (by revert h; revert y; decide)) (State.reply_moves ..)
  · exact Moves.after (State.reply_moves ..) (fun y h => hx y (by revert h; revert y; decide))
      (Moves.after (hf _) (fun _ h => h) (Moves.mono (fun y h => hx y (by revert h; revert y; decide)) (State.reloadRestarts_moves ..)))

theorem State.seqUp_moves (s : State) : Moves [.od, .coat] s (State.seqUp s) := by
  unfold State.seqUp
  with_reducible repeat' first
    | exact Moves.refl _ _
    | decide
    | apply Moves.ite
    | apply Moves.after (State.powerUp_moves ..)

theorem execSeqCmdUp_moves (r0 : State) (s : State) : Moves [.od, .pins, .coat, .answer] s (stateOf r0 (execSeqCmdUp s)) := by
  unfold execSeqCmdUp
  refine Moves.after (settle_moves _) (by decide) ?_
  with_reducible repeat' first
    | exact Moves.refl _ _
    | decide
    | refine State.seqCmd_moves _ _ _ (by decide) fun _ => ?_
    | apply Moves.after (State.seqUp_moves ..)

theorem State.seqDown_moves (s : State) : Moves [.od, .odNew, .cmps, .rails, .coat] s (State.seqDown s) := by
  unfold State.seqDown
  extract_lets a1
  have h1 : Moves [.od, .odNew, .cmps, .rails, .coat] s a1 := by
    unfold a1
    with_reducible repeat' first
      | exact Moves.refl _ _
      | decide
      | apply Moves.after (State.wr_moves ..)
  try clear_value a1
  with_reducible repeat' first
    | exact Moves.refl _ _
    | assumption
    | decide
    | apply Moves.ite
    | apply Moves.after (State.startDown_moves ..)

theorem execSeqCmdDown_moves (r0 : State) (s : State) : Moves [.od, .odNew, .cmps, .pins, .rails, .coat, .answer] s (stateOf r0 (execSeqCmdDown s)) := by
  unfold execSeqCmdDown
  refine Moves.after (settle_moves _) (by decide) ?_
  with_reducible repeat' first
    | exact Moves.refl _ _
    | decide
    | refine State.seqCmd_moves _ _ _ (by decide) fun _ => ?_
    | apply Moves.after (State.seqDown_moves ..)

theorem State.clearSeqFault_moves (s : State) : Moves [.od, .odNew, .coatFault] s (State.clearSeqFault s) := by
  unfold State.clearSeqFault
  extract_lets a1
  have h1 : Moves [.od, .odNew, .coatFault] s a1 := by
    unfold a1
    with_reducible repeat' first
      | exact Moves.refl _ _
      | decide
      | apply Moves.after (State.setSeq_moves ..)
      | apply Moves.after (Moves.upd_coatFault ..)
  try clear_value a1
  repeat' first
    | with_reducible exact Moves.refl _ _
    | with_reducible assumption
    | decide
    | with_reducible apply Moves.ite
    | with_reducible apply Moves.after (State.railOff_moves ..)
    | with_reducible apply Moves.foldl
    | intro _ _

theorem execSeqCmdClearFault_moves (r0 : State) (s : State) : Moves [.od, .odNew, .pins, .coatFault, .answer] s (stateOf r0 (execSeqCmdClearFault s)) := by
  unfold execSeqCmdClearFault
  refine Moves.after (settle_moves _) (by decide) ?_
  with_reducible repeat' first
    | exact Moves.refl _ _
    | decide
    | apply Moves.ite
    | refine State.seqCmd_moves _ _ _ (by decide) fun _ => ?_
    | apply Moves.after (State.clearSeqFault_moves ..)

theorem State.seqRestart_moves (s : State) : Moves [.od, .odNew, .coatFault, .coat] s (State.seqRestart s) := by
  unfold State.seqRestart
  with_reducible repeat' first
    | exact Moves.refl _ _
    | decide
    | apply Moves.ite
    | apply Moves.after (State.powerUp_moves ..)
    | apply Moves.after (State.clearSeqFault_moves ..)

theorem execSeqCmdRestart_moves (r0 : State) (s : State) : Moves [.od, .odNew, .pins, .coatFault, .coat, .answer] s (stateOf r0 (execSeqCmdRestart s)) := by
  unfold execSeqCmdRestart
  refine Moves.after (settle_moves _) (by decide) ?_
  with_reducible repeat' first
    | exact Moves.refl _ _
    | decide
    | refine State.seqCmd_moves _ _ _ (by decide) fun _ => ?_
    | apply Moves.after (State.seqRestart_moves ..)

theorem State.writeMargin_moves (s : State) (n : Rail) (m : Nat) : Moves [.od, .rails, .answer] s (State.writeMargin s n m) := by
  unfold State.writeMargin
  extract_lets a1 a2 a3 a4 a5
  try clear_value a1
  have h2 : Moves [.od, .rails, .answer] s a2 := by
    unfold a2
    with_reducible repeat' first
      | exact Moves.refl _ _
      | decide
      | apply Moves.ite
      | apply Moves.after (State.setRail_moves ..)
      | apply Moves.after (State.setMarginWindow_moves ..)
  try clear_value a2
  try clear_value a3
  try clear_value a4
  have h5 : Moves [.od, .rails, .answer] s a5 := by
    unfold a5
    with_reducible repeat' first
      | assumption
      | decide
      | apply Moves.after (State.wR_moves ..)
      | apply Moves.after (State.setRail_moves ..)
  try clear_value a5
  with_reducible repeat' first
    | exact Moves.refl _ _
    | assumption
    | decide
    | apply Moves.ite
    | apply Moves.after (State.wR_moves ..)
    | apply Moves.after (State.reply_moves ..)
    | apply Moves.after (State.marginOff_moves ..)
    | apply Moves.after (State.judgeMargin_moves ..)

theorem execFfCmdClear_moves (r0 : State) (s : State) : Moves [.od, .blob, .pins, .coat, .answer] s (stateOf r0 (execFfCmdClear s)) := by
  unfold execFfCmdClear
  extract_lets a1 a2
  have h1 : Moves [.od, .blob, .pins, .coat, .answer] s a1 := by
    unfold a1
    with_reducible repeat' first
      | exact Moves.refl _ _
      | decide
      | apply Moves.after (State.wr_moves ..)
      | apply Moves.after (State.wrB_moves ..)
  try clear_value a1
  try clear_value a2
  refine Moves.after (settle_moves _) (by decide) ?_
  with_reducible repeat' first
    | assumption
    | decide
    | apply Moves.after (State.reply_moves ..)
    | apply Moves.after (Moves.upd_coat ..)

theorem State.limitWatch_moves (s : State) (p : Port) : Moves [.od, .odNew, .io, .paths, .tiles] s (State.limitWatch s p) := by
  unfold State.limitWatch
  extract_lets a1
  try clear_value a1
  repeat' first
    | with_reducible exact Moves.refl _ _
    | with_reducible assumption
    | ((with_reducible intro _ _); decide +revert)
    | with_reducible apply Moves.ite
    | with_reducible apply Moves.after (State.setPath_moves ..)
    | with_reducible apply Moves.after (State.setPg_moves ..)
    | with_reducible apply Moves.after (State.setPp_moves ..)
    | extract_lets

theorem State.cmpActs_moves (s : State) (c : Cmp) (old : CmpHw) : Moves [.od, .odNew, .io, .cmps, .paths, .feeds, .ledger, .tiles, .ports, .coatFault, .rails, .coat, .recorder] s (State.cmpActs s c old) := by
  unfold State.cmpActs
  extract_lets a1
  try clear_value a1
  repeat' first
    | with_reducible exact Moves.refl _ _
    | with_reducible assumption
    | ((with_reducible intro _ _); decide +revert)
    | with_reducible apply Moves.ite
    | with_reducible apply Moves.after (State.dischargeWatch_moves ..)
    | with_reducible apply Moves.after (State.feedWatch_moves ..)
    | with_reducible apply Moves.after (State.limitWatch_moves ..)
    | with_reducible apply Moves.after (State.pathFault_moves ..)
    | with_reducible apply Moves.after (State.railWatch_moves ..)
    | with_reducible apply Moves.after (State.setPath_moves ..)
    | split
    | extract_lets

theorem State.clearLatch_moves (s : State) (c : Cmp) : Moves [.cmps] s (State.clearLatch s c) := by
  unfold State.clearLatch
  extract_lets a1
  try clear_value a1
  with_reducible repeat' first
    | exact Moves.refl _ _
    | decide
    | apply Moves.ite
    | apply Moves.after (State.setCmp_moves ..)

theorem execCmpCmdClearLatch_moves (r0 : State) (c : Cmp) (s : State) : Moves [.cmps, .pins, .answer] s (stateOf r0 (execCmpCmdClearLatch c s)) := by
  unfold execCmpCmdClearLatch
  refine Moves.after (settle_moves _) (by decide) ?_
  with_reducible repeat' first
    | exact Moves.refl _ _
    | decide
    | apply Moves.after (State.reply_moves ..)
    | apply Moves.after (State.clearLatch_moves ..)

theorem State.selfCheck_moves (s : State) (c : Cmp) : Moves [.cmps, .answer] s (State.selfCheck s c) := by
  unfold State.selfCheck
  with_reducible repeat' first
    | exact Moves.refl _ _
    | decide
    | apply Moves.ite
    | apply Moves.after (State.reply_moves ..)
    | apply Moves.after (State.startCheck_moves ..)

theorem execCmpCmdSelfchk_moves (r0 : State) (c : Cmp) (s : State) : Moves [.cmps, .pins, .answer] s (stateOf r0 (execCmpCmdSelfchk c s)) := by
  unfold execCmpCmdSelfchk
  refine Moves.after (settle_moves _) (by decide) ?_
  with_reducible repeat' first
    | exact Moves.refl _ _
    | decide
    | apply Moves.after (State.selfCheck_moves ..)

theorem State.selfchkGo_moves (s : State) (b : Nat) (q : Fin 4) (v : Bool) : Moves [.io, .cmps] s (State.selfchkGo s b q v) := by
  unfold State.selfchkGo
  extract_lets a1 a2 a3
  try clear_value a1
  try clear_value a2
  try clear_value a3
  repeat' first
    | with_reducible exact Moves.refl _ _
    | with_reducible assumption
    | ((with_reducible intro _ _); decide +revert)
    | with_reducible apply Moves.ite
    | with_reducible apply Moves.after (State.iow_moves ..)
    | with_reducible apply Moves.after (State.setCmp_moves ..)
    | with_reducible apply Moves.after (State.startCheck_moves ..)
    | extract_lets

theorem State.mirrorResult_moves (s : State) (c : Cmp) (step : Nat) : Moves [.io, .cmps, .tiles] s (State.mirrorResult s c step) := by
  unfold State.mirrorResult
  repeat' first
    | with_reducible exact Moves.refl _ _
    | ((with_reducible intro _ _); decide +revert)
    | with_reducible apply Moves.ite
    | with_reducible apply Moves.after (State.report_moves ..)
    | with_reducible apply Moves.after (State.setCmp_moves ..)
    | extract_lets

theorem State.checkFailed_moves (s : State) (c : Cmp) : Moves [.od, .odNew, .io, .cmps, .paths, .feeds, .ledger, .tiles, .ports, .coatFault, .rails, .coat, .recorder] s (State.checkFailed s c) := by
  unfold State.checkFailed
  split
  · exact Moves.mono (by decide) (State.safeOff_moves ..)
  · exact Moves.mono (by decide) (State.safeOff_moves ..)
  · exact Moves.mono (by decide) (State.railChecked_moves ..)
  · exact Moves.mono (by decide) (State.feedChecked_moves ..)
  · exact Moves.mono (by decide) (State.feedChecked_moves ..)

theorem State.degChecked_moves (s : State) (c : Cmp) : Moves [.od, .odNew, .paths, .ports, .power] s (State.degChecked s c) := by
  unfold State.degChecked
  extract_lets a1
  repeat' first
    | with_reducible exact Moves.refl _ _
    | decide
    | with_reducible apply Moves.ite
    | with_reducible apply Moves.after (State.wr_moves ..)
    | with_reducible apply Moves.after (State.leaveSafe_moves ..)
    | with_reducible apply Moves.after (State.toUnattached_moves ..)
    | split
    | with_reducible apply Moves.after (Moves.upd_power ..)

theorem State.feedInput_moves (s : State) (f : Feed) (v : Int) : Moves [.od, .feeds] s (State.feedInput s f v) := by
  unfold State.feedInput
  repeat' first
    | with_reducible exact Moves.refl _ _
    | ((with_reducible intro _ _); decide +revert)
    | with_reducible apply Moves.after (State.refreshFeed_moves ..)
    | with_reducible apply Moves.after (State.setFeed_moves ..)
    | extract_lets

theorem State.injWord_moves (s : State) (c : Conv) (r : Conversion) : Moves [.od, .io, .convs] s (State.injWord s c r) := by
  unfold State.injWord
  extract_lets a1 a2
  have h1 : Moves [.od, .io, .convs] s a1 := by
    unfold a1
    repeat' first
      | with_reducible exact Moves.refl _ _
      | with_reducible assumption
      | ((with_reducible intro _ _); decide +revert)
      | with_reducible apply Moves.after (State.mirrorRestart_moves ..)
      | with_reducible apply Moves.after (State.tqBit_moves ..)
  try clear_value a1
  try clear_value a2
  repeat' first
    | with_reducible exact Moves.refl _ _
    | with_reducible assumption
    | ((with_reducible intro _ _); decide +revert)
    | with_reducible apply Moves.ite
    | with_reducible apply Moves.after (State.setTqReg_moves ..)
    | with_reducible apply Moves.after (State.toLane_moves ..)
    | with_reducible apply Moves.after (State.withhold_moves ..)

theorem State.refJudge_moves (s : State) (gap : Rat) : Moves [.od, .ref, .mets, .recs, .recorder] s (State.refJudge s gap) := by
  unfold State.refJudge
  try dsimp only
  repeat' first
    | with_reducible exact Moves.refl _ _
    | with_reducible assumption
    | ((with_reducible intro _ _); decide +revert)
    | with_reducible apply Moves.ite
    | with_reducible apply Moves.after (State.alert_moves ..)
    | with_reducible apply Moves.after (State.count_moves ..)
    | with_reducible apply Moves.after (State.flushClass_moves ..)
    | with_reducible apply Moves.after (State.refreshUncAll_moves ..)
    | with_reducible apply Moves.after (State.wr_moves ..)
    | with_reducible apply Moves.after (Moves.upd_ref _ _)
    | with_reducible apply Moves.after (Moves.upd_recs _ _)

theorem State.refFollow_moves (s : State) (l : List Rat) (diff : Rat) : Moves [.od, .ref, .mets, .recs, .recorder] s (State.refFollow s l diff) := by
  unfold State.refFollow
  extract_lets a1 a2 a3
  have h2 : Moves [.od, .ref, .mets, .recs, .recorder] s a2 :=
    Moves.after (State.wr_moves ..) (by decide) (Moves.mono (by decide) (Moves.upd_ref ..))
  have h3 : Moves [.od, .ref, .mets, .recs, .recorder] s a3 :=
    Moves.ite h2 (Moves.after (State.setAge_moves ..) (by decide) h2)
  exact Moves.after (State.refJudge_moves ..) (by decide) h3

theorem State.seqWord_moves (s : State) (c : Conv) (r : Conversion) : Moves [.od, .io, .convs] s (State.seqWord s c r) := by
  unfold State.seqWord
  extract_lets a1 a2 a3 a4
  try clear_value a1
  try clear_value a2
  have h3 : Moves [.od, .io, .convs] s a3 := by
    unfold a3
    repeat' first
      | with_reducible exact Moves.refl _ _
      | with_reducible assumption
      | ((with_reducible intro _ _); decide +revert)
      | with_reducible apply Moves.after (State.setConv_moves ..)
  try clear_value a3
  try clear_value a4
  repeat' first
    | with_reducible exact Moves.refl _ _
    | with_reducible assumption
    | ((with_reducible intro _ _); decide +revert)
    | with_reducible apply Moves.ite
    | with_reducible apply Moves.after (State.count_moves ..)
    | with_reducible apply Moves.after (State.toLane_moves ..)
    | with_reducible apply Moves.after (State.wV_moves ..)
    | with_reducible apply Moves.after (State.withhold_moves ..)
    | extract_lets

theorem State.takeWord_moves (s : State) (c : Conv) (r : Conversion) (cyc : Nat) (sense : Int) : Moves [.od, .odNew, .io, .paths, .convs, .ref, .mets] s (State.takeWord s c r cyc sense) := by
  unfold State.takeWord
  extract_lets a1 a2 a3 a4 a5 a6 a7
  try clear_value a1
  have h2 : Moves [.od, .odNew, .io, .paths, .convs, .ref, .mets] s a2 := by
    unfold a2
    repeat' first
      | with_reducible exact Moves.refl _ _
      | with_reducible assumption
      | ((with_reducible intro _ _); decide +revert)
      | with_reducible apply Moves.ite
      | with_reducible apply Moves.after (State.rebase_moves ..)
  try clear_value a2
  have h3 : Moves [.od, .odNew, .io, .paths, .convs, .ref, .mets] s a3 := by
    unfold a3
    repeat' first
      | with_reducible exact Moves.refl _ _
      | with_reducible assumption
      | ((with_reducible intro _ _); decide +revert)
      | with_reducible apply Moves.after (State.checkWord_moves ..)
  try clear_value a3
  have h4 : Moves [.od, .odNew, .io, .paths, .convs, .ref, .mets] s a4 := by
    unfold a4
    repeat' first
      | with_reducible exact Moves.refl _ _
      | with_reducible assumption
      | ((with_reducible intro _ _); decide +revert)
      | with_reducible apply Moves.after (State.dieResult_moves ..)
      | with_reducible apply Moves.after (State.hodProtect_moves ..)
  try clear_value a4
  have h5 : Moves [.od, .odNew, .io, .paths, .convs, .ref, .mets] s a5 := by
    unfold a5
    repeat' first
      | with_reducible exact Moves.refl _ _
      | with_reducible assumption
      | ((with_reducible intro _ _); decide +revert)
      | with_reducible apply Moves.ite
      | with_reducible apply Moves.after (State.meter_moves ..)
  try clear_value a5
  have h6 : Moves [.od, .odNew, .io, .paths, .convs, .ref, .mets] s a6 := by
    unfold a6
    repeat' first
      | with_reducible exact Moves.refl _ _
      | with_reducible assumption
      | ((with_reducible intro _ _); decide +revert)
      | with_reducible apply Moves.ite
      | with_reducible apply Moves.after (State.count_moves ..)
  try clear_value a6
  have h7 : Moves [.od, .odNew, .io, .paths, .convs, .ref, .mets] s a7 := by
    unfold a7
    repeat' first
      | with_reducible exact Moves.refl _ _
      | with_reducible assumption
      | ((with_reducible intro _ _); decide +revert)
      | with_reducible apply Moves.ite
      | with_reducible apply Moves.after (State.injWord_moves ..)
      | with_reducible apply Moves.after (State.mirrorRestart_moves ..)
      | with_reducible apply Moves.after (State.seqWord_moves ..)
      | with_reducible apply Moves.after (State.tqBit_moves ..)
  try clear_value a7
  repeat' first
    | with_reducible exact Moves.refl _ _
    | with_reducible assumption
    | ((with_reducible intro _ _); decide +revert)
    | with_reducible apply Moves.after (State.refreshUnc_moves ..)

theorem State.boundaryOf_moves (s : State) (w : Fin 3) (split : Bool) : Moves [.od, .odNew, .mets, .rails, .time] s (State.boundaryOf s w split) := by
  unfold State.boundaryOf
  try dsimp only
  repeat' first
    | with_reducible exact Moves.refl _ _
    | with_reducible assumption
    | ((with_reducible intro _ _); decide +revert)
    | with_reducible apply Moves.ite
    | with_reducible refine Moves.foldl (fun _ _ => ?_) ?_
    | with_reducible apply Moves.after (State.judgeMargin_moves ..)
    | with_reducible apply Moves.after (State.windowEnd_moves ..)

theorem State.takeBoundaries_moves (s : State) (split : Bool) : Moves [.od, .odNew, .mets, .rails, .time] s (State.takeBoundaries s split) := by
  unfold State.takeBoundaries
  repeat' first
    | with_reducible exact Moves.refl _ _
    | ((with_reducible intro _ _); decide +revert)
    | with_reducible apply Moves.ite
    | with_reducible refine Moves.foldl (fun _ _ => ?_) ?_
    | with_reducible apply Moves.after (State.boundaryOf_moves ..)

theorem State.refApply_moves (s : State) (k : Nat) (x : Int) : Moves [.od, .odNew, .convs, .mets] s (State.refApply s k x) := by
  have h : Moves [.od, .odNew, .convs, .mets] s { s with odNew := SMap.put noPending s.odNew k none } :=
    Moves.mono (by decide) (Moves.upd_odNew _ _ fun h => SMap.wf_put _ _ _ _ h)
  unfold State.refApply
  dsimp only
  refine Moves.ite ?_ (Moves.ite ?_ ?_)
  · exact Moves.after (State.refreshUncAll_moves ..) (by decide) (Moves.after (State.wr_moves ..) (by decide)
      (Moves.after (Moves.upd_convs _ _) (by decide) h))
  · exact Moves.after (State.refreshUncAll_moves ..) (by decide) (Moves.after (State.wr_moves ..) (by decide)
      (Moves.after (State.wr_moves ..) (by decide) h))
  · exact Moves.after (State.wr_moves ..) (by decide) h

theorem State.refStrobe_moves (s : State) : Moves [.od, .odNew, .convs, .mets] s (State.refStrobe s) := by
  unfold State.refStrobe
  repeat' first
    | with_reducible exact Moves.refl _ _
    | ((with_reducible intro _ _); decide +revert)
    | with_reducible apply Moves.ite
    | with_reducible refine Moves.foldl (fun _ _ => ?_) ?_
    | with_reducible apply Moves.after (State.refApply_moves ..)
    | split

theorem State.cmpStands_moves (s : State) (c : Cmp) : Moves [.od, .odNew, .io, .paths, .tiles] s (State.cmpStands s c) := by
  unfold State.cmpStands
  repeat' first
    | with_reducible exact Moves.refl _ _
    | ((with_reducible intro _ _); decide +revert)
    | with_reducible apply Moves.after (State.dischargeWatch_moves ..)
    | with_reducible apply Moves.after (State.limitWatch_moves ..)
    | split

end Sys2Proof.Machine
end

