-- ==== Sys2Proof/Laws/MovesSystem.lean ====
section
/-! SUPPORT. The parts that each operation on the state can move: the recorder, timers, OTP, engines, two-wire buses, resets, boot and power. -/

namespace Sys2Proof.Machine

theorem reset_cores : ((List.finRange 18).all fun c => (State.reset.core c).memoriesOk) = true := by decide +kernel

theorem State.sampleAll_moves (s : State) : Moves [.recorder] s (State.sampleAll s) := by
  unfold State.sampleAll
  extract_lets a1 a2 a3
  try clear_value a1
  try clear_value a2
  try clear_value a3
  with_reducible repeat' first
    | exact Moves.refl _ _
    | decide
    | apply Moves.after (Moves.upd_recorder ..)

theorem State.clearImage_moves (s : State) : Moves [.od, .recorder] s (State.clearImage s) := by
  unfold State.clearImage
  extract_lets a1 a2
  have h1 : Moves [.od, .recorder] s a1 := by
    unfold a1
    with_reducible repeat' first
      | exact Moves.refl _ _
      | decide
      | apply Moves.after (State.wr_moves ..)
  try clear_value a1
  try clear_value a2
  with_reducible repeat' first
    | assumption
    | decide
    | apply Moves.after (Moves.upd_recorder ..)

theorem State.useLeaf_moves (s : State) : Moves [.nv] s (State.useLeaf s) := by
  unfold State.useLeaf
  with_reducible repeat' first
    | exact Moves.refl _ _
    | decide
    | apply Moves.after (State.nvPut_moves ..)

theorem State.beginFlush_moves (s : State) (c : Nat) : Moves [.recorder, .nv] s (State.beginFlush s c) := by
  unfold State.beginFlush
  extract_lets a1 a2 a3
  try clear_value a1
  have h2 : Moves [.recorder, .nv] s a2 := by
    unfold a2
    with_reducible repeat' first
      | exact Moves.refl _ _
      | decide
      | apply Moves.after (State.nvPut_moves ..)
  try clear_value a2
  try clear_value a3
  with_reducible repeat' first
    | assumption
    | decide
    | apply Moves.after (Moves.upd_recorder ..)

theorem State.startFlush_moves (s : State) : Moves [.recorder, .nv] s (State.startFlush s) := by
  unfold State.startFlush
  repeat' first
    | with_reducible exact Moves.refl _ _
    | ((with_reducible intro _ _); decide +revert)
    | with_reducible apply Moves.ite
    | with_reducible apply Moves.after (State.beginFlush_moves ..)
    | split

theorem State.saveSeconds_moves (s : State) : Moves [.nv] s (State.saveSeconds s) := by
  unfold State.saveSeconds
  with_reducible repeat' first
    | exact Moves.refl _ _
    | decide
    | apply Moves.after (State.nvPut_moves ..)

theorem execRecCmdFlush_moves (r0 : State) (s : State) : Moves [.pins, .recorder, .answer] s (stateOf r0 (execRecCmdFlush s)) := by
  unfold execRecCmdFlush
  refine Moves.after (settle_moves _) (by decide) ?_
  with_reducible repeat' first
    | exact Moves.refl _ _
    | decide
    | apply Moves.after (State.flushCause_moves ..)
    | apply Moves.after (State.reply_moves ..)

theorem State.recClear_moves (s : State) : Moves [.od, .recorder] s (State.recClear s) := by
  unfold State.recClear
  extract_lets a1 a2 a3
  try clear_value a1
  have h2 : Moves [.od, .recorder] s a2 := by
    unfold a2
    with_reducible repeat' first
      | exact Moves.refl _ _
      | decide
      | apply Moves.after (State.flushCause_moves ..)
  try clear_value a2
  try clear_value a3
  repeat' first
    | with_reducible exact Moves.refl _ _
    | with_reducible assumption
    | decide
    | with_reducible apply Moves.ite
    | with_reducible apply Moves.after (State.clearImage_moves ..)
    | split
    | with_reducible apply Moves.after (Moves.upd_recorder ..)

theorem execRecClearImage_moves (r0 : State) (s : State) : Moves [.od, .pins, .recorder, .answer] s (stateOf r0 (execRecClearImage s)) := by
  unfold execRecClearImage
  refine Moves.after (settle_moves _) (by decide) ?_
  with_reducible repeat' first
    | exact Moves.refl _ _
    | decide
    | apply Moves.after (State.reply_moves ..)
    | apply Moves.after (State.recClear_moves ..)

theorem State.wallErase_moves (s : State) : Moves [.od, .recorder, .answer] s (State.wallErase s) := by
  unfold State.wallErase
  extract_lets a1 a2 a3 a4
  try clear_value a1
  try clear_value a2
  try clear_value a3
  have h4 : Moves [.od, .recorder, .answer] s a4 := by
    unfold a4
    with_reducible repeat' first
      | exact Moves.refl _ _
      | decide
      | apply Moves.after (Moves.upd_recorder ..)
  try clear_value a4
  with_reducible repeat' first
    | exact Moves.refl _ _
    | assumption
    | decide
    | apply Moves.ite
    | apply Moves.after (State.wr_moves ..)
    | apply Moves.after (State.reply_moves ..)

theorem execRecClearWallErase_moves (r0 : State) (s : State) : Moves [.od, .pins, .recorder, .answer] s (stateOf r0 (execRecClearWallErase s)) := by
  unfold execRecClearWallErase
  refine Moves.after (settle_moves _) (by decide) ?_
  with_reducible repeat' first
    | exact Moves.refl _ _
    | decide
    | apply Moves.after (State.wallErase_moves ..)

theorem State.denyWrite_moves (s : State) (c : CoreId) : Moves [.time] s (State.denyWrite s c) := by
  unfold State.denyWrite
  extract_lets a1
  try clear_value a1
  with_reducible repeat' first
    | exact Moves.refl _ _
    | decide
    | apply Moves.after (Moves.upd_time ..)

theorem State.fireAll_moves (s : State) (burst : Bool) : Moves [.tbcs, .time] s (State.fireAll s burst) := by
  unfold State.fireAll
  repeat' first
    | with_reducible exact Moves.refl _ _
    | ((with_reducible intro _ _); decide +revert)
    | with_reducible apply Moves.ite
    | with_reducible refine Moves.foldl (fun _ _ => ?_) ?_
    | with_reducible apply Moves.after (State.emit_moves ..)
    | with_reducible apply Moves.after (State.setTbc_moves ..)
    | extract_lets

theorem execTbcHiWrite_moves (r0 : State) (c : CoreId) (m : Tbc) (v : BitVec 32) (s : State) : Moves [.pins, .tbcs, .time] s (stateOf r0 (execTbcHiWrite c m v s)) := by
  unfold execTbcHiWrite
  extract_lets a1 a2
  try clear_value a1
  try clear_value a2
  refine Moves.after (settle_moves _) (by decide) ?_
  with_reducible repeat' first
    | exact Moves.refl _ _
    | decide
    | apply Moves.ite
    | apply Moves.after (State.setTbc_moves ..)
    | apply Moves.after (State.denyWrite_moves ..)

theorem State.countBy_moves (s : State) (k : Ctr) (c : Nat) (wide : Bool) : Moves [.cts] s (State.countBy s k c wide).1 := by
  unfold State.countBy
  extract_lets a1 a2
  try clear_value a1
  try clear_value a2
  with_reducible repeat' first
    | exact Moves.refl _ _
    | decide
    | apply Moves.after (State.setCt_moves ..)

theorem State.wideCheck_moves (s : State) (k : Ctr) (v0 : Nat) : Moves [.cts] s (State.wideCheck s k v0) := by
  unfold State.wideCheck
  extract_lets a1 a2 a3 a4
  try clear_value a1
  try clear_value a2
  try clear_value a3
  try clear_value a4
  with_reducible repeat' first
    | exact Moves.refl _ _
    | decide
    | apply Moves.ite
    | apply Moves.after (State.setCt_moves ..)

theorem State.carry_moves (s : State) (n : Nat) (k : Ctr) (w : Nat) : Moves [.cts] s (State.carry s n k w) := by
  induction n generalizing s k w with
  | zero => exact Moves.refl _ _
  | succ n ih =>
    unfold State.carry
    split
    · dsimp only
      split
      · exact Moves.after (ih ..) (fun _ h => h) (State.countBy_moves ..)
      · exact Moves.refl _ _
    · exact Moves.refl _ _

theorem State.countChain_moves (s : State) (k : Ctr) (c : Nat) : Moves [.cts] s (State.countChain s k c) := by
  unfold State.countChain
  extract_lets a1 a2
  try clear_value a1
  have h2 : Moves [.cts] s a2.1 := by
    unfold a2
    with_reducible repeat' first
      | exact Moves.refl _ _
      | decide
      | apply Moves.after (State.countBy_moves ..)
  try clear_value a2
  with_reducible repeat' first
    | assumption
    | decide
    | apply Moves.after (State.wideCheck_moves ..)
    | apply Moves.after (State.carry_moves ..)

theorem State.advanceCts_moves (s : State) (n : Nat) : Moves [.cts] s (State.advanceCts s n) := by
  unfold State.advanceCts
  repeat' first
    | with_reducible exact Moves.refl _ _
    | decide
    | with_reducible apply Moves.ite
    | with_reducible apply Moves.after (State.setCt_moves ..)
    | with_reducible apply Moves.after (State.countChain_moves ..)
    | with_reducible apply Moves.foldl
    | intro _ _

theorem State.latchChain_moves (s : State) (c : CoreId) (k : Ctr) : Moves [.time] s (State.latchChain s c k) := by
  unfold State.latchChain
  extract_lets a1 a2
  try clear_value a1
  try clear_value a2
  with_reducible repeat' first
    | exact Moves.refl _ _
    | decide
    | apply Moves.ite
    | apply Moves.after (Moves.upd_time ..)

theorem State.readCap_moves (s : State) (c : CoreId) (k : Ctr) : Moves [.cts] s (State.readCap s c k) := by
  unfold State.readCap
  extract_lets a1
  try clear_value a1
  with_reducible repeat' first
    | exact Moves.refl _ _
    | decide
    | apply Moves.ite
    | apply Moves.after (State.setCt_moves ..)

theorem State.advanceTgs_moves (s : State) (n : Nat) : Moves [.od, .tgs, .time] s (State.advanceTgs s n) := by
  unfold State.advanceTgs
  repeat' first
    | with_reducible exact Moves.refl _ _
    | ((with_reducible intro _ _); decide +revert)
    | with_reducible apply Moves.ite
    | with_reducible refine Moves.foldl (fun _ _ => ?_) ?_
    | with_reducible apply Moves.after (State.setTg_moves ..)
    | with_reducible apply Moves.after (State.tgOut_moves ..)
    | with_reducible apply Moves.after (State.wr_moves ..)
    | split
    | extract_lets

theorem execTgCmdStart_moves (r0 : State) (g : Tg) (s : State) : Moves [.pins, .answer, .tgs] s (stateOf r0 (execTgCmdStart g s)) := by
  unfold execTgCmdStart
  extract_lets a1
  try clear_value a1
  refine Moves.after (settle_moves _) (by decide) ?_
  with_reducible repeat' first
    | exact Moves.refl _ _
    | decide
    | apply Moves.after (State.setTg_moves ..)
    | apply Moves.after (State.reply_moves ..)

theorem execTgCmdStop_moves (r0 : State) (g : Tg) (s : State) : Moves [.pins, .answer, .tgs] s (stateOf r0 (execTgCmdStop g s)) := by
  unfold execTgCmdStop
  extract_lets a1
  try clear_value a1
  refine Moves.after (settle_moves _) (by decide) ?_
  with_reducible repeat' first
    | exact Moves.refl _ _
    | decide
    | apply Moves.after (State.setTg_moves ..)
    | apply Moves.after (State.reply_moves ..)

theorem State.writePeriod_moves (s : State) (c : CoreId) (g : Tg) (v : Nat) : Moves [.tgs, .time] s (State.writePeriod s c g v) := by
  unfold State.writePeriod
  extract_lets a1
  try clear_value a1
  repeat' first
    | with_reducible exact Moves.refl _ _
    | with_reducible assumption
    | ((with_reducible intro _ _); decide +revert)
    | with_reducible apply Moves.ite
    | with_reducible apply Moves.after (State.denyWrite_moves ..)
    | with_reducible apply Moves.after (State.setTg_moves ..)
    | with_reducible apply Moves.after (State.tgOut_moves ..)

theorem State.advanceTb_moves (s : State) (n : Nat) (burst : Bool) : Moves [.od, .tb, .tbcs, .tgs, .time] s (State.advanceTb s n burst) := by
  unfold State.advanceTb
  repeat' first
    | with_reducible exact Moves.refl _ _
    | ((with_reducible intro _ _); decide +revert)
    | with_reducible apply Moves.after (State.advanceTgs_moves ..)
    | with_reducible apply Moves.after (State.fireAll_moves ..)
    | with_reducible apply Moves.after (Moves.upd_tb _ _)

theorem State.jumpTb_moves (s : State) (n : Nat) : Moves [.od, .odNew, .tb, .mets, .rails, .tbcs, .tgs, .time] s (State.jumpTb s n) := by
  unfold State.jumpTb
  try dsimp only
  repeat' first
    | with_reducible exact Moves.refl _ _
    | with_reducible assumption
    | ((with_reducible intro _ _); decide +revert)
    | with_reducible apply Moves.after (State.advanceTb_moves ..)
    | with_reducible apply Moves.after (State.gapWindows_moves ..)
    | with_reducible apply Moves.after (State.takeBoundaries_moves ..)
    | with_reducible apply Moves.after (Moves.upd_time _ _)

theorem State.applyStep_moves (s : State) : Moves [.od, .odNew, .tb, .mets, .rails, .tbcs, .tgs, .time] s (State.applyStep s) := by
  unfold State.applyStep
  repeat' first
    | with_reducible exact Moves.refl _ _
    | ((with_reducible intro _ _); decide +revert)
    | with_reducible apply Moves.after (State.jumpTb_moves ..)
    | split

theorem State.writeStep_moves (s : State) (n : Nat) : Moves [.answer, .time] s (State.writeStep s n) := by
  unfold State.writeStep
  extract_lets a1
  try clear_value a1
  with_reducible repeat' first
    | exact Moves.refl _ _
    | decide
    | apply Moves.ite
    | apply Moves.after (State.reply_moves ..)
    | apply Moves.after (Moves.upd_time ..)

theorem execTbStepWrite_moves (r0 : State) (n : Nat) (s : State) : Moves [.pins, .answer, .time] s (stateOf r0 (execTbStepWrite n s)) := by
  unfold execTbStepWrite
  refine Moves.after (settle_moves _) (by decide) ?_
  with_reducible repeat' first
    | exact Moves.refl _ _
    | decide
    | apply Moves.after (State.writeStep_moves ..)

theorem State.tick_moves (s : State) : Moves [.od, .odNew, .tb, .mets, .rails, .cts, .tbcs, .tgs, .time] s (State.tick s) := by
  unfold State.tick
  repeat' first
    | with_reducible exact Moves.refl _ _
    | ((with_reducible intro _ _); decide +revert)
    | with_reducible apply Moves.ite
    | with_reducible apply Moves.after (State.advanceCts_moves ..)
    | with_reducible apply Moves.after (State.advanceTb_moves ..)
    | with_reducible apply Moves.after (State.jumpTb_moves ..)
    | split
    | with_reducible apply Moves.after (Moves.upd_time _ _)
    | extract_lets

theorem State.latchHi_moves (s : State) (r : Requester) : Moves [.time] s (State.latchHi s r) := by
  unfold State.latchHi
  extract_lets a1
  try clear_value a1
  with_reducible repeat' first
    | exact Moves.refl _ _
    | decide
    | apply Moves.after (Moves.upd_time ..)

theorem State.discipline_moves (s : State) (frac : Fin 8) : Moves [.od, .time] s (State.discipline s frac) := by
  unfold State.discipline
  extract_lets a1 a2 a3 a4 a5 a6
  try clear_value a1
  try clear_value a2
  try clear_value a3
  try clear_value a4
  have h5 : Moves [.od, .time] s a5 := by
    unfold a5
    with_reducible repeat' first
      | exact Moves.refl _ _
      | decide
      | apply Moves.after (Moves.upd_time ..)
  try clear_value a5
  have h6 : Moves [.od, .time] s a6 := by
    unfold a6
    with_reducible repeat' first
      | assumption
      | decide
      | apply Moves.after (State.wr_moves ..)
  try clear_value a6
  with_reducible repeat' first
    | assumption
    | decide
    | apply Moves.ite
    | apply Moves.after (State.wr_moves ..)

theorem State.undisciplined_moves (s : State) : Moves [.od, .time] s (State.undisciplined s) := by
  unfold State.undisciplined
  extract_lets a1
  try clear_value a1
  with_reducible repeat' first
    | exact Moves.refl _ _
    | decide
    | apply Moves.after (State.wr_moves ..)
    | apply Moves.after (Moves.upd_time ..)

theorem State.takeDisc_moves (s : State) (src : Int) : Moves [.od, .odNew] s (State.takeDisc s src) := by
  unfold State.takeDisc
  with_reducible repeat' first
    | exact Moves.refl _ _
    | decide
    | apply Moves.ite
    | apply Moves.after (State.applyKey_moves ..)

theorem State.judgeRegion_moves (s : State) (r : Fin 4) : Moves [.od] s (State.judgeRegion s r) := by
  unfold State.judgeRegion
  with_reducible repeat' first
    | exact Moves.refl _ _
    | decide
    | apply Moves.after (State.wr_moves ..)

theorem State.weakFound_moves (s : State) (a : Nat) : Moves [.od, .blob, .io] s (State.weakFound s a) := by
  unfold State.weakFound
  extract_lets a1 a2 a3
  try clear_value a1
  try clear_value a2
  have h3 : Moves [.od, .blob, .io] s a3 := by
    unfold a3
    with_reducible repeat' first
      | exact Moves.refl _ _
      | decide
      | apply Moves.ite
      | apply Moves.after (State.wrB_moves ..)
  try clear_value a3
  with_reducible repeat' first
    | assumption
    | decide
    | apply Moves.after (State.wr_moves ..)
    | apply Moves.after (State.count_moves ..)
    | apply Moves.after (State.flag_moves ..)
    | apply Moves.after (State.ioFlag_moves ..)
    | apply Moves.after (State.alert_moves ..)

theorem State.noteWord_moves (s : State) (a : Nat) (w : OtpWord) : Moves [.od, .blob, .io] s (State.noteWord s a w) := by
  unfold State.noteWord
  with_reducible repeat' first
    | exact Moves.refl _ _
    | decide
    | apply Moves.ite
    | apply Moves.after (State.weakFound_moves ..)

theorem State.showCounters_moves (s : State) : Moves [.od, .blob] s (State.showCounters s) := by
  unfold State.showCounters
  extract_lets a1 a2
  try clear_value a1
  have h2 : Moves [.od, .blob] s a2 := by
    unfold a2
    repeat' first
      | with_reducible exact Moves.refl _ _
      | decide
      | with_reducible apply Moves.after (State.wr_moves ..)
      | with_reducible apply Moves.foldl
      | intro _ _
  try clear_value a2
  with_reducible repeat' first
    | assumption
    | decide
    | apply Moves.after (State.wr_moves ..)
    | apply Moves.after (State.wrB_moves ..)

theorem State.showSpares_moves (s : State) : Moves [.od, .blob] s (State.showSpares s) := by
  unfold State.showSpares
  extract_lets a1
  try clear_value a1
  with_reducible repeat' first
    | exact Moves.refl _ _
    | decide
    | apply Moves.after (State.wr_moves ..)
    | apply Moves.after (State.wrB_moves ..)

theorem State.otpField_moves (s : State) (lo : Nat) (v : Nat) : Moves [.od] s (State.otpField s lo v) := by
  unfold State.otpField
  extract_lets a1
  try clear_value a1
  with_reducible repeat' first
    | exact Moves.refl _ _
    | decide
    | apply Moves.after (State.wr_moves ..)

theorem State.otpRefuse_moves (s : State) (status : Nat) (reason : Nat) : Moves [.od, .answer] s (State.otpRefuse s status reason) := by
  unfold State.otpRefuse
  with_reducible repeat' first
    | exact Moves.refl _ _
    | decide
    | apply Moves.after (State.reply_moves ..)
    | apply Moves.after (State.otpField_moves ..)

theorem State.otpRun_moves (s : State) (j : OtpJob) : Moves [.od, .otp] s (State.otpRun s j) := by
  unfold State.otpRun
  extract_lets a1 a2
  have h1 : Moves [.od, .otp] s a1 := by
    unfold a1
    with_reducible repeat' first
      | exact Moves.refl _ _
      | decide
      | apply Moves.after (State.otpField_moves ..)
  try clear_value a1
  try clear_value a2
  with_reducible repeat' first
    | assumption
    | decide
    | apply Moves.after (Moves.upd_otp ..)

theorem State.otpBurn_moves (s : State) (vpp : Bool) (j : OtpJob) : Moves [.od, .answer, .otp] s (State.otpBurn s vpp j) := by
  unfold State.otpBurn
  with_reducible repeat' first
    | exact Moves.refl _ _
    | decide
    | apply Moves.ite
    | apply Moves.after (State.flag_moves ..)
    | apply Moves.after (State.otpRefuse_moves ..)
    | apply Moves.after (State.otpRun_moves ..)

theorem State.otpRead_moves (s : State) : Moves [.od, .answer, .otp] s (State.otpRead s) := by
  unfold State.otpRead
  extract_lets a1
  try clear_value a1
  with_reducible repeat' first
    | exact Moves.refl _ _
    | decide
    | apply Moves.ite
    | apply Moves.after (State.reply_moves ..)
    | apply Moves.after (State.otpRefuse_moves ..)
    | apply Moves.after (State.otpRun_moves ..)

theorem State.otpProgram_moves (s : State) (via : OtpVia) (raw : Bool) (vpp : Bool) : Moves [.od, .answer, .otp] s (State.otpProgram s via raw vpp) := by
  unfold State.otpProgram
  extract_lets a1
  try clear_value a1
  repeat' first
    | with_reducible exact Moves.refl _ _
    | decide
    | with_reducible apply Moves.ite
    | with_reducible apply Moves.after (State.reply_moves ..)
    | with_reducible apply Moves.after (State.otpRefuse_moves ..)
    | with_reducible apply Moves.after (State.otpBurn_moves ..)
    | split

theorem State.otpRepair_moves (s : State) (via : OtpVia) (vpp : Bool) : Moves [.od, .answer, .otp] s (State.otpRepair s via vpp) := by
  unfold State.otpRepair
  extract_lets a1 a2 a3 a4
  try clear_value a1
  try clear_value a2
  try clear_value a3
  try clear_value a4
  repeat' first
    | with_reducible exact Moves.refl _ _
    | decide
    | with_reducible apply Moves.ite
    | with_reducible apply Moves.after (State.reply_moves ..)
    | with_reducible apply Moves.after (State.otpRefuse_moves ..)
    | with_reducible apply Moves.after (State.otpBurn_moves ..)
    | split

theorem State.otpFinalise_moves (s : State) (via : OtpVia) (arg : Nat) (vpp : Bool) : Moves [.od, .answer, .otp] s (State.otpFinalise s via arg vpp) := by
  unfold State.otpFinalise
  extract_lets a1
  repeat' first
    | with_reducible exact Moves.refl _ _
    | decide
    | with_reducible apply Moves.ite
    | with_reducible apply Moves.after (State.wr_moves ..)
    | with_reducible apply Moves.after (State.reply_moves ..)
    | with_reducible apply Moves.after (State.otpRefuse_moves ..)
    | with_reducible apply Moves.after (State.otpBurn_moves ..)
    | split
    | dsimp only

theorem State.otpAdvance_moves (s : State) (k : Nat) (vpp : Bool) : Moves [.od, .answer, .otp] s (State.otpAdvance s k vpp) := by
  unfold State.otpAdvance
  extract_lets a1
  try clear_value a1
  with_reducible repeat' first
    | exact Moves.refl _ _
    | decide
    | apply Moves.ite
    | apply Moves.after (State.reply_moves ..)
    | apply Moves.after (State.otpRefuse_moves ..)
    | apply Moves.after (State.otpBurn_moves ..)

theorem State.otpEnd_moves (s : State) (result : Nat) (tries : Nat) (reason : Nat) : Moves [.od, .io, .answer, .otp] s (State.otpEnd s result tries reason) := by
  unfold State.otpEnd
  extract_lets a1 a2
  try clear_value a1
  have h2 : Moves [.od, .io, .answer, .otp] s a2 := by
    unfold a2
    with_reducible repeat' first
      | exact Moves.refl _ _
      | decide
      | apply Moves.after (Moves.upd_otp ..)
  try clear_value a2
  with_reducible repeat' first
    | assumption
    | decide
    | apply Moves.after (State.ioFlag_moves ..)
    | apply Moves.after (State.reply_moves ..)
    | apply Moves.after (State.otpField_moves ..)

theorem State.otpBurned_moves (s : State) (r : Burner × Bool) : Moves [.od, .blob, .io, .answer, .otp] s (State.otpBurned s r) := by
  unfold State.otpBurned
  extract_lets a1 a2 a3 a4
  try clear_value a1
  try clear_value a2
  have h3 : Moves [.od, .blob, .io, .answer, .otp] s a3 := by
    unfold a3
    with_reducible repeat' first
      | exact Moves.refl _ _
      | decide
      | apply Moves.after (Moves.upd_otp ..)
  try clear_value a3
  have h4 : Moves [.od, .blob, .io, .answer, .otp] s a4 := by
    unfold a4
    repeat' first
      | with_reducible exact Moves.refl _ _
      | with_reducible assumption
      | decide
      | with_reducible apply Moves.after (State.weakFound_moves ..)
      | with_reducible apply Moves.after (State.showCounters_moves ..)
      | with_reducible apply Moves.after (State.showSpares_moves ..)
      | with_reducible apply Moves.foldl
      | intro _ _
  try clear_value a4
  with_reducible repeat' first
    | assumption
    | decide
    | apply Moves.ite
    | apply Moves.after (State.otpEnd_moves ..)

theorem execOtpCmdRead_moves (r0 : State) (via : OtpVia) (s : State) : Moves [.od, .pins, .answer, .otp] s (stateOf r0 (execOtpCmdRead via s)) :=
  Moves.after (settle_moves _) (by decide) (State.otpReach_moves (Moves.mono (by decide) (State.otpRead_moves ..)))

theorem execOtpCmdProgram_moves (r0 : State) (via : OtpVia) (raw vpp : Bool) (s : State) : Moves [.od, .pins, .answer, .otp] s (stateOf r0 (execOtpCmdProgram via raw vpp s)) :=
  Moves.after (settle_moves _) (by decide) (State.otpReach_moves (Moves.mono (by decide) (State.otpProgram_moves ..)))

theorem execOtpCmdRepair_moves (r0 : State) (via : OtpVia) (vpp : Bool) (s : State) : Moves [.od, .pins, .answer, .otp] s (stateOf r0 (execOtpCmdRepair via vpp s)) :=
  Moves.after (settle_moves _) (by decide) (State.otpReach_moves (Moves.mono (by decide) (State.otpRepair_moves ..)))

theorem execOtpCmdFinalise_moves (r0 : State) (via : OtpVia) (arg : Fin 32) (vpp : Bool) (s : State) : Moves [.od, .pins, .answer, .otp] s (stateOf r0 (execOtpCmdFinalise via arg vpp s)) :=
  Moves.after (settle_moves _) (by decide) (State.otpReach_moves (Moves.mono (by decide) (State.otpFinalise_moves ..)))

theorem execOtpCmdAdvance_moves (r0 : State) (via : OtpVia) (arg : Fin 32) (vpp : Bool) (s : State) : Moves [.od, .pins, .answer, .otp] s (stateOf r0 (execOtpCmdAdvance via arg vpp s)) :=
  Moves.after (settle_moves _) (by decide) (State.otpReach_moves (Moves.mono (by decide) (State.otpAdvance_moves ..)))

theorem execCntAdvance_moves (r0 : State) (k : Nat) (vpp : Bool) (s : State) : Moves [.od, .pins, .answer, .otp] s (stateOf r0 (execCntAdvance k vpp s)) := by
  unfold execCntAdvance
  refine Moves.after (settle_moves _) (by decide) ?_
  with_reducible repeat' first
    | exact Moves.refl _ _
    | decide
    | apply Moves.ite
    | apply Moves.after (State.reply_moves ..)
    | apply Moves.after (State.otpAdvance_moves ..)

theorem execLockAppSet_moves (r0 : State) (m : BitVec 16) (s : State) : Moves [.od, .pins, .answer] s (stateOf r0 (execLockAppSet m s)) := by
  unfold execLockAppSet
  refine Moves.after (settle_moves _) (by decide) ?_
  with_reducible repeat' first
    | exact Moves.refl _ _
    | decide
    | apply Moves.after (State.wr_moves ..)
    | apply Moves.after (State.reply_moves ..)

theorem State.setLath_moves (s : State) (n : Tile) (v : Int) : Moves [.od] s (State.setLath s n v) := by
  unfold State.setLath
  with_reducible repeat' first
    | exact Moves.refl _ _
    | decide
    | apply Moves.after (State.wr_moves ..)
    | apply Moves.after (State.alert_moves ..)

theorem State.slotLost_moves (s : State) (c : Conv) : Moves [.od, .io, .fresh, .convs] s (State.slotLost s c) := by
  unfold State.slotLost
  dsimp only
  with_reducible repeat' first
    | exact Moves.refl _ _
    | assumption
    | decide
    | apply Moves.ite
    | apply Moves.after (State.convert_moves ..)
    | apply Moves.after (State.rebase_moves ..)
    | apply Moves.after (State.setConv_moves ..)
    | apply Moves.after (State.tqBit_moves ..)
    | apply Moves.after (State.withhold_moves ..)

theorem State.tileFails_moves (s : State) (n : Tile) : Moves [.od, .odNew, .io, .cmps, .paths, .ledger, .tiles, .ports, .mets, .recorder] s (State.tileFails s n) := by
  unfold State.tileFails
  extract_lets a1 a2
  try clear_value a1
  have h2 : Moves [.od, .odNew, .io, .cmps, .paths, .ledger, .tiles, .ports, .mets, .recorder] s a2 := by
    unfold a2
    with_reducible repeat' first
      | exact Moves.refl _ _
      | decide
      | apply Moves.after (State.setTile_moves ..)
  try clear_value a2
  repeat' first
    | with_reducible exact Moves.refl _ _
    | with_reducible assumption
    | decide
    | with_reducible apply Moves.after (State.flushClass_moves ..)
    | with_reducible apply Moves.after (State.safeOff_moves ..)
    | with_reducible apply Moves.after (State.refreshUncAll_moves ..)
    | with_reducible apply Moves.after (State.setLath_moves ..)
    | with_reducible apply Moves.foldl
    | intro _ _

theorem State.freshPort_moves (s : State) (p : Port) : Moves [.od, .odNew, .io, .cmps, .paths, .ledger, .tiles, .ports] s (State.freshPort s p) := by
  unfold State.freshPort
  extract_lets a1 a2 a3 a4
  have h1 : Moves [.od, .odNew, .io, .cmps, .paths, .ledger, .tiles, .ports] s a1 := by
    unfold a1
    with_reducible repeat' first
      | exact Moves.refl _ _
      | decide
      | apply Moves.after (State.book_moves ..)
      | apply Moves.after (State.leaveWait_moves ..)
      | apply Moves.after (State.gateOff_moves ..)
      | apply Moves.after (State.clearContract_moves ..)
  try clear_value a1
  have h2 : Moves [.od, .odNew, .io, .cmps, .paths, .ledger, .tiles, .ports] s a2 := by
    unfold a2
    with_reducible repeat' first
      | assumption
      | decide
      | apply Moves.after (Moves.upd_od _ _ (fun hw => SMap.wf_filter _ _ _ hw))
  try clear_value a2
  try clear_value a3
  have h4 : Moves [.od, .odNew, .io, .cmps, .paths, .ledger, .tiles, .ports] s a4 := by
    unfold a4
    with_reducible repeat' first
      | assumption
      | decide
      | apply Moves.after (State.setPath_moves ..)
      | apply Moves.after (State.setPort_moves ..)
  try clear_value a4
  with_reducible repeat' first
    | assumption
    | decide
    | apply Moves.after (State.iow_moves ..)
    | apply Moves.after (State.leaveSafe_moves ..)
    | apply Moves.after (State.toUnattached_moves ..)

theorem State.otpFactors_moves (s : State) (c : Conv) : Moves [.od] s (State.otpFactors s c) := by
  unfold State.otpFactors
  with_reducible repeat' first
    | exact Moves.refl _ _
    | decide
    | apply Moves.after (State.setFactors_moves ..)

theorem State.freshTile_moves (s : State) (n : Tile) : Moves [.od, .odNew, .io, .cmps, .paths, .ledger, .tiles, .ports, .convs, .mets] s (State.freshTile s n) := by
  unfold State.freshTile
  dsimp only
  with_reducible repeat' first
    | exact Moves.refl _ _
    | assumption
    | decide
    | refine Moves.foldl (fun _ _ => ?_) ?_
    | apply Moves.after (State.freshPort_moves ..)
    | apply Moves.after (State.otpFactors_moves ..)
    | apply Moves.after (State.refreshUncAll_moves ..)
    | apply Moves.after (State.setConv_moves ..)
    | apply Moves.after (State.setTile_moves ..)
    | apply Moves.after (State.wr_moves ..)

theorem State.setEng_moves (s : State) (e : Eng) (v : Int) : Moves [.od] s (State.setEng s e v) := by
  unfold State.setEng
  with_reducible repeat' first
    | exact Moves.refl _ _
    | decide
    | apply Moves.after (State.wr_moves ..)

theorem State.clearEngine_moves (s : State) (e : Eng) : Moves [.io, .cores, .mboxes] s (State.clearEngine s e) := by
  unfold State.clearEngine
  refine Moves.after (State.setMbox_moves ..) (by decide) ?_
  refine Moves.after (State.setCore_moves _ _ _ (CoreHw.stopped_mem _)) (by decide) ?_
  exact Moves.mono (by decide) (Moves.upd_io _ _ fun h => SMap.wf_filter _ _ _ h)

theorem State.sendKcmd_moves (s : State) (e : Eng) : Moves [.fresh, .mboxes] s (State.sendKcmd s e) := by
  unfold State.sendKcmd
  extract_lets a1
  try clear_value a1
  with_reducible repeat' first
    | exact Moves.refl _ _
    | decide
    | apply Moves.after (State.setMbox_moves ..)
    | apply Moves.after (State.draw_moves ..)

theorem State.putShared_moves (s : State) (a : Nat) (l : List Nat) : Moves [.shared] s (State.putShared s a l) :=
  Moves.upd_shared _ _ fun h => memPuts_wf _ _ _ _ h

theorem State.releaseEngine_moves (s : State) (e : Eng) : Moves [.od, .io, .cores, .mboxes, .float] s (State.releaseEngine s e) := by
  unfold State.releaseEngine
  extract_lets a b c
  have h : Moves [.od, .io, .cores, .mboxes, .float] s a := Moves.mono (by decide) (State.clearEngine_moves ..)
  have g : Moves [.od, .io, .cores, .mboxes, .float] s b :=
    Moves.after (State.setCore_moves _ _ _ fun _ => CoreHw.released_mem _ _ _ _) (by decide) h
  exact Moves.after (State.setEng_moves ..) (by decide) (Moves.after (Moves.upd_float _ _) (by decide) g)

theorem State.floatReg_moves (s : State) (off : Nat) (v : Int) : Moves [.io] s (State.floatReg s off v) := by
  unfold State.floatReg
  with_reducible repeat' first
    | exact Moves.refl _ _
    | decide
    | apply Moves.after (State.iow_moves ..)

theorem State.endAdoption_moves (s : State) : Moves [.od, .io, .float] s (State.endAdoption s) := by
  unfold State.endAdoption
  extract_lets a1 a2
  have h1 : Moves [.od, .io, .float] s a1 := by
    unfold a1
    with_reducible repeat' first
      | exact Moves.refl _ _
      | decide
      | apply Moves.after (State.wr_moves ..)
      | apply Moves.after (State.floatReg_moves ..)
  try clear_value a1
  try clear_value a2
  with_reducible repeat' first
    | assumption
    | decide
    | apply Moves.after (Moves.upd_float ..)

theorem State.adopt_moves (s : State) (k : Eng) : Moves [.od, .io, .float] s (State.adopt s k) := by
  unfold State.adopt
  extract_lets a1 a2 a3 a4 a5 a6 a7
  try clear_value a1
  have h2 : Moves [.od, .io, .float] s a2 := by
    unfold a2
    with_reducible repeat' first
      | exact Moves.refl _ _
      | decide
      | apply Moves.after (State.floatReg_moves ..)
  try clear_value a2
  have h3 : Moves [.od, .io, .float] s a3 := by
    unfold a3
    with_reducible repeat' first
      | assumption
      | decide
      | apply Moves.after (State.floatReg_moves ..)
  try clear_value a3
  have h4 : Moves [.od, .io, .float] s a4 := by
    unfold a4
    with_reducible repeat' first
      | assumption
      | decide
      | apply Moves.after (State.wr_moves ..)
      | apply Moves.after (State.floatReg_moves ..)
  try clear_value a4
  try clear_value a5
  try clear_value a6
  have h7 : Moves [.od, .io, .float] s a7 := by
    unfold a7
    with_reducible repeat' first
      | assumption
      | decide
      | apply Moves.after (Moves.upd_float ..)
  try clear_value a7
  with_reducible repeat' first
    | assumption
    | decide
    | apply Moves.ite
    | apply Moves.after (State.ioFlag_moves ..)
    | apply Moves.after (State.setEng_moves ..)

theorem State.leaveBarrier_moves (s : State) (k : Eng) : Moves [.float] s (State.leaveBarrier s k) := by
  unfold State.leaveBarrier
  extract_lets a1
  try clear_value a1
  with_reducible repeat' first
    | exact Moves.refl _ _
    | decide
    | apply Moves.after (Moves.upd_float ..)

theorem State.abandon_moves (s : State) (k : Eng) (b : Nat) (cause : Int) : Moves [.od, .odNew, .io, .cmps, .paths, .ledger, .tiles, .ports, .recorder, .float] s (State.abandon s k b cause) := by
  unfold State.abandon
  repeat' first
    | with_reducible exact Moves.refl _ _
    | ((with_reducible intro _ _); decide +revert)
    | with_reducible refine Moves.foldl (fun _ _ => ?_) ?_
    | with_reducible apply Moves.after (State.leaveBarrier_moves ..)
    | with_reducible apply Moves.after (State.safeOff_moves ..)

theorem State.failEngine_moves (s : State) (e : Eng) (cause : Int) : Moves [.od, .odNew, .io, .cmps, .paths, .ledger, .tiles, .ports, .recorder, .cores, .mboxes, .float] s (State.failEngine s e cause) := by
  unfold State.failEngine
  try dsimp only
  repeat' first
    | with_reducible exact Moves.refl _ _
    | with_reducible exact CoreHw.stopped_mem _
    | ((with_reducible intro _ _); decide +revert)
    | with_reducible apply Moves.ite
    | with_reducible apply Moves.after (State.abandon_moves ..)
    | with_reducible apply Moves.after (State.adopt_moves ..)
    | with_reducible apply Moves.after (State.alert_moves ..)
    | with_reducible apply Moves.after (State.endAdoption_moves ..)
    | with_reducible apply Moves.after (State.leaveBarrier_moves ..)
    | with_reducible apply Moves.after (State.setCore_moves _ _ _ ?_)
    | with_reducible apply Moves.after (State.setEng_moves ..)
    | with_reducible apply Moves.after (State.setMbox_moves ..)
    | with_reducible apply Moves.after (State.wr_moves ..)

theorem State.adoptDone_moves (s : State) : Moves (partsBut [.pending, .tb, .clk, .otpShadow, .cts, .tbcs, .shared]) s (State.adoptDone s) := by
  unfold State.adoptDone
  extract_lets a1 a2 a3 a4 a5
  try clear_value a1
  try clear_value a2
  have h3 : Moves (partsBut [.pending, .tb, .clk, .otpShadow, .cts, .tbcs, .shared]) s a3 := by
    unfold a3
    with_reducible repeat' first
      | exact Moves.refl _ _
      | decide
      | apply Moves.after (Moves.upd_float ..)
  try clear_value a3
  have h4 : Moves (partsBut [.pending, .tb, .clk, .otpShadow, .cts, .tbcs, .shared]) s a4 := by
    unfold a4
    with_reducible repeat' first
      | assumption
      | decide
      | apply Moves.after (State.ioFlag_moves ..)
      | apply Moves.after (State.setEng_moves ..)
  try clear_value a4
  have h5 : Moves (partsBut [.pending, .tb, .clk, .otpShadow, .cts, .tbcs, .shared]) s a5 := by
    unfold a5
    with_reducible repeat' first
      | assumption
      | decide
      | apply Moves.after (State.wr_moves ..)
  try clear_value a5
  repeat' first
    | with_reducible exact Moves.refl _ _
    | with_reducible assumption
    | decide
    | with_reducible apply Moves.ite
    | with_reducible apply Moves.after (State.count_moves ..)
    | with_reducible apply Moves.after (State.replayHeld_moves ..)
    | with_reducible apply Moves.foldl
    | intro _ _

theorem State.watchdogExpiry_moves (s : State) (e : Eng) : Moves [.od, .odNew, .io, .cmps, .paths, .ledger, .tiles, .ports, .recorder, .cores, .mboxes, .float] s (State.watchdogExpiry s e) := by
  unfold State.watchdogExpiry
  extract_lets a1 a2
  have h2 : Moves [.od, .odNew, .io, .cmps, .paths, .ledger, .tiles, .ports, .recorder, .cores, .mboxes, .float] s a2 := by
    unfold a2
    with_reducible repeat' first
      | exact Moves.refl _ _
      | decide
      | apply Moves.after (State.ioFlag_moves ..)
  repeat' first
    | with_reducible exact Moves.refl _ _
    | with_reducible assumption
    | decide
    | with_reducible apply Moves.ite
    | with_reducible apply Moves.after (State.setCore_moves _ _ _ ?_)
    | exact id
    | with_reducible apply Moves.after (State.failEngine_moves ..)

theorem State.wdKick_moves (s : State) (e : Eng) (key : Nat) : Moves [.od, .odNew, .io, .cmps, .paths, .ledger, .tiles, .ports, .recorder, .cores, .mboxes, .float] s (State.wdKick s e key) := by
  unfold State.wdKick
  repeat' first
    | with_reducible exact Moves.refl _ _
    | ((with_reducible intro _ _); decide +revert)
    | with_reducible apply Moves.ite
    | with_reducible apply Moves.after (State.iow_moves ..)
    | with_reducible apply Moves.after (State.watchdogExpiry_moves ..)

theorem State.ckCommit_moves (s : State) (e : Eng) (h : Nat) : Moves [.od, .odNew, .io, .float] s (State.ckCommit s e h) := by
  unfold State.ckCommit
  extract_lets a1
  try clear_value a1
  repeat' first
    | with_reducible exact Moves.refl _ _
    | with_reducible assumption
    | ((with_reducible intro _ _); decide +revert)
    | with_reducible apply Moves.ite
    | with_reducible apply Moves.after (State.ioFlag_moves ..)
    | with_reducible apply Moves.after (State.iow_moves ..)
    | with_reducible apply Moves.after (State.takeLate_moves ..)
    | extract_lets

theorem State.openBarrier_moves (s : State) (set : List Eng) : Moves [.io, .fresh, .mboxes, .float] s (State.openBarrier s set) := by
  unfold State.openBarrier
  extract_lets a1 a2 a3
  try clear_value a1
  have h2 : Moves [.io, .fresh, .mboxes, .float] s a2 := by
    unfold a2
    repeat' first
      | with_reducible exact Moves.refl _ _
      | decide
      | with_reducible apply Moves.after (State.ioFlag_moves ..)
      | with_reducible apply Moves.after (State.sendKcmd_moves ..)
      | with_reducible apply Moves.foldl
      | intro _ _
  try clear_value a2
  try clear_value a3
  with_reducible repeat' first
    | exact Moves.refl _ _
    | assumption
    | decide
    | apply Moves.ite
    | apply Moves.after (Moves.upd_float ..)

theorem State.arrive_moves (s : State) (e : Eng) : Moves [.io, .float] s (State.arrive s e) := by
  unfold State.arrive
  extract_lets a1 a2
  have h1 : Moves [.io, .float] s a1 := by
    unfold a1
    with_reducible repeat' first
      | exact Moves.refl _ _
      | decide
      | apply Moves.after (State.ioFlag_moves ..)
  try clear_value a1
  try clear_value a2
  with_reducible repeat' first
    | exact Moves.refl _ _
    | assumption
    | decide
    | apply Moves.ite
    | apply Moves.after (Moves.upd_float ..)

theorem State.releaseBarrier_moves (s : State) : Moves [.io, .float] s (State.releaseBarrier s) := by
  unfold State.releaseBarrier
  extract_lets a1 a2 a3
  try clear_value a1
  have h2 : Moves [.io, .float] s a2 := by
    unfold a2
    repeat' first
      | with_reducible exact Moves.refl _ _
      | decide
      | with_reducible apply Moves.after (State.ioFlag_moves ..)
      | with_reducible apply Moves.foldl
      | intro _ _
  try clear_value a2
  try clear_value a3
  with_reducible repeat' first
    | exact Moves.refl _ _
    | assumption
    | decide
    | apply Moves.ite
    | apply Moves.after (Moves.upd_float ..)

theorem State.cmdFailEngine_moves (s : State) : Moves [.od, .odNew, .io, .cmps, .paths, .ledger, .tiles, .ports, .recorder, .answer, .cores, .mboxes, .float] s (State.cmdFailEngine s) := by
  unfold State.cmdFailEngine
  extract_lets a1
  try clear_value a1
  repeat' first
    | with_reducible exact Moves.refl _ _
    | with_reducible assumption
    | ((with_reducible intro _ _); decide +revert)
    | with_reducible apply Moves.ite
    | with_reducible apply Moves.after (State.failEngine_moves ..)
    | with_reducible apply Moves.after (State.reply_moves ..)

theorem State.kcmdRead_moves (s : State) (e : Eng) : Moves [.mboxes] s (State.kcmdRead s e) := by
  unfold State.kcmdRead
  extract_lets a1
  try clear_value a1
  with_reducible repeat' first
    | exact Moves.refl _ _
    | decide
    | apply Moves.after (State.setMbox_moves ..)

theorem State.startXfer_moves (s : State) (c : CoreId) (push : Bool) (loc : Nat) (shared : Nat) (len : Nat) (tag : Fin 4) : Moves [.od, .io, .cores] s (State.startXfer s c push loc shared len tag) := by
  unfold State.startXfer
  extract_lets a1 a2 a3
  try clear_value a2
  have h3 : Moves [.od, .io, .cores] s a3 := by
    unfold a3
    repeat' first
      | with_reducible exact Moves.refl _ _
      | decide
      | with_reducible apply Moves.after (State.setCore_moves _ _ _ ?_)
      | exact id
  with_reducible repeat' first
    | exact Moves.refl _ _
    | assumption
    | decide
    | apply Moves.ite
    | apply Moves.after (State.count_moves ..)
    | apply Moves.after (State.ioFlag_moves ..)

theorem State.twShow_moves (s : State) (b : Bus) : Moves [.od] s (State.twShow s b) := by
  unfold State.twShow
  extract_lets a1
  try clear_value a1
  with_reducible repeat' first
    | exact Moves.refl _ _
    | decide
    | apply Moves.after (State.wW_moves ..)

theorem State.putTw_moves (s : State) (b : Bus) (h : TwHw) : Moves [.od, .tws] s (State.putTw s b h) := by
  unfold State.putTw
  with_reducible repeat' first
    | exact Moves.refl _ _
    | decide
    | apply Moves.after (State.setTw_moves ..)
    | apply Moves.after (State.twShow_moves ..)

theorem State.twEnd_moves (s : State) (b : Bus) (code : Int) (acked : Nat) : Moves [.od, .tws] s (State.twEnd s b code acked) := by
  unfold State.twEnd
  repeat' first
    | with_reducible exact Moves.refl _ _
    | ((with_reducible intro _ _); decide +revert)
    | with_reducible apply Moves.after (State.putTw_moves ..)
    | with_reducible apply Moves.after (State.wW_moves ..)
    | extract_lets

theorem State.dropPart_moves (s : State) (b : Bus) : Moves [.od, .srcs] s (State.dropPart s b) := by
  unfold State.dropPart
  extract_lets a1
  try clear_value a1
  with_reducible repeat' first
    | exact Moves.refl _ _
    | decide
    | apply Moves.ite
    | apply Moves.after (State.setSrc_moves ..)
    | apply Moves.after (State.count_moves ..)

theorem State.twConfig_moves (s : State) (b : Bus) : Moves [.od, .odNew] s (State.twConfig s b) := by
  unfold State.twConfig
  extract_lets a1
  try clear_value a1
  with_reducible repeat' first
    | exact Moves.refl _ _
    | decide
    | apply Moves.ite
    | apply Moves.after (State.applyKeys_moves ..)

theorem State.twStart_moves (s : State) (b : Bus) : Moves [.od, .fresh, .tws] s (State.twStart s b) := by
  unfold State.twStart
  extract_lets a1
  try clear_value a1
  repeat' first
    | with_reducible exact Moves.refl _ _
    | with_reducible assumption
    | ((with_reducible intro _ _); decide +revert)
    | with_reducible apply Moves.ite
    | with_reducible apply Moves.after (State.putTw_moves ..)
    | with_reducible apply Moves.after (State.twRuns_moves ..)
    | with_reducible apply Moves.after (State.wW_moves ..)
    | split

theorem State.twGo_moves (s : State) (b : Bus) : Moves [.od, .fresh, .answer, .tws] s (State.twGo s b) := by
  unfold State.twGo
  extract_lets a1 a2 a3
  try clear_value a1
  try clear_value a2
  try clear_value a3
  repeat' first
    | with_reducible exact Moves.refl _ _
    | with_reducible assumption
    | ((with_reducible intro _ _); decide +revert)
    | with_reducible apply Moves.ite
    | with_reducible apply Moves.after (State.putTw_moves ..)
    | with_reducible apply Moves.after (State.reply_moves ..)
    | with_reducible apply Moves.after (State.twStart_moves ..)
    | with_reducible apply Moves.after (State.wW_moves ..)
    | extract_lets

theorem execTwCtlGo_moves (r0 : State) (b : Bus) (s : State) : Moves [.od, .fresh, .pins, .answer, .tws] s (stateOf r0 (execTwCtlGo b s)) := by
  unfold execTwCtlGo
  refine Moves.after (settle_moves _) (by decide) ?_
  repeat' first
    | with_reducible exact Moves.refl _ _
    | ((with_reducible intro _ _); decide +revert)
    | with_reducible apply Moves.after (State.twGo_moves ..)

theorem State.twAbort_moves (s : State) (b : Bus) : Moves [.od, .answer, .tws] s (State.twAbort s b) := by
  unfold State.twAbort
  repeat' first
    | with_reducible exact Moves.refl _ _
    | ((with_reducible intro _ _); decide +revert)
    | with_reducible apply Moves.ite
    | with_reducible apply Moves.after (State.putTw_moves ..)
    | with_reducible apply Moves.after (State.reply_moves ..)
    | with_reducible apply Moves.after (State.twEnd_moves ..)
    | split
    | extract_lets

theorem execTwCtlAbort_moves (r0 : State) (b : Bus) (s : State) : Moves [.od, .pins, .answer, .tws] s (stateOf r0 (execTwCtlAbort b s)) := by
  unfold execTwCtlAbort
  refine Moves.after (settle_moves _) (by decide) ?_
  repeat' first
    | with_reducible exact Moves.refl _ _
    | ((with_reducible intro _ _); decide +revert)
    | with_reducible apply Moves.after (State.twAbort_moves ..)

theorem State.twCount_moves (s : State) (b : Bus) (i : Nat) : Moves [.od] s (State.twCount s b i) := by
  unfold State.twCount
  with_reducible repeat' first
    | exact Moves.refl _ _
    | decide
    | apply Moves.after (State.count_moves ..)

theorem State.twFlag_moves (s : State) (b : Bus) (i : Nat) : Moves [.od] s (State.twFlag s b i) := by
  unfold State.twFlag
  with_reducible repeat' first
    | exact Moves.refl _ _
    | decide
    | apply Moves.after (State.flag_moves ..)

theorem State.twLose_moves (s : State) (b : Bus) (byte : Nat) (bit : Nat) (mine : Option Bool) : Moves (partsBut [.pending, .tb, .ledgerPorts, .clk, .otpShadow, .cts, .tbcs, .shared]) s (State.twLose s b byte bit mine) := by
  unfold State.twLose
  extract_lets a1 a2 a3 a4
  have h1 : Moves (partsBut [.pending, .tb, .ledgerPorts, .clk, .otpShadow, .cts, .tbcs, .shared]) s a1 := by
    unfold a1
    with_reducible repeat' first
      | exact Moves.refl _ _
      | decide
      | apply Moves.after (State.wW_moves ..)
      | apply Moves.after (State.twCount_moves ..)
      | apply Moves.after (State.twFlag_moves ..)
  try clear_value a1
  try clear_value a2
  have h3 : Moves (partsBut [.pending, .tb, .ledgerPorts, .clk, .otpShadow, .cts, .tbcs, .shared]) s a3 := by
    unfold a3
    repeat' first
      | with_reducible assumption
      | decide
      | with_reducible apply Moves.ite
      | with_reducible apply Moves.after (State.putTw_moves ..)
      | split
  try clear_value a3
  try clear_value a4
  repeat' first
    | with_reducible exact Moves.refl _ _
    | with_reducible assumption
    | decide
    | with_reducible apply Moves.ite
    | with_reducible apply Moves.after (State.putTw_moves ..)
    | with_reducible apply Moves.after (State.twEnd_moves ..)
    | split

theorem State.twCutOff_moves (s : State) (b : Bus) (j : TwJob) (acked : Nat) : Moves [.od, .tws] s (State.twCutOff s b j acked) := by
  unfold State.twCutOff
  repeat' first
    | with_reducible exact Moves.refl _ _
    | ((with_reducible intro _ _); decide +revert)
    | with_reducible apply Moves.after (State.twEnd_moves ..)

theorem State.twRelease_moves (s : State) (b : Bus) (acked : Nat) : Moves [.od, .tws] s (State.twRelease s b acked) := by
  unfold State.twRelease
  extract_lets a1
  have h1 : Moves [.od, .tws] s a1 := by
    unfold a1
    repeat' first
      | with_reducible exact Moves.refl _ _
      | with_reducible assumption
      | ((with_reducible intro _ _); decide +revert)
      | with_reducible apply Moves.ite
      | with_reducible apply Moves.after (State.twCutOff_moves ..)
      | split
  try clear_value a1
  repeat' first
    | with_reducible exact Moves.refl _ _
    | with_reducible assumption
    | ((with_reducible intro _ _); decide +revert)
    | with_reducible apply Moves.after (State.putTw_moves ..)
    | extract_lets

theorem State.twClearFlags_moves (s : State) (b : Bus) : Moves [.od] s (State.twClearFlags s b) := by
  unfold State.twClearFlags
  with_reducible repeat' first
    | exact Moves.refl _ _
    | decide
    | apply Moves.after (State.wW_moves ..)

theorem execTwCmdClearFlags_moves (r0 : State) (b : Bus) (s : State) : Moves [.od, .pins, .answer] s (stateOf r0 (execTwCmdClearFlags b s)) := by
  unfold execTwCmdClearFlags
  refine Moves.after (settle_moves _) (by decide) ?_
  with_reducible repeat' first
    | exact Moves.refl _ _
    | decide
    | apply Moves.after (State.reply_moves ..)
    | apply Moves.after (State.twClearFlags_moves ..)

theorem State.twClearCounters_moves (s : State) (b : Bus) : Moves [.od] s (State.twClearCounters s b) := by
  unfold State.twClearCounters
  repeat' first
    | with_reducible exact Moves.refl _ _
    | decide
    | with_reducible apply Moves.after (State.wW_moves ..)
    | with_reducible apply Moves.foldl
    | intro _ _

theorem execTwCmdClearCounters_moves (r0 : State) (b : Bus) (s : State) : Moves [.od, .pins, .answer] s (stateOf r0 (execTwCmdClearCounters b s)) := by
  unfold execTwCmdClearCounters
  refine Moves.after (settle_moves _) (by decide) ?_
  with_reducible repeat' first
    | exact Moves.refl _ _
    | decide
    | apply Moves.after (State.reply_moves ..)
    | apply Moves.after (State.twClearCounters_moves ..)

theorem State.tornWord_moves (s : State) (a : Nat) (v : Nat) (ks : List Nat) : Moves [.fresh, .otp] s (State.tornWord s a v ks) := by
  unfold State.tornWord
  extract_lets a1
  try clear_value a1
  repeat' first
    | with_reducible exact Moves.refl _ _
    | with_reducible assumption
    | ((with_reducible intro _ _); decide +revert)
    | with_reducible apply Moves.after (State.draw_moves ..)
    | with_reducible apply Moves.after (Moves.upd_otp _ _)
    | extract_lets

theorem State.tornRow_moves (s : State) (row : Nat) (i : Nat) (v : Nat) : Moves [.fresh, .otp] s (State.tornRow s row i v) := by
  unfold State.tornRow
  try dsimp only
  repeat' first
    | with_reducible exact Moves.refl _ _
    | with_reducible assumption
    | ((with_reducible intro _ _); decide +revert)
    | with_reducible refine Moves.foldl (fun _ _ => ?_) ?_
    | with_reducible apply Moves.after (State.burnt_moves ..)
    | with_reducible apply Moves.after (State.draw_moves ..)
    | with_reducible apply Moves.after (State.tornWord_moves ..)
    | split

theorem State.tornDigest_moves (s : State) (r : Fin 4) : Moves [.fresh, .otp] s (State.tornDigest s r) := by
  unfold State.tornDigest
  try dsimp only
  repeat' first
    | with_reducible exact Moves.refl _ _
    | with_reducible assumption
    | ((with_reducible intro _ _); decide +revert)
    | with_reducible apply Moves.ite
    | with_reducible apply Moves.after (State.burnt_moves ..)
    | with_reducible apply Moves.after (State.draw_moves ..)
    | with_reducible apply Moves.after (State.tornWord_moves ..)
    | split

theorem State.otpCut_moves (s : State) : Moves [.fresh, .otp] s (State.otpCut s) := by
  unfold State.otpCut
  try dsimp only
  repeat' first
    | with_reducible exact Moves.refl _ _
    | with_reducible assumption
    | ((with_reducible intro _ _); decide +revert)
    | with_reducible apply Moves.ite
    | with_reducible apply Moves.after (State.burnt_moves ..)
    | with_reducible apply Moves.after (State.draw_moves ..)
    | with_reducible apply Moves.after (State.tornDigest_moves ..)
    | with_reducible apply Moves.after (State.tornRow_moves ..)
    | with_reducible apply Moves.after (State.tornWord_moves ..)
    | split
    | with_reducible apply Moves.after (Moves.upd_otp _ _)

theorem State.resetCounts_moves (s : State) (k : ResetKind) : Moves [.od] s (State.resetCounts s k) := by
  unfold State.resetCounts
  extract_lets a1 a2 a3
  have h1 : Moves [.od] s a1 := by
    unfold a1
    with_reducible repeat' first
      | exact Moves.refl _ _
      | decide
      | apply Moves.ite
      | apply Moves.after (State.wr_moves ..)
  try clear_value a1
  have h2 : Moves [.od] s a2 := by
    unfold a2
    with_reducible repeat' first
      | assumption
      | decide
      | apply Moves.ite
      | apply Moves.after (State.count_moves ..)
  try clear_value a2
  have h3 : Moves [.od] s a3 := by
    unfold a3
    repeat' first
      | with_reducible assumption
      | decide
      | with_reducible apply Moves.after (State.count_moves ..)
      | split
  try clear_value a3
  repeat' first
    | with_reducible assumption
    | decide
    | with_reducible apply Moves.after (State.wr_moves ..)
    | split

theorem State.freshDevice_moves (s : State) (k : ResetKind) : Moves (partsBut [.pending]) s (State.freshDevice s k) := by
  have hod : SMap.wf odDefault s.od = true → SMap.wf odDefault (resetOd s k) = true := by
    intro h
    unfold resetOd
    dsimp only
    split
    · exact odPut_wf _ _ _ (SMap.wf_filter _ _ _ h)
    · exact SMap.wf_filter _ _ _ h
  unfold State.freshDevice
  dsimp only
  refine Moves.foldl (fun _ _ => Moves.mono (by decide) (State.deadBattery_moves ..))
    (Moves.after (State.resetCounts_moves ..) (by decide) (Moves.after (State.wr_moves ..) (by decide)
      (Moves.after (Moves.upd_ref _ _) (by decide) (Moves.ite (Moves.after (State.undisciplined_moves ..) (by decide) ?_) ?_))))
  all_goals refine ⟨fun x hx => ?_, fun h => ?_⟩
  all_goals first
    | have e : x = .pending := by
        revert hx
        cases x <;> first | exact fun _ => rfl | exact fun h => absurd (by decide) h
      subst e
      exact decide_eq_true rfl
    | simp only [State.canonical, State.storesOk, Bool.and_eq_true] at h ⊢
      exact ⟨⟨⟨⟨⟨hod h.1.1.1.1.1, rfl⟩, SMap.wf_filter _ _ _ h.1.1.1.2⟩, rfl⟩, rfl⟩, reset_cores⟩

theorem State.deviceReset_moves (s : State) (k : ResetKind) : Moves (partsBut [.pending]) s (State.deviceReset s k) := by
  unfold State.deviceReset
  extract_lets a1
  have h1 : Moves (partsBut [.pending]) s a1 := by
    unfold a1
    with_reducible repeat' first
      | exact Moves.refl _ _
      | decide
      | apply Moves.after (State.freshDevice_moves ..)
  try clear_value a1
  repeat' first
    | with_reducible exact Moves.refl _ _
    | with_reducible assumption
    | decide
    | with_reducible apply Moves.ite
    | with_reducible apply Moves.after (State.iow_moves ..)
    | split

theorem State.keeperExpiry_moves (s : State) : Moves (partsBut [.pending]) s (State.keeperExpiry s) := by
  unfold State.keeperExpiry
  with_reducible repeat' first
    | exact Moves.refl _ _
    | decide
    | apply Moves.ite
    | apply Moves.after (State.deviceReset_moves ..)

theorem execResetRequest_moves (r0 : State) (s : State) : Moves [.pins, .answer, .power] s (stateOf r0 (execResetRequest s)) := by
  unfold execResetRequest
  extract_lets a1
  try clear_value a1
  refine Moves.after (settle_moves _) (by decide) ?_
  with_reducible repeat' first
    | exact Moves.refl _ _
    | decide
    | apply Moves.after (State.reply_moves ..)
    | apply Moves.after (Moves.upd_power ..)

theorem execKwdKick_moves (r0 : State) (key : BitVec 32) (s : State) : Moves (partsBut [.pending]) s (stateOf r0 (execKwdKick key s)) := by
  unfold execKwdKick
  refine Moves.after (settle_moves _) (by decide) ?_
  with_reducible repeat' first
    | exact Moves.refl _ _
    | decide
    | apply Moves.ite
    | apply Moves.after (State.keeperExpiry_moves ..)

theorem State.scanWord_moves (s : State) (a : Nat) : Moves [.od, .blob, .io, .otpShadow] s (State.scanWord s a) := by
  unfold State.scanWord
  extract_lets a1
  try clear_value a1
  with_reducible repeat' first
    | exact Moves.refl _ _
    | decide
    | apply Moves.ite
    | apply Moves.after (State.weakFound_moves ..)
    | apply Moves.after (State.noteWord_moves ..)
    | apply Moves.after (Moves.upd_otpShadow ..)

theorem State.scanOtp_moves (s : State) : Moves [.od, .blob, .io, .otpShadow] s (State.scanOtp s) := by
  unfold State.scanOtp
  extract_lets a1 a2 a3 a4
  try clear_value a1
  have h2 : Moves [.od, .blob, .io, .otpShadow] s a2 := by
    unfold a2
    with_reducible repeat' first
      | exact Moves.refl _ _
      | decide
      | apply Moves.after (State.wr_moves ..)
      | apply Moves.after (State.wrB_moves ..)
      | apply Moves.after (Moves.upd_otpShadow ..)
  try clear_value a2
  have h3 : Moves [.od, .blob, .io, .otpShadow] s a3 := by
    unfold a3
    repeat' first
      | with_reducible exact Moves.refl _ _
      | with_reducible assumption
      | decide
      | with_reducible apply Moves.after (State.weakFound_moves ..)
      | with_reducible apply Moves.foldl
      | intro _ _
  try clear_value a3
  have h4 : Moves [.od, .blob, .io, .otpShadow] s a4 := by
    unfold a4
    repeat' first
      | with_reducible exact Moves.refl _ _
      | with_reducible assumption
      | decide
      | with_reducible apply Moves.after (State.scanWord_moves ..)
      | with_reducible apply Moves.foldl
      | intro _ _
  try clear_value a4
  repeat' first
    | with_reducible exact Moves.refl _ _
    | with_reducible assumption
    | decide
    | with_reducible apply Moves.after (State.judgeRegion_moves ..)
    | with_reducible apply Moves.after (State.showCounters_moves ..)
    | with_reducible apply Moves.after (State.showSpares_moves ..)
    | with_reducible apply Moves.foldl
    | intro _ _

theorem State.driveField_moves (s : State) (f : Nat × Nat) : Moves [.od, .blob, .io, .otpShadow] s (State.driveField s f) := by
  unfold State.driveField
  repeat' first
    | with_reducible exact Moves.refl _ _
    | decide
    | with_reducible apply Moves.ite
    | with_reducible apply Moves.after (State.wr_moves ..)
    | with_reducible apply Moves.after (State.weakFound_moves ..)
    | with_reducible apply Moves.foldl
    | intro _ _
    | split
    | with_reducible apply Moves.after (Moves.upd_otpShadow ..)

theorem State.loadOtp_moves (s : State) : Moves [.od, .blob, .mets] s (State.loadOtp s) := by
  unfold State.loadOtp
  extract_lets a1 a2 a3 a4 a5 a6 a7 a8 a9 a10 a11
  have h1 : Moves [.od, .blob, .mets] s a1 := by
    unfold a1
    with_reducible repeat' first
      | exact Moves.refl _ _
      | decide
      | apply Moves.after (State.wr_moves ..)
  try clear_value a1
  try clear_value a2
  have h3 : Moves [.od, .blob, .mets] s a3 := by
    unfold a3
    with_reducible repeat' first
      | assumption
      | decide
      | apply Moves.after (State.wr_moves ..)
  try clear_value a3
  have h4 : Moves [.od, .blob, .mets] s a4 := by
    unfold a4
    with_reducible repeat' first
      | assumption
      | decide
      | apply Moves.after (State.wr_moves ..)
  try clear_value a4
  have h5 : Moves [.od, .blob, .mets] s a5 := by
    unfold a5
    repeat' first
      | with_reducible exact Moves.refl _ _
      | with_reducible assumption
      | decide
      | with_reducible apply Moves.after (State.wr_moves ..)
      | with_reducible apply Moves.foldl
      | intro _ _
  try clear_value a5
  try clear_value a6
  try clear_value a7
  have h8 : Moves [.od, .blob, .mets] s a8 := by
    unfold a8
    with_reducible repeat' first
      | assumption
      | decide
      | apply Moves.after (State.wr_moves ..)
  try clear_value a8
  have h9 : Moves [.od, .blob, .mets] s a9 := by
    unfold a9
    with_reducible repeat' first
      | assumption
      | decide
      | apply Moves.ite
      | apply Moves.after (State.wr_moves ..)
      | apply Moves.after (State.wrB_moves ..)
  try clear_value a9
  have h10 : Moves [.od, .blob, .mets] s a10 := by
    unfold a10
    repeat' first
      | with_reducible exact Moves.refl _ _
      | with_reducible assumption
      | decide
      | with_reducible apply Moves.after (State.wrB_moves ..)
      | with_reducible apply Moves.foldl
      | intro _ _
  try clear_value a10
  have h11 : Moves [.od, .blob, .mets] s a11 := by
    unfold a11
    with_reducible repeat' first
      | assumption
      | decide
      | apply Moves.after (State.wrB_moves ..)
  try clear_value a11
  repeat' first
    | with_reducible exact Moves.refl _ _
    | with_reducible assumption
    | decide
    | with_reducible apply Moves.after (State.refreshUncAll_moves ..)
    | with_reducible apply Moves.after (State.otpFactors_moves ..)
    | with_reducible apply Moves.foldl
    | intro _ _

theorem State.newChallenge_moves (s : State) : Moves [.blob, .fresh] s (State.newChallenge s) := by
  unfold State.newChallenge
  with_reducible repeat' first
    | exact Moves.refl _ _
    | decide
    | apply Moves.after (State.wrB_moves ..)
    | apply Moves.after (State.draw_moves ..)

theorem State.loadControl_moves (s : State) : Moves [.od, .fresh, .clk] s (State.loadControl s) := by
  unfold State.loadControl
  extract_lets a1 a2 a3 a4
  try clear_value a1
  try clear_value a2
  have h3 : Moves [.od, .fresh, .clk] s a3 := by
    unfold a3
    with_reducible repeat' first
      | exact Moves.refl _ _
      | decide
      | apply Moves.after (Moves.upd_clk ..)
  try clear_value a3
  try clear_value a4
  repeat' first
    | with_reducible exact Moves.refl _ _
    | with_reducible assumption
    | decide
    | with_reducible apply Moves.after (State.wW_moves ..)
    | with_reducible apply Moves.after (State.flag_moves ..)
    | with_reducible apply Moves.after (State.draw_moves ..)
    | with_reducible apply Moves.foldl
    | intro _ _

theorem State.loadBank_moves (s : State) (b : Bank) : Moves [.od, .blob, .ledgerPorts, .ledger] s (State.loadBank s b) := by
  unfold State.loadBank
  try dsimp only
  repeat' first
    | with_reducible exact Moves.refl _ _
    | with_reducible assumption
    | ((with_reducible intro _ _); decide +revert)
    | with_reducible apply Moves.ite
    | with_reducible refine Moves.foldl (fun _ _ => ?_) ?_
    | with_reducible apply Moves.after (State.syncPeers_moves ..)
    | with_reducible apply Moves.after (State.wr_moves ..)
    | with_reducible apply Moves.after (State.wrB_moves ..)

theorem State.pairCaps_moves (s : State) : Moves [.od] s (State.pairCaps s) := by
  unfold State.pairCaps
  extract_lets a1
  have h1 : Moves [.od] s a1 := by
    unfold a1
    with_reducible repeat' first
      | exact Moves.refl _ _
      | decide
      | apply Moves.after (State.wr_moves ..)
  try clear_value a1
  with_reducible repeat' first
    | assumption
    | decide
    | apply Moves.after (State.wr_moves ..)

theorem State.clampLimits_moves (s : State) : Moves [.od, .odNew] s (State.clampLimits s) := by
  unfold State.clampLimits
  repeat' first
    | with_reducible exact Moves.refl _ _
    | decide
    | with_reducible apply Moves.ite
    | with_reducible apply Moves.after (State.wr_moves ..)
    | with_reducible apply Moves.after (State.count_moves ..)
    | with_reducible apply Moves.foldl
    | intro _ _
    | split
    | dsimp only
    | with_reducible apply Moves.after (Moves.upd_odNew _ _ (fun hw => SMap.wf_put _ _ _ _ hw))

theorem State.loadStored_moves (s : State) : Moves [.od, .odNew, .blob, .ledgerPorts, .ledger] s (State.loadStored s) := by
  unfold State.loadStored
  extract_lets a1 a2 a3
  try clear_value a1
  have h2 : Moves [.od, .odNew, .blob, .ledgerPorts, .ledger] s a2 := by
    unfold a2
    repeat' first
      | with_reducible exact Moves.refl _ _
      | with_reducible assumption
      | ((with_reducible intro _ _); decide +revert)
      | with_reducible apply Moves.after (State.wr_moves ..)
  try clear_value a2
  have h3 : Moves [.od, .odNew, .blob, .ledgerPorts, .ledger] s a3 := by
    unfold a3
    repeat' first
      | with_reducible exact Moves.refl _ _
      | with_reducible assumption
      | ((with_reducible intro _ _); decide +revert)
      | with_reducible apply Moves.after (State.loadBank_moves ..)
      | split
  try clear_value a3
  repeat' first
    | with_reducible exact Moves.refl _ _
    | with_reducible assumption
    | ((with_reducible intro _ _); decide +revert)
    | with_reducible apply Moves.after (State.clampLimits_moves ..)
    | with_reducible apply Moves.after (State.pairCaps_moves ..)

theorem State.armCmps_moves (s : State) : Moves [.od, .odNew, .cmps, .tiles, .scrim] s (State.armCmps s) := by
  unfold State.armCmps
  extract_lets a1 a2 a3 a4 a5
  have h1 : Moves [.od, .odNew, .cmps, .tiles, .scrim] s a1 := by
    unfold a1
    repeat' first
      | with_reducible exact Moves.refl _ _
      | with_reducible assumption
      | ((with_reducible intro _ _); decide +revert)
      | with_reducible refine Moves.foldl (fun _ _ => ?_) ?_
      | with_reducible apply Moves.after (State.setWinI_moves ..)
      | with_reducible apply Moves.after (State.setWinV_moves ..)
  try clear_value a1
  have h2 : Moves [.od, .odNew, .cmps, .tiles, .scrim] s a2 := by
    unfold a2
    repeat' first
      | with_reducible exact Moves.refl _ _
      | with_reducible assumption
      | ((with_reducible intro _ _); decide +revert)
      | with_reducible refine Moves.foldl (fun _ _ => ?_) ?_
      | with_reducible apply Moves.after (State.refreshFeed_moves ..)
      | with_reducible apply Moves.after (State.setFeedCodes_moves ..)
  try clear_value a2
  have h3 : Moves [.od, .odNew, .cmps, .tiles, .scrim] s a3 := by
    unfold a3
    repeat' first
      | with_reducible exact Moves.refl _ _
      | with_reducible assumption
      | ((with_reducible intro _ _); decide +revert)
      | with_reducible refine Moves.foldl (fun _ _ => ?_) ?_
      | with_reducible apply Moves.after (State.applyRail_moves ..)
  try clear_value a3
  have h4 : Moves [.od, .odNew, .cmps, .tiles, .scrim] s a4 := by
    unfold a4
    repeat' first
      | with_reducible exact Moves.refl _ _
      | with_reducible assumption
      | ((with_reducible intro _ _); decide +revert)
      | with_reducible refine Moves.foldl (fun _ _ => ?_) ?_
      | with_reducible apply Moves.after (State.setCmp_moves ..)
      | extract_lets
  try clear_value a4
  have h5 : Moves [.od, .odNew, .cmps, .tiles, .scrim] s a5 := by
    unfold a5
    repeat' first
      | with_reducible exact Moves.refl _ _
      | with_reducible assumption
      | ((with_reducible intro _ _); decide +revert)
      | with_reducible apply Moves.after (Moves.upd_tiles _ _)
  try clear_value a5
  repeat' first
    | with_reducible exact Moves.refl _ _
    | with_reducible assumption
    | ((with_reducible intro _ _); decide +revert)
    | with_reducible apply Moves.after (Moves.upd_scrim _ _)
    | extract_lets

theorem State.canEnabled_moves (s : State) (c : Fin 2) : Moves [.od] s (State.canEnabled s c) := by
  unfold State.canEnabled
  with_reducible repeat' first
    | exact Moves.refl _ _
    | decide
    | apply Moves.ite
    | apply Moves.after (State.wr_moves ..)

theorem State.startCan_moves (s : State) : Moves [.od, .srcs] s (State.startCan s) := by
  unfold State.startCan
  extract_lets a1
  try clear_value a1
  repeat' first
    | with_reducible exact Moves.refl _ _
    | with_reducible assumption
    | ((with_reducible intro _ _); decide +revert)
    | with_reducible refine Moves.foldl (fun _ _ => ?_) ?_
    | with_reducible apply Moves.after (State.canEnabled_moves ..)
    | with_reducible apply Moves.after (State.setCan_moves ..)
    | extract_lets

theorem State.startUnits_moves (s : State) : Moves [.od, .odNew, .io, .cmps, .slots, .ledger, .tiles, .scrim, .recorder, .srcs] s (State.startUnits s) := by
  unfold State.startUnits
  extract_lets a1 a2 a3 a4 a5
  have h1 : Moves [.od, .odNew, .io, .cmps, .slots, .ledger, .tiles, .scrim, .recorder, .srcs] s a1 := by
    unfold a1
    repeat' first
      | with_reducible exact Moves.refl _ _
      | with_reducible assumption
      | ((with_reducible intro _ _); decide +revert)
      | with_reducible apply Moves.after (State.armCmps_moves ..)
  try clear_value a1
  have h2 : Moves [.od, .odNew, .io, .cmps, .slots, .ledger, .tiles, .scrim, .recorder, .srcs] s a2 := by
    unfold a2
    repeat' first
      | with_reducible exact Moves.refl _ _
      | with_reducible assumption
      | ((with_reducible intro _ _); decide +revert)
      | with_reducible apply Moves.after (State.startCan_moves ..)
  try clear_value a2
  have h3 : Moves [.od, .odNew, .io, .cmps, .slots, .ledger, .tiles, .scrim, .recorder, .srcs] s a3 := by
    unfold a3
    repeat' first
      | with_reducible exact Moves.refl _ _
      | with_reducible assumption
      | ((with_reducible intro _ _); decide +revert)
      | with_reducible apply Moves.after (State.iow_moves ..)
  try clear_value a3
  have h4 : Moves [.od, .odNew, .io, .cmps, .slots, .ledger, .tiles, .scrim, .recorder, .srcs] s a4 := by
    unfold a4
    repeat' first
      | with_reducible exact Moves.refl _ _
      | with_reducible assumption
      | ((with_reducible intro _ _); decide +revert)
      | with_reducible apply Moves.after (State.recompute_moves ..)
      | with_reducible apply Moves.after (State.refreshBudget_moves ..)
  try clear_value a4
  have h5 : Moves [.od, .odNew, .io, .cmps, .slots, .ledger, .tiles, .scrim, .recorder, .srcs] s a5 := by
    unfold a5
    repeat' first
      | with_reducible exact Moves.refl _ _
      | with_reducible assumption
      | ((with_reducible intro _ _); decide +revert)
      | with_reducible apply Moves.after (State.clearImage_moves ..)
      | with_reducible apply Moves.after (State.findHeads_moves ..)
  try clear_value a5
  repeat' first
    | with_reducible exact Moves.refl _ _
    | with_reducible assumption
    | ((with_reducible intro _ _); decide +revert)
    | with_reducible apply Moves.after (State.wr_moves ..)

theorem State.holdBoot_moves (s : State) (code : Nat) : Moves [.sec] s (State.holdBoot s code) := by
  unfold State.holdBoot
  extract_lets a1
  try clear_value a1
  with_reducible repeat' first
    | exact Moves.refl _ _
    | decide
    | apply Moves.after (Moves.upd_sec ..)

theorem State.enterLoader_moves (s : State) : Moves [.od, .cores, .sec] s (State.enterLoader s) := by
  unfold State.enterLoader
  extract_lets a1 a2
  try clear_value a1
  have h2 : Moves [.od, .cores, .sec] s a2 := by
    unfold a2
    with_reducible repeat' first
      | exact Moves.refl _ _
      | decide
      | apply Moves.after (Moves.upd_sec ..)
  try clear_value a2
  repeat' first
    | with_reducible assumption
    | decide
    | with_reducible apply Moves.after (State.wr_moves ..)
    | with_reducible apply Moves.after (State.setCore_moves _ _ _ ?_)
    | exact fun _ => CoreHw.released_mem _ 0 [] _

theorem State.startEngines_moves (s : State) (copyOk : Bool) : Moves [.od, .io, .ports, .coat, .cores, .mboxes, .float, .sec] s (State.startEngines s copyOk) := by
  unfold State.startEngines
  repeat' first
    | with_reducible exact Moves.refl _ _
    | ((with_reducible intro _ _); decide +revert)
    | with_reducible apply Moves.ite
    | with_reducible refine Moves.foldl (fun _ _ => ?_) ?_
    | with_reducible apply Moves.after (State.flag_moves ..)
    | with_reducible apply Moves.after (State.refreshFeed_moves ..)
    | with_reducible apply Moves.after (State.releaseEngine_moves ..)
    | with_reducible apply Moves.after (State.toUnattached_moves ..)
    | with_reducible apply Moves.after (Moves.upd_coat_sec _ _ _)
    | extract_lets

theorem State.enterImage_moves (s : State) (n : Nat) (copyOk : Bool) : Moves [.od, .odNew, .blob, .io, .cmps, .slots, .ledgerPorts, .ledger, .tiles, .ports, .scrim, .coat, .recorder, .cores, .mboxes, .shared, .float, .srcs, .sec] s (State.enterImage s n copyOk) := by
  unfold State.enterImage
  split
  dsimp only
  refine Moves.after (State.startEngines_moves ..) (by decide) (Moves.after (State.startUnits_moves ..) (by decide) ?_)
  refine Moves.after (State.loadStored_moves ..) (by decide) (Moves.after (State.wr_moves ..) (by decide) ?_)
  refine Moves.after (State.wr_moves ..) (by decide) (Moves.after (State.wr_moves ..) (by decide) ?_)
  refine Moves.after (State.wr_moves ..) (by decide) (Moves.after (State.putShared_moves ..) (by decide) ?_)
  refine Moves.after (State.setCore_moves _ _ _ fun _ => ?_) (by decide) (Moves.mono (by decide) (Moves.upd_sec ..))
  simp only [CoreHw.memoriesOk, CoreHw.released, Bool.and_eq_true]
  exact ⟨imemOf_wf _ _, imemOf_wf _ _⟩

theorem State.chooseImage_moves (s : State) (copyOk : Bool) : Moves [.od, .odNew, .blob, .io, .cmps, .slots, .ledgerPorts, .ledger, .tiles, .ports, .scrim, .coat, .recorder, .cores, .mboxes, .shared, .float, .srcs, .sec] s (State.chooseImage s copyOk) := by
  unfold State.chooseImage
  extract_lets a1 a2
  try clear_value a1
  try clear_value a2
  repeat' first
    | with_reducible exact Moves.refl _ _
    | with_reducible assumption
    | ((with_reducible intro _ _); decide +revert)
    | with_reducible apply Moves.ite
    | with_reducible apply Moves.after (State.enterImage_moves ..)
    | with_reducible apply Moves.after (State.enterLoader_moves ..)
    | with_reducible apply Moves.after (State.flag_moves ..)

theorem State.bootRun_moves (s : State) (cs0 : Option WallFound) (cs1 : Option WallFound) (copyOk : Bool) : Moves [.od, .odNew, .blob, .io, .fresh, .cmps, .slots, .ledgerPorts, .ledger, .tiles, .ports, .scrim, .clk, .mets, .otpShadow, .coat, .recorder, .cores, .mboxes, .shared, .float, .srcs, .sec] s (State.bootRun s cs0 cs1 copyOk) := by
  unfold State.bootRun
  extract_lets a1 a2 a3
  have h1 : Moves [.od, .odNew, .blob, .io, .fresh, .cmps, .slots, .ledgerPorts, .ledger, .tiles, .ports, .scrim, .clk, .mets, .otpShadow, .coat, .recorder, .cores, .mboxes, .shared, .float, .srcs, .sec] s a1 := by
    unfold a1
    repeat' first
      | with_reducible exact Moves.refl _ _
      | with_reducible assumption
      | ((with_reducible intro _ _); decide +revert)
      | with_reducible apply Moves.after (State.scanOtp_moves ..)
  try clear_value a1
  try clear_value a2
  have h3 : Moves [.od, .odNew, .blob, .io, .fresh, .cmps, .slots, .ledgerPorts, .ledger, .tiles, .ports, .scrim, .clk, .mets, .otpShadow, .coat, .recorder, .cores, .mboxes, .shared, .float, .srcs, .sec] s a3 := by
    unfold a3
    repeat' first
      | with_reducible exact Moves.refl _ _
      | with_reducible assumption
      | ((with_reducible intro _ _); decide +revert)
      | with_reducible refine Moves.foldl (fun _ _ => ?_) ?_
      | with_reducible apply Moves.after (State.driveField_moves ..)
  try clear_value a3
  repeat' first
    | with_reducible exact Moves.refl _ _
    | with_reducible assumption
    | ((with_reducible intro _ _); decide +revert)
    | with_reducible apply Moves.ite
    | with_reducible apply Moves.after (State.chooseImage_moves ..)
    | with_reducible apply Moves.after (State.enterLoader_moves ..)
    | with_reducible apply Moves.after (State.findWall_moves ..)
    | with_reducible apply Moves.after (State.flag_moves ..)
    | with_reducible apply Moves.after (State.holdBoot_moves ..)
    | with_reducible apply Moves.after (State.loadControl_moves ..)
    | with_reducible apply Moves.after (State.loadOtp_moves ..)
    | with_reducible apply Moves.after (State.newChallenge_moves ..)
    | extract_lets

theorem State.dropLevel_moves (s : State) (t : Transport) : Moves [.od, .sec] s (State.dropLevel s t) := by
  unfold State.dropLevel
  extract_lets a1 a2
  try clear_value a1
  have h2 : Moves [.od, .sec] s a2 := by
    unfold a2
    repeat' first
      | with_reducible exact Moves.refl _ _
      | with_reducible assumption
      | ((with_reducible intro _ _); decide +revert)
      | with_reducible apply Moves.ite
      | with_reducible apply Moves.after (State.wr_moves ..)
  try clear_value a2
  repeat' first
    | with_reducible exact Moves.refl _ _
    | with_reducible assumption
    | ((with_reducible intro _ _); decide +revert)
    | with_reducible apply Moves.after (Moves.upd_sec _ _)
    | extract_lets

theorem State.closeDebug_moves (s : State) : Moves [.sec] s (State.closeDebug s) := by
  unfold State.closeDebug
  extract_lets a1
  try clear_value a1
  with_reducible repeat' first
    | exact Moves.refl _ _
    | decide
    | apply Moves.ite
    | apply Moves.after (Moves.upd_sec ..)

theorem State.showScope_moves (s : State) : Moves [.od] s (State.showScope s) := by
  unfold State.showScope
  repeat' first
    | with_reducible exact Moves.refl _ _
    | decide
    | with_reducible apply Moves.after (State.wr_moves ..)
    | split

theorem State.endScopes_moves (s : State) (stays : Nat → Bool) : Moves [.od, .sec] s (State.endScopes s stays) := by
  unfold State.endScopes
  extract_lets a1
  have h1 : Moves [.od, .sec] s a1 := by
    unfold a1
    repeat' first
      | with_reducible exact Moves.refl _ _
      | with_reducible assumption
      | ((with_reducible intro _ _); decide +revert)
      | with_reducible refine Moves.foldl (fun _ _ => ?_) ?_
      | with_reducible apply Moves.after (State.dropLevel_moves ..)
  try clear_value a1
  repeat' first
    | with_reducible exact Moves.refl _ _
    | with_reducible assumption
    | ((with_reducible intro _ _); decide +revert)
    | with_reducible apply Moves.after (Moves.upd_sec _ _)
    | extract_lets

theorem State.dropToken_moves (s : State) : Moves [.od, .sec] s (State.dropToken s) := by
  unfold State.dropToken
  repeat' first
    | with_reducible exact Moves.refl _ _
    | ((with_reducible intro _ _); decide +revert)
    | with_reducible apply Moves.after (State.closeDebug_moves ..)
    | with_reducible apply Moves.after (State.endScopes_moves ..)
    | with_reducible apply Moves.after (State.showScope_moves ..)

theorem State.closeSession_moves (s : State) (t : Transport) : Moves [.od, .sess, .sec] s (State.closeSession s t) := by
  unfold State.closeSession
  extract_lets a1
  have h1 : Moves [.od, .sess, .sec] s a1 := by
    unfold a1
    repeat' first
      | with_reducible exact Moves.refl _ _
      | with_reducible assumption
      | ((with_reducible intro _ _); decide +revert)
      | with_reducible apply Moves.ite
      | with_reducible apply Moves.after (State.dropLevel_moves ..)
      | with_reducible apply Moves.after (State.showScope_moves ..)
  try clear_value a1
  repeat' first
    | with_reducible exact Moves.refl _ _
    | with_reducible assumption
    | ((with_reducible intro _ _); decide +revert)
    | with_reducible apply Moves.after (State.setSes_moves ..)
    | with_reducible apply Moves.after (State.wr_moves ..)

theorem State.acceptToken_moves (s : State) (t : Transport) (l : List Nat) : Moves [.od, .blob, .fresh, .sec] s (State.acceptToken s t l) := by
  unfold State.acceptToken
  extract_lets a1 a2 a3 a4 a5 a6 a7 a8
  clear_value a1
  clear_value a2
  clear_value a3
  have h4 : Moves [.od, .blob, .fresh, .sec] s a4 := by
    unfold a4
    repeat' first
      | with_reducible exact Moves.refl _ _
      | with_reducible assumption
      | ((with_reducible intro _ _); decide +revert)
      | with_reducible apply Moves.ite
      | with_reducible apply Moves.after (State.newChallenge_moves ..)
      | with_reducible apply Moves.after (State.wr_moves ..)
      | with_reducible apply Moves.after (Moves.upd_sec _ _)
  clear_value a4
  clear_value a5
  have h6 : Moves [.od, .blob, .fresh, .sec] s a6 := by
    unfold a6
    repeat' first
      | with_reducible exact Moves.refl _ _
      | with_reducible assumption
      | ((with_reducible intro _ _); decide +revert)
      | with_reducible apply Moves.ite
      | with_reducible apply Moves.after (State.newChallenge_moves ..)
      | with_reducible apply Moves.after (State.wr_moves ..)
      | with_reducible apply Moves.after (Moves.upd_sec _ _)
  clear_value a6
  clear_value a7
  have h8 : Moves [.od, .blob, .fresh, .sec] s a8 := by
    unfold a8
    repeat' first
      | with_reducible exact Moves.refl _ _
      | with_reducible assumption
      | ((with_reducible intro _ _); decide +revert)
      | with_reducible apply Moves.ite
      | with_reducible apply Moves.after (State.newChallenge_moves ..)
      | with_reducible apply Moves.after (State.wr_moves ..)
      | with_reducible apply Moves.after (Moves.upd_sec _ _)
  clear_value a8
  repeat' first
    | with_reducible exact Moves.refl _ _
    | with_reducible assumption
    | ((with_reducible intro _ _); decide +revert)
    | with_reducible apply Moves.ite
    | with_reducible apply Moves.after (State.newChallenge_moves ..)
    | with_reducible apply Moves.after (State.wr_moves ..)
    | with_reducible apply Moves.after (Moves.upd_sec _ _)

theorem execSecCmdAdvanceFloors_moves (r0 : State) (vpp : Bool) (s : State) : Moves [.od, .pins, .answer, .otp] s (stateOf r0 (execSecCmdAdvanceFloors vpp s)) := by
  unfold execSecCmdAdvanceFloors
  refine Moves.after (settle_moves _) (by decide) ?_
  with_reducible repeat' first
    | exact Moves.refl _ _
    | decide
    | apply Moves.ite
    | apply Moves.after (State.reply_moves ..)
    | apply Moves.after (State.otpBurn_moves ..)

theorem execSecCmdRotateImageKey_moves (r0 : State) (vpp : Bool) (s : State) : Moves [.od, .pins, .answer, .otp] s (stateOf r0 (execSecCmdRotateImageKey vpp s)) := by
  unfold execSecCmdRotateImageKey
  extract_lets a1
  try clear_value a1
  refine Moves.after (settle_moves _) (by decide) ?_
  with_reducible repeat' first
    | exact Moves.refl _ _
    | decide
    | apply Moves.ite
    | apply Moves.after (State.reply_moves ..)
    | apply Moves.after (State.otpBurn_moves ..)

theorem execSecCmdRevokeTokens_moves (r0 : State) (vpp : Bool) (s : State) : Moves [.od, .pins, .answer, .otp] s (stateOf r0 (execSecCmdRevokeTokens vpp s)) := by
  unfold execSecCmdRevokeTokens
  refine Moves.after (settle_moves _) (by decide) ?_
  with_reducible repeat' first
    | exact Moves.refl _ _
    | decide
    | apply Moves.ite
    | apply Moves.after (State.reply_moves ..)
    | apply Moves.after (State.otpRefuse_moves ..)
    | apply Moves.after (State.otpBurn_moves ..)

theorem execSecCmdDropToken_moves (r0 : State) (s : State) : Moves [.od, .pins, .answer, .sec] s (stateOf r0 (execSecCmdDropToken s)) := by
  unfold execSecCmdDropToken
  refine Moves.after (settle_moves _) (by decide) ?_
  with_reducible repeat' first
    | exact Moves.refl _ _
    | decide
    | apply Moves.after (State.reply_moves ..)
    | apply Moves.after (State.dropToken_moves ..)

theorem execImgCmdErase_moves (r0 : State) (s : State) : Moves [.od, .pins, .recorder, .answer, .nvm] s (stateOf r0 (execImgCmdErase s)) := by
  unfold execImgCmdErase
  refine Moves.after (settle_moves _) (by decide) ?_
  repeat' first
    | with_reducible exact Moves.refl _ _
    | ((with_reducible intro _ _); decide +revert)
    | with_reducible apply Moves.ite
    | with_reducible apply Moves.after (State.reply_moves ..)
    | with_reducible apply Moves.after (State.wr_moves ..)
    | with_reducible apply Moves.after (Moves.upd_recorder_nvm _ _ _)
    | extract_lets

theorem State.imgChunk_moves (s : State) (off : Nat) (l : List Nat) : Moves [.od, .recorder, .answer, .nvm] s (State.imgChunk s off l) := by
  unfold State.imgChunk
  repeat' first
    | with_reducible exact Moves.refl _ _
    | ((with_reducible intro _ _); decide +revert)
    | with_reducible apply Moves.ite
    | with_reducible apply Moves.after (State.reply_moves ..)
    | with_reducible apply Moves.after (State.wr_moves ..)
    | with_reducible apply Moves.after (Moves.upd_recorder_nvm _ _ _)
    | extract_lets

theorem execImgCmdVerify_moves (r0 : State) (s : State) : Moves [.od, .pins, .answer, .nvm] s (stateOf r0 (execImgCmdVerify s)) := by
  unfold execImgCmdVerify
  refine Moves.after (settle_moves _) (by decide) ?_
  repeat' first
    | with_reducible exact Moves.refl _ _
    | ((with_reducible intro _ _); decide +revert)
    | with_reducible apply Moves.ite
    | with_reducible apply Moves.after (State.reply_moves ..)
    | with_reducible apply Moves.after (State.wr_moves ..)
    | with_reducible apply Moves.after (Moves.upd_nvm _ _)
    | extract_lets

theorem State.psEnter_moves (s : State) (t : Nat) : Moves [.od, .recorder, .answer, .power] s (State.psEnter s t) := by
  unfold State.psEnter
  extract_lets a1 a2
  try clear_value a1
  have h2 : Moves [.od, .recorder, .answer, .power] s a2 := by
    unfold a2
    with_reducible repeat' first
      | exact Moves.refl _ _
      | decide
      | apply Moves.after (Moves.upd_power ..)
  try clear_value a2
  repeat' first
    | with_reducible exact Moves.refl _ _
    | with_reducible assumption
    | decide
    | with_reducible apply Moves.ite
    | with_reducible apply Moves.after (State.wr_moves ..)
    | with_reducible apply Moves.after (State.flushCause_moves ..)
    | with_reducible apply Moves.after (State.reply_moves ..)
    | split

theorem execPsCmdEnter_moves (r0 : State) (s : State) : Moves [.od, .pins, .recorder, .answer, .power] s (stateOf r0 (execPsCmdEnter s)) := by
  unfold execPsCmdEnter
  refine Moves.after (settle_moves _) (by decide) ?_
  with_reducible repeat' first
    | exact Moves.refl _ _
    | decide
    | apply Moves.after (State.psEnter_moves ..)

theorem State.coldConv_moves (s : State) (c : Conv) : Moves [.od, .convs] s (State.coldConv s c) := by
  unfold State.coldConv
  extract_lets a1 a2
  try clear_value a1
  try clear_value a2
  with_reducible repeat' first
    | exact Moves.refl _ _
    | decide
    | apply Moves.after (State.setConv_moves ..)
    | apply Moves.after (State.otpFactors_moves ..)

theorem State.enterVigil_moves (s : State) : Moves [.od, .convs, .mets, .recorder, .sess, .sec] s (State.enterVigil s) := by
  unfold State.enterVigil
  extract_lets a1 a2 a3 a4 a5
  have h1 : Moves [.od, .convs, .mets, .recorder, .sess, .sec] s a1 := by
    unfold a1
    repeat' first
      | with_reducible exact Moves.refl _ _
      | with_reducible assumption
      | ((with_reducible intro _ _); decide +revert)
      | with_reducible refine Moves.foldl (fun _ _ => ?_) ?_
      | with_reducible apply Moves.after (State.closeSession_moves ..)
  try clear_value a1
  have h2 : Moves [.od, .convs, .mets, .recorder, .sess, .sec] s a2 := by
    unfold a2
    repeat' first
      | with_reducible exact Moves.refl _ _
      | with_reducible assumption
      | ((with_reducible intro _ _); decide +revert)
      | with_reducible refine Moves.foldl (fun _ _ => ?_) ?_
      | with_reducible apply Moves.after (State.coldConv_moves ..)
  try clear_value a2
  have h3 : Moves [.od, .convs, .mets, .recorder, .sess, .sec] s a3 := by
    unfold a3
    repeat' first
      | with_reducible exact Moves.refl _ _
      | with_reducible assumption
      | ((with_reducible intro _ _); decide +revert)
      | with_reducible refine Moves.foldl (fun _ _ => ?_) ?_
      | with_reducible apply Moves.after (State.wr_moves ..)
  try clear_value a3
  have h4 : Moves [.od, .convs, .mets, .recorder, .sess, .sec] s a4 := by
    unfold a4
    repeat' first
      | with_reducible exact Moves.refl _ _
      | with_reducible assumption
      | ((with_reducible intro _ _); decide +revert)
      | with_reducible apply Moves.after (State.refreshUncAll_moves ..)
  try clear_value a4
  try clear_value a5
  repeat' first
    | with_reducible exact Moves.refl _ _
    | with_reducible assumption
    | ((with_reducible intro _ _); decide +revert)
    | with_reducible apply Moves.after (Moves.upd_recorder _ _)

theorem State.enterDormant_moves (s : State) : Moves [.cmps] s (State.enterDormant s) := by
  unfold State.enterDormant
  repeat' first
    | with_reducible exact Moves.refl _ _
    | decide
    | with_reducible apply Moves.after (State.setCmp_moves ..)
    | with_reducible apply Moves.foldl
    | intro _ _

theorem State.enterKeep_moves (s : State) : Moves (partsBut [.pending]) s (State.enterKeep s) := by
  unfold State.enterKeep
  extract_lets a1 a2
  have h1 : Moves (partsBut [.pending]) s a1 := by
    unfold a1
    repeat' first
      | with_reducible exact Moves.refl _ _
      | with_reducible assumption
      | ((with_reducible intro _ _); decide +revert)
      | with_reducible apply Moves.after (State.freshDevice_moves ..)
      | with_reducible apply Moves.after (State.iow_moves ..)
      | with_reducible apply Moves.after (State.stopPllB_moves ..)
      | with_reducible apply Moves.after (Moves.upd_power _ _)
  clear_value a1
  have h2 : Moves (partsBut [.pending]) s a2 := by
    unfold a2
    repeat' first
      | with_reducible exact Moves.refl _ _
      | with_reducible assumption
      | ((with_reducible intro _ _); decide +revert)
      | with_reducible apply Moves.after (State.freshDevice_moves ..)
      | with_reducible apply Moves.after (State.iow_moves ..)
      | with_reducible apply Moves.after (State.stopPllB_moves ..)
      | with_reducible apply Moves.after (Moves.upd_power _ _)
  clear_value a2
  repeat' first
    | with_reducible exact Moves.refl _ _
    | with_reducible assumption
    | ((with_reducible intro _ _); decide +revert)
    | with_reducible apply Moves.after (State.freshDevice_moves ..)
    | with_reducible apply Moves.after (State.iow_moves ..)
    | with_reducible apply Moves.after (State.stopPllB_moves ..)
    | with_reducible apply Moves.after (Moves.upd_power _ _)

theorem State.startExit_moves (s : State) : Moves [.power] s (State.startExit s) := by
  unfold State.startExit
  extract_lets a1
  try clear_value a1
  with_reducible repeat' first
    | exact Moves.refl _ _
    | decide
    | apply Moves.after (Moves.upd_power ..)

theorem State.abortEntry_moves (s : State) : Moves [.od, .power] s (State.abortEntry s) := by
  unfold State.abortEntry
  extract_lets a1
  try clear_value a1
  with_reducible repeat' first
    | exact Moves.refl _ _
    | decide
    | apply Moves.after (State.count_moves ..)
    | apply Moves.after (Moves.upd_power ..)

theorem execPsCmdExit_moves (r0 : State) (s : State) : Moves [.pins, .answer, .power] s (stateOf r0 (execPsCmdExit s)) := by
  unfold execPsCmdExit
  refine Moves.after (settle_moves _) (by decide) ?_
  with_reducible repeat' first
    | exact Moves.refl _ _
    | decide
    | apply Moves.ite
    | apply Moves.after (State.reply_moves ..)
    | apply Moves.after (State.startExit_moves ..)

theorem State.pfStops_moves (s : State) : Moves [.od, .otp, .nvm] s (State.pfStops s) := by
  unfold State.pfStops
  extract_lets a1 a2 a3
  try clear_value a1
  have h2 : Moves [.od, .otp, .nvm] s a2 := by
    unfold a2
    with_reducible repeat' first
      | exact Moves.refl _ _
      | decide
      | apply Moves.ite
      | apply Moves.after (State.wr_moves ..)
      | apply Moves.after (Moves.upd_nvm ..)
  try clear_value a2
  try clear_value a3
  with_reducible repeat' first
    | assumption
    | decide
    | apply Moves.after (Moves.upd_otp ..)

theorem State.pfSaves_moves (s : State) : Moves [.recorder, .nv] s (State.pfSaves s) := by
  unfold State.pfSaves
  extract_lets a1
  try clear_value a1
  repeat' first
    | with_reducible exact Moves.refl _ _
    | with_reducible assumption
    | ((with_reducible intro _ _); decide +revert)
    | with_reducible apply Moves.ite
    | with_reducible apply Moves.after (State.nvPut_moves ..)
    | with_reducible apply Moves.after (State.saveSeconds_moves ..)
    | with_reducible apply Moves.after (Moves.upd_recorder _ _)
    | extract_lets

theorem State.pfFlush_moves (s : State) : Moves [.od, .recorder, .nv] s (State.pfFlush s) := by
  unfold State.pfFlush
  try dsimp only
  repeat' first
    | with_reducible exact Moves.refl _ _
    | with_reducible assumption
    | ((with_reducible intro _ _); decide +revert)
    | with_reducible apply Moves.ite
    | with_reducible apply Moves.after (State.beginFlush_moves ..)
    | with_reducible apply Moves.after (State.nvPut_moves ..)
    | with_reducible apply Moves.after (State.wr_moves ..)
    | split
    | with_reducible apply Moves.after (Moves.upd_recorder _ _)

theorem State.degStart_moves (s : State) (j : DegJob) : Moves [.od, .answer, .power] s (State.degStart s j) := by
  unfold State.degStart
  extract_lets a1
  try clear_value a1
  with_reducible repeat' first
    | exact Moves.refl _ _
    | decide
    | apply Moves.after (State.wr_moves ..)
    | apply Moves.after (State.reply_moves ..)
    | apply Moves.after (Moves.upd_power ..)

theorem State.degEnd_moves (s : State) (r : Int) : Moves [.od, .power] s (State.degEnd s r) := by
  unfold State.degEnd
  extract_lets a1 a2
  have h1 : Moves [.od, .power] s a1 := by
    unfold a1
    with_reducible repeat' first
      | exact Moves.refl _ _
      | decide
      | apply Moves.after (State.wr_moves ..)
  try clear_value a1
  try clear_value a2
  with_reducible repeat' first
    | assumption
    | decide
    | apply Moves.after (Moves.upd_power ..)

theorem execDegCmdClearSafe_moves (r0 : State) (s : State) : Moves [.od, .cmps, .pins, .answer, .power] s (stateOf r0 (execDegCmdClearSafe s)) := by
  unfold execDegCmdClearSafe
  extract_lets a1 a2
  try clear_value a1
  try clear_value a2
  refine Moves.after (settle_moves _) (by decide) ?_
  with_reducible repeat' first
    | exact Moves.refl _ _
    | decide
    | apply Moves.ite
    | apply Moves.after (State.reply_moves ..)
    | apply Moves.after (State.startCheck_moves ..)
    | apply Moves.after (State.degStart_moves ..)

theorem State.freeBlock_moves (s : State) (k : Nat) : Moves [.od, .odNew, .paths, .ports] s (State.freeBlock s k) := by
  unfold State.freeBlock
  repeat' first
    | with_reducible exact Moves.refl _ _
    | ((with_reducible intro _ _); decide +revert)
    | with_reducible apply Moves.ite
    | with_reducible refine Moves.foldl (fun _ _ => ?_) ?_
    | with_reducible apply Moves.after (State.leaveSafe_moves ..)
    | with_reducible apply Moves.after (State.toUnattached_moves ..)

theorem State.badCopy_moves (s : State) (e : Eng) : Moves [.od, .odNew, .io, .cmps, .paths, .ledger, .tiles, .ports, .recorder, .cores, .mboxes, .power] s (State.badCopy s e) := by
  unfold State.badCopy
  repeat' first
    | with_reducible exact Moves.refl _ _
    | ((with_reducible intro _ _); decide +revert)
    | with_reducible refine Moves.foldl (fun _ _ => ?_) ?_
    | with_reducible apply Moves.after (State.clearEngine_moves ..)
    | with_reducible apply Moves.after (State.degEnd_moves ..)
    | with_reducible apply Moves.after (State.safeOff_moves ..)

theorem execDegCmdReturnEngine_moves (r0 : State) (s : State) : Moves [.od, .odNew, .io, .fresh, .cmps, .paths, .ledger, .tiles, .ports, .pins, .recorder, .answer, .cores, .mboxes, .float, .power] s (stateOf r0 (execDegCmdReturnEngine s)) := by
  unfold execDegCmdReturnEngine
  refine Moves.after (settle_moves _) (by decide) ?_
  extract_lets a1 a2 a3
  try clear_value a1
  try clear_value a2
  try clear_value a3
  repeat' first
    | with_reducible exact Moves.refl _ _
    | with_reducible assumption
    | ((with_reducible intro _ _); decide +revert)
    | with_reducible apply Moves.ite
    | with_reducible apply Moves.after (State.badCopy_moves ..)
    | with_reducible apply Moves.after (State.degEnd_moves ..)
    | with_reducible apply Moves.after (State.degStart_moves ..)
    | with_reducible apply Moves.after (State.freeBlock_moves ..)
    | with_reducible apply Moves.after (State.releaseEngine_moves ..)
    | with_reducible apply Moves.after (State.reply_moves ..)
    | with_reducible apply Moves.after (State.sendKcmd_moves ..)
    | extract_lets

theorem State.trst_moves (s : State) (n : Tile) : Moves [.od, .odNew, .io, .cmps, .paths, .tiles] s (State.trst s n) := by
  unfold State.trst
  extract_lets a1
  have h1 : Moves [.od, .odNew, .io, .cmps, .paths, .tiles] s a1 := by
    unfold a1
    repeat' first
      | with_reducible exact Moves.refl _ _
      | with_reducible assumption
      | ((with_reducible intro _ _); decide +revert)
      | with_reducible apply Moves.ite
      | with_reducible refine Moves.foldl (fun _ _ => ?_) ?_
      | with_reducible apply Moves.after (State.gateOff_moves ..)
  try clear_value a1
  repeat' first
    | with_reducible exact Moves.refl _ _
    | with_reducible assumption
    | ((with_reducible intro _ _); decide +revert)
    | with_reducible apply Moves.after (State.setLath_moves ..)
    | with_reducible apply Moves.after (State.setTile_moves ..)
    | extract_lets

theorem execDegCmdResetTile_moves (r0 : State) (s : State) : Moves [.od, .odNew, .io, .cmps, .paths, .tiles, .pins, .answer, .power] s (stateOf r0 (execDegCmdResetTile s)) := by
  unfold execDegCmdResetTile
  refine Moves.after (settle_moves _) (by decide) ?_
  extract_lets a1 a2
  try clear_value a1
  try clear_value a2
  repeat' first
    | with_reducible exact Moves.refl _ _
    | with_reducible assumption
    | ((with_reducible intro _ _); decide +revert)
    | with_reducible apply Moves.ite
    | with_reducible apply Moves.after (State.degStart_moves ..)
    | with_reducible apply Moves.after (State.reply_moves ..)
    | with_reducible apply Moves.after (State.trst_moves ..)

theorem execTileTrstWrite_moves (r0 : State) (m : BitVec 8) (s : State) : Moves [.od, .odNew, .io, .cmps, .paths, .tiles, .pins] s (stateOf r0 (execTileTrstWrite m s)) := by
  unfold execTileTrstWrite
  refine Moves.after (settle_moves _) (by decide) ?_
  repeat' first
    | with_reducible exact Moves.refl _ _
    | ((with_reducible intro _ _); decide +revert)
    | with_reducible refine Moves.foldl (fun _ _ => ?_) ?_
    | with_reducible apply Moves.after (State.trst_moves ..)

theorem State.vconnUv_moves (s : State) (p : Port) : Moves [.od, .odNew, .io, .cmps, .paths, .ledger, .ports, .recorder] s (State.vconnUv s p) := by
  unfold State.vconnUv
  try dsimp only
  repeat' first
    | with_reducible exact Moves.refl _ _
    | with_reducible assumption
    | ((with_reducible intro _ _); decide +revert)
    | with_reducible apply Moves.ite
    | with_reducible apply Moves.after (State.eprOutcome_moves ..)
    | with_reducible apply Moves.after (State.hardReset_moves ..)
    | with_reducible apply Moves.after (State.pdFault_moves ..)
    | with_reducible apply Moves.after (State.setPort_moves ..)
    | with_reducible apply Moves.after (State.vconnOff_moves ..)

theorem State.pend_moves (s : State) (k : Nat) (x : Int) : Moves [.odNew] s (State.pend s k x) := by
  unfold State.pend
  with_reducible repeat' first
    | exact Moves.refl _ _
    | decide
    | apply Moves.after (Moves.upd_odNew _ _ (fun hw => SMap.wf_put _ _ _ _ hw))

theorem State.putEntry_moves (s : State) (a : Area) (j : Nat) (o : Nat) (k : Nat) (r : Row) (x : Int) : Moves [.od, .odNew, .slots, .scrim, .convs, .mets] s (State.putEntry s a j o k r x) := by
  unfold State.putEntry
  try dsimp only
  repeat' first
    | with_reducible exact Moves.refl _ _
    | with_reducible assumption
    | ((with_reducible intro _ _); decide +revert)
    | with_reducible apply Moves.ite
    | with_reducible apply Moves.after (State.pend_moves ..)
    | with_reducible apply Moves.after (State.refApply_moves ..)
    | with_reducible apply Moves.after (State.setSlot_moves ..)
    | with_reducible apply Moves.after (State.wr_moves ..)
    | split
    | with_reducible apply Moves.after (Moves.upd_scrim _ _)

theorem State.putString_moves (s : State) (k : Nat) (l : List Nat) : Moves [.odNew, .blob] s (State.putString s k l) := by
  unfold State.putString
  with_reducible repeat' first
    | exact Moves.refl _ _
    | decide
    | apply Moves.ite
    | apply Moves.after (State.wrB_moves ..)
    | apply Moves.after (State.pend_moves ..)

theorem State.rearm_moves (s : State) (p : Port) : Moves [.od] s (State.rearm s p) := by
  unfold State.rearm
  extract_lets a1 a2 a3
  have h1 : Moves [.od] s a1 := by
    unfold a1
    repeat' first
      | with_reducible exact Moves.refl _ _
      | with_reducible assumption
      | ((with_reducible intro _ _); decide +revert)
      | with_reducible apply Moves.after (State.setWinI_moves ..)
  try clear_value a1
  try clear_value a2
  have h3 : Moves [.od] s a3 := by
    unfold a3
    repeat' first
      | with_reducible exact Moves.refl _ _
      | with_reducible assumption
      | ((with_reducible intro _ _); decide +revert)
      | with_reducible apply Moves.ite
      | with_reducible apply Moves.after (State.setOvp_moves ..)
  try clear_value a3
  repeat' first
    | with_reducible exact Moves.refl _ _
    | with_reducible assumption
    | ((with_reducible intro _ _); decide +revert)
    | with_reducible apply Moves.ite
    | with_reducible apply Moves.after (State.setPgLow_moves ..)

theorem State.applied_moves (s : State) (k : Nat) : Moves [.od, .odNew, .io, .cmps, .rails, .time] s (State.applied s k) := by
  unfold State.applied
  repeat' first
    | with_reducible exact Moves.refl _ _
    | decide
    | with_reducible apply Moves.ite
    | with_reducible apply Moves.after (State.iow_moves ..)
    | with_reducible apply Moves.after (State.setMode_moves ..)
    | with_reducible apply Moves.after (State.refreshFeed_moves ..)
    | with_reducible apply Moves.after (State.setFeedCodes_moves ..)
    | with_reducible apply Moves.after (State.refreshPwrgd_moves ..)
    | with_reducible apply Moves.after (State.marginApplied_moves ..)
    | with_reducible apply Moves.after (State.undisciplined_moves ..)
    | with_reducible apply Moves.after (State.rearm_moves ..)
    | with_reducible apply Moves.after (State.canEnabled_moves ..)
    | split

theorem State.applyCaps_moves (s : State) : Moves [.od, .odNew] s (State.applyCaps s) := by
  unfold State.applyCaps
  extract_lets a1 a2
  have h1 : Moves [.od, .odNew] s a1 := by
    unfold a1
    with_reducible repeat' first
      | exact Moves.refl _ _
      | decide
      | apply Moves.after (State.pairCaps_moves ..)
      | apply Moves.after (State.clampLimits_moves ..)
  try clear_value a1
  have h2 : Moves [.od, .odNew] s a2 := by
    unfold a2
    repeat' first
      | with_reducible exact Moves.refl _ _
      | with_reducible assumption
      | decide
      | with_reducible apply Moves.after (State.rearm_moves ..)
      | with_reducible apply Moves.foldl
      | intro _ _
  try clear_value a2
  repeat' first
    | with_reducible exact Moves.refl _ _
    | with_reducible assumption
    | decide
    | with_reducible apply Moves.after (State.setFeedCodes_moves ..)
    | with_reducible apply Moves.foldl
    | intro _ _

theorem State.canTake_moves (s : State) (c : Fin 2) : Moves [.od, .odNew, .srcs] s (State.canTake s c) := by
  unfold State.canTake
  extract_lets a1
  try clear_value a1
  repeat' first
    | with_reducible exact Moves.refl _ _
    | with_reducible assumption
    | ((with_reducible intro _ _); decide +revert)
    | with_reducible apply Moves.ite
    | with_reducible refine Moves.foldl (fun _ _ => ?_) ?_
    | with_reducible apply Moves.after (State.canEnabled_moves ..)
    | with_reducible apply Moves.after (State.canEntry_moves ..)
    | with_reducible apply Moves.after (State.setCan_moves ..)
    | split
    | extract_lets

theorem State.canStrobe_moves (s : State) : Moves [.od, .odNew, .srcs] s (State.canStrobe s) := by
  unfold State.canStrobe
  repeat' first
    | with_reducible exact Moves.refl _ _
    | ((with_reducible intro _ _); decide +revert)
    | with_reducible apply Moves.ite
    | with_reducible refine Moves.foldl (fun _ _ => ?_) ?_
    | with_reducible apply Moves.after (State.canTake_moves ..)
    | with_reducible apply Moves.after (State.setCan_moves ..)
    | extract_lets

theorem State.applyStrobe_moves (s : State) : Moves [.od, .odNew, .io, .cmps, .paths, .ports, .convs, .mets, .rails, .time, .srcs] s (State.applyStrobe s) := by
  unfold State.applyStrobe
  extract_lets a1 a2 a3 a4 a5 a6 a7 a8
  try clear_value a1
  try clear_value a2
  have h3 : Moves [.od, .odNew, .io, .cmps, .paths, .ports, .convs, .mets, .rails, .time, .srcs] s a3 := by
    unfold a3
    repeat' first
      | with_reducible exact Moves.refl _ _
      | with_reducible assumption
      | ((with_reducible intro _ _); decide +revert)
      | with_reducible apply Moves.after (State.applyKeys_moves ..)
  try clear_value a3
  have h4 : Moves [.od, .odNew, .io, .cmps, .paths, .ports, .convs, .mets, .rails, .time, .srcs] s a4 := by
    unfold a4
    repeat' first
      | with_reducible exact Moves.refl _ _
      | with_reducible assumption
      | ((with_reducible intro _ _); decide +revert)
      | with_reducible refine Moves.foldl (fun _ _ => ?_) ?_
      | with_reducible apply Moves.after (State.toUnattached_moves ..)
  try clear_value a4
  have h5 : Moves [.od, .odNew, .io, .cmps, .paths, .ports, .convs, .mets, .rails, .time, .srcs] s a5 := by
    unfold a5
    repeat' first
      | with_reducible exact Moves.refl _ _
      | with_reducible assumption
      | ((with_reducible intro _ _); decide +revert)
      | with_reducible refine Moves.foldl (fun _ _ => ?_) ?_
      | with_reducible apply Moves.after (State.applied_moves ..)
  try clear_value a5
  have h6 : Moves [.od, .odNew, .io, .cmps, .paths, .ports, .convs, .mets, .rails, .time, .srcs] s a6 := by
    unfold a6
    repeat' first
      | with_reducible exact Moves.refl _ _
      | with_reducible assumption
      | ((with_reducible intro _ _); decide +revert)
      | with_reducible apply Moves.ite
      | with_reducible apply Moves.after (State.applyCaps_moves ..)
  try clear_value a6
  have h7 : Moves [.od, .odNew, .io, .cmps, .paths, .ports, .convs, .mets, .rails, .time, .srcs] s a7 := by
    unfold a7
    repeat' first
      | with_reducible exact Moves.refl _ _
      | with_reducible assumption
      | ((with_reducible intro _ _); decide +revert)
      | with_reducible apply Moves.ite
      | with_reducible refine Moves.foldl (fun _ _ => ?_) ?_
      | with_reducible apply Moves.after (State.boundary_moves ..)
  try clear_value a7
  have h8 : Moves [.od, .odNew, .io, .cmps, .paths, .ports, .convs, .mets, .rails, .time, .srcs] s a8 := by
    unfold a8
    repeat' first
      | with_reducible exact Moves.refl _ _
      | with_reducible assumption
      | ((with_reducible intro _ _); decide +revert)
      | with_reducible apply Moves.ite
      | with_reducible refine Moves.foldl (fun _ _ => ?_) ?_
      | with_reducible apply Moves.after (State.applyRail_moves ..)
  try clear_value a8
  repeat' first
    | with_reducible exact Moves.refl _ _
    | with_reducible assumption
    | ((with_reducible intro _ _); decide +revert)
    | with_reducible apply Moves.after (State.canStrobe_moves ..)
    | with_reducible apply Moves.after (State.refStrobe_moves ..)
    | with_reducible apply Moves.after (State.twConfig_moves ..)

theorem State.ledgerWritten_moves (s : State) : Moves [.od, .odNew, .blob, .io, .slots, .ledgerPorts, .ledger] s (State.ledgerWritten s) := by
  unfold State.ledgerWritten
  repeat' first
    | with_reducible exact Moves.refl _ _
    | ((with_reducible intro _ _); decide +revert)
    | with_reducible apply Moves.ite
    | with_reducible apply Moves.after (State.applyLedgerConfig_moves ..)

theorem State.restoreKey_moves (s : State) (k : Nat) : Moves [.od, .odNew, .blob, .slots, .scrim, .convs, .mets, .rails, .answer] s (State.restoreKey s k) := by
  unfold State.restoreKey
  repeat' first
    | with_reducible exact Moves.refl _ _
    | ((with_reducible intro _ _); decide +revert)
    | with_reducible apply Moves.ite
    | with_reducible apply Moves.after (State.pend_moves ..)
    | with_reducible apply Moves.after (State.putEntry_moves ..)
    | with_reducible apply Moves.after (State.putString_moves ..)
    | with_reducible apply Moves.after (State.writeMargin_moves ..)
    | split

theorem State.restoreDefaults_moves (s : State) : Moves [.od, .odNew, .blob, .io, .slots, .ledgerPorts, .ledger, .scrim, .convs, .mets, .rails, .recorder, .answer] s (State.restoreDefaults s) := by
  unfold State.restoreDefaults
  try dsimp only
  repeat' first
    | with_reducible exact Moves.refl _ _
    | with_reducible assumption
    | ((with_reducible intro _ _); decide +revert)
    | with_reducible refine Moves.foldl (fun _ _ => ?_) ?_
    | with_reducible apply Moves.after (State.clampLimits_moves ..)
    | with_reducible apply Moves.after (State.ledgerWritten_moves ..)
    | with_reducible apply Moves.after (State.restoreKey_moves ..)
    | split
    | with_reducible apply Moves.after (Moves.upd_answer_recorder _ _ _)

theorem State.alertAck_moves (s : State) (m : Nat) : Moves [.od] s (State.alertAck s m) := by
  unfold State.alertAck
  extract_lets a1
  have h1 : Moves [.od] s a1 := by
    unfold a1
    with_reducible repeat' first
      | exact Moves.refl _ _
      | decide
      | apply Moves.after (State.wr_moves ..)
  try clear_value a1
  with_reducible repeat' first
    | assumption
    | decide
    | apply Moves.ite
    | apply Moves.after (State.wr_moves ..)

theorem State.writeLeaf_moves (s : State) (jrnl ok : Bool) (l : List Nat) : Moves [.od, .recorder, .nv] s (State.writeLeaf s jrnl ok l) := by
  unfold State.writeLeaf
  exact Moves.after (State.setHead_moves ..) (by decide) (Moves.after (State.programLeaf_moves ..) (by decide)
    (Moves.mono (by decide) (State.useLeaf_moves ..)))

theorem enterItem_moves (src : Requester) (t : State) (i : WItem) : Moves (partsBut [.pending, .tb, .clk, .otpShadow, .cts, .tbcs, .shared, .srcs, .sess]) t (enterItem src t i) := by
  unfold enterItem
  repeat' first
    | with_reducible exact Moves.refl _ _
    | ((with_reducible intro _ _); decide +revert)
    | with_reducible apply Moves.ite
    | with_reducible apply Moves.after (State.putEntry_moves ..)
    | with_reducible apply Moves.after (State.putString_moves ..)
    | split
    | with_reducible apply Moves.after (Moves.upd_recorder _ _)
    | extract_lets

theorem State.aonTick_moves (s : State) : Moves [.od, .tb, .cts, .tbcs, .tgs, .time] s (State.aonTick s) := by
  unfold State.aonTick
  try dsimp only
  repeat' first
    | with_reducible exact Moves.refl _ _
    | with_reducible assumption
    | ((with_reducible intro _ _); decide +revert)
    | with_reducible apply Moves.ite
    | with_reducible refine Moves.foldl (fun _ _ => ?_) ?_
    | with_reducible apply Moves.after (State.advanceCts_moves ..)
    | with_reducible apply Moves.after (State.advanceTb_moves ..)
    | with_reducible apply Moves.after (State.countChain_moves ..)
    | with_reducible apply Moves.after (Moves.upd_time _ _)

theorem State.canMeets_moves (s : State) (c : Fin 2) (e : CanEv) : Moves [.od, .odNew, .srcs] s (State.canMeets s c e) := by
  unfold State.canMeets
  repeat' first
    | with_reducible exact Moves.refl _ _
    | ((with_reducible intro _ _); decide +revert)
    | with_reducible apply Moves.ite
    | with_reducible apply Moves.after (State.canBusOff_moves ..)
    | with_reducible apply Moves.after (State.canShow_moves ..)
    | with_reducible apply Moves.after (State.canTake_moves ..)
    | with_reducible apply Moves.after (State.setCan_moves ..)
    | with_reducible apply Moves.after (State.wr_moves ..)
    | split
    | extract_lets

theorem State.edge_moves (s : State) : Moves [.od, .odNew, .tb, .mets, .rails, .cts, .tbcs, .tgs, .time] s (State.edge s) := by
  unfold State.edge
  repeat' first
    | with_reducible exact Moves.refl _ _
    | ((with_reducible intro _ _); decide +revert)
    | with_reducible apply Moves.ite
    | with_reducible apply Moves.after (State.aonTick_moves ..)
    | with_reducible apply Moves.after (State.tick_moves ..)

theorem State.countEdge_moves (s : State) (k : Ctr) : Moves [.od, .odNew, .tb, .mets, .rails, .cts, .tbcs, .tgs, .time] s (State.countEdge s k) := by
  unfold State.countEdge
  repeat' first
    | with_reducible exact Moves.refl _ _
    | ((with_reducible intro _ _); decide +revert)
    | with_reducible apply Moves.ite
    | with_reducible apply Moves.after (State.aonTick_moves ..)
    | with_reducible apply Moves.after (State.edge_moves ..)

theorem State.disciplineEdge_moves (s : State) (frac : Fin 8) (close : Bool) : Moves [.od, .odNew, .tb, .mets, .rails, .tbcs, .tgs, .time] s (State.disciplineEdge s frac close) := by
  unfold State.disciplineEdge
  try dsimp only
  repeat' first
    | with_reducible exact Moves.refl _ _
    | with_reducible assumption
    | ((with_reducible intro _ _); decide +revert)
    | with_reducible apply Moves.ite
    | with_reducible apply Moves.after (State.applyStep_moves ..)
    | with_reducible apply Moves.after (State.discipline_moves ..)

theorem State.dueSaves_moves (s : State) : Moves [.recorder, .nv] s (State.dueSaves s) := by
  unfold State.dueSaves
  repeat' first
    | with_reducible exact Moves.refl _ _
    | ((with_reducible intro _ _); decide +revert)
    | with_reducible apply Moves.after (State.pfSaves_moves ..)
    | with_reducible apply Moves.after (Moves.upd_recorder _ _)
    | extract_lets

end Sys2Proof.Machine
end

