-- ==== Sys2Proof/Laws/MovesDict.lean ====
section
/-! SUPPORT. The parts that each operation on the state can move: the dictionary, IO-space and the cores. -/

namespace Sys2Proof.Machine

theorem stateOf_done (s t : State) : stateOf s (done t) = settle t := rfl

theorem stateOf_ite (s : State) (c : Prop) [Decidable c] (a b : Host.Outcome State Fault Refusal) :
    stateOf s (if c then a else b) = if c then stateOf s a else stateOf s b := by split <;> rfl

/-- Where there is a next state, it is reached by such a change. -/
def OptMoves (xs : List Part) (s : State) (o : Option State) : Prop := ∀ u, o = some u → Moves xs s u

theorem OptMoves.none {xs : List Part} {s : State} : OptMoves xs s none := fun _ h => nomatch h

theorem OptMoves.some {xs : List Part} {s u : State} (h : Moves xs s u) : OptMoves xs s (some u) := fun _ e => Option.some.inj e ▸ h

theorem OptMoves.ite {xs : List Part} {s : State} {c : Prop} [Decidable c] {a b : Option State} (h : OptMoves xs s a)
    (g : OptMoves xs s b) : OptMoves xs s (if c then a else b) := by split <;> assumption

theorem OptMoves.after {xs ys : List Part} {s : State} {o : Option State} (g : OptMoves ys s o) (hy : ∀ y ∈ ys, y ∈ xs) :
    OptMoves xs s o := fun u h => (g u h).mono hy

@[simp] theorem zRaise_st (s : State) (a b : Nat) : (zRaise s a b).st = s := rfl

@[simp] theorem zDone_st (s : State) : (zDone s).st = s := rfl

@[simp] theorem zTake_st (s : State) (t : Nat) : (zTake s t).st = s := rfl

theorem pushReturn_mem (c : CoreId) (h k : CoreHw) (e : pushReturn c h = .ok k) : k.imem = h.imem ∧ k.dmem = h.dmem := by
  unfold pushReturn at e
  dsimp only at e
  split at e
  · exact nomatch e
  · simp only [Except.ok.injEq] at e
    subst e
    simp

theorem portCommand_moves (s : State) (p : Port) (x : Int) : Moves [.od, .odNew, .io, .cmps, .paths, .ledger, .tiles, .ports, .pins, .recorder, .answer] s (portCommand s p x) := by
  unfold portCommand
  extract_lets a1
  have h1 : Moves [.od, .odNew, .io, .cmps, .paths, .ledger, .tiles, .ports, .pins, .recorder, .answer] s a1 := by
    unfold a1
    repeat' first
      | with_reducible exact Moves.refl _ _
      | with_reducible assumption
      | ((with_reducible intro _ _); decide +revert)
      | with_reducible apply Moves.ite
      | with_reducible apply Moves.after (execPortCmdAuthenticate_moves ..)
      | with_reducible apply Moves.after (execPortCmdClearCounters_moves ..)
      | with_reducible apply Moves.after (execPortCmdDisable_moves ..)
      | with_reducible apply Moves.after (execPortCmdDrSwap_moves ..)
      | with_reducible apply Moves.after (execPortCmdEnable_moves ..)
      | with_reducible apply Moves.after (execPortCmdErrorRecovery_moves ..)
      | with_reducible apply Moves.after (execPortCmdHardReset_moves ..)
      | with_reducible apply Moves.after (execPortCmdPrSwap_moves ..)
      | with_reducible apply Moves.after (execPortCmdReadvertise_moves ..)
      | with_reducible apply Moves.after (execPortCmdSoftReset_moves ..)
      | with_reducible apply Moves.after (execPortCmdVconnSwap_moves ..)
      | rw [stateOf_ite]
  try clear_value a1
  repeat' first
    | with_reducible exact Moves.refl _ _
    | with_reducible assumption
    | ((with_reducible intro _ _); decide +revert)
    | with_reducible apply Moves.ite
    | with_reducible apply Moves.after (State.reply_moves ..)

theorem pathCommand_moves (s : State) (p : Port) (x : Int) : Moves [.od, .odNew, .io, .cmps, .paths, .tiles, .ports, .pins, .mets, .recorder, .answer] s (pathCommand s p x) := by
  unfold pathCommand
  extract_lets a1
  have h1 : Moves [.od, .odNew, .io, .cmps, .paths, .tiles, .ports, .pins, .mets, .recorder, .answer] s a1 := by
    unfold a1
    repeat' first
      | with_reducible exact Moves.refl _ _
      | with_reducible assumption
      | ((with_reducible intro _ _); decide +revert)
      | with_reducible apply Moves.after (State.reply_moves ..)
  try clear_value a1
  repeat' first
    | with_reducible exact Moves.refl _ _
    | with_reducible assumption
    | ((with_reducible intro _ _); decide +revert)
    | with_reducible apply Moves.ite
    | with_reducible apply Moves.after (execPpCmdClearFaultSet_moves ..)
    | with_reducible apply Moves.after (execPpCmdClearLockout_moves ..)
    | with_reducible apply Moves.after (execPpCmdForceOff_moves ..)
    | with_reducible apply Moves.after (execPpCmdReleaseForceOff_moves ..)
    | rw [stateOf_ite]

theorem feedCommand_moves (s : State) (f : Feed) (x : Int) : Moves [.od, .odNew, .io, .cmps, .feeds, .ledger, .tiles, .pins, .recorder, .answer] s (feedCommand s f x) := by
  unfold feedCommand
  extract_lets a1
  have h1 : Moves [.od, .odNew, .io, .cmps, .feeds, .ledger, .tiles, .pins, .recorder, .answer] s a1 := by
    unfold a1
    repeat' first
      | with_reducible exact Moves.refl _ _
      | with_reducible assumption
      | ((with_reducible intro _ _); decide +revert)
      | with_reducible apply Moves.after (State.reply_moves ..)
  try clear_value a1
  repeat' first
    | with_reducible exact Moves.refl _ _
    | with_reducible assumption
    | ((with_reducible intro _ _); decide +revert)
    | with_reducible apply Moves.ite
    | with_reducible apply Moves.after (execFeedCmdClear_moves ..)
    | with_reducible apply Moves.after (execFeedCmdOff_moves ..)
    | with_reducible apply Moves.after (execFeedCmdOn_moves ..)
    | rw [stateOf_ite]

theorem otpCommand_moves (s : State) (x : Int) : Moves [.od, .fresh, .pins, .answer, .otp] s (otpCommand s x) := by
  unfold otpCommand
  extract_lets a1 a2
  try clear_value a1
  have h2 : Moves [.od, .fresh, .pins, .answer, .otp] s a2 := by
    unfold a2
    with_reducible repeat' first
      | exact Moves.refl _ _
      | decide
      | apply Moves.after (State.draw_moves ..)
  try clear_value a2
  with_reducible repeat' first
    | exact Moves.refl _ _
    | assumption
    | decide
    | apply Moves.ite
    | apply Moves.after (execOtpCmdRead_moves ..)
    | apply Moves.after (execOtpCmdProgram_moves ..)
    | apply Moves.after (execOtpCmdRepair_moves ..)
    | apply Moves.after (execOtpCmdFinalise_moves ..)
    | apply Moves.after (execOtpCmdAdvance_moves ..)

theorem secCommand_moves (s : State) (x : Int) : Moves [.od, .fresh, .pins, .answer, .otp, .sec] s (secCommand s x) := by
  unfold secCommand
  extract_lets a1 a2
  try clear_value a1
  have h2 : Moves [.od, .fresh, .pins, .answer, .otp, .sec] s a2 := by
    unfold a2
    with_reducible repeat' first
      | exact Moves.refl _ _
      | decide
      | apply Moves.after (State.draw_moves ..)
  try clear_value a2
  with_reducible repeat' first
    | exact Moves.refl _ _
    | assumption
    | decide
    | apply Moves.ite
    | apply Moves.after (execSecCmdAdvanceFloors_moves ..)
    | apply Moves.after (execSecCmdRotateImageKey_moves ..)
    | apply Moves.after (execSecCmdRevokeTokens_moves ..)
    | apply Moves.after (execSecCmdDropToken_moves ..)

theorem ledgerCommand_moves (s : State) (x : Int) : Moves [.od, .odNew, .slots, .ledger, .pins, .answer] s (ledgerCommand s x) := by
  unfold ledgerCommand
  repeat' first
    | with_reducible exact Moves.refl _ _
    | ((with_reducible intro _ _); decide +revert)
    | with_reducible apply Moves.ite
    | with_reducible apply Moves.after (execLedgerCmdAbortRestore_moves ..)
    | with_reducible apply Moves.after (execLedgerCmdClearFlags_moves ..)
    | with_reducible apply Moves.after (execLedgerCmdForgetPeer_moves ..)
    | with_reducible apply Moves.after (execLedgerCmdRecompute_moves ..)
    | with_reducible apply Moves.after (execLedgerCmdResumeRestore_moves ..)
    | rw [stateOf_ite]

theorem shedCommand_moves (s : State) (x : Int) : Moves [.od, .slots, .ledger, .tiles, .pins, .answer] s (shedCommand s x) := by
  unfold shedCommand
  extract_lets a1
  try clear_value a1
  repeat' first
    | with_reducible exact Moves.refl _ _
    | with_reducible assumption
    | ((with_reducible intro _ _); decide +revert)
    | with_reducible apply Moves.ite
    | with_reducible apply Moves.after (execShedCmdApply_moves ..)
    | with_reducible apply Moves.after (execShedCmdRelease_moves ..)
    | rw [stateOf_ite]

theorem convCommand_moves (s : State) (x : Int) : Moves [.od, .odNew, .blob, .paths, .pins, .convs, .mets, .answer] s (convCommand s x) := by
  unfold convCommand
  repeat' first
    | with_reducible exact Moves.refl _ _
    | ((with_reducible intro _ _); decide +revert)
    | with_reducible apply Moves.ite
    | with_reducible apply Moves.after (execCvCmdCal_moves ..)
    | with_reducible apply Moves.after (execCvCmdClearCounters_moves ..)
    | with_reducible apply Moves.after (execCvCmdLoad_moves ..)
    | with_reducible apply Moves.after (execCvCmdSave_moves ..)
    | with_reducible apply Moves.after (execCvCmdStart_moves ..)
    | with_reducible apply Moves.after (execCvCmdStop_moves ..)
    | rw [stateOf_ite]

theorem meterCommand_moves (s : State) (x : Int) : Moves [.od, .odNew, .pins, .mets, .recs, .nv, .answer] s (meterCommand s x) := by
  unfold meterCommand
  repeat' first
    | with_reducible exact Moves.refl _ _
    | ((with_reducible intro _ _); decide +revert)
    | with_reducible apply Moves.ite
    | with_reducible apply Moves.after (execMetCmdClearAcc_moves ..)
    | with_reducible apply Moves.after (execMetCmdClearFlags_moves ..)
    | with_reducible apply Moves.after (execMetCmdRecordNow_moves ..)
    | rw [stateOf_ite]

theorem skimCommand_moves (s : State) (x : Int) : Moves [.od, .pins, .recs, .answer] s (skimCommand s x) := by
  unfold skimCommand
  repeat' first
    | with_reducible exact Moves.refl _ _
    | ((with_reducible intro _ _); decide +revert)
    | with_reducible apply Moves.ite
    | with_reducible apply Moves.after (execSkimCmdAt_moves ..)
    | with_reducible apply Moves.after (execSkimCmdCancel_moves ..)
    | with_reducible apply Moves.after (execSkimCmdNow_moves ..)
    | rw [stateOf_ite]

theorem seqCommand_moves (s : State) (x : Int) : Moves [.od, .odNew, .cmps, .pins, .coatFault, .rails, .coat, .answer] s (seqCommand s x) := by
  unfold seqCommand
  repeat' first
    | with_reducible exact Moves.refl _ _
    | ((with_reducible intro _ _); decide +revert)
    | with_reducible apply Moves.ite
    | with_reducible apply Moves.after (execSeqCmdClearFault_moves ..)
    | with_reducible apply Moves.after (execSeqCmdDown_moves ..)
    | with_reducible apply Moves.after (execSeqCmdRestart_moves ..)
    | with_reducible apply Moves.after (execSeqCmdUp_moves ..)
    | rw [stateOf_ite]

theorem degCommand_moves (s : State) (x : Int) : Moves [.od, .odNew, .io, .fresh, .cmps, .paths, .ledger, .tiles, .ports, .pins, .recorder, .answer, .cores, .mboxes, .float, .power] s (degCommand s x) := by
  unfold degCommand
  repeat' first
    | with_reducible exact Moves.refl _ _
    | ((with_reducible intro _ _); decide +revert)
    | with_reducible apply Moves.ite
    | with_reducible apply Moves.after (execDegCmdClearSafe_moves ..)
    | with_reducible apply Moves.after (execDegCmdResetTile_moves ..)
    | with_reducible apply Moves.after (execDegCmdReturnEngine_moves ..)
    | rw [stateOf_ite]

theorem State.startStore_moves (s : State) : Moves [.od, .answer, .nvm] s (State.startStore s) := by
  unfold State.startStore
  extract_lets a1
  try clear_value a1
  with_reducible repeat' first
    | exact Moves.refl _ _
    | decide
    | apply Moves.ite
    | apply Moves.after (State.wr_moves ..)
    | apply Moves.after (State.alert_moves ..)
    | apply Moves.after (State.reply_moves ..)
    | apply Moves.after (Moves.upd_nvm ..)

theorem State.endStore_moves (s : State) (ok : Bool) : Moves [.od, .nvm] s (State.endStore s ok) := by
  unfold State.endStore
  extract_lets a1 a2
  try clear_value a1
  try clear_value a2
  repeat' first
    | with_reducible exact Moves.refl _ _
    | decide
    | with_reducible apply Moves.ite
    | with_reducible apply Moves.after (State.wr_moves ..)
    | with_reducible apply Moves.after (State.count_moves ..)
    | with_reducible apply Moves.after (State.alert_moves ..)
    | split
    | with_reducible apply Moves.after (Moves.upd_nvm ..)

theorem twCommand_moves (s : State) (b : Bus) (ctl : Bool) (x : Int) : Moves [.od, .fresh, .pins, .answer, .tws] s (twCommand s b ctl x) := by
  unfold twCommand
  repeat' first
    | with_reducible exact Moves.refl _ _
    | ((with_reducible intro _ _); decide +revert)
    | with_reducible apply Moves.ite
    | with_reducible apply Moves.after (execTwCmdClearCounters_moves ..)
    | with_reducible apply Moves.after (execTwCmdClearFlags_moves ..)
    | with_reducible apply Moves.after (execTwCtlAbort_moves ..)
    | with_reducible apply Moves.after (execTwCtlGo_moves ..)
    | rw [stateOf_ite]

theorem globCommand_moves (s : State) (k : Nat) (x : Int) (l : List Nat) : OptMoves (partsBut [.pending, .tb, .feeds, .clk, .otpShadow, .cts, .tbcs, .tgs, .shared, .tws, .srcs, .sess]) s (globCommand s k x l) := by
  unfold globCommand
  repeat' first
    | with_reducible exact OptMoves.none
    | with_reducible apply OptMoves.ite
    | with_reducible apply OptMoves.some
    | decide
    | with_reducible exact Moves.refl _ _
    | rw [stateOf_ite]
    | with_reducible apply Moves.ite
    | with_reducible apply Moves.after (State.wrB_moves ..)
    | with_reducible apply Moves.after (State.putString_moves ..)
    | with_reducible apply Moves.after (State.draw_moves ..)
    | with_reducible apply Moves.after (State.reply_moves ..)
    | with_reducible apply Moves.after (execRefRebase_moves ..)
    | with_reducible apply Moves.after (State.seqCmd_moves ..)
    | with_reducible apply Moves.after (execFfCmdClear_moves ..)
    | with_reducible apply Moves.after (execRecCmdFlush_moves ..)
    | with_reducible apply Moves.after (State.recClear_moves ..)
    | with_reducible apply Moves.after (execRecClearImage_moves ..)
    | with_reducible apply Moves.after (execRecClearWallErase_moves ..)
    | with_reducible apply Moves.after (execTbStepWrite_moves ..)
    | with_reducible apply Moves.after (execCntAdvance_moves ..)
    | with_reducible apply Moves.after (execLockAppSet_moves ..)
    | with_reducible apply Moves.after (State.cmdFailEngine_moves ..)
    | with_reducible apply Moves.after (execResetRequest_moves ..)
    | with_reducible apply Moves.after (execImgCmdErase_moves ..)
    | with_reducible apply Moves.after (State.imgChunk_moves ..)
    | with_reducible apply Moves.after (execImgCmdVerify_moves ..)
    | with_reducible apply Moves.after (execPsCmdEnter_moves ..)
    | with_reducible apply Moves.after (execPsCmdExit_moves ..)
    | with_reducible apply Moves.after (State.restoreDefaults_moves ..)
    | with_reducible apply Moves.after (State.alertAck_moves ..)
    | with_reducible apply Moves.after (stateOf_moves ..)
    | with_reducible apply Moves.after (otpCommand_moves ..)
    | with_reducible apply Moves.after (secCommand_moves ..)
    | with_reducible apply Moves.after (ledgerCommand_moves ..)
    | with_reducible apply Moves.after (shedCommand_moves ..)
    | with_reducible apply Moves.after (convCommand_moves ..)
    | with_reducible apply Moves.after (meterCommand_moves ..)
    | with_reducible apply Moves.after (skimCommand_moves ..)
    | with_reducible apply Moves.after (seqCommand_moves ..)
    | with_reducible apply Moves.after (degCommand_moves ..)
    | with_reducible apply Moves.after (State.startStore_moves ..)

theorem command_moves (s : State) (a : Area) (j o k : Nat) (x : Int) (l : List Nat) : OptMoves (partsBut [.pending, .tb, .clk, .otpShadow, .cts, .tbcs, .shared, .srcs, .sess]) s (command s a j o k x l) := by
  unfold command
  repeat' first
    | with_reducible exact OptMoves.none
    | with_reducible apply OptMoves.after (globCommand_moves ..)
    | with_reducible apply OptMoves.ite
    | with_reducible apply OptMoves.some
    | decide
    | with_reducible exact Moves.refl _ _
    | rw [stateOf_ite]
    | with_reducible apply Moves.ite
    | with_reducible apply Moves.after (State.writeMargin_moves ..)
    | with_reducible apply Moves.after (execCmpCmdClearLatch_moves ..)
    | with_reducible apply Moves.after (execCmpCmdSelfchk_moves ..)
    | with_reducible apply Moves.after (execTgCmdStart_moves ..)
    | with_reducible apply Moves.after (execTgCmdStop_moves ..)
    | with_reducible apply Moves.after (stateOf_moves ..)
    | with_reducible apply Moves.after (portCommand_moves ..)
    | with_reducible apply Moves.after (pathCommand_moves ..)
    | with_reducible apply Moves.after (feedCommand_moves ..)
    | with_reducible apply Moves.after (twCommand_moves ..)
    | split
    | dsimp only

theorem refusedTrace_moves (s : State) (t : State) (w : Will) (q : Who) (i : WItem) : Moves (partsBut [.pending, .tb, .clk, .otpShadow, .cts, .tbcs, .shared, .srcs, .sess]) s (refusedTrace s t w q i) := by
  unfold refusedTrace
  repeat' first
    | with_reducible exact Moves.refl _ _
    | ((with_reducible intro _ _); decide +revert)
    | with_reducible apply Moves.ite
    | with_reducible refine Moves.foldl (fun _ _ => ?_) ?_
    | with_reducible apply Moves.after (State.wr_moves ..)
    | split

theorem itemCommand_moves (t : State) (i : WItem) : OptMoves (partsBut [.pending, .tb, .clk, .otpShadow, .cts, .tbcs, .shared, .srcs, .sess]) t (itemCommand t i) := by
  unfold itemCommand
  split
  · exact OptMoves.none
  · intro u h
    exact Moves.step (fun _ h => h) (Moves.mono (by decide) (State.reply_moves t 0)) (command_moves _ _ _ _ _ _ _ u h)

theorem runItem_moves (acc : State × List (Nat × HeldWhy)) (x : WItem × Nat) : Moves (partsBut [.pending, .tb, .clk, .otpShadow, .cts, .tbcs, .shared, .srcs, .sess]) acc.1 (runItem acc x).1 := by
  unfold runItem
  split
  · rename_i u _ _ _ _ e _
    exact itemCommand_moves _ _ _ e
  · exact Moves.refl _ _

theorem runItems_moves (l : List (WItem × Nat)) (acc : State × List (Nat × HeldWhy)) : Moves (partsBut [.pending, .tb, .clk, .otpShadow, .cts, .tbcs, .shared, .srcs, .sess]) acc.1 (l.foldl runItem acc).1 := by
  induction l generalizing acc with
  | nil => exact Moves.refl _ _
  | cons x l ih => exact Moves.step (fun _ h => h) (runItem_moves acc x) (ih _)

theorem State.write_moves (s : State) (q : Who) (items : List WItem) : Moves (partsBut [.pending, .tb, .clk, .otpShadow, .cts, .tbcs, .shared, .srcs, .sess]) s (State.write s q items).1 := by
  unfold State.write
  split
  · exact Moves.refl _ _
  · extract_lets w t
    have ht : Moves (partsBut [.pending, .tb, .clk, .otpShadow, .cts, .tbcs, .shared, .srcs, .sess]) s t := Moves.foldl (fun _ _ => Moves.mono (by decide) (enterItem_moves ..)) (Moves.refl _ _)
    split
    · exact Moves.mono (by decide) (refusedTrace_moves ..)
    · exact Moves.after (State.ledgerWritten_moves ..) (by decide) (Moves.step (fun _ h => h) ht (runItems_moves _ (t, [])))

theorem copyActs_moves (src : Requester) (t : State) (i : WItem) : Moves (partsBut [.pending, .tb, .clk, .otpShadow, .cts, .tbcs, .shared, .srcs, .sess]) t (copyActs src t i) := by
  unfold copyActs
  split
  · exact Moves.refl _ _
  · refine Moves.ite (Moves.refl _ _) ?_
    generalize e : itemCommand t i = o
    cases o with
    | none => exact enterItem_moves ..
    | some u => exact itemCommand_moves _ _ _ e

theorem State.broadcast_moves (s : State) (q : Who) (items : List WItem) : Moves (partsBut [.pending, .tb, .clk, .otpShadow, .cts, .tbcs, .shared, .srcs, .sess]) s (State.broadcast s q items).1 := by
  unfold State.broadcast
  repeat' first
    | with_reducible exact Moves.refl _ _
    | ((with_reducible intro _ _); decide +revert)
    | with_reducible refine Moves.foldl (fun _ _ => ?_) ?_
    | with_reducible apply Moves.after (copyActs_moves ..)
    | split
    | extract_lets

theorem State.clearOnRead_moves (s : State) (k : Nat) : Moves [.od] s (State.clearOnRead s k) := by
  unfold State.clearOnRead
  repeat' first
    | with_reducible exact Moves.refl _ _
    | decide
    | with_reducible apply Moves.ite
    | with_reducible apply Moves.after (State.wr_moves ..)
    | split

theorem readAll_moves (q : Who) (l : List Nat) (a : State × List Nat) : Moves [.od] a.1 (readAll q l a).1 := by
  induction l generalizing a with
  | nil => exact Moves.refl _ _
  | cons k l ih =>
    obtain ⟨s, out⟩ := a
    unfold readAll
    dsimp only
    refine Moves.step (fun _ h => h) ?_ (ih _)
    dsimp only
    split
    · exact State.clearOnRead_moves ..
    · exact Moves.refl _ _

theorem State.read_moves (s : State) (q : Who) (secure : Bool) (ks : List Nat) : Moves [.od] s (State.read s q secure ks).1 := by
  unfold State.read
  dsimp only
  exact Moves.ite_fst (Moves.refl _ _) (Moves.ite_fst (Moves.refl _ _) (readAll_moves q ks (s, [])))

theorem State.bulkRead_moves (s : State) (q : Who) (k : Nat) (off : Nat) (count : Nat) : Moves [.od] s (State.bulkRead s q k off count).1 := by
  unfold State.bulkRead
  extract_lets a1 a2 a3 a4 a5
  try clear_value a1
  try clear_value a2
  try clear_value a3
  try clear_value a4
  try clear_value a5
  with_reducible repeat' first
    | exact Moves.refl _ _
    | decide
    | apply Moves.ite
    | apply Moves.ite_fst
    | apply Moves.after (State.clearOnRead_moves ..)

theorem State.cursorRead_moves (s : State) (q : Who) (c : Nat) : Moves [.recorder] s (State.cursorRead s q c).1 := by
  unfold State.cursorRead
  extract_lets a1 a2
  try clear_value a1
  try clear_value a2
  repeat' first
    | with_reducible exact Moves.refl _ _
    | decide
    | split
    | dsimp only
    | with_reducible apply Moves.after (Moves.upd_recorder ..)

theorem State.skimRequest_moves (s : State) (q : Who) (t : Option Nat) : Moves [.od, .recs, .answer] s (State.skimRequest s q t).1 := by
  unfold State.skimRequest
  extract_lets a1 a2 a3
  try clear_value a1
  have h2 : Moves [.od, .recs, .answer] s a2 := by
    unfold a2
    repeat' first
      | with_reducible exact Moves.refl _ _
      | decide
      | with_reducible apply Moves.after (State.skimNow_moves ..)
      | with_reducible apply Moves.after (State.skimAt_moves ..)
      | split
  try clear_value a2
  try clear_value a3
  with_reducible repeat' first
    | exact Moves.refl _ _
    | assumption
    | apply Moves.ite_fst

theorem State.storeRequest_moves (s : State) (q : Who) : Moves [.od, .answer, .nvm] s (State.storeRequest s q).1 := by
  unfold State.storeRequest
  extract_lets a1 a2
  have h1 : Moves [.od, .answer, .nvm] s a1 := by
    unfold a1
    with_reducible repeat' first
      | exact Moves.refl _ _
      | decide
      | apply Moves.after (State.startStore_moves ..)
  try clear_value a1
  try clear_value a2
  with_reducible repeat' first
    | exact Moves.refl _ _
    | assumption
    | apply Moves.ite_fst

theorem State.sessionFail_moves (s : State) : Moves [.od] s (State.sessionFail s) := by
  unfold State.sessionFail
  with_reducible repeat' first
    | exact Moves.refl _ _
    | decide
    | apply Moves.after (State.count_moves ..)
    | apply Moves.after (State.alert_moves ..)

theorem State.refuseSealed_moves (s : State) (t : Transport) : Moves [.od, .sess, .sec] s (State.refuseSealed s t) := by
  unfold State.refuseSealed
  extract_lets a1 a2
  have h1 : Moves [.od, .sess, .sec] s a1 := by
    unfold a1
    with_reducible repeat' first
      | exact Moves.refl _ _
      | decide
      | apply Moves.after (State.sessionFail_moves ..)
  try clear_value a1
  try clear_value a2
  with_reducible repeat' first
    | assumption
    | decide
    | apply Moves.ite
    | apply Moves.after (State.setSes_moves ..)
    | apply Moves.after (State.closeSession_moves ..)

theorem State.acceptSealed_moves (s : State) (t : Transport) (c : Nat) : Moves [.sess] s (State.acceptSealed s t c) := by
  unfold State.acceptSealed
  extract_lets a1
  try clear_value a1
  with_reducible repeat' first
    | exact Moves.refl _ _
    | decide
    | apply Moves.ite
    | apply Moves.after (State.setSes_moves ..)

theorem State.openSession_moves (s : State) (t : Transport) (level : Nat) (pub : List Nat) (nonce : List Nat) : Moves [.od, .fresh, .sess, .sec] s (State.openSession s t level pub nonce).1 := by
  unfold State.openSession
  extract_lets a1 a2 a3 a4 a5 a6 a7 a8 a9
  have h1 : Moves [.od, .fresh, .sess, .sec] s a1 := by
    unfold a1
    with_reducible repeat' first
      | exact Moves.refl _ _
      | decide
      | apply Moves.after (State.closeSession_moves ..)
  try clear_value a1
  try clear_value a2
  try clear_value a3
  try clear_value a4
  try clear_value a5
  try clear_value a6
  try clear_value a7
  have h8 : Moves [.od, .fresh, .sess, .sec] s a8 := by
    unfold a8
    with_reducible repeat' first
      | assumption
      | decide
      | apply Moves.after (State.setSes_moves ..)
      | apply Moves.after (State.draw_moves ..)
  try clear_value a8
  try clear_value a9
  repeat' first
    | with_reducible assumption
    | decide
    | with_reducible apply Moves.ite_fst
    | with_reducible apply Moves.after (State.sessionFail_moves ..)
    | split

theorem State.confirmSession_moves (s : State) (t : Transport) (plain : List Nat) : Moves [.od, .sess, .sec] s (State.confirmSession s t plain).1 := by
  unfold State.confirmSession
  extract_lets a1 a2
  try clear_value a1
  try clear_value a2
  with_reducible repeat' first
    | exact Moves.refl _ _
    | decide
    | apply Moves.ite_fst
    | apply Moves.after (State.wr_moves ..)
    | apply Moves.after (State.setSes_moves ..)
    | apply Moves.after (State.closeSession_moves ..)
    | apply Moves.after (State.sessionFail_moves ..)

theorem State.tokenRequest_moves (s : State) (q : Who) (t : Transport) (l : List Nat) : Moves [.od, .blob, .fresh, .sec] s (State.tokenRequest s q t l).1 := by
  unfold State.tokenRequest
  extract_lets a1
  try clear_value a1
  with_reducible repeat' first
    | exact Moves.refl _ _
    | decide
    | apply Moves.ite_fst
    | apply Moves.after (State.acceptToken_moves ..)
    | apply Moves.after (State.sessionFail_moves ..)

theorem State.perform_moves (s : State) (q : Who) (secure : Bool) (r : Req) : Moves (partsBut [.pending, .tb, .clk, .otpShadow, .cts, .tbcs, .shared, .srcs]) s (State.perform s q secure r).1 := by
  unfold State.perform
  repeat' first
    | with_reducible exact Moves.refl _ _
    | decide
    | with_reducible apply Moves.ite_fst
    | with_reducible apply Moves.after (State.closeSession_moves ..)
    | with_reducible apply Moves.after (State.write_moves ..)
    | with_reducible apply Moves.after (State.broadcast_moves ..)
    | with_reducible apply Moves.after (State.read_moves ..)
    | with_reducible apply Moves.after (State.bulkRead_moves ..)
    | with_reducible apply Moves.after (State.cursorRead_moves ..)
    | with_reducible apply Moves.after (State.skimRequest_moves ..)
    | with_reducible apply Moves.after (State.storeRequest_moves ..)
    | with_reducible apply Moves.after (State.sessionFail_moves ..)
    | with_reducible apply Moves.after (State.openSession_moves ..)
    | with_reducible apply Moves.after (State.confirmSession_moves ..)
    | with_reducible apply Moves.after (State.tokenRequest_moves ..)
    | split
    | with_reducible apply Moves.elim_fst
    | intro _

theorem State.respond_moves (s : State) (src : Requester) (h : SessHw) (secure : Bool) (op : Nat) (seq : Nat) (a : Ans) : Moves [.sess] s (State.respond s src h secure op seq a).1 := by
  unfold State.respond
  extract_lets a1
  try clear_value a1
  repeat' first
    | with_reducible exact Moves.refl _ _
    | decide
    | with_reducible apply Moves.ite
    | with_reducible apply Moves.ite_fst
    | with_reducible apply Moves.after (State.setSes_moves ..)
    | split

theorem State.present_moves (s : State) (src : Requester) (resp : List Nat) : Moves [.mboxes, .srcs] s (State.present s src resp) := by
  unfold State.present
  try dsimp only
  repeat' first
    | with_reducible exact Moves.refl _ _
    | with_reducible assumption
    | ((with_reducible intro _ _); decide +revert)
    | with_reducible apply Moves.ite
    | (with_reducible apply Moves.dite <;> intro _)
    | with_reducible apply Moves.after (State.canSend_moves ..)
    | with_reducible apply Moves.after (State.setMbox_moves ..)
    | with_reducible apply Moves.after (State.setSrc_moves ..)

theorem State.complete_moves (s : State) (src : Requester) (seq : Nat) (resp : List Nat) : Moves [.mboxes, .srcs] s (State.complete s src seq resp) := by
  unfold State.complete
  extract_lets a1 a2
  try clear_value a1
  have h2 : Moves [.mboxes, .srcs] s a2 := by
    unfold a2
    with_reducible repeat' first
      | exact Moves.refl _ _
      | decide
      | apply Moves.after (State.setSrc_moves ..)
  try clear_value a2
  with_reducible repeat' first
    | assumption
    | decide
    | apply Moves.after (State.present_moves ..)

theorem State.collect_moves (s : State) (src : Requester) : Moves [.mboxes, .srcs, .sess] s (State.collect s src) := by
  unfold State.collect
  extract_lets a1
  try clear_value a1
  repeat' first
    | with_reducible exact Moves.refl _ _
    | decide
    | with_reducible apply Moves.ite
    | with_reducible apply Moves.after (State.respond_moves ..)
    | with_reducible apply Moves.after (State.complete_moves ..)
    | split

theorem State.collectAll_moves (s : State) : Moves [.mboxes, .srcs, .sess] s (State.collectAll s) := by
  unfold State.collectAll
  repeat' first
    | with_reducible exact Moves.refl _ _
    | decide
    | with_reducible apply Moves.after (State.collect_moves ..)
    | with_reducible apply Moves.foldl
    | intro _ _

theorem State.serve_moves (s : State) (src : Requester) (seq : Nat) (secure : Bool) (r : Req) : Moves (partsBut [.pending, .tb, .clk, .otpShadow, .cts, .tbcs, .shared]) s (State.serve s src seq secure r) := by
  unfold State.serve
  repeat' first
    | with_reducible exact Moves.refl _ _
    | ((with_reducible intro _ _); decide +revert)
    | with_reducible apply Moves.ite
    | with_reducible apply Moves.after (State.collectAll_moves ..)
    | with_reducible apply Moves.after (State.complete_moves ..)
    | with_reducible apply Moves.after (State.perform_moves ..)
    | with_reducible apply Moves.after (State.present_moves ..)
    | with_reducible apply Moves.after (State.refuseSealed_moves ..)
    | with_reducible apply Moves.after (State.reply_moves ..)
    | with_reducible apply Moves.after (State.respond_moves ..)
    | with_reducible apply Moves.after (State.setSrc_moves ..)
    | split
    | extract_lets

theorem State.dfError_moves (s : State) (src : Requester) : Moves [.od] s (State.dfError s src) := by
  unfold State.dfError
  repeat' first
    | with_reducible exact Moves.refl _ _
    | decide
    | with_reducible apply Moves.after (State.count_moves ..)
    | split

theorem State.receive_moves (s : State) (src : Requester) (l : List Nat) : Moves (partsBut [.pending, .tb, .clk, .otpShadow, .cts, .tbcs, .shared]) s (State.receive s src l) := by
  unfold State.receive
  extract_lets a1 a2 a3 a4 a5
  try clear_value a1
  try clear_value a2
  try clear_value a3
  try clear_value a4
  try clear_value a5
  repeat' first
    | with_reducible exact Moves.refl _ _
    | with_reducible assumption
    | ((with_reducible intro _ _); decide +revert)
    | with_reducible apply Moves.ite
    | with_reducible apply Moves.after (State.acceptSealed_moves ..)
    | with_reducible apply Moves.after (State.dfError_moves ..)
    | with_reducible apply Moves.after (State.present_moves ..)
    | with_reducible apply Moves.after (State.refuseSealed_moves ..)
    | with_reducible apply Moves.after (State.reply_moves ..)
    | with_reducible apply Moves.after (State.serve_moves ..)
    | split

theorem State.request_moves (s : State) (r : ReqHead) (q : Req) : Moves (partsBut [.pending, .tb, .clk, .otpShadow, .cts, .tbcs, .shared]) s (State.request s r q) := by
  unfold State.request
  extract_lets a1
  have h1 : Moves (partsBut [.pending, .tb, .clk, .otpShadow, .cts, .tbcs, .shared]) s a1 := by
    unfold a1
    repeat' first
      | with_reducible exact Moves.refl _ _
      | with_reducible assumption
      | ((with_reducible intro _ _); decide +revert)
      | with_reducible apply Moves.ite
      | with_reducible apply Moves.after (State.acceptSealed_moves ..)
      | split
  try clear_value a1
  repeat' first
    | with_reducible exact Moves.refl _ _
    | with_reducible assumption
    | ((with_reducible intro _ _); decide +revert)
    | with_reducible apply Moves.after (State.serve_moves ..)

theorem State.plain_moves (s : State) (b : Nat) (off : Nat) : Moves [] s (State.plain s b off).2 := by
  unfold State.plain
  repeat' with_reducible exact Moves.refl _ _

theorem State.unknownReg_moves (s : State) : Moves [.fresh] s (State.unknownReg s).2 := by
  unfold State.unknownReg
  with_reducible repeat' first
    | exact Moves.refl _ _
    | decide
    | apply Moves.after (State.draw_moves ..)

theorem State.readPath_moves (s : State) (b : Nat) (a : Nat) : Moves [.io] s (State.readPath s b a).2 := by
  unfold State.readPath
  repeat' first
    | with_reducible exact Moves.refl _ _
    | ((with_reducible intro _ _); decide +revert)
    | with_reducible apply Moves.ite
    | with_reducible apply Moves.ite_snd
    | with_reducible apply Moves.after (State.iow_moves ..)
    | with_reducible apply Moves.after (State.plain_moves ..)
    | split

theorem State.readMirror_moves (s : State) (b : Nat) (a : Nat) : Moves [] s (State.readMirror s b a).2 := by
  unfold State.readMirror
  repeat' first
    | with_reducible exact Moves.refl _ _
    | ((with_reducible intro _ _); decide +revert)
    | with_reducible apply Moves.after (State.plain_moves ..)
    | split

theorem State.readWindow_moves (s : State) (c : CoreId) (a : Nat) : Moves [.od, .cts, .time] s (State.readWindow s c a).2 := by
  unfold State.readWindow
  extract_lets a1 a2 a3 a4 a5 a6
  try clear_value a1
  try clear_value a2
  try clear_value a3
  try clear_value a4
  try clear_value a5
  try clear_value a6
  with_reducible repeat' first
    | exact Moves.refl _ _
    | decide
    | apply Moves.ite_snd
    | apply Moves.after (State.latchChain_moves ..)
    | apply Moves.after (State.readCap_moves ..)
    | apply Moves.after (State.latchHi_moves ..)

theorem State.readLedger_moves (s : State) (b : Nat) (a : Nat) : Moves [.io] s (State.readLedger s b a).2 := by
  unfold State.readLedger
  with_reducible repeat' first
    | exact Moves.refl _ _
    | decide
    | apply Moves.ite_snd
    | apply Moves.after (State.iow_moves ..)
    | apply Moves.after (State.plain_moves ..)

theorem State.mbRead_moves (s : State) (e : Eng) : Moves [.mboxes, .srcs, .sess] s (State.mbRead s e).2 := by
  unfold State.mbRead
  extract_lets a1 a2
  have h1 : Moves [.mboxes, .srcs, .sess] s a1 := by
    unfold a1
    repeat' first
      | with_reducible exact Moves.refl _ _
      | with_reducible assumption
      | ((with_reducible intro _ _); decide +revert)
      | with_reducible apply Moves.after (State.collectAll_moves ..)
  try clear_value a1
  try clear_value a2
  repeat' first
    | with_reducible exact Moves.refl _ _
    | with_reducible assumption
    | ((with_reducible intro _ _); decide +revert)
    | with_reducible apply Moves.ite
    | with_reducible apply Moves.ite_snd
    | with_reducible apply Moves.after (State.setMbox_moves ..)
    | split

theorem State.readMailbox_moves (s : State) (e : Eng) (a : Nat) : Moves [.mboxes, .srcs, .sess] s (State.readMailbox s e a).2 := by
  unfold State.readMailbox
  with_reducible repeat' first
    | exact Moves.refl _ _
    | decide
    | apply Moves.ite_snd
    | apply Moves.after (State.kcmdRead_moves ..)
    | apply Moves.after (State.mbRead_moves ..)

theorem State.readQueue_moves (s : State) (c : Conv) (o : Nat) : Moves [.io, .convs] s (State.readQueue s c o).2 := by
  unfold State.readQueue
  with_reducible repeat' first
    | exact Moves.refl _ _
    | decide
    | apply Moves.ite_snd
    | apply Moves.after (State.tqPop_moves ..)

theorem State.readControl_moves (s : State) (e : Eng) (a : Nat) : Moves [.io] s (State.readControl s e a).2 := by
  unfold State.readControl
  with_reducible repeat' first
    | exact Moves.refl _ _
    | decide
    | apply Moves.ite_snd
    | apply Moves.after (State.iow_moves ..)
    | apply Moves.after (State.plain_moves ..)

theorem State.readOtp_moves (s : State) (a : Nat) : Moves [.fresh] s (State.readOtp s a).2 := by
  unfold State.readOtp
  with_reducible repeat' first
    | exact Moves.refl _ _
    | decide
    | apply Moves.ite_snd
    | apply Moves.after (State.plain_moves ..)
    | apply Moves.after (State.unknownReg_moves ..)

theorem State.readKeeper_moves (s : State) (a : Nat) : Moves [.od, .io, .paths, .ledger, .tiles, .ports, .recorder] s (State.readKeeper s a).2 := by
  unfold State.readKeeper
  with_reducible repeat' first
    | exact Moves.refl _ _
    | decide
    | apply Moves.ite_snd
    | apply Moves.after (State.plain_moves ..)

theorem State.ioRead_moves (s : State) (c : CoreId) (a : Nat) : Moves [.od, .io, .fresh, .paths, .ledger, .tiles, .ports, .convs, .recorder, .cts, .time, .mboxes, .srcs, .sess] s (State.ioRead s c a).2 := by
  unfold State.ioRead
  extract_lets a1 a2
  try clear_value a1
  try clear_value a2
  with_reducible repeat' first
    | exact Moves.refl _ _
    | decide
    | apply Moves.ite_snd
    | apply Moves.after (State.unknownReg_moves ..)
    | apply Moves.after (State.readPath_moves ..)
    | apply Moves.after (State.readMirror_moves ..)
    | apply Moves.after (State.readWindow_moves ..)
    | apply Moves.after (State.readLedger_moves ..)
    | apply Moves.after (State.readMailbox_moves ..)
    | apply Moves.after (State.readQueue_moves ..)
    | apply Moves.after (State.readControl_moves ..)
    | apply Moves.after (State.readOtp_moves ..)
    | apply Moves.after (State.readKeeper_moves ..)

theorem State.w1c_moves (s : State) (b : Nat) (a : Nat) (v : Nat) (m : Nat) : Moves [.io] s (State.w1c s b a v m) := by
  unfold State.w1c
  with_reducible repeat' first
    | exact Moves.refl _ _
    | decide
    | apply Moves.after (State.iow_moves ..)

theorem State.rwMask_moves (s : State) (b : Nat) (a : Nat) (v : Nat) (m : Nat) : Moves [.io] s (State.rwMask s b a v m) := by
  unfold State.rwMask
  with_reducible repeat' first
    | exact Moves.refl _ _
    | decide
    | apply Moves.after (State.iow_moves ..)

theorem State.clearMirror_moves (s : State) (b : Nat) (v : Nat) : Moves [.cmps] s (State.clearMirror s b v) := by
  unfold State.clearMirror
  repeat' first
    | with_reducible exact Moves.refl _ _
    | decide
    | with_reducible apply Moves.ite
    | with_reducible apply Moves.after (State.setCmp_moves ..)
    | with_reducible apply Moves.foldl
    | intro _ _

theorem State.takeSelfchk_moves (s : State) (b : Nat) (v : Nat) : Moves [.io, .cmps] s (State.takeSelfchk s b v) := by
  unfold State.takeSelfchk
  repeat' first
    | with_reducible exact Moves.refl _ _
    | ((with_reducible intro _ _); decide +revert)
    | with_reducible apply Moves.ite
    | with_reducible apply Moves.after (State.rwMask_moves ..)
    | with_reducible apply Moves.after (State.selfchkGo_moves ..)

theorem State.takeWrite_moves (s : State) (b : Nat) (a : Nat) (v : Nat) : Moves [.od, .odNew, .io, .cmps, .paths, .tiles, .mets, .recorder] s (State.takeWrite s b a v) := by
  unfold State.takeWrite
  extract_lets a1 a2
  try clear_value a1
  try clear_value a2
  repeat' first
    | with_reducible exact Moves.refl _ _
    | with_reducible assumption
    | ((with_reducible intro _ _); decide +revert)
    | with_reducible apply Moves.ite
    | with_reducible apply Moves.after (State.clearMirror_moves ..)
    | with_reducible apply Moves.after (State.putTarget_moves ..)
    | with_reducible apply Moves.after (State.rwMask_moves ..)
    | with_reducible apply Moves.after (State.takeCtrl_moves ..)
    | with_reducible apply Moves.after (State.takeSelfchk_moves ..)

theorem State.postTile_moves (s : State) (b : Nat) (a : Nat) (v : Nat) : Moves [.od, .odNew, .io, .cmps, .paths, .tiles, .mets, .recorder] s (State.postTile s b a v) := by
  unfold State.postTile
  extract_lets a1
  try clear_value a1
  repeat' first
    | with_reducible exact Moves.refl _ _
    | with_reducible assumption
    | ((with_reducible intro _ _); decide +revert)
    | with_reducible apply Moves.ite
    | with_reducible apply Moves.after (State.setTile_moves ..)
    | with_reducible apply Moves.after (State.takeWrite_moves ..)
    | extract_lets

theorem State.writePath_moves (s : State) (b : Nat) (a : Nat) (v : Nat) : Moves [.od, .odNew, .io, .cmps, .paths, .tiles, .mets, .recorder] s (State.writePath s b a v) := by
  unfold State.writePath
  extract_lets a1
  try clear_value a1
  repeat' first
    | with_reducible exact Moves.refl _ _
    | with_reducible assumption
    | ((with_reducible intro _ _); decide +revert)
    | with_reducible apply Moves.ite
    | with_reducible apply Moves.after (State.postTile_moves ..)
    | with_reducible apply Moves.after (State.rwMask_moves ..)
    | with_reducible apply Moves.after (State.w1c_moves ..)
    | extract_lets

theorem State.writeMirror_moves (s : State) (b : Nat) (a : Nat) (v : Nat) : Moves [.od, .odNew, .io, .cmps, .paths, .tiles, .mets, .recorder] s (State.writeMirror s b a v) := by
  unfold State.writeMirror
  repeat' first
    | with_reducible exact Moves.refl _ _
    | ((with_reducible intro _ _); decide +revert)
    | with_reducible apply Moves.ite
    | with_reducible apply Moves.after (State.postTile_moves ..)
    | with_reducible apply Moves.after (State.rwMask_moves ..)
    | with_reducible apply Moves.after (State.w1c_moves ..)

theorem State.writeWindow_moves (s : State) (c : CoreId) (a : Nat) (v : Nat) : Moves [.od, .pins, .cts, .tbcs, .tgs, .time] s (State.writeWindow s c a v) := by
  unfold State.writeWindow
  extract_lets a1 a2 a3 a4 a5 a6 a7 a8 a9 a10
  try clear_value a1
  try clear_value a2
  try clear_value a3
  try clear_value a4
  try clear_value a5
  try clear_value a6
  try clear_value a7
  try clear_value a8
  try clear_value a9
  try clear_value a10
  with_reducible repeat' first
    | exact Moves.refl _ _
    | decide
    | apply Moves.ite
    | apply Moves.after (State.setCt_moves ..)
    | apply Moves.after (State.setTbc_moves ..)
    | apply Moves.after (State.setTg_moves ..)
    | apply Moves.after (State.denyWrite_moves ..)
    | apply Moves.after (execTbcHiWrite_moves ..)
    | apply Moves.after (State.writePeriod_moves ..)
    | apply Moves.after (Moves.upd_time ..)

theorem State.writeLedger_moves (s : State) (b : Nat) (a : Nat) (v : Nat) : Moves [.od, .odNew, .io, .ledgerPorts, .ledger, .pins] s (State.writeLedger s b a v) := by
  unfold State.writeLedger
  extract_lets a1 a2 a3
  try clear_value a1
  try clear_value a2
  try clear_value a3
  repeat' first
    | with_reducible exact Moves.refl _ _
    | decide
    | with_reducible apply Moves.ite
    | with_reducible apply Moves.after (execLqAdmit_moves ..)
    | with_reducible apply Moves.after (execLqReserve_moves ..)
    | with_reducible apply Moves.after (execLqRelease_moves ..)
    | with_reducible apply Moves.after (execLqLower_moves ..)
    | with_reducible apply Moves.after (State.w1c_moves ..)
    | with_reducible apply Moves.after (State.rwMask_moves ..)
    | rw [stateOf_ite]

theorem State.mbWrite_moves (s : State) (e : Eng) (v : Nat) : Moves (partsBut [.pending, .tb, .clk, .otpShadow, .cts, .tbcs, .shared]) s (State.mbWrite s e v) := by
  unfold State.mbWrite
  extract_lets a1
  try clear_value a1
  repeat' first
    | with_reducible exact Moves.refl _ _
    | with_reducible assumption
    | ((with_reducible intro _ _); decide +revert)
    | with_reducible apply Moves.ite
    | with_reducible apply Moves.after (State.ioFlag_moves ..)
    | with_reducible apply Moves.after (State.receive_moves ..)
    | with_reducible apply Moves.after (State.setMbox_moves ..)
    | extract_lets

theorem State.mbAbort_moves (s : State) (e : Eng) : Moves [.mboxes, .srcs] s (State.mbAbort s e) := by
  unfold State.mbAbort
  extract_lets a1 a2 a3 a4
  try clear_value a1
  try clear_value a2
  have h3 : Moves [.mboxes, .srcs] s a3 := by
    unfold a3
    with_reducible repeat' first
      | exact Moves.refl _ _
      | decide
      | apply Moves.after (State.setMbox_moves ..)
  try clear_value a3
  try clear_value a4
  with_reducible repeat' first
    | assumption
    | decide
    | apply Moves.after (State.setSrc_moves ..)

theorem State.writeMailbox_moves (s : State) (e : Eng) (a : Nat) (v : Nat) : Moves (partsBut [.pending, .tb, .clk, .otpShadow, .cts, .tbcs, .shared]) s (State.writeMailbox s e a v) := by
  unfold State.writeMailbox
  repeat' first
    | with_reducible exact Moves.refl _ _
    | ((with_reducible intro _ _); decide +revert)
    | with_reducible apply Moves.ite
    | with_reducible apply Moves.after (State.ioFlag_moves ..)
    | with_reducible apply Moves.after (State.mbAbort_moves ..)
    | with_reducible apply Moves.after (State.mbWrite_moves ..)
    | extract_lets

theorem State.writeQueue_moves (s : State) (c : Conv) (o : Nat) (v : Nat) : Moves [.od, .io, .fresh, .convs] s (State.writeQueue s c o v) := by
  unfold State.writeQueue
  extract_lets a1
  have h1 : Moves [.od, .io, .fresh, .convs] s a1 := by
    unfold a1
    with_reducible repeat' first
      | exact Moves.refl _ _
      | decide
      | apply Moves.after (State.setTqReg_moves ..)
  try clear_value a1
  with_reducible repeat' first
    | exact Moves.refl _ _
    | assumption
    | decide
    | apply Moves.ite
    | apply Moves.after (State.draw_moves ..)
    | apply Moves.after (State.setTqReg_moves ..)
    | apply Moves.after (State.inject_moves ..)

theorem State.writeControl_moves (s : State) (e : Eng) (a : Nat) (v : Nat) : Moves (partsBut [.pending, .tb, .clk, .otpShadow, .cts, .tbcs, .shared]) s (State.writeControl s e a v) := by
  unfold State.writeControl
  extract_lets a1 a2
  try clear_value a1
  have h2 : Moves (partsBut [.pending, .tb, .clk, .otpShadow, .cts, .tbcs, .shared]) s a2 := by
    unfold a2
    with_reducible repeat' first
      | exact Moves.refl _ _
      | decide
      | apply Moves.after (State.w1c_moves ..)
  try clear_value a2
  with_reducible repeat' first
    | exact Moves.refl _ _
    | assumption
    | decide
    | apply Moves.ite
    | apply Moves.after (State.iow_moves ..)
    | apply Moves.after (State.failEngine_moves ..)
    | apply Moves.after (State.adoptDone_moves ..)
    | apply Moves.after (State.wdKick_moves ..)
    | apply Moves.after (State.ckCommit_moves ..)
    | apply Moves.after (State.arrive_moves ..)
    | apply Moves.after (State.w1c_moves ..)

theorem State.writeOtp_moves (s : State) (a : Nat) (v : Nat) : Moves [.od, .io, .fresh, .answer, .otp] s (State.writeOtp s a v) := by
  unfold State.writeOtp
  extract_lets a1 a2 a3 a4
  try clear_value a1
  try clear_value a2
  have h3 : Moves [.od, .io, .fresh, .answer, .otp] s a3 := by
    unfold a3
    with_reducible repeat' first
      | exact Moves.refl _ _
      | decide
      | apply Moves.after (State.draw_moves ..)
  try clear_value a3
  try clear_value a4
  with_reducible repeat' first
    | exact Moves.refl _ _
    | assumption
    | decide
    | apply Moves.ite
    | apply Moves.after (State.wr_moves ..)
    | apply Moves.after (State.otpRead_moves ..)
    | apply Moves.after (State.otpProgram_moves ..)
    | apply Moves.after (State.otpRepair_moves ..)
    | apply Moves.after (State.otpFinalise_moves ..)
    | apply Moves.after (State.otpAdvance_moves ..)
    | apply Moves.after (State.w1c_moves ..)

theorem State.writeKeeper_moves (s : State) (a : Nat) (v : Nat) : Moves (partsBut [.pending]) s (State.writeKeeper s a v) := by
  unfold State.writeKeeper
  extract_lets a1
  have h1 : Moves (partsBut [.pending]) s a1 := by
    unfold a1
    with_reducible repeat' first
      | exact Moves.refl _ _
      | decide
      | apply Moves.after (State.iow_moves ..)
  try clear_value a1
  with_reducible repeat' first
    | exact Moves.refl _ _
    | assumption
    | decide
    | apply Moves.ite
    | apply Moves.after (State.iow_moves ..)
    | apply Moves.after (execKwdKick_moves ..)
    | apply Moves.after (State.psEnter_moves ..)
    | apply Moves.after (execTileTrstWrite_moves ..)
    | apply Moves.after (State.w1c_moves ..)

theorem State.ioWrite_moves (s : State) (c : CoreId) (a : Nat) (v : Nat) : Moves (partsBut [.pending]) s (State.ioWrite s c a v) := by
  unfold State.ioWrite
  extract_lets a1 a2
  try clear_value a1
  try clear_value a2
  with_reducible repeat' first
    | exact Moves.refl _ _
    | decide
    | apply Moves.ite
    | apply Moves.after (State.writePath_moves ..)
    | apply Moves.after (State.writeMirror_moves ..)
    | apply Moves.after (State.writeWindow_moves ..)
    | apply Moves.after (State.writeLedger_moves ..)
    | apply Moves.after (State.writeMailbox_moves ..)
    | apply Moves.after (State.writeQueue_moves ..)
    | apply Moves.after (State.writeControl_moves ..)
    | apply Moves.after (State.writeOtp_moves ..)
    | apply Moves.after (State.writeKeeper_moves ..)

theorem State.deliverOne_moves (s : State) (c : CoreId) : Moves (partsBut [.pending]) s (State.deliverOne s c) := by
  unfold State.deliverOne
  split
  · exact Moves.refl _ _
  · exact Moves.after (State.ioWrite_moves ..) (by decide) (Moves.mono (by decide) (State.setCore_moves _ _ _ id))

theorem State.deliverSome_moves (c : CoreId) (n : Nat) (s : State) : Moves (partsBut [.pending]) s (State.deliverSome c n s) := by
  induction n generalizing s with
  | zero => exact Moves.refl _ _
  | succ n ih => exact Moves.step (fun _ h => h) (State.deliverOne_moves ..) (ih _)

theorem State.drained_moves (s : State) (c : CoreId) : Moves (partsBut [.pending]) s (State.drained s c) := State.deliverSome_moves ..

theorem State.withDelivery_moves (f : State → State) (s : State) (hf : ∀ u, Moves (partsBut [.pending]) u (f u)) : Moves (partsBut [.pending]) s (State.withDelivery f s) := by
  unfold State.withDelivery
  split
  · exact hf s
  · exact Moves.step (fun _ h => h) (Moves.foldl (fun _ _ => State.drained_moves ..) (Moves.refl _ _)) (hf _)

theorem State.deliverDue_moves (c : CoreId) (all : Bool) (n : Nat) (s : State) : Moves (partsBut [.pending]) s (State.deliverDue c all n s) := by
  induction n generalizing s with
  | zero => exact Moves.refl _ _
  | succ n ih =>
    unfold State.deliverDue
    split
    · exact Moves.refl _ _
    · split
      · refine Moves.step (fun _ h => h) ?_ (ih _)
        refine Moves.step (fun _ h => h) ?_ (State.withDelivery_moves _ _ fun _ => State.ioWrite_moves ..)
        exact Moves.mono (by decide) (State.setCore_moves _ _ _ id)
      · exact Moves.refl _ _

theorem State.settleCore_moves (s : State) (c : CoreId) : Moves (partsBut [.pending]) s (State.settleCore s c) :=
  Moves.after (State.setCore_moves _ _ _ (CoreHw.flushed_mem _)) (by decide) (State.deliverDue_moves ..)

theorem State.coreFails_moves (s : State) (c : CoreId) (cause : Int) : Moves (partsBut [.pending]) s (State.coreFails s c cause) := by
  unfold State.coreFails
  split
  · exact Moves.mono (by decide) (State.setCore_moves _ _ _ id)
  · exact State.withDelivery_moves _ _ fun _ => Moves.mono (by decide) (State.failEngine_moves ..)

theorem State.enter_moves (s : State) (c : CoreId) (code : Nat) (epc : Nat) (ds : Nat) (detail : Nat) :
    Moves (partsBut [.pending]) s (State.enter s c code epc ds detail) := by
  unfold State.enter
  dsimp only
  split
  · exact State.settleCore_moves ..
  · split
    · exact Moves.after (State.coreFails_moves ..) (fun _ h => h) (State.settleCore_moves ..)
    · exact Moves.after (State.setCore_moves _ _ _ (CoreHw.entered_mem _ _ _ _ _ _)) (by decide) (State.settleCore_moves ..)

theorem State.zTrap_moves (s : State) (c : CoreId) (code : Nat) (detail : Nat) (rep : Bool) : Moves (partsBut [.pending]) s (State.zTrap s c code detail rep) := by
  unfold State.zTrap
  extract_lets a1
  with_reducible repeat' first
    | exact Moves.refl _ _
    | decide
    | apply Moves.ite
    | apply Moves.after (State.enter_moves ..)

theorem State.waitCore_moves (s : State) (c : CoreId) : Moves (partsBut [.pending]) s (State.waitCore s c) := by
  unfold State.waitCore
  split
  · exact Moves.refl _ _
  · dsimp only
    split
    · exact Moves.after (State.setCore_moves _ _ _ id) (by decide) (State.settleCore_moves ..)
    · exact State.settleCore_moves ..

theorem State.zAdvance_moves (s : State) (c : CoreId) (z : ZIns) (x : ZNext) : Moves (partsBut [.pending]) s (State.zAdvance s c z x) := by
  have h := State.setCore_moves s c ((s.core c).advance (zLen z) x) (CoreHw.mem_of_eq (by simp) (by simp))
  unfold State.zAdvance
  split
  · exact Moves.refl _ _
  · dsimp only
    split
    · exact Moves.after (State.waitCore_moves ..) (fun _ h => h) (Moves.mono (by decide) h)
    · exact Moves.mono (by decide) h

theorem State.zEnd_moves (s : State) (c : CoreId) (z : ZIns) (k : ZKind) (o : ZOut) (ho : Moves (partsBut [.pending]) s o.st) :
    Moves (partsBut [.pending]) s (State.zEnd s c z k o) := by
  unfold State.zEnd
  dsimp only
  split
  · exact Moves.after (State.zTrap_moves ..) (fun _ h => h) ho
  · exact State.zTrap_moves ..
  · split
    · exact State.zTrap_moves ..
    · exact Moves.after (State.zAdvance_moves ..) (fun _ h => h) ho

theorem State.zExecute_moves (s : State) (c : CoreId) (z : ZIns) (k : ZKind) (u : ZUse) (act : State → ZOut)
    (ha : ∀ t, Moves (partsBut [.pending]) t (act t).st) : Moves (partsBut [.pending]) s (State.zExecute s c z k u act) := by
  have h : Moves (partsBut [.pending]) s (s.setCore c (s.core c).loadCount) :=
    Moves.mono (by decide) (State.setCore_moves _ _ _ (CoreHw.mem_of_eq (by simp) (by simp)))
  unfold State.zExecute
  dsimp only
  split
  · exact Moves.after (State.zTrap_moves ..) (fun _ h => h) h
  · split
    · exact Moves.step (fun _ h => h) h (State.zEnd_moves _ _ _ _ _ (Moves.refl _ _))
    · split
      · exact Moves.after (State.zTrap_moves ..) (fun _ h => h) h
      · split
        · exact State.enter_moves ..
        · exact Moves.step (fun _ h => h) h (State.zEnd_moves _ _ _ _ _ (ha _))

theorem State.countEcc_moves (s : State) (c : CoreId) : Moves [.od, .io] s (State.countEcc s c) := by
  unfold State.countEcc
  split
  · exact Moves.refl _ _
  · exact Moves.after (State.count_moves ..) (by decide) (Moves.mono (by decide) (State.iow_moves ..))

theorem State.zUndefined_moves (s : State) (c : CoreId) (z : ZIns) : Moves (partsBut [.pending]) s (State.zUndefined s c z) := by
  have h : Moves (partsBut [.pending]) s (s.setCore c (s.core c).loadCount) :=
    Moves.mono (by decide) (State.setCore_moves _ _ _ (CoreHw.mem_of_eq (by simp) (by simp)))
  unfold State.zUndefined
  dsimp only
  split
  · exact Moves.after (State.zTrap_moves ..) (fun _ h => h) h
  · exact Moves.step (fun _ h => h) h (State.zEnd_moves _ _ _ _ _ (Moves.refl _ _))

theorem State.zStep_moves (s : State) (c : CoreId) (z : ZIns) (k : ZKind) (u : ZUse) (act : State → ZOut)
    (ha : ∀ t, Moves (partsBut [.pending]) t (act t).st) : Moves (partsBut [.pending]) s (State.zStep s c z k u act) := by
  unfold State.zStep
  dsimp only
  split
  · exact Moves.refl _ _
  · have h := Moves.step (xs := (partsBut [.pending])) (fun _ h => h)
      (Moves.mono (by decide) (State.setCore_moves s c { s.core c with run := .running } id))
      (State.deliverDue_moves c false ((s.setCore c { s.core c with run := .running }).core c).posted.length _)
    split
    · exact h
    · have g := Moves.after (State.setCore_moves _ c _ (CoreHw.landed_mem _)) (by decide) h
      split
      · exact Moves.after (State.coreFails_moves ..) (fun _ h => h) g
      · have g' := Moves.ite (c := z.ecc = .corrected) (Moves.after (State.countEcc_moves _ c) (by decide) g) g
        exact Moves.ite (Moves.step (ys := (partsBut [.pending])) (fun _ h => h) g' (State.zExecute_moves _ _ _ _ _ _ ha))
          (Moves.step (ys := (partsBut [.pending])) (fun _ h => h) g' (State.zUndefined_moves ..))

theorem State.dropPartial_moves (s : State) (src : Requester) : Moves [.od, .srcs] s (State.dropPartial s src) := by
  unfold State.dropPartial
  extract_lets a1
  try clear_value a1
  with_reducible repeat' first
    | exact Moves.refl _ _
    | decide
    | apply Moves.after (State.setSrc_moves ..)
    | apply Moves.after (State.dfError_moves ..)

theorem iRead_moves (s : State) (c : CoreId) (n : Nat) (a : Nat) : Moves [.fresh] s (iRead s c n a).2 := by
  unfold iRead
  extract_lets a1 a2
  try clear_value a1
  try clear_value a2
  repeat' first
    | with_reducible exact Moves.refl _ _
    | with_reducible assumption
    | ((with_reducible intro _ _); decide +revert)
    | with_reducible apply Moves.ite
    | with_reducible apply Moves.ite_snd
    | with_reducible refine Moves.foldl (fun _ _ => ?_) ?_
    | with_reducible apply Moves.after (State.draw_moves ..)

theorem State.setHalted_moves (s : State) (c : CoreId) (v : Bool) : Moves [.sec] s (State.setHalted s c v) := by
  unfold State.setHalted
  extract_lets a1
  try clear_value a1
  with_reducible repeat' first
    | exact Moves.refl _ _
    | decide
    | apply Moves.after (Moves.upd_sec ..)

theorem coreKept_moves (s : State) (c : CoreId) (g : CoreHw) (hi : g.imem = (s.core c).imem) (hd : g.dmem = (s.core c).dmem) :
    Moves (partsBut [.pending]) s (s.setCore c g) := Moves.mono (by decide) (State.setCore_moves _ _ _ (CoreHw.mem_of_eq hi hd))

theorem zCompute_moves (u : ZUse) (m : Nat) (op : Nat → ZGot → Nat → ZRes) (c : CoreId) (z : ZIns) (s : State) :
    Moves (partsBut [.pending]) s (zCompute u m op c z s).st := by
  unfold zCompute
  dsimp only
  split
  · exact Moves.refl _ _
  · split
    · exact Moves.refl _ _
    · exact coreKept_moves _ _ _ (by simp) (by simp)

theorem zCrc_moves (c : CoreId) (z : ZIns) (s : State) : Moves (partsBut [.pending]) s (zCrc c z s).st := by
  unfold zCrc
  dsimp only
  split
  · exact Moves.refl _ _
  · split
    · exact Moves.refl _ _
    · exact coreKept_moves _ _ _ (by simp) (by simp)

theorem zCrcset_moves (c : CoreId) (z : ZIns) (s : State) : Moves (partsBut [.pending]) s (zCrcset c z s).st :=
  coreKept_moves _ _ _ (by simp) (by simp)

theorem zToS1_moves (c : CoreId) (z : ZIns) (push : CoreHw → Except Nat CoreHw) (s : State)
    (hp : ∀ h k, push h = .ok k → k.imem = h.imem ∧ k.dmem = h.dmem) : Moves (partsBut [.pending]) s (zToS1 c z push s).st := by
  unfold zToS1
  dsimp only
  split
  · exact Moves.refl _ _
  · split
    · exact Moves.refl _ _
    · split
      · exact Moves.refl _ _
      · rename_i e
        have := hp _ _ e
        split
        · exact Moves.refl _ _
        · exact coreKept_moves _ _ _ (by simpa using this.1) (by simpa using this.2)

theorem zRet_moves (c : CoreId) (z : ZIns) (s : State) : Moves (partsBut [.pending]) s (zRet c z s).st := by
  unfold zRet
  dsimp only
  repeat' split
  · exact Moves.refl _ _
  · exact Moves.refl _ _
  · exact Moves.refl _ _
  · exact coreKept_moves _ _ _ (by simp) (by simp)

theorem zRete_moves (c : CoreId) (s : State) : Moves (partsBut [.pending]) s (zRete c s).st := by
  unfold zRete
  dsimp only
  refine Moves.ite ?_ (State.settleCore_moves ..)
  exact Moves.after (State.setCore_moves _ _ _ (CoreHw.returned_mem _)) (by decide) (State.settleCore_moves ..)

theorem zRpt_moves (c : CoreId) (z : ZIns) (s : State) : Moves (partsBut [.pending]) s (zRpt c z s).st := by
  unfold zRpt
  dsimp only
  split
  · exact Moves.refl _ _
  · split
    · exact Moves.refl _ _
    · split
      · exact Moves.refl _ _
      · exact coreKept_moves _ _ _ (by simp) (by simp)

theorem zPset_moves (c : CoreId) (z : ZIns) (s : State) : Moves (partsBut [.pending]) s (zPset c z s).st := by
  unfold zPset
  extract_lets h sub
  exact coreKept_moves _ _ _ (by simp [h]) (by simp [h])

theorem zIn_moves (c : CoreId) (z : ZIns) (s : State) : Moves (partsBut [.pending]) s (zIn c z s).st := by
  unfold zIn
  split
  · exact Moves.refl _ _
  · split
    · exact Moves.refl _ _
    · exact Moves.step (by decide) (Moves.mono (by decide) (State.ioRead_moves ..)) (coreKept_moves _ _ _ (by simp) (by simp))

theorem zOut_moves (c : CoreId) (z : ZIns) (s : State) : Moves (partsBut [.pending]) s (zOut c z s).st := by
  unfold zOut
  dsimp only
  split
  · exact Moves.refl _ _
  · split
    · exact Moves.refl _ _
    · exact coreKept_moves _ _ _ (by simp) (by simp)

theorem zIrd_moves (c : CoreId) (z : ZIns) (s : State) : Moves (partsBut [.pending]) s (zIrd c z s).st := by
  unfold zIrd
  dsimp only
  split
  · exact Moves.refl _ _
  · repeat' split
    · exact Moves.refl _ _
    · exact Moves.refl _ _
    · exact Moves.step (by decide) (Moves.mono (by decide) (iRead_moves ..)) (coreKept_moves _ _ _ (by simp) (by simp))

theorem zIwr_moves (c : CoreId) (z : ZIns) (s : State) : Moves (partsBut [.pending]) s (zIwr c z s).st := by
  unfold zIwr
  dsimp only
  split
  · exact Moves.refl _ _
  · split
    · exact Moves.refl _ _
    · split
      · exact Moves.refl _ _
      · split
        · exact Moves.refl _ _
        · refine coreKept_moves _ _ _ ?_ ?_ <;> split <;> simp

theorem zXfer_moves (push : Bool) (c : CoreId) (z : ZIns) (s : State) : Moves (partsBut [.pending]) s (zXfer push c z s).st := by
  unfold zXfer
  dsimp only
  split
  · exact Moves.refl _ _
  · split
    · exact Moves.refl _ _
    · exact Moves.after (State.startXfer_moves ..) (by decide) (coreKept_moves _ _ _ (by simp) (by simp))

theorem zString_moves (k : StrOp) (c : CoreId) (z : ZIns) (lim : Option Nat) (s : State) :
    Moves (partsBut [.pending]) s (zString k c z lim s).st := by
  unfold zString
  extract_lets h n
  split
  · exact Moves.refl _ _
  · rename_i g _
    split
    · exact Moves.refl _ _
    · have hr := strRun_mem k c z n g.a lim h (strStart k (g.pointers h))
      have ht : Moves (partsBut [.pending]) s (s.setCore c ((strRun k c z n g.a lim h (strStart k (g.pointers h))).x.h.update
          (strRun k c z n g.a lim h (strStart k (g.pointers h))).x.mask
          (strRun k c z n g.a lim h (strStart k (g.pointers h))).x.flags)) :=
        coreKept_moves _ _ _ (by simp [hr, h]) (by simp [hr, h])
      dsimp only
      split
      · rw [zRaise_st]
        split
        · exact Moves.refl _ _
        · exact ht
      · exact ht

theorem State.takeReq_moves (s : State) (r : TileReq) : Moves [.od, .odNew, .io, .cmps, .paths, .ledger, .tiles, .ports, .mets, .recorder] s (State.takeReq s r) := by
  unfold State.takeReq
  repeat' first
    | with_reducible exact Moves.refl _ _
    | ((with_reducible intro _ _); decide +revert)
    | with_reducible apply Moves.ite
    | with_reducible apply Moves.after (State.clearLockout_moves ..)
    | with_reducible apply Moves.after (State.forceOff_moves ..)
    | with_reducible apply Moves.after (State.portReset_moves ..)
    | with_reducible apply Moves.after (State.releaseForce_moves ..)
    | with_reducible apply Moves.after (State.takeWrite_moves ..)
    | split

theorem State.linkResumes_moves (s : State) (n : Tile) : Moves [.od, .odNew, .io, .cmps, .paths, .ledger, .tiles, .ports, .mets, .recorder] s (State.linkResumes s n) := by
  unfold State.linkResumes
  dsimp only
  with_reducible repeat' first
    | exact Moves.refl _ _
    | assumption
    | decide
    | refine Moves.foldl (fun _ _ => ?_) ?_
    | apply Moves.after (State.setTile_moves ..)
    | apply Moves.after (State.takeNews_moves ..)
    | apply Moves.after (State.takeReq_moves ..)

end Sys2Proof.Machine
end

