-- ==== Sys2Proof/Laws/Ops.lean ====
section
/-! SUPPORT. What the shared operations do to the values of the state: reads and writes of entries in one form, keys of different
entries told apart, alerts, flags and counts, pending values, and the pins that a meaning settles at its end. -/

namespace Sys2Proof.Machine

variable (s : State)

/-! Every entry is read by `rd` and written by `wr` at its key. -/

@[simp] theorem State.rP_eq (i : Port) (e : Nat) : s.rP i e = s.rd (keyP i e) := rfl

@[simp] theorem State.wP_eq (i : Port) (e : Nat) (v : Int) : s.wP i e v = s.wr (keyP i e) v := rfl

/-- Where the entries of the 64 instances lie. -/
theorem keyP_range (i : Port) (e : Nat) (h : e < 0x4000) : 0x200000 ≤ keyP i e ∧ keyP i e < 0x300000 := by
  unfold keyP areaKey; omega

theorem keyP_inj (i j : Port) (e f : Nat) (h : e < 0x4000) (k : f < 0x4000) : keyP i e = keyP j f ↔ i = j ∧ e = f := by
  unfold keyP areaKey; constructor
  · intro q; exact ⟨Fin.ext (by omega), by omega⟩
  · rintro ⟨rfl, rfl⟩; rfl

/-- Two entries of one instance. -/
@[simp] theorem keyP_same (i : Port) (e f : Nat) : keyP i e = keyP i f ↔ e = f := by
  unfold keyP areaKey; omega

@[simp] theorem State.rR_eq (i : Rail) (e : Nat) : s.rR i e = s.rd (keyR i e) := rfl

@[simp] theorem State.wR_eq (i : Rail) (e : Nat) (v : Int) : s.wR i e v = s.wr (keyR i e) v := rfl

/-- Where the entries of the 32 instances lie. -/
theorem keyR_range (i : Rail) (e : Nat) (h : e < 0x1000) : 0x300000 ≤ keyR i e ∧ keyR i e < 0x320000 := by
  unfold keyR areaKey; omega

theorem keyR_inj (i j : Rail) (e f : Nat) (h : e < 0x1000) (k : f < 0x1000) : keyR i e = keyR j f ↔ i = j ∧ e = f := by
  unfold keyR areaKey; constructor
  · intro q; exact ⟨Fin.ext (by omega), by omega⟩
  · rintro ⟨rfl, rfl⟩; rfl

/-- Two entries of one instance. -/
@[simp] theorem keyR_same (i : Rail) (e f : Nat) : keyR i e = keyR i f ↔ e = f := by
  unfold keyR areaKey; omega

@[simp] theorem State.rV_eq (i : Conv) (e : Nat) : s.rV i e = s.rd (keyV i e) := rfl

@[simp] theorem State.wV_eq (i : Conv) (e : Nat) (v : Int) : s.wV i e v = s.wr (keyV i e) v := rfl

/-- Where the entries of the 18 instances lie. -/
theorem keyV_range (i : Conv) (e : Nat) (h : e < 0x1000) : 0x340000 ≤ keyV i e ∧ keyV i e < 0x352000 := by
  unfold keyV areaKey; omega

theorem keyV_inj (i j : Conv) (e f : Nat) (h : e < 0x1000) (k : f < 0x1000) : keyV i e = keyV j f ↔ i = j ∧ e = f := by
  unfold keyV areaKey; constructor
  · intro q; exact ⟨Fin.ext (by omega), by omega⟩
  · rintro ⟨rfl, rfl⟩; rfl

/-- Two entries of one instance. -/
@[simp] theorem keyV_same (i : Conv) (e f : Nat) : keyV i e = keyV i f ↔ e = f := by
  unfold keyV areaKey; omega

@[simp] theorem State.rC_eq (i : Cmp) (e : Nat) : s.rC i e = s.rd (keyC i e) := rfl

@[simp] theorem State.wC_eq (i : Cmp) (e : Nat) (v : Int) : s.wC i e v = s.wr (keyC i e) v := rfl

/-- Where the entries of the 164 instances lie. -/
theorem keyC_range (i : Cmp) (e : Nat) (h : e < 0x100) : 0x480000 ≤ keyC i e ∧ keyC i e < 0x48a400 := by
  unfold keyC areaKey; omega

theorem keyC_inj (i j : Cmp) (e f : Nat) (h : e < 0x100) (k : f < 0x100) : keyC i e = keyC j f ↔ i = j ∧ e = f := by
  unfold keyC areaKey; constructor
  · intro q; exact ⟨Fin.ext (by omega), by omega⟩
  · rintro ⟨rfl, rfl⟩; rfl

/-- Two entries of one instance. -/
@[simp] theorem keyC_same (i : Cmp) (e f : Nat) : keyC i e = keyC i f ↔ e = f := by
  unfold keyC areaKey; omega

@[simp] theorem State.rF_eq (i : Feed) (e : Nat) : s.rF i e = s.rd (keyF i e) := rfl

@[simp] theorem State.wF_eq (i : Feed) (e : Nat) (v : Int) : s.wF i e v = s.wr (keyF i e) v := rfl

/-- Where the entries of the 2 instances lie. -/
theorem keyF_range (i : Feed) (e : Nat) (h : e < 0x1000) : 0x322000 ≤ keyF i e ∧ keyF i e < 0x324000 := by
  unfold keyF areaKey; omega

theorem keyF_inj (i j : Feed) (e f : Nat) (h : e < 0x1000) (k : f < 0x1000) : keyF i e = keyF j f ↔ i = j ∧ e = f := by
  unfold keyF areaKey; constructor
  · intro q; exact ⟨Fin.ext (by omega), by omega⟩
  · rintro ⟨rfl, rfl⟩; rfl

/-- Two entries of one instance. -/
@[simp] theorem keyF_same (i : Feed) (e f : Nat) : keyF i e = keyF i f ↔ e = f := by
  unfold keyF areaKey; omega

@[simp] theorem State.rS_eq (i : Slot) (e : Nat) : s.rS i e = s.rd (keyS i e) := rfl

@[simp] theorem State.wS_eq (i : Slot) (e : Nat) (v : Int) : s.wS i e v = s.wr (keyS i e) v := rfl

/-- Where the entries of the 8 instances lie. -/
theorem keyS_range (i : Slot) (e : Nat) (h : e < 0x100) : 0x321000 ≤ keyS i e ∧ keyS i e < 0x321800 := by
  unfold keyS areaKey; omega

theorem keyS_inj (i j : Slot) (e f : Nat) (h : e < 0x100) (k : f < 0x100) : keyS i e = keyS j f ↔ i = j ∧ e = f := by
  unfold keyS areaKey; constructor
  · intro q; exact ⟨Fin.ext (by omega), by omega⟩
  · rintro ⟨rfl, rfl⟩; rfl

/-- Two entries of one instance. -/
@[simp] theorem keyS_same (i : Slot) (e f : Nat) : keyS i e = keyS i f ↔ e = f := by
  unfold keyS areaKey; omega

@[simp] theorem State.rM_eq (i : Chan) (e : Nat) : s.rM i e = s.rd (keyM i e) := rfl

@[simp] theorem State.wM_eq (i : Chan) (e : Nat) (v : Int) : s.wM i e v = s.wr (keyM i e) v := rfl

/-- Where the entries of the 66 instances lie. -/
theorem keyM_range (i : Chan) (e : Nat) (h : e < 0x100) : 0x364000 ≤ keyM i e ∧ keyM i e < 0x368200 := by
  unfold keyM areaKey; omega

theorem keyM_inj (i j : Chan) (e f : Nat) (h : e < 0x100) (k : f < 0x100) : keyM i e = keyM j f ↔ i = j ∧ e = f := by
  unfold keyM areaKey; constructor
  · intro q; exact ⟨Fin.ext (by omega), by omega⟩
  · rintro ⟨rfl, rfl⟩; rfl

/-- Two entries of one instance. -/
@[simp] theorem keyM_same (i : Chan) (e f : Nat) : keyM i e = keyM i f ↔ e = f := by
  unfold keyM areaKey; omega

@[simp] theorem State.rW_eq (i : Bus) (e : Nat) : s.rW i e = s.rd (keyW i e) := rfl

@[simp] theorem State.wW_eq (i : Bus) (e : Nat) (v : Int) : s.wW i e v = s.wr (keyW i e) v := rfl

/-- Where the entries of the 2 instances lie. -/
theorem keyW_range (i : Bus) (e : Nat) (h : e < 0x10000) : 0x400000 ≤ keyW i e ∧ keyW i e < 0x420000 := by
  unfold keyW areaKey; omega

theorem keyW_inj (i j : Bus) (e f : Nat) (h : e < 0x10000) (k : f < 0x10000) : keyW i e = keyW j f ↔ i = j ∧ e = f := by
  unfold keyW areaKey; constructor
  · intro q; exact ⟨Fin.ext (by omega), by omega⟩
  · rintro ⟨rfl, rfl⟩; rfl

/-- Two entries of one instance. -/
@[simp] theorem keyW_same (i : Bus) (e f : Nat) : keyW i e = keyW i f ↔ e = f := by
  unfold keyW areaKey; omega

@[simp] theorem State.rT_eq (i : Ctr) (e : Nat) : s.rT i e = s.rd (keyT i e) := rfl

@[simp] theorem State.wT_eq (i : Ctr) (e : Nat) (v : Int) : s.wT i e v = s.wr (keyT i e) v := rfl

/-- Where the entries of the 32 instances lie. -/
theorem keyT_range (i : Ctr) (e : Nat) (h : e < 0x100) : 0x441000 ≤ keyT i e ∧ keyT i e < 0x443000 := by
  unfold keyT areaKey; omega

theorem keyT_inj (i j : Ctr) (e f : Nat) (h : e < 0x100) (k : f < 0x100) : keyT i e = keyT j f ↔ i = j ∧ e = f := by
  unfold keyT areaKey; constructor
  · intro q; exact ⟨Fin.ext (by omega), by omega⟩
  · rintro ⟨rfl, rfl⟩; rfl

/-- Two entries of one instance. -/
@[simp] theorem keyT_same (i : Ctr) (e f : Nat) : keyT i e = keyT i f ↔ e = f := by
  unfold keyT areaKey; omega

@[simp] theorem State.rU_eq (i : Tbc) (e : Nat) : s.rU i e = s.rd (keyU i e) := rfl

@[simp] theorem State.wU_eq (i : Tbc) (e : Nat) (v : Int) : s.wU i e v = s.wr (keyU i e) v := rfl

/-- Where the entries of the 32 instances lie. -/
theorem keyU_range (i : Tbc) (e : Nat) (h : e < 0x100) : 0x443000 ≤ keyU i e ∧ keyU i e < 0x445000 := by
  unfold keyU areaKey; omega

theorem keyU_inj (i j : Tbc) (e f : Nat) (h : e < 0x100) (k : f < 0x100) : keyU i e = keyU j f ↔ i = j ∧ e = f := by
  unfold keyU areaKey; constructor
  · intro q; exact ⟨Fin.ext (by omega), by omega⟩
  · rintro ⟨rfl, rfl⟩; rfl

/-- Two entries of one instance. -/
@[simp] theorem keyU_same (i : Tbc) (e f : Nat) : keyU i e = keyU i f ↔ e = f := by
  unfold keyU areaKey; omega

@[simp] theorem State.rX_eq (i : Tg) (e : Nat) : s.rX i e = s.rd (keyX i e) := rfl

@[simp] theorem State.wX_eq (i : Tg) (e : Nat) (v : Int) : s.wX i e v = s.wr (keyX i e) v := rfl

/-- Where the entries of the 8 instances lie. -/
theorem keyX_range (i : Tg) (e : Nat) (h : e < 0x100) : 0x445000 ≤ keyX i e ∧ keyX i e < 0x445800 := by
  unfold keyX areaKey; omega

theorem keyX_inj (i j : Tg) (e f : Nat) (h : e < 0x100) (k : f < 0x100) : keyX i e = keyX j f ↔ i = j ∧ e = f := by
  unfold keyX areaKey; constructor
  · intro q; exact ⟨Fin.ext (by omega), by omega⟩
  · rintro ⟨rfl, rfl⟩; rfl

/-- Two entries of one instance. -/
@[simp] theorem keyX_same (i : Tg) (e f : Nat) : keyX i e = keyX i f ↔ e = f := by
  unfold keyX areaKey; omega

/-! Flags, counts and alerts are writes of one entry. -/

@[simp] theorem State.flag_eq (k i : Nat) (b : Bool) : s.flag k i b = s.wr k (withBit (s.rd k) i b) := rfl

@[simp] theorem State.count_eq (k : Nat) : s.count k = s.wr k (satInc (s.rd k) u32Max) := rfl

@[simp] theorem State.alert_eq (b : Nat) : s.alert b = s.wr K.alertSrc (withBit (s.rd K.alertSrc) b true) := rfl

@[simp] theorem State.alertPort_eq (b : Nat) (p : Port) :
    s.alertPort b p = (s.alert b).wr K.alertPorts (withBit ((s.alert b).rd K.alertPorts) p.val true) := rfl

@[simp] theorem State.ioFlag_eq (b off i : Nat) (v : Bool) : s.ioFlag b off i v = s.iow b off (withBit (s.ior b off) i v) := rfl

@[simp] theorem State.portEvent_eq (p : Port) (off base : Nat) :
    s.portEvent p off base = s.iow (blockOf p) off (withBit (s.ior (blockOf p) off) (base + localOf p) true) := rfl

@[simp] theorem State.reply_answer (st : Nat) : (s.reply st).answer = st := rfl

/-! Pending values. -/

@[simp] theorem State.wr_pendingVal (k j : Nat) (v : Int) : (s.wr k v).pendingVal j = s.pendingVal j := rfl

theorem State.applyKey_rd (k j : Nat) : (s.applyKey k).rd j = if j = k then (s.pendingVal k).getD (s.rd k) else s.rd j := by
  unfold State.applyKey
  split
  · rename_i e; split <;> simp_all
  · rename_i v e
    show (s.wr k v).rd j = _
    rw [State.rd_wr, e]
    rfl

theorem State.applyKey_pendingVal (k j : Nat) : (s.applyKey k).pendingVal j = if j = k then none else s.pendingVal j := by
  unfold State.applyKey
  split
  · rename_i e; split <;> simp_all
  · exact SMap.get_put noPending _ k j none

/-- Where nothing is pending, nothing is applied. -/
theorem State.applyKeys_nil (ks : List Nat) (h : s.odNew = []) : s.applyKeys ks = s := by
  unfold State.applyKeys
  induction ks with
  | nil => rfl
  | cons k ks ih =>
    have e : s.applyKey k = s := by simp [State.applyKey, State.pendingVal, h, SMap.get, noPending]
    rw [List.foldl_cons, e, ih]

/-! A meaning ends in a next state: the change it makes, with the pins following it. -/

theorem done_next : done s = .next (settle s) := rfl

@[simp] theorem settle_pins : (settle s).pins = pinsOf s := rfl

@[simp] theorem settle_pending : (settle s).pending = s.pending := rfl

@[simp] theorem settle_od : (settle s).od = s.od := rfl

@[simp] theorem settle_odNew : (settle s).odNew = s.odNew := rfl

@[simp] theorem settle_blob : (settle s).blob = s.blob := rfl

@[simp] theorem settle_io : (settle s).io = s.io := rfl

@[simp] theorem settle_fresh : (settle s).fresh = s.fresh := rfl

@[simp] theorem settle_tb : (settle s).tb = s.tb := rfl

@[simp] theorem settle_cmps : (settle s).cmps = s.cmps := rfl

@[simp] theorem settle_paths : (settle s).paths = s.paths := rfl

@[simp] theorem settle_feeds : (settle s).feeds = s.feeds := rfl

@[simp] theorem settle_slots : (settle s).slots = s.slots := rfl

@[simp] theorem settle_ledgerPorts : (settle s).ledgerPorts = s.ledgerPorts := rfl

@[simp] theorem settle_ledger : (settle s).ledger = s.ledger := rfl

@[simp] theorem settle_tiles : (settle s).tiles = s.tiles := rfl

@[simp] theorem settle_ports : (settle s).ports = s.ports := rfl

@[simp] theorem settle_scrim : (settle s).scrim = s.scrim := rfl

@[simp] theorem settle_coatFault : (settle s).coatFault = s.coatFault := rfl

@[simp] theorem settle_clk : (settle s).clk = s.clk := rfl

@[simp] theorem settle_convs : (settle s).convs = s.convs := rfl

@[simp] theorem settle_ref : (settle s).ref = s.ref := rfl

@[simp] theorem settle_mets : (settle s).mets = s.mets := rfl

@[simp] theorem settle_recs : (settle s).recs = s.recs := rfl

@[simp] theorem settle_otpShadow : (settle s).otpShadow = s.otpShadow := rfl

@[simp] theorem settle_rails : (settle s).rails = s.rails := rfl

@[simp] theorem settle_coat : (settle s).coat = s.coat := rfl

@[simp] theorem settle_recorder : (settle s).recorder = s.recorder := rfl

@[simp] theorem settle_nv : (settle s).nv = s.nv := rfl

@[simp] theorem settle_answer : (settle s).answer = s.answer := rfl

@[simp] theorem settle_cts : (settle s).cts = s.cts := rfl

@[simp] theorem settle_tbcs : (settle s).tbcs = s.tbcs := rfl

@[simp] theorem settle_tgs : (settle s).tgs = s.tgs := rfl

@[simp] theorem settle_time : (settle s).time = s.time := rfl

@[simp] theorem settle_otp : (settle s).otp = s.otp := rfl

@[simp] theorem settle_cores : (settle s).cores = s.cores := rfl

@[simp] theorem settle_mboxes : (settle s).mboxes = s.mboxes := rfl

@[simp] theorem settle_shared : (settle s).shared = s.shared := rfl

@[simp] theorem settle_float : (settle s).float = s.float := rfl

@[simp] theorem settle_power : (settle s).power = s.power := rfl

@[simp] theorem settle_tws : (settle s).tws = s.tws := rfl

@[simp] theorem settle_srcs : (settle s).srcs = s.srcs := rfl

@[simp] theorem settle_sess : (settle s).sess = s.sess := rfl

@[simp] theorem settle_nvm : (settle s).nvm = s.nvm := rfl

@[simp] theorem settle_sec : (settle s).sec = s.sec := rfl

@[simp] theorem settle_rd_of (k : Nat) : (settle s).rd k = s.rd k := rfl

@[simp] theorem settle_rdB_of (k : Nat) : (settle s).rdB k = s.rdB k := rfl

@[simp] theorem settle_ior_of (b o : Nat) : (settle s).ior b o = s.ior b o := rfl

@[simp] theorem settle_cmp_of (i : Cmp) : (settle s).cmp i = s.cmp i := rfl

@[simp] theorem settle_path_of (i : Port) : (settle s).path i = s.path i := rfl

@[simp] theorem settle_feed_of (i : Feed) : (settle s).feed i = s.feed i := rfl

@[simp] theorem settle_slot_of (i : Slot) : (settle s).slot i = s.slot i := rfl

@[simp] theorem settle_lport_of (i : Port) : (settle s).lport i = s.lport i := rfl

@[simp] theorem settle_port_of (i : Port) : (settle s).port i = s.port i := rfl

@[simp] theorem settle_conv_of (i : Conv) : (settle s).conv i = s.conv i := rfl

@[simp] theorem settle_met_of (i : Fin 100) : (settle s).met i = s.met i := rfl

@[simp] theorem settle_rail_of (i : Rail) : (settle s).rail i = s.rail i := rfl

@[simp] theorem settle_tile_of (i : Tile) : (settle s).tile i = s.tile i := rfl

@[simp] theorem settle_ct_of (i : Ctr) : (settle s).ct i = s.ct i := rfl

@[simp] theorem settle_tbc_of (i : Tbc) : (settle s).tbc i = s.tbc i := rfl

@[simp] theorem settle_core_of (i : CoreId) : (settle s).core i = s.core i := rfl

@[simp] theorem settle_mbox_of (i : Eng) : (settle s).mbox i = s.mbox i := rfl

@[simp] theorem settle_tw_of (i : Bus) : (settle s).tw i = s.tw i := rfl

@[simp] theorem settle_src_of (i : Requester) : (settle s).src i = s.src i := rfl

@[simp] theorem settle_ses_of (i : Transport) : (settle s).ses i = s.ses i := rfl

@[simp] theorem settle_tg_of (i : Tg) : (settle s).tg i = s.tg i := rfl

@[simp] theorem settle_pendingVal_of (k : Nat) : (settle s).pendingVal k = s.pendingVal k := rfl

@[simp] theorem settle_nvGet_of (k : Nat) : (settle s).nvGet k = s.nvGet k := rfl

/-- Bit `i` of FAULT_SRC is condition `i`. -/
theorem testBit_bitsOf (l : List Bool) (i : Nat) : (bitsOf l).testBit i = l.getD i false := by
  induction l generalizing i with
  | nil => simp [bitsOf]
  | cons b l ih =>
    cases i with
    | zero => cases b <;> simp [bitsOf, Nat.testBit_zero] <;> omega
    | succ i =>
      rw [List.getD_cons_succ, ← ih, Nat.testBit_succ]
      congr 1
      simp only [bitsOf]
      split <;> omega

end Sys2Proof.Machine
end

