-- ==== Sys2Proof/Laws/Pipe.lean ====
section
/-! SUPPORT. What the pipeline operations leave of a core: one lemma per operation and field that it keeps. -/

namespace Sys2Proof.Machine

variable (h : CoreHw)

@[simp] theorem CoreHw.store_run (b : Bool) (n a v : Nat) : (h.store b n a v).run = h.run := by unfold CoreHw.store; (repeat' split) <;> rfl

@[simp] theorem CoreHw.store_pc (b : Bool) (n a v : Nat) : (h.store b n a v).pc = h.pc := by unfold CoreHw.store; (repeat' split) <;> rfl

@[simp] theorem CoreHw.store_idx (b : Bool) (n a v : Nat) : (h.store b n a v).idx = h.idx := by unfold CoreHw.store; (repeat' split) <;> rfl

@[simp] theorem CoreHw.store_flg (b : Bool) (n a v : Nat) : (h.store b n a v).flg = h.flg := by unfold CoreHw.store; (repeat' split) <;> rfl

@[simp] theorem CoreHw.store_slots (b : Bool) (n a v : Nat) : (h.store b n a v).slots = h.slots := by unfold CoreHw.store; (repeat' split) <;> rfl

@[simp] theorem CoreHw.store_target (b : Bool) (n a v : Nat) : (h.store b n a v).target = h.target := by unfold CoreHw.store; (repeat' split) <;> rfl

@[simp] theorem CoreHw.store_rpt (b : Bool) (n a v : Nat) : (h.store b n a v).rpt = h.rpt := by unfold CoreHw.store; (repeat' split) <;> rfl

@[simp] theorem CoreHw.store_posted (b : Bool) (n a v : Nat) : (h.store b n a v).posted = h.posted := by unfold CoreHw.store; (repeat' split) <;> rfl

@[simp] theorem CoreHw.store_xfers (b : Bool) (n a v : Nat) : (h.store b n a v).xfers = h.xfers := by unfold CoreHw.store; (repeat' split) <;> rfl

@[simp] theorem CoreHw.store_wdog (b : Bool) (n a v : Nat) : (h.store b n a v).wdog = h.wdog := by unfold CoreHw.store; (repeat' split) <;> rfl

@[simp] theorem CoreHw.update_run (m v : Nat) : (h.update m v).run = h.run := by unfold CoreHw.update; (repeat' split) <;> rfl

@[simp] theorem CoreHw.update_pc (m v : Nat) : (h.update m v).pc = h.pc := by unfold CoreHw.update; (repeat' split) <;> rfl

@[simp] theorem CoreHw.update_idx (m v : Nat) : (h.update m v).idx = h.idx := by unfold CoreHw.update; (repeat' split) <;> rfl

@[simp] theorem CoreHw.update_pend (m v : Nat) : (h.update m v).pend = h.pend := by unfold CoreHw.update; (repeat' split) <;> rfl

@[simp] theorem CoreHw.update_flg (m v : Nat) : (h.update m v).flg = h.flg := by unfold CoreHw.update; (repeat' split) <;> rfl

@[simp] theorem CoreHw.update_slots (m v : Nat) : (h.update m v).slots = h.slots := by unfold CoreHw.update; (repeat' split) <;> rfl

@[simp] theorem CoreHw.update_target (m v : Nat) : (h.update m v).target = h.target := by unfold CoreHw.update; (repeat' split) <;> rfl

@[simp] theorem CoreHw.update_rpt (m v : Nat) : (h.update m v).rpt = h.rpt := by unfold CoreHw.update; (repeat' split) <;> rfl

@[simp] theorem CoreHw.update_posted (m v : Nat) : (h.update m v).posted = h.posted := by unfold CoreHw.update; (repeat' split) <;> rfl

@[simp] theorem CoreHw.update_xfers (m v : Nat) : (h.update m v).xfers = h.xfers := by unfold CoreHw.update; (repeat' split) <;> rfl

@[simp] theorem CoreHw.update_wdog (m v : Nat) : (h.update m v).wdog = h.wdog := by unfold CoreHw.update; (repeat' split) <;> rfl

@[simp] theorem CoreHw.loadCount_run : (h.loadCount).run = h.run := by unfold CoreHw.loadCount; (repeat' split) <;> rfl

@[simp] theorem CoreHw.loadCount_pc : (h.loadCount).pc = h.pc := by unfold CoreHw.loadCount; (repeat' split) <;> rfl

@[simp] theorem CoreHw.loadCount_idx : (h.loadCount).idx = h.idx := by unfold CoreHw.loadCount; (repeat' split) <;> rfl

@[simp] theorem CoreHw.loadCount_flg : (h.loadCount).flg = h.flg := by unfold CoreHw.loadCount; (repeat' split) <;> rfl

@[simp] theorem CoreHw.loadCount_flgPend : (h.loadCount).flgPend = h.flgPend := by unfold CoreHw.loadCount; (repeat' split) <;> rfl

@[simp] theorem CoreHw.loadCount_slots : (h.loadCount).slots = h.slots := by unfold CoreHw.loadCount; (repeat' split) <;> rfl

@[simp] theorem CoreHw.loadCount_target : (h.loadCount).target = h.target := by unfold CoreHw.loadCount; (repeat' split) <;> rfl

@[simp] theorem CoreHw.loadCount_rpt : (h.loadCount).rpt = h.rpt := by unfold CoreHw.loadCount; (repeat' split) <;> rfl

@[simp] theorem CoreHw.loadCount_posted : (h.loadCount).posted = h.posted := by unfold CoreHw.loadCount; (repeat' split) <;> rfl

@[simp] theorem CoreHw.loadCount_xfers : (h.loadCount).xfers = h.xfers := by unfold CoreHw.loadCount; (repeat' split) <;> rfl

@[simp] theorem CoreHw.loadCount_wdog : (h.loadCount).wdog = h.wdog := by unfold CoreHw.loadCount; (repeat' split) <;> rfl

@[simp] theorem CoreHw.landWrite_run (w : PendWrite) : (h.landWrite w).run = h.run := by unfold CoreHw.landWrite; (repeat' split) <;> rfl

@[simp] theorem CoreHw.landWrite_pc (w : PendWrite) : (h.landWrite w).pc = h.pc := by unfold CoreHw.landWrite; (repeat' split) <;> rfl

@[simp] theorem CoreHw.landWrite_idx (w : PendWrite) : (h.landWrite w).idx = h.idx := by unfold CoreHw.landWrite; (repeat' split) <;> rfl

@[simp] theorem CoreHw.landWrite_pend (w : PendWrite) : (h.landWrite w).pend = h.pend := by unfold CoreHw.landWrite; (repeat' split) <;> rfl

@[simp] theorem CoreHw.landWrite_flg (w : PendWrite) : (h.landWrite w).flg = h.flg := by unfold CoreHw.landWrite; (repeat' split) <;> rfl

@[simp] theorem CoreHw.landWrite_flgPend (w : PendWrite) : (h.landWrite w).flgPend = h.flgPend := by unfold CoreHw.landWrite; (repeat' split) <;> rfl

@[simp] theorem CoreHw.landWrite_slots (w : PendWrite) : (h.landWrite w).slots = h.slots := by unfold CoreHw.landWrite; (repeat' split) <;> rfl

@[simp] theorem CoreHw.landWrite_target (w : PendWrite) : (h.landWrite w).target = h.target := by unfold CoreHw.landWrite; (repeat' split) <;> rfl

@[simp] theorem CoreHw.landWrite_rpt (w : PendWrite) : (h.landWrite w).rpt = h.rpt := by unfold CoreHw.landWrite; (repeat' split) <;> rfl

@[simp] theorem CoreHw.landWrite_posted (w : PendWrite) : (h.landWrite w).posted = h.posted := by unfold CoreHw.landWrite; (repeat' split) <;> rfl

@[simp] theorem CoreHw.landWrite_xfers (w : PendWrite) : (h.landWrite w).xfers = h.xfers := by unfold CoreHw.landWrite; (repeat' split) <;> rfl

@[simp] theorem CoreHw.landWrite_wdog (w : PendWrite) : (h.landWrite w).wdog = h.wdog := by unfold CoreHw.landWrite; (repeat' split) <;> rfl

@[simp] theorem CoreHw.poke_run (a v : Nat) : (h.poke a v).run = h.run := CoreHw.landWrite_run ..

@[simp] theorem CoreHw.poke_pc (a v : Nat) : (h.poke a v).pc = h.pc := CoreHw.landWrite_pc ..

@[simp] theorem CoreHw.poke_idx (a v : Nat) : (h.poke a v).idx = h.idx := CoreHw.landWrite_idx ..

@[simp] theorem CoreHw.poke_pend (a v : Nat) : (h.poke a v).pend = h.pend := CoreHw.landWrite_pend ..

@[simp] theorem CoreHw.poke_flg (a v : Nat) : (h.poke a v).flg = h.flg := CoreHw.landWrite_flg ..

@[simp] theorem CoreHw.poke_flgPend (a v : Nat) : (h.poke a v).flgPend = h.flgPend := CoreHw.landWrite_flgPend ..

@[simp] theorem CoreHw.poke_slots (a v : Nat) : (h.poke a v).slots = h.slots := CoreHw.landWrite_slots ..

@[simp] theorem CoreHw.poke_target (a v : Nat) : (h.poke a v).target = h.target := CoreHw.landWrite_target ..

@[simp] theorem CoreHw.poke_rpt (a v : Nat) : (h.poke a v).rpt = h.rpt := CoreHw.landWrite_rpt ..

@[simp] theorem CoreHw.poke_posted (a v : Nat) : (h.poke a v).posted = h.posted := CoreHw.landWrite_posted ..

@[simp] theorem CoreHw.poke_xfers (a v : Nat) : (h.poke a v).xfers = h.xfers := CoreHw.landWrite_xfers ..

@[simp] theorem CoreHw.poke_wdog (a v : Nat) : (h.poke a v).wdog = h.wdog := CoreHw.landWrite_wdog ..

theorem CoreHw.landWrites_keep {α : Type} (f : CoreHw → α) (hf : ∀ k w, f (CoreHw.landWrite k w) = f k) (l : List PendWrite) :
    f (l.foldl CoreHw.landWrite h) = f h := by
  induction l generalizing h with
  | nil => rfl
  | cons x l ih => exact (ih _).trans (hf _ _)

@[simp] theorem CoreHw.landed_run : (h.landed).run = h.run := CoreHw.landWrites_keep h (·.run) (fun _ _ => CoreHw.landWrite_run ..) _

@[simp] theorem CoreHw.landed_pc : (h.landed).pc = h.pc := CoreHw.landWrites_keep h (·.pc) (fun _ _ => CoreHw.landWrite_pc ..) _

@[simp] theorem CoreHw.landed_idx : (h.landed).idx = h.idx := CoreHw.landWrites_keep h (·.idx) (fun _ _ => CoreHw.landWrite_idx ..) _

@[simp] theorem CoreHw.landed_slots : (h.landed).slots = h.slots := CoreHw.landWrites_keep h (·.slots) (fun _ _ => CoreHw.landWrite_slots ..) _

@[simp] theorem CoreHw.landed_target : (h.landed).target = h.target := CoreHw.landWrites_keep h (·.target) (fun _ _ => CoreHw.landWrite_target ..) _

@[simp] theorem CoreHw.landed_rpt : (h.landed).rpt = h.rpt := CoreHw.landWrites_keep h (·.rpt) (fun _ _ => CoreHw.landWrite_rpt ..) _

@[simp] theorem CoreHw.landed_posted : (h.landed).posted = h.posted := CoreHw.landWrites_keep h (·.posted) (fun _ _ => CoreHw.landWrite_posted ..) _

@[simp] theorem CoreHw.landed_xfers : (h.landed).xfers = h.xfers := CoreHw.landWrites_keep h (·.xfers) (fun _ _ => CoreHw.landWrite_xfers ..) _

@[simp] theorem CoreHw.landed_wdog : (h.landed).wdog = h.wdog := CoreHw.landWrites_keep h (·.wdog) (fun _ _ => CoreHw.landWrite_wdog ..) _

@[simp] theorem CoreHw.flushed_run : (h.flushed).run = h.run := CoreHw.landWrites_keep h (·.run) (fun _ _ => CoreHw.landWrite_run ..) _

@[simp] theorem CoreHw.flushed_pc : (h.flushed).pc = h.pc := CoreHw.landWrites_keep h (·.pc) (fun _ _ => CoreHw.landWrite_pc ..) _

@[simp] theorem CoreHw.flushed_idx : (h.flushed).idx = h.idx := CoreHw.landWrites_keep h (·.idx) (fun _ _ => CoreHw.landWrite_idx ..) _

@[simp] theorem CoreHw.flushed_slots : (h.flushed).slots = h.slots := CoreHw.landWrites_keep h (·.slots) (fun _ _ => CoreHw.landWrite_slots ..) _

@[simp] theorem CoreHw.flushed_target : (h.flushed).target = h.target := CoreHw.landWrites_keep h (·.target) (fun _ _ => CoreHw.landWrite_target ..) _

@[simp] theorem CoreHw.flushed_rpt : (h.flushed).rpt = h.rpt := CoreHw.landWrites_keep h (·.rpt) (fun _ _ => CoreHw.landWrite_rpt ..) _

@[simp] theorem CoreHw.flushed_posted : (h.flushed).posted = h.posted := CoreHw.landWrites_keep h (·.posted) (fun _ _ => CoreHw.landWrite_posted ..) _

@[simp] theorem CoreHw.flushed_xfers : (h.flushed).xfers = h.xfers := CoreHw.landWrites_keep h (·.xfers) (fun _ _ => CoreHw.landWrite_xfers ..) _

@[simp] theorem CoreHw.flushed_wdog : (h.flushed).wdog = h.wdog := CoreHw.landWrites_keep h (·.wdog) (fun _ _ => CoreHw.landWrite_wdog ..) _

@[simp] theorem CoreHw.flushed_pend : h.flushed.pend = [] := rfl

@[simp] theorem CoreHw.flushed_flgPend : h.flushed.flgPend = [] := rfl

@[simp] theorem CoreHw.flushed_flg : h.flushed.flg = h.flagsAll := rfl

theorem ZGot.pointers_keep {α : Type} (g : ZGot) (f : CoreHw → α) (hf : ∀ k b n a v, f (CoreHw.store k b n a v) = f k) :
    f (g.pointers h) = f h := by
  unfold ZGot.pointers
  generalize g.acc.ptr = l
  induction l generalizing h with
  | nil => rfl
  | cons x l ih => exact (ih _).trans (hf _ _ _ _ _)

@[simp] theorem ZGot.pointers_run (g : ZGot) : (g.pointers h).run = h.run := ZGot.pointers_keep h g (·.run) fun _ _ _ _ _ => CoreHw.store_run ..

@[simp] theorem ZGot.pointers_pc (g : ZGot) : (g.pointers h).pc = h.pc := ZGot.pointers_keep h g (·.pc) fun _ _ _ _ _ => CoreHw.store_pc ..

@[simp] theorem ZGot.pointers_idx (g : ZGot) : (g.pointers h).idx = h.idx := ZGot.pointers_keep h g (·.idx) fun _ _ _ _ _ => CoreHw.store_idx ..

@[simp] theorem ZGot.pointers_flg (g : ZGot) : (g.pointers h).flg = h.flg := ZGot.pointers_keep h g (·.flg) fun _ _ _ _ _ => CoreHw.store_flg ..

@[simp] theorem ZGot.pointers_slots (g : ZGot) : (g.pointers h).slots = h.slots := ZGot.pointers_keep h g (·.slots) fun _ _ _ _ _ => CoreHw.store_slots ..

@[simp] theorem ZGot.pointers_target (g : ZGot) : (g.pointers h).target = h.target := ZGot.pointers_keep h g (·.target) fun _ _ _ _ _ => CoreHw.store_target ..

@[simp] theorem ZGot.pointers_rpt (g : ZGot) : (g.pointers h).rpt = h.rpt := ZGot.pointers_keep h g (·.rpt) fun _ _ _ _ _ => CoreHw.store_rpt ..

@[simp] theorem ZGot.pointers_posted (g : ZGot) : (g.pointers h).posted = h.posted := ZGot.pointers_keep h g (·.posted) fun _ _ _ _ _ => CoreHw.store_posted ..

@[simp] theorem ZGot.pointers_xfers (g : ZGot) : (g.pointers h).xfers = h.xfers := ZGot.pointers_keep h g (·.xfers) fun _ _ _ _ _ => CoreHw.store_xfers ..

@[simp] theorem ZGot.pointers_wdog (g : ZGot) : (g.pointers h).wdog = h.wdog := ZGot.pointers_keep h g (·.wdog) fun _ _ _ _ _ => CoreHw.store_wdog ..

@[simp] theorem ZGot.commit_run (g : ZGot) (m v : Nat) : (g.commit h m v).run = h.run := by unfold ZGot.commit; split <;> simp

@[simp] theorem ZGot.commit_pc (g : ZGot) (m v : Nat) : (g.commit h m v).pc = h.pc := by unfold ZGot.commit; split <;> simp

@[simp] theorem ZGot.commit_idx (g : ZGot) (m v : Nat) : (g.commit h m v).idx = h.idx := by unfold ZGot.commit; split <;> simp

@[simp] theorem ZGot.commit_flg (g : ZGot) (m v : Nat) : (g.commit h m v).flg = h.flg := by unfold ZGot.commit; split <;> simp

@[simp] theorem ZGot.commit_slots (g : ZGot) (m v : Nat) : (g.commit h m v).slots = h.slots := by unfold ZGot.commit; split <;> simp

@[simp] theorem ZGot.commit_target (g : ZGot) (m v : Nat) : (g.commit h m v).target = h.target := by unfold ZGot.commit; split <;> simp

@[simp] theorem ZGot.commit_rpt (g : ZGot) (m v : Nat) : (g.commit h m v).rpt = h.rpt := by unfold ZGot.commit; split <;> simp

@[simp] theorem ZGot.commit_posted (g : ZGot) (m v : Nat) : (g.commit h m v).posted = h.posted := by unfold ZGot.commit; split <;> simp

@[simp] theorem ZGot.commit_xfers (g : ZGot) (m v : Nat) : (g.commit h m v).xfers = h.xfers := by unfold ZGot.commit; split <;> simp

@[simp] theorem ZGot.commit_wdog (g : ZGot) (m v : Nat) : (g.commit h m v).wdog = h.wdog := by unfold ZGot.commit; split <;> simp

/-- An octet that a write to come does not reach is read as before it. -/
theorem CoreHw.octet_store (b : Bool) (n a v : Nat) (s : Sight) (x : Nat) (hx : ¬(a ≤ x ∧ x < a + n)) (hf : ¬(Page.flg ≤ x ∧ x < Page.flg + 4)) :
    (h.store b n a v).octet s x = h.octet s x := by
  have hl : ∀ (m k : Nat), (leOctets m k).length = m := by
    intro m
    induction m with
    | zero => intro _; rfl
    | succ m ih => intro k; simp [leOctets, ih]
  unfold CoreHw.octet
  rw [if_neg hf, if_neg hf]
  have hb : (h.store b n a v).base x = h.base x := by simp [CoreHw.base]
  unfold CoreHw.store at hb ⊢
  split
  · rfl
  · split
    · rfl
    · rename_i h1 h2
      rw [if_neg h1, if_neg h2] at hb
      rw [List.foldl_append]
      simp only [List.foldl_cons, List.foldl_nil, hl]
      have : (decide (a ≤ x ∧ x < a + n)) = false := decide_eq_false hx
      simp only [this, Bool.and_false, Bool.false_eq_true, if_false]
      rw [hb]

end Sys2Proof.Machine
end

