-- ==== Sys2Proof/WellFormed.lean ====
section
/-! DEFINITION. Which commands are well formed: what the operands of a command may hold beyond their types, that is, what the part's
registers, frames, messages and instruction words can spell. -/

namespace Sys2Proof

/-- A power in LW as LQ_ARG holds it (Table 3.1). -/
def wfWatts (w : Nat) : Bool := decide (w < 65536)

/-- A ledger frame of 64 octets (Table 3.4), 56 and the 8 of its tag, under an identifier of 11 bits (R98). -/
def wfFrame (f : LedgerFrame) : Bool :=
  decide (f.id < 2048) && decide (f.raw.length = 56) && decide (f.tag.length = 8) && (f.raw ++ f.tag).all fun x => decide (x < 256)

/-- A trigger code of Table 3.3. -/
def wfTrigger (t : Nat) : Bool := decide (t < 16)

/-- A word of 32 bits. -/
def wfWord (v : Nat) : Bool := decide (v < 4294967296)

/-- The objects of Source_Capabilities: one to eleven words. -/
def wfObjects (l : List Nat) : Bool := decide (1 ≤ l.length ∧ l.length ≤ 11) && l.all wfWord

/-- The factors of a calibration: five offsets, five gains, twelve stage trims (R188). -/
def wfFactors (f : CalFactors) : Bool := decide (f.offset.length = 5) && decide (f.gain.length = 5) && decide (f.trim.length = 12)

/-- A chunk of an image: 1,024 octets at an offset in the first 4 MiB (R413). -/
def wfChunk (off : Nat) (l : List Byte) : Bool := decide (off + 1024 ≤ 4194304) && decide (l.length = 1024)

/-- A SHA-256 hash: 32 octets. -/
def wfHash (l : List Nat) : Bool := decide (l.length = 32) && l.all fun x => decide (x < 256)

/-- What a wall device can state (R268): up to 8 GiB in whole erase blocks of whole leaves. -/
def wfWall (w : WallFound) : Bool :=
  decide (0 < w.size ∧ w.size ≤ 0x200000000 ∧ 0 < w.page ∧ 0 < w.erase ∧ w.erase % 4096 = 0 ∧ w.size % w.erase = 0)

/-- The data field of a CAN FD frame: at most 64 octets (R375, R376). -/
def wfSegment (l : List Byte) : Bool := decide (l.length ≤ 64)

/-- A request: only the host transports carry sealed frames (R356). -/
def wfHead (r : ReqHead) : Bool := !r.secure || decide (18 ≤ r.src.val)

/-- The items of a READ or WRITE: each value fits a frame. -/
def wfItems (l : List OdItem) : Bool := l.all fun i => decide (i.val.length ≤ 2048)

/-- The short form of an instruction: nibbles, and no field that it does not have. -/
def wfShort (z : ZIns) : Bool :=
  decide (z.d.toNat < 16) && decide (z.s1.toNat < 16) && decide (z.s2 = 0) && decide (z.sub = 0) && decide (z.size = 2) &&
    decide (z.off = 0)

/-- An instruction other than B and CALL: no offset. -/
def wfIns (z : ZIns) : Bool := if z.short then wfShort z else decide (z.off = 0)

/-- B and CALL: in the long form the offset stands in place of D, S1, S2 and SUB (R312). -/
def wfRel (z : ZIns) : Bool :=
  if z.short then wfShort z else decide (z.d = 0) && decide (z.s1 = 0) && decide (z.s2 = 0) && decide (z.sub = 0)

/-- An interrupt that stops a repeat leaves at least one iteration done. -/
def wfLim (l : Option Nat) : Bool := l.all fun n => decide (1 ≤ n)

/-- A well-formed command. -/
def Instr.wf : Instr → Bool
  | .lathBlockFail _ _ _ => true
  | .lathLockLoss _ => true
  | .linkHoldExpiry _ => true
  | .lathLinkUp _ => true
  | .dpTripBlock _ _ => true
  | .refclkMeasure _ => true
  | .refclkLoss => true
  | .holdoverExpiry => true
  | .refclkReturn => true
  | .aonCrystalStop => true
  | .hodWord _ _ _ _ => true
  | .tqWrite => true
  | .powerSample _ => true
  | .ccTerminationChange _ _ _ => true
  | .ccDebounceExpiry _ => true
  | .detachConfirmed _ => true
  | .drpToggle _ => true
  | .tryTimerExpiry _ => true
  | .errorRecoveryEnd _ => true
  | .portReset _ => true
  | .vconnLimitExpiry _ => true
  | .rxRequest _ _ _ _ pos v i pdo => decide (1 ≤ pos ∧ pos < 16) && decide (v < 65536) && decide (i < 65536) && wfWord pdo
  | .rxEprModeEnter _ _ _ pdp => decide (pdp < 256)
  | .rxEprModeExit _ _ _ => true
  | .rxEprKeepalive _ _ _ => true
  | .rxPrSwap _ _ _ => true
  | .rxDrSwap _ _ _ => true
  | .rxVconnSwap _ _ _ => true
  | .rxHardReset _ => true
  | .rxSoftReset _ _ _ => true
  | .rxDiscoverIdentity _ _ _ => true
  | .rxAbsentFunction _ _ _ _ => true
  | .rxUnsupported _ _ _ _ => true
  | .rxUnexpected _ _ _ _ => true
  | .rxSinkCapabilities _ _ _ frs => decide (frs ≤ 300)
  | .rxSecurityResponse _ _ _ _ => true
  | .pdGoodcrcRx _ _ => true
  | .pdRetryTimeout _ => true
  | .senderResponseExpiry _ => true
  | .sourceCapRepeat _ => true
  | .cableDiscovery _ => true
  | .cableDiscoveryRetry _ => true
  | .transitionStart _ => true
  | .vsetSlewEnd _ => true
  | .transDone _ => true
  | .psRdySend _ => true
  | .transitionTimeout _ => true
  | .ppsTimeout _ => true
  | .eprKeepaliveTimeout _ => true
  | .frSwapSignal _ => true
  | .frsGateOn _ => true
  | .frsFail _ => true
  | .authVerifyDone _ _ root => wfHash root
  | .psHardResetExpiry _ => true
  | .srcRecoverExpiry _ => true
  | .hardResetComplete _ => true
  | .sinkTxWaitEnd _ => true
  | .bistCarrierEnd _ => true
  | .portCmdHardReset _ => true
  | .portCmdSoftReset _ => true
  | .portCmdReadvertise _ => true
  | .portCmdPrSwap _ => true
  | .portCmdDrSwap _ => true
  | .portCmdVconnSwap _ => true
  | .portCmdErrorRecovery _ => true
  | .portCmdClearCounters _ => true
  | .portCmdDisable _ => true
  | .portCmdEnable _ => true
  | .portCmdAuthenticate _ => true
  | .lqAdmit _ w => wfWatts w
  | .lqReserve _ w => wfWatts w
  | .lqRelease _ => true
  | .lqLower _ w => wfWatts w
  | .waitReadvertise _ => true
  | .stripRecompute => true
  | .slotArmed _ _ => true
  | .feedLossTerm _ _ => true
  | .tileSliceApply _ t => wfTrigger t
  | .ledgerShedApply t => wfTrigger t
  | .peerShedIn => true
  | .shedNRelease => true
  | .shedNStuck => true
  | .derateSample => true
  | .shelfTempExpiry => true
  | .secondStage => true
  | .shedReadvertise _ => true
  | .restoreStart => true
  | .restoreStep => true
  | .ledgerCmdRecompute => true
  | .ledgerCmdForgetPeer => true
  | .ledgerCmdClearFlags => true
  | .ledgerCmdAbortRestore => true
  | .ledgerCmdResumeRestore => true
  | .shedCmdApply _ => true
  | .shedCmdRelease _ => true
  | .ledgerFrameRx f => wfFrame f
  | .ledgerFrameTx => true
  | .reconRoundOpen => true
  | .reconSlotExpiry node => decide (node < 256)
  | .openerSilent => true
  | .reconRoundEnd => true
  | .overcommitLowering => true
  | .restoreTurnTimeout => true
  | .ppCtrlEn _ => true
  | .ppCtrlSink _ => true
  | .ppArm _ => true
  | .ppFrsArm _ => true
  | .vsetTrimStep _ => true
  | .rampGateRise _ => true
  | .rampTimeout _ => true
  | .pgQualComplete _ _ => true
  | .pgDeglitchDrop _ => true
  | .faultTimerExpiry _ => true
  | .faultTimerIdle _ => true
  | .soaUpdate _ _ => true
  | .thermalUpdate _ _ => true
  | .ntcRead _ x => decide (x < 65536)
  | .ntcStartWindowEnd _ => true
  | .pathREstimate _ _ => true
  | .dpBlind _ => true
  | .faultProtocolReset _ => true
  | .tileResult _ _ _ => true
  | .dschMaxExpiry _ => true
  | .fetStuck _ => true
  | .retryDelayExpiry _ => true
  | .retryResetExpiry _ => true
  | .ppCmdClearLockout _ => true
  | .ppCmdClearFaultSet _ => true
  | .ppCmdForceOff _ => true
  | .ppCmdReleaseForceOff _ => true
  | .seatChange _ _ _ => true
  | .feedStart _ _ => true
  | .feedRampTimeout _ => true
  | .feedPgQualComplete _ => true
  | .feedPgDrop _ => true
  | .feedFaultTimerExpiry _ => true
  | .feedFaultTimerIdle _ => true
  | .feedSoaUpdate _ _ _ _ => true
  | .feedUvWarn _ _ => true
  | .feedStageOff _ => true
  | .feedCmdClear _ => true
  | .feedCmdOff _ => true
  | .feedCmdOn _ => true
  | .comparatorCrossing _ _ => true
  | .latchPeriodBoundary _ => true
  | .cmpCmdClearLatch _ => true
  | .cmpCmdSelfchk _ => true
  | .cmpSelfchkGo _ _ _ => true
  | .selfCheckEnd _ _ _ => true
  | .comparatorSettleEnd _ _ => true
  | .cvCmdCal => true
  | .cvCmdStart => true
  | .cvCmdStop => true
  | .cvCmdSave => true
  | .cvCmdLoad => true
  | .cvCmdClearCounters => true
  | .calStart _ => true
  | .calEnd _ f => wfFactors f
  | .passTrigger src => decide (src < 256)
  | .passStart _ => true
  | .passEnd _ => true
  | .injReqGo _ _ => true
  | .injTrigger _ _ => true
  | .refSettled _ => true
  | .refMonitorSample _ => true
  | .refAgeSave => true
  | .refRebase => true
  | .plausTimeoutExpiry _ => true
  | .tqPop _ => true
  | .windowBoundary _ => true
  | .skimCmdNow => true
  | .skimCmdAt => true
  | .skimCmdCancel => true
  | .skimInstant => true
  | .skimBankComplete => true
  | .metCmdClearAcc => true
  | .metCmdClearFlags => true
  | .metCmdRecordNow => true
  | .intervalCut => true
  | .recordSigned _ => true
  | .recordSignFail _ => true
  | .seqCmdUp => true
  | .seqCmdDown => true
  | .seqCmdClearFault => true
  | .seqCmdRestart => true
  | .phaseStart => true
  | .railStartDelayExpiry _ => true
  | .riseTimeout _ => true
  | .railPgQualComplete _ _ => true
  | .railFaultTimerExpiry _ => true
  | .railFaultTimerIdle _ => true
  | .railStopDelayExpiry _ => true
  | .phaseDownComplete => true
  | .fallTimeout => true
  | .autoRestartExpiry => true
  | .restartCountReload => true
  | .seqAutoStart => true
  | .pwrgdQualComplete _ => true
  | .mgnModeWrite _ _ => true
  | .mgnStep _ => true
  | .mgnDacStep _ => true
  | .mgnTimeout _ => true
  | .ffLogWritten => true
  | .ffCmdClear => true
  | .recorderSample => true
  | .flushStart => true
  | .flushPeriodExpiry => true
  | .flushPendingStart => true
  | .imageFreezeDone => true
  | .leafWritten _ => true
  | .flushComplete => true
  | .wallEraseDone _ _ => true
  | .journalAppend => true
  | .journalLeafWrite _ => true
  | .powerFailDeclared => true
  | .powerFailRearm => true
  | .opSecondsTick => true
  | .opSecondsSave => true
  | .recCmdFlush => true
  | .recClearImage => true
  | .recClearWallErase => true
  | .zMov _ z => wfIns z
  | .zAdd _ z => wfIns z
  | .zAdc _ z => wfIns z
  | .zSub _ z => wfIns z
  | .zSbc _ z => wfIns z
  | .zAnd _ z => wfIns z
  | .zAndn _ z => wfIns z
  | .zOr _ z => wfIns z
  | .zXor _ z => wfIns z
  | .zNot _ z => wfIns z
  | .zNeg _ z => wfIns z
  | .zShl _ z => wfIns z
  | .zShr _ z => wfIns z
  | .zSar _ z => wfIns z
  | .zRor _ z => wfIns z
  | .zMul _ z => wfIns z
  | .zMulhu _ z => wfIns z
  | .zMulhs _ z => wfIns z
  | .zDivu _ z => wfIns z
  | .zDivs _ z => wfIns z
  | .zRemu _ z => wfIns z
  | .zRems _ z => wfIns z
  | .zCmp _ z => wfIns z
  | .zTst _ z => wfIns z
  | .zExtz _ z => wfIns z
  | .zExts _ z => wfIns z
  | .zSwab _ z => wfIns z
  | .zBrev _ z => wfIns z
  | .zPar _ z => wfIns z
  | .zCrc _ z => wfIns z
  | .zIn _ z => wfIns z
  | .zOut _ z => wfIns z
  | .zIrd _ z => wfIns z
  | .zIwr _ z => wfIns z
  | .zMovs _ z lim => wfIns z && wfLim lim
  | .zFils _ z lim => wfIns z && wfLim lim
  | .zCmps _ z lim => wfIns z && wfLim lim
  | .zScns _ z lim => wfIns z && wfLim lim
  | .zCrcs _ z lim => wfIns z && wfLim lim
  | .zPars _ z lim => wfIns z && wfLim lim
  | .zB _ z => wfRel z
  | .zBr _ z => wfIns z
  | .zCall _ z => wfRel z
  | .zCallr _ z => wfIns z
  | .zRet _ z => wfIns z
  | .zRete _ z => wfIns z
  | .zRpt _ z => wfIns z
  | .zPull _ z => wfIns z
  | .zPush _ z => wfIns z
  | .zCrcset _ z => wfIns z
  | .zPset _ z => wfIns z
  | .zWait _ z => wfIns z
  | .zNop _ z => wfIns z
  | .zAddi _ z => wfIns z
  | .zSubi _ z => wfIns z
  | .zMovi _ z => wfIns z
  | .zCmpi _ z => wfIns z
  | .zShli _ z => wfIns z
  | .zShri _ z => wfIns z
  | .interruptEntry _ => true
  | .xfComplete _ _ => true
  | .wdKick _ _ => true
  | .wdFirstExpiry _ => true
  | .wdSecondExpiry _ => true
  | .ckptLateExpiry _ => true
  | .engCtrlFail _ => true
  | .engCmdFailEngine => true
  | .ckCommit _ _ => true
  | .adoptDoneWrite => true
  | .adoptTimeout => true
  | .barrierOpen set => decide set.Nodup
  | .barArrive _ => true
  | .barrierRelease => true
  | .mbTxWrite _ _ => true
  | .mbRxRead _ => true
  | .mbAbort _ => true
  | .kcmdRead _ => true
  | .lockstepMismatch => true
  | .keeperWdExpiry => true
  | .kwdKick _ => true
  | .tbLoRead _ => true
  | .ppsInEdge _ _ => true
  | .syncInEdge _ _ => true
  | .tbDiscNoEdge => true
  | .tbStepWrite n => decide (n < 18446744073709551616)
  | .tbStepApply => true
  | .tbcHiWrite _ _ _ => true
  | .tbcFire _ => true
  | .counterWrap _ => true
  | .ctCompareMatch _ _ => true
  | .ctCapture _ => true
  | .ctValChainRead _ _ => true
  | .ctCapRead _ _ => true
  | .tgCmdStart _ => true
  | .tgCmdStop _ => true
  | .tgStartEdge _ => true
  | .tgEvent _ => true
  | .tgPeriodWrite _ _ _ => true
  | .aonCatchupTick => true
  | .dfRead r items => wfHead r && wfItems items
  | .dfWrite r items => wfHead r && wfItems items
  | .dfWriteBroadcast r items => wfHead r && wfItems items
  | .dfStore r => wfHead r
  | .storeComplete _ => true
  | .dfBulkRead r _ _ _ _ => wfHead r
  | .dfCursor r _ => wfHead r
  | .dfSkim r _ => wfHead r
  | .sessionOpen r _ pub nonce => wfHead r && decide (pub.length = 97) && decide (nonce.length = 32)
  | .sessionConfirm r plain => wfHead r && decide (plain.length = 196)
  | .sessionClose r => wfHead r
  | .sessionIdleExpiry _ => true
  | .dfToken r token => wfHead r && decide (token.length ≤ 2048)
  | .applyStrobe => true
  | .restoreDefaults => true
  | .resetRequest => true
  | .canSegmentRx _ _ _ _ octets => wfSegment octets
  | .canSegmentTimeout _ => true
  | .canNode0Skim _ _ => true
  | .canBusOff _ => true
  | .canBusOffRecovery _ => true
  | .twTargetWrite _ _ => true
  | .twTargetRead _ _ => true
  | .twDfTimeout _ => true
  | .alertAck _ => true
  | .twCtlGo _ => true
  | .twCtlAbort _ => true
  | .twBusFree _ _ => true
  | .twBusBusyTimeout _ => true
  | .twCtlComplete _ _ => true
  | .twArbLost _ _ _ _ => true
  | .twCondLost _ _ => true
  | .twTargetStartAtAck _ => true
  | .twCtlStartAtAck _ _ => true
  | .twStretchTimeout _ _ => true
  | .twSclLowTimeout _ _ => true
  | .twSdaLowTimeout _ _ _ => true
  | .twCmdClearFlags _ => true
  | .twCmdClearCounters _ => true
  | .deviceBoot _ cs0 cs1 _ => cs0.all wfWall && cs1.all wfWall
  | .secCmdAdvanceFloors _ => true
  | .secCmdRotateImageKey _ => true
  | .secCmdRevokeTokens _ => true
  | .secCmdDropToken => true
  | .cntAdvance k _ => decide (5 ≤ k ∧ k ≤ 31)
  | .tokenExpiry => true
  | .imgCmdErase => true
  | .imgEraseDone => true
  | .imgChunk off octets => wfChunk off octets
  | .imgCmdVerify => true
  | .jtagTapInstruction _ => true
  | .debugHalt _ => true
  | .otpCmdRead _ => true
  | .otpCmdProgram _ _ _ => true
  | .otpCmdRepair _ _ => true
  | .otpCmdFinalise _ _ _ => true
  | .otpCmdAdvance _ _ _ => true
  | .otpPumpStop => true
  | .lockAppSet _ => true
  | .psCmdEnter => true
  | .psEntryComplete => true
  | .psCmdExit => true
  | .wakeEvent _ => true
  | .psExitComplete => true
  | .por => true
  | .bor => true
  | .pinReset => true
  | .softReset => true
  | .degCmdClearSafe => true
  | .degCmdReturnEngine => true
  | .handbackReport => true
  | .handbackTimeout => true
  | .degCmdResetTile => true
  | .tileTrstWrite _ => true
  | .vddFeUndervoltage _ => true
  | .vconnUndervoltage _ => true
  | .vconnRecovery _ => true
  | .registerWrite _ _ _ => true
  | .shedNHigh => true
  | .turnOffComplete _ _ => true
  | .debugResume _ _ => true
  | .otpCommandEnd _ => true
  | .rxSourceCapabilities _ _ _ pdos => wfObjects pdos
  | .rxAccept _ _ _ => true
  | .rxReject _ _ _ => true
  | .rxWait _ _ _ => true
  | .rxPsRdy _ _ _ => true
  | .rxGetSourceCap _ _ _ => true
  | .rxGetSinkCap _ _ _ => true
  | .rxGetStatus _ _ _ => true
  | .rxGetPpsStatus _ _ _ => true
  | .rxGetRevision _ _ _ => true
  | .rxGetManufacturerInfo _ _ _ => true
  | .rxGetSourceInfo _ _ _ => true
  | .rxGetSourceCapExtended _ _ _ => true
  | .rxFrSwap _ _ _ => true
  | .rxBist _ _ _ _ => true
  | .rxCableIdentity _ c => wfWord c.vdo

end Sys2Proof
end

