-- ==== Sys2Proof/Tests/Slice0.lean ====
section
/-! SUPPORT. The model's own tests: what well-formedness refuses, the manual's worked figures, and for every statement with hypotheses a
state that meets them. -/

namespace Sys2Proof.Tests
open Sys2Proof.Machine
set_option Elab.async false
set_option linter.unusedVariables false

/-- A device that runs: sealed by nobody, its engines released. -/
def live : State :=
  { State.reset.wr K.lifecycle 1 with sec := { State.reset.sec with stat := 7 } }

/-- The same with the engine of port `p` running and its link up. -/
def engOn (p : Port) : State := (live.wr (K.engState + blockOf p) 1).wr (K.lathState + (tileOf p).val) 0

/-- Port `p` attached as source to a Revision 3 partner. -/
def srcPort (p : Port) : State := (((engOn p).wP p Kp.attachState Att.src).wP p Kp.powerRole 1).wP p Kp.pdRev 3

/-- That port under an explicit 5 V, 3 A contract. -/
def conPort (p : Port) : State :=
  ((((srcPort p).wP p Kp.contract Ctr.spr).wP p Kp.contractPos 1).wP p Kp.contractV 500).wP p Kp.contractI 300

/-- Port `p` attached as sink to a Revision 3 partner. -/
def snkPort (p : Port) : State := (((engOn p).wP p Kp.attachState Att.snk).wP p Kp.powerRole 2).wP p Kp.pdRev 3
/-- Engine 0 running with octets `m` in local data SRAM. -/
def coreAt (m : SMap Nat) : State := (engOn 0).setCore 0 { CoreHw.reset with run := .running, dmem := m }

/-- A long instruction. -/
def zl (size : Fin 4) (d s1 s2 : BitVec 6) (sub : Fin 4) : ZIns :=
  { short := false, cond := 0, size := size, d := d, s1 := s1, s2 := s2, sub := sub, off := 0, ecc := .clean }

/-- A short instruction. -/
def zs (d s1 : BitVec 6) : ZIns := { short := true, cond := 0, size := 2, d := d, s1 := s1, s2 := 0, sub := 0, off := 0, ecc := .clean }

/-- Operands read without an update. -/
def got (a b : Nat) (dst : Option Nat) : ZGot := { a := a, b := b, e := 0, dst := dst, acc := { upd := [], ptr := [], loc := true } }
/-- A request of requester `q`. -/
def head (q : Requester) : ReqHead := { src := q, seq := 7, secure := false }

/-- An item of a READ. -/
def item (idx : BitVec 16) (sub : BitVec 8) (val : List Byte) : OdItem := { idx := idx, sub := sub, val := val }

/-- CANA up. -/
def canOn : State := live.wr K.canState 1
/-- A controller transaction of two octets to target 16. -/
def job (onBus : Bool) : TwJob := { target := 16, wdata := [1, 2], rlen := 1, retries := 1, onBus := onBus, aborting := false }

/-- Bus 0 with that transaction. -/
def twOn (j : TwJob) : State := live.setTw 0 { TwHw.reset with busy := j.onBus, ctl := some j }
/-- A power state of `live`. -/
def psOf (ph : PsPhase) (n : Nat) : State := { live with power := { live.power with phase := ph, target := n } }



/-! Well-formedness: one ill-formed command for each check. -/

theorem test_wf_refuses_power_too_wide : (Instr.lqAdmit 0 65536).wf = false := by decide +kernel
theorem test_wf_refuses_trigger_code : (Instr.ledgerShedApply 16).wf = false := by decide +kernel
theorem test_wf_refuses_request_position : (Instr.rxRequest 0 0 true false 16 0 0 0).wf = false := by decide +kernel
theorem test_wf_refuses_request_voltage : (Instr.rxRequest 0 0 true false 1 65536 0 0).wf = false := by decide +kernel
theorem test_wf_refuses_request_current : (Instr.rxRequest 0 0 true false 1 0 65536 0).wf = false := by decide +kernel
theorem test_wf_refuses_request_object : (Instr.rxRequest 0 0 true true 1 0 0 4294967296).wf = false := by decide +kernel
theorem test_wf_refuses_sink_pdp : (Instr.rxEprModeEnter 0 0 true 256).wf = false := by decide +kernel
theorem test_wf_refuses_frs_current : (Instr.rxSinkCapabilities 0 0 true 301).wf = false := by decide +kernel
theorem test_wf_refuses_ledger_frame_length : (Instr.ledgerFrameRx { bus := 0, id := 0x600, raw := [], tag := List.replicate 8 0 }).wf = false := by decide +kernel
theorem test_wf_refuses_ledger_tag_length : (Instr.ledgerFrameRx { bus := 0, id := 0x600, raw := List.replicate 56 0, tag := [] }).wf = false := by decide +kernel
theorem test_wf_refuses_ledger_frame_octet : (Instr.ledgerFrameRx { bus := 0, id := 0x600, raw := List.replicate 56 256, tag := List.replicate 8 0 }).wf = false := by decide +kernel
theorem test_wf_refuses_ledger_identifier :
    (Instr.ledgerFrameRx { bus := 0, id := 2048, raw := List.replicate 56 0, tag := List.replicate 8 0 }).wf = false := by decide +kernel
theorem test_wf_refuses_root_length : (Instr.authVerifyDone 0 true []).wf = false := by decide +kernel
theorem test_wf_refuses_root_octet : (Instr.authVerifyDone 0 true (List.replicate 32 256)).wf = false := by decide +kernel
theorem test_wf_refuses_ntc_code : (Instr.ntcRead 0 65536).wf = false := by decide +kernel
theorem test_wf_refuses_empty_wall : (Instr.deviceBoot true (some { size := 0, page := 256, erase := 4096 }) none true).wf = false := by
  decide +kernel
theorem test_wf_refuses_large_wall :
    (Instr.deviceBoot true none (some { size := 0x200001000, page := 256, erase := 4096 }) true).wf = false := by decide +kernel
theorem test_wf_refuses_wall_page : (Instr.deviceBoot true (some { size := 4096, page := 0, erase := 4096 }) none true).wf = false := by
  decide +kernel
theorem test_wf_refuses_wall_erase : (Instr.deviceBoot true (some { size := 4096, page := 256, erase := 0 }) none true).wf = false := by
  decide +kernel
theorem test_wf_refuses_erase_of_part_leaf :
    (Instr.deviceBoot true (some { size := 6144, page := 256, erase := 2048 }) none true).wf = false := by decide +kernel
theorem test_wf_refuses_wall_of_part_block :
    (Instr.deviceBoot true (some { size := 12288, page := 256, erase := 8192 }) none true).wf = false := by decide +kernel
theorem test_wf_refuses_recon_node : (Instr.reconSlotExpiry 256).wf = false := by decide +kernel
theorem test_wf_refuses_cal_factors : (Instr.calEnd 0 { offset := [0], gain := List.replicate 5 0, trim := List.replicate 12 0 }).wf = false := by decide +kernel
theorem test_wf_refuses_cal_gains : (Instr.calEnd 0 { offset := List.replicate 5 0, gain := [0], trim := List.replicate 12 0 }).wf = false := by decide +kernel
theorem test_wf_refuses_cal_trims : (Instr.calEnd 0 { offset := List.replicate 5 0, gain := List.replicate 5 0, trim := [0] }).wf = false := by decide +kernel
theorem test_wf_refuses_trigger_source : (Instr.passTrigger 256).wf = false := by decide +kernel
theorem test_wf_refuses_offset_field : (Instr.zAdd 0 { zl 2 3 1 2 0 with off := 1 }).wf = false := by decide +kernel
theorem test_wf_refuses_short_nibble : (Instr.zAdd 0 (zs 16 1)).wf = false := by decide +kernel
theorem test_wf_refuses_short_source_nibble : (Instr.zAdd 0 (zs 1 16)).wf = false := by decide +kernel
theorem test_wf_refuses_short_size : (Instr.zAdd 0 { zs 1 1 with size := 0 }).wf = false := by decide +kernel
theorem test_wf_refuses_short_sub : (Instr.zAdd 0 { zs 1 1 with sub := 1 }).wf = false := by decide +kernel
theorem test_wf_refuses_short_source : (Instr.zAdd 0 { zs 1 1 with s2 := 1 }).wf = false := by decide +kernel
theorem test_wf_refuses_short_offset : (Instr.zAdd 0 { zs 1 1 with off := 1 }).wf = false := by decide +kernel
theorem test_wf_refuses_branch_fields : (Instr.zB 0 { zl 3 0 0 0 0 with s1 := 1 }).wf = false := by decide +kernel
theorem test_wf_refuses_branch_sub : (Instr.zCall 0 { zl 3 0 0 0 0 with sub := 1 }).wf = false := by decide +kernel
theorem test_wf_refuses_repeat_stop : (Instr.zMovs 0 (zl 0 0 0 0 0) (some 0)).wf = false := by decide +kernel
theorem test_wf_refuses_barrier_set : (Instr.barrierOpen [3, 3]).wf = false := by decide +kernel
theorem test_wf_refuses_tb_step : (Instr.tbStepWrite 18446744073709551616).wf = false := by decide +kernel
theorem test_wf_refuses_sealed_engine : (Instr.dfStore { head 3 with secure := true }).wf = false := by decide +kernel
theorem test_wf_refuses_item_length : (Instr.dfWrite (head 3) [item 0x2000 5 (List.replicate 2049 0)]).wf = false := by decide +kernel
theorem test_wf_refuses_session_key : (Instr.sessionOpen (head 18) 2 [] (List.replicate 32 0)).wf = false := by decide +kernel
theorem test_wf_refuses_session_nonce : (Instr.sessionOpen (head 18) 2 (List.replicate 97 0) []).wf = false := by decide +kernel
theorem test_wf_refuses_session_confirm : (Instr.sessionConfirm (head 18) []).wf = false := by decide +kernel
theorem test_wf_refuses_token_length : (Instr.dfToken (head 18) (List.replicate 2049 0)).wf = false := by decide +kernel
theorem test_wf_refuses_segment_length : (Instr.canSegmentRx 0 [] .fd 0 (List.replicate 65 0)).wf = false := by decide +kernel
theorem test_wf_refuses_reserved_counter : (Instr.cntAdvance 4 true).wf = false := by decide +kernel
theorem test_wf_refuses_high_counter : (Instr.cntAdvance 32 true).wf = false := by decide +kernel
theorem test_wf_refuses_chunk_length : (Instr.imgChunk 0 []).wf = false := by decide +kernel
theorem test_wf_refuses_chunk_offset : (Instr.imgChunk 4194304 (List.replicate 1024 0)).wf = false := by decide +kernel
theorem test_wf_refuses_no_objects : (Instr.rxSourceCapabilities 0 0 true []).wf = false := by decide +kernel
theorem test_wf_refuses_twelve_objects : (Instr.rxSourceCapabilities 0 0 true (List.replicate 12 0)).wf = false := by decide +kernel
theorem test_wf_refuses_wide_object : (Instr.rxSourceCapabilities 0 0 true [4294967296]).wf = false := by decide +kernel
theorem test_wf_refuses_wide_cable_object : (Instr.rxCableIdentity 0 { vdo := 4294967296, current := 0, voltage := 0, eprCapable := false }).wf = false := by decide +kernel

/-! Figures of the manual. -/

/-- Example of R151, item 1: SHORT_TH 10 A over 5 mΩ gives code 800. -/
theorem test_short_code : live.codeI 30 200 = 800 := by decide +kernel

/-- Example of R151, item 2: 6.5 A gives code 520. -/
theorem test_limit_code : live.codeI 30 130 = 520 := by decide +kernel

/-- Example of R151, item 3: the PG threshold of 36 V, rounded up. -/
theorem test_pg_code : live.codePg 30 3600 = 2138 := by decide +kernel

/-- Example of R151, item 4: the OVP threshold of 36 V. -/
theorem test_ovp_code : live.codeOvp 30 3600 = 2475 := by decide +kernel

/-- Example numbers of R109, item 3: 48 V takes code 4,064. -/
theorem test_vset_code : live.vsetCode 30 4800 = some 4064 := by decide +kernel

/-- Example of R347: the first three ticks of catching up. -/
theorem test_catch_up : (catchUpTicks 0, catchUpTicks 97, catchUpTicks 66) = ((3051, 97), (3052, 66), (3052, 35)) := by decide

/-- The example of Table 11.10: CRCV over a message and its own CRC is 0xDEBB_20E3. -/
theorem test_crc_residue : crc32Reg ([0x42, 0x10, 1, 2, 3, 4] ++ crc32 [0x42, 0x10, 1, 2, 3, 4]) = 0xDEBB20E3 := by decide +kernel

/-- CRCSET 00 of Table 11.10 (Table 11.7): the polynomial waits in the write buffer. -/
theorem test_crcset : (stateOf (coreAt []) (execZCrcset 0 (zl 3 0 0 0 0) (coreAt [])) |>.core 0).crcWord Page.crcp = 0x04C11DB7 := by
  decide +kernel

/-- A sum that wraps: C and Z, no V (R318). -/
theorem test_add_wraps : addRes 8 0xFF 1 0 = { val := 0, mask := 15, flags := 5 } := by decide

/-- The largest positive number and one: N and V (R318). -/
theorem test_add_overflows : addRes 8 0x7F 1 0 = { val := 0x80, mask := 15, flags := 10 } := by decide

/-- A subtraction with borrow clears C (R318). -/
theorem test_sub_borrows : subRes 16 3 5 0 = { val := 0xFFFE, mask := 15, flags := 2 } := by decide

/-- The most negative value by -1 (R320). -/
theorem test_divs_overflow : divsRes 8 0x80 0xFF = { val := 0x80, mask := 11, flags := 10 } := by decide

/-- A branch target: BNE +48 at 0x0120 of Table 11.10. -/
theorem test_branch_target : relTarget { CoreHw.reset with pc := 0x120 } { zl 3 0 0 0 0 with off := 0x30 } = 0x180 := by decide +kernel

/-! For every statement with hypotheses, states and operands that meet them. -/

/-- A witness for StepRunsFront. -/
theorem witness_StepRunsFront : State.reset.pending = [] := rfl

/-- A witness for QueueKept. -/
theorem witness_QueueKept : ∃ (c : Instr) (s t : State), exec c s = .next t := ⟨.refclkLoss, State.reset, _, rfl⟩

/-- A witness for StoresStayCanonical. -/
theorem witness_StoresStayCanonical : State.reset.canonical = true := by decide +kernel

/-- A witness for RequestFrames. -/
theorem witness_RequestFrames : ∃ q : Req, q.encodable = true ∧ q.body.length = 12 := ⟨.bulk 0x100001 5 6, by decide⟩

/-- A witness for FaultPin. -/
theorem witness_FaultPin : ∃ (s t : State), exec .refclkLoss s = .next t ∧ ∃ p : Port, (t.path p).lockout = true := ⟨State.reset.setPath 3 { State.reset.path 3 with lockout := true }, _, rfl, 3, by decide +kernel⟩

/-- A witness for PwrgdPin. -/
theorem witness_PwrgdPin : ∃ (s t : State), exec .refclkLoss s = .next t ∧ t.pins.pwrgd = true := ⟨State.reset.wr K.pwrgdState 1, _, rfl, by decide +kernel⟩

/-- Witnesses for AttachSteps. -/
theorem witness_AttachSteps_0 :
    (∃ (p : Port) (a : Term) (b : Term) (s : State), (s.port p).ccOpen = true) ∧
    (∃ (p : Port) (a : Term) (b : Term) (s : State), (s.port p).ccOpen = false ∧ s.rP p Kp.attachState = Att.unattached ∧ (s.port
      p).presentsRp = true ∧ PortHw.seesSink { s.port p with ccA := a, ccB := b } = true) ∧
    (∃ (p : Port) (a : Term) (b : Term) (s : State), (s.port p).ccOpen = false ∧ s.rP p Kp.attachState = Att.unattached ∧ (s.port
      p).presentsRp = false ∧ PortHw.seesSource { s.port p with ccA := a, ccB := b } = true) ∧
    (∃ (p : Port) (a : Term) (b : Term) (s : State), (s.port p).ccOpen = false ∧ s.rP p Kp.attachState = Att.src ∧ s.rP p Kp.orient =
      1) ∧
    (∃ (p : Port) (s : State), s.serving p = true ∧ s.power.phase = .run ∧ s.rP p Kp.attachState = Att.waitSrc ∧ (s.port p).one .rd =
      true ∧ s.rP p Kp.role = 0) ∧
    (∃ (p : Port) (s : State), s.serving p = true ∧ s.power.phase = .run ∧ s.rP p Kp.attachState = Att.waitSrc ∧ (s.port p).both .rd =
      true ∧ s.rP p Kp.debugVbus = 0) :=
  ⟨⟨9, .rd, .opn, (live.setPort 9 { live.port 9 with ccOpen := true }), by decide +kernel⟩,
    ⟨9, .rd, .opn, (live.setPort 9 { live.port 9 with ccOpen := false, presentsRp := true }), by decide +kernel⟩,
    ⟨9, .opn, .rp, (live.setPort 9 { live.port 9 with ccOpen := false, presentsRp := false }), by decide +kernel⟩,
    ⟨9, .opn, .opn, ((srcPort 9).wP 9 Kp.orient 1 |>.setPort 9 { live.port 9 with ccOpen := false }), by decide +kernel⟩,
    ⟨9, (((engOn 9).wP 9 Kp.attachState Att.waitSrc).setPort 9 { live.port 9 with ccA := .ra, ccB := .rd }), by decide +kernel⟩,
    ⟨9, ((((engOn 9).wP 9 Kp.attachState Att.waitSrc).wP 9 Kp.debugVbus 0).setPort 9 { live.port 9 with ccA := .rd, ccB := .rd }), by decide +kernel⟩⟩

/-- Witnesses for AttachSteps. -/
theorem witness_AttachSteps_1 :
    (∃ (p : Port) (s : State), s.serving p = true ∧ s.power.phase = .run ∧ s.rP p Kp.attachState = Att.waitSnk ∧ (s.port p).one .rp =
      true ∧ s.rP p Kp.role = 1) ∧
    (∃ (p : Port) (s : State), s.rP p Kp.attachState = Att.trySrc ∧ (s.port p).one .rd = false) ∧
    (∃ (p : Port) (s : State), s.rP p Kp.attachState = Att.trySnk ∧ (s.port p).one .rp = false) ∧
    (∃ (p : Port) (s : State), s.rP p Kp.role = 2 ∧ s.rP p Kp.attachState = Att.unattached ∧ (s.port p).ccOpen = false) ∧
    (∃ (p : Port) (s : State), s.rP p Kp.role ≠ 2) ∧
    (∃ (p : Port) (s : State), (s.port p).detaching = true ∧ s.rP p Kp.role = 0) :=
  ⟨⟨9, ((((engOn 9).wP 9 Kp.attachState Att.waitSnk).wP 9 Kp.role 1).setPort 9 { live.port 9 with ccA := .rp, ccB := .opn }), by decide +kernel⟩,
    ⟨9, (live.wP 9 Kp.attachState Att.trySrc), by decide +kernel⟩,
    ⟨9, (live.wP 9 Kp.attachState Att.trySnk), by decide +kernel⟩,
    ⟨9, ((live.wP 9 Kp.role 2).setPort 9 { live.port 9 with ccOpen := false }), by decide +kernel⟩,
    ⟨9, live, by decide +kernel⟩,
    ⟨9, ((conPort 9).setPort 9 { live.port 9 with detaching := true }), by decide +kernel⟩⟩

/-- Witnesses for AttachSteps. -/
theorem witness_AttachSteps_2 :
    (∃ (p : Port) (s : State), (s.port p).detaching = false) ∧
    (∃ (p : Port) (s : State), (s.path p).safe = false ∧ s.held p = false) ∧
    (∃ (p : Port) (s : State), (s.path p).safe = true ∧ s.held p = false) ∧
    (∃ (p : Port) (s : State), s.held p = true) ∧
    (∃ (p : Port) (s : State), s.rP p Kp.attachState = Att.errorRecovery ∧ (s.path p).cut = false ∧ (s.path p).lockout = false ∧ s.rP p
      Kp.ledgerState ≠ 4 ∧ (s.port p).toDisable = false ∧ s.rP p Kp.role ≠ 3 ∧ (s.tile (tileOf p)).feOk = true ∧ s.sec.stat = 7) ∧
    (∃ (p : Port) (s : State), s.rP p Kp.attachState = Att.errorRecovery ∧ (s.path p).cut = false ∧ (s.path p).lockout = false ∧ s.rP p
      Kp.ledgerState ≠ 4 ∧ (s.port p).toDisable = false ∧ (s.tile (tileOf p)).feOk = false) :=
  ⟨⟨9, live, by decide +kernel⟩,
    ⟨9, (conPort 9), by decide +kernel⟩,
    ⟨9, (live.setPath 9 { live.path 9 with safe := true }), by decide +kernel⟩,
    ⟨9, (live.wr (K.lathState + 1) 2), by decide +kernel⟩,
    ⟨9, (live.wP 9 Kp.attachState Att.errorRecovery), by decide +kernel⟩,
    ⟨9, ((live.wP 9 Kp.attachState Att.errorRecovery).setTile (tileOf 9) { live.tile 1 with feOk := false }), by decide +kernel⟩⟩

/-- Witnesses for AttachSteps. -/
theorem witness_AttachSteps_3 :
    (∃ (p : Port) (s : State), s.rP p Kp.attachState = Att.errorRecovery ∧ (s.path p).lockout = true) ∧
    (∃ (p : Port) (s : State), s.vconnSource p = true ∧ (s.port p).swap = none ∧ ((s.port p).eprEntering = false ∨ (s.port
      p).cableTries = 0)) ∧
    (∃ (p : Port) (s : State), s.vconnSource p = true ∧ (s.port p).swap = none ∧ (s.port p).eprEntering = true ∧ (s.port p).cableTries
      ≠ 0 ∧ (s.port p).hardReset ≠ .signalling) ∧
    (∃ (p : Port) (s : State), s.vconnSource p = false) :=
  ⟨⟨9, ((live.wP 9 Kp.attachState Att.errorRecovery).setPath 9 { live.path 9 with lockout := true }), by decide +kernel⟩,
    ⟨9, ((srcPort 9).wP 9 Kp.vconnState 2), by decide +kernel⟩,
    ⟨9, (((srcPort 9).wP 9 Kp.vconnState 2).setPort 9 { live.port 9 with eprEntering := true, cableTries := 2 }), by decide +kernel⟩,
    ⟨9, (srcPort 9), by decide +kernel⟩⟩

/-- Witnesses for PdAnswers. -/
theorem witness_PdAnswers_0 :
    (∃ (p : Port) (id : Fin 8) (rev3 : Bool) (s : State), reads s p id ∧ s.rP p Kp.pdRev = 3) ∧
    (∃ (p : Port) (id : Fin 8) (rev3 : Bool) (s : State), s.attached p = true ∧ (s.port p).hardReset ≠ .signalling ∧ (s.port p).rxId ≠
      some id.val ∧ s.rP p Kp.pdRev = 3 ∧ s.serving p = true ∧ s.inTransition p = false ∧ ((s.port p).tx.drop 1).any TxMsg.asksSwap =
      true) ∧
    (∃ (p : Port) (id : Fin 8) (rev3 : Bool) (s : State), reads s p id ∧ s.rP p Kp.pdRev = 3) ∧
    (∃ (p : Port) (id : Fin 8) (rev3 : Bool) (s : State), reads s p id ∧ s.rP p Kp.pdRev = 3) ∧
    (∃ (p : Port) (id : Fin 8) (rev3 : Bool) (s : State), reads s p id ∧ s.rP p Kp.pdRev = 3 ∧ bit (s.rP p Kp.partnerFlags) 4 = true) ∧
    (∃ (p : Port) (id : Fin 8) (rev3 : Bool) (s : State), reads s p id ∧ bit (s.rP p Kp.partnerFlags) 4 = false ∧ s.rP p Kp.pdRev = 3) :=
  ⟨⟨9, 1, true, (srcPort 9), by decide +kernel⟩,
    ⟨9, 1, true, ((srcPort 9).setPort 9 { live.port 9 with tx := [msg .alert [], msg .prSwap []] }), by decide +kernel⟩,
    ⟨9, 1, true, (srcPort 9), by decide +kernel⟩,
    ⟨9, 1, true, (srcPort 9), by decide +kernel⟩,
    ⟨9, 1, true, ((conPort 9).wP 9 Kp.partnerFlags 16), by decide +kernel⟩,
    ⟨9, 1, true, (conPort 9), by decide +kernel⟩⟩

/-- Witnesses for PdAnswers. -/
theorem witness_PdAnswers_1 :
    (∃ (p : Port) (id : Fin 8) (rev3 : Bool) (s : State), reads s p id ∧ s.rP p Kp.pdRev = 3 ∧ s.sinkRole p = false) ∧
    (∃ (p : Port) (id : Fin 8) (rev3 : Bool) (s : State), reads s p id ∧ s.rP p Kp.pdRev = 3 ∧ s.sinkRole p = false) ∧
    (∃ (p : Port) (id : Fin 8) (rev3 : Bool) (s : State), reads s p id ∧ s.rP p Kp.pdRev = 3 ∧ s.sinkRole p = true) ∧
    (∃ (p : Port) (id : Fin 8) (rev3 : Bool) (s : State), reads s p id ∧ s.rP p Kp.pdRev = 3 ∧ s.sinkRole p = true) ∧
    (∃ (p : Port) (id : Fin 8) (rev3 : Bool) (s : State), reads s p id ∧ s.rP p Kp.usbVid = 0) ∧
    (∃ (p : Port) (id : Fin 8) (rev3 : Bool) (s : State), reads s p id ∧ s.rP p Kp.usbVid ≠ 0 ∧ s.rP p Kp.powerRole = 1) :=
  ⟨⟨9, 1, true, (srcPort 9), by decide +kernel⟩,
    ⟨9, 1, true, (srcPort 9), by decide +kernel⟩,
    ⟨9, 1, true, ((snkPort 9).wP 9 Kp.role 1), by decide +kernel⟩,
    ⟨9, 1, true, ((snkPort 9).wP 9 Kp.role 1), by decide +kernel⟩,
    ⟨9, 1, true, (srcPort 9), by decide +kernel⟩,
    ⟨9, 1, true, ((srcPort 9).wP 9 Kp.usbVid 0x1234), by decide +kernel⟩⟩

/-- Witnesses for PdAnswers. -/
theorem witness_PdAnswers_2 :
    (∃ (p : Port) (id : Fin 8) (rev3 : Bool) (a : Absent) (s : State), reads s p id ∧ a = .vdmCommand) ∧
    (∃ (p : Port) (id : Fin 8) (rev3 : Bool) (a : Absent) (s : State), reads s p id ∧ a = .bistSharedTest) ∧
    (∃ (p : Port) (id : Fin 8) (rev3 : Bool) (a : Absent) (s : State), reads s p id ∧ a = .dataReset ∧ s.rP p Kp.pdRev = 3) ∧
    (∃ (p : Port) (id : Fin 8) (rev3 : Bool) (a : Absent) (s : State), reads s p id ∧ a = .eprEnterDisabled) ∧
    (∃ (p : Port) (id : Fin 8) (rev3 : Bool) (bist : Bool) (s : State), reads s p id ∧ bist = false ∧ s.rP p Kp.pdRev = 3) ∧
    (∃ (p : Port) (id : Fin 8) (rev3 : Bool) (bist : Bool) (s : State), reads s p id ∧ bist = false ∧ s.rP p Kp.pdRev = 2) :=
  ⟨⟨9, 1, true, .vdmCommand, (srcPort 9), by decide +kernel⟩,
    ⟨9, 1, true, .bistSharedTest, (srcPort 9), by decide +kernel⟩,
    ⟨9, 1, true, .dataReset, (srcPort 9), by decide +kernel⟩,
    ⟨9, 1, true, .eprEnterDisabled, (srcPort 9), by decide +kernel⟩,
    ⟨9, 1, true, false, (srcPort 9), by decide +kernel⟩,
    ⟨9, 1, false, false, ((srcPort 9).wP 9 Kp.pdRev 2), by decide +kernel⟩⟩

/-- Witnesses for PdAnswers. -/
theorem witness_PdAnswers_3 :
    (∃ (p : Port) (id : Fin 8) (rev3 : Bool) (bist : Bool) (s : State), reads s p id ∧ bist = true) ∧
    (∃ (p : Port) (id : Fin 8) (rev3 : Bool) (s : State), reads s p id ∧ s.rP p Kp.role ≠ 1 ∧ s.odNew = [] ∧ s.capsHeld p = false ∧
      (s.port p).eprMode = false) ∧
    (∃ (p : Port) (id : Fin 8) (rev3 : Bool) (s : State), reads s p id ∧ s.rP p Kp.role ≠ 1 ∧ s.capsHeld p = true) ∧
    (∃ (p : Port) (id : Fin 8) (rev3 : Bool) (s : State), reads s p id ∧ s.rP p Kp.role = 1 ∧ s.rP p Kp.pdRev = 3) ∧
    (∃ (p : Port) (id : Fin 8) (rev3 : Bool) (s : State), reads s p id ∧ s.rP p Kp.role ≠ 0 ∧ s.odNew = []) ∧
    (∃ (p : Port) (id : Fin 8) (rev3 : Bool) (s : State), reads s p id ∧ s.rP p Kp.role = 0 ∧ s.rP p Kp.pdRev = 3) :=
  ⟨⟨9, 1, true, true, (srcPort 9), by decide +kernel⟩,
    ⟨9, 1, true, (srcPort 9), by decide +kernel⟩,
    ⟨9, 1, true, ((srcPort 9).wP 9 Kp.vconnState 2), by decide +kernel⟩,
    ⟨9, 1, true, ((snkPort 9).wP 9 Kp.role 1), by decide +kernel⟩,
    ⟨9, 1, true, ((snkPort 9).wP 9 Kp.role 1), by decide +kernel⟩,
    ⟨9, 1, true, (srcPort 9), by decide +kernel⟩⟩

/-- Witnesses for PdAnswers. -/
theorem witness_PdAnswers_4 :
    (∃ (p : Port) (id : Fin 8) (rev3 : Bool) (m : BistMode) (s : State), reads s p id ∧ m = .carrier) ∧
    (∃ (p : Port) (id : Fin 8) (rev3 : Bool) (m : BistMode) (s : State), reads s p id ∧ m = .unknown) ∧
    (∃ (p : Port) (s : State), (s.port p).bist = some .carrier) :=
  ⟨⟨9, 1, true, .carrier, (conPort 9), by decide +kernel⟩,
    ⟨9, 1, true, .unknown, (conPort 9), by decide +kernel⟩,
    ⟨9, ((conPort 9).setPort 9 { live.port 9 with bist := some .carrier }), by decide +kernel⟩⟩

/-- Witnesses for PdRequests. -/
theorem witness_PdRequests_0 :
    (∃ (p : Port) (id : Fin 8) (rev3 : Bool) (epr : Bool) (pos : Nat) (v : Nat) (i : Nat) (pdo : Nat) (s : State), reads s p id ∧ epr =
      false ∧ s.rP p Kp.powerRole = 1 ∧ pos ≠ 0 ∧ (s.port p).offer.getD (pos - 1) 0 ≠ 0 ∧ exceeds ((s.port p).offer.getD (pos - 1) 0) v
      i = false ∧ s.cableBeyond p ((s.port p).offer.getD (pos - 1) 0) i = false ∧ s.odNew = [] ∧ admitResult s p (ceilDiv ((wantedOf
      ((s.port p).offer.getD (pos - 1) 0) pos v i false).v * (wantedOf ((s.port p).offer.getD (pos - 1) 0) pos v i false).i) 1000) = 1) ∧
    (∃ (p : Port) (id : Fin 8) (rev3 : Bool) (epr : Bool) (pos : Nat) (v : Nat) (i : Nat) (pdo : Nat) (s : State), reads s p id ∧ epr =
      false ∧ s.rP p Kp.powerRole = 1 ∧ pos ≠ 0 ∧ (s.port p).offer.getD (pos - 1) 0 ≠ 0 ∧ exceeds ((s.port p).offer.getD (pos - 1) 0) v
      i = true ∧ s.cableBeyond p ((s.port p).offer.getD (pos - 1) 0) i = false) ∧
    (∃ (p : Port) (id : Fin 8) (rev3 : Bool) (epr : Bool) (pos : Nat) (v : Nat) (i : Nat) (pdo : Nat) (s : State), reads s p id ∧ epr =
      false ∧ s.rP p Kp.powerRole = 1 ∧ pos = 0) ∧
    (∃ (p : Port) (id : Fin 8) (rev3 : Bool) (pdp : Nat) (s : State), reads s p id ∧ s.rP p Kp.pdRev = 3 ∧ s.rP p Kp.eprEn = 0) ∧
    (∃ (p : Port) (id : Fin 8) (rev3 : Bool) (pdp : Nat) (s : State), reads s p id ∧ s.rP p Kp.pdRev = 3 ∧ s.rP p Kp.eprEn ≠ 0 ∧ s.rP p
      Kp.powerRole = 1 ∧ s.explicitContract p = true ∧ (s.port p).eprMode = false ∧ s.eprStands p = false ∧ s.rP p Kp.cableEpr = 1 ∧
      s.odNew = [] ∧ admitResult s p (s.eprPower p pdp) = 1) ∧
    (∃ (p : Port) (id : Fin 8) (rev3 : Bool) (s : State), reads s p id ∧ s.rP p Kp.pdRev = 3 ∧ (s.port p).eprMode = true ∧ s.odNew =
      []) :=
  ⟨⟨9, 1, true, false, 1, 500, 300, 0, (((((conPort 9).setPort 9 { live.port 9 with offer := [100 * 1024 + 300] }).wr K.budget 1000).wP 9 Kp.allot 1000)), by decide +kernel⟩,
    ⟨9, 1, true, false, 1, 500, 301, 0, (((conPort 9).setPort 9 { live.port 9 with offer := [100 * 1024 + 300] }).wP 9 Kp.cableIMax 500), by decide +kernel⟩,
    ⟨9, 1, true, false, 0, 500, 300, 0, (conPort 9), by decide +kernel⟩,
    ⟨9, 1, true, 100, ((conPort 9).wP 9 Kp.eprEn 0), by decide +kernel⟩,
    ⟨9, 1, true, 0, (((conPort 9).wP 9 Kp.eprEn 1).wP 9 Kp.cableEpr 1), by decide +kernel⟩,
    ⟨9, 1, true, ((conPort 9).setPort 9 { live.port 9 with eprMode := true }), by decide +kernel⟩⟩

/-- Witnesses for PdRequests. -/
theorem witness_PdRequests_1 :
    (∃ (p : Port) (id : Fin 8) (rev3 : Bool) (s : State), reads s p id ∧ s.rP p Kp.pdRev = 3 ∧ (s.port p).eprMode = true) ∧
    (∃ (p : Port) (id : Fin 8) (rev3 : Bool) (s : State), reads s p id ∧ s.explicitContract p = true ∧ s.rP p Kp.role = 2 ∧ bit (s.rP p
      Kp.swapPolicy) 0 = true ∧ (s.port p).eprMode = false ∧ s.eprStands p = false) ∧
    (∃ (p : Port) (id : Fin 8) (rev3 : Bool) (s : State), reads s p id ∧ s.rP p Kp.role = 0) ∧
    (∃ (p : Port) (id : Fin 8) (rev3 : Bool) (s : State), reads s p id ∧ s.explicitContract p = true ∧ bit (s.rP p Kp.swapPolicy) 1 =
      true) ∧
    (∃ (p : Port) (id : Fin 8) (rev3 : Bool) (s : State), reads s p id ∧ s.explicitContract p = true ∧ bit (s.rP p Kp.swapPolicy) 2 =
      true ∧ (s.port p).vconnOwner = true) ∧
    (∃ (p : Port) (id : Fin 8) (rev3 : Bool) (s : State), reads s p id ∧ bit (s.rP p Kp.swapPolicy) 2 = false) :=
  ⟨⟨9, 1, true, ((conPort 9).setPort 9 { live.port 9 with eprMode := true }), by decide +kernel⟩,
    ⟨9, 1, true, (((conPort 9).wP 9 Kp.role 2).wP 9 Kp.swapPolicy 1), by decide +kernel⟩,
    ⟨9, 1, true, (conPort 9), by decide +kernel⟩,
    ⟨9, 1, true, ((conPort 9).wP 9 Kp.swapPolicy 2), by decide +kernel⟩,
    ⟨9, 1, true, (((conPort 9).wP 9 Kp.swapPolicy 4).setPort 9 { live.port 9 with vconnOwner := true }), by decide +kernel⟩,
    ⟨9, 1, true, ((conPort 9).wP 9 Kp.swapPolicy 0), by decide +kernel⟩⟩

/-- Witnesses for PdRequests. -/
theorem witness_PdRequests_2 :
    (∃ (p : Port) (id : Fin 8) (rev3 : Bool) (m : Unx) (s : State), reads s p id ∧ m = .ping) ∧
    (∃ (p : Port) (id : Fin 8) (rev3 : Bool) (m : Unx) (s : State), reads s p id ∧ m = .other) ∧
    (∃ (p : Port) (id : Fin 8) (rev3 : Bool) (s : State), reads s p id) ∧
    (∃ (p : Port) (s : State), s.attached p = true ∧ s.rP p Kp.powerRole = 1) ∧
    (∃ (p : Port) (s : State), s.attached p = false) ∧
    (∃ (p : Port) (id : Fin 8) (rev3 : Bool) (frs : Nat) (s : State), reads s p id ∧ frs = 0) :=
  ⟨⟨9, 1, true, .ping, (conPort 9), by decide +kernel⟩,
    ⟨9, 1, true, .other, (conPort 9), by decide +kernel⟩,
    ⟨9, 1, true, (conPort 9), by decide +kernel⟩,
    ⟨9, (conPort 9), by decide +kernel⟩,
    ⟨9, live, by decide +kernel⟩,
    ⟨9, 1, true, 0, (snkPort 9), by decide +kernel⟩⟩

/-- Witnesses for PdRequests. -/
theorem witness_PdRequests_3 :
    (∃ (p : Port) (id : Fin 8) (rev3 : Bool) (frs : Nat) (s : State), reads s p id ∧ 0 < frs ∧ s.sinkRole p = true ∧ s.rP p
      Kp.attachState = Att.snk ∧ bit (s.rP p Kp.swapPolicy) 4 = true ∧ (s.lport p).shedAllot = none ∧ s.odNew = [] ∧ admitResult s p
      (ceilDiv (500 * frs) 1000) = 1) ∧
    (∃ (p : Port) (id : Fin 8) (rev3 : Bool) (last : Bool) (s : State), reads s p id ∧ (s.port p).authStep = 1 ∧ s.rP p Kp.powerRole =
      1 ∧ s.explicitContract p = true ∧ s.rP p Kp.pdRev = 3) ∧
    (∃ (p : Port) (id : Fin 8) (rev3 : Bool) (last : Bool) (s : State), reads s p id ∧ s.rP p Kp.pdRev = 3 ∧ (s.port p).authStep = 2 ∧
      last = true) ∧
    (∃ (p : Port) (id : Fin 8) (rev3 : Bool) (pdos : List Nat) (s : State), reads s p id ∧ s.rP p Kp.powerRole = 2 ∧ pdos ≠ []) ∧
    (∃ (p : Port) (id : Fin 8) (rev3 : Bool) (s : State), reads s p id ∧ (s.port p).awaits = some .request ∧ (s.port p).wanted = none) ∧
    (∃ (p : Port) (id : Fin 8) (rev3 : Bool) (w : Wanted) (s : State), reads s p id ∧ (s.port p).awaits = some .request ∧ (s.port
      p).wanted = some w ∧ (s.path p).dir ≠ .sink) :=
  ⟨⟨9, 1, true, 300, (((((snkPort 9).wP 9 Kp.role 1).wP 9 Kp.swapPolicy 16).wr K.budget 1000).wP 9 Kp.allot 1000), by decide +kernel⟩,
    ⟨9, 1, true, true, ((conPort 9).setPort 9 { live.port 9 with authStep := 1 }), by decide +kernel⟩,
    ⟨9, 1, true, true, ((conPort 9).setPort 9 { live.port 9 with authStep := 2 }), by decide +kernel⟩,
    ⟨9, 1, true, ([100 * 1024 + 300]), (snkPort 9), by decide +kernel⟩,
    ⟨9, 1, true, ((snkPort 9).setPort 9 { live.port 9 with awaits := some .request }), by decide +kernel⟩,
    ⟨9, 1, true, { pos := 1, v := 500, i := 300, mode := 0, epr := false }, ((snkPort 9).setPort 9 { live.port 9 with awaits := some .request, wanted := some { pos := 1, v := 500, i := 300, mode := 0, epr := false } }), by decide +kernel⟩⟩

/-- Witnesses for PdRequests. -/
theorem witness_PdRequests_4 :
    (∃ (p : Port) (id : Fin 8) (rev3 : Bool) (w : Wanted) (s : State), reads s p id ∧ (s.port p).awaits = some .request ∧ (s.port
      p).wanted = some w ∧ (s.path p).dir = .sink ∧ (s.path p).target < w.v) ∧
    (∃ (p : Port) (id : Fin 8) (rev3 : Bool) (s : State), reads s p id ∧ (s.port p).awaits = some .drSwap) ∧
    (∃ (p : Port) (id : Fin 8) (rev3 : Bool) (s : State), reads s p id ∧ (s.port p).awaits = some .request) ∧
    (∃ (p : Port) (id : Fin 8) (rev3 : Bool) (s : State), reads s p id ∧ (s.port p).awaits = some .prSwap) ∧
    (∃ (p : Port) (id : Fin 8) (rev3 : Bool) (s : State), reads s p id ∧ (s.port p).awaits = some .request) ∧
    (∃ (p : Port) (id : Fin 8) (rev3 : Bool) (w : Wanted) (s : State), reads s p id ∧ (s.port p).swap = none ∧ (s.port p).wanted = some
      w ∧ s.rP p Kp.powerRole = 2 ∧ s.rP p Kp.contract = Ctr.transition ∧ (s.port p).eprMode = false ∧ (s.path p).dir ≠ .sink) :=
  ⟨⟨9, 1, true, { pos := 1, v := 900, i := 300, mode := 0, epr := false }, (((snkPort 9).setPort 9 { live.port 9 with awaits := some .request, wanted := some { pos := 1, v := 900, i := 300, mode := 0, epr := false } }).setPath 9 { live.path 9 with dir := .sink, target := 500 }), by decide +kernel⟩,
    ⟨9, 1, true, ((snkPort 9).setPort 9 { live.port 9 with awaits := some .drSwap }), by decide +kernel⟩,
    ⟨9, 1, true, ((snkPort 9).setPort 9 { live.port 9 with awaits := some .request }), by decide +kernel⟩,
    ⟨9, 1, true, ((snkPort 9).setPort 9 { live.port 9 with awaits := some .prSwap }), by decide +kernel⟩,
    ⟨9, 1, true, ((snkPort 9).setPort 9 { live.port 9 with awaits := some .request }), by decide +kernel⟩,
    ⟨9, 1, true, { pos := 1, v := 500, i := 300, mode := 0, epr := false }, (((snkPort 9).wP 9 Kp.contract Ctr.transition).setPort 9 { live.port 9 with wanted := some { pos := 1, v := 500, i := 300, mode := 0, epr := false } }), by decide +kernel⟩⟩

/-- Witnesses for PdRequests. -/
theorem witness_PdRequests_5 :
    (∃ (p : Port) (id : Fin 8) (rev3 : Bool) (w : Wanted) (s : State), reads s p id ∧ (s.port p).swap = none ∧ (s.port p).wanted = some
      w ∧ s.rP p Kp.powerRole = 2 ∧ s.rP p Kp.contract = Ctr.transition ∧ (s.port p).eprMode = false ∧ (s.path p).dir = .sink) ∧
    (∃ (p : Port) (id : Fin 8) (rev3 : Bool) (s : State), reads s p id ∧ s.rP p Kp.pdRev = 3 ∧ s.rP p Kp.attachState = Att.snk ∧
      (s.path p).dir = .source ∧ (s.path p).gate = .on) ∧
    (∃ (p : Port) (c : CableVdo) (s : State), s.attached p = true ∧ (s.port p).hardReset ≠ .signalling ∧ s.serving p = true ∧
      s.inTransition p = false ∧ (s.port p).cableTries ≠ 0 ∧ (s.port p).vconnOc = false ∧ s.odNew = []) ∧
    (∃ (p : Port) (id : Fin 8) (rev3 : Bool) (pdp : Nat) (s : State), reads s p id ∧ s.rP p Kp.pdRev = 3 ∧ s.rP p Kp.eprEn ≠ 0 ∧ s.rP p
      Kp.cableEpr ≠ 1) :=
  ⟨⟨9, 1, true, { pos := 1, v := 900, i := 300, mode := 0, epr := false }, ((((snkPort 9).wP 9 Kp.contract Ctr.transition).setPort 9 { live.port 9 with wanted := some { pos := 1, v := 900, i := 300, mode := 0, epr := false } }).setPath 9 { live.path 9 with dir := .sink, target := 500 }), by decide +kernel⟩,
    ⟨9, 1, true, ((snkPort 9).setPath 9 { live.path 9 with dir := .source, gate := .on }), by decide +kernel⟩,
    ⟨9, { vdo := 7, current := 500, voltage := 5000, eprCapable := true }, ((conPort 9).setPort 9 { live.port 9 with cableTries := 2 }), by decide +kernel⟩,
    ⟨9, 1, true, 0, ((conPort 9).wP 9 Kp.eprEn 1), by decide +kernel⟩⟩

/-- Witnesses for PdTransmission. -/
theorem witness_PdTransmission_0 :
    (∃ (p : Port) (rev3 : Bool) (m : TxMsg) (l : List TxMsg) (s : State), (s.port p).tx = [m] ++ l ∧ s.rP p Kp.pdRev ≠ 0 ∧ m.kind =
      .psRdy) ∧
    (∃ (p : Port) (rev3 : Bool) (m : TxMsg) (l : List TxMsg) (s : State), (s.port p).tx = [m] ++ l ∧ s.rP p Kp.pdRev ≠ 0 ∧ m.kind =
      .sourceCaps ∧ s.rP p Kp.powerRole = 1) ∧
    (∃ (p : Port) (rev3 : Bool) (s : State), (s.port p).tx = []) ∧
    (∃ (p : Port) (m : TxMsg) (l : List TxMsg) (s : State), (s.port p).tx = [m] ++ l ∧ s.rP p Kp.pdRev = 3 ∧ (s.port p).retries < 2) ∧
    (∃ (p : Port) (m : TxMsg) (l : List TxMsg) (s : State), (s.port p).tx = [m] ++ l ∧ s.rP p Kp.pdRev = 3 ∧ 2 ≤ (s.port p).retries ∧
      m.kind = .alert ∧ s.inTransition p = false ∧ (s.port p).hardReset ≠ .signalling) ∧
    (∃ (p : Port) (m : TxMsg) (l : List TxMsg) (s : State), (s.port p).tx = [m] ++ l ∧ s.rP p Kp.pdRev = 2 ∧ 3 ≤ (s.port p).retries ∧
      m.kind = .psRdy) :=
  ⟨⟨9, true, (msg .psRdy []), ([]), ((conPort 9).setPort 9 { live.port 9 with tx := [msg .psRdy []], txId := 7, retries := 1 }), by decide +kernel⟩,
    ⟨9, true, (msg .sourceCaps []), ([]), ((srcPort 9).setPort 9 { live.port 9 with tx := [msg .sourceCaps []] }), by decide +kernel⟩,
    ⟨9, true, (conPort 9), by decide +kernel⟩,
    ⟨9, (msg .psRdy []), ([]), ((conPort 9).setPort 9 { live.port 9 with tx := [msg .psRdy []], retries := 1 }), by decide +kernel⟩,
    ⟨9, (msg .alert []), ([]), ((conPort 9).setPort 9 { live.port 9 with tx := [msg .alert []], retries := 2 }), by decide +kernel⟩,
    ⟨9, (msg .psRdy []), ([]), (((conPort 9).wP 9 Kp.pdRev 2).setPort 9 { live.port 9 with tx := [msg .psRdy []], retries := 3 }), by decide +kernel⟩⟩

/-- Witnesses for PdTransmission. -/
theorem witness_PdTransmission_1 :
    (∃ (p : Port) (s : State), (s.port p).awaits = some .request) ∧
    (∃ (p : Port) (s : State), (s.port p).awaits = some .discoverCable) ∧
    (∃ (p : Port) (s : State), s.rP p Kp.attachState = Att.src ∧ s.rP p Kp.contract = Ctr.none ∧ s.rP p Kp.pg = 1 ∧ (s.port p).tx = []
      ∧ (s.port p).capsCount < 50 ∧ s.vconnSource p = false ∧ s.odNew = [] ∧ (s.port p).eprMode = false ∧ (s.port p).hardReset ≠
      .signalling) ∧
    (∃ (p : Port) (s : State), 50 ≤ (s.port p).capsCount) ∧
    (∃ (p : Port) (s : State), s.rP p Kp.attachState = Att.src ∧ s.vconnSource p = true ∧ (s.port p).cableTries = 0 ∧ (s.port
      p).cableKnown = false ∧ (s.port p).hardReset ≠ .signalling) ∧
    (∃ (p : Port) (s : State), 1 ≤ (s.port p).cableTries ∧ (s.port p).cableTries < 4 ∧ s.vconnSource p = true ∧ s.rP p Kp.powerRole = 1
      ∧ (s.port p).hardReset ≠ .signalling) :=
  ⟨⟨9, ((snkPort 9).setPort 9 { live.port 9 with awaits := some .request }), by decide +kernel⟩,
    ⟨9, ((conPort 9).setPort 9 { live.port 9 with awaits := some .discoverCable }), by decide +kernel⟩,
    ⟨9, ((srcPort 9).wP 9 Kp.pg 1), by decide +kernel⟩,
    ⟨9, ((srcPort 9).setPort 9 { live.port 9 with capsCount := 50 }), by decide +kernel⟩,
    ⟨9, ((srcPort 9).wP 9 Kp.vconnState 2), by decide +kernel⟩,
    ⟨9, (((srcPort 9).wP 9 Kp.vconnState 1).setPort 9 { live.port 9 with cableTries := 3 }), by decide +kernel⟩⟩

/-- Witnesses for PdTransmission. -/
theorem witness_PdTransmission_2 :
    (∃ (p : Port) (s : State), 4 ≤ (s.port p).cableTries ∧ s.vconnSource p = true ∧ s.rP p Kp.powerRole = 1 ∧ s.odNew = []) ∧
    (∃ (p : Port) (m : TxMsg) (l : List TxMsg) (s : State), (s.port p).sinkTx = [m] ++ l ∧ (s.port p).hardReset ≠ .signalling) ∧
    (∃ (p : Port) (rev3 : Bool) (m : TxMsg) (l : List TxMsg) (s : State), (s.port p).tx = [m] ++ l ∧ s.rP p Kp.pdRev ≠ 0 ∧ m.kind =
      .sourceCaps ∧ s.rP p Kp.powerRole = 2) ∧
    (∃ (p : Port) (s : State), s.vconnSource p = false) :=
  ⟨⟨9, (((srcPort 9).wP 9 Kp.vconnState 1).setPort 9 { live.port 9 with cableTries := 4 }), by decide +kernel⟩,
    ⟨9, (msg .alert []), ([]), ((conPort 9).setPort 9 { live.port 9 with sinkTx := [msg .alert []] }), by decide +kernel⟩,
    ⟨9, true, (msg .sourceCaps []), ([]), ((snkPort 9).setPort 9 { live.port 9 with tx := [msg .sourceCaps []] }), by decide +kernel⟩,
    ⟨9, live, by decide +kernel⟩⟩

/-- Witnesses for PdTransitions. -/
theorem witness_PdTransitions_0 :
    (∃ (p : Port) (code : Nat) (s : State), (s.path p).trans = .wait ∧ (s.path p).gate = .on ∧ (s.path p).falling = false ∧ s.vsetCode
      p (s.path p).armV = some code) ∧
    (∃ (p : Port) (code : Nat) (s : State), (s.path p).trans = .wait ∧ (s.path p).gate = .on ∧ (s.path p).falling = true ∧ s.vsetCode p
      (s.path p).armV = some code) ∧
    (∃ (p : Port) (s : State), (s.path p).trans = .slew ∧ (s.path p).falling = false) ∧
    (∃ (p : Port) (s : State), (s.path p).trans ≠ .slew) ∧
    (∃ (p : Port) (s : State), (s.path p).trans = .qual ∧ (s.path p).ft = .idle ∧ s.vbusGood p = true ∧ (s.path p).upperWaits = false ∧
      (s.path p).armStrip = true ∧ (s.cmp (winI p)).l = false) ∧
    (∃ (p : Port) (s : State), (s.path p).trans = .qual ∧ s.vbusGood p = false) :=
  ⟨⟨9, 155, ((conPort 9).setPath 9 { live.path 9 with trans := .wait, gate := .on, dir := .source, armV := 500 }), by decide +kernel⟩,
    ⟨9, 155, ((conPort 9).setPath 9 { live.path 9 with trans := .wait, gate := .on, dir := .source, armV := 500, falling := true, vNow := 450000 }), by decide +kernel⟩,
    ⟨9, ((conPort 9).setPath 9 { live.path 9 with trans := .slew, gate := .on, slewing := true }), by decide +kernel⟩,
    ⟨9, (conPort 9), by decide +kernel⟩,
    ⟨9, (((conPort 9).setPath 9 { live.path 9 with trans := .qual, gate := .on, strip := some 3, armStrip := true }).setCmp (winV 9) { live.cmp (winV 9) with l := true } |>.setCmp (winI 9) { live.cmp (winI 9) with l := false }), by decide +kernel⟩,
    ⟨9, ((conPort 9).setPath 9 { live.path 9 with trans := .qual, gate := .on } |>.setCmp (winV 9) { live.cmp (winV 9) with l := false }), by decide +kernel⟩⟩

/-- Witnesses for PdTransitions. -/
theorem witness_PdTransitions_1 :
    (∃ (p : Port) (w : Wanted) (s : State), (s.port p).swap = none ∧ (s.port p).wanted = some w ∧ (s.path p).trans = .done ∧ (s.path
      p).ft = .idle ∧ s.rP p Kp.powerRole = 1 ∧ s.explicitContract p = true ∧ (s.port p).shedCaps = false ∧ (s.port p).eprMode = false
      ∧ (s.port p).hardReset ≠ .signalling) ∧
    (∃ (p : Port) (s : State), (s.port p).swap = none ∧ (s.port p).wanted = none) ∧
    (∃ (p : Port) (s : State), (s.path p).trans = .qual) ∧
    (∃ (p : Port) (s : State), (s.path p).trans = .none) ∧
    (∃ (p : Port) (s : State), (s.port p).ppsTimer = true) ∧
    (∃ (p : Port) (s : State), (s.port p).eprTimer = true) :=
  ⟨⟨9, { pos := 2, v := 900, i := 300, mode := 0, epr := false }, (((conPort 9).setPath 9 { live.path 9 with trans := .done, gate := .on }).setPort 9 { live.port 9 with wanted := some { pos := 2, v := 900, i := 300, mode := 0, epr := false } }), by decide +kernel⟩,
    ⟨9, (conPort 9), by decide +kernel⟩,
    ⟨9, ((conPort 9).setPath 9 { live.path 9 with trans := .qual, gate := .on }), by decide +kernel⟩,
    ⟨9, (conPort 9), by decide +kernel⟩,
    ⟨9, ((conPort 9).setPort 9 { live.port 9 with ppsTimer := true }), by decide +kernel⟩,
    ⟨9, ((conPort 9).setPort 9 { live.port 9 with eprTimer := true, eprMode := true }), by decide +kernel⟩⟩

/-- Witnesses for PdTransitions. -/
theorem witness_PdTransitions_2 :
    (∃ (p : Port) (s : State), (s.port p).swap = none ∧ (s.path p).ft ≠ .idle) :=
  ⟨9, ((conPort 9).setPath 9 { live.path 9 with trans := .done, ft := .running }), by decide +kernel⟩

/-- Witnesses for PdRecovery. -/
theorem witness_PdRecovery_0 :
    (∃ (p : Port) (s : State), (s.path p).frsArmed = true ∧ (s.port p).hardReset = .none ∧ (s.path p).inTb.all (fun e => decide (e +
      100000 ≤ s.tb)) = true) ∧
    (∃ (p : Port) (s : State), (s.path p).frsArmed = false) ∧
    (∃ (p : Port) (code : Nat) (s : State), (s.path p).frsSeen = true ∧ s.pulldown p = false ∧ (s.path p).lockout = false ∧ s.mayEnable
      = true ∧ s.vsetCode p 500 = some code ∧ (s.cmp (winI p)).l = false) ∧
    (∃ (p : Port) (s : State), (s.path p).frsSeen = false) ∧
    (∃ (p : Port) (s : State), (s.path p).frsDue = true ∧ (s.path p).gate ≠ .on) ∧
    (∃ (p : Port) (s : State), (s.path p).frsDue = true ∧ (s.path p).gate = .on ∧ (s.path p).dir = .source ∧ s.vbusGood p = true) :=
  ⟨⟨9, ((snkPort 9).setPath 9 { live.path 9 with frsArmed := true }), by decide +kernel⟩,
    ⟨9, (snkPort 9), by decide +kernel⟩,
    ⟨9, 155, (((snkPort 9).setPath 9 { live.path 9 with frsArmed := true, frsSeen := true }).setCmp (winI 9) { live.cmp (winI 9) with h := false, checking := false } |>.setCmp (winV 9) { live.cmp (winV 9) with h := false, checking := false }), by decide +kernel⟩,
    ⟨9, (snkPort 9), by decide +kernel⟩,
    ⟨9, ((snkPort 9).setPath 9 { live.path 9 with frsDue := true }), by decide +kernel⟩,
    ⟨9, (((snkPort 9).setPath 9 { live.path 9 with frsDue := true, gate := .on, dir := .source, target := 500, vNow := 250000 }).setCmp (winV 9) { live.cmp (winV 9) with h := false, l := true, checking := false }), by decide +kernel⟩⟩

/-- Witnesses for PdRecovery. -/
theorem witness_PdRecovery_1 :
    (∃ (p : Port) (s : State), (s.path p).frsDue = false) ∧
    (∃ (p : Port) (ok : Bool) (root : List Nat) (s : State), (s.port p).authStep = 2 ∧ ok = true ∧ ((List.range 4).foldl (fun x i =>
      x.useText (keyP p (Kp.authRoot + i))) s).rootTrusted p root = true ∧ s.rP p Kp.powerRole = 1 ∧ s.explicitContract p = true ∧ s.rP
      p Kp.pdRev = 3) ∧
    (∃ (p : Port) (ok : Bool) (root : List Nat) (s : State), (s.port p).authStep = 3 ∧ ok = true ∧ s.odNew = []) ∧
    (∃ (p : Port) (ok : Bool) (root : List Nat) (s : State), (s.port p).authStep = 3 ∧ ok = false ∧ s.odNew = []) ∧
    (∃ (p : Port) (ok : Bool) (root : List Nat) (s : State), (s.port p).authStep = 2 ∧ s.rootTrusted p root = false ∧ s.odNew = []) ∧
    (∃ (p : Port) (s : State), (s.port p).hardReset = .waitOff) :=
  ⟨⟨9, live, by decide +kernel⟩,
    ⟨9, true, [1], (((conPort 9).setPort 9 { live.port 9 with authStep := 2 }).wrB (keyP 9 Kp.authRoot) [1]), by decide +kernel⟩,
    ⟨9, true, [], ((conPort 9).setPort 9 { live.port 9 with authStep := 3 }), by decide +kernel⟩,
    ⟨9, false, [], ((conPort 9).setPort 9 { live.port 9 with authStep := 3 }), by decide +kernel⟩,
    ⟨9, true, [1], ((conPort 9).setPort 9 { live.port 9 with authStep := 2 }), by decide +kernel⟩,
    ⟨9, ((conPort 9).setPort 9 { live.port 9 with hardReset := .waitOff }), by decide +kernel⟩⟩

/-- Witnesses for PdRecovery. -/
theorem witness_PdRecovery_2 :
    (∃ (p : Port) (s : State), (s.port p).hardReset = .recover ∧ (s.path p).turning = false ∧ (s.path p).dsch = false) ∧
    (∃ (p : Port) (s : State), (s.port p).hardReset = .signalling ∧ s.rP p Kp.powerRole = 1) ∧
    (∃ (p : Port) (s : State), (s.port p).hardReset = .signalling ∧ s.rP p Kp.powerRole = 2) ∧
    (∃ (p : Port) (e : Nat) (s : State), (s.path p).inTb = some e ∧ s.tb < e + 100000) ∧
    (∃ (p : Port) (s : State), (s.path p).gate = .off ∧ ((s.path p).turning = true ∨ (s.path p).dsch = true)) ∧
    (∃ (p : Port) (code : Nat) (s : State), (s.path p).frsSeen = true ∧ s.pulldown p = false ∧ (s.path p).lockout = false ∧ s.mayEnable
      = true ∧ s.vsetCode p 500 = some code ∧ (s.cmp (winI p)).l = true) :=
  ⟨⟨9, ((conPort 9).setPort 9 { live.port 9 with hardReset := .recover }), by decide +kernel⟩,
    ⟨9, ((conPort 9).setPort 9 { live.port 9 with hardReset := .signalling }), by decide +kernel⟩,
    ⟨9, ((snkPort 9).setPort 9 { live.port 9 with hardReset := .signalling }), by decide +kernel⟩,
    ⟨9, 5, ((snkPort 9).setPath 9 { live.path 9 with frsArmed := true, inTb := some 5 }), by decide +kernel⟩,
    ⟨9, (live.setPath 9 { live.path 9 with dsch := true }), by decide +kernel⟩,
    ⟨9, 155, (((snkPort 9).setPath 9 { live.path 9 with frsArmed := true, frsSeen := true }).setCmp (winI 9) { live.cmp (winI 9) with h := false, l := true, checking := false } |>.setCmp (winV 9) { live.cmp (winV 9) with h := false, checking := false }), by decide +kernel⟩⟩

/-- Witnesses for PortCommands. -/
theorem witness_PortCommands_0 :
    (∃ (p : Port) (s : State), s.portCmdOk p 1 = true) ∧
    (∃ (p : Port) (s : State), s.portCmdOk p 1 = false) ∧
    (∃ (p : Port) (s : State), s.portCmdOk p 2 = true ∧ (s.port p).hardReset ≠ .signalling) ∧
    (∃ (p : Port) (s : State), s.portCmdOk p 2 = false) ∧
    (∃ (p : Port) (s : State), s.portCmdOk p 3 = true ∧ s.odNew = [] ∧ s.explicitContract p = false ∧ (s.port p).eprMode = false ∧
      (s.port p).hardReset ≠ .signalling) ∧
    (∃ (p : Port) (s : State), s.portCmdOk p 3 = false) :=
  ⟨⟨9, (conPort 9), by decide +kernel⟩,
    ⟨9, live, by decide +kernel⟩,
    ⟨9, (conPort 9), by decide +kernel⟩,
    ⟨9, live, by decide +kernel⟩,
    ⟨9, (srcPort 9), by decide +kernel⟩,
    ⟨9, live, by decide +kernel⟩⟩

/-- Witnesses for PortCommands. -/
theorem witness_PortCommands_1 :
    (∃ (p : Port) (s : State), s.portCmdOk p 4 = true ∧ s.rP p Kp.powerRole = 1 ∧ s.rP p Kp.pdRev = 3) ∧
    (∃ (p : Port) (s : State), s.portCmdOk p 4 = false) ∧
    (∃ (p : Port) (s : State), s.portCmdOk p 5 = true ∧ s.rP p Kp.powerRole = 1 ∧ s.rP p Kp.pdRev = 3) ∧
    (∃ (p : Port) (s : State), s.portCmdOk p 6 = true ∧ s.rP p Kp.powerRole = 1 ∧ s.rP p Kp.pdRev = 3) ∧
    (∃ (p : Port) (s : State), s.portCmdOk p 7 = true) ∧
    (∃ (p : Port) (s : State), (s.path p).safe = true) :=
  ⟨⟨9, ((conPort 9).wP 9 Kp.role 2), by decide +kernel⟩,
    ⟨9, (conPort 9), by decide +kernel⟩,
    ⟨9, (conPort 9), by decide +kernel⟩,
    ⟨9, ((conPort 9).setPort 9 { live.port 9 with vconnOwner := true }), by decide +kernel⟩,
    ⟨9, (conPort 9), by decide +kernel⟩,
    ⟨9, (live.setPath 9 { live.path 9 with safe := true }), by decide +kernel⟩⟩

/-- Witnesses for PortCommands. -/
theorem witness_PortCommands_2 :
    (∃ (p : Port) (s : State), s.portCmdOk p 8 = true) ∧
    (∃ (p : Port) (s : State), (s.path p).safe = true) ∧
    (∃ (p : Port) (s : State), s.portCmdOk p 9 = true) ∧
    (∃ (p : Port) (s : State), s.portCmdOk p 10 = true ∧ s.rP p Kp.attachState = Att.disabled ∧ s.rP p Kp.role ≠ 3) ∧
    (∃ (p : Port) (s : State), s.portCmdOk p 10 = false) ∧
    (∃ (p : Port) (s : State), s.portCmdOk p 11 = true ∧ s.rP p Kp.powerRole = 1 ∧ s.rP p Kp.pdRev = 3) :=
  ⟨⟨9, ((conPort 9).wP 9 Kp.pdCounters 7), by decide +kernel⟩,
    ⟨9, (live.setPath 9 { live.path 9 with safe := true }), by decide +kernel⟩,
    ⟨9, (conPort 9), by decide +kernel⟩,
    ⟨9, (live.wP 9 Kp.attachState Att.disabled), by decide +kernel⟩,
    ⟨9, live, by decide +kernel⟩,
    ⟨9, (conPort 9), by decide +kernel⟩⟩

/-- Witnesses for PortCommands. -/
theorem witness_PortCommands_3 :
    (∃ (p : Port) (s : State), s.portCmdOk p 11 = false) :=
  ⟨9, live, by decide +kernel⟩

/-- Witnesses for LedgerQueries. -/
theorem witness_LedgerQueries_0 :
    (∃ (p : Port) (w : Nat) (s : State), s.odNew = [] ∧ admitResult s p w = 1 ∧ s.rP p Kp.ledgerState ≠ 4 ∧ (s.lport p).changed =
      false) ∧
    (∃ (p : Port) (w : Nat) (r : Int) (s : State), s.odNew = [] ∧ admitResult s p w = r ∧ r ≠ 1) ∧
    (∃ (p : Port) (w : Nat) (s : State), s.odNew = [] ∧ admitResult s p w = 1 ∧ s.rP p Kp.ledgerState ≠ 4 ∧ (s.lport p).changed =
      false) ∧
    (∃ (p : Port) (w : Nat) (r : Int) (s : State), s.odNew = [] ∧ admitResult s p w = r ∧ r ≠ 1) ∧
    (∃ (p : Port) (s : State), s.rP p Kp.ledgerState ≠ 4 ∧ (s.lport p).changed = false) ∧
    (∃ (p : Port) (s : State), bit (s.ior (blockOf p) 0x4020) (4 + localOf p) = true ∧ p ∈ s.ledger.waiting ∧ s.odNew = [] ∧
      s.explicitContract p = false ∧ (s.port p).eprMode = false ∧ (s.port p).hardReset ≠ .signalling) :=
  ⟨⟨9, 0, live, by decide +kernel⟩,
    ⟨9, 5000, 3, (live.wP 9 Kp.allot 100), by decide +kernel⟩,
    ⟨9, 100, (((live.wP 9 Kp.allot 100).wr K.budget 500)), by decide +kernel⟩,
    ⟨9, 100, 2, ((live.wP 9 Kp.allot 100).wr K.budget 99), by decide +kernel⟩,
    ⟨9, (live.wP 9 Kp.booking 100), by decide +kernel⟩,
    ⟨9, { (srcPort 9).iow 2 0x4020 32 with ledger := { live.ledger with waiting := [9] } }, by decide +kernel⟩⟩

/-- Witnesses for LedgerQueries. -/
theorem witness_LedgerQueries_1 :
    (∃ (p : Port) (s : State), bit (s.ior (blockOf p) 0x4020) (4 + localOf p) = false) :=
  ⟨9, live, by decide +kernel⟩

/-- Witnesses for StripTables. -/
theorem witness_StripTables :
    (∃ (s : State), s.odNew = [] ∧ s.rd K.stripMode = 0) ∧
    (∃ (s : State), s.odNew = [] ∧ s.rd K.stripMode = 0) ∧
    (∃ (s : State), s.odNew = [] ∧ s.rd K.stripMode ≠ 0) :=
  ⟨⟨(live.wr K.stripMode 0 |>.wS 0 Ks.stTrigger 1), by decide +kernel⟩,
    ⟨(live.wr K.stripMode 0 |>.wS 0 Ks.stTrigger 1), by decide +kernel⟩,
    ⟨(live.wr K.stripMode 1), by decide +kernel⟩⟩

/-- Witnesses for Sheds. -/
theorem witness_Sheds_0 :
    (∃ (t0 : Option Slot) (ok : Bool) (n : Slot) (s : State), t0 = some n ∧ (s.slot n).writing = true ∧ ok = true ∧ s.odNew = []) ∧
    (∃ (t0 : Option Slot) (ok : Bool) (s : State), t0 = none ∧ s.scrim.writing = true ∧ ok = true ∧ s.odNew = []) ∧
    (∃ (t0 : Option Slot) (ok : Bool) (s : State), ok = false) ∧
    (∃ (n : Tile) (t0 : Nat) (s : State), (s.tile n).strobes = [t0] ∧ s.ledger.causes.contains 1 = false) ∧
    (∃ (n : Tile) (t0 : Nat) (s : State), (s.tile n).strobes = []) ∧
    (∃ (t0 : Nat) (s : State), s.ledger.trigs.contains t0 = true) :=
  ⟨⟨(some 2), true, 2, (live.setSlot 2 { live.slot 2 with writing := true }), by decide +kernel⟩,
    ⟨none, true, { live with scrim := { live.scrim with writing := true } }, by decide +kernel⟩,
    ⟨(some 2), false, (live.setSlot 2 { live.slot 2 with writing := true }), by decide +kernel⟩,
    ⟨1, 4, (((live.setTile 1 { live.tile 1 with strobes := [4] }).setSlot 2 { live.slot 2 with armed := some { trigger := 4, cut := 512, capAfter := 0, allot := [], limit := [] } }).setPath 9 { live.path 9 with gate := .on, dir := .source }), by decide +kernel⟩,
    ⟨1, 4, live, by decide +kernel⟩,
    ⟨4, { live.setSlot 2 { live.slot 2 with armed := some { trigger := 4, cut := 512, capAfter := 100, allot := [], limit := [] } } with ledger := { live.ledger with trigs := [4], causes := [4] } }, by decide +kernel⟩⟩

/-- Witnesses for Sheds. -/
theorem witness_Sheds_1 :
    (∃ (t0 : Nat) (s : State), s.ledger.trigs.contains t0 = false) ∧
    (∃ (s : State), s.rd K.shedInEn = 1 ∧ s.ledger.shedIgnore = false ∧ s.ledger.shedStuck = false) ∧
    (∃ (s : State), s.rd K.shedInEn = 0) ∧
    (∃ (s : State), s.ledger.shedLow = true) ∧
    (∃ (s : State), s.ledger.shedLow = false ∧ s.ledger.shedDrive = false) ∧
    (∃ (s : State), s.rd K.derateStep = 0 ∧ derateStep s (derateTemp s) 0 = 1) :=
  ⟨⟨4, live, by decide +kernel⟩,
    ⟨(live.wr K.shedInEn 1), by decide +kernel⟩,
    ⟨(live.wr K.shedInEn 0), by decide +kernel⟩,
    ⟨{ live with ledger := { live.ledger with shedLow := true } }, by decide +kernel⟩,
    ⟨live, by decide +kernel⟩,
    ⟨{ ((((live.wr K.shelfTemp (-32768)).wr K.derateT1 70).wr (K.derateT1 + 1) 80).wr (K.derateT1 + 2) 90) with ref := { live.ref with die0 := 750 } }, by decide +kernel⟩⟩

/-- Witnesses for Sheds. -/
theorem witness_Sheds_2 :
    (∃ (s : State), derateStep s (derateTemp s) (s.rd K.derateStep) = s.rd K.derateStep) ∧
    (∃ (c : Int) (k : Nat) (s : State), s.ledger.cap = some c ∧ s.ledger.causes.getLast? = some k ∧ c < runningSum s ∧ secondSlot s =
      none) ∧
    (∃ (c : Int) (k : Nat) (n : Slot) (s : State), s.ledger.cap = some c ∧ s.ledger.causes.getLast? = some k ∧ c < runningSum s ∧
      secondSlot s = some n ∧ s.odNew = []) ∧
    (∃ (c : Int) (s : State), s.ledger.cap = some c ∧ runningSum s ≤ c) ∧
    (∃ (p : Port) (s : State), (s.lport p).shedAllot.isSome = true ∧ s.rP p Kp.ledgerState ≠ 4 ∧ (s.port p).eprMode = false ∧ s.rP p
      Kp.attachState = Att.src ∧ (s.port p).offer ≠ [] ∧ s.buildOffer p false ≠ (s.port p).offer ∧ s.odNew = [] ∧ s.explicitContract p
      = false ∧ (s.port p).hardReset ≠ .signalling) ∧
    (∃ (p : Port) (s : State), (s.lport p).shedAllot = none) :=
  ⟨⟨{ live.wr K.derateStep 0 with ref := { live.ref with die0 := 250 } }, by decide +kernel⟩,
    ⟨100, 4, { ((List.finRange 8).foldl (fun s n => s.wS n Ks.stTrigger 1) live).wP 9 Kp.booking 101 with ledger := { live.ledger with cap := some 100, causes := [4] } }, by decide +kernel⟩,
    ⟨100, 4, 0, { (live.wS 0 Ks.stTrigger 0).wP 9 Kp.booking 101 with ledger := { live.ledger with cap := some 100, causes := [4] } }, by decide +kernel⟩,
    ⟨100, { live with ledger := { live.ledger with cap := some 100, causes := [4] } }, by decide +kernel⟩,
    ⟨9, (((srcPort 9).setPort 9 { live.port 9 with offer := [1] }).setLport 9 { live.lport 9 with shedAllot := some 10 }), by decide +kernel⟩,
    ⟨9, live, by decide +kernel⟩⟩

/-- Witnesses for Sheds. -/
theorem witness_Sheds_3 :
    (∃ (n : Slot) (s : State), s.rS n Ks.stTrigger = 7 ∧ n ∈ armedFor s 7) ∧
    (∃ (n : Slot) (s : State), s.rS n Ks.stTrigger = 7 ∧ n ∉ armedFor s 7) ∧
    (∃ (n : Slot) (s : State), s.rS n Ks.stTrigger = 1) ∧
    (∃ (n : Slot) (s : State), s.rS n Ks.stTrigger = 7 ∧ (s.slot n).stageOf = none) ∧
    (∃ (n : Slot) (s : State), s.rS n Ks.stTrigger = 7 ∧ (s.slot n).stageOf = some 4) :=
  ⟨⟨3, ((live.wS 3 Ks.stTrigger 7).setSlot 3 { live.slot 3 with armed := some { trigger := 7, cut := 0, capAfter := 0, allot := [], limit := [] } }), by decide +kernel⟩,
    ⟨3, (live.wS 3 Ks.stTrigger 7), by decide +kernel⟩,
    ⟨3, (live.wS 3 Ks.stTrigger 1), by decide +kernel⟩,
    ⟨3, (live.wS 3 Ks.stTrigger 7), by decide +kernel⟩,
    ⟨3, ((live.wS 3 Ks.stTrigger 7).setSlot 3 { live.slot 3 with stageOf := some 4 }), by decide +kernel⟩⟩

/-- Witnesses for Restoration. -/
theorem witness_Restoration_0 :
    (∃ (s : State), mayRestore s = true ∧ s.ledger.causes.contains 3 = false) ∧
    (∃ (s : State), mayRestore s = true ∧ s.ledger.causes.contains 3 = true ∧ hasPeers s = true ∧ lowerBusy s = true) ∧
    (∃ (s : State), mayRestore s = false) ∧
    (∃ (s : State), s.ledger.turnWait = true ∧ mayRestore s = true) ∧
    (∃ (s : State), s.ledger.turnWait = false) ∧
    (∃ (p : Port) (s : State), bit (s.rd K.ledgerFlags) 4 = true ∧ nextRestore s = some p ∧ s.rP p Kp.ledgerState = 4 ∧
      s.restartReserve p ≤ freePower s) :=
  ⟨⟨{ live with ledger := { live.ledger with causes := [4], cap := some 10 } }, by decide +kernel⟩,
    ⟨{ live.wrB K.peerMask [4] with ledger := { live.ledger with causes := [3], peers := [{ node := 2, flags := 4, sum := 0, floor := 0, demand := 0, limit := 0, cap := 0, heard := true, silent := 0, lost := false }] } } |>.wr K.canNode 9 |> fun s => { s with ledger := { s.ledger with peers := [{ node := 2, flags := 8, sum := 0, floor := 0, demand := 0, limit := 0, cap := 0, heard := true, silent := 0, lost := false }] } }, by decide +kernel⟩,
    ⟨live, by decide +kernel⟩,
    ⟨{ live with ledger := { live.ledger with causes := [4], cap := some 10, turnWait := true } }, by decide +kernel⟩,
    ⟨live, by decide +kernel⟩,
    ⟨9, (((live.wr K.ledgerFlags 16).wr K.budget 1000).wP 9 Kp.ledgerState 4), by decide +kernel⟩⟩

/-- Witnesses for Restoration. -/
theorem witness_Restoration_1 :
    (∃ (p : Port) (s : State), bit (s.rd K.ledgerFlags) 4 = true ∧ nextRestore s = some p ∧ s.rP p Kp.ledgerState = 4 ∧ freePower s <
      s.restartReserve p) ∧
    (∃ (s : State), bit (s.rd K.ledgerFlags) 4 = false) ∧
    (∃ (s : State), bit (s.rd K.ledgerFlags) 4 = true ∧ bit (s.rd K.ledgerFlags) 6 = false) ∧
    (∃ (s : State), bit (s.rd K.ledgerFlags) 4 = false) ∧
    (∃ (s : State), bit (s.rd K.ledgerFlags) 6 = true) ∧
    (∃ (s : State), bit (s.rd K.ledgerFlags) 6 = false) :=
  ⟨⟨9, (((live.wr K.ledgerFlags 16).wr K.budget 10).wP 9 Kp.ledgerState 4), by decide +kernel⟩,
    ⟨live, by decide +kernel⟩,
    ⟨(live.wr K.ledgerFlags 16), by decide +kernel⟩,
    ⟨live, by decide +kernel⟩,
    ⟨(live.wr K.ledgerFlags 64), by decide +kernel⟩,
    ⟨live, by decide +kernel⟩⟩

/-- Witnesses for Reconciliation. -/
theorem witness_Reconciliation_0 :
    (∃ (f : LedgerFrame) (n : Nat) (s : State), f.raw.length = 56 ∧ f.raw.getD 0 0 = 0x4C ∧ f.raw.getD 1 0 = 1 ∧ f.raw.getD 2 0 = n ∧
      s.inMask n = true ∧ n ≠ s.node ∧ (f.bus.val : Int) = s.rd K.ledgerBus ∧ f.id = frameIdOf s n ∧ s.asleep 2 = false ∧ f.tag ≠
      s.frameTag f.raw) ∧
    (∃ (f : LedgerFrame) (n : Nat) (s : State), f.raw.length = 56 ∧ f.raw.getD 0 0 = 0x4C ∧ f.raw.getD 1 0 = 1 ∧ f.raw.getD 2 0 = n ∧
      s.inMask n = true ∧ n ≠ s.node ∧ (f.bus.val : Int) = s.rd K.ledgerBus ∧ f.id = frameIdOf s n ∧ s.asleep 2 = false ∧ f.tag =
      s.frameTag f.raw ∧ s.ledger.turnWait = false) ∧
    (∃ (f : LedgerFrame) (s : State), (s.inMask (f.raw.getD 2 0) = false ∨ (f.bus.val : Int) ≠ s.rd K.ledgerBus ∨ f.id ≠ frameIdOf s
      (f.raw.getD 2 0))) ∧
    (∃ (s : State), s.ledger.roundOpen = true ∧ s.ledger.slotNode = s.node ∧ s.ledger.sent = false ∧ s.asleep 2 = false) ∧
    (∃ (s : State), (s.ledger.sent = true ∨ s.asleep 2 = true)) ∧
    (∃ (s : State), hasPeers s = true ∧ openerNode s = s.node ∧ s.asleep 2 = false) :=
  ⟨⟨{ raw := [0x4C, 1, 2] ++ List.replicate 53 0, tag := [], bus := Fin.ofNat 2 (live.rd K.ledgerBus).toNat, id := (live.rd K.ledgerCanBase).toNat + 2 }, 2, ((live.wrB K.peerMask [4]).wr K.canNode 9), by decide +kernel⟩,
    ⟨{ raw := [0x4C, 1, 2, 0, 7] ++ List.replicate 51 0, tag := List.replicate 8 0, bus := Fin.ofNat 2 (live.rd K.ledgerBus).toNat, id := (live.rd K.ledgerCanBase).toNat + 2 }, 2, ((live.wrB K.peerMask [4]).wr K.canNode 9), by decide +kernel⟩,
    ⟨{ raw := [0x4C, 1, 2] ++ List.replicate 53 0, tag := [], bus := 0, id := 0 }, live, by decide +kernel⟩,
    ⟨{ live.wr K.canNode 9 with ledger := { live.ledger with roundOpen := true, slotNode := 9 } }, by decide +kernel⟩,
    ⟨{ live with ledger := { live.ledger with sent := true } }, by decide +kernel⟩,
    ⟨((live.wrB K.peerMask [0, 0, 4]).wr K.canNode 9), by decide +kernel⟩⟩

/-- Witnesses for Reconciliation. -/
theorem witness_Reconciliation_1 :
    (∃ (s : State), hasPeers s = false) ∧
    (∃ (node : Nat) (s : State), s.ledger.roundOpen = true ∧ s.ledger.slotNode = node) ∧
    (∃ (node : Nat) (s : State), s.ledger.roundOpen = false) ∧
    (∃ (n : Nat) (s : State), memberAfter s (openerNode s) = some n) ∧
    (∃ (s : State), s.ledger.roundOpen = true ∧ s.ledger.slotNode = 128 ∧ s.odNew = [] ∧ s.ledger.cap = none) ∧
    (∃ (s : State), s.ledger.slotNode < 128) :=
  ⟨⟨live, by decide +kernel⟩,
    ⟨9, { live.wr K.canNode 9 with ledger := { live.ledger with roundOpen := true, slotNode := 9 } }, by decide +kernel⟩,
    ⟨9, live, by decide +kernel⟩,
    ⟨9, ((live.wrB K.peerMask [4]).wr K.canNode 9), by decide +kernel⟩,
    ⟨{ ((live.wrB K.peerMask [4]).wr K.canNode 9).wr K.shelfCap 1000 with ledger := { live.ledger with roundOpen := true, slotNode := 128, roundNow := 7 } }, by decide +kernel⟩,
    ⟨live, by decide +kernel⟩⟩

/-- Witnesses for Reconciliation. -/
theorem witness_Reconciliation_2 :
    (∃ (s : State), s.ledger.roundOpen = false) ∧
    (∃ (b : Int) (s : State), lowerTo s = some b ∧ runningSum s ≤ b) ∧
    (∃ (s : State), lowerTo s = none) ∧
    (∃ (p : Port) (b : Int) (s : State), lowerTo s = some b ∧ (cutOrder s).head? = some p ∧ s.sourceRole p = true ∧ b < runningSum s ∧
      runningSum s - b ≤ s.rP p Kp.booking ∧ (s.port p).offer = [] ∧ (s.port p).eprMode = false) :=
  ⟨⟨live, by decide +kernel⟩,
    ⟨0, { live with ledger := { live.ledger with overcommit := true } }, by decide +kernel⟩,
    ⟨live, by decide +kernel⟩,
    ⟨63, 90, { (live.wr K.budget 90).wP 63 Kp.booking 100 with ledger := { live.ledger with overcommit := true, share := 90 } }, by decide +kernel⟩⟩

/-- A witness for LedgerWithinBudget. -/
theorem witness_LedgerWithinBudget : (∀ q : Port, 0 ≤ live.rP q Kp.booking) ∧ runningSum live ≤ live.rd K.budget ∧ exec (.lqRelease 9) live = .next (settle (((live.book 9 0)).lqAnswer 9 1)) := by refine ⟨by decide +kernel, by decide +kernel, rfl⟩

/-- Witnesses for FeedStages. -/
theorem witness_FeedStages_0 :
    (∃ (f : Feed) (pin1 : Bool) (seated : Bool) (s : State), s.hs f = 0 ∧ seated = true ∧ pin1 = false) ∧
    (∃ (f : Feed) (pin1 : Bool) (seated : Bool) (s : State), s.hs f = 4 ∧ seated = false ∧ pin1 = true) ∧
    (∃ (f : Feed) (vin : Int) (s : State), FeedHw.seated { s.feed f with vin := vin } = true ∧ (s.setFeed f
      { s.feed f with vin := vin }).feedReady f = true ∧ s.hs f ≤ 2 ∧ s.odNew = []) ∧
    (∃ (f : Feed) (s : State), s.hs f = 3 ∧ s.feedIn f = false) ∧
    (∃ (f : Feed) (s : State), s.hs f = 4) ∧
    (∃ (f : Feed) (s : State), s.feedRuns f = true ∧ (s.feed f).ft = .idle ∧ s.feedGate f = true ∧ s.feedIn f = true) :=
  ⟨⟨0, false, true, (live.wF 0 Kf.feedHsState 0), by decide +kernel⟩,
    ⟨0, true, false, (live.wF 0 Kf.feedHsState 4), by decide +kernel⟩,
    ⟨0, 5400, (((((live.wF 0 Kf.feedEn 1).wF 0 Kf.feedHsState 2).setFeed 0 { live.feed 0 with seat0 := true, seat1 := true }).wS 0 Ks.stTrigger 0).wS 1 Ks.stTrigger 0), by decide +kernel⟩,
    ⟨0, ((live.wF 0 Kf.feedHsState 3).setFeed 0 { live.feed 0 with vin := 5400 }), by decide +kernel⟩,
    ⟨0, (live.wF 0 Kf.feedHsState 4), by decide +kernel⟩,
    ⟨0, (((live.wF 0 Kf.feedHsState 3).setFeed 0 { live.feed 0 with gateOn := true, vin := 5400, vout := 5400 }).setCmp (winF0 0) { live.cmp 0 with hUnres := false, checking := false } |>.setCmp (winF1 0) { live.cmp 0 with hUnres := false, checking := false }), by decide +kernel⟩⟩

/-- Witnesses for FeedStages. -/
theorem witness_FeedStages_1 :
    (∃ (f : Feed) (s : State), bit (s.rF f Kf.feedFlags) 3 = true ∧ s.feedIn f = false) ∧
    (∃ (f : Feed) (s : State), bit (s.rF f Kf.feedFlags) 3 = false) ∧
    (∃ (f : Feed) (s : State), s.feedRuns f = true ∧ (s.feed f).ft = .running) ∧
    (∃ (f : Feed) (s : State), (s.feed f).ft = .held) ∧
    (∃ (f : Feed) (vin : Int) (vout : Int) (d : Int) (i : Rat) (e : Rat) (s : State), i = ((10 * d : Int) : Rat) / (s.rF f
      Kf.feedRshunt : Int) ∧ e = max 0 ((s.feed f).soaE + ((vin - vout : Int) * i - (1000 * s.rF f Kf.feedSoaP0 : Int))) ∧ s.hs f = 4 ∧
      s.asleep 2 = false ∧ ((s.rF f Kf.feedIlim : Int) : Rat) ≤ i ∧ e < ((s.rF f Kf.feedSoaE * 10000000 : Int) : Rat)) ∧
    (∃ (f : Feed) (vin : Int) (vout : Int) (d : Int) (i : Rat) (e : Rat) (s : State), i = ((10 * d : Int) : Rat) / (s.rF f
      Kf.feedRshunt : Int) ∧ e = max 0 ((s.feed f).soaE + ((vin - vout : Int) * i - (1000 * s.rF f Kf.feedSoaP0 : Int))) ∧ s.feedRuns f
      = true ∧ s.asleep 2 = false ∧ ((s.rF f Kf.feedSoaE * 10000000 : Int) : Rat) ≤ e) :=
  ⟨⟨0, (((live.wF 0 Kf.feedFlags 8).wr K.feedState 1).setFeed 0 { live.feed 0 with vin := 5400 }), by decide +kernel⟩,
    ⟨0, live, by decide +kernel⟩,
    ⟨0, ((live.wF 0 Kf.feedHsState 4).setFeed 0 { live.feed 0 with ft := .running }), by decide +kernel⟩,
    ⟨0, (live.setFeed 0 { live.feed 0 with ft := .held }), by decide +kernel⟩,
    ⟨0, 5400, 5390, 30000, 30000, 0, (((live.wF 0 Kf.feedHsState 4).wF 0 Kf.feedRshunt 10).wF 0 Kf.feedSoaP0 600), by decide +kernel⟩,
    ⟨0, 5400, 0, 500000000, 500000000, 2699999400000, (((live.wF 0 Kf.feedHsState 4).wF 0 Kf.feedRshunt 10).wF 0 Kf.feedSoaP0 600), by decide +kernel⟩⟩

/-- Witnesses for FeedStages. -/
theorem witness_FeedStages_2 :
    (∃ (f : Feed) (low : Bool) (s : State), low = true ∧ s.hs f = 4) ∧
    (∃ (f : Feed) (low : Bool) (s : State), low = false) ∧
    (∃ (f : Feed) (s : State), s.hs f = 5 ∧ s.rF f Kf.lossCause = 4) ∧
    (∃ (f : Feed) (s : State), s.hs f = 4) ∧
    (∃ (f : Feed) (s : State), s.hs f = 6) ∧
    (∃ (f : Feed) (s : State), s.hs f = 4) :=
  ⟨⟨0, true, (live.wF 0 Kf.feedHsState 4), by decide +kernel⟩,
    ⟨0, false, live, by decide +kernel⟩,
    ⟨0, ((live.wF 0 Kf.feedHsState 5).wF 0 Kf.lossCause 4), by decide +kernel⟩,
    ⟨0, (live.wF 0 Kf.feedHsState 4), by decide +kernel⟩,
    ⟨0, (live.wF 0 Kf.feedHsState 6), by decide +kernel⟩,
    ⟨0, (live.wF 0 Kf.feedHsState 4), by decide +kernel⟩⟩

/-- Witnesses for FeedStages. -/
theorem witness_FeedStages_3 :
    (∃ (f : Feed) (s : State), s.hs f = 2) ∧
    (∃ (f : Feed) (s : State), s.hs f = 4) ∧
    (∃ (f : Feed) (s : State), s.hs f = 7 ∧ (s.feed f).seat0 = false) ∧
    (∃ (f : Feed) (c : LossCause) (s : State), s.feedRuns f = true) ∧
    (∃ (f : Feed) (c : LossCause) (s : State), s.feedRuns f = false) ∧
    (∃ (f : Feed) (s : State), s.feedIn f = true) :=
  ⟨⟨0, (live.wF 0 Kf.feedHsState 2), by decide +kernel⟩,
    ⟨0, (live.wF 0 Kf.feedHsState 4), by decide +kernel⟩,
    ⟨0, ((live.wF 0 Kf.feedHsState 7).setFeed 0 { live.feed 0 with cmdOff := true, seat0 := false }), by decide +kernel⟩,
    ⟨1, .reverse, (live.wF 1 Kf.feedHsState 4), by decide +kernel⟩,
    ⟨1, .reverse, live, by decide +kernel⟩,
    ⟨0, (live.wF 0 Kf.feedHsState 3), by decide +kernel⟩⟩

/-- Witnesses for FeedStages. -/
theorem witness_FeedStages_4 :
    (∃ (f : Feed) (s : State), s.feedGate f = false) :=
  ⟨0, live, by decide +kernel⟩

/-- Witnesses for PathRequests. -/
theorem witness_PathRequests_0 :
    (∃ (p : Port) (code : Nat) (s : State), s.held p = false ∧ bit (s.ctrl p) 1 = false ∧ (s.path p).gate = .off ∧ (s.path p).warm =
      true ∧ s.barred p = false ∧ s.vsetCode p 500 = some code) ∧
    (∃ (p : Port) (s : State), s.held p = false ∧ bit (s.ctrl p) 1 = true) ∧
    (∃ (p : Port) (s : State), s.held p = false ∧ bit (s.ctrl p) 0 = true) ∧
    (∃ (p : Port) (s : State), s.held p = false ∧ bit (s.ctrl p) 0 = false) ∧
    (∃ (p : Port) (code : Nat) (s : State), s.held p = false ∧ (s.path p).gate = .on ∧ (s.path p).dir = .source ∧ s.vsetCode p (fieldOf
      (s.ior (blockOf p) (0x1004 + 0x100 * localOf p)) 0 16) = some code) ∧
    (∃ (p : Port) (s : State), s.held p = false ∧ (s.path p).gate = .on ∧ (s.path p).dir = .source ∧ s.vsetCode p (fieldOf (s.ior
      (blockOf p) (0x1004 + 0x100 * localOf p)) 0 16) = none) :=
  ⟨⟨0, 155, (live.setPath 0 { live.path 0 with warm := true }), by decide +kernel⟩,
    ⟨5, (live.setCtrl 5 1 true), by decide +kernel⟩,
    ⟨63, (live.setCtrl 63 0 true), by decide +kernel⟩,
    ⟨63, live, by decide +kernel⟩,
    ⟨7, 155, (live.setPath 7 { live.path 7 with gate := .on, dir := .source }), by decide +kernel⟩,
    ⟨7, ((live.setPath 7 { live.path 7 with gate := .on, dir := .source }).iow 1 0x1304 0xFFFF), by decide +kernel⟩⟩

/-- Witnesses for PathRequests. -/
theorem witness_PathRequests_1 :
    (∃ (p : Port) (s : State), s.held p = false ∧ (s.path p).gate ≠ .on) ∧
    (∃ (p : Port) (s : State), s.held p = false ∧ (s.lport p).shedAllot = none ∧ s.sinkRole p = true) ∧
    (∃ (p : Port) (s : State), s.held p = false ∧ (s.lport p).shedAllot = none ∧ s.sinkRole p = false) ∧
    (∃ (p : Port) (s : State), s.held p = false ∧ (s.lport p).shedAllot.isSome = true) ∧
    (∃ (p : Port) (o : CheckOut) (x : Int) (s : State), (s.cmp (winV p)).checking = true ∧ (s.cmp (winI p)).checking = false ∧ (s.path
      p).frsWait = true ∧ checkStep o = 0 ∧ s.power.deg = none ∧ ((s.path p).dsch = false ∨ (s.path p).gate ≠ .off ∨ s.vbusServed p =
      true)) ∧
    (∃ (p : Port) (s : State), s.held p = true) :=
  ⟨⟨0, live, by decide +kernel⟩,
    ⟨9, (live.wP 9 Kp.role 1), by decide +kernel⟩,
    ⟨9, live, by decide +kernel⟩,
    ⟨9, (live.setLport 9 { live.lport 9 with shedAllot := some 0 }), by decide +kernel⟩,
    ⟨9, { h1 := false, l1 := false, h2 := true, l2 := true, h3 := true, l3 := true }, 100, ((live.setPath 9 { live.path 9 with frsWait := true }).setCmp (winV 9) { live.cmp (winV 9) with checking := true }), by decide +kernel⟩,
    ⟨9, (live.wr (K.lathState + 1) 2), by decide +kernel⟩⟩

/-- Witnesses for PathRamp. -/
theorem witness_PathRamp_0 :
    (∃ (p : Port) (s : State), (s.path p).gate = .pre ∧ (s.cmp (winI p)).checking = false ∧ (s.cmp (winV p)).checking = false) ∧
    (∃ (p : Port) (s : State), (s.cmp (winV p)).checking = true) ∧
    (∃ (p : Port) (ftStarts : Bool) (s : State), (s.path p).gate = .ramp ∧ (s.path p).dir = .source ∧ s.pulldown p = false ∧ s.vbusGood
      p = true ∧ (s.path p).ft = .idle ∧ (s.cmp (winI p)).l = false) ∧
    (∃ (p : Port) (ftStarts : Bool) (s : State), (s.path p).gate = .on ∧ s.pulldown p = false ∧ s.vbusGood p = true ∧ (s.path p).ft =
      .idle ∧ ftStarts = true) ∧
    (∃ (p : Port) (s : State), s.vbusGood p = false) ∧
    (∃ (p : Port) (l : List (Nat × Int)) (s : State), l = (s.path p).recent s.tb ∧ l ≠ [] ∧ (s.path p).dir = .source ∧ (s.path p).gate
      = .on ∧ (s.path p).slewing = false ∧ (s.cmp (winI p)).l = false ∧ (s.port p).ppsLimit = false ∧ (s.path p).vset < 4095 ∧
      meanAbove l ((s.path p).target * 500) < 0 ∧ (((s.path p).target * 500 + 200000 : Int) : Rat) < 400 * -meanAbove l ((s.path
      p).target * 500)) :=
  ⟨⟨0, (live.setPath 0 { live.path 0 with gate := .pre }), by decide +kernel⟩,
    ⟨0, (live.preCheck 0), by decide +kernel⟩,
    ⟨3, true, ((live.setPath 3 { live.path 3 with gate := .ramp, dir := .source }).setCmp (winV 3) { live.cmp (winV 3) with l := true }), by decide +kernel⟩,
    ⟨3, true, ((live.setPath 3 { live.path 3 with gate := .on, dir := .source }).setCmp (winV 3) { live.cmp (winV 3) with l := true }), by decide +kernel⟩,
    ⟨3, (live.wP 3 Kp.pg 1), by decide +kernel⟩,
    ⟨1, [(0, 248000)], (live.setPath 1 { live.path 1 with gate := .on, dir := .source, target := 500, vRecent := [(0, 248000)] }), by decide +kernel⟩⟩

/-- Witnesses for PathRamp. -/
theorem witness_PathRamp_1 :
    (∃ (p : Port) (s : State), (s.path p).slewing = true) ∧
    (∃ (p : Port) (s : State), (s.path p).ft = .held) ∧
    (∃ (p : Port) (ftStarts : Bool) (s : State), (s.path p).gate = .ramp ∧ s.pulldown p = false ∧ s.vbusGood p = true ∧ (s.path p).ft =
      .idle ∧ (s.cmp (winI p)).l = true) :=
  ⟨⟨1, (live.setPath 1 { live.path 1 with slewing := true }), by decide +kernel⟩,
    ⟨2, (live.setPath 2 { live.path 2 with ft := .held }), by decide +kernel⟩,
    ⟨3, false, (((live.setPath 3 { live.path 3 with gate := .ramp, dir := .source }).setCmp (winV 3) { live.cmp (winV 3) with l := true }).setCmp (winI 3) { live.cmp (winI 3) with l := true }), by decide +kernel⟩⟩

/-- Witnesses for PathFaults. -/
theorem witness_PathFaults_0 :
    (∃ (p : Port) (s : State), (s.path p).gate = .ramp ∧ (s.vbusGood p = false ∨ s.pulldown p = true) ∧ canRetry s p) ∧
    (∃ (p : Port) (s : State), (s.path p).gate = .on ∧ (s.path p).ft = .running ∧ canRetry s p) ∧
    (∃ (p : Port) (c : DpCause) (s : State), (s.path p).gate = .on ∧ canRetry s p ∧ s.lath (tileOf p) = 0 ∧ [c] ∈ (s.path p).trips ∧ (∀
      g ∈ (s.path p).trips, c ∈ g → g = [c])) ∧
    (∃ (p : Port) (c : DpCause) (d : DpCause) (s : State), (s.path p).gate = .on ∧ canRetry s p ∧ s.lath (tileOf p) = 0 ∧ (s.path
      p).trips = [[c, d]] ∧ c ≠ d ∧ (∃ x ∈ [c, d], x = .i2t)) ∧
    (∃ (p : Port) (c : DpCause) (s : State), s.lath (tileOf p) ≠ 0) ∧
    (∃ (p : Port) (c : DpCause) (s : State), (∀ g ∈ (s.path p).trips, c ∉ g)) :=
  ⟨⟨0, (((live.setPath 0 { live.path 0 with gate := .ramp }).setCmp (winV 0) { live.cmp (winV 0) with l := false }).wP 0 Kp.retryLeft 3), by decide +kernel⟩,
    ⟨0, ((live.setPath 0 { live.path 0 with gate := .on, ft := .running }).wP 0 Kp.retryLeft 3), by decide +kernel⟩,
    ⟨9, .rcp, ((live.wP 9 Kp.retryLeft 3).setPath 9 { live.path 9 with gate := .on, dir := .source, trips := [[.rcp]] }), by decide +kernel⟩,
    ⟨9, .i2t, .soa, ((live.wP 9 Kp.retryLeft 3).setPath 9 { live.path 9 with gate := .on, dir := .source, trips := [[.i2t, .soa]] }), by decide +kernel⟩,
    ⟨0, .soa, (live.wr K.lathState 3), by decide +kernel⟩,
    ⟨9, .rcp, live, by decide +kernel⟩⟩

/-- Witnesses for PathFaults. -/
theorem witness_PathFaults_1 :
    (∃ (p : Port) (l : List FetSample) (s : State), bit (s.rP p Kp.ppFlags) 4 = false ∧ l ≠ [] ∧ (s.path p).gate = .on ∧ (s.path
      p).trips = [] ∧ 0 ≤ s.rP p Kp.soaEMax ∧ ((s.rP p Kp.soaEMax * 100 : Int) : Rat) ≤ (s.path p).soaE + (s.meanPfet p l - (s.rP p
      Kp.soaP0 : Int))) ∧
    (∃ (p : Port) (l : List FetSample) (s : State), bit (s.rP p Kp.ppFlags) 4 = false ∧ l ≠ [] ∧ (s.path p).gate = .off) ∧
    (∃ (p : Port) (l : List FetSample) (s : State), bit (s.rP p Kp.ppFlags) 4 = true) ∧
    (∃ (p : Port) (s : State), (s.path p).dsch = true ∧ (s.path p).gate = .off ∧ s.vbusHigh p = true) ∧
    (∃ (p : Port) (s : State), (s.path p).gate = .off ∧ (s.path p).turning = false) :=
  ⟨⟨9, [{ isp := 50000, isn := 0, vbs := -480000000 }], (((live.wP 9 Kp.rshunt 5000).wP 9 Kp.soaEMax 100).setPath 9 { live.path 9 with gate := .on }), by decide +kernel⟩,
    ⟨9, [{ isp := 0, isn := 0, vbs := 0 }], (live.wP 9 Kp.rshunt 5000), by decide +kernel⟩,
    ⟨9, [], (live.wP 9 Kp.ppFlags 16), by decide +kernel⟩,
    ⟨9, ((live.setPath 9 { live.path 9 with dsch := true, gate := .off }).setCmp (winV 9) { live.cmp (winV 9) with l := true }), by decide +kernel⟩,
    ⟨4, live, by decide +kernel⟩⟩

/-- Witnesses for PathModels. -/
theorem witness_PathModels :
    (∃ (p : Port) (x : Nat) (t0 : Int) (s : State), t0 = (ntcTemp x (s.rP p Kp.ntcRnom) (s.rP p Kp.ntcBeta)).getD 1751 ∧ (s.path
      p).warm = false) ∧
    (∃ (p : Port) (x : Nat) (t0 : Int) (s : State), t0 = (ntcTemp x (s.rP p Kp.ntcRnom) (s.rP p Kp.ntcBeta)).getD 1751 ∧ (s.path
      p).warm = true ∧ bit (s.rP p Kp.ppFlags) 0 = false) ∧
    (∃ (p : Port) (l : List FetSample) (m : FetSample) (s : State), bit (s.rP p Kp.ppFlags) 4 = false ∧ (s.path p).gate = .off) ∧
    (∃ (p : Port) (s : State), (s.path p).startWin = true) ∧
    (∃ (p : Port) (m : FetSample) (s : State), 10000 ≤ magnitude (s.sampleI p m)) ∧
    (∃ (p : Port) (m : FetSample) (s : State), magnitude (s.sampleI p m) < 10000) :=
  ⟨⟨9, 32768, 250, (live.wP 9 Kp.ntcBeta 3950), by decide +kernel⟩,
    ⟨9, 32768, 250, ((live.wP 9 Kp.ntcBeta 3950).setPath 9 { live.path 9 with warm := true }), by decide +kernel⟩,
    ⟨9, [], { isp := 0, isn := 0, vbs := 0 }, (live.wP 9 Kp.rshunt 5000), by decide +kernel⟩,
    ⟨8, (live.setPath 8 { live.path 8 with startWin := true }), by decide +kernel⟩,
    ⟨9, { isp := 50000, isn := 0, vbs := -7000 }, (live.wP 9 Kp.rshunt 5000), by decide +kernel⟩,
    ⟨9, { isp := 0, isn := 0, vbs := 0 }, (live.wP 9 Kp.rshunt 5000), by decide +kernel⟩⟩

/-- Witnesses for PathOff. -/
theorem witness_PathOff_0 :
    (∃ (p : Port) (x : Int) (s : State), (s.path p).turning = true ∧ (s.path p).gate = .off ∧ s.rP p Kp.ppState = Pp.off ∧ s.vbusServed
      p = true) ∧
    (∃ (p : Port) (code : Nat) (s : State), (s.path p).retryWait = true ∧ (s.path p).otWait = false ∧ (s.path p).warm = true ∧
      s.sinkRole p = false ∧ (s.setPp p Pp.off).vsetCode p 500 = some code) ∧
    (∃ (p : Port) (s : State), (s.path p).retryWait = false) ∧
    (∃ (p : Port) (s : State), s.rP p Kp.pg = 1) ∧
    (∃ (p : Port) (s : State), s.held p = false ∧ (s.path p).lockout = true ∧ (s.path p).cut = false ∧ (s.path p).safe = false ∧
      (s.path p).force = false ∧ (s.path p).retryWait = false ∧ (s.port p).toDisable = false ∧ s.rP p Kp.role ≠ 3 ∧ (s.tile (tileOf
      p)).feOk = true ∧ s.sec.stat = 7) ∧
    (∃ (p : Port) (s : State), s.held p = false ∧ (s.path p).cut = false ∧ (s.path p).safe = false ∧ (s.path p).lockout = false) :=
  ⟨⟨9, 100, ((((live.wV 2 Kv.seqLen 1).wV 2 Kv.seqEntry 5).setConv 2 { live.conv 2 with run := .running }).setPath 9 { live.path 9 with turning := true }), by decide +kernel⟩,
    ⟨6, 155, (live.setPath 6 { live.path 6 with retryWait := true, warm := true }), by decide +kernel⟩,
    ⟨6, live, by decide +kernel⟩,
    ⟨6, (live.wP 6 Kp.pg 1), by decide +kernel⟩,
    ⟨6, (live.setPath 6 { live.path 6 with lockout := true }), by decide +kernel⟩,
    ⟨6, live, by decide +kernel⟩⟩

/-- Witnesses for PathOff. -/
theorem witness_PathOff_1 :
    (∃ (p : Port) (s : State), s.held p = false ∧ (s.path p).force = true ∧ (s.path p).retrySusp = true ∧ (s.path p).cut = false ∧
      (s.path p).safe = false ∧ (s.path p).lockout = false) ∧
    (∃ (p : Port) (s : State), s.held p = false ∧ (s.path p).force = false) ∧
    (∃ (p : Port) (volt : Bool) (x : Int) (s : State), volt = false ∧ bit (s.rP p Kp.partnerFlags) 4 = false) ∧
    (∃ (p : Port) (volt : Bool) (x : Int) (s : State), volt = true ∧ (s.path p).dsch = true ∧ (s.path p).gate = .off ∧ (s.path
      p).upperWaits = false ∧ bit (s.ctrl p) 1 = false ∧ x < 40000) ∧
    (∃ (p : Port) (s : State), s.rP p Kp.attachState = Att.src ∧ (s.rP p Kp.contractPos ≠ 0 ∨ s.rP p Kp.contract = Ctr.spr) ∧ (s.path
      p).gate = .off) ∧
    (∃ (p : Port) (s : State), s.held p = false ∧ (s.path p).lockout = true ∧ (s.path p).cut = false ∧ (s.path p).safe = false ∧
      (s.port p).toDisable = true) :=
  ⟨⟨6, (live.setPath 6 { live.path 6 with force := true, retrySusp := true }), by decide +kernel⟩,
    ⟨6, live, by decide +kernel⟩,
    ⟨6, false, 12000, live, by decide +kernel⟩,
    ⟨6, true, 39999, (live.setPath 6 { live.path 6 with dsch := true }), by decide +kernel⟩,
    ⟨6, ((live.wP 6 Kp.attachState Att.src).wP 6 Kp.contract Ctr.spr), by decide +kernel⟩,
    ⟨6, ((live.setPath 6 { live.path 6 with lockout := true }).setPort 6 { live.port 6 with toDisable := true }), by decide +kernel⟩⟩

/-- Witnesses for PathOff. -/
theorem witness_PathOff_2 :
    (∃ (p : Port) (s : State), s.held p = true) ∧
    (∃ (p : Port) (x : Int) (s : State), (s.path p).turning = true ∧ (s.path p).gate = .off ∧ s.vbusServed p = false ∧ (s.cmp (winV
      p)).l = false ∧ (s.cmp (winV p)).checking = true ∧ s.rP p Kp.ppState = Pp.off) :=
  ⟨⟨9, (live.wr (K.lathState + 1) 2), by decide +kernel⟩,
    ⟨9, 20, ((live.setPath 9 { live.path 9 with turning := true }).setCmp (winV 9) { live.cmp (winV 9) with checking := true }), by decide +kernel⟩⟩

/-- Witnesses for Comparators. -/
theorem witness_Comparators_0 :
    (∃ (c : Cmp) (x : Int) (p : Port) (s : State), c = winV p ∧ (s.cmp c).checking = false ∧ (s.cmp c).settling = false ∧ s.asleep 4 =
      false ∧ (s.cmp c).noHist = false ∧ s.rC c Kc.loCode ≤ x ∧ x < s.rC c Kc.hiCode - s.rC c Kc.hystH ∧ s.rC c Kc.loCode ≤ s.rC c
      Kc.hiCode ∧ 0 ≤ s.rC c Kc.hystH) ∧
    (∃ (c : Cmp) (x : Int) (s : State), (s.cmp c).checking = true) ∧
    (∃ (c : Cmp) (x : Int) (s : State), (s.cmp c).settling = true ∧ (∀ p : Port, c = winI p → (s.path p).gate ≠ .on) ∧ s.rC c Kc.loCode
      ≤ x ∧ s.rC c Kc.hiCode ≤ x) ∧
    (∃ (c : Cmp) (x : Int) (p : Port) (s : State), c = winI p ∧ (s.cmp c).settling = true ∧ (s.path p).gate = .on) ∧
    (∃ (c : Cmp) (x : Int) (s : State), (s.cmp c).settling = false) ∧
    (∃ (c : Cmp) (s : State), s.rC c Kc.latchClr = 1) :=
  ⟨⟨(winV 9), 100, 9, ((((live.wC (winV 9) Kc.loCode 90).wC (winV 9) Kc.hiCode 200).wC (winV 9) Kc.hystH 10).setCmp (winV 9) { live.cmp 0 with noHist := false, checking := false, settling := false }), by decide +kernel⟩,
    ⟨5, 100, (live.setCmp 5 { live.cmp 5 with checking := true }), by decide +kernel⟩,
    ⟨(winV 9), 300, (((live.wC (winV 9) Kc.loCode 90).wC (winV 9) Kc.hiCode 200).setCmp (winV 9) { live.cmp 0 with settling := true }), by decide +kernel⟩,
    ⟨(winI 9), 0, 9, ((live.setCmp (winI 9) { live.cmp 9 with settling := true }).setPath 9 { live.path 9 with gate := .on }), by decide +kernel⟩,
    ⟨9, 300, (live.setCmp 9 { live.cmp 9 with settling := false }), by decide +kernel⟩,
    ⟨9, (live.wC 9 Kc.latchClr 1), by decide +kernel⟩⟩

/-- Witnesses for Comparators. -/
theorem witness_Comparators_1 :
    (∃ (c : Cmp) (s : State), s.rC c Kc.latchClr = 0) ∧
    (∃ (c : Cmp) (s : State), s.rC c Kc.latchClr = 0) ∧
    (∃ (c : Cmp) (s : State), s.rC c Kc.latchClr = 1) ∧
    (∃ (c : Cmp) (s : State), s.cmpLive c = false) ∧
    (∃ (c : Cmp) (s : State), s.cmpLive c = true) ∧
    (∃ (e : Eng) (q : Fin 4) (v : Bool) (s : State), e.val < 16 ∧ v = true ∧ s.held (Fin.ofNat 64 (4 * e.val + q.val)) = false ∧
      s.cmpLive (winV (Fin.ofNat 64 (4 * e.val + q.val))) = false) :=
  ⟨⟨9, (live.wC 9 Kc.latchClr 0), by decide +kernel⟩,
    ⟨9, (live.wC 9 Kc.latchClr 0), by decide +kernel⟩,
    ⟨9, (live.wC 9 Kc.latchClr 1), by decide +kernel⟩,
    ⟨9, live, by decide +kernel⟩,
    ⟨9, (live.setPath 9 { live.path 9 with gate := .on }), by decide +kernel⟩,
    ⟨2, 1, true, live, by decide +kernel⟩⟩

/-- Witnesses for Comparators. -/
theorem witness_Comparators_2 :
    (∃ (e : Eng) (q : Fin 4) (v : Bool) (s : State), e.val < 16 ∧ v = false ∧ s.held (Fin.ofNat 64 (4 * e.val + q.val)) = false ∧
      s.cmpLive (winI (Fin.ofNat 64 (4 * e.val + q.val))) = true) ∧
    (∃ (e : Eng) (q : Fin 4) (v : Bool) (s : State), e.val < 16 ∧ s.held (Fin.ofNat 64 (4 * e.val + q.val)) = true) ∧
    (∃ (c : Cmp) (o : CheckOut) (x : Int) (p : Port) (s : State), c = winI p ∧ (s.cmp c).checking = true ∧ checkStep o = 0 ∧
      s.power.deg = none ∧ (s.path p).gate ≠ .on) ∧
    (∃ (c : Cmp) (o : CheckOut) (x : Int) (p : Port) (s : State), c = winI p ∧ (s.cmp c).checking = true ∧ checkStep o = 0 ∧
      s.power.deg = none ∧ (s.path p).gate = .on) ∧
    (∃ (c : Cmp) (o : CheckOut) (x : Int) (p : Port) (s : State), c = winI p ∧ (s.cmp c).checking = true ∧ checkStep o ≠ 0 ∧
      s.power.deg = none ∧ (s.path p).safe = false) ∧
    (∃ (c : Cmp) (o : CheckOut) (x : Int) (f : Feed) (s : State), c = winF1 f ∧ (s.cmp c).checking = true ∧ checkStep o = 0 ∧
      s.power.deg = none ∧ (s.feed f).starting = true ∧ (s.cmp (winF0 f)).checking = false ∧ (s.cmp (winF0 f)).l = true ∧ (s.cmp (winF0
      f)).h = false ∧ s.feedReady f = true ∧ s.hs f = 2 ∧ 0 ≤ s.rC c Kc.hystH ∧ s.rC c Kc.loCode ≤ x ∧ x < s.rC c Kc.hiCode - s.rC c
      Kc.hystH ∧ s.rC c Kc.loCode ≤ s.rC c Kc.hiCode) :=
  ⟨⟨2, 1, false, (live.setPath 9 { live.path 9 with gate := .on }), by decide +kernel⟩,
    ⟨2, 1, true, (live.wr (K.lathState + 1) 2), by decide +kernel⟩,
    ⟨(winI 9), { h1 := false, l1 := false, h2 := true, l2 := true, h3 := true, l3 := true }, 0, 9, (live.setCmp (winI 9) { live.cmp 9 with checking := true }), by decide +kernel⟩,
    ⟨(winI 9), { h1 := false, l1 := false, h2 := true, l2 := true, h3 := true, l3 := true }, 0, 9, ((live.setCmp (winI 9) { live.cmp 9 with checking := true }).setPath 9 { live.path 9 with gate := .on }), by decide +kernel⟩,
    ⟨(winI 9), { h1 := true, l1 := false, h2 := true, l2 := true, h3 := true, l3 := true }, 0, 9, (live.setCmp (winI 9) { live.cmp 9 with checking := true }), by decide +kernel⟩,
    ⟨(winF1 0), { h1 := false, l1 := false, h2 := true, l2 := true, h3 := true, l3 := true }, 5, 0, (((((((live.wF 0 Kf.feedEn 1).wF 0 Kf.feedHsState 2).setFeed 0 { live.feed 0 with seat0 := true, seat1 := true, starting := true, vin := 5400 }).wS 0 Ks.stTrigger 0).wS 1 Ks.stTrigger 0).setCmp (winF1 0) { live.cmp 0 with checking := true }).setCmp (winF0 0) { live.cmp 0 with l := true, h := false, checking := false } |>.wC (winF1 0) Kc.hiCode 100), by decide +kernel⟩⟩

/-- Witnesses for Comparators. -/
theorem witness_Comparators_3 :
    (∃ (c : Cmp) (o : CheckOut) (x : Int) (f : Feed) (s : State), c = winF1 f ∧ (s.cmp c).checking = true ∧ checkStep o ≠ 0 ∧
      s.power.deg = none ∧ (s.feed f).starting = true ∧ s.hs f = 2) :=
  ⟨(winF1 0), { h1 := true, l1 := false, h2 := true, l2 := true, h3 := true, l3 := true }, 5, 0, ((((((live.wF 0 Kf.feedEn 1).wF 0 Kf.feedHsState 2).setFeed 0 { live.feed 0 with seat0 := true, seat1 := true, starting := true, vin := 5400 }).wS 0 Ks.stTrigger 0).wS 1 Ks.stTrigger 0).setCmp (winF1 0) { live.cmp 0 with checking := true }), by decide +kernel⟩

/-- Witnesses for ConverterCommands. -/
theorem witness_ConverterCommands_0 :
    (∃ (s : State), (namedConvs s).any (fun c => !refSettled s c) = true) ∧
    (∃ (s : State), (namedConvs s).any (fun c => !refSettled s c) = false ∧ (namedConvs s).any (fun c => decide ((s.conv c).cal ≠
      .none)) = true) ∧
    (∃ (s : State), (namedConvs s).any (fun c => !refSettled s c) = false ∧ (namedConvs s).any (fun c => decide ((s.conv c).cal ≠
      .none)) = false) ∧
    (∃ (s : State), (namedConvs s).any (fun c => !refSettled s c) = true) ∧
    (∃ (s : State), (namedConvs s).any (fun c => !refSettled s c) = false) ∧
    (∃ (s : State), (namedConvs s).any (fun c => !imageOk ((s.useText (keyV c Kv.calImage)).rdB (keyV c Kv.calImage))) = true) :=
  ⟨⟨((live.wr K.cvMask 1).wr K.refSettled 0), by decide +kernel⟩,
    ⟨(((live.wr K.cvMask 1).wr K.refSettled 1).setConv 0 { live.conv 0 with cal := .running }), by decide +kernel⟩,
    ⟨((live.wr K.cvMask 3).wr K.refSettled 1), by decide +kernel⟩,
    ⟨((live.wr K.cvMask 1).wr K.refSettled 0), by decide +kernel⟩,
    ⟨((live.wr K.cvMask 3).wr K.refSettled 1), by decide +kernel⟩,
    ⟨(live.wr K.cvMask 3), by decide +kernel⟩⟩

/-- Witnesses for ConverterCommands. -/
theorem witness_ConverterCommands_1 :
    (∃ (s : State), (namedConvs s).any (fun c => !imageOk ((s.useText (keyV c Kv.calImage)).rdB (keyV c Kv.calImage))) = false) ∧
    (∃ (c : Conv) (s : State), (s.conv c).cal = .pending ∧ (s.conv c).atBoundary = true ∧ (s.conv c).inj = none ∧ s.odNew = []) ∧
    (∃ (c : Conv) (s : State), (s.conv c).cal = .none) ∧
    (∃ (c : Conv) (f : CalFactors) (s : State), (s.conv c).cal = .running ∧ calGood f = true ∧ s.odNew = [] ∧ (s.conv c).loading =
      false) ∧
    (∃ (c : Conv) (f : CalFactors) (s : State), (s.conv c).cal = .running ∧ calGood f = false ∧ s.odNew = [] ∧ (s.conv c).loading =
      false) ∧
    (∃ (src : Nat) (s : State), s.time.due.contains (.pass src) = true) :=
  ⟨⟨(((live.wr K.cvMask 1).wrB (keyV 0 Kv.calImage) (calImage live 0)).setConv 0 { live.conv 0 with run := .running }), by decide +kernel⟩,
    ⟨3, (live.setConv 3 { live.conv 3 with cal := .pending }), by decide +kernel⟩,
    ⟨3, live, by decide +kernel⟩,
    ⟨3, { offset := [1, 2, 3, 4, 5], gain := List.replicate 5 2147483648, trim := List.replicate 12 1 }, (live.setConv 3 { live.conv 3 with cal := .running, calWas := .waiting }), by decide +kernel⟩,
    ⟨3, { offset := [300], gain := [], trim := [] }, (live.setConv 3 { live.conv 3 with cal := .running, calWas := .waiting }), by decide +kernel⟩,
    ⟨0x10, { (live.wV 3 Kv.seqTrig 0x10).setConv 3 { live.conv 3 with run := .waiting } with time := { live.time with due := [.pass 0x10] } }, by decide +kernel⟩⟩

/-- Witnesses for ConverterCommands. -/
theorem witness_ConverterCommands_2 :
    (∃ (src : Nat) (s : State), s.time.due.contains (.pass src) = false) ∧
    (∃ (src : Nat) (s : State), s.time.due.contains (.pass src) = false) ∧
    (∃ (c : Conv) (s : State), (s.conv c).run = .delay) ∧
    (∃ (c : Conv) (s : State), (s.conv c).run = .stopped) ∧
    (∃ (c : Conv) (s : State), (s.conv c).run = .running ∧ passMade s c = true ∧ s.asleep 1 = false ∧ s.odNew = [] ∧ (s.conv c).loading
      = false ∧ (s.conv c).stopping = true) ∧
    (∃ (c : Conv) (s : State), (s.conv c).run = .running ∧ passMade s c = true ∧ s.asleep 1 = false ∧ s.odNew = [] ∧ (s.conv c).loading
      = false ∧ (s.conv c).stopping = false ∧ s.rV c Kv.seqTrig = 1 ∧ (s.conv c).cal = .none) :=
  ⟨⟨0x10, live, by decide +kernel⟩,
    ⟨0xF, live, by decide +kernel⟩,
    ⟨3, (live.setConv 3 { live.conv 3 with run := .delay }), by decide +kernel⟩,
    ⟨3, (live.setConv 3 { live.conv 3 with run := .stopped }), by decide +kernel⟩,
    ⟨3, ((live.wV 3 Kv.seqLen 0).setConv 3 { live.conv 3 with run := .running, stopping := true }), by decide +kernel⟩,
    ⟨3, (((live.wV 3 Kv.seqTrig 1).wV 3 Kv.seqLen 1).setConv 3 { live.conv 3 with run := .running, pos := { entry := 1, left := none, made := 0 } }), by decide +kernel⟩⟩

/-- Witnesses for ConverterCommands. -/
theorem witness_ConverterCommands_3 :
    (∃ (c : Conv) (s : State), (s.conv c).run = .stopped) ∧
    (∃ (c : Conv) (s : State), passMade s c = false) :=
  ⟨⟨3, (live.setConv 3 { live.conv 3 with run := .stopped }), by decide +kernel⟩,
    ⟨3, (live.wV 3 Kv.seqLen 1), by decide +kernel⟩⟩

/-- Witnesses for ConverterResults. -/
theorem witness_ConverterResults_0 :
    (∃ (c : Conv) (room : Nat) (w : Nat) (s : State), w = (s.tqReg c 0x40).toNat ∧ badEntry c w = false ∧ dropCause s c (eCh w) (eGain
      w) (eFilt w) room = none) ∧
    (∃ (c : Conv) (room : Nat) (w : Nat) (k : Nat) (s : State), w = (s.tqReg c 0x40).toNat ∧ badEntry c w = false ∧ dropCause s c (eCh
      w) (eGain w) (eFilt w) room = some k) ∧
    (∃ (c : Conv) (room : Nat) (w : Nat) (s : State), s.time.due.contains (.inj c) = true ∧ w = (s.rV c Kv.injEntry).toNat ∧ badEntry c
      w = false ∧ dropCause s c (eCh w) (eGain w) (eFilt w) room = none) ∧
    (∃ (c : Conv) (room : Nat) (s : State), s.time.due.contains (.inj c) = false) ∧
    (∃ (c : Conv) (x : Int) (cyc : Nat) (sense : Int) (w : Nat) (e : Nat) (s : State), s.asleep 1 = false ∧ onCtl c = true ∧ (s.conv
      c).cal ≠ .running ∧ (s.conv c).inj = none ∧ (s.conv c).run = .running ∧ (s.conv c).first = false ∧ (s.conv c).pos =
      { entry := e, left := some 0, made := 0 } ∧ (s.conv c).mir = (s.conv c).pos ∧ (e : Int) < s.rV c Kv.seqLen ∧ e < 32 ∧ w =
      s.entryWord c e ∧ eCh w = 0x15 ∧ eConv w = 1 ∧ eDest w = false ∧ (s.conv (partner c)).chk = none ∧ (s.conv c).chk = none ∧
      (s.conv c).withheld = none ∧ overRange (idealCode x (fullScale c 0x15) (2 ^ eGain w)) = false) ∧
    (∃ (c : Conv) (x : Int) (cyc : Nat) (sense : Int) (w : Nat) (e : Nat) (s : State), s.asleep 1 = false ∧ onCtl c = true ∧ (s.conv
      c).cal ≠ .running ∧ (s.conv c).inj = none ∧ (s.conv c).run = .running ∧ (s.conv c).first = false ∧ (s.conv c).pos =
      { entry := e, left := some 0, made := 0 } ∧ (s.conv c).mir = (s.conv c).pos ∧ (e : Int) < s.rV c Kv.seqLen ∧ e < 32 ∧ w =
      s.entryWord c e ∧ eCh w = 0x15 ∧ eConv w = 1 ∧ eDest w = false ∧ (s.conv (partner c)).chk = none ∧ (s.conv c).chk = none ∧
      (s.conv c).withheld = none ∧ overRange (idealCode x (fullScale c 0x15) (2 ^ eGain w)) = true) :=
  ⟨⟨3, 100, 5, ((live.setTqReg 3 0x40 5).wr (K.refSettled + 1) 1), by decide +kernel⟩,
    ⟨3, 100, 5, 3, ((live.setTqReg 3 0x40 5).wr (K.refSettled + 1) 0), by decide +kernel⟩,
    ⟨3, 100, 5, ({ ((live.wV 3 Kv.injTrig 0x10).wV 3 Kv.injEntry 5).wr (K.refSettled + 1) 1 with time := { live.time with due := [.inj 3] } }), by decide +kernel⟩,
    ⟨3, 100, live, by decide +kernel⟩,
    ⟨16, 1000, 7, 0, 0x15, 0, ((((((live.wV 16 Kv.seqLen 2).wV 16 Kv.seqEntry 0x15).setConv 16 { live.conv 16 with run := .running, first := false, pos := { entry := 0, left := some 0, made := 0 }, mir := { entry := 0, left := some 0, made := 0 } })))), by decide +kernel⟩,
    ⟨16, 90000000, 7, 0, 0x15, 0, ((((((live.wV 16 Kv.seqLen 2).wV 16 Kv.seqEntry 0x15).setConv 16 { live.conv 16 with run := .running, first := false, pos := { entry := 0, left := some 0, made := 0 }, mir := { entry := 0, left := some 0, made := 0 } })))), by decide +kernel⟩⟩

/-- Witnesses for ConverterResults. -/
theorem witness_ConverterResults_1 :
    (∃ (c : Conv) (x : Int) (cyc : Nat) (sense : Int) (r : InjReq) (n : Int × Bool) (s : State), s.asleep 1 = false ∧ onCtl c = true ∧
      (s.conv c).cal ≠ .running ∧ (s.conv (partner c)).chk = none ∧ (s.conv c).inj = some r ∧ (s.conv c).injLeft = some 0 ∧ r.queue =
      false ∧ n = sampleCode s c r.ch r.gain x ∧ overRange (idealCode (channelInput s c r.ch (2 ^ r.gain) x) (fullScale c r.ch) (2 ^
      r.gain)) = false) ∧
    (∃ (c : Conv) (x : Int) (cyc : Nat) (sense : Int) (s : State), s.asleep 1 = true) ∧
    (∃ (c : Conv) (e : TqEntry) (l : List TqEntry) (s : State), nextLane s = some c ∧ (s.conv c).lane = [e] ++ l ∧ (s.conv c).dropN =
      0) ∧
    (∃ (s : State), nextLane s = none) ∧
    (∃ (c : Conv) (e : TqEntry) (l : List TqEntry) (s : State), (s.conv c).queue = [e] ++ l) ∧
    (∃ (c : Conv) (s : State), (s.conv c).queue = []) :=
  ⟨⟨16, 1000, 7, 0, { ch := 0x15, gain := 0, filt := 0, queue := false }, sampleCode (live.setConv 16 { live.conv 16 with inj := some { ch := 0x15, gain := 0, filt := 0, queue := false }, injLeft := some 0 }) 16 0x15 0 1000, (live.setConv 16 { live.conv 16 with inj := some { ch := 0x15, gain := 0, filt := 0, queue := false }, injLeft := some 0 }), by decide +kernel, by decide +kernel, by decide +kernel, by decide +kernel, by decide +kernel, by decide +kernel, by decide +kernel, rfl, by decide +kernel⟩,
    ⟨16, 5, 7, 0, { live with power := { live.power with phase := .low, target := 5 } }, by decide +kernel⟩,
    ⟨3, (marker 1 5), ([]), (live.setConv 3 { live.conv 3 with lane := [marker 1 5] }), by decide +kernel⟩,
    ⟨live, by decide +kernel⟩,
    ⟨3, (marker 1 5), ([]), (live.setConv 3 { live.conv 3 with queue := [marker 1 5] }), by decide +kernel⟩,
    ⟨3, live, by decide +kernel⟩⟩

/-- Witnesses for Reference. -/
theorem witness_Reference :
    (∃ (b : Fin 9) (s : State), s.rd (K.refbufEn + b.val) = 1 ∧ s.asleep 3 = false) ∧
    (∃ (b : Fin 9) (s : State), s.rd (K.refbufEn + b.val) = 0) ∧
    (∃ (c : Conv) (s : State), (s.conv c).run = .running) ∧
    (∃ (c : Conv) (s : State), (s.conv c).run = .stopped) :=
  ⟨⟨2, (live.wr (K.refbufEn + 2) 1), by decide +kernel⟩,
    ⟨2, (live.wr (K.refbufEn + 2) 0), by decide +kernel⟩,
    ⟨3, (live.setConv 3 { live.conv 3 with run := .running }), by decide +kernel⟩,
    ⟨3, (live.setConv 3 { live.conv 3 with run := .stopped }), by decide +kernel⟩⟩

/-- Witnesses for MeteringAndSkims. -/
theorem witness_MeteringAndSkims_0 :
    (∃ (x : Chan) (s : State), nextSample (s.met ⟨x.val, by omega⟩) (s.rd K.interpMax) = none) ∧
    (∃ (x : Chan) (q : Fin 100) (b : Sample) (s : State), q.val = x.val ∧ nextSample (s.met q) (s.rd K.interpMax) = some (some b) ∧
      (s.met q).last = none) ∧
    (∃ (x : Chan) (q : Fin 100) (b : Sample) (s : State), q.val = x.val ∧ nextSample (s.met q) (s.rd K.interpMax) = some (some b)) ∧
    (∃ (x : Chan) (q : Fin 100) (s : State), q.val = x.val ∧ nextSample (s.met q) (s.rd K.interpMax) = some none) ∧
    (∃ (w : Fin 3) (n : Nat) (s : State), w = 0 ∧ windowDue s w = true ∧ n = s.cnvAt (s.tb / 10000 * 10000)) ∧
    (∃ (w : Fin 3) (s : State), windowDue s w = false) :=
  ⟨⟨9, live, by decide +kernel⟩,
    ⟨9, 9, { t := 50, v := 7, i := 9, p := 0 }, ((live.wr K.interpMax 100).setMet 9 { live.met 9 with vs := [(40, 7), (60, 7)], cs := [(50, 9)] }), by decide +kernel⟩,
    ⟨9, 9, { t := 50, v := 7, i := 9, p := 0 }, ((live.wr K.interpMax 100).setMet 9 { live.met 9 with vs := [(40, 7), (60, 7)], cs := [(50, 9)] }), by decide +kernel⟩,
    ⟨9, 9, ((live.wr K.interpMax 10).setMet 9 { live.met 9 with vs := [(40, 7), (60, 7)], cs := [(50, 9)] }), by decide +kernel⟩,
    ⟨0, 8000, { live with tb := 10000, time := { live.time with edges := 10000 } }, by decide +kernel⟩,
    ⟨0, live, by decide +kernel⟩⟩

/-- Witnesses for MeteringAndSkims. -/
theorem witness_MeteringAndSkims_1 :
    (∃ (s : State), skimBusy s = false) ∧
    (∃ (s : State), skimBusy s = true) ∧
    (∃ (s : State), skimBusy s = false ∧ s.tb + 100 ≤ (s.rd K.skimT).toNat) ∧
    (∃ (s : State), skimBusy s = false ∧ (s.rd K.skimT).toNat < s.tb + 100) ∧
    (∃ (s : State), skimBusy s = true) ∧
    (∃ (s : State), s.rd K.skimState = 1) :=
  ⟨⟨live, by decide +kernel⟩,
    ⟨(live.wr K.skimState 1), by decide +kernel⟩,
    ⟨(live.wr K.skimT 500), by decide +kernel⟩,
    ⟨{ live.wr K.skimT 500 with tb := 401 }, by decide +kernel⟩,
    ⟨(live.wr K.skimState 2), by decide +kernel⟩,
    ⟨(live.wr K.skimState 1), by decide +kernel⟩⟩

/-- Witnesses for MeteringAndSkims. -/
theorem witness_MeteringAndSkims_2 :
    (∃ (s : State), s.rd K.skimState = 2) ∧
    (∃ (s : State), s.rd K.skimState = 1 ∧ s.recs.skimT ≤ s.tb ∧ s.odNew = []) ∧
    (∃ (s : State), (s.rd K.skimState ≠ 1 ∨ s.tb < s.recs.skimT)) ∧
    (∃ (s : State), s.rd K.skimState = 2 ∧ bankDone s (skimRecord s) = true) ∧
    (∃ (s : State), bankDone s (skimRecord s) = false) ∧
    (∃ (s : State), s.rd K.skimState = 1) :=
  ⟨⟨(live.wr K.skimState 2), by decide +kernel⟩,
    ⟨(live.wr K.skimState 1), by decide +kernel⟩,
    ⟨live, by decide +kernel⟩,
    ⟨(live.wr K.skimState 2), by decide +kernel⟩,
    ⟨((live.wr K.skimState 2).setMet 9 { live.met 9 with cuts := [{ t := 5, kind := .record 0 0 }] }), by decide +kernel⟩,
    ⟨(live.wr K.skimState 1), by decide +kernel⟩⟩

/-- Witnesses for MeteringAndSkims. -/
theorem witness_MeteringAndSkims_3 :
    (∃ (s : State), s.rd K.skimState = 0) ∧
    (∃ (s : State), s.rd K.skimState = 1) :=
  ⟨⟨live, by decide +kernel⟩,
    ⟨(live.wr K.skimState 1), by decide +kernel⟩⟩

/-- Witnesses for Records. -/
theorem witness_Records_0 :
    (∃ (s : State), recWaits s 2 = false ∧ tget s.recs.wait 2 = none ∧ s.odNew = []) ∧
    (∃ (s : State), recWaits s 2 = true) ∧
    (∃ (s : State), s.rd K.recPeriod = 0 ∧ s.odNew = []) ∧
    (∃ (s : State), s.rd K.recPeriod ≠ 0 ∧ s.recs.interval < s.tb / ((s.rd K.recPeriod).toNat * 100000000) * ((s.rd K.recPeriod).toNat
      * 100000000) ∧ recWaits s 1 = true) ∧
    (∃ (n : Nat) (s : State), n = s.tb / ((s.rd K.recPeriod).toNat * 100000000) * ((s.rd K.recPeriod).toNat * 100000000) ∧
      s.recs.interval < n ∧ recWaits s 1 = false ∧ tget s.recs.wait 1 = none ∧ s.odNew = []) ∧
    (∃ (s : State), 0 < s.rd K.recPeriod ∧ s.tb / ((s.rd K.recPeriod).toNat * 100000000) * ((s.rd K.recPeriod).toNat * 100000000) ≤
      s.recs.interval) :=
  ⟨⟨live, by decide +kernel⟩,
    ⟨{ live with recs := { live.recs with next := tset live.recs.next 2 (some { chans := [], seq := 1, tCut := 0, clk := 0, accStart := 0, lastPps := 0, op := 0, flags := 0, skimSeq := 0 }) } }, by decide +kernel⟩,
    ⟨(live.wr K.recPeriod 0), by decide +kernel⟩,
    ⟨{ live.wr K.recPeriod 60 with tb := 6000000000, recs := { live.recs with next := tset live.recs.next 1 (some { chans := [], seq := 5, tCut := 9, clk := 0, accStart := 0, lastPps := 0, op := 0, flags := 0, skimSeq := 0 }) } }, by decide +kernel⟩,
    ⟨6000000000, { live.wr K.recPeriod 60 with tb := 6000000005 }, by decide +kernel⟩,
    ⟨(live.wr K.recPeriod 60), by decide +kernel⟩⟩

/-- Witnesses for Records. -/
theorem witness_Records_1 :
    (∃ (k : Fin 3) (r : RecCut) (d : List Nat) (s : State), s.recs.signing = some k ∧ tget s.recs.wait k = some r ∧ deviceSeed s = some
      d ∧ bankDone s r.seq = true ∧ k = 1 ∧ s.rd K.skimState = 0) ∧
    (∃ (k : Fin 3) (r : RecCut) (s : State), tget s.recs.wait k = some r ∧ bankDone s r.seq = false) ∧
    (∃ (k : Fin 3) (s : State), s.recs.signing = none) ∧
    (∃ (k : Fin 3) (s : State), s.recs.signing = some k ∧ k = 1 ∧ s.rd K.skimState = 0) ∧
    (∃ (k : Fin 3) (s : State), s.recs.signing = none) :=
  ⟨⟨1, { chans := [], seq := 5, tCut := 9, clk := 0, accStart := 0, lastPps := 0, op := 0, flags := 0, skimSeq := 0 }, ([1, 2, 3, 4, 5, 6, 7, 8]), { live with otpShadow := [(0x27, some 1), (0x28, some 2), (0x29, some 3), (0x2A, some 4), (0x2B, some 5), (0x2C, some 6), (0x2D, some 7), (0x2E, some 8)], recs := { live.recs with signing := some 1, wait := tset live.recs.wait 1 (some { chans := [], seq := 5, tCut := 9, clk := 0, accStart := 0, lastPps := 0, op := 0, flags := 0, skimSeq := 0 }) } }, by decide +kernel⟩,
    ⟨1, { chans := [], seq := 5, tCut := 9, clk := 0, accStart := 0, lastPps := 0, op := 0, flags := 0, skimSeq := 0 }, { live.setMet 9 { live.met 9 with cuts := [{ t := 9, kind := .record 1 5 }] } with recs := { live.recs with signing := some 1, wait := tset live.recs.wait 1 (some { chans := [], seq := 5, tCut := 9, clk := 0, accStart := 0, lastPps := 0, op := 0, flags := 0, skimSeq := 0 }) } }, by decide +kernel⟩,
    ⟨1, live, by decide +kernel⟩,
    ⟨1, { live with recs := { live.recs with signing := some 1 } }, by decide +kernel⟩,
    ⟨1, live, by decide +kernel⟩⟩

/-- Witnesses for RailSequencer. -/
theorem witness_RailSequencer_0 :
    (∃ (s : State), s.coat.held = true) ∧
    (∃ (k : Nat) (l : List Nat) (s : State), s.coat.held = false ∧ s.seqState = Seq.off ∧ usedPhases s = [k] ++ l ∧ (phaseRails s
      k).any (fun n => decide (s.rR n Kr.railPg ≠ 1)) = true) ∧
    (∃ (s : State), s.coat.held = false ∧ s.seqState = Seq.fault) ∧
    (∃ (k : Nat) (s : State), s.coat.held = false ∧ s.seqState = Seq.up ∧ highestOn s 0 = some k ∧ s.odNew = []) ∧
    (∃ (s : State), s.coat.held = false ∧ s.seqState = Seq.off) ∧
    (∃ (s : State), s.coat.held = false ∧ s.seqState = Seq.fault ∧ s.odNew = []) :=
  ⟨⟨{ live with coat := { live.coat with held := true } }, by decide +kernel⟩,
    ⟨2, ([]), { live.wR 5 Kr.railPhase 2 with coat := { live.coat with held := false } }, by decide +kernel⟩,
    ⟨{ live.wr K.seqState 5 with coat := { live.coat with held := false } }, by decide +kernel⟩,
    ⟨2, { (live.wR 5 Kr.railPhase 2).wr K.seqState 2 |>.setRail 5 { live.rail 5 with en := true } with coat := { live.coat with held := false } }, by decide +kernel⟩,
    ⟨{ live.wr K.seqState 0 with coat := { live.coat with held := false } }, by decide +kernel⟩,
    ⟨{ (live.wr K.seqState 5).wR 5 Kr.railPhase 2 |>.wR 5 Kr.railState 9 with coat := { live.coat with held := false }, coatFault := true }, by decide +kernel⟩⟩

/-- Witnesses for RailSequencer. -/
theorem witness_RailSequencer_1 :
    (∃ (s : State), s.coat.held = false ∧ s.seqState = Seq.faultDown) ∧
    (∃ (k : Nat) (l : List Nat) (s : State), s.coat.held = false ∧ s.seqState = Seq.off ∧ usedPhases s = [k] ++ l ∧ (phaseRails s
      k).any (fun n => decide (s.rR n Kr.railPg ≠ 1)) = true) ∧
    (∃ (s : State), s.coat.held = false ∧ s.seqState = Seq.poweringDown) ∧
    (∃ (k : Nat) (l : List Nat) (s : State), s.coat.held = false ∧ s.coat.autoRan = false ∧ s.rd K.seqAuto = 1 ∧ s.seqState = Seq.off ∧
      usedPhases s = [k] ++ l ∧ (phaseRails s k).any (fun n => decide (s.rR n Kr.railPg ≠ 1)) = true) ∧
    (∃ (s : State), s.coat.held = false ∧ s.coat.autoRan = false ∧ s.rd K.seqAuto = 0) ∧
    (∃ (k : Nat) (l : List Nat) (s : State), s.seqState = Seq.fault ∧ 0 < s.rd K.restartsLeft ∧ s.rd K.autoRestart ≠ 0 ∧ s.odNew = [] ∧
      usedPhases s = [k] ++ l ∧ (phaseRails s k).any (fun n => decide (s.rR n Kr.railPg ≠ 1)) = true) :=
  ⟨⟨{ live.wr K.seqState 4 with coat := { live.coat with held := false } }, by decide +kernel⟩,
    ⟨2, ([]), { live.wR 5 Kr.railPhase 2 with coat := { live.coat with held := false } }, by decide +kernel⟩,
    ⟨{ live.wr K.seqState 3 with coat := { live.coat with held := false } }, by decide +kernel⟩,
    ⟨2, ([]), { (live.wR 5 Kr.railPhase 2).wr K.seqAuto 1 with coat := { live.coat with held := false } }, by decide +kernel⟩,
    ⟨{ live.wr K.seqAuto 0 with coat := { live.coat with held := false } }, by decide +kernel⟩,
    ⟨2, ([]), ((((live.wR 5 Kr.railPhase 2).wr K.seqState 5).wr K.restartsLeft 2).wr K.autoRestart 3), by decide +kernel⟩⟩

/-- Witnesses for RailSequencer. -/
theorem witness_RailSequencer_2 :
    (∃ (s : State), s.rd K.restartsLeft = 0) ∧
    (∃ (s : State), s.seqState = Seq.up) ∧
    (∃ (s : State), s.seqState = Seq.off) ∧
    (∃ (k : Nat) (s : State), s.coat.phaseDone = true ∧ s.seqState = Seq.poweringUp ∧ (usedPhases s).find? (fun (j : Nat) => decide
      (s.rd K.seqPhase < (j : Int))) = some k ∧ (phaseRails s k).any (fun n => decide (s.rR n Kr.railPg ≠ 1)) = true) ∧
    (∃ (k : Nat) (s : State), s.coat.phaseDone = true ∧ s.seqState = Seq.poweringDown ∧ nextDown s = some k) ∧
    (∃ (s : State), s.coat.phaseDone = false) :=
  ⟨⟨((live.wr K.seqState 5).wr K.restartsLeft 0), by decide +kernel⟩,
    ⟨(live.wr K.seqState 2), by decide +kernel⟩,
    ⟨live, by decide +kernel⟩,
    ⟨3, { ((live.wR 5 Kr.railPhase 2).wR 6 Kr.railPhase 3).wr K.seqState 1 |>.wr K.seqPhase 2 with coat := { live.coat with phaseDone := true } }, by decide +kernel⟩,
    ⟨2, { ((live.wR 5 Kr.railPhase 2).wR 6 Kr.railPhase 3).wr K.seqState 3 |>.wr K.seqPhase 3 with coat := { live.coat with phaseDone := true } }, by decide +kernel⟩,
    ⟨live, by decide +kernel⟩⟩

/-- Witnesses for RailSequencer. -/
theorem witness_RailSequencer_3 :
    (∃ (s : State), s.seqState = Seq.poweringDown ∧ s.coat.phaseDone = false ∧ (phaseRails s (s.rd K.seqPhase).toNat).all (fun n =>
      !(s.rail n).en && belowOff s n) = true ∧ (phaseRails s (s.rd K.seqPhase).toNat).all (fun n => decide (s.railState n ≠
      Rs.falling)) = true ∧ (nextDown s).isSome = true) ∧
    (∃ (s : State), s.seqState = Seq.poweringDown ∧ s.coat.phaseDone = false ∧ s.coat.cutAfter = false ∧ s.odNew = [] ∧ (phaseRails s
      (s.rd K.seqPhase).toNat).all (fun n => !(s.rail n).en && belowOff s n) = true ∧ (∀ n : Rail, (s.rail n).en = false) ∧ nextDown s
      = none) ∧
    (∃ (s : State), s.seqState = Seq.up) ∧
    (∃ (s : State), s.seqState = Seq.poweringDown ∧ s.coat.phaseDone = false ∧ (nextDown s).isSome = true ∧ s.odNew = []) ∧
    (∃ (s : State), s.seqState = Seq.up) ∧
    (∃ (ftStarts : Bool) (s : State), pwrgdKeeps s = true ∧ (selRails s).all (fun n => decide ((s.rail n).ft = .idle)) = true ∧
      ftStarts = false) :=
  ⟨⟨((live.wR 6 Kr.railPhase 2).wr K.seqState 3 |>.wr K.seqPhase 3), by decide +kernel⟩,
    ⟨((live.wr K.seqState 3).wr K.seqPhase 0), by decide +kernel⟩,
    ⟨(live.wr K.seqState 2), by decide +kernel⟩,
    ⟨(((live.wR 6 Kr.railPhase 2).wR 5 Kr.railPhase 3).wr K.seqState 3 |>.wr K.seqPhase 3), by decide +kernel⟩,
    ⟨(live.wr K.seqState 2), by decide +kernel⟩,
    ⟨false, (live.wr K.seqState 2), by decide +kernel⟩⟩

/-- Witnesses for RailSequencer. -/
theorem witness_RailSequencer_4 :
    (∃ (ftStarts : Bool) (s : State), ftStarts = true) ∧
    (∃ (ftStarts : Bool) (s : State), pwrgdKeeps s = false) ∧
    (∃ (s : State), (s.coat.held = true ∨ s.coat.autoRan = true)) :=
  ⟨⟨true, (live.wr K.seqState 2), by decide +kernel⟩,
    ⟨false, live, by decide +kernel⟩,
    ⟨live, by decide +kernel⟩⟩

/-- Witnesses for Rails. -/
theorem witness_Rails_0 :
    (∃ (n : Rail) (s : State), s.railState n = Rs.waitDelay ∧ s.seqState = Seq.poweringUp) ∧
    (∃ (n : Rail) (s : State), s.seqState = Seq.off) ∧
    (∃ (n : Rail) (s : State), (s.rail n).en = true ∧ (s.rail n).hadPg = false ∧ s.rR n Kr.faultAction = 0) ∧
    (∃ (n : Rail) (s : State), (s.rail n).en = true ∧ (s.rail n).hadPg = false ∧ s.rR n Kr.faultAction = 1 ∧ s.rd K.ffValid = 0 ∧
      s.coat.ffNew = none ∧ s.recorder.powerFail = false) ∧
    (∃ (n : Rail) (s : State), (s.rail n).hadPg = true) ∧
    (∃ (n : Rail) (ftStarts : Bool) (s : State), (s.rail n).en = true ∧ railInside s n = true ∧ (s.rail n).ft = .idle ∧ s.rR n
      Kr.railPg = 0 ∧ ftStarts = false ∧ s.seqState = Seq.up ∧ (s.rail n).wide = false) :=
  ⟨⟨5, ((live.wR 5 Kr.railState 2).wr K.seqState 1), by decide +kernel⟩,
    ⟨5, live, by decide +kernel⟩,
    ⟨5, ((live.wR 5 Kr.faultAction 0).setRail 5 { live.rail 5 with en := true }), by decide +kernel⟩,
    ⟨5, ((live.wR 5 Kr.faultAction 1).setRail 5 { live.rail 5 with en := true }), by decide +kernel⟩,
    ⟨5, (live.setRail 5 { live.rail 5 with hadPg := true }), by decide +kernel⟩,
    ⟨5, false, ((live.wr K.seqState 2).setRail 5 { live.rail 5 with en := true } |>.setCmp (winL 5) { live.cmp 0 with l := true }), by decide +kernel⟩⟩

/-- Witnesses for Rails. -/
theorem witness_Rails_1 :
    (∃ (n : Rail) (ftStarts : Bool) (s : State), (s.rail n).en = true ∧ railInside s n = true ∧ (s.rail n).ft = .idle ∧ s.rR n
      Kr.railPg = 0 ∧ ftStarts = true) ∧
    (∃ (n : Rail) (s : State), (s.rail n).ft = .running ∧ (s.cmp (winL n)).l = false ∧ s.rR n Kr.faultAction = 0) ∧
    (∃ (n : Rail) (s : State), (s.rail n).ft = .running ∧ (s.cmp (winL n)).l = false ∧ s.rR n Kr.faultAction = 3 ∧ s.seqState =
      Seq.faultDown ∧ s.railUsed n = true ∧ s.odNew = []) ∧
    (∃ (n : Rail) (s : State), (s.rail n).ft = .idle) ∧
    (∃ (n : Rail) (s : State), (s.rail n).ft = .held) ∧
    (∃ (n : Rail) (s : State), s.seqState = Seq.poweringDown ∧ (s.rail n).en = true ∧ s.rd K.seqPhase ≤ s.rR n Kr.railPhase ∧
      (s.coat.downTo : Int) ≤ s.rR n Kr.railPhase ∧ s.odNew = []) :=
  ⟨⟨5, true, (live.setRail 5 { live.rail 5 with en := true } |>.setCmp (winL 5) { live.cmp 0 with l := true }), by decide +kernel⟩,
    ⟨5, ((live.wR 5 Kr.faultAction 0).setRail 5 { live.rail 5 with ft := .running }), by decide +kernel⟩,
    ⟨5, ((((live.wR 5 Kr.faultAction 3).wR 5 Kr.railPhase 2).wr K.seqState 4).setRail 5 { live.rail 5 with ft := .running, en := true }), by decide +kernel⟩,
    ⟨5, live, by decide +kernel⟩,
    ⟨5, (live.setRail 5 { live.rail 5 with ft := .held }), by decide +kernel⟩,
    ⟨5, (((live.wR 5 Kr.railPhase 2).wr K.seqState 3).wr K.seqPhase 2 |>.setRail 5 { live.rail 5 with en := true }), by decide +kernel⟩⟩

/-- Witnesses for Rails. -/
theorem witness_Rails_2 :
    (∃ (n : Rail) (s : State), s.seqState = Seq.up) ∧
    (∃ (n : Rail) (m : Fin 3) (s : State), s.rR n Kr.railPg = 0) ∧
    (∃ (n : Rail) (m : Fin 3) (s : State), s.railUsed n = true ∧ s.rR n Kr.railPg = 1 ∧ s.seqState = Seq.up ∧ s.rR n Kr.mgnMode = 0 ∧ m
      = 1 ∧ railAvg s n = none) ∧
    (∃ (n : Rail) (m : Fin 3) (s : State), s.railUsed n = true ∧ s.rR n Kr.railPg = 1 ∧ s.seqState = Seq.up ∧ m = 0 ∧ railAvg s n =
      none) ∧
    (∃ (n : Rail) (v : Int) (s : State), s.rR n Kr.mgnMode = 2 ∧ marginRuns s n = true ∧ s.rR n Kr.mgnStatus ≠ 3 ∧ railAvg s n = some v
      ∧ v < 1000 * s.rR n Kr.mgnTarget ∧ s.rR n Kr.mgnCodeNow < 511 ∧ -514 < s.rR n Kr.mgnCodeNow) ∧
    (∃ (n : Rail) (s : State), s.rR n Kr.mgnMode = 0) :=
  ⟨⟨5, (live.wr K.seqState 2), by decide +kernel⟩,
    ⟨5, 1, live, by decide +kernel⟩,
    ⟨5, 1, ((((live.wR 5 Kr.railPhase 2).wR 5 Kr.railPg 1).wr K.seqState 2).wR 5 Kr.mgnCode 7), by decide +kernel⟩,
    ⟨5, 0, ((((live.wR 5 Kr.railPhase 2).wR 5 Kr.railPg 1).wr K.seqState 2).wR 5 Kr.mgnMode 1), by decide +kernel⟩,
    ⟨5, 1000000, ((((((((live.wR 5 Kr.railPhase 2).wR 5 Kr.railPg 1).wr K.seqState 2).wR 5 Kr.mgnMode 2).wR 5 Kr.mgnTarget 1100).wR 5 Kr.snsGain 65536)).setMet (qRail 5) { live.met 0 with avg := tset (live.met 0).avg 1 { v := 50000, i := 0, p := 0 } }), by decide +kernel⟩,
    ⟨5, live, by decide +kernel⟩⟩

/-- Witnesses for Rails. -/
theorem witness_Rails_3 :
    (∃ (n : Rail) (s : State), s.rR n Kr.mgnCodeNow < (s.rail n).goal ∧ railAvg s n = none ∧ (marginRuns s n = true ∨ s.rR n Kr.mgnMode
      = 0)) ∧
    (∃ (n : Rail) (s : State), (s.rail n).goal < s.rR n Kr.mgnCodeNow ∧ railAvg s n = none ∧ (marginRuns s n = true ∨ s.rR n Kr.mgnMode
      = 0)) ∧
    (∃ (n : Rail) (s : State), s.rR n Kr.mgnMode = 2 ∧ s.rR n Kr.mgnStatus ≠ 2) ∧
    (∃ (n : Rail) (s : State), s.rR n Kr.mgnMode = 2 ∧ s.rR n Kr.mgnStatus = 2) ∧
    (∃ (e : List Nat) (s : State), s.coat.ffNew = some e) ∧
    (∃ (s : State), s.coat.ffNew = none) :=
  ⟨⟨5, (live.setRail 5 { live.rail 5 with goal := 3 }), by decide +kernel⟩,
    ⟨5, (live.setRail 5 { live.rail 5 with goal := -3 }), by decide +kernel⟩,
    ⟨5, ((live.wR 5 Kr.mgnMode 2).wR 5 Kr.mgnStatus 1), by decide +kernel⟩,
    ⟨5, ((live.wR 5 Kr.mgnMode 2).wR 5 Kr.mgnStatus 2), by decide +kernel⟩,
    ⟨([1, 2]), { live with coat := { live.coat with ffNew := some [1, 2] } }, by decide +kernel⟩,
    ⟨live, by decide +kernel⟩⟩

/-- Witnesses for Rails. -/
theorem witness_Rails_4 :
    (∃ (n : Rail) (s : State), marginRuns s n = false) :=
  ⟨5, live, by decide +kernel⟩

/-- Witnesses for RecorderFlushes. -/
theorem witness_RecorderFlushes_0 :
    (∃ (s : State), (s.recorder.flush = none ∨ ∃ f, s.recorder.flush = some f ∧ f.frozen = true)) ∧
    (∃ (f : Flush) (s : State), s.recorder.flush = some f ∧ f.frozen = false) ∧
    (∃ (c : Nat) (s : State), s.recorder.gapEnd ≤ s.tb ∧ s.recorder.due = some c ∧ s.recorder.flush = none) ∧
    (∃ (s : State), s.tb < s.recorder.gapEnd) ∧
    (∃ (c : Nat) (s : State), s.recorder.gapEnd ≤ s.tb ∧ s.recorder.due = some c ∧ s.recorder.flush = none) ∧
    (∃ (s : State), s.recorder.due = none) :=
  ⟨⟨live, by decide +kernel⟩,
    ⟨{ cause := 2, seq := 1, stamp := 0, tb := 0, cycles := 0, frozen := false, leaf := 0, alt := none }, { live with recorder := { live.recorder with flush := some { cause := 2, seq := 1, stamp := 0, tb := 0, cycles := 0, frozen := false, leaf := 0, alt := none } } }, by decide +kernel⟩,
    ⟨2, { live with recorder := { live.recorder with due := some 2, noWall := false } }, by decide +kernel⟩,
    ⟨{ live with recorder := { live.recorder with gapEnd := 5 } }, by decide +kernel⟩,
    ⟨2, { live with recorder := { live.recorder with due := some 2, noWall := false } }, by decide +kernel⟩,
    ⟨live, by decide +kernel⟩⟩

/-- Witnesses for RecorderFlushes. -/
theorem witness_RecorderFlushes_1 :
    (∃ (s : State), s.rd K.flushPeriod ≠ 0 ∧ s.recorder.noWall = false ∧ s.recorder.due = none) ∧
    (∃ (s : State), s.rd K.flushPeriod = 0) ∧
    (∃ (f : Flush) (s : State), s.recorder.flush = some f ∧ f.frozen = false ∧ s.recorder.clearing = false ∧ s.recorder.sampleDue =
      false) ∧
    (∃ (s : State), s.recorder.flush = none) ∧
    (∃ (ok : Bool) (f : Flush) (s : State), s.recorder.cutLeaf = none ∧ s.recorder.flush = some f ∧ f.frozen = true ∧ f.leaf < 17 ∧ ok
      = true ∧ placeErased s s.recorder.histHead = true ∧ s.recorder.bad = []) ∧
    (∃ (ok : Bool) (f : Flush) (s : State), s.recorder.cutLeaf = none ∧ s.recorder.flush = some f ∧ f.frozen = true ∧ f.leaf < 17 ∧ (ok
      = false ∨ placeErased s s.recorder.histHead = false) ∧ s.recorder.bad = [] ∧ s.recorder.saveDue = false) :=
  ⟨⟨(live.wr K.flushPeriod 60), by decide +kernel⟩,
    ⟨(live.wr K.flushPeriod 0), by decide +kernel⟩,
    ⟨{ cause := 2, seq := 1, stamp := 0, tb := 0, cycles := 0, frozen := false, leaf := 0, alt := none }, { live with recorder := { live.recorder with flush := some { cause := 2, seq := 1, stamp := 0, tb := 0, cycles := 0, frozen := false, leaf := 0, alt := none } } }, by decide +kernel⟩,
    ⟨live, by decide +kernel⟩,
    ⟨true, { cause := 2, seq := 1, stamp := 0, tb := 0, cycles := 0, frozen := true, leaf := 0, alt := none }, { live with recorder := { live.recorder with flush := some { cause := 2, seq := 1, stamp := 0, tb := 0, cycles := 0, frozen := true, leaf := 0, alt := none } } }, by decide +kernel⟩,
    ⟨false, { cause := 2, seq := 1, stamp := 0, tb := 0, cycles := 0, frozen := true, leaf := 3, alt := none }, { live with recorder := { live.recorder with flush := some { cause := 2, seq := 1, stamp := 0, tb := 0, cycles := 0, frozen := true, leaf := 3, alt := none } } }, by decide +kernel⟩⟩

/-- Witnesses for RecorderFlushes. -/
theorem witness_RecorderFlushes_2 :
    (∃ (f : Flush) (s : State), s.recorder.flush = some f ∧ 17 ≤ f.leaf ∧ f.cause ≠ 6) ∧
    (∃ (s : State), s.recorder.flush = none) ∧
    (∃ (jrnl : Bool) (ok : Bool) (b : Nat) (s : State), s.recorder.noErase = false ∧ s.recorder.noWall = false ∧ jrnl = false ∧ ok =
      true ∧ eraseDue s (histRing s) s.recorder.histHead = some b) ∧
    (∃ (jrnl : Bool) (ok : Bool) (b : Nat) (s : State), s.recorder.noErase = false ∧ s.recorder.noWall = false ∧ jrnl = true ∧ ok =
      false ∧ eraseDue s (jrnlRing s) (s.rd K.jrnlHead).toNat = some b ∧ s.recorder.bad = [] ∧ (s.rd K.jrnlHead).toNat ≠ b) ∧
    (∃ (jrnl : Bool) (ok : Bool) (s : State), jrnl = false ∧ eraseDue s (histRing s) s.recorder.histHead = none) ∧
    (∃ (jrnl : Bool) (ok : Bool) (s : State), s.recorder.noErase = true) :=
  ⟨⟨{ cause := 2, seq := 1, stamp := 0, tb := 0, cycles := 0, frozen := true, leaf := 17, alt := none }, { live with recorder := { live.recorder with flush := some { cause := 2, seq := 1, stamp := 0, tb := 0, cycles := 0, frozen := true, leaf := 17, alt := none } } }, by decide +kernel⟩,
    ⟨live, by decide +kernel⟩,
    ⟨false, true, (live.rd K.histBase).toNat, { (live.wr K.histSize 1048576) with recorder := { live.recorder with chips := tset live.recorder.chips 0 (some { size := 16777216, page := 256, erase := 4096 }), histHead := (live.rd K.histBase).toNat, wall := [((live.rd K.histBase).toNat / 1024, [1])] } }, by decide +kernel⟩,
    ⟨true, false, 4096, { ((live.wr K.jrnlBase 0).wr K.jrnlSize 1048576).wr K.jrnlHead 0 with recorder := { live.recorder with chips := tset live.recorder.chips 0 (some { size := 16777216, page := 256, erase := 4096 }), wall := [(4, [1])] } }, by decide +kernel⟩,
    ⟨false, true, live, by decide +kernel⟩,
    ⟨true, true, { live with recorder := { live.recorder with noErase := true } }, by decide +kernel⟩⟩

/-- Witnesses for RecorderFlushes. -/
theorem witness_RecorderFlushes_3 :
    (∃ (o : List Nat) (l : List (List Nat)) (s : State), s.recorder.signed = [o] ++ l ∧ s.recorder.noWall = false ∧
      s.recorder.staging.length + o.length ≤ 122880) ∧
    (∃ (o : List Nat) (l : List (List Nat)) (s : State), s.recorder.signed = [o] ++ l ∧ s.recorder.noWall = true) ∧
    (∃ (s : State), s.recorder.signed = []) ∧
    (∃ (ok : Bool) (s : State), s.recorder.noWall = false ∧ journalDue s = true ∧ ok = true ∧ placeErased s (s.rd K.jrnlHead).toNat =
      true ∧ s.recorder.bad = []) ∧
    (∃ (ok : Bool) (s : State), s.recorder.noWall = false ∧ journalDue s = true ∧ (ok = false ∨ placeErased s (s.rd K.jrnlHead).toNat =
      false) ∧ s.recorder.bad = []) ∧
    (∃ (ok : Bool) (s : State), journalDue s = false) :=
  ⟨⟨([1, 2]), ([]), { live with recorder := { live.recorder with signed := [[1, 2]] } }, by decide +kernel⟩,
    ⟨([1, 2]), ([]), { live with recorder := { live.recorder with signed := [[1, 2]], noWall := true } }, by decide +kernel⟩,
    ⟨live, by decide +kernel⟩,
    ⟨true, { live with recorder := { live.recorder with staging := [1], starts := [0], powerFail := true } }, by decide +kernel⟩,
    ⟨false, { live with recorder := { live.recorder with staging := [1], starts := [0], powerFail := true } }, by decide +kernel⟩,
    ⟨true, live, by decide +kernel⟩⟩

/-- Witnesses for RecorderFlushes. -/
theorem witness_RecorderFlushes_4 :
    (∃ (s : State), s.recorder.noWall = false ∧ s.recorder.due = none) ∧
    (∃ (s : State), s.recorder.due = some 1) ∧
    (∃ (s : State), s.recorder.flush = none ∧ s.recorder.noWall = true) ∧
    (∃ (s : State), s.recorder.flush = none ∧ s.recorder.noWall = false ∧ s.recorder.due = none) ∧
    (∃ (s : State), s.recorder.flush.isSome = true) ∧
    (∃ (s : State), s.recorder.flush = none) :=
  ⟨⟨live, by decide +kernel⟩,
    ⟨{ live with recorder := { live.recorder with due := some 1 } }, by decide +kernel⟩,
    ⟨{ live with recorder := { live.recorder with noWall := true } }, by decide +kernel⟩,
    ⟨live, by decide +kernel⟩,
    ⟨{ live with recorder := { live.recorder with flush := some { cause := 2, seq := 1, stamp := 0, tb := 0, cycles := 0, frozen := true, leaf := 17, alt := none } } }, by decide +kernel⟩,
    ⟨live, by decide +kernel⟩⟩

/-- Witnesses for EngineFailures. -/
theorem witness_EngineFailures_0 :
    (∃ (e : Eng) (key : BitVec 32) (s : State), s.engLive e = true ∧ key = 0xA5C3) ∧
    (∃ (e : Eng) (key : BitVec 32) (s : State), s.engLive e = true ∧ key ≠ 0xA5C3 ∧ bit (s.ior e.val 0xF01C) 1 = false ∧ 0 ≤ s.ior
      e.val 0xF01C) ∧
    (∃ (e : Eng) (key : BitVec 32) (s : State), s.engLive e = true ∧ key ≠ 0xA5C3 ∧ bit (s.ior e.val 0xF01C) 1 = true ∧ (s.core (coreOf
      e)).posted = []) ∧
    (∃ (e : Eng) (key : BitVec 32) (s : State), s.engLive e = false) ∧
    (∃ (e : Eng) (s : State), s.timersRun e = true ∧ bit (s.ior e.val 0xF01C) 0 = true ∧ bit (s.ior e.val 0xF01C) 1 = false) ∧
    (∃ (e : Eng) (s : State), bit (s.ior e.val 0xF01C) 0 = false) :=
  ⟨⟨3, 0xA5C3, (live.wr (K.engState + 3) 1), by decide +kernel⟩,
    ⟨3, 0, (live.wr (K.engState + 3) 1), by decide +kernel⟩,
    ⟨3, 0, ((live.wr (K.engState + 3) 1).iow 3 0xF01C 3), by decide +kernel⟩,
    ⟨3, 0, live, by decide +kernel⟩,
    ⟨3, ((live.wr (K.engState + 3) 1).iow 3 0xF01C 1), by decide +kernel⟩,
    ⟨3, live, by decide +kernel⟩⟩

/-- Witnesses for EngineFailures. -/
theorem witness_EngineFailures_1 :
    (∃ (e : Eng) (s : State), s.timersRun e = true ∧ bit (s.ior e.val 0xF01C) 1 = true ∧ (s.core (coreOf e)).posted = []) ∧
    (∃ (e : Eng) (s : State), bit (s.ior e.val 0xF01C) 1 = false) ∧
    (∃ (e : Eng) (s : State), s.timersRun e = true ∧ e ≠ pe16 ∧ (s.core (coreOf e)).posted = []) ∧
    (∃ (e : Eng) (s : State), e = pe16) ∧
    (∃ (e : Eng) (s : State), s.engSt e = Es.running ∧ e ≠ pe16 ∧ s.engSt pe16 = Es.floatIdle ∧ s.float.pending = false ∧ (s.core
      (coreOf e)).posted = []) ∧
    (∃ (e : Eng) (s : State), s.engSt e = Es.running ∧ e ≠ pe16 ∧ s.engSt pe16 ≠ Es.floatIdle ∧ (s.core (coreOf e)).posted = []) :=
  ⟨⟨3, ((live.wr (K.engState + 3) 1).iow 3 0xF01C 3), by decide +kernel⟩,
    ⟨3, live, by decide +kernel⟩,
    ⟨3, (live.wr (K.engState + 3) 1), by decide +kernel⟩,
    ⟨16, live, by decide +kernel⟩,
    ⟨3, ((live.wr (K.engState + 3) 1).wr (K.engState + 16) 4), by decide +kernel⟩,
    ⟨3, ((live.wr (K.engState + 3) 1).wr (K.engState + 16) 6), by decide +kernel⟩⟩

/-- Witnesses for EngineFailures. -/
theorem witness_EngineFailures_2 :
    (∃ (e : Eng) (k : Fin 16) (s : State), e = pe16 ∧ s.engSt e = Es.floatActive ∧ s.rd K.adoptEng = k.val ∧ (s.core (coreOf e)).posted
      = []) ∧
    (∃ (e : Eng) (s : State), s.engLive e = false) ∧
    (∃ (e : Eng) (s : State), e = Fin.ofNat 17 (s.rd K.engArg).toNat ∧ s.engSt pe16 = Es.floatIdle ∧ s.float.pending = false ∧ s.engSt
      e = Es.running ∧ (s.core (coreOf e)).posted = []) ∧
    (∃ (s : State), s.engSt pe16 ≠ Es.floatIdle) ∧
    (∃ (k : Fin 16) (s : State), s.float.pending = true ∧ s.rd K.adoptEng = k.val ∧ (∀ p : Port, p.val / 4 = k.val → (s.port p).held =
      [])) ∧
    (∃ (s : State), s.float.pending = false) :=
  ⟨⟨16, 2, ((live.wr (K.engState + 16) 5).wr K.adoptEng 2), by decide +kernel⟩,
    ⟨3, live, by decide +kernel⟩,
    ⟨3, (((live.wr (K.engState + 3) 1).wr (K.engState + 16) 4).wr K.engArg 3), by decide +kernel⟩,
    ⟨live, by decide +kernel⟩,
    ⟨2, { live.wr K.adoptEng 2 with float := { live.float with pending := true } }, by decide +kernel⟩,
    ⟨live, by decide +kernel⟩⟩

/-- Witnesses for EngineFailures. -/
theorem witness_EngineFailures_3 :
    (∃ (k : Fin 16) (s : State), s.float.pending = true ∧ s.engLive pe16 = true ∧ s.rd K.adoptEng = k.val ∧ (s.core (coreOf
      pe16)).posted = []) ∧
    (∃ (s : State), s.float.pending = false) :=
  ⟨⟨2, { (live.wr K.adoptEng 2).wr (K.engState + 16) 4 with float := { live.float with pending := true } }, by decide +kernel⟩,
    ⟨live, by decide +kernel⟩⟩

/-- Witnesses for EngineCommunication. -/
theorem witness_EngineCommunication_0 :
    (∃ (c : CoreId) (t0 : Fin 4) (x : Xfer) (s : State), c.val < 17 ∧ tget (s.core c).xfers t0 = some x ∧ x.push = true) ∧
    (∃ (c : CoreId) (t0 : Fin 4) (x : Xfer) (s : State), c.val < 17 ∧ tget (s.core c).xfers t0 = some x ∧ x.push = false) ∧
    (∃ (c : CoreId) (t0 : Fin 4) (s : State), tget (s.core c).xfers t0 = none) ∧
    (∃ (e : Eng) (half : Fin 2) (n : Nat) (s : State), s.engLive e = true ∧ e ≠ pe16 ∧ pushBusy s e half.val = false ∧ (bit (s.ior
      e.val 0xF028) 1 && decide (fieldOf (s.ior e.val 0xF028) 0 1 = half.val)) = false ∧ n = fieldOf (s.ior e.val 0xF028) 16 16) ∧
    (∃ (e : Eng) (half : Fin 2) (s : State), s.engLive e = true ∧ (e = pe16 ∨ pushBusy s e half.val = true)) ∧
    (∃ (e : Eng) (half : Fin 2) (s : State), s.engLive e = false) :=
  ⟨⟨0, 2, { push := true, loc := 4, shared := 0, len := 4 }, ((coreAt [(4, 9), (7, 3)]).setCore 0 { (coreAt [(4, 9), (7, 3)]).core 0 with xfers := tset (Vector.replicate 4 none) 2 (some { push := true, loc := 4, shared := 0, len := 4 }) }), by decide +kernel⟩,
    ⟨0, 2, { push := false, loc := 4, shared := 0, len := 4 }, { (coreAt [(4, 9), (7, 3)]).setCore 0 { (coreAt [(4, 9), (7, 3)]).core 0 with xfers := tset (Vector.replicate 4 none) 2 (some { push := false, loc := 4, shared := 0, len := 4 }) } with shared := [(1, 5)] }, by decide +kernel⟩,
    ⟨0, 1, (coreAt []), by decide +kernel⟩,
    ⟨3, 1, 65535, ((live.wr (K.engState + 3) 1).iow 3 0xF028 0xFFFF0002), by decide +kernel⟩,
    ⟨16, 1, (live.wr (K.engState + 16) 4), by decide +kernel⟩,
    ⟨3, 1, live, by decide +kernel⟩⟩

/-- Witnesses for EngineCommunication. -/
theorem witness_EngineCommunication_1 :
    (∃ (set : List Eng) (s : State), s.float.barrier = [] ∧ set.Nodup ∧ (∀ e ∈ set, s.engLive e = true)) ∧
    (∃ (set : List Eng) (s : State), s.float.barrier ≠ []) ∧
    (∃ (e : Eng) (s : State), e.val ∈ s.float.barrier ∧ s.engLive e = true ∧ e.val ∉ s.float.arrived) ∧
    (∃ (e : Eng) (s : State), e.val ∉ s.float.barrier) ∧
    (∃ (s : State), s.float.barrier ≠ [] ∧ (∀ x ∈ s.float.barrier, x ∈ s.float.arrived)) ∧
    (∃ (s : State), (∃ x ∈ s.float.barrier, x ∉ s.float.arrived)) :=
  ⟨⟨([3, 5]), ((live.wr (K.engState + 3) 1).wr (K.engState + 5) 1), by decide +kernel⟩,
    ⟨([3]), { live with float := { live.float with barrier := [4] } }, by decide +kernel⟩,
    ⟨3, { live.wr (K.engState + 3) 1 with float := { live.float with barrier := [3, 4] } }, by decide +kernel⟩,
    ⟨3, live, by decide +kernel⟩,
    ⟨{ live with float := { live.float with barrier := [3, 4], arrived := [4, 3] } }, by decide +kernel⟩,
    ⟨{ live with float := { live.float with barrier := [3, 4], arrived := [4] } }, by decide +kernel⟩⟩

/-- Witnesses for EngineCommunication. -/
theorem witness_EngineCommunication_2 :
    (∃ (e : Eng) (w : BitVec 32) (s : State), s.engLive e = true ∧ (s.mbox e).fifo.length < 16 ∧ listens s (Fin.ofNat 22 e.val) =
      false) ∧
    (∃ (e : Eng) (w : BitVec 32) (s : State), s.engLive e = true ∧ 16 ≤ (s.mbox e).fifo.length) ∧
    (∃ (e : Eng) (w : BitVec 32) (l : List Nat) (s : State), s.engLive e = true ∧ (s.mbox e).fifo.length < 16 ∧ listens s (Fin.ofNat 22
      e.val) = true ∧ l = (s.mbox e).tx ++ (s.mbox e).fifo ++ [w.toNat] ∧ (octetsOf l).length < leValue (((octetsOf l).drop 2).take 2)
      + 12 ∧ leValue (((octetsOf l).drop 2).take 2) ≤ 2048) ∧
    (∃ (e : Eng) (w : BitVec 32) (s : State), s.engLive e = false) ∧
    (∃ (e : Eng) (w : Nat) (l : List Nat) (s : State), s.engLive e = true ∧ (∀ r : Requester, (s.src r).held = none) ∧ (s.mbox e).rx =
      w :: l) ∧
    (∃ (e : Eng) (s : State), s.engLive e = true ∧ (∀ r : Requester, (s.src r).held = none) ∧ (s.mbox e).rx = []) :=
  ⟨⟨3, 7, { live.wr (K.engState + 3) 1 with sec := { live.sec with stat := 3 } }, by decide +kernel⟩,
    ⟨3, 7, ((live.wr (K.engState + 3) 1).setMbox 3 { MboxHw.reset with fifo := List.replicate 16 1 }), by decide +kernel⟩,
    ⟨3, 7, ([7]), (live.wr (K.engState + 3) 1), by decide +kernel⟩,
    ⟨3, 7, live, by decide +kernel⟩,
    ⟨3, 1, [2], ((live.wr (K.engState + 3) 1).setMbox 3 { MboxHw.reset with rx := [1, 2] }), by decide +kernel⟩,
    ⟨3, (live.wr (K.engState + 3) 1), by decide +kernel⟩⟩

/-- Witnesses for EngineCommunication. -/
theorem witness_EngineCommunication_3 :
    (∃ (e : Eng) (r : Requester) (s : State), s.engLive e = true ∧ r.val = e.val) ∧
    (∃ (c : CoreId) (addr : BitVec 16) (val : BitVec 32) (s : State), c.val < 17 ∧ s.coreOn c = true ∧ addr = 0xF00C) ∧
    (∃ (c : CoreId) (addr : BitVec 16) (val : BitVec 32) (s : State), c.val < 17 ∧ s.coreOn c = true ∧ addr = 0xF000) ∧
    (∃ (c : CoreId) (addr : BitVec 16) (val : BitVec 32) (k : Nat) (s : State), c.val < 17 ∧ s.coreOn c = true ∧ addr = 0xF020 ∧ k < 8
      ∧ 0 ≤ s.ior c.val 0xF020) ∧
    (∃ (c : CoreId) (addr : BitVec 16) (val : BitVec 32) (s : State), (s.coreOn c = false ∨ addr.toNat % 4 ≠ 0)) :=
  ⟨⟨3, 3, ((live.wr (K.engState + 3) 1).setMbox 3 { MboxHw.reset with tx := [1, 2] }), by decide +kernel⟩,
    ⟨0, 0xF00C, 0x12345, (engOn 0), by decide +kernel⟩,
    ⟨0, 0xF000, 0x12345, (engOn 0), by decide +kernel⟩,
    ⟨0, 0xF020, 0x2, 1, ((engOn 0).iow 0 0xF020 7), by decide +kernel⟩,
    ⟨0, 0xF00D, 1, (engOn 0), by decide +kernel⟩⟩

/-- Witnesses for ZArithmetic. -/
theorem witness_ZArithmetic_0 :
    (∃ (c : CoreId) (z : ZIns) (h : CoreHw) (g : ZGot) (w : Nat) (v : Nat) (s : State), Issues s c h z (use2 0 .binary) ∧ w = 8 *
      zOctets z ∧ (operandsOf (use2 0 .binary) c h z (zOctets z) (zOctets z)).toOption = some g ∧ v = (g.a + g.b) % 2 ^ w) ∧
    (∃ (c : CoreId) (z : ZIns) (h : CoreHw) (g : ZGot) (w : Nat) (v : Nat) (s : State), Issues s c h z (use2 1 .none) ∧ w = 8 * zOctets
      z ∧ (operandsOf (use2 1 .none) c h z (zOctets z) (zOctets z)).toOption = some g ∧ v = (g.a + g.b + carryOf h.flagsEx) % 2 ^ w) ∧
    (∃ (c : CoreId) (z : ZIns) (h : CoreHw) (g : ZGot) (w : Nat) (v : Nat) (s : State), Issues s c h z (use2 0 .binary) ∧ w = 8 *
      zOctets z ∧ (operandsOf (use2 0 .binary) c h z (zOctets z) (zOctets z)).toOption = some g ∧ v = (((g.a : Int) - g.b) % 2 ^
      w).toNat) ∧
    (∃ (c : CoreId) (z : ZIns) (h : CoreHw) (g : ZGot) (w : Nat) (v : Nat) (s : State), Issues s c h z (use2 1 .none) ∧ w = 8 * zOctets
      z ∧ (operandsOf (use2 1 .none) c h z (zOctets z) (zOctets z)).toOption = some g ∧ v = (((g.a : Int) - g.b - (1 - carryOf
      h.flagsEx : Nat)) % 2 ^ w).toNat) ∧
    (∃ (c : CoreId) (z : ZIns) (h : CoreHw) (g : ZGot) (w : Nat) (v : Nat) (s : State), Issues s c h z (use1 1 .none) ∧ w = 8 * zOctets
      z ∧ (operandsOf (use1 1 .none) c h z (zOctets z) (zOctets z)).toOption = some g ∧ v = ((-(g.a : Int)) % 2 ^ w).toNat) ∧
    (∃ (c : CoreId) (z : ZIns) (h : CoreHw) (g : ZGot) (w : Nat) (v : Nat) (s : State), Issues s c h z (useCmp 0 .binary) ∧ w = 8 *
      zOctets z ∧ (operandsOf (useCmp 0 .binary) c h z (zOctets z) (zOctets z)).toOption = some g ∧ v = (((g.a : Int) - g.b) % 2 ^
      w).toNat) :=
  ⟨⟨0, (zl 2 3 1 2 0), (((coreAt [(4, 255), (5, 255), (6, 255), (7, 127), (8, 3)]).core 0).landed), (got 2147483647 3 (some 12)), 32, 2147483650, (coreAt [(4, 255), (5, 255), (6, 255), (7, 127), (8, 3)]), by decide +kernel⟩,
    ⟨0, (zl 2 3 1 2 1), (((coreAt [(4, 5), (8, 3)]).core 0).landed), (got 5 3 (some 12)), 32, 8, (coreAt [(4, 5), (8, 3)]), by decide +kernel⟩,
    ⟨0, (zl 2 3 1 2 0), (((coreAt [(4, 3), (8, 5)]).core 0).landed), (got 3 5 (some 12)), 32, 4294967294, (coreAt [(4, 3), (8, 5)]), by decide +kernel⟩,
    ⟨0, (zl 2 3 1 2 1), (((coreAt [(4, 5), (8, 3)]).core 0).landed), (got 5 3 (some 12)), 32, 1, (coreAt [(4, 5), (8, 3)]), by decide +kernel⟩,
    ⟨0, (zl 2 3 1 0 1), (((coreAt [(4, 5)]).core 0).landed), (got 5 0 (some 12)), 32, 4294967291, (coreAt [(4, 5)]), by decide +kernel⟩,
    ⟨0, (zl 2 0 1 2 0), (((coreAt [(4, 3), (8, 5)]).core 0).landed), (got 3 5 (none)), 32, 4294967294, (coreAt [(4, 3), (8, 5)]), by decide +kernel⟩⟩

/-- Witnesses for ZArithmetic. -/
theorem witness_ZArithmetic_1 :
    (∃ (c : CoreId) (z : ZIns) (h : CoreHw) (g : ZGot) (w : Nat) (v : Nat) (s : State), Issues s c h z (use2 0 .binary) ∧ w = 8 *
      zOctets z ∧ (operandsOf (use2 0 .binary) c h z (zOctets z) (zOctets z)).toOption = some g ∧ v = g.a &&& g.b) ∧
    (∃ (c : CoreId) (z : ZIns) (h : CoreHw) (g : ZGot) (w : Nat) (v : Nat) (s : State), Issues s c h z (use2 1 .none) ∧ w = 8 * zOctets
      z ∧ (operandsOf (use2 1 .none) c h z (zOctets z) (zOctets z)).toOption = some g ∧ v = g.a &&& (2 ^ w - 1 - g.b)) ∧
    (∃ (c : CoreId) (z : ZIns) (h : CoreHw) (g : ZGot) (w : Nat) (v : Nat) (s : State), Issues s c h z (use2 0 .binary) ∧ w = 8 *
      zOctets z ∧ (operandsOf (use2 0 .binary) c h z (zOctets z) (zOctets z)).toOption = some g ∧ v = g.a ||| g.b) ∧
    (∃ (c : CoreId) (z : ZIns) (h : CoreHw) (g : ZGot) (w : Nat) (v : Nat) (s : State), Issues s c h z (use2 0 .binary) ∧ w = 8 *
      zOctets z ∧ (operandsOf (use2 0 .binary) c h z (zOctets z) (zOctets z)).toOption = some g ∧ v = g.a ^^^ g.b) ∧
    (∃ (c : CoreId) (z : ZIns) (h : CoreHw) (g : ZGot) (w : Nat) (v : Nat) (s : State), Issues s c h z (use1 0 .none) ∧ w = 8 * zOctets
      z ∧ (operandsOf (use1 0 .none) c h z (zOctets z) (zOctets z)).toOption = some g ∧ v = 2 ^ w - 1 - g.a) ∧
    (∃ (c : CoreId) (z : ZIns) (h : CoreHw) (g : ZGot) (w : Nat) (v : Nat) (s : State), Issues s c h z (useCmp 1 .none) ∧ w = 8 *
      zOctets z ∧ (operandsOf (useCmp 1 .none) c h z (zOctets z) (zOctets z)).toOption = some g ∧ v = g.a &&& g.b) :=
  ⟨⟨0, (zl 2 3 1 2 0), (((coreAt [(4, 6), (8, 3)]).core 0).landed), (got 6 3 (some 12)), 32, 2, (coreAt [(4, 6), (8, 3)]), by decide +kernel⟩,
    ⟨0, (zl 2 3 1 2 1), (((coreAt [(4, 6), (8, 3)]).core 0).landed), (got 6 3 (some 12)), 32, 4, (coreAt [(4, 6), (8, 3)]), by decide +kernel⟩,
    ⟨0, (zl 2 3 1 2 0), (((coreAt [(4, 6), (8, 3)]).core 0).landed), (got 6 3 (some 12)), 32, 7, (coreAt [(4, 6), (8, 3)]), by decide +kernel⟩,
    ⟨0, (zl 2 3 1 2 0), (((coreAt [(4, 6), (8, 3)]).core 0).landed), (got 6 3 (some 12)), 32, 5, (coreAt [(4, 6), (8, 3)]), by decide +kernel⟩,
    ⟨0, (zl 2 3 1 0 0), (((coreAt [(4, 6)]).core 0).landed), (got 6 0 (some 12)), 32, 4294967289, (coreAt [(4, 6)]), by decide +kernel⟩,
    ⟨0, (zl 2 0 1 2 1), (((coreAt [(4, 6), (8, 3)]).core 0).landed), (got 6 3 (none)), 32, 2, (coreAt [(4, 6), (8, 3)]), by decide +kernel⟩⟩

/-- Witnesses for ZArithmetic. -/
theorem witness_ZArithmetic_2 :
    (∃ (c : CoreId) (z : ZIns) (h : CoreHw) (g : ZGot) (w : Nat) (v : Nat) (s : State), Issues s c h z (use1 0 .unary) ∧ w = 8 *
      zOctets z ∧ (operandsOf (use1 0 .unary) c h z (zOctets z) (zOctets z)).toOption = some g ∧ v = g.a) ∧
    (∃ (c : CoreId) (z : ZIns) (h : CoreHw) (g : ZGot) (w : Nat) (v : Nat) (s : State), Issues s c h z (use2 0 .none) ∧ w = 8 * zOctets
      z ∧ (operandsOf (use2 0 .none) c h z (zOctets z) (zOctets z)).toOption = some g ∧ v = g.a * g.b % 2 ^ w) ∧
    (∃ (c : CoreId) (z : ZIns) (h : CoreHw) (g : ZGot) (w : Nat) (v : Nat) (s : State), Issues s c h z (use2 1 .none) ∧ w = 8 * zOctets
      z ∧ (operandsOf (use2 1 .none) c h z (zOctets z) (zOctets z)).toOption = some g ∧ v = g.a * g.b / 2 ^ w) ∧
    (∃ (c : CoreId) (z : ZIns) (h : CoreHw) (g : ZGot) (w : Nat) (v : Nat) (s : State), Issues s c h z (use2 2 .none) ∧ w = 8 * zOctets
      z ∧ (operandsOf (use2 2 .none) c h z (zOctets z) (zOctets z)).toOption = some g ∧ v = ((signed w g.a * signed w g.b / 2 ^ w) % 2
      ^ w).toNat) ∧
    (∃ (c : CoreId) (z : ZIns) (h : CoreHw) (g : ZGot) (w : Nat) (v : Nat) (s : State), Issues s c h z (useShort .dest .imm) ∧ w = 8 *
      zOctets z ∧ (operandsOf (useShort .dest .imm) c h z (zOctets z) (zOctets z)).toOption = some g ∧ v = (g.a + g.b) % 2 ^ w) ∧
    (∃ (c : CoreId) (z : ZIns) (h : CoreHw) (g : ZGot) (w : Nat) (v : Nat) (s : State), Issues s c h z (useShort .dest .imm) ∧ w = 8 *
      zOctets z ∧ (operandsOf (useShort .dest .imm) c h z (zOctets z) (zOctets z)).toOption = some g ∧ v = (((g.a : Int) - g.b) % 2 ^
      w).toNat) :=
  ⟨⟨0, (zl 2 3 1 0 0), (((coreAt [(4, 6)]).core 0).landed), (got 6 0 (some 12)), 32, 6, (coreAt [(4, 6)]), by decide +kernel⟩,
    ⟨0, (zl 2 3 1 2 0), (((coreAt [(4, 6), (8, 3)]).core 0).landed), (got 6 3 (some 12)), 32, 18, (coreAt [(4, 6), (8, 3)]), by decide +kernel⟩,
    ⟨0, (zl 2 3 1 2 1), (((coreAt [(7, 128), (8, 6)]).core 0).landed), (got 2147483648 6 (some 12)), 32, 3, (coreAt [(7, 128), (8, 6)]), by decide +kernel⟩,
    ⟨0, (zl 2 3 1 2 2), (((coreAt [(4, 255), (5, 255), (6, 255), (7, 255), (8, 6)]).core 0).landed), (got 4294967295 6 (some 12)), 32, 4294967295, (coreAt [(4, 255), (5, 255), (6, 255), (7, 255), (8, 6)]), by decide +kernel⟩,
    ⟨0, (zs 1 15), (((coreAt [(4, 5)]).core 0).landed), (got 5 15 (some 4)), 32, 20, (coreAt [(4, 5)]), by decide +kernel⟩,
    ⟨0, (zs 1 15), (((coreAt [(4, 5)]).core 0).landed), (got 5 15 (some 4)), 32, 4294967286, (coreAt [(4, 5)]), by decide +kernel⟩⟩

/-- Witnesses for ZArithmetic. -/
theorem witness_ZArithmetic_3 :
    (∃ (c : CoreId) (z : ZIns) (h : CoreHw) (g : ZGot) (w : Nat) (v : Nat) (s : State), Issues s c h z (useShort .unused .imm) ∧ w = 8
      * zOctets z ∧ (operandsOf (useShort .unused .imm) c h z (zOctets z) (zOctets z)).toOption = some g ∧ v = (((g.a : Int) - g.b) % 2
      ^ w).toNat) ∧
    (∃ (c : CoreId) (z : ZIns) (h : CoreHw) (s : State), Fetches s c h ∧ z.ecc = .clean ∧ condHolds z.cond.val h.flagsRead = false ∧
      h.rpt = none ∧ h.wdog = false) ∧
    (∃ (c : CoreId) (z : ZIns) (s : State), s.coreOn c = false) :=
  ⟨⟨0, (zs 1 15), (((coreAt [(4, 5)]).core 0).landed), (got 5 15 (none)), 32, 4294967286, (coreAt [(4, 5)]), by decide +kernel⟩,
    ⟨0, { zl 2 3 1 2 0 with cond := 1 }, (((coreAt []).core 0).landed), (coreAt []), by decide +kernel⟩,
    ⟨1, (zl 2 3 1 2 0), (coreAt []), by decide +kernel⟩⟩

/-- Witnesses for ZShiftsAndDivision. -/
theorem witness_ZShiftsAndDivision_0 :
    (∃ (c : CoreId) (z : ZIns) (h : CoreHw) (g : ZGot) (w : Nat) (v : Nat) (s : State), Issues s c h z (use2 0 .none) ∧ w = 8 * zOctets
      z ∧ (operandsOf (use2 0 .none) c h z (zOctets z) (zOctets z)).toOption = some g ∧ g.b % 64 = 0 ∧ v = g.a) ∧
    (∃ (c : CoreId) (z : ZIns) (h : CoreHw) (g : ZGot) (w : Nat) (k : Nat) (v : Nat) (s : State), Issues s c h z (use2 0 .none) ∧ w = 8
      * zOctets z ∧ (operandsOf (use2 0 .none) c h z (zOctets z) (zOctets z)).toOption = some g ∧ k = g.b % 64 ∧ 1 ≤ k ∧ k ≤ w ∧ v =
      g.a * 2 ^ k % 2 ^ w) ∧
    (∃ (c : CoreId) (z : ZIns) (h : CoreHw) (g : ZGot) (w : Nat) (v : Nat) (s : State), Issues s c h z (use2 0 .none) ∧ w = 8 * zOctets
      z ∧ (operandsOf (use2 0 .none) c h z (zOctets z) (zOctets z)).toOption = some g ∧ w < g.b % 64 ∧ v = 0) ∧
    (∃ (c : CoreId) (z : ZIns) (h : CoreHw) (g : ZGot) (w : Nat) (v : Nat) (s : State), Issues s c h z (useShort .dest .imm) ∧ w = 8 *
      zOctets z ∧ (operandsOf (useShort .dest .imm) c h z (zOctets z) (zOctets z)).toOption = some g ∧ g.b % 64 = 0 ∧ v = g.a) ∧
    (∃ (c : CoreId) (z : ZIns) (h : CoreHw) (g : ZGot) (w : Nat) (k : Nat) (v : Nat) (s : State), Issues s c h z (useShort .dest .imm)
      ∧ w = 8 * zOctets z ∧ (operandsOf (useShort .dest .imm) c h z (zOctets z) (zOctets z)).toOption = some g ∧ k = g.b % 64 ∧ 1 ≤ k ∧
      k ≤ w ∧ v = g.a * 2 ^ k % 2 ^ w) ∧
    (∃ (c : CoreId) (z : ZIns) (h : CoreHw) (g : ZGot) (w : Nat) (v : Nat) (s : State), Issues s c h z (use2 1 .none) ∧ w = 8 * zOctets
      z ∧ (operandsOf (use2 1 .none) c h z (zOctets z) (zOctets z)).toOption = some g ∧ g.b % 64 = 0 ∧ v = g.a) :=
  ⟨⟨0, (zl 2 3 1 2 0), (((coreAt [(4, 6), (8, 64)]).core 0).landed), (got 6 64 (some 12)), 32, 6, (coreAt [(4, 6), (8, 64)]), by decide +kernel⟩,
    ⟨0, (zl 2 3 1 2 0), (((coreAt [(4, 6), (8, 4)]).core 0).landed), (got 6 4 (some 12)), 32, 4, 96, (coreAt [(4, 6), (8, 4)]), by decide +kernel⟩,
    ⟨0, (zl 2 3 1 2 0), (((coreAt [(4, 6), (8, 40)]).core 0).landed), (got 6 40 (some 12)), 32, 0, (coreAt [(4, 6), (8, 40)]), by decide +kernel⟩,
    ⟨0, (zs 1 0), (((coreAt [(4, 6)]).core 0).landed), (got 6 0 (some 4)), 32, 6, (coreAt [(4, 6)]), by decide +kernel⟩,
    ⟨0, (zs 1 4), (((coreAt [(4, 6)]).core 0).landed), (got 6 4 (some 4)), 32, 4, 96, (coreAt [(4, 6)]), by decide +kernel⟩,
    ⟨0, (zl 2 3 1 2 1), (((coreAt [(4, 6), (8, 64)]).core 0).landed), (got 6 64 (some 12)), 32, 6, (coreAt [(4, 6), (8, 64)]), by decide +kernel⟩⟩

/-- Witnesses for ZShiftsAndDivision. -/
theorem witness_ZShiftsAndDivision_1 :
    (∃ (c : CoreId) (z : ZIns) (h : CoreHw) (g : ZGot) (w : Nat) (k : Nat) (v : Nat) (s : State), Issues s c h z (use2 1 .none) ∧ w = 8
      * zOctets z ∧ (operandsOf (use2 1 .none) c h z (zOctets z) (zOctets z)).toOption = some g ∧ k = g.b % 64 ∧ 1 ≤ k ∧ k ≤ w ∧ v =
      g.a / 2 ^ k) ∧
    (∃ (c : CoreId) (z : ZIns) (h : CoreHw) (g : ZGot) (w : Nat) (v : Nat) (s : State), Issues s c h z (use2 1 .none) ∧ w = 8 * zOctets
      z ∧ (operandsOf (use2 1 .none) c h z (zOctets z) (zOctets z)).toOption = some g ∧ w < g.b % 64 ∧ v = 0) ∧
    (∃ (c : CoreId) (z : ZIns) (h : CoreHw) (g : ZGot) (w : Nat) (v : Nat) (s : State), Issues s c h z (useShort .dest .imm) ∧ w = 8 *
      zOctets z ∧ (operandsOf (useShort .dest .imm) c h z (zOctets z) (zOctets z)).toOption = some g ∧ g.b % 64 = 0 ∧ v = g.a) ∧
    (∃ (c : CoreId) (z : ZIns) (h : CoreHw) (g : ZGot) (w : Nat) (k : Nat) (v : Nat) (s : State), Issues s c h z (useShort .dest .imm)
      ∧ w = 8 * zOctets z ∧ (operandsOf (useShort .dest .imm) c h z (zOctets z) (zOctets z)).toOption = some g ∧ k = g.b % 64 ∧ 1 ≤ k ∧
      k ≤ w ∧ v = g.a / 2 ^ k) ∧
    (∃ (c : CoreId) (z : ZIns) (h : CoreHw) (g : ZGot) (w : Nat) (v : Nat) (s : State), Issues s c h z (use2 2 .none) ∧ w = 8 * zOctets
      z ∧ (operandsOf (use2 2 .none) c h z (zOctets z) (zOctets z)).toOption = some g ∧ g.b % 64 = 0 ∧ v = g.a) ∧
    (∃ (c : CoreId) (z : ZIns) (h : CoreHw) (g : ZGot) (w : Nat) (k : Nat) (v : Nat) (s : State), Issues s c h z (use2 2 .none) ∧ w = 8
      * zOctets z ∧ (operandsOf (use2 2 .none) c h z (zOctets z) (zOctets z)).toOption = some g ∧ k = g.b % 64 ∧ 1 ≤ k ∧ k ≤ w ∧ v =
      ((signed w g.a / 2 ^ k) % 2 ^ w).toNat) :=
  ⟨⟨0, (zl 2 3 1 2 1), (((coreAt [(4, 6), (8, 2)]).core 0).landed), (got 6 2 (some 12)), 32, 2, 1, (coreAt [(4, 6), (8, 2)]), by decide +kernel⟩,
    ⟨0, (zl 2 3 1 2 1), (((coreAt [(4, 6), (8, 40)]).core 0).landed), (got 6 40 (some 12)), 32, 0, (coreAt [(4, 6), (8, 40)]), by decide +kernel⟩,
    ⟨0, (zs 1 0), (((coreAt [(4, 6)]).core 0).landed), (got 6 0 (some 4)), 32, 6, (coreAt [(4, 6)]), by decide +kernel⟩,
    ⟨0, (zs 1 2), (((coreAt [(4, 6)]).core 0).landed), (got 6 2 (some 4)), 32, 2, 1, (coreAt [(4, 6)]), by decide +kernel⟩,
    ⟨0, (zl 2 3 1 2 2), (((coreAt [(4, 6), (8, 64)]).core 0).landed), (got 6 64 (some 12)), 32, 6, (coreAt [(4, 6), (8, 64)]), by decide +kernel⟩,
    ⟨0, (zl 2 3 1 2 2), (((coreAt [(4, 250), (5, 255), (6, 255), (7, 255), (8, 2)]).core 0).landed), (got 4294967290 2 (some 12)), 32, 2, 4294967294, (coreAt [(4, 250), (5, 255), (6, 255), (7, 255), (8, 2)]), by decide +kernel⟩⟩

/-- Witnesses for ZShiftsAndDivision. -/
theorem witness_ZShiftsAndDivision_2 :
    (∃ (c : CoreId) (z : ZIns) (h : CoreHw) (g : ZGot) (w : Nat) (v : Nat) (s : State), Issues s c h z (use2 2 .none) ∧ w = 8 * zOctets
      z ∧ (operandsOf (use2 2 .none) c h z (zOctets z) (zOctets z)).toOption = some g ∧ w < g.b % 64 ∧ v = (if g.a.testBit (w - 1) then
      2 ^ w - 1 else 0)) ∧
    (∃ (c : CoreId) (z : ZIns) (h : CoreHw) (g : ZGot) (w : Nat) (v : Nat) (s : State), Issues s c h z (use2 3 .none) ∧ w = 8 * zOctets
      z ∧ (operandsOf (use2 3 .none) c h z (zOctets z) (zOctets z)).toOption = some g ∧ g.b % 64 % w = 0 ∧ v = g.a) ∧
    (∃ (c : CoreId) (z : ZIns) (h : CoreHw) (g : ZGot) (w : Nat) (k : Nat) (v : Nat) (s : State), Issues s c h z (use2 3 .none) ∧ w = 8
      * zOctets z ∧ (operandsOf (use2 3 .none) c h z (zOctets z) (zOctets z)).toOption = some g ∧ k = g.b % 64 % w ∧ 1 ≤ k ∧ v = (g.a /
      2 ^ k + g.a * 2 ^ (w - k)) % 2 ^ w) ∧
    (∃ (c : CoreId) (z : ZIns) (h : CoreHw) (g : ZGot) (w : Nat) (v : Nat) (s : State), Issues s c h z (use2 0 .none) ∧ w = 8 * zOctets
      z ∧ (operandsOf (use2 0 .none) c h z (zOctets z) (zOctets z)).toOption = some g ∧ g.b = 0 ∧ v = 2 ^ w - 1) ∧
    (∃ (c : CoreId) (z : ZIns) (h : CoreHw) (g : ZGot) (w : Nat) (v : Nat) (s : State), Issues s c h z (use2 0 .none) ∧ w = 8 * zOctets
      z ∧ (operandsOf (use2 0 .none) c h z (zOctets z) (zOctets z)).toOption = some g ∧ g.b ≠ 0 ∧ v = g.a / g.b) ∧
    (∃ (c : CoreId) (z : ZIns) (h : CoreHw) (g : ZGot) (w : Nat) (v : Nat) (s : State), Issues s c h z (use2 1 .none) ∧ w = 8 * zOctets
      z ∧ (operandsOf (use2 1 .none) c h z (zOctets z) (zOctets z)).toOption = some g ∧ g.b = 0 ∧ v = 2 ^ w - 1) :=
  ⟨⟨0, (zl 2 3 1 2 2), (((coreAt [(4, 250), (5, 255), (6, 255), (7, 255), (8, 40)]).core 0).landed), (got 4294967290 40 (some 12)), 32, 4294967295, (coreAt [(4, 250), (5, 255), (6, 255), (7, 255), (8, 40)]), by decide +kernel⟩,
    ⟨0, (zl 2 3 1 2 3), (((coreAt [(4, 6), (8, 32)]).core 0).landed), (got 6 32 (some 12)), 32, 6, (coreAt [(4, 6), (8, 32)]), by decide +kernel⟩,
    ⟨0, (zl 2 3 1 2 3), (((coreAt [(4, 6), (8, 34)]).core 0).landed), (got 6 34 (some 12)), 32, 2, 2147483649, (coreAt [(4, 6), (8, 34)]), by decide +kernel⟩,
    ⟨0, (zl 2 3 1 2 0), (((coreAt [(4, 7)]).core 0).landed), (got 7 0 (some 12)), 32, 4294967295, (coreAt [(4, 7)]), by decide +kernel⟩,
    ⟨0, (zl 2 3 1 2 0), (((coreAt [(4, 7), (8, 2)]).core 0).landed), (got 7 2 (some 12)), 32, 3, (coreAt [(4, 7), (8, 2)]), by decide +kernel⟩,
    ⟨0, (zl 2 3 1 2 1), (((coreAt [(4, 7)]).core 0).landed), (got 7 0 (some 12)), 32, 4294967295, (coreAt [(4, 7)]), by decide +kernel⟩⟩

/-- Witnesses for ZShiftsAndDivision. -/
theorem witness_ZShiftsAndDivision_3 :
    (∃ (c : CoreId) (z : ZIns) (h : CoreHw) (g : ZGot) (w : Nat) (v : Nat) (s : State), Issues s c h z (use2 1 .none) ∧ w = 8 * zOctets
      z ∧ (operandsOf (use2 1 .none) c h z (zOctets z) (zOctets z)).toOption = some g ∧ g.b ≠ 0 ∧ ¬(g.a = 2 ^ (w - 1) ∧ g.b = 2 ^ w -
      1) ∧ v = ((signed w g.a).tdiv (signed w g.b) % 2 ^ w).toNat) ∧
    (∃ (c : CoreId) (z : ZIns) (h : CoreHw) (g : ZGot) (w : Nat) (v : Nat) (s : State), Issues s c h z (use2 1 .none) ∧ w = 8 * zOctets
      z ∧ (operandsOf (use2 1 .none) c h z (zOctets z) (zOctets z)).toOption = some g ∧ g.a = 2 ^ (w - 1) ∧ g.b = 2 ^ w - 1 ∧ v = g.a) ∧
    (∃ (c : CoreId) (z : ZIns) (h : CoreHw) (g : ZGot) (w : Nat) (v : Nat) (s : State), Issues s c h z (use2 2 .none) ∧ w = 8 * zOctets
      z ∧ (operandsOf (use2 2 .none) c h z (zOctets z) (zOctets z)).toOption = some g ∧ g.b = 0 ∧ v = g.a) ∧
    (∃ (c : CoreId) (z : ZIns) (h : CoreHw) (g : ZGot) (w : Nat) (v : Nat) (s : State), Issues s c h z (use2 2 .none) ∧ w = 8 * zOctets
      z ∧ (operandsOf (use2 2 .none) c h z (zOctets z) (zOctets z)).toOption = some g ∧ g.b ≠ 0 ∧ v = g.a % g.b) ∧
    (∃ (c : CoreId) (z : ZIns) (h : CoreHw) (g : ZGot) (w : Nat) (v : Nat) (s : State), Issues s c h z (use2 3 .none) ∧ w = 8 * zOctets
      z ∧ (operandsOf (use2 3 .none) c h z (zOctets z) (zOctets z)).toOption = some g ∧ g.b = 0 ∧ v = g.a) ∧
    (∃ (c : CoreId) (z : ZIns) (h : CoreHw) (g : ZGot) (w : Nat) (v : Nat) (s : State), Issues s c h z (use2 3 .none) ∧ w = 8 * zOctets
      z ∧ (operandsOf (use2 3 .none) c h z (zOctets z) (zOctets z)).toOption = some g ∧ g.b ≠ 0 ∧ ¬(g.a = 2 ^ (w - 1) ∧ g.b = 2 ^ w -
      1) ∧ v = ((signed w g.a).tmod (signed w g.b) % 2 ^ w).toNat) :=
  ⟨⟨0, (zl 2 3 1 2 1), (((coreAt [(4, 249), (5, 255), (6, 255), (7, 255), (8, 2)]).core 0).landed), (got 4294967289 2 (some 12)), 32, 4294967293, (coreAt [(4, 249), (5, 255), (6, 255), (7, 255), (8, 2)]), by decide +kernel⟩,
    ⟨0, (zl 2 3 1 2 1), (((coreAt [(7, 128), (8, 255), (9, 255), (10, 255), (11, 255)]).core 0).landed), (got 2147483648 4294967295 (some 12)), 32, 2147483648, (coreAt [(7, 128), (8, 255), (9, 255), (10, 255), (11, 255)]), by decide +kernel⟩,
    ⟨0, (zl 2 3 1 2 2), (((coreAt [(4, 7)]).core 0).landed), (got 7 0 (some 12)), 32, 7, (coreAt [(4, 7)]), by decide +kernel⟩,
    ⟨0, (zl 2 3 1 2 2), (((coreAt [(4, 7), (8, 2)]).core 0).landed), (got 7 2 (some 12)), 32, 1, (coreAt [(4, 7), (8, 2)]), by decide +kernel⟩,
    ⟨0, (zl 2 3 1 2 3), (((coreAt [(4, 7)]).core 0).landed), (got 7 0 (some 12)), 32, 7, (coreAt [(4, 7)]), by decide +kernel⟩,
    ⟨0, (zl 2 3 1 2 3), (((coreAt [(4, 249), (5, 255), (6, 255), (7, 255), (8, 2)]).core 0).landed), (got 4294967289 2 (some 12)), 32, 4294967295, (coreAt [(4, 249), (5, 255), (6, 255), (7, 255), (8, 2)]), by decide +kernel⟩⟩

/-- Witnesses for ZShiftsAndDivision. -/
theorem witness_ZShiftsAndDivision_4 :
    (∃ (c : CoreId) (z : ZIns) (h : CoreHw) (g : ZGot) (w : Nat) (v : Nat) (s : State), Issues s c h z (use2 3 .none) ∧ w = 8 * zOctets
      z ∧ (operandsOf (use2 3 .none) c h z (zOctets z) (zOctets z)).toOption = some g ∧ g.a = 2 ^ (w - 1) ∧ g.b = 2 ^ w - 1 ∧ v = 0) :=
  ⟨0, (zl 2 3 1 2 3), (((coreAt [(7, 128), (8, 255), (9, 255), (10, 255), (11, 255)]).core 0).landed), (got 2147483648 4294967295 (some 12)), 32, 0, (coreAt [(7, 128), (8, 255), (9, 255), (10, 255), (11, 255)]), by decide +kernel⟩

/-- Witnesses for ZMovesAndCrc. -/
theorem witness_ZMovesAndCrc_0 :
    (∃ (c : CoreId) (z : ZIns) (h : CoreHw) (g : ZGot) (w : Nat) (v : Nat) (s : State), Issues s c h z (useExt 0) ∧ w = 8 * zOctets z ∧
      (operandsOf (useExt 0) c h z (zOctets z) (4)).toOption = some g ∧ v = g.a) ∧
    (∃ (c : CoreId) (z : ZIns) (h : CoreHw) (g : ZGot) (w : Nat) (v : Nat) (s : State), Issues s c h z (useExt 1) ∧ w = 8 * zOctets z ∧
      (operandsOf (useExt 1) c h z (zOctets z) (4)).toOption = some g ∧ v = (signed w g.a % 2 ^ 32).toNat) ∧
    (∃ (c : CoreId) (z : ZIns) (h : CoreHw) (g : ZGot) (w : Nat) (v : Nat) (s : State), Issues s c h z (useSwab z) ∧ w = 8 * zOctets z
      ∧ (operandsOf (useSwab z) c h z (zOctets z) (zOctets z)).toOption = some g ∧ w = 16 ∧ v = g.a % 256 * 256 + g.a / 256 % 256) ∧
    (∃ (c : CoreId) (z : ZIns) (h : CoreHw) (g : ZGot) (w : Nat) (v : Nat) (s : State), Issues s c h z (useSwab z) ∧ w = 8 * zOctets z
      ∧ (operandsOf (useSwab z) c h z (zOctets z) (zOctets z)).toOption = some g ∧ w = 32 ∧ z.sub = 0 ∧ g.a < 2 ^ 32 ∧ v = g.a / 256 %
      256 + g.a % 256 * 256 + (g.a / 16777216 + g.a / 65536 % 256 * 256) * 65536) ∧
    (∃ (c : CoreId) (z : ZIns) (h : CoreHw) (g : ZGot) (w : Nat) (v : Nat) (s : State), Issues s c h z (useSwab z) ∧ w = 8 * zOctets z
      ∧ (operandsOf (useSwab z) c h z (zOctets z) (zOctets z)).toOption = some g ∧ w = 32 ∧ z.sub = 1 ∧ g.a < 2 ^ 32 ∧ v = g.a /
      16777216 + g.a / 65536 % 256 * 256 + g.a / 256 % 256 * 65536 + g.a % 256 * 16777216) ∧
    (∃ (c : CoreId) (z : ZIns) (h : CoreHw) (g : ZGot) (w : Nat) (v : Nat) (s : State), Issues s c h z (useSwab z) ∧ w = 8 * zOctets z
      ∧ (operandsOf (useSwab z) c h z (zOctets z) (zOctets z)).toOption = some g ∧ w = 32 ∧ z.sub = 2 ∧ g.a < 2 ^ 32 ∧ v = g.a / 65536
      + g.a % 65536 * 65536) :=
  ⟨⟨0, (zl 0 3 1 0 0), (((coreAt [(4, 240)]).core 0).landed), (got 240 0 (some 12)), 8, 240, (coreAt [(4, 240)]), by decide +kernel⟩,
    ⟨0, (zl 0 3 1 0 1), (((coreAt [(4, 240)]).core 0).landed), (got 240 0 (some 12)), 8, 4294967280, (coreAt [(4, 240)]), by decide +kernel⟩,
    ⟨0, (zl 1 3 1 0 0), (((coreAt [(4, 52), (5, 18)]).core 0).landed), (got 4660 0 (some 12)), 16, 13330, (coreAt [(4, 52), (5, 18)]), by decide +kernel⟩,
    ⟨0, (zl 2 3 1 0 0), (((coreAt [(4, 120), (5, 86), (6, 52), (7, 18)]).core 0).landed), (got 305419896 0 (some 12)), 32, 873625686, (coreAt [(4, 120), (5, 86), (6, 52), (7, 18)]), by decide +kernel⟩,
    ⟨0, (zl 2 3 1 0 1), (((coreAt [(4, 120), (5, 86), (6, 52), (7, 18)]).core 0).landed), (got 305419896 0 (some 12)), 32, 2018915346, (coreAt [(4, 120), (5, 86), (6, 52), (7, 18)]), by decide +kernel⟩,
    ⟨0, (zl 2 3 1 0 2), (((coreAt [(4, 120), (5, 86), (6, 52), (7, 18)]).core 0).landed), (got 305419896 0 (some 12)), 32, 1450709556, (coreAt [(4, 120), (5, 86), (6, 52), (7, 18)]), by decide +kernel⟩⟩

/-- Witnesses for ZMovesAndCrc. -/
theorem witness_ZMovesAndCrc_1 :
    (∃ (c : CoreId) (z : ZIns) (h : CoreHw) (g : ZGot) (w : Nat) (v : Nat) (s : State), Issues s c h z (use1 0 .none) ∧ w = 8 * zOctets
      z ∧ (operandsOf (use1 0 .none) c h z (zOctets z) (zOctets z)).toOption = some g ∧ v = revBits w g.a) ∧
    (∃ (c : CoreId) (z : ZIns) (h : CoreHw) (g : ZGot) (w : Nat) (v : Nat) (s : State), Issues s c h z (use1 0 .none) ∧ w = 8 * zOctets
      z ∧ (operandsOf (use1 0 .none) c h z (zOctets z) (zOctets z)).toOption = some g ∧ v = ((List.range w).filter fun i => g.a.testBit
      i).length % 2) ∧
    (∃ (c : CoreId) (z : ZIns) (h : CoreHw) (g : ZGot) (w : Nat) (v : Nat) (s : State), Issues s c h z (useShort .dest .load) ∧ w = 8 *
      zOctets z ∧ (operandsOf (useShort .dest .load) c h z (zOctets z) (zOctets z)).toOption = some g ∧ v = g.a) ∧
    (∃ (c : CoreId) (z : ZIns) (h : CoreHw) (g : ZGot) (w : Nat) (v : Nat) (s : State), Issues s c h z useCrc ∧ (operandsOf useCrc c h
      z (zOctets z) 4).toOption = some g ∧ crcWidth (h.crcWord Page.crcf) = some w ∧ v = crcStep w (h.crcWord Page.crcp) ((h.crcWord
      Page.crcf).testBit 2) (8 * zOctets z) g.a (h.crcWord Page.crcv)) ∧
    (∃ (c : CoreId) (z : ZIns) (h : CoreHw) (p : Nat × Nat × Nat) (s : State), Issues s c h z (useNone [0, 1, 2] .none) ∧ p = (if z.sub
      = 0 then (0x04C11DB7, 4, 0xFFFFFFFF) else if z.sub = 1 then (0x1021, 1, 0xFFFF) else (7, 2, 0))) :=
  ⟨⟨0, (zl 2 3 1 0 0), (((coreAt [(4, 1)]).core 0).landed), (got 1 0 (some 12)), 32, 2147483648, (coreAt [(4, 1)]), by decide +kernel⟩,
    ⟨0, (zl 2 3 1 0 0), (((coreAt [(4, 7)]).core 0).landed), (got 7 0 (some 12)), 32, 1, (coreAt [(4, 7)]), by decide +kernel⟩,
    ⟨0, (zs 1 15), (((coreAt []).core 0).landed), { a := 15, b := 0, e := 0, dst := some 4, acc := ZAcc.start }, 32, 15, (coreAt []), by decide +kernel⟩,
    ⟨0, (zl 0 0 1 0 0), (((coreAt [(4, 5)]).core 0).landed), (got 5 0 none), 32, 0, (coreAt [(4, 5)]), by decide +kernel⟩,
    ⟨0, (zl 3 0 0 0 2), (((coreAt []).core 0).landed), ((7, 2, 0)), (coreAt []), by decide +kernel⟩⟩

/-- Witnesses for ZIoSpace. -/
theorem witness_ZIoSpace_0 :
    (∃ (c : CoreId) (z : ZIns) (h : CoreHw) (g : ZGot) (r : Nat × State) (s : State), Issues s c h z useIn ∧ (operandsOf useIn c h z 4
      4).toOption = some g ∧ ioTrap (s.setCore c h) c (g.a % 65536) = none ∧ r = (s.setCore c h).ioRead c (g.a % 65536) ∧ r.2.coreRuns
      c = true) ∧
    (∃ (c : CoreId) (z : ZIns) (h : CoreHw) (g : ZGot) (s : State), Issues s c h z useOut ∧ (operandsOf useOut c h z 4 4).toOption =
      some g ∧ ioTrap (s.setCore c h) c (g.a % 65536) = none) ∧
    (∃ (c : CoreId) (z : ZIns) (h : CoreHw) (g : ZGot) (s : State), Issues s c h z useIrd ∧ c.val ≠ 17 ∧ z.size = 2 ∧ (operandsOf
      useIrd c h z 4 4).toOption = some g ∧ g.a % 2 = 0) ∧
    (∃ (c : CoreId) (z : ZIns) (h : CoreHw) (g : ZGot) (s : State), Issues s c h z useIrd ∧ c.val ≠ 17 ∧ z.size = 1 ∧ (operandsOf
      useIrd c h z 2 2).toOption = some g ∧ g.a % 2 = 0) ∧
    (∃ (c : CoreId) (z : ZIns) (h : CoreHw) (g : ZGot) (s : State), Issues s c h z useIwr ∧ c.val = 17 ∧ z.size = 1 ∧ (operandsOf
      useIwr c h z 2 2).toOption = some g ∧ g.a % 2 = 0 ∧ 0x4000 ≤ g.a % 65536) ∧
    (∃ (c : CoreId) (z : ZIns) (h : CoreHw) (g : ZGot) (s : State), Issues s c h z useXfer ∧ (operandsOf useXfer c h z 4 4).toOption =
      some g) :=
  ⟨⟨0, (zl 2 3 1 0 0), (((coreAt [(4, 0x14), (5, 0xF0)]).core 0).landed), (got 0xF014 0 (some 12)), ((coreAt [(4, 0x14), (5, 0xF0)]).ioRead 0 0xF014), (coreAt [(4, 0x14), (5, 0xF0)]), by decide +kernel⟩,
    ⟨0, (zl 2 0 1 2 0), (((coreAt [(4, 0x14), (5, 0xF0), (8, 200)]).core 0).landed), (got 0xF014 200 none), (coreAt [(4, 0x14), (5, 0xF0), (8, 200)]), by decide +kernel⟩,
    ⟨0, (zl 2 3 1 0 0), (((coreAt [(4, 16)]).core 0).landed), (got 16 0 (some 12)), (coreAt [(4, 16)]), by decide +kernel⟩,
    ⟨0, (zl 1 3 1 0 0), (((coreAt [(4, 16)]).core 0).landed), (got 16 0 (some 12)), (coreAt [(4, 16)]), by decide +kernel⟩,
    ⟨17, (zl 1 0 1 2 0), (((live.setCore 17 { CoreHw.reset with run := .running, dmem := [(5, 0x50), (8, 7)] }).core 17).landed), (got 0x5000 7 none), ((live.setCore 17 { CoreHw.reset with run := .running, dmem := [(5, 0x50), (8, 7)] })), by decide +kernel⟩,
    ⟨0, (zl 3 3 1 2 0), (((coreAt [(7, 1), (8, 8)]).core 0).landed), { got 0x1000000 8 none with e := 0 }, (coreAt [(7, 1), (8, 8)]), by decide +kernel⟩⟩

/-- Witnesses for ZIoSpace. -/
theorem witness_ZIoSpace_1 :
    (∃ (c : CoreId) (z : ZIns) (h : CoreHw) (g : ZGot) (s : State), Issues s c h z useXfer ∧ (operandsOf useXfer c h z 4 4).toOption =
      some g) ∧
    (∃ (c : CoreId) (z : ZIns) (h : CoreHw) (g : ZGot) (s : State), Issues s c h z useXfer ∧ (operandsOf useXfer c h z 4 4).toOption =
      some g ∧ c.val < 16 ∧ xferAllowed (s.setCore c (g.pointers h)) c true g.e g.a g.b z.sub = true ∧ (g.pointers h).run = .running) ∧
    (∃ (c : CoreId) (z : ZIns) (h : CoreHw) (g : ZGot) (s : State), Issues s c h z useXfer ∧ (operandsOf useXfer c h z 4 4).toOption =
      some g ∧ c.val < 17 ∧ xferAllowed (s.setCore c (g.pointers h)) c false g.e g.a g.b z.sub = false ∧ xferDenied c false g.a = true
      ∧ (g.pointers h).run = .running) ∧
    (∃ (c : CoreId) (z : ZIns) (h : CoreHw) (g : ZGot) (s : State), Issues s c h z useXfer ∧ (operandsOf useXfer c h z 4 4).toOption =
      some g ∧ c.val < 17 ∧ xferAllowed (s.setCore c (g.pointers h)) c false g.e g.a g.b z.sub = false ∧ xferDenied c false g.a = false
      ∧ (g.pointers h).run = .running) :=
  ⟨⟨0, (zl 3 3 1 2 0), (((coreAt [(7, 1), (8, 8)]).core 0).landed), { got 0x1000000 8 none with e := 0 }, (coreAt [(7, 1), (8, 8)]), by decide +kernel⟩,
    ⟨0, (zl 3 3 1 2 0), (((coreAt [(7, 1), (8, 8)]).core 0).landed), { got 0x1000000 8 none with e := 0 }, (coreAt [(7, 1), (8, 8)]), by decide +kernel⟩,
    ⟨0, (zl 3 3 1 2 0), (((coreAt [(5, 64), (7, 1), (8, 6)]).core 0).landed), { got 0x1004000 6 none with e := 0 }, (coreAt [(5, 64), (7, 1), (8, 6)]), by decide +kernel⟩,
    ⟨0, (zl 3 3 1 2 0), (((coreAt [(8, 6)]).core 0).landed), { got 0 6 none with e := 0 }, (coreAt [(8, 6)]), by decide +kernel⟩⟩

/-- Witnesses for ZStrings. -/
theorem witness_ZStrings_0 :
    (∃ (c : CoreId) (z : ZIns) (lim : Option Nat) (h : CoreHw) (n : Nat) (src : Nat) (dst : Nat) (s : State), Issues s c h z (useStr
      .movs) ∧ n = zOctets z ∧ src = h.unitSrc ∧ dst = h.unitDst ∧ checkAt c n src = none ∧ checkAt c n dst = none) ∧
    (∃ (c : CoreId) (z : ZIns) (lim : Option Nat) (h : CoreHw) (n : Nat) (src : Nat) (dst : Nat) (g : ZGot) (s : State), Issues s c h z
      (useStr .fils) ∧ n = zOctets z ∧ src = h.unitSrc ∧ dst = h.unitDst ∧ (operandsOf (useStr .fils) c h z n n).toOption = some g ∧
      checkAt c n dst = none) ∧
    (∃ (c : CoreId) (z : ZIns) (lim : Option Nat) (h : CoreHw) (n : Nat) (src : Nat) (dst : Nat) (s : State), Issues s c h z (useStr
      .cmps) ∧ n = zOctets z ∧ src = h.unitSrc ∧ dst = h.unitDst ∧ checkAt c n src = none ∧ checkAt c n dst = none) ∧
    (∃ (c : CoreId) (z : ZIns) (lim : Option Nat) (h : CoreHw) (n : Nat) (src : Nat) (dst : Nat) (g : ZGot) (s : State), Issues s c h z
      (useStr .scns) ∧ n = zOctets z ∧ src = h.unitSrc ∧ dst = h.unitDst ∧ (operandsOf (useStr .scns) c h z n n).toOption = some g ∧
      checkAt c n src = none) ∧
    (∃ (c : CoreId) (z : ZIns) (lim : Option Nat) (h : CoreHw) (n : Nat) (src : Nat) (w : Nat) (v : Nat) (s : State), Issues s c h z
      (useStr .crcs) ∧ n = zOctets z ∧ src = h.unitSrc ∧ checkAt c n src = none ∧ crcWidth (h.crcWord Page.crcf) = some w ∧ v = crcStep
      w (h.crcWord Page.crcp) ((h.crcWord Page.crcf).testBit 2) (8 * n) (h.load h.asElement n src) (h.crcWord Page.crcv)) ∧
    (∃ (c : CoreId) (z : ZIns) (lim : Option Nat) (h : CoreHw) (n : Nat) (src : Nat) (p : Nat) (s : State), Issues s c h z (useStr
      .pars) ∧ n = zOctets z ∧ src = h.unitSrc ∧ checkAt c n src = none ∧ p = (h.flagsEx / Flag.pf + parity (8 * n) (h.load h.asElement
      n src)) % 2) :=
  ⟨⟨0, (zl 0 0 0 0 0), none, (((coreAt [(4, 9), (0x100, 0x55), (0xFFFFFF0D, 1), (0xFFFFFF11, 2)]).core 0).landed), 1, 0x100, 0x200, (coreAt [(4, 9), (0x100, 0x55), (0xFFFFFF0D, 1), (0xFFFFFF11, 2)]), by decide +kernel⟩,
    ⟨0, (zl 0 0 1 0 0), none, (((coreAt [(4, 9), (0x100, 0x55), (0xFFFFFF0D, 1), (0xFFFFFF11, 2)]).core 0).landed), 1, 0x100, 0x200, (got 9 0 none), (coreAt [(4, 9), (0x100, 0x55), (0xFFFFFF0D, 1), (0xFFFFFF11, 2)]), by decide +kernel⟩,
    ⟨0, (zl 0 0 0 0 0), none, (((coreAt [(4, 9), (0x100, 0x55), (0xFFFFFF0D, 1), (0xFFFFFF11, 2)]).core 0).landed), 1, 0x100, 0x200, (coreAt [(4, 9), (0x100, 0x55), (0xFFFFFF0D, 1), (0xFFFFFF11, 2)]), by decide +kernel⟩,
    ⟨0, (zl 0 0 1 0 0), none, (((coreAt [(4, 9), (0x100, 0x55), (0xFFFFFF0D, 1), (0xFFFFFF11, 2)]).core 0).landed), 1, 0x100, 0x200, (got 9 0 none), (coreAt [(4, 9), (0x100, 0x55), (0xFFFFFF0D, 1), (0xFFFFFF11, 2)]), by decide +kernel⟩,
    ⟨0, (zl 0 0 0 0 0), none, (((coreAt [(4, 9), (0x100, 0x55), (0xFFFFFF0D, 1), (0xFFFFFF11, 2)]).core 0).landed), 1, 0x100, 32, 0, (coreAt [(4, 9), (0x100, 0x55), (0xFFFFFF0D, 1), (0xFFFFFF11, 2)]), by decide +kernel⟩,
    ⟨0, (zl 0 0 0 0 0), none, (((coreAt [(4, 9), (0x100, 0x55), (0xFFFFFF0D, 1), (0xFFFFFF11, 2)]).core 0).landed), 1, 0x100, 0, (coreAt [(4, 9), (0x100, 0x55), (0xFFFFFF0D, 1), (0xFFFFFF11, 2)]), by decide +kernel⟩⟩

/-- Witnesses for ZStrings. -/
theorem witness_ZStrings_1 :
    (∃ (c : CoreId) (z : ZIns) (lim : Option Nat) (h : CoreHw) (k : CoreHw) (s : State), Fetches s c h ∧ z.ecc = .clean ∧ condHolds
      z.cond.val h.flagsRead = true ∧ (useStr .movs).defined z = true ∧ h.inRepeat = true ∧ k = h.loadCount ∧ k.unitRc = 0) ∧
    (∃ (c : CoreId) (z : ZIns) (lim : Option Nat) (h : CoreHw) (k : CoreHw) (s : State), Fetches s c h ∧ z.ecc = .clean ∧ condHolds
      z.cond.val h.flagsRead = true ∧ (useStr .cmps).defined z = true ∧ h.inRepeat = true ∧ k = h.loadCount ∧ k.unitRc = 0) ∧
    (∃ (c : CoreId) (z : ZIns) (lim : Option Nat) (h : CoreHw) (e : Nat) (k : CoreHw) (s : State), Issues s c h z (useStr .fils) ∧
      s.core c = h ∧ (operandsOf (useStr .fils) c h z (zOctets z) (zOctets z)).toOption.isSome = true ∧ checkAt c (zOctets z) h.unitDst
      = some e ∧ h.posted = [] ∧ h.flagsAll.testBit 9 = false ∧ h.slots = 0 ∧ k = h.flushed) :=
  ⟨⟨0, (zl 0 0 0 0 0), none, ((((coreAt [(4, 9)]).setCore 0 { (coreAt [(4, 9)]).core 0 with rpt := some { addr := 8, count := some 0, begun := false, ran := false } }).core 0).landed), ((((coreAt [(4, 9)]).setCore 0 { (coreAt [(4, 9)]).core 0 with rpt := some { addr := 8, count := some 0, begun := false, ran := false } }).core 0).landed.loadCount), ((coreAt [(4, 9)]).setCore 0 { (coreAt [(4, 9)]).core 0 with rpt := some { addr := 8, count := some 0, begun := false, ran := false } }), by decide +kernel⟩,
    ⟨0, (zl 0 0 0 0 0), none, ((((coreAt [(4, 9)]).setCore 0 { (coreAt [(4, 9)]).core 0 with rpt := some { addr := 8, count := some 0, begun := false, ran := false } }).core 0).landed), ((((coreAt [(4, 9)]).setCore 0 { (coreAt [(4, 9)]).core 0 with rpt := some { addr := 8, count := some 0, begun := false, ran := false } }).core 0).landed.loadCount), ((coreAt [(4, 9)]).setCore 0 { (coreAt [(4, 9)]).core 0 with rpt := some { addr := 8, count := some 0, begun := false, ran := false } }), by decide +kernel⟩,
    ⟨0, (zl 0 0 1 0 0), none, ((coreAt [(0xFFFFFF12, 1)]).core 0), 3, (((coreAt [(0xFFFFFF12, 1)]).core 0).flushed), (coreAt [(0xFFFFFF12, 1)]), by decide +kernel⟩⟩

/-- Witnesses for ZControl. -/
theorem witness_ZControl_0 :
    (∃ (c : CoreId) (z : ZIns) (h : CoreHw) (s : State), Issues s c h z (useNone [0] .none) ∧ h.slots = 0) ∧
    (∃ (c : CoreId) (z : ZIns) (h : CoreHw) (s : State), Fetches s c h ∧ z.ecc = .clean ∧ z.short = false ∧ condHolds z.cond.val
      h.flagsRead = false ∧ h.slots = 0 ∧ h.rpt = none ∧ h.wdog = false) ∧
    (∃ (c : CoreId) (z : ZIns) (h : CoreHw) (s : State), Fetches s c h ∧ z.ecc = .clean ∧ z.short = false ∧ condHolds z.cond.val
      h.flagsRead = false ∧ h.slots = 0 ∧ h.rpt = none ∧ h.wdog = false) ∧
    (∃ (c : CoreId) (z : ZIns) (h : CoreHw) (s : State), Fetches s c h ∧ z.ecc = .clean ∧ z.short = false ∧ condHolds z.cond.val
      h.flagsRead = false ∧ h.slots = 0 ∧ h.rpt = none ∧ h.wdog = false) ∧
    (∃ (c : CoreId) (z : ZIns) (h : CoreHw) (s : State), Fetches s c h ∧ z.ecc = .clean ∧ z.short = false ∧ condHolds z.cond.val
      h.flagsRead = false ∧ h.slots = 0 ∧ h.rpt = none ∧ h.wdog = false) ∧
    (∃ (c : CoreId) (z : ZIns) (h : CoreHw) (g : ZGot) (s : State), Issues s c h z useCtl1 ∧ h.slots = 0 ∧ (operandsOf useCtl1 c h z 4
      4).toOption = some g ∧ g.a % 2 = 0) :=
  ⟨⟨0, { zl 3 0 0 0 0 with off := 0xFFFFE }, (((coreAt []).core 0).landed), (coreAt []), by decide +kernel⟩,
    ⟨0, { zl 3 0 0 0 0 with cond := 1 }, (((coreAt []).core 0).landed), (coreAt []), by decide +kernel⟩,
    ⟨0, { zl 3 0 0 0 0 with cond := 1 }, (((coreAt []).core 0).landed), (coreAt []), by decide +kernel⟩,
    ⟨0, { zl 3 0 0 0 0 with cond := 1 }, (((coreAt []).core 0).landed), (coreAt []), by decide +kernel⟩,
    ⟨0, { zl 3 0 0 0 0 with cond := 1 }, (((coreAt []).core 0).landed), (coreAt []), by decide +kernel⟩,
    ⟨0, (zl 3 0 1 0 0), (((coreAt [(4, 16)]).core 0).landed), (got 16 0 none), (coreAt [(4, 16)]), by decide +kernel⟩⟩

/-- Witnesses for ZControl. -/
theorem witness_ZControl_1 :
    (∃ (c : CoreId) (z : ZIns) (h : CoreHw) (a : Nat) (s : State), Issues s c h z (useNone [0] .none) ∧ h.slots = 0 ∧ a = wrap32
      (h.word h.asAddress Page.sp + 4294967292) ∧ checkAt c 4 a = none) ∧
    (∃ (c : CoreId) (z : ZIns) (h : CoreHw) (g : ZGot) (k : CoreHw) (s : State), Issues s c h z useCtl1 ∧ h.slots = 0 ∧ (operandsOf
      useCtl1 c h z 4 4).toOption = some g ∧ g.a % 2 = 0 ∧ (pushReturn c (g.pointers h)).toOption.isSome = true ∧ k = ((pushReturn c
      (g.pointers h)).toOption.getD h)) ∧
    (∃ (c : CoreId) (z : ZIns) (h : CoreHw) (a : Nat) (v : Nat) (s : State), Issues s c h z (useNone [0] (.misc [3] false)) ∧ h.slots =
      0 ∧ a = h.word h.asAddress Page.sp ∧ checkAt c 4 a = none ∧ v = h.word h.asOperand a ∧ v % 2 = 0) ∧
    (∃ (c : CoreId) (z : ZIns) (h : CoreHw) (s : State), Issues s c h z (useNone [0] (.misc [2] false)) ∧ h.slots = 0) ∧
    (∃ (c : CoreId) (z : ZIns) (h : CoreHw) (a : Nat) (s : State), Issues s c h z (useNone [0] (.misc [2] false)) ∧ h.slots = 1 ∧
      h.target = some (.addr a)) ∧
    (∃ (c : CoreId) (z : ZIns) (h : CoreHw) (s : State), Issues s c h z (useNone [0] (.misc [2] false)) ∧ h.slots = 2) :=
  ⟨⟨0, { zl 3 0 0 0 0 with off := 8 }, (((coreAt [(0xFFFFFF25, 1)]).core 0).landed), 0xFC, (coreAt [(0xFFFFFF25, 1)]), by decide +kernel⟩,
    ⟨0, (zl 3 0 1 0 0), (((coreAt [(4, 16), (0xFFFFFF25, 1)]).core 0).landed), (got 16 0 none), (((pushReturn 0 (((coreAt [(4, 16), (0xFFFFFF25, 1)]).core 0).landed)).toOption.getD ((coreAt []).core 0))), (coreAt [(4, 16), (0xFFFFFF25, 1)]), by decide +kernel⟩,
    ⟨0, (zs 3 0), (((coreAt [(0x100, 32), (0xFFFFFF25, 1)]).core 0).landed), 0x100, 32, (coreAt [(0x100, 32), (0xFFFFFF25, 1)]), by decide +kernel⟩,
    ⟨0, (zs 2 0), (((coreAt []).core 0).landed), (coreAt []), by decide +kernel⟩,
    ⟨0, (zs 2 0), ((((coreAt []).setCore 0 { (coreAt []).core 0 with slots := 1, target := some (.addr 64) }).core 0).landed), 64, ((coreAt []).setCore 0 { (coreAt []).core 0 with slots := 1, target := some (.addr 64) }), by decide +kernel⟩,
    ⟨0, (zs 2 0), ((((coreAt []).setCore 0 { (coreAt []).core 0 with slots := 2, target := some (.addr 64) }).core 0).landed), ((coreAt []).setCore 0 { (coreAt []).core 0 with slots := 2, target := some (.addr 64) }), by decide +kernel⟩⟩

/-- Witnesses for ZControl. -/
theorem witness_ZControl_2 :
    (∃ (c : CoreId) (z : ZIns) (h : CoreHw) (g : ZGot) (s : State), Issues s c h z useRpt ∧ h.reentry = false ∧ (operandsOf useRpt c h
      z 4 4).toOption = some g ∧ h.slots = 0) ∧
    (∃ (c : CoreId) (z : ZIns) (h : CoreHw) (k : Nat) (s : State), Issues s c h z usePset ∧ z.short = false ∧ z.sub = 0 ∧ k = z.d.toNat
      ∧ k < 8) ∧
    (∃ (c : CoreId) (z : ZIns) (h : CoreHw) (k : Nat) (s : State), Issues s c h z usePset ∧ z.short = false ∧ z.sub = 1 ∧ k = z.d.toNat
      ∧ k < 8) ∧
    (∃ (c : CoreId) (z : ZIns) (h : CoreHw) (k : Nat) (s : State), Issues s c h z usePset ∧ z.short = false ∧ z.sub = 2 ∧ k = z.d.toNat
      ∧ k < 8) ∧
    (∃ (c : CoreId) (z : ZIns) (h : CoreHw) (k : Nat) (s : State), Issues s c h z usePset ∧ z.short = false ∧ z.sub = 3 ∧ k = z.d.toNat
      ∧ k < 8) ∧
    (∃ (c : CoreId) (z : ZIns) (h : CoreHw) (k : CoreHw) (s : State), Issues s c h z (useNone [0] (.misc [4] false)) ∧ c.val < 17 ∧
      h.posted = [] ∧ k = h.advance (zLen z) .wait ∧ pendingLines (s.setCore c k) (Fin.ofNat 17 c.val) = 0 ∧ pendingLines (s.setCore c
      k.flushed) (Fin.ofNat 17 c.val) = 0) :=
  ⟨⟨0, (zl 3 0 1 0 0), (((coreAt [(4, 16)]).core 0).landed), (got 16 0 none), (coreAt [(4, 16)]), by decide +kernel⟩,
    ⟨0, (zl 3 7 0 0 0), (((coreAt []).core 0).landed), 7, (coreAt []), by decide +kernel⟩,
    ⟨0, (zl 3 7 0 0 1), (((coreAt []).core 0).landed), 7, (coreAt []), by decide +kernel⟩,
    ⟨0, (zl 3 7 0 0 2), (((coreAt []).core 0).landed), 7, (coreAt []), by decide +kernel⟩,
    ⟨0, (zl 3 7 0 0 3), (((coreAt []).core 0).landed), 7, (coreAt []), by decide +kernel⟩,
    ⟨0, (zs 4 0), (((coreAt []).core 0).landed), (((coreAt []).core 0).landed.advance 2 .wait), (coreAt []), by decide +kernel⟩⟩

/-- Witnesses for ZControl. -/
theorem witness_ZControl_3 :
    (∃ (c : CoreId) (z : ZIns) (h : CoreHw) (s : State), Issues s c h z (useNone [0] (.misc [4] false)) ∧ c.val = 17) ∧
    (∃ (c : CoreId) (z : ZIns) (h : CoreHw) (k : CoreHw) (epc : Nat) (cause : Nat) (s : State), Issues s c h z (useNone [0] .none) ∧
      h.slots = 0 ∧ h.posted = [] ∧ k = h.flushed ∧ epc = k.word everything Page.epc ∧ cause = k.word everything Page.ecause ∧ cause /
      256 % 4 = 0 ∧ epc % 2 = 0) ∧
    (∃ (c : CoreId) (z : ZIns) (h : CoreHw) (k : CoreHw) (cause : Nat) (s : State), Issues s c h z (useNone [0] .none) ∧ h.slots = 0 ∧
      h.posted = [] ∧ k = h.flushed ∧ cause = k.word everything Page.ecause ∧ cause / 256 % 4 ≠ 0) ∧
    (∃ (c : CoreId) (z : ZIns) (h : CoreHw) (sp : Nat) (s : State), Fetches s c h ∧ z.ecc = .clean ∧ condHolds z.cond.val h.flagsRead =
      true ∧ (useNone [0] (.misc [2] false)).defined z = true ∧ h.inRepeat = false ∧ h.wdog = false ∧ h.slots = 1 ∧ h.target = some
      .stack ∧ sp = h.word everything Page.sp ∧ checkAt c 4 sp = none) :=
  ⟨⟨17, (zs 4 0), (((live.setCore 17 { CoreHw.reset with run := .running }).core 17).landed), (live.setCore 17 { CoreHw.reset with run := .running }), by decide +kernel⟩,
    ⟨0, (zl 3 0 0 0 0), (((coreAt [(0xFFFFFF28, 0x40), (0xFFFFFF2D, 4)]).core 0).landed), (((coreAt [(0xFFFFFF28, 0x40), (0xFFFFFF2D, 4)]).core 0).landed.flushed), 0x40, 0x400, ((coreAt [(0xFFFFFF28, 0x40), (0xFFFFFF2D, 4)])), by decide +kernel⟩,
    ⟨0, (zl 3 0 0 0 0), (((coreAt [(0xFFFFFF28, 0x40), (0xFFFFFF2D, 1)]).core 0).landed), (((coreAt [(0xFFFFFF28, 0x40), (0xFFFFFF2D, 1)]).core 0).landed.flushed), 0x100, ((coreAt [(0xFFFFFF28, 0x40), (0xFFFFFF2D, 1)])), by decide +kernel⟩,
    ⟨0, (zs 2 0), ((((coreAt []).setCore 0 { (coreAt [(0x100, 32), (0xFFFFFF25, 1)]).core 0 with slots := 1, target := some .stack }).core 0).landed), 0x100, ((coreAt []).setCore 0 { (coreAt [(0x100, 32), (0xFFFFFF25, 1)]).core 0 with slots := 1, target := some .stack }), by decide +kernel⟩⟩

/-- Witnesses for ZExceptions. -/
theorem witness_ZExceptions_0 :
    (∃ (c : CoreId) (z : ZIns) (h : CoreHw) (k : CoreHw) (s : State), Fetches s c h ∧ h.posted = [] ∧ k = h.flushed ∧ k.flg.testBit 9 =
      false ∧ h.slots = 0 ∧ h.rpt = none ∧ z.ecc = .clean ∧ condHolds z.cond.val h.flagsRead = true ∧ (useNone [0] (.misc [2]
      false)).defined z = false) ∧
    (∃ (c : CoreId) (z : ZIns) (h : CoreHw) (k : CoreHw) (e : Nat) (s : State), Fetches s c h ∧ h.posted = [] ∧ k = h.flushed ∧
      k.flg.testBit 9 = false ∧ h.slots = 0 ∧ h.rpt = none ∧ z.ecc = .clean ∧ condHolds z.cond.val h.flagsRead = true ∧ (use2 0
      .binary).defined z = true ∧ h.wdog = false ∧ checkAt c 4 (wrap32 (h.word h.asAddress Page.fp + 4 * specNum z.s1)) = some e ∧
      z.short = false ∧ z.size = 2 ∧ specMode z.s1 = 0 ∧ e < 16) ∧
    (∃ (c : CoreId) (z : ZIns) (h : CoreHw) (k : CoreHw) (g : ZGot) (s : State), Fetches s c h ∧ h.posted = [] ∧ k = h.flushed ∧
      k.flg.testBit 9 = false ∧ h.slots = 0 ∧ h.rpt = none ∧ z.ecc = .clean ∧ condHolds z.cond.val h.flagsRead = true ∧ useCtl1.defined
      z = true ∧ h.wdog = false ∧ (operandsOf useCtl1 c h z 4 4).toOption = some g ∧ g.a % 2 = 1) ∧
    (∃ (c : CoreId) (z : ZIns) (h : CoreHw) (k : CoreHw) (g : ZGot) (s : State), Fetches s c h ∧ h.posted = [] ∧ k = h.flushed ∧
      k.flg.testBit 9 = false ∧ h.slots = 0 ∧ h.rpt = none ∧ z.ecc = .clean ∧ condHolds z.cond.val h.flagsRead = true ∧ useIn.defined z
      = true ∧ h.wdog = false ∧ (operandsOf useIn c h z 4 4).toOption = some g ∧ ioTrap (s.setCore c h) c (g.a % 65536) = some 3) ∧
    (∃ (c : CoreId) (z : ZIns) (h : CoreHw) (k : CoreHw) (s : State), Fetches s c h ∧ h.posted = [] ∧ k = h.flushed ∧ k.flg.testBit 9 =
      false ∧ h.slots = 0 ∧ h.rpt = none ∧ z.ecc = .clean ∧ condHolds z.cond.val h.flagsRead = true ∧ (useNone [0] (.misc [2]
      false)).defined z = true ∧ h.wdog = true) ∧
    (∃ (c : CoreId) (z : ZIns) (h : CoreHw) (s : State), Fetches s c h ∧ h.posted = [] ∧ h.flagsAll.testBit 9 = true ∧ h.rpt = none ∧
      h.slots = 0 ∧ c.val < 16 ∧ s.engSt (Fin.ofNat 17 c.val) = 1 ∧ z.ecc = .clean ∧ condHolds z.cond.val h.flagsRead = true ∧ (useNone
      [0] (.misc [2] false)).defined z = false) :=
  ⟨⟨0, { zs 2 0 with d := 9 }, (((coreAt [(0xFFFFFF51, 2)]).core 0).landed), (((coreAt [(0xFFFFFF51, 2)]).core 0).landed.flushed), ((coreAt [(0xFFFFFF51, 2)])), by decide +kernel⟩,
    ⟨0, (zl 2 3 1 2 0), (((coreAt [(0xFFFFFF01, 128), (0xFFFFFF51, 2)]).core 0).landed), (((coreAt [(0xFFFFFF01, 128), (0xFFFFFF51, 2)]).core 0).landed.flushed), 3, ((coreAt [(0xFFFFFF01, 128), (0xFFFFFF51, 2)])), by decide +kernel⟩,
    ⟨0, (zl 3 0 1 0 0), (((coreAt [(4, 17), (0xFFFFFF51, 2)]).core 0).landed), (((coreAt [(4, 17), (0xFFFFFF51, 2)]).core 0).landed.flushed), (got 17 0 none), ((coreAt [(4, 17), (0xFFFFFF51, 2)])), by decide +kernel⟩,
    ⟨0, (zl 2 3 1 0 0), (((coreAt [(5, 144), (0xFFFFFF51, 2)]).core 0).landed), (((coreAt [(5, 144), (0xFFFFFF51, 2)]).core 0).landed.flushed), (got 0x9000 0 (some 12)), ((coreAt [(5, 144), (0xFFFFFF51, 2)])), by decide +kernel⟩,
    ⟨0, (zs 2 0), ((((coreAt [(0xFFFFFF51, 2)]).setCore 0 { (coreAt [(0xFFFFFF51, 2)]).core 0 with wdog := true }).core 0).landed), ((((coreAt [(0xFFFFFF51, 2)]).setCore 0 { (coreAt [(0xFFFFFF51, 2)]).core 0 with wdog := true }).core 0).landed.flushed), (((coreAt [(0xFFFFFF51, 2)]).setCore 0 { (coreAt [(0xFFFFFF51, 2)]).core 0 with wdog := true })), by decide +kernel⟩,
    ⟨0, { zs 2 0 with d := 9 }, ((((coreAt [(0xFFFFFF51, 2)]).setCore 0 { (coreAt [(0xFFFFFF51, 2)]).core 0 with flg := 512 }).core 0).landed), (((coreAt [(0xFFFFFF51, 2)]).setCore 0 { (coreAt [(0xFFFFFF51, 2)]).core 0 with flg := 512 })), by decide +kernel⟩⟩

/-- Witnesses for ZExceptions. -/
theorem witness_ZExceptions_1 :
    (∃ (c : CoreId) (z : ZIns) (h : CoreHw) (s : State), Fetches s c h ∧ z.ecc = .fatal ∧ c.val < 16 ∧ s.engSt (Fin.ofNat 17 c.val) = 1
      ∧ h.posted = []) ∧
    (∃ (c : CoreId) (z : ZIns) (h : CoreHw) (s : State), Fetches s c h ∧ z.ecc = .corrected ∧ condHolds z.cond.val h.flagsRead = true ∧
      (useNone [0] (.misc [2] false)).defined z = true ∧ h.inRepeat = false ∧ h.wdog = false ∧ c.val < 17 ∧ h.slots = 0) ∧
    (∃ (c : CoreId) (z : ZIns) (h : CoreHw) (k : CoreHw) (a : Nat) (sp : Nat) (s : State), Fetches s c h ∧ h.posted = [] ∧ k =
      h.flushed ∧ z.ecc = .clean ∧ k.flg.testBit 9 = false ∧ h.slots = 1 ∧ h.target = some (.addr a) ∧ sp = wrap32 (h.word h.asAddress
      Page.sp + 4294967292) ∧ checkAt c 4 sp = none ∧ sp < pageBase ∧ h.rpt = none) ∧
    (∃ (c : CoreId) (h : CoreHw) (k : CoreHw) (n : Nat) (s : State), h = s.core c ∧ c.val < 17 ∧ s.coreOn c = true ∧ h.run = .running ∧
      h.posted = [] ∧ h.flagsEx.testBit 8 = true ∧ h.interruptible = true ∧ h.resumed = false ∧ h.reentry = false ∧ k = h.flushed ∧
      lowestBit (pendingLines s (Fin.ofNat 17 c.val)) = some n) ∧
    (∃ (c : CoreId) (s : State), (s.core c).flagsEx.testBit 8 = false) ∧
    (∃ (c : CoreId) (s : State), c.val = 17) :=
  ⟨⟨0, { zs 2 0 with ecc := .fatal }, (((coreAt []).core 0).landed), (coreAt []), by decide +kernel⟩,
    ⟨0, { zs 2 0 with ecc := .corrected }, (((coreAt []).core 0).landed), (coreAt []), by decide +kernel⟩,
    ⟨0, (zl 3 0 0 0 0), ((((coreAt [(0xFFFFFF51, 2)]).setCore 0 { (coreAt [(0xFFFFFF51, 2)]).core 0 with slots := 1, target := some (.addr 0x40), dmem := [(0xFFFFFF25, 1), (0xFFFFFF51, 2)] }).core 0).landed), ((((coreAt [(0xFFFFFF51, 2)]).setCore 0 { (coreAt [(0xFFFFFF51, 2)]).core 0 with slots := 1, target := some (.addr 0x40), dmem := [(0xFFFFFF25, 1), (0xFFFFFF51, 2)] }).core 0).landed.flushed), 0x40, 0xFC, (((coreAt [(0xFFFFFF51, 2)]).setCore 0 { (coreAt [(0xFFFFFF51, 2)]).core 0 with slots := 1, target := some (.addr 0x40), dmem := [(0xFFFFFF25, 1), (0xFFFFFF51, 2)] })), by decide +kernel⟩,
    ⟨0, (((((coreAt [(0xFFFFFF51, 2)]).setCore 0 { (coreAt [(0xFFFFFF51, 2)]).core 0 with flg := 256 }).iow 0 0xF00C 0x1000).setMbox 0 { MboxHw.reset with kcmd := some 5 }).core 0), ((((((coreAt [(0xFFFFFF51, 2)]).setCore 0 { (coreAt [(0xFFFFFF51, 2)]).core 0 with flg := 256 }).iow 0 0xF00C 0x1000).setMbox 0 { MboxHw.reset with kcmd := some 5 }).core 0).flushed), 12, (((((coreAt [(0xFFFFFF51, 2)]).setCore 0 { (coreAt [(0xFFFFFF51, 2)]).core 0 with flg := 256 }).iow 0 0xF00C 0x1000).setMbox 0 { MboxHw.reset with kcmd := some 5 })), by decide +kernel⟩,
    ⟨0, (coreAt []), by decide +kernel⟩,
    ⟨17, (coreAt []), by decide +kernel⟩⟩

/-- A witness for ZPipeline. -/
theorem witness_ZPipeline : (100 + 4 ≤ Page.flg ∨ (Page.flg + 4 ≤ 100 ∧ 100 + 4 ≤ Page.reserved)) := by decide

/-- A witness for ZRepeats. -/
theorem witness_ZRepeats : ∃ (z : ZIns) (x : StrRun), 2 ≤ x.h.unitRc ∧ x.h.unitRc < 4294967296 ∧ (strLoop .movs 0 z 1 0 2 0 x).trap = none ∧ (strLoop .movs 0 z 1 0 2 0 x).early = false := ⟨zl 0 0 0 0 0, { h := { CoreHw.reset with dmem := [(0xFFFFFF11, 2), (0xFFFFFF14, 3)] }, mask := 0, flags := 0 }, by decide +kernel⟩

/-- Witnesses for TimeBase. -/
theorem witness_TimeBase_0 :
    (∃ (n : Nat) (s : State), n = 0) ∧
    (∃ (n : Nat) (s : State), 2 ^ 48 ≤ n ∧ s.time.step = none) ∧
    (∃ (n : Nat) (s : State), 0 < n ∧ n < 2 ^ 48 ∧ s.time.step = none) ∧
    (∃ (n : Nat) (s : State), s.time.step.isSome = true) ∧
    (∃ (n : Nat) (d : Nat) (s : State), s.time.step = some n ∧ s.rd K.tbDisc = 0 ∧ s.rd K.tbSource = 0 ∧ d = (((s.time.frac : Int) +
      4294967296 + s.time.delta) / 4294967296).toNat) ∧
    (∃ (s : State), s.time.step = none) :=
  ⟨⟨0, live, by decide +kernel⟩,
    ⟨0x1000000000000, live, by decide +kernel⟩,
    ⟨5, live, by decide +kernel⟩,
    ⟨5, { live with time := { live.time with step := some 1 } }, by decide +kernel⟩,
    ⟨5, 1, { live with time := { live.time with step := some 5 } }, by decide +kernel⟩,
    ⟨live, by decide +kernel⟩⟩

/-- Witnesses for TimeBase. -/
theorem witness_TimeBase_1 :
    (∃ (s : State), s.rd K.tbDisc ≠ 0) ∧
    (∃ (rise : Bool) (frac : Fin 8) (s : State), rise = decide (s.rd K.ppsPol = 0) ∧ s.rd K.tbDisc = 0 ∧ s.odNew = []) ∧
    (∃ (rise : Bool) (frac : Fin 8) (s : State), rise = decide (s.rd K.ppsPol = 0) ∧ s.rd K.tbDisc = 1 ∧ s.time.ppsLast = none ∧
      s.time.step = none ∧ s.rd K.tbSource = 0 ∧ s.odNew = []) ∧
    (∃ (rise : Bool) (frac : Fin 8) (s : State), rise = decide (s.rd K.syncPol = 0) ∧ s.rd K.tbDisc = 0 ∧ s.odNew = [] ∧ bit (s.rd
      K.syncMode) 0 = false) ∧
    (∃ (rise : Bool) (frac : Fin 8) (s : State), rise = decide (s.rd K.syncPol = 0) ∧ s.rd K.tbDisc = 0 ∧ s.odNew = [] ∧ bit (s.rd
      K.syncMode) 0 = true ∧ skimBusy s = false) ∧
    (∃ (rise : Bool) (frac : Fin 8) (s : State), rise = decide (s.rd K.syncPol = 0) ∧ s.rd K.tbDisc = 0 ∧ s.odNew = [] ∧ bit (s.rd
      K.syncMode) 0 = true ∧ skimBusy s = true) :=
  ⟨⟨(live.wr K.tbDisc 1), by decide +kernel⟩,
    ⟨true, 3, (live.wr K.ppsPol 0), by decide +kernel⟩,
    ⟨true, 3, (((live.wr K.ppsPol 0).wr K.tbDisc 1).wr K.tbSource 0), by decide +kernel⟩,
    ⟨true, 3, ((live.wr K.syncPol 0).wr K.syncMode 0), by decide +kernel⟩,
    ⟨true, 3, ((live.wr K.syncPol 0).wr K.syncMode 1), by decide +kernel⟩,
    ⟨true, 3, (((live.wr K.syncPol 0).wr K.syncMode 1).wr K.skimState 2), by decide +kernel⟩⟩

/-- Witnesses for TimeBase. -/
theorem witness_TimeBase_2 :
    (∃ (rise : Bool) (frac : Fin 8) (s : State), rise ≠ decide (s.rd K.ppsPol = 0)) ∧
    (∃ (rise : Bool) (frac : Fin 8) (s : State), rise ≠ decide (s.rd K.syncPol = 0)) ∧
    (∃ (s : State), s.rd K.tbSource = 1) ∧
    (∃ (s : State), s.rd K.tbSource = 0 ∧ (∀ k : Ctr, s.rT k Kt.ctSrc ≠ 1)) ∧
    (∃ (s : State), s.rd K.tbSource = 0) :=
  ⟨⟨false, 3, (live.wr K.ppsPol 0), by decide +kernel⟩,
    ⟨false, 3, (live.wr K.syncPol 0), by decide +kernel⟩,
    ⟨(live.wr K.tbSource 1), by decide +kernel⟩,
    ⟨(live.wr K.tbSource 0), by decide +kernel⟩,
    ⟨(live.wr K.tbSource 0), by decide +kernel⟩⟩

/-- Witnesses for Timers. -/
theorem witness_Timers_0 :
    (∃ (c : CoreId) (m : Tbc) (v : BitVec 32) (s : State), s.owns c (s.rU m Ku.tbcOwner) = true) ∧
    (∃ (c : CoreId) (m : Tbc) (v : BitVec 32) (s : State), s.owns c (s.rU m Ku.tbcOwner) = false) ∧
    (∃ (m : Tbc) (n : Nat) (s : State), s.rd K.tbSource = 0 ∧ s.time.step = none ∧ n = (((s.time.frac : Int) + 4294967296 +
      s.time.delta) / 4294967296).toNat ∧ (s.tbc m).arm = true ∧ (s.tbc m).periodic = false ∧ (s.tbc m).value ≤ s.tb + n) ∧
    (∃ (m : Tbc) (n : Nat) (s : State), s.rd K.tbSource = 0 ∧ s.time.step = none ∧ n = (((s.time.frac : Int) + 4294967296 +
      s.time.delta) / 4294967296).toNat ∧ (s.tbc m).arm = true ∧ (s.tbc m).periodic = true ∧ (s.tbc m).step ≠ 0 ∧ (s.tbc m).value ≤
      s.tb + n) ∧
    (∃ (m : Tbc) (s : State), (s.tbc m).arm = false) ∧
    (∃ (k : Ctr) (s : State), s.rT k Kt.ctSrc = 0 ∧ s.rT k Kt.ctDiv ≤ 1 ∧ s.rd K.tbSource = 0 ∧ s.time.step = none ∧ (s.ct k).val =
      65535) :=
  ⟨⟨2, 4, 1, (live.wU 4 Ku.tbcOwner 2), by decide +kernel⟩,
    ⟨2, 4, 1, (live.wU 4 Ku.tbcOwner 3), by decide +kernel⟩,
    ⟨4, 1, { live.setTbc 4 { live.tbc 4 with arm := true, value := 77 } with tb := 76 }, by decide +kernel⟩,
    ⟨4, 1, { live.setTbc 4 { live.tbc 4 with arm := true, value := 77, periodic := true, step := 10 } with tb := 76 }, by decide +kernel⟩,
    ⟨4, live, by decide +kernel⟩,
    ⟨4, (live.setCt 4 { live.ct 4 with val := 65535 }), by decide +kernel⟩⟩

/-- Witnesses for Timers. -/
theorem witness_Timers_1 :
    (∃ (k : Ctr) (j : Ctr) (s : State), s.rT k Kt.ctSrc = 0 ∧ s.rT k Kt.ctDiv ≤ 1 ∧ s.rd K.tbSource = 0 ∧ s.time.step = none ∧
      chainFrom s 32 k = [k, j] ∧ (s.ct k).val = 65535) ∧
    (∃ (k : Ctr) (b : Bool) (s : State), b = true ∧ s.rT k Kt.ctSrc = 0 ∧ s.rT k Kt.ctDiv ≤ 1 ∧ s.rd K.tbSource = 0 ∧ s.time.step =
      none ∧ (s.ct k).cmpB = ((s.ct k).val + 1) % 65536) ∧
    (∃ (k : Ctr) (b : Bool) (s : State), b = false ∧ s.rT k Kt.ctSrc = 0 ∧ s.rT k Kt.ctDiv ≤ 1 ∧ s.rd K.tbSource = 0 ∧ s.time.step =
      none ∧ s.rT k Kt.ctWide = 0 ∧ (s.ct k).cmpA = ((s.ct k).val + 1) % 65536) ∧
    (∃ (k : Ctr) (s : State), s.time.due.contains (.cap k) = true ∧ chainFrom s 32 k = [k]) ∧
    (∃ (k : Ctr) (s : State), s.time.due.contains (.cap k) = false) ∧
    (∃ (c : CoreId) (k : Ctr) (j : Ctr) (s : State), s.chained k = false ∧ chainFrom s 32 k = [k, j]) :=
  ⟨⟨4, 5, ((live.wT 5 Kt.ctSrc 2).setCt 4 { live.ct 4 with val := 65535 }), by decide +kernel⟩,
    ⟨4, true, (live.setCt 4 { live.ct 4 with cmpB := 1 }), by decide +kernel⟩,
    ⟨4, false, (live.setCt 4 { live.ct 4 with cmpA := 1 }), by decide +kernel⟩,
    ⟨4, { live.wT 4 Kt.ctCapSrc 1 with time := { live.time with due := [.cap 4] } }, by decide +kernel⟩,
    ⟨4, live, by decide +kernel⟩,
    ⟨2, 4, 5, (live.wT 5 Kt.ctSrc 2), by decide +kernel⟩⟩

/-- Witnesses for Timers. -/
theorem witness_Timers_2 :
    (∃ (c : CoreId) (k : Ctr) (s : State), s.chained k = true) ∧
    (∃ (c : CoreId) (k : Ctr) (s : State), s.owns c (s.rT k Kt.ctOwner) = true) ∧
    (∃ (c : CoreId) (k : Ctr) (s : State), s.owns c (s.rT k Kt.ctOwner) = false) ∧
    (∃ (g : Tg) (n : Nat) (s : State), s.rd K.tbSource = 0 ∧ s.time.step = none ∧ n = (((s.time.frac : Int) + 4294967296 +
      s.time.delta) / 4294967296).toNat ∧ (s.tg g).waiting = true ∧ (s.rX g Kx.tgT0).toNat ≤ s.tb + n) ∧
    (∃ (g : Tg) (s : State), (s.tg g).waiting = false) ∧
    (∃ (g : Tg) (s : State), s.rd K.tbSource = 0 ∧ s.time.step = none ∧ s.time.delta = 0 ∧ s.time.frac < 4294967296 ∧ (s.tg g).waiting
      = false ∧ s.rX g Kx.tgDiv ≤ 1 ∧ (s.tg g).run = true ∧ (s.tg g).count + 1 = max 2 (s.tg g).active ∧ (s.tg g).stopping = false) :=
  ⟨⟨2, 5, (live.wT 5 Kt.ctSrc 2), by decide +kernel⟩,
    ⟨2, 4, (live.wT 4 Kt.ctOwner 2), by decide +kernel⟩,
    ⟨2, 4, (live.wT 4 Kt.ctOwner 3), by decide +kernel⟩,
    ⟨3, 1, (live.setTg 3 { live.tg 3 with waiting := true }), by decide +kernel⟩,
    ⟨3, live, by decide +kernel⟩,
    ⟨3, (live.setTg 3 { live.tg 3 with run := true, active := 5, count := 4 }), by decide +kernel⟩⟩

/-- Witnesses for Timers. -/
theorem witness_Timers_3 :
    (∃ (g : Tg) (s : State), s.rd K.tbSource = 0 ∧ s.time.step = none ∧ s.time.delta = 0 ∧ s.time.frac < 4294967296 ∧ (s.tg g).waiting
      = false ∧ s.rX g Kx.tgDiv ≤ 1 ∧ (s.tg g).run = true ∧ (s.tg g).count + 1 = max 2 (s.tg g).active ∧ (s.tg g).stopping = true) ∧
    (∃ (g : Tg) (s : State), (s.tg g).run = false ∧ (s.tg g).waiting = false) ∧
    (∃ (c : CoreId) (g : Tg) (v : BitVec 32) (s : State), s.owns c (s.rX g Kx.tgOwner) = true ∧ 2 ≤ v.toNat ∧ (s.tg g).imm = false) ∧
    (∃ (c : CoreId) (g : Tg) (v : BitVec 32) (s : State), s.owns c (s.rX g Kx.tgOwner) = true ∧ 2 ≤ v.toNat ∧ (s.tg g).imm = true ∧
      (s.tg g).run = true ∧ v.toNat ≤ (s.tg g).count) ∧
    (∃ (c : CoreId) (g : Tg) (v : BitVec 32) (s : State), s.owns c (s.rX g Kx.tgOwner) = false) ∧
    (∃ (m : Tbc) (n : Nat) (s : State), s.rd K.tbSource = 0 ∧ s.time.step = none ∧ n = (((s.time.frac : Int) + 4294967296 +
      s.time.delta) / 4294967296).toNat ∧ s.tb + n < (s.tbc m).value) :=
  ⟨⟨3, (live.setTg 3 { live.tg 3 with run := true, stopping := true, active := 5, count := 4 }), by decide +kernel⟩,
    ⟨3, live, by decide +kernel⟩,
    ⟨2, 3, 100, (live.wX 3 Kx.tgOwner 2), by decide +kernel⟩,
    ⟨2, 3, 100, ((live.wX 3 Kx.tgOwner 2).setTg 3 { live.tg 3 with imm := true, run := true, count := 100 }), by decide +kernel⟩,
    ⟨2, 3, 100, (live.wX 3 Kx.tgOwner 3), by decide +kernel⟩,
    ⟨4, 1, (live.setTbc 4 { live.tbc 4 with arm := true, value := 77 }), by decide +kernel⟩⟩

/-- Witnesses for Timers. -/
theorem witness_Timers_4 :
    (∃ (k : Ctr) (s : State), s.rT k Kt.ctSrc = 0 ∧ s.rT k Kt.ctDiv ≤ 1 ∧ s.rd K.tbSource = 0 ∧ s.time.step = none ∧ (s.ct k).val <
      65535) ∧
    (∃ (g : Tg) (n : Nat) (s : State), s.rd K.tbSource = 0 ∧ s.time.step = none ∧ n = (((s.time.frac : Int) + 4294967296 +
      s.time.delta) / 4294967296).toNat ∧ s.tb + n < (s.rX g Kx.tgT0).toNat) :=
  ⟨⟨4, live, by decide +kernel⟩,
    ⟨3, 1, (live.wX 3 Kx.tgT0 50), by decide +kernel⟩⟩

/-- Witnesses for Requests. -/
theorem witness_Requests_0 :
    (∃ (r : ReqHead) (items : List OdItem) (lv : Nat) (s : State), heard s r lv ∧ 1 ≤ items.length ∧ items.length ≤ 64 ∧ (∀ i ∈ items,
      (findRow (odKey i)).all (fun x => decide (x.2.2.2.acc ≠ .rcl)) = true) ∧ ((items.map odKey).flatMap fun k => itemOut (readEntry s
      (asker r lv) k)).length ≤ 2048) ∧
    (∃ (r : ReqHead) (items : List OdItem) (lv : Nat) (s : State), heard s r lv ∧ items.length = 0) ∧
    (∃ (r : ReqHead) (items : List OdItem) (s : State), listens s r.src = true ∧ s.sec.stat ≠ 3 ∧ r.src.val < 18 ∧ (∀ q : Requester,
      (s.src q).held = none) ∧ (s.src r.src).lastSeq = some r.seq.toNat) ∧
    (∃ (r : ReqHead) (items : List OdItem) (s : State), listens s r.src = false ∧ r.secure = false) ∧
    (∃ (r : ReqHead) (items : List OdItem) (c : Transport) (h : SessHw) (s : State), transportOf r.src = some c ∧ r.secure = true ∧
      listens s r.src = true ∧ s.sec.stat ≠ 3 ∧ (∀ q : Requester, (s.src q).held = none) ∧ (s.src r.src).lastSeq ≠ some r.seq.toNat ∧ h
      = s.ses c ∧ h.phase = .confirmed ∧ items.length = 0) ∧
    (∃ (r : ReqHead) (items : List OdItem) (lv : Nat) (i : OdItem) (rest : List OdItem) (w : Will) (st : Nat) (s : State), heard s r lv
      ∧ items = [i] ++ rest ∧ items.length ≤ 64 ∧ w = willOf s (items.map odItem) ∧ st = itemStatus s w (asker r lv) (odKey i) (odItem
      i).val ∧ st ≠ 0) :=
  ⟨⟨(head 3), ([item 0x1000 1 [], item 0x9999 1 []]), 2, live, by decide +kernel⟩,
    ⟨(head 3), ([]), 2, live, by decide +kernel⟩,
    ⟨(head 3), ([]), (live.setSrc 3 { live.src 3 with lastSeq := some 7, lastResp := [1] }), by decide +kernel⟩,
    ⟨(head 18), ([]), live, by decide +kernel⟩,
    ⟨{ head 18 with secure := true }, ([]), 0, { SessHw.reset with phase := .confirmed }, (canOn.setSes 0 { SessHw.reset with phase := .confirmed }), by decide +kernel⟩,
    ⟨(head 3), ([item 0x9999 1 []]), 2, (item 0x9999 1 []), ([]), (willOf live [odItem (item 0x9999 1 [])]), 6, live, by decide +kernel⟩⟩

/-- Witnesses for Requests. -/
theorem witness_Requests_1 :
    (∃ (r : ReqHead) (items : List OdItem) (lv : Nat) (i : OdItem) (j : Nat) (o : Nat) (row : Row) (x : Int) (s : State), heard s r lv
      ∧ items = [i] ∧ findRow (odKey i) = some (.port, j, o, row) ∧ row.acc = .rws ∧ row.ty.isString = false ∧ itemStatus s (willOf s
      (items.map odItem)) (asker r lv) (odKey i) (odItem i).val = 0 ∧ x = row.masked (row.ty.number (odItem i).val) ∧ (∀ k ∈ ledgerKeys
      ++ [K.peerMask], s.pendingVal k = none)) ∧
    (∃ (r : ReqHead) (items : List OdItem) (lv : Nat) (s : State), heard s r lv ∧ 64 < items.length) ∧
    (∃ (r : ReqHead) (items : List OdItem) (lv : Nat) (i : OdItem) (rest : List OdItem) (s : State), heard s r lv ∧ items = [i] ++ rest
      ∧ items.length ≤ 64 ∧ inPortZero (odItem i) = false) ∧
    (∃ (r : ReqHead) (items : List OdItem) (lv : Nat) (i : OdItem) (o : Nat) (row : Row) (x : Int) (s : State), heard s r lv ∧ items =
      [i] ∧ findRow (odKey i) = some (.port, 0, o, row) ∧ (∀ p : Port, findRow (odKey i + 0x4000 * p.val) = some (.port, p.val, o,
      row)) ∧ row.acc = .rws ∧ row.ty.isString = false ∧ broadcastRefusal s (willOf s ((items.map odItem).flatMap copies)) (asker r lv)
      (items.map odItem) 0 = none ∧ x = row.masked (row.ty.number (odItem i).val)) ∧
    (∃ (r : ReqHead) (lv : Nat) (s : State), heard s r lv ∧ 2 ≤ lv ∧ s.rd K.storeState ≠ 1 ∧ s.recorder.powerFail = false ∧ s.rd
      (K.storeCountA + targetBank s) < 100000) ∧
    (∃ (r : ReqHead) (lv : Nat) (s : State), heard s r lv ∧ 2 ≤ lv ∧ s.rd K.storeState = 1) :=
  ⟨⟨(head 17), ([item 0x2000 5 [60]]), 3, (item 0x2000 5 [60]), 0, Kp.drpDuty, (⟨0x000005, 1, .u8, .rws, 2, [50], true, 30, 70, 0⟩), 60, live, by decide +kernel⟩,
    ⟨(head 17), (List.replicate 65 (item 0x2000 5 [60])), 3, live, by decide +kernel⟩,
    ⟨(head 17), ([item 0x3200 1 []]), 3, (item 0x3200 1 []), ([]), live, by decide +kernel⟩,
    ⟨(head 17), ([item 0x2000 5 [60]]), 3, (item 0x2000 5 [60]), Kp.drpDuty, (⟨0x000005, 1, .u8, .rws, 2, [50], true, 30, 70, 0⟩), 60, live, by decide +kernel⟩,
    ⟨{ head 17 with secure := false }, 3, live, by decide +kernel⟩,
    ⟨(head 17), 3, (live.wr K.storeState 1), by decide +kernel⟩⟩

/-- Witnesses for Requests. -/
theorem witness_Requests_2 :
    (∃ (r : ReqHead) (lv : Nat) (s : State), heard s r lv ∧ lv < 2) ∧
    (∃ (r : ReqHead) (h : HeldReq) (s : State), listens s r.src = true ∧ s.sec.stat ≠ 3 ∧ r.src.val = 17 ∧ (∀ q : Requester, q ≠ r.src
      → (s.src q).held = none) ∧ (s.src r.src).held = some h ∧ h.why = [(0, .store)] ∧ s.rd K.storeState = 1) ∧
    (∃ (ok : Bool) (b : Bank) (s : State), s.nvm.storing = some b ∧ ok = true ∧ (∀ q : Requester, (s.src q).held = none)) ∧
    (∃ (ok : Bool) (b : Bank) (s : State), s.nvm.storing = some b ∧ ok = false ∧ (∀ q : Requester, (s.src q).held = none)) ∧
    (∃ (ok : Bool) (b : Bank) (q : Requester) (n : Nat) (s : State), s.nvm.storing = some b ∧ ok = true ∧ q.val = 17 ∧ (∀ x :
      Requester, x ≠ q → (s.src x).held = none) ∧ (s.src q).held = some
      { seq := n, opcode := 3, secure := false, why := [(0, .store)] }) ∧
    (∃ (r : ReqHead) (idx : BitVec 16) (sub : BitVec 8) (off : BitVec 32) (count : BitVec 16) (lv : Nat) (k : Nat) (e : ReadOut) (n :
      Nat) (s : State), heard s r lv ∧ k = idx.toNat * 256 + sub.toNat ∧ (findRow k).all (fun x => decide (x.2.2.2.acc ≠ .rcl)) = true
      ∧ e = readEntry s (asker r lv) k ∧ (e.status = 0 ∨ e.status = 13) ∧ off.toNat < e.octets.length ∧ n = min count.toNat 2000) :=
  ⟨⟨(head 18), 0, canOn, by decide +kernel⟩,
    ⟨(head 17), { seq := 5, opcode := 3, secure := false, why := [(0, .store)] }, ((live.wr K.storeState 1).setSrc 17 { live.src 17 with held := some { seq := 5, opcode := 3, secure := false, why := [(0, .store)] } }), by decide +kernel⟩,
    ⟨true, { vals := [], blobs := [] }, { live with nvm := { live.nvm with storing := some { vals := [], blobs := [] } } }, by decide +kernel⟩,
    ⟨false, { vals := [], blobs := [] }, { live with nvm := { live.nvm with storing := some { vals := [], blobs := [] } } }, by decide +kernel⟩,
    ⟨true, { vals := [], blobs := [] }, 17, 5, (State.setSrc { live with nvm := { live.nvm with storing := some { vals := [], blobs := [] } } } 17 { live.src 17 with held := some { seq := 5, opcode := 3, secure := false, why := [(0, .store)] } }), by decide +kernel⟩,
    ⟨(head 3), 0x1000, 1, 2, 9, 2, 0x100001, (readEntry live (asker (head 3) 2) 0x100001), 9, live, by decide +kernel⟩⟩

/-- Witnesses for Requests. -/
theorem witness_Requests_3 :
    (∃ (r : ReqHead) (idx : BitVec 16) (sub : BitVec 8) (off : BitVec 32) (count : BitVec 16) (lv : Nat) (e : ReadOut) (s : State),
      heard s r lv ∧ e = readEntry s (asker r lv) (idx.toNat * 256 + sub.toNat) ∧ e.status ≠ 0 ∧ e.status ≠ 13) ∧
    (∃ (r : ReqHead) (cursor : BitVec 64) (lv : Nat) (l : List Nat) (s : State), heard s r lv ∧ window s cursor.toNat = .inr l) ∧
    (∃ (r : ReqHead) (cursor : BitVec 64) (lv : Nat) (e : Nat) (s : State), heard s r lv ∧ window s cursor.toNat = .inl e) ∧
    (∃ (r : ReqHead) (at_ : Option (BitVec 64)) (lv : Nat) (s : State), heard s r lv ∧ r.src.val = 17 ∧ at_ = none ∧ skimBusy s =
      false) ∧
    (∃ (r : ReqHead) (at_ : Option (BitVec 64)) (lv : Nat) (s : State), heard s r lv ∧ r.src.val < 17) :=
  ⟨⟨(head 3), 0x9999, 1, 0, 9, 2, (readEntry live (asker (head 3) 2) 0x999901), live, by decide +kernel⟩,
    ⟨(head 3), 0, 2, (List.replicate 256 0xFF), { live.wr K.wallSize 4096 with recorder := { live.recorder with noWall := false } }, by decide +kernel⟩,
    ⟨(head 3), 0x8000000001000000, 2, 2, live, by decide +kernel⟩,
    ⟨(head 17), none, 3, live, by decide +kernel⟩,
    ⟨(head 3), none, 2, live, by decide +kernel⟩⟩

/-- Witnesses for Sessions. -/
theorem witness_Sessions_0 :
    (∃ (r : ReqHead) (level : BitVec 8) (pub : List Byte) (nonce : List Byte) (c : Transport) (lv : Nat) (s : State), heard s r lv ∧
      transportOf r.src = some c ∧ pub.length = 97 ∧ nonce.length = 32 ∧ deviceSeed s = none ∧ tget s.sec.l3 c = none) ∧
    (∃ (r : ReqHead) (level : BitVec 8) (pub : List Byte) (nonce : List Byte) (c : Transport) (lv : Nat) (seed : List Nat) (s : State),
      heard s r lv ∧ transportOf r.src = some c ∧ pub.length = 97 ∧ nonce.length = 32 ∧ deviceSeed s = some seed ∧ (level = 1 ∨ level =
      2) ∧ tget s.sec.l3 c = none) ∧
    (∃ (r : ReqHead) (plain : List Byte) (c : Transport) (l : List Nat) (s : State), transportOf r.src = some c ∧ r.secure = true ∧
      listens s r.src = true ∧ s.sec.stat ≠ 3 ∧ (∀ q : Requester, (s.src q).held = none) ∧ (s.src r.src).lastSeq ≠ some r.seq.toNat ∧
      (s.ses c).phase = .opened ∧ l = plain.map BitVec.toNat ∧ l.length = 196 ∧ keyHeld s (s.ses c).asked (l.take 97) = true ∧ tget
      s.sec.l3 c = none) ∧
    (∃ (r : ReqHead) (plain : List Byte) (c : Transport) (l : List Nat) (s : State), transportOf r.src = some c ∧ r.secure = true ∧
      listens s r.src = true ∧ s.sec.stat ≠ 3 ∧ (∀ q : Requester, (s.src q).held = none) ∧ (s.src r.src).lastSeq ≠ some r.seq.toNat ∧
      (s.ses c).phase = .opened ∧ l = plain.map BitVec.toNat ∧ l.length = 196 ∧ keyHeld s (s.ses c).asked (l.take 97) = false ∧ tget
      s.sec.l3 c = none) ∧
    (∃ (r : ReqHead) (c : Transport) (lv : Nat) (s : State), heard s r lv ∧ transportOf r.src = some c ∧ tget s.sec.l3 c = none) ∧
    (∃ (t0 : Transport) (s : State), (s.ses t0).phase ≠ .none ∧ tget s.sec.l3 t0 = none) :=
  ⟨⟨(head 18), 2, (List.replicate 97 4), (List.replicate 32 1), 0, 0, canOn, by decide +kernel⟩,
    ⟨(head 18), 2, (List.replicate 97 4), (List.replicate 32 1), 0, 0, (List.replicate 8 7), { canOn with otpShadow := (List.range 8).map fun i => (0x27 + i, some 7) }, by decide +kernel⟩,
    ⟨{ head 18 with secure := true }, (List.replicate 196 1), 0, (List.replicate 196 1), (canOn.setSes 0 { SessHw.reset with phase := .opened, asked := 2 }), by decide +kernel⟩,
    ⟨{ head 18 with secure := true }, (List.replicate 196 1), 0, (List.replicate 196 1), ((canOn.wr K.lifecycle 0).setSes 0 { SessHw.reset with phase := .opened, asked := 2 }), by decide +kernel⟩,
    ⟨(head 18), 0, 0, (canOn.setSes 0 { SessHw.reset with phase := .confirmed }), by decide +kernel⟩,
    ⟨2, (canOn.setSes 2 { SessHw.reset with phase := .confirmed }), by decide +kernel⟩⟩

/-- Witnesses for Sessions. -/
theorem witness_Sessions_1 :
    (∃ (t0 : Transport) (s : State), (s.ses t0).phase ≠ .none ∧ (tget s.sec.l3 t0).isSome = true ∧ (∀ q : Transport, q ≠ t0 → tget
      s.sec.l3 q = none) ∧ s.sec.jtagUntil = none) ∧
    (∃ (t0 : Transport) (s : State), (s.ses t0).phase = .none) ∧
    (∃ (r : ReqHead) (token : List Byte) (c : Transport) (lv : Nat) (s : State), heard s r lv ∧ transportOf r.src = some c ∧
      token.length ≤ 512) ∧
    (∃ (r : ReqHead) (token : List Byte) (lv : Nat) (s : State), heard s r lv ∧ 512 < token.length) ∧
    (∃ (r : ReqHead) (token : List Byte) (c : Transport) (l : List Nat) (s : State), transportOf r.src = some c ∧ r.secure = true ∧
      listens s r.src = true ∧ s.sec.stat ≠ 3 ∧ (∀ q : Requester, (s.src q).held = none) ∧ (s.src r.src).lastSeq ≠ some r.seq.toNat ∧
      (s.ses c).phase = .confirmed ∧ s.rd (K.sessionLevel + c.val) = 2 ∧ l = token.map BitVec.toNat ∧ l.length ≤ 512 ∧ (∀ q :
      Transport, tget s.sec.l3 q = none) ∧ s.sec.jtagUntil = none) :=
  ⟨⟨2, { canOn.setSes 2 { SessHw.reset with phase := .confirmed } with sec := { canOn.sec with l3 := tset canOn.sec.l3 2 (some 5) } }, by decide +kernel⟩,
    ⟨2, canOn, by decide +kernel⟩,
    ⟨(head 18), ([]), 0, 0, canOn, by decide +kernel⟩,
    ⟨(head 18), (List.replicate 513 0), 0, canOn, by decide +kernel⟩,
    ⟨{ head 18 with secure := true }, ([]), 0, ([]), ((canOn.wr K.sessionLevel 2).setSes 0 { SessHw.reset with phase := .confirmed }), by decide +kernel⟩⟩

/-- Witnesses for DictionaryEntries. -/
theorem witness_DictionaryEntries :
    (∃ (k : Nat) (v : Int) (j : Nat) (o : Nat) (s : State), s.odNew = [(k, some v)] ∧ (splitKey k = (.ct, j, o) ∨ splitKey k = (.tbc,
      j, o) ∨ splitKey k = (.tg, j, o))) ∧
    (∃ (k : Nat) (v : Int) (p : Port) (o : Nat) (s : State), s.odNew = [(k, some v)] ∧ splitKey k = (.port, p.val, o) ∧ portApplies s p
      o = false ∧ k = keyP p o ∧ 5 < o) ∧
    (∃ (s : State), (∀ x ∈ s.od, restorable x.1 = false) ∧ s.odNew = [] ∧ (∀ x ∈ s.blob, restorable x.1 = false) ∧ movedFactors s = []
      ∧ (∀ x ∈ limitKeys, s.rd x.1 ≤ min (s.rd (K.otpCeil + x.2)) (s.rd (K.cap + x.2)))) ∧
    (∃ (p : Port) (s : State), (∀ x ∈ s.od, restorable x.1 = true → x.1 = keyP p Kp.drpDuty) ∧ s.rP p Kp.drpDuty ≠ 50 ∧ s.odNew = [] ∧
      (∀ x ∈ s.blob, restorable x.1 = false) ∧ movedFactors s = [] ∧ (∀ x ∈ limitKeys, s.rd x.1 ≤ min (s.rd (K.otpCeil + x.2)) (s.rd
      (K.cap + x.2)))) ∧
    (∃ (m : BitVec 32) (s : State), m.toNat % 4 = 0) ∧
    (∃ (m : BitVec 32) (s : State), m.toNat % 4 = 3 ∧ 0 ≤ s.rd K.alertSrc) :=
  ⟨⟨(keyT 3 1), 1, 3, 1, { live with odNew := [(keyT 3 1, some 1)] }, by decide +kernel⟩,
    ⟨(keyP 4 Kp.rshunt), 5, 4, Kp.rshunt, { live.wP 4 Kp.ppState Pp.on with odNew := [(keyP 4 Kp.rshunt, some 5)] }, by decide +kernel⟩,
    ⟨(List.range 8).foldl (fun s i => (s.wr (K.otpCeil + i) 1000000).wr (K.cap + i) 1000000) live, by decide +kernel⟩,
    ⟨3, ((List.range 8).foldl (fun s i => (s.wr (K.otpCeil + i) 1000000).wr (K.cap + i) 1000000) live).wP 3 Kp.drpDuty 40, by decide +kernel⟩,
    ⟨4, (live.wr K.alertSrc 6), by decide +kernel⟩,
    ⟨3, ((live.wr K.alertSrc 3).wr K.alertPorts 5), by decide +kernel⟩⟩

/-- Witnesses for HostBuses. -/
theorem witness_HostBuses_0 :
    (∃ (c : Fin 2) (id : BitVec 11) (octets : List Byte) (h : SrcHw) (s : State), listens s (canSrc c) = true ∧ (id.toNat : Int) = tget
      (s.can c).cfg 2 + tget (s.can c).cfg 0 ∧ octets.length = 64 ∧ ((octets.map BitVec.toNat).headD 0).testBit 6 = false ∧ (octets.map
      BitVec.toNat).headD 0 % 64 = 0 ∧ h = s.src (canSrc c)) ∧
    (∃ (c : Fin 2) (id : BitVec 11) (octets : List Byte) (h : SrcHw) (n : Nat) (s : State), listens s (canSrc c) = true ∧ (id.toNat :
      Int) = tget (s.can c).cfg 2 + tget (s.can c).cfg 0 ∧ octets.length = 64 ∧ ((octets.map BitVec.toNat).headD 0).testBit 6 = false ∧
      n = (octets.map BitVec.toNat).headD 0 % 64 ∧ n ≠ 0 ∧ h = s.src (canSrc c) ∧ h.seg = n ∧ h.part ≠ []) ∧
    (∃ (c : Fin 2) (id : BitVec 11) (octets : List Byte) (h : SrcHw) (n : Nat) (s : State), listens s (canSrc c) = true ∧ (id.toNat :
      Int) = tget (s.can c).cfg 2 + tget (s.can c).cfg 0 ∧ octets.length = 64 ∧ n = (octets.map BitVec.toNat).headD 0 % 64 ∧ n ≠ 0 ∧ h
      = s.src (canSrc c) ∧ h.seg ≠ n) ∧
    (∃ (c : Fin 2) (id : BitVec 11) (octets : List Byte) (s : State), listens s (canSrc c) = true ∧ (id.toNat : Int) = tget (s.can
      c).cfg 2 + tget (s.can c).cfg 0 ∧ octets.length ≠ 64) ∧
    (∃ (c : Fin 2) (id : BitVec 11) (octets : List Byte) (s : State), listens s (canSrc c) = false) ∧
    (∃ (c : Fin 2) (form : CanForm) (id : BitVec 11) (octets : List Byte) (s : State), listens s (canSrc c) = true ∧ form ≠ .fd) :=
  ⟨⟨0, 0x601, (List.replicate 64 0), SrcHw.reset, canOn, by decide +kernel⟩,
    ⟨0, 0x601, (List.replicate 64 1), { SrcHw.reset with part := [9], seg := 1 }, 1, (canOn.setSrc 18 { SrcHw.reset with part := [9], seg := 1 }), by decide +kernel⟩,
    ⟨1, 0x601, (List.replicate 64 3), { SrcHw.reset with part := [9], seg := 1 }, 3, (((live.wr (K.canState + 1) 1).setSrc 19 { SrcHw.reset with part := [9], seg := 1 })), by decide +kernel⟩,
    ⟨0, 0x601, ([]), canOn, by decide +kernel⟩,
    ⟨1, 0, ([]), canOn, by decide +kernel⟩,
    ⟨0, .classical, 0, [], canOn, by decide +kernel⟩⟩

/-- Witnesses for HostBuses. -/
theorem witness_HostBuses_1 :
    (∃ (c : Fin 2) (id : BitVec 11) (octets : List Byte) (s : State), s.canOn c = true ∧ s.rd (K.canTec + c.val) + 8 ≤ 255) ∧
    (∃ (c : Fin 2) (id : BitVec 11) (octets : List Byte) (s : State), s.canOn c = true ∧ 255 < s.rd (K.canTec + c.val) + 8) ∧
    (∃ (c : Fin 2) (v : Vector Int 10) (id : BitVec 11) (octets : List Byte) (s : State), s.canSt c ≠ 0 ∧ (s.can c).next = some v) ∧
    (∃ (c : Fin 2) (s : State), (s.src (canSrc c)).part ≠ []) ∧
    (∃ (c : Fin 2) (s : State), (s.src (canSrc c)).part = []) ∧
    (∃ (c : Fin 2) (t0 : BitVec 64) (s : State), listens s (canSrc c) = true ∧ s.sec.stat ≠ 3 ∧ tget (s.can c).cfg 9 = 1 ∧ skimBusy s =
      false ∧ s.tb + 100 ≤ t0.toNat) :=
  ⟨⟨0, 0, [], canOn, by decide +kernel⟩,
    ⟨0, 0, [], canOn.wr K.canTec 250, by decide +kernel⟩,
    ⟨0, Vector.replicate 10 3, 0, [], canOn.setCan 0 { CanHw.reset with next := some (Vector.replicate 10 3) }, by decide +kernel⟩,
    ⟨0, (canOn.setSrc 18 { SrcHw.reset with part := [9], seg := 1 }), by decide +kernel⟩,
    ⟨0, canOn, by decide +kernel⟩,
    ⟨0, 1000, (canOn.setCan 0 { CanHw.reset with cfg := tset CanHw.reset.cfg 9 1 }), by decide +kernel⟩⟩

/-- Witnesses for HostBuses. -/
theorem witness_HostBuses_2 :
    (∃ (c : Fin 2) (at_ : Option (BitVec 64)) (s : State), tget (s.can c).cfg 9 = 0) ∧
    (∃ (c : Fin 2) (at_ : Option (BitVec 64)) (s : State), listens s (canSrc c) = true ∧ s.sec.stat ≠ 3 ∧ tget (s.can c).cfg 9 = 1 ∧
      at_ = none) ∧
    (∃ (c : Fin 2) (s : State), (s.rd (K.canState + c.val) = 1 ∨ s.rd (K.canState + c.val) = 2)) ∧
    (∃ (c : Fin 2) (s : State), s.rd (K.canState + c.val) = 0) ∧
    (∃ (c : Fin 2) (s : State), s.rd (K.canState + c.val) = 3) ∧
    (∃ (c : Fin 2) (s : State), s.rd (K.canState + c.val) ≠ 3) :=
  ⟨⟨0, none, (canOn.setCan 0 { CanHw.reset with cfg := tset CanHw.reset.cfg 9 0 }), by decide +kernel⟩,
    ⟨0, none, (canOn.setCan 0 { CanHw.reset with cfg := tset CanHw.reset.cfg 9 1 }), by decide +kernel⟩,
    ⟨0, canOn, by decide +kernel⟩,
    ⟨1, (live.wr (K.canState + 1) 0), by decide +kernel⟩,
    ⟨0, (live.wr K.canState 3), by decide +kernel⟩,
    ⟨0, canOn, by decide +kernel⟩⟩

/-- Witnesses for HostBuses. -/
theorem witness_HostBuses_3 :
    (∃ (b : Bus) (octets : List Byte) (p : List Nat) (s : State), listens s (twReq b) = true ∧ p = (s.src (twReq b)).part ++ octets.map
      BitVec.toNat ∧ (p.length < 4 ∨ (leValue ((p.drop 2).take 2) ≤ 2048 ∧ p.length < leValue ((p.drop 2).take 2) + 12))) ∧
    (∃ (b : Bus) (octets : List Byte) (p : List Nat) (s : State), listens s (twReq b) = true ∧ p = (s.src (twReq b)).part ++ octets.map
      BitVec.toNat ∧ 4 ≤ p.length ∧ 2048 < leValue ((p.drop 2).take 2)) ∧
    (∃ (b : Bus) (n : Nat) (s : State), listens s (twReq b) = true ∧ (∀ q : Requester, (s.src q).held = none) ∧ (s.src (twReq b)).resp
      = []) ∧
    (∃ (b : Bus) (n : Nat) (l : List Nat) (s : State), listens s (twReq b) = true ∧ (∀ q : Requester, (s.src q).held = none) ∧ l =
      (s.src (twReq b)).resp ∧ l ≠ []) ∧
    (∃ (b : Bus) (s : State), (s.src (twReq b)).part ≠ []) ∧
    (∃ (b : Bus) (s : State), (s.src (twReq b)).part = []) :=
  ⟨⟨0, ([0x5A, 0]), ([0x5A, 0]), ((live.wW 0 Kw.twRole 1).wW 0 Kw.twAddr 16), by decide +kernel⟩,
    ⟨0, ([0x5A, 0, 0xFF, 0xFF]), ([0x5A, 0, 0xFF, 0xFF]), ((live.wW 0 Kw.twRole 1).wW 0 Kw.twAddr 16), by decide +kernel⟩,
    ⟨0, 3, ((live.wW 0 Kw.twRole 1).wW 0 Kw.twAddr 16), by decide +kernel⟩,
    ⟨0, 3, ([4, 5]), (((live.wW 0 Kw.twRole 1).wW 0 Kw.twAddr 16).setSrc 20 { SrcHw.reset with resp := [4, 5] }), by decide +kernel⟩,
    ⟨1, (live.setSrc 21 { SrcHw.reset with part := [9] }), by decide +kernel⟩,
    ⟨1, live, by decide +kernel⟩⟩

/-- Witnesses for TwoWire. -/
theorem witness_TwoWire_0 :
    (∃ (b : Bus) (a : Int) (s : State), a = s.rW b Kw.twCtlTarget ∧ (a < 8 ∨ 0x77 < a ∨ a = s.rW b Kw.twAddr ∨ 64 < s.rW b Kw.twCtlWlen
      ∨ 64 < s.rW b Kw.twCtlRlen)) ∧
    (∃ (b : Bus) (a : Int) (s : State), a = s.rW b Kw.twCtlTarget ∧ 8 ≤ a ∧ a ≤ 0x77 ∧ a ≠ s.rW b Kw.twAddr ∧ s.rW b Kw.twCtlWlen ≤ 64
      ∧ s.rW b Kw.twCtlRlen ≤ 64 ∧ bit (s.rW b Kw.twRole) 1 = false) ∧
    (∃ (b : Bus) (a : Int) (s : State), a = s.rW b Kw.twCtlTarget ∧ 8 ≤ a ∧ a ≤ 0x77 ∧ a ≠ s.rW b Kw.twAddr ∧ s.rW b Kw.twCtlWlen ≤ 64
      ∧ s.rW b Kw.twCtlRlen ≤ 64 ∧ bit (s.rW b Kw.twRole) 1 = true ∧ s.rW b Kw.twCtlResult = 1) ∧
    (∃ (b : Bus) (a : Int) (s : State), a = s.rW b Kw.twCtlTarget ∧ 8 ≤ a ∧ a ≤ 0x77 ∧ a ≠ s.rW b Kw.twAddr ∧ s.rW b Kw.twCtlWlen ≤ 64
      ∧ s.rW b Kw.twCtlRlen ≤ 64 ∧ bit (s.rW b Kw.twRole) 1 = true ∧ s.rW b Kw.twCtlResult ≠ 1 ∧ (s.tw b).busy = false ∧ (s.tw b).tgt =
      .idle) ∧
    (∃ (b : Bus) (a : Int) (s : State), a = s.rW b Kw.twCtlTarget ∧ 8 ≤ a ∧ a ≤ 0x77 ∧ a ≠ s.rW b Kw.twAddr ∧ s.rW b Kw.twCtlWlen ≤ 64
      ∧ s.rW b Kw.twCtlRlen ≤ 64 ∧ bit (s.rW b Kw.twRole) 1 = true ∧ s.rW b Kw.twCtlResult ≠ 1 ∧ (s.tw b).busy = true) ∧
    (∃ (b : Bus) (j : TwJob) (s : State), (s.tw b).ctl = some j ∧ j.onBus = false) :=
  ⟨⟨0, 0, live, by decide +kernel⟩,
    ⟨0, 16, (live.wW 0 Kw.twCtlTarget 16), by decide +kernel⟩,
    ⟨0, 16, (((live.wW 0 Kw.twCtlTarget 16).wW 0 Kw.twRole 3).wW 0 Kw.twCtlResult 1), by decide +kernel⟩,
    ⟨0, 16, (((live.wW 0 Kw.twCtlTarget 16).wW 0 Kw.twRole 3).setTw 0 { TwHw.reset with busy := false }), by decide +kernel⟩,
    ⟨0, 16, ((live.wW 0 Kw.twCtlTarget 16).wW 0 Kw.twRole 3), by decide +kernel⟩,
    ⟨0, (job false), (twOn (job false)), by decide +kernel⟩⟩

/-- Witnesses for TwoWire. -/
theorem witness_TwoWire_1 :
    (∃ (b : Bus) (j : TwJob) (s : State), (s.tw b).ctl = some j ∧ j.onBus = true) ∧
    (∃ (b : Bus) (s : State), (s.tw b).ctl = none) ∧
    (∃ (b : Bus) (j : TwJob) (s : State), (s.tw b).ctl = some j ∧ j.onBus = false) ∧
    (∃ (b : Bus) (s : State), (s.tw b).ctl = none) ∧
    (∃ (b : Bus) (j : TwJob) (s : State), (s.tw b).ctl = some j ∧ j.onBus = false ∧ 0 ≤ s.rW b Kw.twCtlDone) ∧
    (∃ (b : Bus) (j : TwJob) (s : State), (s.tw b).ctl = some j ∧ j.onBus = true) :=
  ⟨⟨0, (job true), (twOn (job true)), by decide +kernel⟩,
    ⟨0, live, by decide +kernel⟩,
    ⟨0, (job false), (twOn (job false)), by decide +kernel⟩,
    ⟨0, live, by decide +kernel⟩,
    ⟨0, (job false), (twOn (job false)), by decide +kernel⟩,
    ⟨0, (job true), (twOn (job true)), by decide +kernel⟩⟩

/-- Witnesses for TwoWire. -/
theorem witness_TwoWire_2 :
    (∃ (b : Bus) (o : TwEnd) (j : TwJob) (d : List Byte) (s : State), (s.tw b).ctl = some j ∧ j.onBus = true ∧ j.aborting = false ∧ o =
      .ok d) ∧
    (∃ (b : Bus) (o : TwEnd) (j : TwJob) (s : State), (s.tw b).ctl = some j ∧ j.onBus = true ∧ j.aborting = false ∧ o = .nackAddr
      false) ∧
    (∃ (b : Bus) (o : TwEnd) (j : TwJob) (s : State), (s.tw b).ctl = some j ∧ j.onBus = true ∧ j.aborting = false ∧ o = .nackAddr true
      ∧ 0 < j.rlen) ∧
    (∃ (b : Bus) (o : TwEnd) (j : TwJob) (k : Nat) (s : State), (s.tw b).ctl = some j ∧ j.onBus = true ∧ j.aborting = false ∧ o =
      .nackData k) ∧
    (∃ (b : Bus) (o : TwEnd) (j : TwJob) (s : State), (s.tw b).ctl = some j ∧ j.onBus = true ∧ j.aborting = true) ∧
    (∃ (b : Bus) (o : TwEnd) (s : State), (s.tw b).ctl = none) :=
  ⟨⟨0, (.ok [7]), (job true), ([7]), (twOn (job true)), by decide +kernel⟩,
    ⟨0, .nackAddr false, (job true), (twOn (job true)), by decide +kernel⟩,
    ⟨0, .nackAddr true, (job true), (twOn (job true)), by decide +kernel⟩,
    ⟨0, (.nackData 1), (job true), 1, (twOn (job true)), by decide +kernel⟩,
    ⟨0, .nackAddr false, { job true with aborting := true }, (twOn { job true with aborting := true }), by decide +kernel⟩,
    ⟨0, .nackAddr false, live, by decide +kernel⟩⟩

/-- Witnesses for TwoWire. -/
theorem witness_TwoWire_3 :
    (∃ (b : Bus) (byte : Nat) (bit0 : Fin 8) (mine : Option Bool) (j : TwJob) (s : State), (s.tw b).ctl = some j ∧ j.onBus = true ∧
      j.aborting = false ∧ 0 < j.retries ∧ mine = none) ∧
    (∃ (b : Bus) (byte : Nat) (bit0 : Fin 8) (mine : Option Bool) (j : TwJob) (s : State), (s.tw b).ctl = some j ∧ j.onBus = true ∧
      j.aborting = false ∧ j.retries = 0 ∧ byte ≠ 0) ∧
    (∃ (b : Bus) (byte : Nat) (bit0 : Fin 8) (mine : Option Bool) (j : TwJob) (rd : Bool) (s : State), (s.tw b).ctl = some j ∧ j.onBus
      = true ∧ j.aborting = false ∧ 0 < j.retries ∧ byte = 0 ∧ mine = some rd ∧ bit (s.rW b Kw.twRole) 0 = true ∧ bit (s.rW b
      Kw.twFlags) 2 = false ∧ 2 ≤ s.rW b Kw.twAddr) ∧
    (∃ (b : Bus) (byte : Nat) (bit0 : Fin 8) (mine : Option Bool) (j : TwJob) (s : State), (s.tw b).ctl = some j ∧ j.onBus = true ∧
      j.aborting = false ∧ 0 < j.retries ∧ (byte ≠ 0 ∨ mine = none ∨ bit (s.rW b Kw.twRole) 0 = false ∨ bit (s.rW b Kw.twFlags) 2 =
      true ∨ s.rW b Kw.twAddr < 2)) ∧
    (∃ (b : Bus) (byte : Nat) (bit0 : Fin 8) (mine : Option Bool) (s : State), (s.tw b).ctl = none) ∧
    (∃ (b : Bus) (acked : Nat) (j : TwJob) (s : State), (s.tw b).ctl = some j ∧ j.onBus = true) :=
  ⟨⟨0, 0, 3, none, (job true), (twOn (job true)), by decide +kernel⟩,
    ⟨0, 2, 3, none, { job true with retries := 0 }, (twOn { job true with retries := 0 }), by decide +kernel⟩,
    ⟨0, 0, 3, (some true), (job true), true, (((twOn (job true)).wW 0 Kw.twRole 3).wW 0 Kw.twAddr 16), by decide +kernel⟩,
    ⟨0, 2, 3, none, (job true), (twOn (job true)), by decide +kernel⟩,
    ⟨0, 0, 3, none, live, by decide +kernel⟩,
    ⟨0, 1, (job true), (twOn (job true)), by decide +kernel⟩⟩

/-- Witnesses for TwoWire. -/
theorem witness_TwoWire_4 :
    (∃ (b : Bus) (acked : Nat) (s : State), (s.tw b).ctl = none) ∧
    (∃ (b : Bus) (s : State), (s.src (twSrc b)).part ≠ []) ∧
    (∃ (b : Bus) (s : State), (s.src (twSrc b)).part = []) ∧
    (∃ (b : Bus) (byte : Nat) (j : TwJob) (s : State), (s.tw b).ctl = some j ∧ j.onBus = true ∧ j.aborting = false ∧ 0 < j.retries) ∧
    (∃ (b : Bus) (byte : Nat) (s : State), (s.tw b).ctl = none) ∧
    (∃ (b : Bus) (k : Nat) (j : TwJob) (s : State), (s.tw b).ctl = some j ∧ j.onBus = true) :=
  ⟨⟨0, 1, live, by decide +kernel⟩,
    ⟨0, (live.setSrc 20 { SrcHw.reset with part := [1] }), by decide +kernel⟩,
    ⟨0, live, by decide +kernel⟩,
    ⟨0, 2, (job true), (twOn (job true)), by decide +kernel⟩,
    ⟨0, 2, live, by decide +kernel⟩,
    ⟨0, 1, (job true), (twOn (job true)), by decide +kernel⟩⟩

/-- Witnesses for TwoWire. -/
theorem witness_TwoWire_5 :
    (∃ (b : Bus) (k : Nat) (s : State), (s.tw b).ctl = none) ∧
    (∃ (b : Bus) (k : Nat) (s : State), (s.tw b).ctl = none) ∧
    (∃ (b : Bus) (k : Nat) (j : TwJob) (s : State), (s.tw b).ctl = some j ∧ j.onBus = true) ∧
    (∃ (b : Bus) (freed : Bool) (k : Nat) (s : State), (s.tw b).ctl = none) :=
  ⟨⟨0, 1, live, by decide +kernel⟩,
    ⟨0, 1, live, by decide +kernel⟩,
    ⟨0, 1, (job true), (twOn (job true)), by decide +kernel⟩,
    ⟨0, true, 1, live, by decide +kernel⟩⟩

/-- Witnesses for BootAndSecurity. -/
theorem witness_BootAndSecurity_0 :
    (∃ (rom : Bool) (cs0 : Option WallFound) (cs1 : Option WallFound) (copyOk : Bool) (s : State), s.bootDue = true ∧ rom = false) ∧
    (∃ (rom : Bool) (cs0 : Option WallFound) (cs1 : Option WallFound) (copyOk : Bool) (s : State), s.bootDue = false) ∧
    (∃ (rom : Bool) (cs0 : Option WallFound) (cs1 : Option WallFound) (copyOk : Bool) (s : State), s.bootDue = true ∧ rom = true) ∧
    (∃ (rom : Bool) (cs0 : Option WallFound) (cs1 : Option WallFound) (copyOk : Bool) (s : State), s.bootDue = true ∧ rom = true ∧ cs0
      = none ∧ cs1 = none ∧ (State.scanOtp { s with sec := { s.sec with stat := 1 } }).region 0 ≠ 4 ∧ (State.scanOtp
      { s with sec := { s.sec with stat := 1 } }).region 1 ≠ 4 ∧ (∀ f ∈ criticalFields, ((State.scanOtp
      { s with sec := { s.sec with stat := 1 } }).fieldVote f).isSome = true)) ∧
    (∃ (vpp : Bool) (s : State), s.sec.loader = false ∧ s.otp.job = none ∧ bit (s.rd K.bootFlags) 1 = false ∧ vpp = true) ∧
    (∃ (vpp : Bool) (s : State), (s.sec.loader = true ∨ s.otp.job.isSome = true) ∧ bit (s.rd K.bootFlags) 1 = false) :=
  ⟨⟨false, none, none, true, State.reset, by decide +kernel⟩,
    ⟨true, none, none, true, live, by decide +kernel⟩,
    ⟨true, none, none, true, State.reset, by decide +kernel⟩,
    ⟨true, none, none, true, State.reset, by decide +kernel⟩,
    ⟨true, live, by decide +kernel⟩,
    ⟨true, { live with otp := { live.otp with job := some (.read 5) } }, by decide +kernel⟩⟩

/-- Witnesses for BootAndSecurity. -/
theorem witness_BootAndSecurity_1 :
    (∃ (vpp : Bool) (s : State), bit (s.rd K.bootFlags) 1 = true) ∧
    (∃ (vpp : Bool) (h : List Nat) (s : State), s.otp.job = none ∧ s.imageSlot < 3 ∧ s.keySlot 0x100 (s.imageSlot + 1) = some h ∧
      s.sec.imageKey = some h ∧ vpp = true) ∧
    (∃ (vpp : Bool) (s : State), s.otp.job = none ∧ (s.imageSlot = 3 ∨ s.sec.imageKey ≠ s.keySlot 0x100 (s.imageSlot + 1))) ∧
    (∃ (vpp : Bool) (s : State), s.otp.job.isSome = true) ∧
    (∃ (vpp : Bool) (s : State), s.otp.job = none ∧ counterValue s.otp.cells 3 < 256 ∧ vpp = true) ∧
    (∃ (vpp : Bool) (s : State), s.otp.job.isSome = true) :=
  ⟨⟨true, (live.wr K.bootFlags 2), by decide +kernel⟩,
    ⟨true, (List.replicate 48 1), { live with otpShadow := (List.range 12).map (fun i => (0x10C + i, some 0x01010101)), sec := { live.sec with imageKey := some (List.replicate 48 1) } }, by decide +kernel⟩,
    ⟨true, { live with sec := { live.sec with imageKey := some [] } }, by decide +kernel⟩,
    ⟨true, { live with otp := { live.otp with job := some (.read 5) } }, by decide +kernel⟩,
    ⟨true, live, by decide +kernel⟩,
    ⟨true, { live with otp := { live.otp with job := some (.read 5) } }, by decide +kernel⟩⟩

/-- Witnesses for BootAndSecurity. -/
theorem witness_BootAndSecurity_2 :
    (∃ (c : Transport) (s : State), (tget s.sec.l3 c).isSome = true ∧ s.rd (K.sessionLevel + c.val) = 3) ∧
    (∃ (c : Transport) (n : Nat) (s : State), tget s.sec.l3 c = some n ∧ (∀ q : Transport, q ≠ c → tget s.sec.l3 q = none) ∧
      s.sec.jtagUntil = none ∧ s.rd (K.sessionLevel + c.val) = 3 ∧ n ≤ (s.rd K.opSeconds).toNat) ∧
    (∃ (s : State), (∀ q : Transport, ∀ n ∈ tget s.sec.l3 q, (s.rd K.opSeconds).toNat < n) ∧ (∀ n ∈ s.sec.jtagUntil, (s.rd
      K.opSeconds).toNat < n) ∧ (s.rd K.tokenExpiry = 0 ∨ ((s.rd K.opSeconds).toNat : Int) < s.rd K.tokenExpiry)) ∧
    (∃ (s : State), s.recorder.noWall = false ∧ s.rd K.imgState ≠ 1) ∧
    (∃ (s : State), s.recorder.noWall = true) ∧
    (∃ (s : State), s.recorder.noWall = false ∧ s.rd K.imgState = 1) :=
  ⟨⟨1, { live.wr (K.sessionLevel + 1) 3 with sec := { live.sec with l3 := tset live.sec.l3 1 (some 9) } }, by decide +kernel⟩,
    ⟨1, 5, { ((live.wr (K.sessionLevel + 1) 3).wr K.tokenExpiry 5).wr K.opSeconds 5 with sec := { live.sec with l3 := tset live.sec.l3 1 (some 5) } }, by decide +kernel⟩,
    ⟨(live.wr K.tokenExpiry 5), by decide +kernel⟩,
    ⟨{ live with recorder := { live.recorder with noWall := false } }, by decide +kernel⟩,
    ⟨{ live with recorder := { live.recorder with noWall := true } }, by decide +kernel⟩,
    ⟨{ live.wr K.imgState 1 with recorder := { live.recorder with noWall := false } }, by decide +kernel⟩⟩

/-- Witnesses for BootAndSecurity. -/
theorem witness_BootAndSecurity_3 :
    (∃ (s : State), s.rd K.imgState = 1) ∧
    (∃ (s : State), s.rd K.imgState ≠ 1) ∧
    (∃ (off : Nat) (octets : List Byte) (n : Nat) (s : State), off % 1024 = 0 ∧ off < 0x400000 ∧ s.recorder.noWall = false ∧ s.rd
      K.imgState ≠ 1 ∧ n = (slotBase (spareSlot s) + off) / 1024 ∧ octets.length = 1024) ∧
    (∃ (off : Nat) (octets : List Byte) (s : State), (off % 1024 ≠ 0 ∨ 0x400000 ≤ off)) ∧
    (∃ (s : State), s.rd K.imgState ≠ 1) ∧
    (∃ (s : State), s.rd K.imgState = 1) :=
  ⟨⟨(live.wr K.imgState 1), by decide +kernel⟩,
    ⟨live, by decide +kernel⟩,
    ⟨1024, (List.replicate 1024 1), 1, { live.wr K.bootSlot 1 with recorder := { live.recorder with noWall := false } }, by decide +kernel⟩,
    ⟨5, ([]), live, by decide +kernel⟩,
    ⟨live, by decide +kernel⟩,
    ⟨(live.wr K.imgState 1), by decide +kernel⟩⟩

/-- Witnesses for BootAndSecurity. -/
theorem witness_BootAndSecurity_4 :
    (∃ (i : TapIns) (s : State), i ≠ .extest) ∧
    (∃ (i : TapIns) (s : State), i = .extest) ∧
    (∃ (c : CoreId) (s : State), s.debugOpen = true ∧ s.coreOn c = true ∧ (s.core c).posted = []) ∧
    (∃ (c : CoreId) (s : State), (s.debugOpen = false ∨ s.coreOn c = false)) ∧
    (∃ (c : CoreId) (mem : List (BitVec 32 × BitVec 32)) (s : State), s.debugOpen = true ∧ tget s.sec.halted c = true) ∧
    (∃ (c : CoreId) (mem : List (BitVec 32 × BitVec 32)) (s : State), s.debugOpen = false) :=
  ⟨⟨.sample, live, by decide +kernel⟩,
    ⟨.extest, live, by decide +kernel⟩,
    ⟨0, ((engOn 0).wr K.lifecycle 0), by decide +kernel⟩,
    ⟨0, (engOn 0), by decide +kernel⟩,
    ⟨0, [], (((engOn 0).wr K.lifecycle 0).setHalted 0 true), by decide +kernel⟩,
    ⟨0, [], (engOn 0), by decide +kernel⟩⟩

/-- Witnesses for BootAndSecurity. -/
theorem witness_BootAndSecurity_5 :
    (∃ (rom : Bool) (cs0 : Option WallFound) (cs1 : Option WallFound) (copyOk : Bool) (s : State) (u : State), s.bootDue = true ∧ rom =
      true ∧ (State.scanOtp { s with sec := { s.sec with stat := 1 } }).region 0 ≠ 4 ∧ (State.scanOtp
      { s with sec := { s.sec with stat := 1 } }).region 1 ≠ 4 ∧ (∀ f ∈ criticalFields, ((State.scanOtp
      { s with sec := { s.sec with stat := 1 } }).fieldVote f).isSome = true) ∧ u = ((criticalFields.foldl State.driveField
      (State.scanOtp { s with sec := { s.sec with stat := 1 } })).loadOtp.loadControl.newChallenge).findWall cs0 cs1 ∧
      u.recorder.noWall = false ∧ slotValid u 0 = false ∧ slotValid u 1 = false) :=
  ⟨true, some { size := 67108864, page := 256, erase := 4096 }, none, true, State.reset, (((criticalFields.foldl State.driveField (State.scanOtp { State.reset with sec := { State.reset.sec with stat := 1 } })).loadOtp.loadControl.newChallenge).findWall (some { size := 67108864, page := 256, erase := 4096 }) none), by decide +kernel, rfl, by decide +kernel, by decide +kernel, by decide +kernel, rfl, by decide +kernel, by decide +kernel, by decide +kernel⟩

/-- Witnesses for OtpCommands. -/
theorem witness_OtpCommands_0 :
    (∃ (via : OtpVia) (a : Nat) (s : State), (via = .debug → s.debugOpen = true) ∧ s.otp.job = none ∧ a = (s.rd K.otpAddr).toNat % 4096
      ∧ ¬(0x27 ≤ a ∧ a ≤ 0x3E)) ∧
    (∃ (via : OtpVia) (s : State), (via = .debug → s.debugOpen = true) ∧ s.otp.job = none ∧ 0x27 ≤ (s.rd K.otpAddr).toNat % 4096 ∧
      (s.rd K.otpAddr).toNat % 4096 ≤ 0x3E) ∧
    (∃ (via : OtpVia) (s : State), (via = .debug → s.debugOpen = true) ∧ s.otp.job.isSome = true) ∧
    (∃ (via : OtpVia) (raw : Bool) (vpp : Bool) (a : Nat) (s : State), (via = .debug → s.debugOpen = true) ∧ s.otp.job = none ∧ a =
      (s.rd K.otpAddr).toNat % 4096 ∧ burnBar s via a false = none ∧ digestWord a = false ∧ (wordAt s.otp.cells a).st = .blank ∧ vpp =
      true) ∧
    (∃ (via : OtpVia) (raw : Bool) (vpp : Bool) (a : Nat) (r : Nat) (s : State), (via = .debug → s.debugOpen = true) ∧ s.otp.job = none
      ∧ a = (s.rd K.otpAddr).toNat % 4096 ∧ burnBar s via a false = some r ∧ r < 16) ∧
    (∃ (via : OtpVia) (raw : Bool) (vpp : Bool) (s : State), (via = .debug → s.debugOpen = true) ∧ s.otp.job.isSome = true) :=
  ⟨⟨.dictionary, 0x100, (live.wr K.otpAddr 0x100), by decide +kernel⟩,
    ⟨.dictionary, (live.wr K.otpAddr 0x3E), by decide +kernel⟩,
    ⟨.dictionary, { live with otp := { live.otp with job := some (.read 5) } }, by decide +kernel⟩,
    ⟨.dictionary, false, true, 0x700, (live.wr K.otpAddr 0x700), by decide +kernel⟩,
    ⟨.dictionary, false, true, 0xF00, 10, (live.wr K.otpAddr 0xF00), by decide +kernel⟩,
    ⟨.dictionary, false, true, { live with otp := { live.otp with job := some (.read 5) } }, by decide +kernel⟩⟩

/-- Witnesses for OtpCommands. -/
theorem witness_OtpCommands_1 :
    (∃ (via : OtpVia) (vpp : Bool) (a : Nat) (s : State), (via = .debug → s.debugOpen = true) ∧ s.otp.job = none ∧ a = (s.rd
      K.otpAddr).toNat % 4096 ∧ burnBar s via a true = none ∧ lockedRegion a = none ∧ (wordAt s.otp.cells a).st = .bad ∧ vpp = true) ∧
    (∃ (via : OtpVia) (vpp : Bool) (a : Nat) (s : State), (via = .debug → s.debugOpen = true) ∧ s.otp.job = none ∧ a = (s.rd
      K.otpAddr).toNat % 4096 ∧ burnBar s via a true = none ∧ (wordAt s.otp.cells a).st = .good) ∧
    (∃ (via : OtpVia) (arg : Fin 32) (vpp : Bool) (r : Fin 4) (s : State), (via = .debug → s.debugOpen = true) ∧ s.otp.job = none ∧
      s.otpArgOf via arg = r.val ∧ burnBar s via (regionSpan r).1 false = none ∧ s.finalised r = false ∧ (requiredWords r).all (fun a
      => decide ((wordAt s.otp.cells a).st = .good)) = true ∧ ((regionWords r).all (fun a => decide ((wordAt s.otp.cells a).st = .good
      ∨ (wordAt s.otp.cells a).st = .blank)) = true) ∧ vpp = true) ∧
    (∃ (via : OtpVia) (arg : Fin 32) (vpp : Bool) (s : State), (via = .debug → s.debugOpen = true) ∧ s.otp.job = none ∧ 4 ≤ s.otpArgOf
      via arg) ∧
    (∃ (via : OtpVia) (arg : Fin 32) (vpp : Bool) (k : Fin 32) (s : State), (via = .debug → s.debugOpen = true) ∧ s.otp.job = none ∧
      s.otpArgOf via arg = k.val ∧ 5 ≤ k.val ∧ counterValue s.otp.cells k < 256 ∧ vpp = true) ∧
    (∃ (via : OtpVia) (arg : Fin 32) (vpp : Bool) (s : State), (via = .debug → s.debugOpen = true) ∧ s.otp.job = none ∧ 1 ≤ s.otpArgOf
      via arg ∧ s.otpArgOf via arg ≤ 4) :=
  ⟨⟨.dictionary, true, 0x700, { live.wr K.otpAddr 0x700 with otp := { live.otp with cells := [(0x700, { hi := 7, nom := 7, lo := 7 })] } }, by decide +kernel⟩,
    ⟨.dictionary, true, 0x700, { live.wr K.otpAddr 0x700 with otp := { live.otp with cells := [(0x700, OtpWord.programmed 1)] } }, by decide +kernel⟩,
    ⟨.dictionary, 0, true, 1, { live.wr K.otpArg 1 with otp := { live.otp with cells := (List.range 12).map (fun i => (0x100 + i, OtpWord.programmed 1)) ++ (List.range 12).map (fun i => (0x130 + i, OtpWord.programmed 1)) } }, by decide +kernel⟩,
    ⟨.dictionary, 0, true, (live.wr K.otpArg 4), by decide +kernel⟩,
    ⟨.dictionary, 0, true, 5, (live.wr K.otpArg 5), by decide +kernel⟩,
    ⟨.dictionary, 0, true, (live.wr K.otpArg 4), by decide +kernel⟩⟩

/-- Witnesses for OtpCommands. -/
theorem witness_OtpCommands_2 :
    (∃ (k : Nat) (vpp : Bool) (i : Fin 32) (s : State), s.otp.job = none ∧ k = i.val ∧ 5 ≤ k ∧ counterValue s.otp.cells k < 256 ∧ vpp =
      true) ∧
    (∃ (k : Nat) (vpp : Bool) (s : State), k < 5) ∧
    (∃ (s : State), (s.otp.job.all fun j => match j with | .read _ => true | _ => false) = true) ∧
    (∃ (s : State), (s.otp.job.all fun j => match j with | .read _ => true | _ => false) = false) ∧
    (∃ (m : BitVec 16) (s : State), 0 ≤ s.rd K.lockApp) ∧
    (∃ (burns : List Burn) (a : Nat) (s : State), s.otp.job = some (.read a) ∧ a < 0xF00 ∧ (wordAt s.otp.cells a).st = .good) :=
  ⟨⟨31, true, 31, live, by decide +kernel⟩,
    ⟨4, true, live, by decide +kernel⟩,
    ⟨{ live with otp := { live.otp with job := some (.read 5) } }, by decide +kernel⟩,
    ⟨{ live with otp := { live.otp with job := some (.advance 1) } }, by decide +kernel⟩,
    ⟨0x8001, (live.wr K.lockApp 2), by decide +kernel⟩,
    ⟨([]), 0x700, { live with otp := { live.otp with job := some (.read 0x700), cells := [(0x700, OtpWord.programmed 7)] } }, by decide +kernel⟩⟩

/-- Witnesses for OtpCommands. -/
theorem witness_OtpCommands_3 :
    (∃ (burns : List Burn) (a : Nat) (d : Nat) (s : State), s.otp.job = some (.program a d) ∧ burns = [] ∧ s.otp.stopped = false ∧
      lockedRegion a = none ∧ a < 4096 ∧ placeOf s.otp.cells a = a ∧ cellAt s.otp.cells a = OtpWord.blank) ∧
    (∃ (burns : List Burn) (s : State), s.otp.job = none) ∧
    (∃ (via : OtpVia) (raw : Bool) (vpp : Bool) (s : State), via = .debug ∧ s.debugOpen = false) :=
  ⟨⟨([]), 0x700, 9, { live with otp := { live.otp with job := some (.program 0x700 9) } }, by decide +kernel⟩,
    ⟨([]), live, by decide +kernel⟩,
    ⟨.debug, false, true, live, by decide +kernel⟩⟩

/-- Witnesses for ClocksAndLinks. -/
theorem witness_ClocksAndLinks_0 :
    (∃ (n : Tile) (a : Bool) (b : Bool) (s : State), s.lath n = 0 ∧ a = false ∧ b = false) ∧
    (∃ (n : Tile) (a : Bool) (b : Bool) (s : State), s.lath n = 0 ∧ a = true ∧ b = false ∧ (s.conv (tileConv n false)).withheld = none) ∧
    (∃ (n : Tile) (a : Bool) (b : Bool) (s : State), s.lath n ≠ 0) ∧
    (∃ (n : Tile) (s : State), s.lath n = 0 ∧ s.asleep 2 = false) ∧
    (∃ (n : Tile) (s : State), s.lath n = 2) ∧
    (∃ (n : Tile) (s : State), s.lath n = 2 ∧ s.power.deg = none) :=
  ⟨⟨2, false, false, (live.wr (K.lathState + 2) 0), by decide +kernel⟩,
    ⟨2, true, false, (live.wr (K.lathState + 2) 0), by decide +kernel⟩,
    ⟨2, true, false, (live.wr (K.lathState + 2) 1), by decide +kernel⟩,
    ⟨2, (live.wr (K.lathState + 2) 0), by decide +kernel⟩,
    ⟨2, (live.wr (K.lathState + 2) 2), by decide +kernel⟩,
    ⟨2, (live.wr (K.lathState + 2) 2), by decide +kernel⟩⟩

/-- Witnesses for ClocksAndLinks. -/
theorem witness_ClocksAndLinks_1 :
    (∃ (n : Tile) (s : State), s.lath n = 2 ∧ s.power.deg = some (.resetTile n)) ∧
    (∃ (n : Tile) (s : State), s.lath n = 0 ∧ s.power.deg = none) ∧
    (∃ (n : Tile) (s : State), s.lath n = 2 ∧ (s.tile n).trst = false ∧ (s.tile n).feOk = true ∧ s.power.deg = none ∧ (s.tile n).news =
      [] ∧ (s.tile n).reqs = [] ∧ (∀ p : Port, p.val / 8 = n.val → (s.port p).held = [] ∧ (s.path p).cut = false ∧ (s.path p).strip =
      none)) ∧
    (∃ (n : Tile) (s : State), s.lath n = 0) ∧
    (∃ (r : RefFound) (s : State), r = .ref10) ∧
    (∃ (r : RefFound) (s : State), r = .ref25) :=
  ⟨⟨2, { live.wr (K.lathState + 2) 2 with power := { live.power with deg := some (.resetTile 2) } }, by decide +kernel⟩,
    ⟨2, (live.wr (K.lathState + 2) 0), by decide +kernel⟩,
    ⟨2, (live.wr (K.lathState + 2) 2), by decide +kernel⟩,
    ⟨2, (live.wr (K.lathState + 2) 0), by decide +kernel⟩,
    ⟨.ref10, live, by decide +kernel⟩,
    ⟨.ref25, live, by decide +kernel⟩⟩

/-- Witnesses for ClocksAndLinks. -/
theorem witness_ClocksAndLinks_2 :
    (∃ (r : RefFound) (s : State), r = .none) ∧
    (∃ (s : State), s.clk.pll = .refclk) ∧
    (∃ (s : State), s.clk.pll = .oscillator) ∧
    (∃ (s : State), s.clk.pll = .holdover) ∧
    (∃ (s : State), s.clk.pll = .refclk) ∧
    (∃ (s : State), s.clk.pll = .holdover ∧ 0 ≤ s.rd K.clkStatus) :=
  ⟨⟨.none, live, by decide +kernel⟩,
    ⟨{ live with clk := { live.clk with pll := .refclk } }, by decide +kernel⟩,
    ⟨{ live with clk := { live.clk with pll := .oscillator } }, by decide +kernel⟩,
    ⟨{ live with clk := { live.clk with pll := .holdover } }, by decide +kernel⟩,
    ⟨{ live with clk := { live.clk with pll := .refclk } }, by decide +kernel⟩,
    ⟨{ live.wr K.clkStatus 0x17 with clk := { live.clk with pll := .holdover } }, by decide +kernel⟩⟩

/-- Witnesses for ClocksAndLinks. -/
theorem witness_ClocksAndLinks_3 :
    (∃ (s : State), s.clk.pll = .refclk) ∧
    (∃ (s : State), s.clk.aonCrystal = true) ∧
    (∃ (s : State), s.clk.aonCrystal = false) :=
  ⟨⟨{ live with clk := { live.clk with pll := .refclk } }, by decide +kernel⟩,
    ⟨{ live with clk := { live.clk with aonCrystal := true } }, by decide +kernel⟩,
    ⟨{ live with clk := { live.clk with aonCrystal := false } }, by decide +kernel⟩⟩

/-- Witnesses for PowerStates. -/
theorem witness_PowerStates_0 :
    (∃ (s : State), 0 < s.rd K.psTarget ∧ s.rd K.psTarget ≤ 5 ∧ s.power.phase ≠ .run) ∧
    (∃ (r : Nat) (s : State), 0 < s.rd K.psTarget ∧ s.rd K.psTarget ≤ 5 ∧ s.power.phase = .run ∧ enterRefusal s (s.rd K.psTarget).toNat
      = some r) ∧
    (∃ (n : Nat) (s : State), 0 < s.rd K.psTarget ∧ s.power.phase = .run ∧ n = (s.rd K.psTarget).toNat ∧ enterRefusal s n = none ∧ n <
      3) ∧
    (∃ (n : Nat) (s : State), s.power.phase = .run ∧ n = (s.rd K.psTarget).toNat ∧ enterRefusal s n = none ∧ 3 ≤ n ∧ n ≤ 5) ∧
    (∃ (s : State), (s.rd K.psTarget ≤ 0 ∨ 5 < s.rd K.psTarget)) ∧
    (∃ (s : State), s.power.phase ≠ .entering) :=
  ⟨⟨((psOf .low 1).wr K.psTarget 2), by decide +kernel⟩,
    ⟨5, ((live.wr K.storeState 1).wr K.psTarget 1), by decide +kernel⟩,
    ⟨1, (live.wr K.psTarget 1), by decide +kernel⟩,
    ⟨3, (live.wr K.psTarget 3), by decide +kernel⟩,
    ⟨(live.wr K.psTarget 7), by decide +kernel⟩,
    ⟨live, by decide +kernel⟩⟩

/-- Witnesses for PowerStates. -/
theorem witness_PowerStates_1 :
    (∃ (s : State), s.power.phase = .entering ∧ s.power.target = 1) ∧
    (∃ (s : State), s.power.phase = .entering ∧ s.power.target = 2) ∧
    (∃ (s : State), s.power.phase = .entering ∧ s.power.target = 3 ∧ s.flushIdle = true) ∧
    (∃ (s : State), s.power.phase = .entering ∧ s.power.target = 4 ∧ s.flushIdle = true) ∧
    (∃ (s : State), s.power.phase = .entering ∧ s.power.target = 5 ∧ s.flushIdle = true) ∧
    (∃ (s : State), 3 ≤ s.power.target ∧ s.flushIdle = false) :=
  ⟨⟨(psOf .entering 1), by decide +kernel⟩,
    ⟨(psOf .entering 2), by decide +kernel⟩,
    ⟨(psOf .entering 3), by decide +kernel⟩,
    ⟨(psOf .entering 4), by decide +kernel⟩,
    ⟨(psOf .entering 5), by decide +kernel⟩,
    ⟨{ psOf .entering 3 with recorder := { live.recorder with due := some 4 } }, by decide +kernel⟩⟩

/-- Witnesses for PowerStates. -/
theorem witness_PowerStates_2 :
    (∃ (s : State), s.power.phase = .low ∧ s.power.target ≤ 2) ∧
    (∃ (s : State), s.power.phase ≠ .low) ∧
    (∃ (src : Fin 12) (s : State), s.power.phase = .low ∧ s.wakes src.val = true) ∧
    (∃ (src : Fin 12) (s : State), s.power.phase = .entering ∧ s.wakes src.val = true) ∧
    (∃ (src : Fin 12) (s : State), (s.power.phase = .run ∨ s.wakes src.val = false)) ∧
    (∃ (s : State), s.power.phase = .exiting ∧ s.power.target < 3) :=
  ⟨⟨(psOf .low 1), by decide +kernel⟩,
    ⟨live, by decide +kernel⟩,
    ⟨0, ((psOf .low 1).iow 17 0xF008 1), by decide +kernel⟩,
    ⟨0, ((psOf .entering 1).iow 17 0xF008 1), by decide +kernel⟩,
    ⟨0, live, by decide +kernel⟩,
    ⟨(psOf .exiting 2), by decide +kernel⟩⟩

/-- Witnesses for PowerStates. -/
theorem witness_PowerStates_3 :
    (∃ (s : State), s.power.phase ≠ .exiting) ∧
    (∃ (s : State), s.recorder.powerFail = true) ∧
    (∃ (s : State), s.recorder.powerFail = false ∧ s.power.phase = .run ∧ s.rd K.pfEn = 0) ∧
    (∃ (s : State), s.recorder.powerFail = false ∧ s.power.phase = .entering ∧ s.rd K.pfEn = 0) ∧
    (∃ (s : State), s.recorder.saveDue = false) ∧
    (∃ (s : State), s.recorder.saveDue = true) :=
  ⟨⟨live, by decide +kernel⟩,
    ⟨{ live with recorder := { live.recorder with powerFail := true } }, by decide +kernel⟩,
    ⟨(live.wr K.pfEn 0), by decide +kernel⟩,
    ⟨((psOf .entering 2).wr K.pfEn 0), by decide +kernel⟩,
    ⟨live, by decide +kernel⟩,
    ⟨{ live with recorder := { live.recorder with saveDue := true, powerFail := true } }, by decide +kernel⟩⟩

/-- Witnesses for PowerStates. -/
theorem witness_PowerStates_4 :
    (∃ (s : State), s.power.phase = .exiting ∧ (s.power.target = 3 ∨ s.power.target = 4)) :=
  ⟨(psOf .exiting 3), by decide +kernel⟩

/-- Witnesses for Resets. -/
theorem witness_Resets_0 :
    (∃ (s : State), s.otp.job = none) ∧
    (∃ (s : State), s.otp.job = none) ∧
    (∃ (s : State), s.otp.job = none) ∧
    (∃ (s : State), s.power.softDue = true ∧ s.sec.held = false ∧ s.otp.job = none) ∧
    (∃ (s : State), s.keeperWdRuns = true ∧ s.otp.job = none) ∧
    (∃ (key : BitVec 32) (s : State), key ≠ 0x3C5A ∧ s.keeperWdRuns = true ∧ s.otp.job = none) :=
  ⟨⟨(live.wr K.powerCycles 4), by decide +kernel⟩,
    ⟨(live.wr K.powerCycles 4), by decide +kernel⟩,
    ⟨live, by decide +kernel⟩,
    ⟨{ live with power := { live.power with softDue := true }, tb := 77 }, by decide +kernel⟩,
    ⟨{ live.setCore 17 { CoreHw.reset with run := .running } with tb := 77 }, by decide +kernel⟩,
    ⟨0, (live.setCore 17 { CoreHw.reset with run := .running }), by decide +kernel⟩⟩

/-- Witnesses for Resets. -/
theorem witness_Resets_1 :
    (∃ (s : State), (s.sec.stat ≠ 0 ∨ s.bootDue = true) ∧ s.sec.held = false ∧ s.otp.job = none) :=
  ⟨live, by decide +kernel⟩

/-- Witnesses for ResetsThatWait. -/
theorem witness_ResetsThatWait :
    (∃ (key : BitVec 32) (s : State), key = 0x3C5A) ∧
    (∃ (key : BitVec 32) (s : State), s.keeperWdRuns = false) ∧
    (∃ (s : State), s.keeperWdRuns = false) ∧
    (∃ (s : State), s.power.softDue = false) ∧
    (∃ (s : State), s.sec.held = true) ∧
    (∃ (s : State), ((s.sec.stat = 0 ∧ s.bootDue = false) ∨ s.sec.held = true)) :=
  ⟨⟨0x3C5A, live, by decide +kernel⟩,
    ⟨0, live, by decide +kernel⟩,
    ⟨live, by decide +kernel⟩,
    ⟨live, by decide +kernel⟩,
    ⟨{ live with sec := { live.sec with held := true } }, by decide +kernel⟩,
    ⟨{ live with sec := { live.sec with held := true } }, by decide +kernel⟩⟩

/-- Witnesses for DegradedOperation. -/
theorem witness_DegradedOperation_0 :
    (∃ (p : Port) (s : State), s.power.deg = none ∧ s.rd K.degArg = p.val ∧ (s.path p).safe = true ∧ s.rd (K.safeCause + p.val) = 1) ∧
    (∃ (s : State), (s.power.deg.isSome = true ∨ 64 ≤ (s.rd K.degArg).toNat)) ∧
    (∃ (k : Fin 16) (s : State), s.power.deg = none ∧ s.rd K.degArg = k.val ∧ s.engLive ⟨k.val, by omega⟩ = false ∧ s.float.pending =
      false ∧ s.rd K.adoptEng = k.val ∧ s.engSt pe16 = Es.floatActive) ∧
    (∃ (k : Fin 16) (s : State), s.power.deg = none ∧ s.rd K.degArg = k.val ∧ s.engLive ⟨k.val, by omega⟩ = false ∧ s.float.pending =
      false ∧ s.rd K.adoptEng ≠ k.val) ∧
    (∃ (s : State), (s.power.deg.isSome = true ∨ 16 ≤ (s.rd K.degArg).toNat ∨ s.float.pending = true)) ∧
    (∃ (k : Fin 16) (s : State), s.power.deg = some (.handback k)) :=
  ⟨⟨3, (((live.setPath 3 { live.path 3 with safe := true }).wr (K.safeCause + 3) 1).wr K.degArg 3), by decide +kernel⟩,
    ⟨(live.wr K.degArg 64), by decide +kernel⟩,
    ⟨2, (((live.wr K.degArg 2).wr K.adoptEng 2).wr (K.engState + 16) 5), by decide +kernel⟩,
    ⟨2, (live.wr K.degArg 2), by decide +kernel⟩,
    ⟨(live.wr K.degArg 16), by decide +kernel⟩,
    ⟨2, { (live.wr K.adoptEng 2).wr (K.engState + 16) 5 with power := { live.power with deg := some (.handback 2) } }, by decide +kernel⟩⟩

/-- Witnesses for DegradedOperation. -/
theorem witness_DegradedOperation_1 :
    (∃ (s : State), s.power.deg = none) ∧
    (∃ (k : Fin 16) (s : State), s.power.deg = some (.handback k)) ∧
    (∃ (s : State), s.power.deg = none) ∧
    (∃ (n : Tile) (s : State), s.power.deg = none ∧ s.rd K.degArg = n.val ∧ s.lath n = 3) ∧
    (∃ (s : State), (s.power.deg.isSome = true ∨ 8 ≤ (s.rd K.degArg).toNat)) ∧
    (∃ (m : BitVec 8) (s : State), m = 0) :=
  ⟨⟨live, by decide +kernel⟩,
    ⟨2, { live with power := { live.power with deg := some (.handback 2) } }, by decide +kernel⟩,
    ⟨live, by decide +kernel⟩,
    ⟨2, ((live.wr K.degArg 2).wr (K.lathState + 2) 3), by decide +kernel⟩,
    ⟨(live.wr K.degArg 8), by decide +kernel⟩,
    ⟨0, live, by decide +kernel⟩⟩

/-- Witnesses for DegradedOperation. -/
theorem witness_DegradedOperation_2 :
    (∃ (m : BitVec 8) (n : Tile) (s : State), m.toNat = 2 ^ n.val) ∧
    (∃ (n : Tile) (s : State), s.power.deg = none ∧ s.lath n ≠ 3) ∧
    (∃ (n : Tile) (s : State), (∀ p : Port, s.owesVconn p = false)) ∧
    (∃ (n : Tile) (s : State), (∀ p : Port, p.val / 8 = n.val → s.attached p = false)) ∧
    (∃ (n : Tile) (p : Port) (s : State), p.val / 8 = n.val ∧ (∀ q : Port, q.val / 8 = n.val → q ≠ p → s.attached q = false) ∧
      s.attached p = true ∧ s.vconnDue p = true) :=
  ⟨⟨4, 2, live, by decide +kernel⟩,
    ⟨2, live, by decide +kernel⟩,
    ⟨2, ((srcPort 16).setPort 16 { (srcPort 16).port 16 with vconnOwner := true }), by decide +kernel⟩,
    ⟨2, live, by decide +kernel⟩,
    ⟨2, 16, (((srcPort 16).setPort 16 { (srcPort 16).port 16 with vconnOwner := true, powered := true }).wP 16 Kp.vconnEn 1), by decide +kernel⟩⟩

end Sys2Proof.Tests
end

section
/-! SUPPORT. What the state after a power-on reset reads as, record by record, and that it is sound: nothing runs, the stores are
canonical and the pins follow it. Values that the manual leaves open at reset are the model's choice (log entries 6 and 7). -/

namespace Sys2Proof.Machine

/-! The records of the units. -/

@[simp] theorem reset_path (p : Port) : State.reset.path p = PathHw.reset := Vector.getElem_replicate p.isLt

@[simp] theorem reset_conv (c : Conv) : State.reset.conv c = ConvHw.reset := Vector.getElem_replicate c.isLt

@[simp] theorem reset_ses (t : Transport) : State.reset.ses t = SessHw.reset := Vector.getElem_replicate t.isLt

@[simp] theorem reset_cmp (c : Cmp) : State.reset.cmp c = CmpHw.reset c.val := Vector.getElem_ofFn c.isLt

/-! The dictionary: every entry reads its default (R407). -/

@[simp] theorem reset_rd (k : Nat) : State.reset.rd k = odDefault k := rfl

/-- ENG_STATE rests at STOPPED (Table 10.11). -/
theorem odDefault_engState (e : Eng) : odDefault (K.engState + e.val) = 0 := by
  revert e; decide +kernel

/-- LATH_STATE rests at 0, not failed. -/
theorem odDefault_lathState (n : Tile) : odDefault (K.lathState + n.val) = 0 := by
  revert n; decide +kernel

/-- Neither feed is in FAULT: FEED_HS_STATE rests at 0. -/
theorem odDefault_feedHsState (f : Feed) : odDefault (keyF f Kf.feedHsState) = 0 := by
  revert f; decide +kernel

theorem odDefault_alertSrc : odDefault K.alertSrc = 0 := by decide +kernel

theorem odDefault_pwrgdState : odDefault K.pwrgdState = 0 := by decide +kernel

theorem odDefault_refDiverge : odDefault K.refDiverge = 0 := by decide +kernel

theorem odDefault_ledgerFlags : odDefault K.ledgerFlags = 0 := by decide +kernel

/-- No engine executes: every ENG_STATE is STOPPED. -/
theorem reset_engLive (e : Eng) : State.reset.engLive e = false := by
  have stopped : State.reset.engSt e = Es.stopped := odDefault_engState e
  have codeNe (v : Int) (h : Es.stopped ≠ v) : decide (State.reset.engSt e = v) = false := decide_eq_false (stopped ▸ h)
  simp only [State.engLive, codeNe Es.running (by decide), codeNe Es.floatIdle (by decide), codeNe Es.floatActive (by decide),
    Bool.or_self]

/-! Canonical form: no store lists anything. -/

@[simp] theorem SMap.wf_nil {α : Type} [DecidableEq α] (d : Nat → α) : SMap.wf d [] = true := rfl

theorem reset_storesOk : State.reset.storesOk = true := by simp [State.storesOk, State.reset]

theorem reset_canonical : State.reset.canonical = true := by
  simp only [State.canonical, reset_storesOk, reset_cores, Bool.and_self]

/-! The pins (R164, R165, R233, R249, R380). -/

/-- None of the conditions of R164 holds. -/
theorem reset_faultConditions : faultConditions State.reset = List.replicate 9 false := by
  have tiles (n : Tile) : State.reset.lath n = 0 := odDefault_lathState n
  have unlatched : State.reset.coatFault = false := rfl
  have unshed : State.reset.ledger.causes = [] := rfl
  simp [faultConditions, tiles, unlatched, unshed, odDefault_feedHsState, odDefault_refDiverge, odDefault_ledgerFlags, PathHw.reset,
    CmpHw.reset, bit]

theorem reset_faultSrc : faultSrc State.reset = 0 := by
  rw [faultSrc, reset_faultConditions]; rfl

theorem reset_pwrgdOf : pwrgdOf State.reset = false := by
  simp [pwrgdOf, odDefault_pwrgdState]

/-- The sequencer is held in reset, so RAILnn_EN is high-impedance (R233). -/
theorem reset_railEnPin (n : Rail) : railEnPin State.reset n = none := if_pos rfl

/-- For the same reason RAILnn_MGN is high-impedance (R249). -/
theorem reset_railMgnPin (n : Rail) : railMgnPin State.reset n = none := by
  have held : State.reset.coat.held = true := rfl
  simp [railMgnPin, held]

theorem reset_pinsOf : pinsOf State.reset = Pins.reset := by
  have railEn : Vector.ofFn (railEnPin State.reset) = .replicate 32 none := by
    ext1 i hi; simp [reset_railEnPin]
  have railMgn : Vector.ofFn (railMgnPin State.reset) = .replicate 32 none := by
    ext1 i hi; simp [reset_railMgnPin]
  simp [pinsOf, Pins.reset, odDefault_alertSrc, reset_faultSrc, reset_pwrgdOf, railEn, railMgn]

theorem reset_pinsOk : State.reset.pinsOk = true := decide_eq_true reset_pinsOf.symm

/-- Settles O4: field by field from the reset records; the engines, the stores and the pins by the lemmas above. -/
theorem resetState : Obligations.ResetState :=
  ⟨rfl, rfl, rfl, rfl, fun p => congrArg PathHw.gate (reset_path p), fun c => congrArg ConvHw.run (reset_conv c), reset_engLive,
    fun t => congrArg SessHw.phase (reset_ses t), reset_canonical, reset_pinsOk⟩

end Sys2Proof.Machine
end

section
/-! SUPPORT. The step of the block: what it does with the front of the queue, and on an empty one. -/

namespace Sys2Proof.Machine

/-- With a command at the front of the queue, a step is that command on the state without it. -/
theorem step_of_pending {s : State} {c : Instr} {q : List Instr} (h : s.pending = c :: q) : step s = exec c (s.withQueue q) := by
  simp only [step, h]

/-- On an empty queue a step is one tick of the time base (log entry 2). -/
theorem step_of_idle {s : State} (h : s.pending = []) : step s = .next (settle s.tick) := by
  simp only [step, h]

/-- Settles O1: the two branches of `step`. -/
theorem stepRunsFront : Obligations.StepRunsFront := by
  unfold Obligations.StepRunsFront
  exact ⟨fun _ _ _ => step_of_pending rfl, fun _ h => step_of_idle h⟩

end Sys2Proof.Machine
end

section
/-! SUPPORT. What an operation on the ports of a list leaves of the rest: the links, the sources of ALERT and the paths of the other
ports. SAFE_OFF of a port is such an operation (R139, R460), and so is that of every port of a failed tile (R22). -/

namespace Sys2Proof.Machine

/-- Entries that no operation on a port may clear: ALERT_SRC and LATH_STATE. -/
def Guarded (k : Nat) : Prop := k = K.alertSrc ∨ ∃ n : Tile, k = K.lathState + n.val

/-- Where they lie. -/
theorem Guarded.range {k : Nat} (h : Guarded k) : k = 0x101201 ∨ 0x581001 ≤ k ∧ k < 0x581009 := by
  obtain rfl | ⟨n, rfl⟩ := h
  · exact .inl rfl
  · exact .inr ⟨Nat.le_add_right .., Nat.add_lt_add_left n.isLt _⟩

theorem lathState_ne_alertSrc (n : Tile) : K.lathState + n.val ≠ K.alertSrc := Nat.ne_of_gt (Nat.lt_add_right _ (by decide))

/-- From `s` to `t` the ports of `l` move: no LATH_STATE changes, no source of ALERT is withdrawn, no path outside `l` changes and no
port leaves SAFE_OFF. -/
structure ActsOn (l : List Port) (s t : State) : Prop where
  lath : ∀ n : Tile, t.lath n = s.lath n
  alerts : ∀ b, bit (s.rd K.alertSrc) b = true → bit (t.rd K.alertSrc) b = true
  others : ∀ q, q ∉ l → t.path q = s.path q
  safe : ∀ q, (s.path q).safe = true → (t.path q).safe = true

theorem ActsOn.refl (l : List Port) (s : State) : ActsOn l s s := ⟨fun _ => rfl, fun _ => id, fun _ _ => rfl, fun _ => id⟩

theorem ActsOn.then {l : List Port} {s t u : State} (h : ActsOn l s t) (g : ActsOn l t u) : ActsOn l s u where
  lath n := (g.lath n).trans (h.lath n)
  alerts b hb := g.alerts b (h.alerts b hb)
  others q hq := (g.others q hq).trans (h.others q hq)
  safe q hq := g.safe q (h.safe q hq)

theorem ActsOn.mono {l m : List Port} {s t : State} (h : ActsOn l s t) (hm : ∀ q ∈ l, q ∈ m) : ActsOn m s t :=
  ⟨h.lath, h.alerts, fun q hq => h.others q fun hl => hq (hm q hl), h.safe⟩

theorem ActsOn.ite {l : List Port} {s a b : State} {c : Prop} [Decidable c] (h : ActsOn l s a) (g : ActsOn l s b) :
    ActsOn l s (if c then a else b) := by split <;> assumption

/-- Every path stands and every guarded entry reads as before. -/
theorem ActsOn.of_rd {l : List Port} {s t : State} (hp : t.paths = s.paths) (hr : ∀ k, Guarded k → t.rd k = s.rd k) : ActsOn l s t where
  lath n := hr _ (.inr ⟨n, rfl⟩)
  alerts b hb := by rwa [hr _ (.inl rfl)]
  others q _ := by simp only [State.path, hp]
  safe q hq := by simpa only [State.path, hp] using hq

/-- A change of parts that are neither the dictionary nor the paths. -/
theorem ActsOn.of_moves {l : List Port} {xs : List Part} {s t : State} (h : Moves xs s t) (hod : .od ∉ xs) (hp : .paths ∉ xs) :
    ActsOn l s t :=
  .of_rd (of_decide_eq_true (h.same .paths hp)).symm fun _ _ => by
    simp only [State.rd, of_decide_eq_true (h.same .od hod)]

section
variable {l : List Port} (s : State) (p : Port)

/-! Entries. -/

theorem keyP_not_guarded (e : Nat) (h : e < 0x4000) : ¬ Guarded (keyP p e) := by
  have := keyP_range p e h
  intro g
  have := g.range
  omega

theorem keyC_not_guarded (c : Cmp) (e : Nat) (h : e < 0x100) : ¬ Guarded (keyC c e) := by
  have := keyC_range c e h
  intro g
  have := g.range
  omega

theorem safeCause_not_guarded : ¬ Guarded (K.safeCause + p.val) := by
  intro g
  have := g.range
  unfold K.safeCause at this
  omega

theorem State.wr_actsOn (k : Nat) (v : Int) (h : ¬ Guarded k) : ActsOn l s (s.wr k v) :=
  .of_rd rfl fun j hj => by rw [State.rd_wr, if_neg fun e : j = k => h (e ▸ hj)]

theorem State.wP_actsOn (e : Nat) (v : Int) (h : e < 0x4000 := by decide) : ActsOn l s (s.wP p e v) :=
  s.wr_actsOn _ _ (keyP_not_guarded p e h)

theorem State.wC_actsOn (c : Cmp) (e : Nat) (v : Int) (h : e < 0x100 := by decide) : ActsOn l s (s.wC c e v) :=
  s.wr_actsOn _ _ (keyC_not_guarded c e h)

/-- An alert sets its bit of ALERT_SRC and clears none. -/
theorem State.alert_actsOn (b : Nat) : ActsOn l s (s.alert b) where
  lath n := by
    rw [State.lath, State.alert_eq, State.rd_wr, if_neg (lathState_ne_alertSrc n), State.lath]
  alerts i hi := by
    simp only [State.alert_eq, State.rd_wr, if_true, bit_withBit]
    split <;> trivial
  others _ _ := rfl
  safe _ := id

theorem State.alertPort_actsOn (b : Nat) : ActsOn l s (s.alertPort b p) :=
  (s.alert_actsOn b).then (State.wr_actsOn _ _ _ fun g => absurd g.range (by decide))

theorem State.applyKey_actsOn (k : Nat) (h : ¬ Guarded k) : ActsOn l s (s.applyKey k) :=
  .of_rd (by unfold State.applyKey; split <;> rfl) fun j hj => by rw [State.applyKey_rd, if_neg fun e : j = k => h (e ▸ hj)]

theorem State.applyKeys_actsOn (ks : List Nat) (h : ∀ k ∈ ks, ¬ Guarded k) : ActsOn l s (s.applyKeys ks) :=
  List.foldlRecOn ks State.applyKey (.refl _ s) fun t ht k hk => ht.then (t.applyKey_actsOn k (h k hk))

/-! Records. -/

theorem State.setPath_actsOn (x : PathHw) (h : (s.path p).safe = true → x.safe = true) : ActsOn [p] s (s.setPath p x) where
  lath _ := rfl
  alerts _ := id
  others q hq := by rw [State.setPath_path, if_neg (by simpa using hq)]
  safe q hq := by
    rw [State.setPath_path]
    split
    · next e => exact h (e ▸ hq)
    · exact hq

/-! Comparators: the modes and the thresholds of a port. -/

theorem State.setMode_actsOn (c : Cmp) (live : Bool) : ActsOn l s (s.setMode c live) := by
  have keys : ActsOn l s (s.applyKeys [keyC c Kc.mode, keyC c Kc.idleMode]) :=
    s.applyKeys_actsOn _ <|
    List.forall_mem_cons.mpr ⟨keyC_not_guarded c _ (by decide), List.forall_mem_singleton.mpr (keyC_not_guarded c _ (by decide))⟩
  have set (t : State) (x : CmpHw) : ActsOn l t (t.setCmp c x) := .of_moves (State.setCmp_moves ..) (by decide) (by decide)
  exact .ite keys (.ite (keys.then (set ..)) (keys.then (set ..)))

theorem State.idleCmps_actsOn : ActsOn l s (s.idleCmps p) :=
  .ite (.refl _ s) ((s.setMode_actsOn _ _).then (State.setMode_actsOn ..))

theorem State.setWinI_actsOn : ActsOn l s (s.setWinI p) := (s.wC_actsOn _ _ _).then (State.wC_actsOn ..)

/-- The arming for FR_Swap ends without a change of SAFE_OFF. -/
theorem State.frsEnded_actsOn : ActsOn [p] s (s.frsEnded p) := by
  have off : ActsOn [p] s (s.setPath p (s.path p).frsOff) := s.setPath_actsOn p _ id
  exact .ite off (off.then (State.idleCmps_actsOn ..))

/-! The path turned off and its fault recorded. -/

theorem State.setPg_actsOn (b : Bool) : ActsOn l s (s.setPg p b) :=
  .ite (.refl _ s) ((s.wP_actsOn p _ _).then (.of_moves (State.tileEvent_moves ..) (by decide) (by decide)))

/-- PP_STATE at a code other than OFF, which applies nothing. -/
theorem State.setPp_actsOn (st : Int) (h : st ≠ Pp.off) : ActsOn l s (s.setPp p st) := by
  unfold State.setPp
  rw [if_neg fun e => h e.1]
  exact s.wP_actsOn p _ _

theorem State.gateOff_actsOn (st : Int) (h : st ≠ Pp.off) : ActsOn [p] s (s.gateOff p st) := by
  unfold State.gateOff
  refine .then (.then ?_ (State.setPg_actsOn ..)) (State.setPp_actsOn _ _ _ h)
  have off := s.setPath_actsOn p
    { s.path p with
      gate := .off, dir := .none, turning := (s.path p).turning || decide ((s.path p).gate = .ramp ∨ (s.path p).gate = .on),
      trans := .none, slewing := false, upperWaits := false, falling := false, rcpPrev := false,
      ft := if (s.path p).ft = .running then .held else (s.path p).ft } id
  exact .ite (off.then (State.idleCmps_actsOn ..)) off

theorem State.recordFault_actsOn (code : Nat) (h : code < 0x1000) : ActsOn l s (s.recordFault p code) := by
  have count : Kp.ppFaultCount + (code - 1) < 0x4000 := by unfold Kp.ppFaultCount; omega
  have report (t : State) (n : TileNews) : ActsOn l t (t.report p n) := .of_moves (State.report_moves ..) (by decide) (by decide)
  exact (s.wP_actsOn p _ _).then <| (State.wP_actsOn ..).then <| (State.wP_actsOn _ _ _ _ count).then <| (report ..).then <|
    (report ..).then <| (report ..).then <| (State.alertPort_actsOn ..).then
      (.of_moves (State.flushClass_moves ..) (by decide) (by decide))

/-! The port dropped. -/

theorem State.endPpsLimit_actsOn : ActsOn l s (s.endPpsLimit p) := by
  have set (x : PortHw) : ActsOn l s (s.setPort p x) := .of_moves (State.setPort_moves ..) (by decide) (by decide)
  exact .ite (.ite ((set _).then (State.wC_actsOn ..)) (set _)) (.refl _ s)

theorem State.clearContract_actsOn : ActsOn l s (s.clearContract p) := by
  have target : ActsOn l s (s.implicitTarget p) :=
    .then (.of_moves (State.iow_moves ..) (by decide) (by decide)) (State.setWinI_actsOn ..)
  exact target.then <| (State.wP_actsOn ..).then <| (State.wP_actsOn ..).then <| (State.wP_actsOn ..).then <|
    (State.wP_actsOn ..).then (State.wP_actsOn ..)

theorem State.book_actsOn (w : Int) : ActsOn l s (s.book p w) := by
  have set : ActsOn l s (s.setBooking p w) :=
    (s.wP_actsOn p _ _).then (.ite (.refl _ _) (State.wP_actsOn ..))
  exact .ite (set.then (.of_moves (State.budgetFree_moves ..) (by decide) (by decide))) set

/-- The path is no longer requested: its fault is forgotten and an arming for FR_Swap ends. -/
theorem State.unfault_actsOn : ActsOn [p] s ((s.setPath p { s.path p with faulted := false }).frsEnded p) :=
  (s.setPath_actsOn p { s.path p with faulted := false } id).then (State.frsEnded_actsOn ..)

theorem State.dropPort_actsOn (st : Int) : ActsOn [p] s (s.dropPort p st) := by
  unfold State.dropPort
  dsimp only
  exact (s.endPpsLimit_actsOn p).then <| (ActsOn.of_moves (State.setPort_moves ..) (by decide) (by decide)).then <|
    (State.unfault_actsOn ..).then <| (ActsOn.of_moves (State.iow_moves ..) (by decide) (by decide)).then <|
    (State.wP_actsOn ..).then <| (State.wP_actsOn ..).then <| (State.wP_actsOn ..).then <| (State.wP_actsOn ..).then <|
    (State.wP_actsOn ..).then <| (State.wP_actsOn ..).then <| (State.wP_actsOn ..).then <| (State.clearContract_actsOn ..).then <|
    (State.wP_actsOn ..).then <| (ActsOn.of_moves (State.leaveWait_moves ..) (by decide) (by decide)).then (State.book_actsOn ..)

/-! SAFE_OFF (R139, R460). -/

/-- A port that enters SAFE_OFF passes through a state that is in SAFE_OFF already, before the port is dropped. -/
theorem State.safeOff_through (cause : Int) (h : (s.path p).safe = false) :
    ∃ u : State, (u.path p).safe = true ∧ ActsOn [p] s u ∧ ActsOn [p] u (s.safeOff p cause) := by
  let g := (s.recordFault p Flt.safeOff).gateOff p Pp.safeOff
  refine ⟨g.setPath p { (g.path p).suspendRetry with safe := true }, by simp, ?_, ?_⟩
  · exact (s.recordFault_actsOn p _ (by decide)).then <| (State.gateOff_actsOn _ p _ (by decide)).then
      (State.setPath_actsOn _ p _ fun _ => rfl)
  · unfold State.safeOff
    rw [if_neg (by simp [h])]
    exact (State.dropPort_actsOn _ p _).then <| (State.setPp_actsOn _ p _ (by decide)).then <|
      (ActsOn.of_moves (State.setPort_moves ..) (by decide) (by decide)).then <|
      (State.wr_actsOn _ _ _ (safeCause_not_guarded p)).then <|
      (State.wr_actsOn _ _ _ fun g => absurd g.range (by decide)).then
        (ActsOn.of_moves (State.flushClass_moves ..) (by decide) (by decide))

/-- A port already in SAFE_OFF keeps its state and its first cause. -/
theorem State.safeOff_of_safe (cause : Int) (h : (s.path p).safe = true) : s.safeOff p cause = s := if_pos h

theorem State.safeOff_actsOn (cause : Int) : ActsOn [p] s (s.safeOff p cause) := by
  cases h : (s.path p).safe with
  | true => rw [s.safeOff_of_safe p cause h]; exact .refl _ s
  | false =>
    obtain ⟨u, -, enter, rest⟩ := s.safeOff_through p cause h
    exact enter.then rest

theorem State.safeOff_safe (cause : Int) : ((s.safeOff p cause).path p).safe = true := by
  cases h : (s.path p).safe with
  | true => rwa [s.safeOff_of_safe p cause h]
  | false =>
    obtain ⟨u, safe, -, rest⟩ := s.safeOff_through p cause h
    exact rest.safe p safe

end

/-- SAFE_OFF of several ports. -/
theorem safeOffs_actsOn (l : List Port) (cause : Int) (s : State) : ActsOn l s (l.foldl (fun s p => s.safeOff p cause) s) := by
  induction l generalizing s with
  | nil => exact .refl _ s
  | cons p l ih =>
    exact ((s.safeOff_actsOn p cause).mono (by simp)).then ((ih _).mono fun _ => List.mem_cons_of_mem p)

theorem safeOffs_safe (l : List Port) (cause : Int) (s : State) (q : Port) (h : q ∈ l) :
    ((l.foldl (fun s p => s.safeOff p cause) s).path q).safe = true := by
  induction l generalizing s with
  | nil => cases h
  | cons p l ih =>
    rcases List.mem_cons.mp h with rfl | h
    · exact (safeOffs_actsOn l cause _).safe q (s.safeOff_safe q cause)
    · exact ih _ h

end Sys2Proof.Machine
end

section
/-! SUPPORT. Lath links and clock references: what their commands do to LATH_STATE, to CLK_STATUS and to the units of a tile. -/

namespace Sys2Proof.Machine

/-! Frames of the dictionary, built write by write. -/

section
variable {ks : List Nat} {s t u : State}

theorem WroteOnly.refl (ks : List Nat) (s : State) : WroteOnly ks s s := fun _ _ => rfl

theorem WroteOnly.wr (h : WroteOnly ks s t) {k : Nat} (hk : k ∈ ks) (v : Int) : WroteOnly ks s (t.wr k v) := fun j hj => by
  rw [State.rd_wr, if_neg fun e : j = k => hj (e ▸ hk), h j hj]

/-- A further change that leaves the dictionary. -/
theorem WroteOnly.of_od (h : WroteOnly ks s t) (hu : u.od = t.od) : WroteOnly ks s u := fun j hj => by
  rw [← h j hj, State.rd, State.rd, hu]

end

theorem State.rd_flag (s : State) (k i j : Nat) (b : Bool) :
    (s.flag k i b).rd j = if j = k then withBit (s.rd k) i b else s.rd j := by
  rw [State.flag_eq, State.rd_wr]

theorem State.bit_flag (s : State) (k i j : Nat) (b : Bool) :
    bit ((s.flag k i b).rd k) j = if j = i then b else bit (s.rd k) j := by
  rw [State.rd_flag, if_pos rfl, bit_withBit]

/-! LATH_STATE. -/

section
variable (s : State) (n : Tile) (v : Int)

/-- A change of LATH_STATE writes the entry of its link and ALERT_SRC. -/
theorem State.setLath_wroteOnly {ks : List Nat} {r : State} (h : WroteOnly ks r s) (hl : K.lathState + n.val ∈ ks)
    (ha : K.alertSrc ∈ ks) : WroteOnly ks r (s.setLath n v) := (h.wr hl _).wr ha _

theorem State.setLath_rd (k : Nat) (hl : k ≠ K.lathState + n.val) (ha : k ≠ K.alertSrc) : (s.setLath n v).rd k = s.rd k := by
  rw [State.setLath, State.alert_eq, State.rd_wr, if_neg ha, State.rd_wr, if_neg hl]

theorem State.setLath_lath (m : Tile) : (s.setLath n v).lath m = if m = n then v else s.lath m := by
  have link : K.lathState + m.val = K.lathState + n.val ↔ m = n := by rw [Fin.ext_iff]; omega
  simp only [State.setLath, State.lath, State.alert_eq, State.rd_wr, if_neg (lathState_ne_alertSrc m), link]

theorem State.setLath_alert : bit ((s.setLath n v).rd K.alertSrc) 8 = true := by
  rw [State.setLath, State.alert, State.bit_flag, if_pos rfl]

end

/-! A result slot that stood in a failed block (R20, R184). -/

section
variable (s : State) (c : Conv)

/-- From `s` to `t` converter `c` may go on, but what it withholds, the dictionary, the time and every other converter stand. -/
structure ConvStep (c : Conv) (s t : State) : Prop where
  withheld : (t.conv c).withheld = (s.conv c).withheld
  others : ∀ d, d ≠ c → t.conv d = s.conv d
  od : t.od = s.od
  tb : t.tb = s.tb

theorem ConvStep.refl : ConvStep c s s := ⟨rfl, fun _ _ => rfl, rfl, rfl⟩

theorem ConvStep.then {c : Conv} {s t u : State} (h : ConvStep c s t) (g : ConvStep c t u) : ConvStep c s u :=
  ⟨g.withheld.trans h.withheld, fun d hd => (g.others d hd).trans (h.others d hd), g.od.trans h.od, g.tb.trans h.tb⟩

theorem State.setConv_convStep (x : ConvHw) (h : x.withheld = (s.conv c).withheld) : ConvStep c s (s.setConv c x) where
  withheld := by rw [State.setConv_conv, if_pos rfl, h]
  others d hd := by rw [State.setConv_conv, if_neg hd]
  od := rfl
  tb := rfl

theorem State.sampleAs_convStep (x : Int) (ch gain filt : Nat) (settles inj queue starts : Bool) :
    ConvStep c s (s.sampleAs c x ch gain filt settles inj queue starts).1 := by
  have set := s.setConv_convStep c { s.conv c with last := some { ch := ch, gain := gain, filt := filt } } rfl
  exact ⟨set.withheld, set.others, set.od, set.tb⟩

/-- A conversion withholds nothing by itself. -/
theorem State.convert_convStep (x : Int) : ConvStep c s (s.convert c x).1 := by
  unfold State.convert
  dsimp only
  split
  · exact s.setConv_convStep c _ rfl
  split
  · refine .then ?_ (State.sampleAs_convStep ..)
    split <;> exact s.setConv_convStep c _ rfl
  split
  · refine .then ?_ (State.sampleAs_convStep ..)
    exact s.setConv_convStep c _ rfl
  · exact .refl s c

/-- The mirror is re-based without a marker where nothing was withheld. -/
theorem State.rebase_convStep (h : (s.conv c).withheld = none) : ConvStep c s (s.rebase c) := by
  unfold State.rebase
  simp only [h]
  exact s.setConv_convStep c _ h.symm

theorem mirrorStep_withheld (prev : Option LastConv) : (mirrorStep s c prev).2.2.withheld = (s.conv c).withheld := by
  unfold mirrorStep
  dsimp only
  split <;> rfl

/-- The first conversion that a converter withholds is stamped, and counted in MIRROR_LOST. -/
theorem State.withhold_first (h : (s.conv c).withheld = none) :
    s.withhold c = (s.setConv c { s.conv c with withheld := some (1, s.stamp) }).count (keyV c Kv.mirrorLost) := by
  unfold State.withhold
  dsimp only
  rw [h]

theorem State.withhold_conv (h : (s.conv c).withheld = none) (d : Conv) :
    (s.withhold c).conv d = if d = c then { s.conv c with withheld := some (1, s.stamp) } else s.conv d := by
  rw [s.withhold_first c h]
  exact State.setConv_conv ..

theorem State.withhold_rd (k : Nat) :
    (s.withhold c).rd k = if k = keyV c Kv.mirrorLost then satInc (s.rV c Kv.mirrorLost) u32Max else s.rd k := by
  unfold State.withhold
  rw [State.count_eq, State.rd_wr]
  rfl

/-- A lost slot steps the converter and its mirror, and then begins to withhold. -/
theorem State.slotLost_through (h : (s.conv c).withheld = none) :
    ∃ u, ConvStep c s u ∧ (s.slotLost c).convs = (u.withhold c).convs ∧ (s.slotLost c).od = (u.withhold c).od := by
  have convert := s.convert_convStep c 0
  have rebased : ConvStep c s (if (s.convert c 0).2.starts then (s.convert c 0).1.rebase c else (s.convert c 0).1) := by
    split
    · exact convert.then (State.rebase_convStep _ c (convert.withheld.trans h))
    · exact convert
  have mirrored := rebased.then (State.setConv_convStep _ c _ (mirrorStep_withheld _ c (s.convert c 0).2.prev))
  refine ⟨_, mirrored, ?_, ?_⟩ <;> (unfold State.slotLost; dsimp only; split <;> rfl)

theorem State.slotLost_conv (h : (s.conv c).withheld = none) : ((s.slotLost c).conv c).withheld = some (1, s.tb - 30) := by
  obtain ⟨u, step, convs, -⟩ := s.slotLost_through c h
  rw [State.conv, convs, ← State.conv, u.withhold_conv c (step.withheld.trans h), if_pos rfl, State.stamp, step.tb]

theorem State.slotLost_others (h : (s.conv c).withheld = none) (d : Conv) (hd : d ≠ c) : (s.slotLost c).conv d = s.conv d := by
  obtain ⟨u, step, convs, -⟩ := s.slotLost_through c h
  rw [State.conv, convs, ← State.conv, u.withhold_conv c (step.withheld.trans h), if_neg hd, step.others d hd]

theorem State.slotLost_rd (h : (s.conv c).withheld = none) (k : Nat) :
    (s.slotLost c).rd k = if k = keyV c Kv.mirrorLost then satInc (s.rV c Kv.mirrorLost) u32Max else s.rd k := by
  obtain ⟨u, step, -, od⟩ := s.slotLost_through c h
  have entries (j : Nat) : u.rd j = s.rd j := by rw [State.rd, step.od, State.rd]
  rw [State.rd, od, ← State.rd, u.withhold_rd, State.rV_eq, State.rV_eq, entries, entries]

end

/-! The ports of a tile. -/

theorem mem_tilePorts (n : Tile) (p : Port) : p ∈ tilePorts n ↔ p.val / 8 = n.val := by
  simp [tilePorts, allPorts]

/-- A tile declared failed (R22): its link reads 3 with the alert, its ports are in SAFE_OFF, and no other path changes. -/
theorem State.tileFails_spec (s : State) (n : Tile) :
    (s.tileFails n).lath n = 3 ∧ (∀ p : Port, p.val / 8 = n.val → ((s.tileFails n).path p).safe = true) ∧
      (∀ p : Port, p.val / 8 ≠ n.val → (s.tileFails n).path p = s.path p) ∧ bit ((s.tileFails n).rd K.alertSrc) 8 = true := by
  let r := (s.setTile n { s.tile n with trst := false, reqs := [], news := [], shadow := [] }).setLath n 3
  let u := (tilePorts n).foldl (fun s p => s.safeOff p 5) r
  have off : ActsOn (tilePorts n) r u := safeOffs_actsOn ..
  have rest : ActsOn (tilePorts n) u (s.tileFails n) :=
    .then (.of_moves (State.flushClass_moves ..) (by decide) (by decide)) (.of_moves (State.refreshUncAll_moves ..) (by decide) (by decide))
  refine ⟨?_, fun p hp => ?_, fun p hp => ?_, ?_⟩
  · rw [(off.then rest).lath, State.setLath_lath, if_pos rfl]
  · exact rest.safe p (safeOffs_safe _ 5 r p ((mem_tilePorts n p).mpr hp))
  · exact (off.then rest).others p fun h => hp ((mem_tilePorts n p).mp h)
  · exact (off.then rest).alerts 8 (State.setLath_alert ..)

theorem State.setPort_self (s : State) (p : Port) : s.setPort p (s.port p) = s := by
  simp [State.setPort, State.port, tset, tget]

/-- Nothing is released on a port that is neither cut nor limited. -/
theorem State.tileRelease_of_unshed (s : State) (p : Port) (hc : (s.path p).cut = false) (hs : (s.path p).strip = none) :
    s.tileRelease p = s := by
  simp [State.tileRelease, hc, hs]

/-- No message was held, so none is read. -/
theorem State.replayHeld_of_nil (s : State) (p : Port) (float : Bool) (h : (s.port p).held = []) : s.replayHeld p float = s := by
  have same : { s.port p with held := [] } = s.port p := by rw [← h]
  rw [State.replayHeld, h, same, s.setPort_self]
  rfl

/-- Ports for which nothing was held, cut or limited stand as they were when the link is up again. -/
theorem resumePorts_of_idle (l : List Port) (s : State)
    (h : ∀ p ∈ l, (s.port p).held = [] ∧ (s.path p).cut = false ∧ (s.path p).strip = none) :
    l.foldl (fun s p => (s.tileRelease p).replayHeld p false) s = s := by
  refine List.foldlRecOn (motive := (· = s)) l _ rfl fun u hu p hp => ?_
  obtain ⟨held, cut, strip⟩ := h p hp
  rw [hu, s.tileRelease_of_unshed p cut strip, s.replayHeld_of_nil p false held]

/-- Nothing waited for the link in either direction. -/
theorem State.linkResumes_of_idle (s : State) (n : Tile) (hn : (s.tile n).news = []) (hr : (s.tile n).reqs = []) :
    s.linkResumes n = s.setTile n { s.tile n with reqs := [], news := [], shadow := [] } := by
  simp only [State.linkResumes, hn, hr, List.foldl_nil]

/-! The port shadow, which no count of the links moves. -/

section
variable (s : State) (k : Nat) (v : Int)

theorem State.wr_rP_above (h : 0x300000 ≤ k) (p : Port) (e : Nat) (he : e < 0x4000) : (s.wr k v).rP p e = s.rP p e := by
  have := keyP_range p e he
  rw [State.rP_eq, State.rd_wr, if_neg (by omega), State.rP_eq]

theorem State.wr_ilim (h : 0x300000 ≤ k) (p : Port) : (s.wr k v).ilim p = s.ilim p := by
  simp (disch := decide) only [State.ilim, State.derated, State.contractIlim, State.icon, State.ppIcon, s.wr_rP_above k v h,
    State.wr_path, State.wr_ior]
  rfl

theorem State.wr_pulldown (h : ∀ n : Tile, K.lathState + n.val ≠ k) (p : Port) : (s.wr k v).pulldown p = s.pulldown p := by
  have lath : (s.wr k v).lath (tileOf p) = s.lath (tileOf p) := by rw [State.lath, State.rd_wr, if_neg (h _), State.lath]
  simp only [State.pulldown, State.tileFailed, lath, State.wr_path, State.wr_cmp]

variable (port : 0x300000 ≤ k) (link : ∀ n : Tile, K.lathState + n.val ≠ k)
include port link

theorem tileWord_wr (b a : Nat) : tileWord (s.wr k v) b a = tileWord s b a := by
  have stat (p : Port) : ppStat (s.wr k v) p = ppStat s p := by
    simp (disch := decide) only [ppStat, limitActive, discharges, s.wr_pulldown k v link, s.wr_rP_above k v port, State.wr_path,
      State.wr_cmp, State.wr_tile, State.wr_sec]
    rfl
  have limits (p : Port) : ppLimits (s.wr k v) p = ppLimits s p := by
    simp (disch := decide) only [ppLimits, s.wr_ilim k v port, s.wr_rP_above k v port, State.wr_path, State.wr_tile]
  have temp (p : Port) : ppTemp (s.wr k v) p = ppTemp s p := by
    simp (disch := decide) only [ppTemp, s.wr_rP_above k v port]
  simp (disch := decide) only [tileWord, mirror, cmpChk, stat, limits, temp, s.wr_rP_above k v port, State.wr_path, State.wr_cmp]

/-- A write of an entry outside the ports and LATH_STATE leaves the port shadow. -/
theorem State.shadowOf_wr (n : Tile) : (s.wr k v).shadowOf n = s.shadowOf n := by
  simp only [State.shadowOf, tileWord_wr s k v port link]

end

/-! CLK_STATUS. -/

/-- From `s` to `u` nothing but CLK_STATUS has changed. -/
structure ClkStatusOnly (s u : State) : Prop where
  wrote : WroteOnly [K.clkStatus] s u
  moves : Moves [.od] s u

theorem ClkStatusOnly.refl (s : State) : ClkStatusOnly s s := ⟨.refl _ s, .refl _ s⟩

theorem ClkStatusOnly.wr {s u : State} (h : ClkStatusOnly s u) (v : Int) : ClkStatusOnly s (u.wr K.clkStatus v) :=
  ⟨h.wrote.wr (List.mem_singleton_self _) v, (State.wr_moves ..).after (by decide) h.moves⟩

/-- The PLL or the crystal follows. -/
theorem ClkStatusOnly.clk {s u : State} (h : ClkStatusOnly s u) (c : ClkHw) :
    WroteOnly [K.clkStatus] s (settle { u with clk := c }) ∧ Only [.od, .clk, .pins] s (settle { u with clk := c }) :=
  ⟨h.wrote.of_od rfl, ((settle_moves _).after (by decide) <| (Moves.upd_clk u c).after (by decide) <| h.moves.mono (by decide)).only⟩

/-- The PLL follows, and records made from now on carry the bit (R30). -/
theorem ClkStatusOnly.clk_recs {s u : State} (h : ClkStatusOnly s u) (c : ClkHw) (r : RecHw) :
    WroteOnly [K.clkStatus] s (settle { u with clk := c, recs := r }) ∧
      Only [.od, .clk, .recs, .pins] s (settle { u with clk := c, recs := r }) :=
  ⟨h.wrote.of_od rfl,
    ((settle_moves _).after (by decide) <| (Moves.upd_clk_recs u c r).after (by decide) <| h.moves.mono (by decide)).only⟩

end Sys2Proof.Machine
end

section
/-! SUPPORT. The commands of the Lath links and of the clock references, case by case, and what they settle (R20, R22, R29 to R31, R68,
R461). A command whose unit is not in its state changes nothing (log entry 1): the guard of its meaning fails. -/

namespace Sys2Proof.Machine

section
variable (n : Tile) (s : State)

/-! The links. -/

theorem lathErr_ne_mirrorLost (c : Conv) : K.lathErr + n.val ≠ keyV c Kv.mirrorLost := by
  have := keyV_range c Kv.mirrorLost (by decide)
  unfold K.lathErr
  omega

/-- A failed block with a result of the even converter (R20, R184): counted, and the converter begins to withhold. -/
theorem lathBlockFail_even (hl : s.lath n = 0) (hw : (s.conv (tileConv n false)).withheld = none) :
    ∃ t, exec (.lathBlockFail n true false) s = .next t ∧
      t.rd (K.lathErr + n.val) = satInc (s.rd (K.lathErr + n.val)) u32Max ∧
      (t.conv (tileConv n false)).withheld = some (1, s.tb - 30) ∧
      t.rV (tileConv n false) Kv.mirrorLost = satInc (s.rV (tileConv n false) Kv.mirrorLost) u32Max ∧
      (∀ c, c ≠ tileConv n false → t.conv c = s.conv c) ∧ Only [.od, .io, .fresh, .convs, .pins] s t := by
  have other := lathErr_ne_mirrorLost n (tileConv n false)
  let u := s.count (K.lathErr + n.val)
  have counted (k : Nat) : u.rd k = if k = K.lathErr + n.val then satInc (s.rd (K.lathErr + n.val)) u32Max else s.rd k := State.rd_wr ..
  refine ⟨settle (u.slotLost (tileConv n false)), congrArg done (if_neg (not_not_intro hl)), ?_, u.slotLost_conv _ hw, ?_,
    u.slotLost_others _ hw, ?_⟩
  · rw [settle_rd_of, u.slotLost_rd _ hw, if_neg other, counted, if_pos rfl]
  · rw [State.rV_eq, settle_rd_of, u.slotLost_rd _ hw, if_pos rfl, State.rV_eq, counted, if_neg other.symm, State.rV_eq]
  · exact ((settle_moves _).after (by decide) <| (State.slotLost_moves u _).after (by decide) <|
      (State.count_moves s _).mono (by decide)).only

/-- A lock loss (R22): link hold with its count and the alert, and the port shadow as it stood. -/
theorem lathLockLoss_up (hl : s.lath n = 0) (ha : s.asleep 2 = false) :
    ∃ t, exec (.lathLockLoss n) s = .next t ∧ t.lath n = 2 ∧
      t.rd (K.lathHolds + n.val) = satInc (s.rd (K.lathHolds + n.val)) u16Max ∧ bit (t.rd K.alertSrc) 8 = true ∧
      t.tile n = { s.tile n with shadow := s.shadowOf n } ∧ (∀ m, m ≠ n → t.lath m = s.lath m ∧ t.tile m = s.tile m) ∧
      WroteOnly [K.lathState + n.val, K.lathHolds + n.val, K.alertSrc] s t ∧ Only [.od, .tiles, .mets, .pins] s t := by
  let r := s.wr (K.lathHolds + n.val) (satInc (s.rd (K.lathHolds + n.val)) u16Max)
  let u := r.setTile n { r.tile n with shadow := r.shadowOf n }
  let v := u.setLath n 2
  let w := (v.refreshUnc (tileConv n false)).refreshUnc (tileConv n true)
  have meters : Moves [.mets] v w := (State.refreshUnc_moves ..).after (by decide) (State.refreshUnc_moves ..)
  have entries (k : Nat) : (settle w).rd k = v.rd k := by
    rw [settle_rd_of, State.rd, ← of_decide_eq_true (meters.same .od (by decide)), State.rd]
  have tiles (m : Tile) : (settle w).tile m = u.tile m := by
    rw [settle_tile_of, State.tile, ← of_decide_eq_true (meters.same .tiles (by decide)), State.tile]
    rfl
  have link (m : Tile) : K.lathState + m.val ≠ K.lathHolds + n.val := by unfold K.lathState K.lathHolds; omega
  have wrote : WroteOnly [K.lathState + n.val, K.lathHolds + n.val, K.alertSrc] s v :=
    State.setLath_wroteOnly u n 2 (((WroteOnly.refl _ s).wr (by simp) _).of_od rfl) (by simp) (by simp)
  refine ⟨settle w, congrArg done (if_neg (by simp [hl, ha])), ?_, ?_, ?_, ?_, fun m hm => ⟨?_, ?_⟩, fun k hk => ?_, ?_⟩
  · rw [State.lath, entries, ← State.lath, State.setLath_lath, if_pos rfl]
  · have alert : K.lathHolds + n.val ≠ K.alertSrc := by unfold K.lathHolds K.alertSrc; omega
    rw [entries, u.setLath_rd n 2 _ (link n).symm alert]
    exact (State.rd_wr ..).trans (if_pos rfl)
  · rw [entries]; exact State.setLath_alert ..
  · rw [tiles, State.setTile_tile, if_pos rfl, State.shadowOf_wr s _ _ (by unfold K.lathHolds; omega) link]
    rfl
  · rw [State.lath, entries, ← State.lath, State.setLath_lath, if_neg hm]
    exact (State.rd_wr ..).trans (if_neg (link m))
  · rw [tiles, State.setTile_tile, if_neg hm]
    rfl
  · rw [entries]; exact wrote k hk
  · exact ((settle_moves _).after (by decide) <| meters.after (by decide) <| (State.setLath_moves ..).after (by decide) <|
      (State.setTile_moves ..).after (by decide) <| (State.wr_moves ..).mono (by decide)).only

/-- A hold that expires (R22): the tile is declared failed. -/
theorem linkHoldExpiry_held (hl : s.lath n = 2) (hd : s.power.deg = none) :
    ∃ t, exec (.linkHoldExpiry n) s = .next t ∧ t.lath n = 3 ∧ (∀ p : Port, p.val / 8 = n.val → (t.path p).safe = true) ∧
      (∀ p : Port, p.val / 8 ≠ n.val → t.path p = s.path p) ∧ bit (t.rd K.alertSrc) 8 = true := by
  have expires : exec (.linkHoldExpiry n) s = .next (settle (s.tileFails n)) :=
    congrArg done ((if_neg (by simp [hd])).trans (if_pos (.inr hl)))
  have spec := s.tileFails_spec n
  generalize s.tileFails n = u at expires spec
  exact ⟨settle u, expires, spec⟩

/-- A RESET_TILE whose link does not come up ends failed (R461). -/
theorem linkHoldExpiry_reset (hd : s.power.deg = some (.resetTile n)) :
    ∃ t, exec (.linkHoldExpiry n) s = .next t ∧ t.lath n = 3 ∧ t.rd K.degResult = 3 ∧ t.power = { s.power with deg := none } ∧
      t.ports = s.ports ∧ t.paths = s.paths := by
  let u := (s.setTile n { s.tile n with trst := false }).setLath n 3
  have result : K.lathState + n.val ≠ K.degResult := by unfold K.lathState K.degResult; omega
  refine ⟨settle ({ u with power := { s.power with deg := none } }.wr K.degResult 3), congrArg done (if_pos hd), ?_, ?_, rfl, rfl, rfl⟩
  · rw [State.lath, settle_rd_of, State.rd_wr, if_neg result]
    exact (State.setLath_lath _ n 3 n).trans (if_pos rfl)
  · rw [settle_rd_of, State.rd_wr, if_pos rfl]

/-- What a link that comes up leaves where nothing waited for it (R22). -/
def State.linkBack (s : State) (n : Tile) : State :=
  let u := (s.setTile n { s.tile n with trst := false, feOk := true, filled := true }).setLath n 0
  u.setTile n { u.tile n with reqs := [], news := [], shadow := [] }

theorem lathLinkUp_idle (hl : s.lath n = 2) (ht : (s.tile n).trst = false) (hf : (s.tile n).feOk = true) (hd : s.power.deg = none)
    (hn : (s.tile n).news = []) (hr : (s.tile n).reqs = [])
    (hp : ∀ p : Port, p.val / 8 = n.val → (s.port p).held = [] ∧ (s.path p).cut = false ∧ (s.path p).strip = none) :
    exec (.lathLinkUp n) s = .next (settle (s.linkBack n)) := by
  let u := (s.setTile n { s.tile n with trst := false, feOk := true, filled := true }).setLath n 0
  have tile : u.tile n = { s.tile n with trst := false, feOk := true, filled := true } :=
    (State.setTile_tile ..).trans (if_pos rfl)
  have resumes : u.linkResumes n = s.linkBack n := u.linkResumes_of_idle n (by rw [tile, hn]) (by rw [tile, hr])
  have ports : (tilePorts n).foldl (fun s p => (s.tileRelease p).replayHeld p false) (s.linkBack n) = s.linkBack n :=
    resumePorts_of_idle _ _ fun p h => hp p ((mem_tilePorts n p).mp h)
  have deg : (s.linkBack n).power.deg ≠ some (.resetTile n) := by
    show s.power.deg ≠ _
    simp [hd]
  rw [show exec (.lathLinkUp n) s = execLathLinkUp n s from rfl, execLathLinkUp, ← done_next]
  simp only [ht, hf, hl, Bool.false_eq_true, Bool.not_true, false_and, if_false]
  rw [if_neg (by decide), resumes, ports, if_neg deg]

/-- The link is up again with the tile and the ports as they were (R22, R68). -/
theorem linkBack_spec (hn : (s.tile n).news = []) (hr : (s.tile n).reqs = []) :
    (s.linkBack n).lath n = 0 ∧
      (s.linkBack n).tile n = { s.tile n with trst := false, feOk := true, filled := true, shadow := [] } ∧
      bit ((s.linkBack n).rd K.alertSrc) 8 = true ∧ WroteOnly [K.lathState + n.val, K.alertSrc] s (s.linkBack n) ∧
      Moves [.od, .tiles] s (s.linkBack n) := by
  let r := s.setTile n { s.tile n with trst := false, feOk := true, filled := true }
  refine ⟨?_, ?_, r.setLath_alert n 0, ?_, ?_⟩
  · exact (r.setLath_lath n 0 n).trans (if_pos rfl)
  · have tile : (r.setLath n 0).tile n = { s.tile n with trst := false, feOk := true, filled := true } :=
      (State.setTile_tile ..).trans (if_pos rfl)
    rw [State.linkBack, State.setTile_tile, if_pos rfl, tile]
    simp only [hn, hr]
  · exact (r.setLath_wroteOnly n 0 ((WroteOnly.refl _ s).of_od rfl) (by simp) (by simp)).of_od rfl
  · exact (State.setTile_moves ..).after (by decide) <| (State.setLath_moves ..).after (by decide) <|
      (State.setTile_moves ..).mono (by decide)

/-! The reference (R29, R30) and the crystal (R31). -/

/-- A reference is found: CLK_STATUS[5] tells its frequency, and the PLL locks to it. -/
theorem refclkMeasure_found (r : RefFound) (b : Bool)
    (h : exec (.refclkMeasure r) s = done { s.flag K.clkStatus 5 b with clk := { s.clk with pll := .refclk } }) :
    ∃ t, exec (.refclkMeasure r) s = .next t ∧ bit (t.rd K.clkStatus) 5 = b ∧ t.clk = { s.clk with pll := .refclk } ∧
      WroteOnly [K.clkStatus] s t ∧ Only [.od, .clk, .pins] s t :=
  ⟨_, h, (s.bit_flag K.clkStatus 5 5 b).trans (if_pos rfl), rfl, ((ClkStatusOnly.refl s).wr _).clk _⟩

theorem refclkMeasure_none :
    ∃ t, exec (.refclkMeasure .none) s = .next t ∧ bit (t.rd K.clkStatus) 0 = true ∧ bit (t.rd K.clkStatus) 3 = true ∧
      t.clk = { s.clk with pll := .oscillator } ∧ WroteOnly [K.clkStatus] s t ∧ Only [.od, .clk, .recs, .pins] s t := by
  let u := (s.flag K.clkStatus 0 true).flag K.clkStatus 3 true
  have set (i : Nat) (h : i = 0 ∨ i = 3) : bit (u.rd K.clkStatus) i = true := by
    rcases h with rfl | rfl <;> simp [u]
  exact ⟨_, rfl, set 0 (by decide), set 3 (by decide), rfl, (((ClkStatusOnly.refl s).wr _).wr _).clk_recs _ _⟩

theorem refclkLoss_locked (h : s.clk.pll = .refclk) :
    ∃ t, exec .refclkLoss s = .next t ∧ bit (t.rd K.clkStatus) 0 = true ∧ bit (t.rd K.clkStatus) 1 = true ∧
      bit (t.rd K.clkStatus) 2 = true ∧ t.clk = { s.clk with pll := .holdover } ∧ WroteOnly [K.clkStatus] s t ∧
      Only [.od, .clk, .recs, .pins] s t := by
  let u := ((s.flag K.clkStatus 0 true).flag K.clkStatus 1 true).flag K.clkStatus 2 true
  have set (i : Nat) (h : i = 0 ∨ i = 1 ∨ i = 2) : bit (u.rd K.clkStatus) i = true := by
    rcases h with rfl | rfl | rfl <;> simp [u]
  exact ⟨_, congrArg done (if_pos h), set 0 (by decide), set 1 (by decide), set 2 (by decide), rfl,
    ((((ClkStatusOnly.refl s).wr _).wr _).wr _).clk_recs _ _⟩

theorem holdoverExpiry_holdover (h : s.clk.pll = .holdover) :
    ∃ t, exec .holdoverExpiry s = .next t ∧ bit (t.rd K.clkStatus) 3 = true ∧ t.clk = { s.clk with pll := .oscillator } ∧
      WroteOnly [K.clkStatus] s t ∧ Only [.od, .clk, .pins] s t :=
  ⟨_, congrArg done (if_pos h), (s.bit_flag K.clkStatus 3 3 true).trans (if_pos rfl), rfl, ((ClkStatusOnly.refl s).wr _).clk _⟩

/-- The reference is back: CLK_STATUS[0] to [3] clear, the bit of the crystal stands. -/
theorem refclkReturn_holdover (h : s.clk.pll = .holdover) :
    ∃ t, exec .refclkReturn s = .next t ∧ (∀ i : Fin 4, bit (t.rd K.clkStatus) i = false) ∧
      bit (t.rd K.clkStatus) 4 = bit (s.rd K.clkStatus) 4 ∧ t.clk = { s.clk with pll := .refclk } ∧
      WroteOnly [K.clkStatus] s t ∧ Only [.od, .clk, .pins] s t := by
  let u := s.wr K.clkStatus (clearBits (s.rd K.clkStatus) 0xF)
  have cleared (i : Nat) : bit (u.rd K.clkStatus) i = (bit (s.rd K.clkStatus) i && !Nat.testBit 0xF i) := by
    rw [State.rd_wr, if_pos rfl, bit_clearBits]
  have low (i : Fin 4) : Nat.testBit 0xF i.val = true := by decide +revert
  refine ⟨_, congrArg done (if_pos (.inl h)), fun i => ?_, ?_, rfl, ((ClkStatusOnly.refl s).wr _).clk _⟩
  · exact (cleared i).trans (by rw [low, Bool.not_true, Bool.and_false])
  · exact (cleared 4).trans (Bool.and_true _)

theorem aonCrystalStop_running (h : s.clk.aonCrystal = true) :
    ∃ t, exec .aonCrystalStop s = .next t ∧ bit (t.rd K.clkStatus) 4 = true ∧ t.clk = { s.clk with aonCrystal := false } ∧
      WroteOnly [K.clkStatus] s t ∧ Only [.od, .clk, .pins] s t :=
  ⟨_, congrArg done (if_pos h), (s.bit_flag K.clkStatus 4 4 true).trans (if_pos rfl), rfl, ((ClkStatusOnly.refl s).wr _).clk _⟩

end

/-- Settles O56: the commands in their states by the lemmas above, each outside its state by the guard of its meaning. -/
theorem clocksAndLinks : Obligations.ClocksAndLinks := by
  unfold Obligations.ClocksAndLinks
  refine ⟨?blockCounted, ?blockWithheld, ?blockDown, lathLockLoss_up, ?lossAgain, linkHoldExpiry_held,
    fun n s _ hd => linkHoldExpiry_reset n s hd, ?expiryUp, ?linkUp, ?linkUpAgain, ?ref10, ?ref25, ?refNone, refclkLoss_locked,
    ?lossUnlocked, holdoverExpiry_holdover, ?expiryLocked, fun s h _ => refclkReturn_holdover s h, ?returnLocked,
    aonCrystalStop_running, ?stopAgain⟩
  case blockCounted =>
    rintro n a b s hl rfl rfl
    exact congrArg done (if_neg (not_not_intro hl))
  case blockWithheld =>
    rintro n a b s hl rfl rfl hw
    exact lathBlockFail_even n s hl hw
  case blockDown => exact fun n a b s hl => congrArg done (if_pos hl)
  case lossAgain => exact fun n s hl => congrArg done (if_pos (.inl (by simp [hl])))
  case expiryUp =>
    intro n s hl hd
    exact congrArg done ((if_neg (by simp [hd])).trans (if_neg (by simp [hl])))
  case linkUp =>
    intro n s hl ht hf hd hn hr hp
    obtain ⟨up, tile, alert, wrote, moves⟩ := linkBack_spec n s hn hr
    exact ⟨_, lathLinkUp_idle n s hl ht hf hd hn hr hp, up, tile, fun _ => rfl, alert, wrote,
      ((settle_moves _).after (by decide) <| moves.mono (by decide)).only⟩
  case linkUpAgain => exact fun n s hl => congrArg done (if_pos (.inl hl))
  case ref10 => rintro r s rfl; exact refclkMeasure_found s .ref10 false rfl
  case ref25 => rintro r s rfl; exact refclkMeasure_found s .ref25 true rfl
  case refNone => rintro r s rfl; exact refclkMeasure_none s
  case lossUnlocked => exact fun s h => congrArg done (if_neg (by simp [h]))
  case expiryLocked => exact fun s h => congrArg done (if_neg (by simp [h]))
  case returnLocked => exact fun s h => congrArg done (if_neg (by simp [h]))
  case stopAgain => exact fun s h => congrArg done (if_neg (by simp [h]))

end Sys2Proof.Machine
end

section
/-! SUPPORT. The bookings of the ledger (R76, R77, R80, R81): what booking, granting and answering leave in the entries, and the
sum of the bookings. -/

namespace Sys2Proof.Machine

/-! Values that stand where a part of the state does. -/

section
variable {xs : List Part} {s t : State}

theorem Moves.rd_eq (h : Moves xs s t) (hx : Part.od ∉ xs) (k : Nat) : t.rd k = s.rd k := by
  rw [State.rd, ← of_decide_eq_true (h.same .od hx), State.rd]

theorem Moves.ledger_eq (h : Moves xs s t) (hx : Part.ledger ∉ xs) : t.ledger = s.ledger :=
  (of_decide_eq_true (h.same .ledger hx)).symm

end

/-- Entries outside the applied group stand. -/
theorem State.applyKeys_rd (s : State) (ks : List Nat) (k : Nat) (h : k ∉ ks) : (s.applyKeys ks).rd k = s.rd k :=
  List.foldlRecOn (motive := fun t : State => t.rd k = s.rd k) ks State.applyKey rfl fun t ht j hj => by
    rw [State.applyKey_rd, if_neg fun e : k = j => h (e ▸ hj), ht]

/-! Keys of the ledger. -/

theorem budget_ne_keyP (p : Port) (e : Nat) (he : e < 0x4000) : K.budget ≠ keyP p e := by
  have := keyP_range p e he
  unfold K.budget
  omega

/-- The booking of port `q` is none of another port's entries. -/
theorem booking_ne_keyP {p q : Port} (h : q ≠ p) (e : Nat) (he : e < 0x4000) : keyP q Kp.booking ≠ keyP p e :=
  fun k => h ((keyP_inj q p Kp.booking e (by decide) he).mp k).1

theorem booking_ne_ledgerState (p q : Port) : keyP q Kp.booking ≠ keyP p Kp.ledgerState :=
  fun k => absurd ((keyP_inj q p Kp.booking Kp.ledgerState (by decide) (by decide)).mp k).2 (by decide)

section
variable (s : State) (p : Port) (w : Int) (reserve : Bool)

/-! A booking set. -/

/-- LEDGER_STATE of a port that is not cut, with `w` booked (Table 3.6). -/
def State.ledgerCode : Int :=
  if p ∈ s.ledger.waiting then 2 else if (s.lport p).changed then 3 else if w = 0 then 0 else if (s.lport p).reserved then 5 else 1

/-- LEDGER_STATE follows the booking unless the port is cut. -/
theorem State.showLedger_rd (k : Nat) :
    (s.showLedger p).rd k =
      if k = keyP p Kp.ledgerState ∧ s.rP p Kp.ledgerState ≠ 4 then s.ledgerCode p (s.rP p Kp.booking) else s.rd k := by
  unfold State.showLedger
  by_cases cut : s.rP p Kp.ledgerState = 4
  · rw [if_pos cut, if_neg fun h => h.2 cut]
  · rw [if_neg cut, State.wP_eq, State.rd_wr]
    simp only [cut, ne_eq, not_false_eq_true, and_true]
    rfl

theorem State.setBooking_rd (k : Nat) :
    (s.setBooking p w).rd k =
      if k = keyP p Kp.booking then w
      else if k = keyP p Kp.ledgerState ∧ s.rP p Kp.ledgerState ≠ 4 then s.ledgerCode p w else s.rd k := by
  have other := booking_ne_ledgerState p p
  have state : (s.wP p Kp.booking w).rP p Kp.ledgerState = s.rP p Kp.ledgerState := by
    rw [State.rP_wP, if_neg other.symm]
  have booked : (s.wP p Kp.booking w).rP p Kp.booking = w := by rw [State.rP_wP, if_pos rfl]
  rw [State.setBooking, State.showLedger_rd, state, booked]
  by_cases h : k = keyP p Kp.booking
  · rw [if_neg fun g => other (h.symm.trans g.1), if_pos h, h, State.wP_eq, State.rd_wr, if_pos rfl]
  · rw [if_neg h, State.wP_eq, State.rd_wr, if_neg h]
    rfl

/-- What BUDGET_FREE sets is no entry of the dictionary. -/
theorem State.book_rd (k : Nat) : (s.book p w).rd k = (s.setBooking p w).rd k := by
  unfold State.book
  dsimp only
  split
  · exact (State.budgetFree_moves _).rd_eq (by decide) k
  · rfl

/-! A query granted (R81). -/

theorem State.grant_rd (k : Nat) :
    (s.grant p w reserve).rd k =
      if k = keyP p Kp.booking then w
      else if k = keyP p Kp.ledgerState ∧ s.rP p Kp.ledgerState ≠ 4 then
        (if (s.lport p).changed then 3 else if w = 0 then 0 else if reserve then 5 else 1)
      else s.rd k := by
  have left : p ∉ (s.leaveWait p).ledger.waiting := by simp [State.leaveWait]
  rw [State.grant, State.book_rd, State.setBooking_rd]
  simp only [State.ledgerCode, State.setLport_ledger, left, if_false, State.setLport_lport, if_true]
  rfl

theorem State.grant_wroteOnly : WroteOnly [keyP p Kp.booking, keyP p Kp.ledgerState] s (s.grant p w reserve) := by
  intro k hk
  rw [List.mem_cons, List.mem_singleton, not_or] at hk
  rw [State.grant_rd, if_neg hk.1, if_neg fun h => hk.2 h.1]

theorem State.grant_booking (q : Port) :
    (s.grant p w reserve).rP q Kp.booking = if q = p then w else s.rP q Kp.booking := by
  split
  · next h => rw [h, State.rP_eq, State.grant_rd, if_pos rfl]
  · next h =>
    exact s.grant_wroteOnly p w reserve _ (by
      rw [List.mem_cons, List.mem_singleton, not_or]
      exact ⟨booking_ne_keyP h _ (by decide), booking_ne_ledgerState p q⟩)

theorem State.grant_ledgerState (cut : s.rP p Kp.ledgerState ≠ 4) (shed : (s.lport p).changed = false) :
    (s.grant p w reserve).rP p Kp.ledgerState = if w = 0 then 0 else if reserve then 5 else 1 := by
  rw [State.rP_eq, State.grant_rd, if_neg (booking_ne_ledgerState p p).symm, if_pos ⟨rfl, cut⟩, shed, if_neg Bool.false_ne_true]

theorem State.grant_budget : (s.grant p w reserve).rd K.budget = s.rd K.budget :=
  s.grant_wroteOnly p w reserve _ (by
    rw [List.mem_cons, List.mem_singleton, not_or]
    exact ⟨budget_ne_keyP p _ (by decide), budget_ne_keyP p _ (by decide)⟩)

/-- A granted port waits no more. -/
theorem State.grant_not_waiting : p ∉ (s.grant p w reserve).ledger.waiting := by
  have ledger : (s.grant p w reserve).ledger = (s.leaveWait p).ledger := (State.book_moves ..).ledger_eq (by decide)
  simp [ledger, State.leaveWait]

/-! The answer (Table 3.1). -/

theorem State.lqAnswer_rd (r : Int) (k : Nat) : (s.lqAnswer p r).rd k = s.rd k := (State.lqAnswer_moves ..).rd_eq (by decide) k

theorem State.lqAnswer_result (r : Int) : (s.lqAnswer p r).ior (blockOf p) 0x4008 = 0x80000000 + r := by
  rw [State.lqAnswer, State.ior_iow, if_neg (by omega), State.ior_iow, if_pos rfl]

theorem State.lqAnswer_free (r : Int) : (s.lqAnswer p r).ior (blockOf p) 0x400C = freePower s := by
  rw [State.lqAnswer, State.ior_iow, if_pos rfl]

/-! ADMIT and RESERVE evaluated (R77). -/

/-- The keys of the port that apply at its next admission (R105). -/
abbrev admissionKeys : List Nat := [keyP p Kp.classE, keyP p Kp.allot, keyP p Kp.allotShed]

/-- The state in which an admission is judged: the entries of R105 applied, P in LQ_POWER. -/
def State.asked : State := (s.applyKeys (admissionKeys p)).iow (blockOf p) 0x4004 w

theorem State.admitPower_granted (h : admitResult (s.asked p w) p w = 1) :
    s.admitPower p w reserve = ((s.asked p w).grant p w reserve).lqAnswer p 1 := by
  rw [State.admitPower, ← State.asked, h, if_pos rfl]

theorem State.admitPower_denied (h : admitResult (s.asked p w) p w ≠ 1) :
    s.admitPower p w reserve = ((s.asked p w).count (keyP p Kp.denyCount)).lqAnswer p (admitResult (s.asked p w) p w) := by
  rw [State.admitPower, ← State.asked, if_neg h]

/-- Where nothing is pending only LQ_POWER changes before the judgement. -/
theorem State.asked_of_idle (h : s.odNew = []) : s.asked p w = s.iow (blockOf p) 0x4004 w := by
  rw [State.asked, s.applyKeys_nil _ h]

/-- LQ_POWER has no part in the judgement. -/
theorem admitResult_asked (h : s.odNew = []) : admitResult (s.asked p w) p w = admitResult s p w := by
  rw [s.asked_of_idle p w h]
  rfl

theorem State.asked_rd (k : Nat) (h : k ∉ admissionKeys p) : (s.asked p w).rd k = s.rd k := s.applyKeys_rd _ k h

end

/-! The sum of the bookings (R76). -/

/-- One summand of a list without repetitions replaced. -/
theorem sum_map_replaced {α : Type} [DecidableEq α] {f g : α → Int} {p : α} {w : Int} (h : ∀ q, g q = if q = p then w else f q)
    (l : List α) (hl : l.Nodup) : (l.map g).sum = if p ∈ l then (l.map f).sum - f p + w else (l.map f).sum := by
  induction l with
  | nil => rw [if_neg List.not_mem_nil, List.map_nil, List.map_nil]
  | cons q l ih =>
    obtain ⟨out, nodup⟩ := List.nodup_cons.mp hl
    rw [List.map_cons, List.map_cons, List.sum_cons, List.sum_cons, ih nodup, h q]
    by_cases here : q = p
    · rw [if_pos here, if_neg (here ▸ out), if_pos (here ▸ List.mem_cons_self), here]
      omega
    · rw [if_neg here]
      by_cases later : p ∈ l
      · rw [if_pos later, if_pos (List.mem_cons_of_mem q later)]
        omega
      · rw [if_neg later, if_neg (List.not_mem_cons_of_ne_of_not_mem (Ne.symm here) later)]

/-- One booking replaced. -/
theorem runningSum_rebooked {s t : State} {p : Port} {w : Int}
    (h : ∀ q, t.rP q Kp.booking = if q = p then w else s.rP q Kp.booking) :
    runningSum t = runningSum s - s.rP p Kp.booking + w :=
  (sum_map_replaced h allPorts (List.nodup_finRange 64)).trans (if_pos (List.mem_finRange p))

/-- The ledger stands: no booking is negative and their sum is within BUDGET. -/
def WithinBudget (s : State) : Prop := runningSum s ≤ s.rd K.budget ∧ ∀ q : Port, 0 ≤ s.rP q Kp.booking

/-- Where neither a booking nor BUDGET changes, the ledger stands as before. -/
theorem WithinBudget.of_same {s t : State} (h : WithinBudget s) (hb : ∀ q, t.rP q Kp.booking = s.rP q Kp.booking)
    (hl : t.rd K.budget = s.rd K.budget) : WithinBudget t := by
  have sum : runningSum t = runningSum s := congrArg List.sum (List.map_congr_left fun q _ => hb q)
  exact ⟨sum ▸ hl ▸ h.1, fun q => hb q ▸ h.2 q⟩

/-- The answer goes to the query registers alone. -/
theorem WithinBudget.lqAnswer {s : State} (h : WithinBudget s) (p : Port) (r : Int) : WithinBudget (s.lqAnswer p r) :=
  h.of_same (fun _ => s.lqAnswer_rd p r _) (s.lqAnswer_rd p r _)

/-- A booking granted that is no higher than the port's own or that fits into BUDGET. -/
theorem WithinBudget.grant {s : State} (h : WithinBudget s) (p : Port) {w : Int} (reserve : Bool) (hw : 0 ≤ w)
    (fits : w ≤ s.rP p Kp.booking ∨ runningSum s - s.rP p Kp.booking + w ≤ s.rd K.budget) : WithinBudget (s.grant p w reserve) := by
  obtain ⟨sum, pos⟩ := h
  refine ⟨?_, fun q => ?_⟩
  · rw [runningSum_rebooked (s.grant_booking p w reserve), State.grant_budget]
    omega
  · rw [State.grant_booking]
    split
    · exact hw
    · exact pos q

/-- What R77 grants is no higher than the port's own booking or fits into BUDGET. -/
theorem fits_of_admitResult {s : State} {p : Port} {w : Int} (h : admitResult s p w = 1) :
    w ≤ s.rP p Kp.booking ∨ runningSum s - s.rP p Kp.booking + w ≤ s.rd K.budget := by
  by_cases own : w ≤ s.rP p Kp.booking
  · exact .inl own
  by_cases beyond : s.rd K.budget < runningSum s - s.rP p Kp.booking + w
  · rw [admitResult, if_neg own, decide_eq_true beyond, Bool.or_true] at h
    split at h <;> cases h
  · exact .inr (Int.not_lt.mp beyond)

theorem WithinBudget.asked {s : State} (h : WithinBudget s) (p : Port) (w : Int) : WithinBudget (s.asked p w) := by
  have other (q : Port) (e : Nat) (he : e < 0x4000) (ne : Kp.booking ≠ e) : keyP q Kp.booking ≠ keyP p e := fun k =>
    ne ((keyP_inj q p Kp.booking e (by decide) he).mp k).2
  have apart (q : Port) : keyP q Kp.booking ∉ admissionKeys p := by
    rw [List.mem_cons, List.mem_cons, List.mem_singleton, not_or, not_or]
    exact ⟨other q _ (by decide) (by decide), other q _ (by decide) (by decide), other q _ (by decide) (by decide)⟩
  have budget : K.budget ∉ admissionKeys p := by
    rw [List.mem_cons, List.mem_cons, List.mem_singleton, not_or, not_or]
    exact ⟨budget_ne_keyP p _ (by decide), budget_ne_keyP p _ (by decide), budget_ne_keyP p _ (by decide)⟩
  exact h.of_same (fun q => s.asked_rd p w _ (apart q)) (s.asked_rd p w _ budget)

/-- ADMIT and RESERVE, granted or denied. -/
theorem WithinBudget.admitPower {s : State} (h : WithinBudget s) (p : Port) (w : Nat) (reserve : Bool) :
    WithinBudget (s.admitPower p w reserve) := by
  have judged := h.asked p w
  by_cases granted : admitResult (s.asked p w) p w = 1
  · rw [s.admitPower_granted p w reserve granted]
    exact (judged.grant p reserve (Int.natCast_nonneg w) (fits_of_admitResult granted)).lqAnswer p 1
  · rw [s.admitPower_denied p w reserve granted]
    refine (judged.of_same (fun q => ?_) ?_).lqAnswer p _
    · exact (State.rd_wr ..).trans (if_neg fun k => absurd ((keyP_inj q p _ _ (by decide) (by decide)).mp k).2 (by decide))
    · exact (State.rd_wr ..).trans (if_neg (budget_ne_keyP p _ (by decide)))

/-- Settles O20: each of the four queries keeps the ledger within BUDGET. -/
theorem ledgerWithinBudget : Obligations.LedgerWithinBudget := by
  unfold Obligations.LedgerWithinBudget
  intro p w s t pos sum run
  have start : WithinBudget s := ⟨sum, pos⟩
  rcases run with h | h | h | h <;> cases h
  case inl => exact start.admitPower p w false
  case inr.inl => exact start.admitPower p w true
  case inr.inr.inl => exact (start.grant p false (Int.le_refl 0) (.inl (pos p))).lqAnswer p 1
  case inr.inr.inr =>
    have kept : WithinBudget (s.iow (blockOf p) 0x4004 w) := start
    exact (kept.grant p _ (Int.le_min.mpr ⟨Int.natCast_nonneg w, pos p⟩) (.inl (Int.min_le_right ..))).lqAnswer p 1

end Sys2Proof.Machine
end

section
/-! SUPPORT. The ledger's answers to the engines' queries, and what an engine sends on BUDGET_FREE (R53, R77, R80, R81, R105). The
precedence of the codes of LEDGER_STATE is log entry 33, a RELEASE or LOWER as a grant log entry 34. -/

namespace Sys2Proof.Machine

section
variable (s : State) (p : Port)

/-! Queries (R77, R80). -/

/-- GRANT with DONE. -/
theorem State.lqAnswer_granted : (s.lqAnswer p 1).ior (blockOf p) 0x4008 = 0x80000001 :=
  State.lqAnswer_result ..

/-- Where only entries of port `p` are written, no other port's booking moves. -/
theorem WroteOnly.bookings {s t : State} {p : Port} {ks : List Nat} (h : WroteOnly ks s t)
    (hk : ∀ k ∈ ks, ∃ e < 0x4000, k = keyP p e) : ∀ q, q ≠ p → t.rP q Kp.booking = s.rP q Kp.booking := fun q hq =>
  h _ fun hm => by
    obtain ⟨e, he, k⟩ := hk _ hm
    exact booking_ne_keyP hq e he k

/-- An ADMIT or a RESERVE that is granted: the booking and LEDGER_STATE of the port, the answer, the wait list. -/
theorem State.admitPower_granted_spec (w : Nat) (reserve : Bool) (idle : s.odNew = []) (granted : admitResult s p w = 1)
    (cut : s.rP p Kp.ledgerState ≠ 4) (shed : (s.lport p).changed = false) :
    let t := settle (s.admitPower p w reserve)
    t.rP p Kp.booking = w ∧ t.rP p Kp.ledgerState = (if w = 0 then 0 else if reserve then 5 else 1) ∧
      t.ior (blockOf p) 0x4008 = 0x80000001 ∧ p ∉ t.ledger.waiting ∧ Only [.od, .io, .ledgerPorts, .ledger, .pins] s t ∧
      ∀ q, q ≠ p → t.rP q Kp.booking = s.rP q Kp.booking := by
  intro t
  let r := s.iow (blockOf p) 0x4004 w
  have out : t = settle ((r.grant p w reserve).lqAnswer p 1) := by
    rw [show r = s.asked p w from (s.asked_of_idle p w idle).symm,
      ← State.admitPower_granted s p w reserve ((admitResult_asked s p w idle).trans granted)]
  have entries (k : Nat) : t.rd k = (r.grant p w reserve).rd k := by rw [out, settle_rd_of, State.lqAnswer_rd]
  have booking (q : Port) : t.rP q Kp.booking = if q = p then (w : Int) else s.rP q Kp.booking :=
    (entries _).trans (r.grant_booking p w reserve q)
  refine ⟨(booking p).trans (if_pos rfl), ?_, ?_, ?_, ?_, fun q hq => (booking q).trans (if_neg hq)⟩
  · rw [State.rP_eq, entries, ← State.rP_eq, r.grant_ledgerState p w reserve cut shed]
    simp only [Int.natCast_eq_zero]
  · rw [out, settle_ior_of, State.lqAnswer_granted]
  · rw [out]
    exact r.grant_not_waiting p w reserve
  · rw [out]
    exact ((settle_moves _).after (by decide) <| (State.lqAnswer_moves ..).after (by decide) <|
      (State.grant_moves ..).after (by decide) <| (State.iow_moves ..).mono (by decide)).only

/-- An ADMIT or a RESERVE that is denied: counted with its code, and FREE beside it. -/
theorem State.admitPower_denied_spec (w : Nat) (reserve : Bool) (idle : s.odNew = []) (denied : admitResult s p w ≠ 1) :
    let t := settle (s.admitPower p w reserve)
    t.rP p Kp.booking = s.rP p Kp.booking ∧ t.rP p Kp.denyCount = satInc (s.rP p Kp.denyCount) u32Max ∧
      t.ior (blockOf p) 0x4008 = 0x80000000 + admitResult s p w ∧ t.ior (blockOf p) 0x400C = freePower s ∧
      WroteOnly [keyP p Kp.denyCount] s t ∧ Only [.od, .io, .pins] s t ∧ ∀ q, q ≠ p → t.rP q Kp.booking = s.rP q Kp.booking := by
  intro t
  let u := (s.iow (blockOf p) 0x4004 w).count (keyP p Kp.denyCount)
  have judged := admitResult_asked s p w idle
  have out : t = settle (u.lqAnswer p (admitResult s p w)) := by
    rw [← judged, ← show (s.asked p w).count _ = u from congrArg (State.count · _) (s.asked_of_idle p w idle),
      ← State.admitPower_denied s p w reserve (judged ▸ denied)]
  have entries (k : Nat) : t.rd k = u.rd k := by rw [out, settle_rd_of, State.lqAnswer_rd]
  have wrote : WroteOnly [keyP p Kp.denyCount] s t := fun k hk =>
    (entries k).trans ((State.rd_wr ..).trans (if_neg fun e => hk (List.mem_singleton.mpr e)))
  have booking (q : Port) : t.rP q Kp.booking = s.rP q Kp.booking := wrote _ fun hm =>
    absurd ((keyP_inj q p _ _ (by decide) (by decide)).mp (List.mem_singleton.mp hm)).2 (by decide)
  have budget : u.rd K.budget = s.rd K.budget := (State.rd_wr ..).trans (if_neg (budget_ne_keyP p _ (by decide)))
  have free : freePower u = freePower s := by
    rw [freePower, freePower, budget, show runningSum u = runningSum s from
      congrArg List.sum (List.map_congr_left fun q _ => (entries _).symm.trans (booking q))]
  refine ⟨booking p, (entries _).trans ((State.rd_wr ..).trans (if_pos rfl)), ?_, ?_, wrote, ?_, fun q _ => booking q⟩
  · rw [out, settle_ior_of, State.lqAnswer_result]
  · rw [out, settle_ior_of, State.lqAnswer_free, free]
  · rw [out]
    exact ((settle_moves _).after (by decide) <| (State.lqAnswer_moves ..).after (by decide) <|
      (State.count_moves ..).after (by decide) <| (State.iow_moves ..).mono (by decide)).only

/-- The entries that a granted query may write. -/
theorem grantKeys_of_port : ∀ k ∈ [keyP p Kp.booking, keyP p Kp.ledgerState], ∃ e < 0x4000, k = keyP p e := by
  intro k hk
  rw [List.mem_cons, List.mem_singleton] at hk
  rcases hk with rfl | rfl
  · exact ⟨Kp.booking, by decide, rfl⟩
  · exact ⟨Kp.ledgerState, by decide, rfl⟩

/-- A RELEASE or a LOWER, which is always granted. -/
theorem State.grant_answered_spec (w : Int) (reserve : Bool) :
    let t := settle ((s.grant p w reserve).lqAnswer p 1)
    t.rP p Kp.booking = w ∧ p ∉ t.ledger.waiting ∧ t.ior (blockOf p) 0x4008 = 0x80000001 ∧
      WroteOnly [keyP p Kp.booking, keyP p Kp.ledgerState] s t ∧ ∀ q, q ≠ p → t.rP q Kp.booking = s.rP q Kp.booking := by
  intro t
  let u := s.grant p w reserve
  have entries (k : Nat) : t.rd k = u.rd k := u.lqAnswer_rd p 1 k
  have wrote : WroteOnly [keyP p Kp.booking, keyP p Kp.ledgerState] s t := fun k hk =>
    (entries k).trans (s.grant_wroteOnly p w reserve k hk)
  refine ⟨?_, s.grant_not_waiting p w reserve, u.lqAnswer_granted p, wrote, wrote.bookings (grantKeys_of_port p)⟩
  exact (entries _).trans ((s.grant_booking p w reserve p).trans (if_pos rfl))

/-! Capabilities sent anew (R53, R81). -/

theorem State.setPort_setPort (x y : PortHw) : (s.setPort p x).setPort p y = s.setPort p y := by
  simp [State.setPort, tset]

/-- Without an explicit contract, a message waits for nothing. -/
theorem State.startAms_of_implicit (m : TxMsg) (implicit : s.explicitContract p = false) : s.startAms p m = s.send p m :=
  if_neg fun h => by simp [implicit] at h

theorem State.send_of_quiet (m : TxMsg) (quiet : (s.port p).hardReset ≠ .signalling) :
    s.send p m = s.setPort p { s.port p with tx := (s.port p).tx ++ [m] } := if_neg quiet

/-- A port outside EPR mode that sends its objects at once, none of them waiting. -/
theorem State.sendCaps_of_implicit (ams : Bool) (idle : s.odNew = []) (implicit : s.explicitContract p = false)
    (spr : (s.port p).eprMode = false) (quiet : (s.port p).hardReset ≠ .signalling) :
    s.sendCaps p ams = s.setPort p { s.port p with
      offer := s.buildOffer p false, capsCount := (s.port p).capsCount + 1
      tx := (s.port p).tx ++ [msg .sourceCaps (s.buildOffer p false)] } := by
  let u := s.setPort p { s.port p with offer := s.buildOffer p false, capsCount := (s.port p).capsCount + 1 }
  have port : u.port p = { s.port p with offer := s.buildOffer p false, capsCount := (s.port p).capsCount + 1 } :=
    (State.setPort_port ..).trans (if_pos rfl)
  let m := msg .sourceCaps (s.buildOffer p false)
  have sent : s.sendCaps p ams = if ams then u.startAms p m else u.send p m := by
    simp only [State.sendCaps, s.applyKeys_nil _ idle, spr, Bool.false_eq_true, if_false, u, m]
  rw [sent, State.startAms_of_implicit u p m implicit, ite_self, State.send_of_quiet u p _ (by rw [port]; exact quiet),
    State.setPort_setPort, port]

end

/-- Settles O15: the four queries and BUDGET_FREE, by the lemmas above. -/
theorem ledgerQueries : Obligations.LedgerQueries := by
  unfold Obligations.LedgerQueries
  refine ⟨?asks, ?asksDenied, ?reserve, ?reserveDenied, ?release, ?lower, ?budgetFree, ?noBudgetFree⟩
  case asks => exact fun p w s idle granted cut shed => ⟨_, rfl, s.admitPower_granted_spec p w false idle granted cut shed⟩
  case reserve => exact fun p w s idle granted cut shed => ⟨_, rfl, s.admitPower_granted_spec p w true idle granted cut shed⟩
  case asksDenied =>
    rintro p w r s idle rfl denied
    exact ⟨_, rfl, s.admitPower_denied_spec p w false idle denied⟩
  case reserveDenied =>
    rintro p w r s idle rfl denied
    obtain ⟨booking, count, result, -, rest⟩ := s.admitPower_denied_spec p w true idle denied
    exact ⟨_, rfl, booking, count, result, rest⟩
  case release =>
    intro p s cut shed
    obtain ⟨booking, waiting, result, wrote, others⟩ := s.grant_answered_spec p 0 false
    have state : ((s.grant p 0 false).lqAnswer p 1).rP p Kp.ledgerState = 0 :=
      (State.lqAnswer_rd ..).trans (s.grant_ledgerState p 0 false cut shed)
    exact ⟨_, rfl, booking, state, waiting, result, wrote, (execLqRelease_moves s p s).only, others⟩
  case lower =>
    intro p w s
    let r := s.iow (blockOf p) 0x4004 w
    obtain ⟨booking, waiting, result, wrote, others⟩ := r.grant_answered_spec p (min w (s.rP p Kp.booking)) (s.lport p).reserved
    exact ⟨_, rfl, booking, waiting, result, wrote, (execLqLower_moves s p w s).only, others⟩
  case budgetFree =>
    intro p s free waits idle implicit spr quiet
    let r := s.ioFlag (blockOf p) 0x4020 (4 + localOf p) false
    have sent := r.sendCaps_of_implicit p true idle implicit spr quiet
    have offer : r.buildOffer p false = s.buildOffer p false := rfl
    have runs : exec (.waitReadvertise p) s = .next (settle (r.sendCaps p true)) :=
      congrArg done ((if_pos free).trans (if_pos waits))
    refine ⟨_, runs, ?_, ?_, ?_, ?_, fun q _ => ?_⟩
    · have cleared : r.ior (blockOf p) 0x4020 = withBit (s.ior (blockOf p) 0x4020) (4 + localOf p) false :=
        (State.ior_iow ..).trans (if_pos rfl)
      rw [settle_ior_of, sent, State.setPort_ior, cleared, bit_withBit, if_pos rfl]
    · rw [settle_port_of, sent, State.setPort_port, if_pos rfl, offer]
    · rw [settle_port_of, sent, State.setPort_port, if_pos rfl, offer]
      rfl
    · rw [sent]
      exact ((settle_moves _).after (by decide) <| (State.setPort_moves ..).after (by decide) <|
        (State.ioFlag_moves ..).mono (by decide)).only
    · rw [sent]
      rfl
  case noBudgetFree =>
    intro p s idle
    exact ⟨_, congrArg done (if_neg (Bool.eq_false_iff.mp idle)), (settle_moves s).only, fun _ _ => rfl⟩

end Sys2Proof.Machine
end

section
/-! SUPPORT. The strip tables (R84, R85): what a recomputation writes of each slot, and that no slot's table depends on another's shadow. -/

namespace Sys2Proof.Machine

/-! Writes in a row. -/

/-- Two entries written for every member of a list leave value `v` at `k` where every write of `k` writes `v`, and either `k` is written
or holds `v` before. -/
theorem rd_foldl_wr {α : Type} (l : List α) (f g : α → Nat) (a b : α → Int) (k : Nat) (v : Int) (s : State)
    (agree : ∀ x ∈ l, (k = f x → a x = v) ∧ (k = g x → b x = v)) (start : s.rd k = v ∨ ∃ x ∈ l, k = f x ∨ k = g x) :
    (l.foldl (fun s x => (s.wr (f x) (a x)).wr (g x) (b x)) s).rd k = v := by
  induction l generalizing s with
  | nil => simpa using start
  | cons x l ih =>
    obtain ⟨⟨hf, hg⟩, rest⟩ := List.forall_mem_cons.mp agree
    refine ih _ rest ?_
    rw [State.rd_wr, State.rd_wr]
    by_cases second : k = g x
    · exact .inl ((if_pos second).trans (hg second))
    · by_cases first : k = f x
      · exact .inl ((if_neg second).trans ((if_pos first).trans (hf first)))
      · rw [if_neg second, if_neg first]
        simpa [first, second] using start

/-! The entries of a slot. -/

/-- The slots of the entries at key `k`, if any, are among `l`. -/
def InSlots (l : List Slot) (k : Nat) : Prop := ∃ n ∈ l, k / 256 = 0x3210 + n.val

theorem keyS_area (n : Slot) (e : Nat) (h : e < 0x100) : keyS n e / 256 = 0x3210 + n.val := by
  unfold keyS areaKey
  omega

theorem keyS_not_inSlots {l : List Slot} {n : Slot} (hn : n ∉ l) (e : Nat) (h : e < 0x100) : ¬ InSlots l (keyS n e) := by
  rintro ⟨m, hm, k⟩
  rw [keyS_area n e h] at k
  exact hn (Fin.ext (by omega : n.val = m.val) ▸ hm)

/-- No entry outside the slots lies in one. -/
theorem not_inSlots_of_apart {l : List Slot} {k : Nat} (h : k < 0x321000 ∨ 0x321800 ≤ k) : ¬ InSlots l k := by
  rintro ⟨m, -, e⟩
  omega

section
variable (s : State) (n : Slot) (c : SlotCopy)

/-- A shadow is written entry by entry: its head, then an allotment and a limit code for every port. -/
theorem State.writeShadow_eq :
    s.writeShadow n c = allPorts.foldl
      (fun (s : State) (p : Port) => (s.wr (keyS n (Ks.stAllot + p.val)) (c.allot.getD p.val 0)).wr (keyS n (Ks.stLimit + p.val))
        (c.limit.getD p.val 255))
      ((s.wr (keyS n Ks.stCut) c.cut).wr (keyS n Ks.stCapAfter) c.capAfter) := rfl

/-- The writes of a shadow lie in its slot. -/
theorem State.writeShadow_rd_apart (k : Nat) (h : ¬ InSlots [n] k) : (s.writeShadow n c).rd k = s.rd k := by
  have other (e : Nat) (he : e < 0x100) : k ≠ keyS n e := fun q => h ⟨n, List.mem_singleton_self n, q ▸ keyS_area n e he⟩
  have allot (p : Port) : k ≠ keyS n (Ks.stAllot + p.val) := other _ (by unfold Ks.stAllot; omega)
  have limit (p : Port) : k ≠ keyS n (Ks.stLimit + p.val) := other _ (by unfold Ks.stLimit; omega)
  rw [State.writeShadow_eq]
  refine rd_foldl_wr allPorts _ _ _ _ k _ _ (fun p _ => ⟨fun q => absurd q (allot p), fun q => absurd q (limit p)⟩) (.inl ?_)
  rw [State.rd_wr, State.rd_wr, if_neg (other _ (by decide)), if_neg (other _ (by decide))]

/-- An entry of the slot that is neither an allotment nor a limit. -/
theorem State.writeShadow_head (e : Nat) (h : e < 0x10) :
    (s.writeShadow n c).rS n e = if e = Ks.stCapAfter then c.capAfter else if e = Ks.stCut then (c.cut : Int) else s.rS n e := by
  have allot (p : Port) : keyS n e ≠ keyS n (Ks.stAllot + p.val) := by
    rw [ne_eq, keyS_same]; unfold Ks.stAllot; omega
  have limit (p : Port) : keyS n e ≠ keyS n (Ks.stLimit + p.val) := by
    rw [ne_eq, keyS_same]; unfold Ks.stLimit; omega
  rw [State.rS_eq, State.writeShadow_eq]
  refine rd_foldl_wr allPorts _ _ _ _ _ _ _ (fun p _ => ⟨fun q => absurd q (allot p), fun q => absurd q (limit p)⟩) (.inl ?_)
  rw [State.rd_wr, State.rd_wr]
  simp only [keyS_same, State.rS_eq]

theorem State.writeShadow_allot (p : Port) : (s.writeShadow n c).rS n (Ks.stAllot + p.val) = c.allot.getD p.val 0 := by
  rw [State.rS_eq, State.writeShadow_eq]
  refine rd_foldl_wr allPorts _ _ _ _ _ _ _ (fun q _ => ⟨fun k => ?_, fun k => ?_⟩) (.inr ⟨p, List.mem_finRange p, .inl rfl⟩)
  · have e : q.val = p.val := by rw [keyS_same] at k; omega
    rw [e]
  · rw [keyS_same] at k
    unfold Ks.stAllot Ks.stLimit at k
    omega

theorem State.writeShadow_limit (p : Port) : (s.writeShadow n c).rS n (Ks.stLimit + p.val) = c.limit.getD p.val 255 := by
  rw [State.rS_eq, State.writeShadow_eq]
  refine rd_foldl_wr allPorts _ _ _ _ _ _ _ (fun q _ => ⟨fun k => ?_, fun k => ?_⟩) (.inr ⟨p, List.mem_finRange p, .inr rfl⟩)
  · rw [keyS_same] at k
    unfold Ks.stAllot Ks.stLimit at k
    omega
  · have e : q.val = p.val := by rw [keyS_same] at k; omega
    rw [e]

/-- A table of all 64 ports, read at a port. -/
theorem getD_map_allPorts (f : Port → Int) (p : Port) (d : Int) : (allPorts.map f).getD p.val d = f p := by
  simp [allPorts, List.getD_eq_getElem?_getD]

/-- The shadow written with the table of a trigger reads back as that table, under the slot's own trigger. -/
theorem State.shadow_writeShadow (t : Nat) (cap : Int) (u : State) (h : (s.rS n Ks.stTrigger).toNat = t) :
    (s.writeShadow n (stripTable u t cap)).shadow n = stripTable u t cap := by
  have trigger : (s.writeShadow n (stripTable u t cap)).rS n Ks.stTrigger = s.rS n Ks.stTrigger :=
    s.writeShadow_head n _ _ (by decide)
  have cut : (s.writeShadow n (stripTable u t cap)).rS n Ks.stCut = (cutMask u cap : Int) := s.writeShadow_head n _ _ (by decide)
  have after : (s.writeShadow n (stripTable u t cap)).rS n Ks.stCapAfter = cap := s.writeShadow_head n _ _ (by decide)
  rw [State.shadow, trigger, h, cut, after]
  simp only [State.writeShadow_allot, State.writeShadow_limit, stripTable, getD_map_allPorts, Int.toNat_natCast]

end

/-! What the table of R84 is computed from. -/

section
variable {s t : State} (same : ∀ k, ¬ InSlots allSlots k → t.rd k = s.rd k)
include same

theorem rP_of_apart (p : Port) (e : Nat) (h : e < 0x4000) : t.rP p e = s.rP p e :=
  same _ (not_inSlots_of_apart (.inl (by have := keyP_range p e h; omega)))

theorem rd_of_apart (k : Nat) (h : k < 0x321000) : t.rd k = s.rd k := same k (not_inSlots_of_apart (.inl h))

/-- No slot's entries enter the table. -/
theorem stripTable_of_apart (trig : Nat) (cap : Int) : stripTable t trig cap = stripTable s trig cap := by
  have port (p : Port) (e : Nat) (h : e < 0x4000) := rP_of_apart same p e h
  have source (p : Port) : t.sourceRole p = s.sourceRole p := by
    simp (disch := decide) only [State.sourceRole, port]
  have keep (p : Port) : t.keep p = s.keep p := by
    simp (disch := decide) only [State.keep, port, source]
  have order : cutOrder t = cutOrder s := by
    simp (disch := decide) only [cutOrder, port]
  have mask : cutMask t cap = cutMask s cap := by
    simp only [cutMask, order, keep, rd_of_apart same K.shedMargin (by decide), funext keep]
  have limit (cut : Nat) (p : Port) : t.tableLimit cut p = s.tableLimit cut p := by
    simp (disch := decide) only [State.tableLimit, State.contractVoltage, port, source, keep]
  simp only [stripTable, mask, keep, funext (limit _)]

/-- Nor does the capacity under a trigger (Table 3.3) depend on them. -/
theorem capAfter_of_apart (trig : Nat) : capAfter t trig = capAfter s trig := by
  have entry (k : Nat) (h : k < 0x321000) := rd_of_apart same k h
  have limit (a b : Bool) : localLimitWith t a b = localLimitWith s a b := by
    simp (disch := decide) only [localLimitWith, entry]
  have avail (f : Feed) : t.feedAvail f = s.feedAvail f := by
    simp (disch := decide) only [State.feedAvail, entry]
  have step (h : 4 ≤ trig ∧ trig ≤ 6) : t.rd (K.deratePct1 + (trig - 4)) = s.rd (K.deratePct1 + (trig - 4)) :=
    entry _ (by unfold K.deratePct1; omega)
  by_cases derate : 4 ≤ trig ∧ trig ≤ 6
  · simp (disch := decide) only [capAfter, localLimit, limit, avail, entry, step derate]
  · simp (disch := decide) only [capAfter, limit, avail, entry, if_neg derate]

end

/-! The recomputation, slot by slot. -/

/-- A slot that a recomputation computes: its trigger neither NONE nor MANUAL, and no second stage (R84). -/
abbrev Computed (s : State) (n : Slot) : Prop :=
  (s.rS n Ks.stTrigger).toNat ≠ 0 ∧ (s.rS n Ks.stTrigger).toNat ≠ 7 ∧ (s.slot n).stageOf = none

/-- The table of slot `n` (R84) under its trigger. -/
def State.tableOf (s : State) (n : Slot) : SlotCopy :=
  stripTable s (s.rS n Ks.stTrigger).toNat (capAfter s (s.rS n Ks.stTrigger).toNat)

/-- What a recomputation does with slot `n`. -/
def State.computeSlot (s : State) (n : Slot) : State :=
  if (s.rS n Ks.stTrigger).toNat = 0 ∨ (s.rS n Ks.stTrigger).toNat = 7 ∨ (s.slot n).stageOf.isSome then s
  else (s.writeShadow n (s.tableOf n)).setSlot n { s.slot n with writing := true }

theorem State.recompute_auto (s : State) (idle : s.odNew = []) (auto : s.rd K.stripMode = 0) :
    s.recompute = allSlots.foldl State.computeSlot s := by
  have entries : s.applyLedgerEntries = s := by
    rw [State.applyLedgerEntries, s.applyKeys_nil _ idle, s.applyKeys_nil _ idle]
  rw [State.recompute, entries]
  exact if_pos auto

theorem State.recompute_manual (s : State) (idle : s.odNew = []) (manual : s.rd K.stripMode ≠ 0) : s.recompute = s := by
  have entries : s.applyLedgerEntries = s := by
    rw [State.applyLedgerEntries, s.applyKeys_nil _ idle, s.applyKeys_nil _ idle]
  rw [State.recompute, entries]
  exact if_neg manual

/-- From `s` to `t` nothing but the slots of `l` and their entries changes. -/
structure SlotsOnly (l : List Slot) (s t : State) : Prop where
  rd : ∀ k, ¬ InSlots l k → t.rd k = s.rd k
  slot : ∀ m, m ∉ l → t.slot m = s.slot m

theorem State.computeSlot_slotsOnly (s : State) (n : Slot) : SlotsOnly [n] s (s.computeSlot n) := by
  unfold State.computeSlot
  split
  · exact ⟨fun _ _ => rfl, fun _ _ => rfl⟩
  · refine ⟨fun k h => ?_, fun m hm => ?_⟩
    · rw [State.setSlot_rd, State.writeShadow_rd_apart _ n _ k h]
    rw [State.setSlot_slot, if_neg (by simpa using hm)]
    exact congrArg (tget · m) (of_decide_eq_true ((State.writeShadow_moves s n _).same .slots (by decide))).symm

@[simp] theorem State.setSlot_shadow (s : State) (n m : Slot) (x : SlotHw) : (s.setSlot n x).shadow m = s.shadow m := rfl

@[simp] theorem settle_shadow (s : State) (n : Slot) : (settle s).shadow n = s.shadow n := rfl

@[simp] theorem State.reply_slot (s : State) (st : Nat) (n : Slot) : (s.reply st).slot n = s.slot n := rfl

@[simp] theorem State.reply_shadow (s : State) (st : Nat) (n : Slot) : (s.reply st).shadow n = s.shadow n := rfl

/-- A slot computed is being written, and its shadow holds its table. -/
theorem State.computeSlot_computed (s : State) (n : Slot) (h : Computed s n) :
    ((s.computeSlot n).slot n).writing = true ∧ (s.computeSlot n).shadow n = s.tableOf n := by
  obtain ⟨none, manual, stage⟩ := h
  have computes : ¬((s.rS n Ks.stTrigger).toNat = 0 ∨ (s.rS n Ks.stTrigger).toNat = 7 ∨ (s.slot n).stageOf.isSome) := by
    rw [stage]
    exact not_or.mpr ⟨none, not_or.mpr ⟨manual, Bool.false_ne_true⟩⟩
  rw [State.computeSlot, if_neg computes]
  refine ⟨by rw [State.setSlot_slot, if_pos rfl], ?_⟩
  rw [State.setSlot_shadow]
  exact s.shadow_writeShadow n _ _ s rfl

section
variable {l : List Slot} {s t : State} (h : SlotsOnly l s t)
include h

/-- A slot outside stands, with its trigger and its shadow. -/
theorem SlotsOnly.rS {n : Slot} (hn : n ∉ l) (e : Nat) (he : e < 0x100) : t.rS n e = s.rS n e := h.rd _ (keyS_not_inSlots hn e he)

theorem SlotsOnly.computed {n : Slot} (hn : n ∉ l) : Computed t n ↔ Computed s n := by
  rw [Computed, h.rS hn _ (by decide), h.slot n hn]

theorem SlotsOnly.tableOf {n : Slot} (hn : n ∉ l) : t.tableOf n = s.tableOf n := by
  have same : ∀ k, ¬ InSlots allSlots k → t.rd k = s.rd k := fun k hk =>
    h.rd k fun ⟨m, _, e⟩ => hk ⟨m, List.mem_finRange m, e⟩
  rw [State.tableOf, h.rS hn _ (by decide), stripTable_of_apart same, capAfter_of_apart same, State.tableOf]

theorem SlotsOnly.shadow {n : Slot} (hn : n ∉ l) : t.shadow n = s.shadow n := by
  have allot (p : Port) : t.rS n (Ks.stAllot + p.val) = s.rS n (Ks.stAllot + p.val) := h.rS hn _ (by unfold Ks.stAllot; omega)
  have limit (p : Port) : t.rS n (Ks.stLimit + p.val) = s.rS n (Ks.stLimit + p.val) := h.rS hn _ (by unfold Ks.stLimit; omega)
  simp only [State.shadow, h.rS hn Ks.stTrigger (by decide), h.rS hn Ks.stCut (by decide), h.rS hn Ks.stCapAfter (by decide), allot, limit]

end

/-- Slots computed in a row: each is computed as if it were the only one. -/
theorem computeSlots_spec (l : List Slot) (hl : l.Nodup) (s : State) :
    SlotsOnly l s (l.foldl State.computeSlot s) ∧
      ∀ n ∈ l, Computed s n →
        ((l.foldl State.computeSlot s).slot n).writing = true ∧ (l.foldl State.computeSlot s).shadow n = s.tableOf n := by
  induction l generalizing s with
  | nil => exact ⟨⟨fun _ _ => rfl, fun _ _ => rfl⟩, fun _ h => absurd h List.not_mem_nil⟩
  | cons m l ih =>
    obtain ⟨out, nodup⟩ := List.nodup_cons.mp hl
    have first := s.computeSlot_slotsOnly m
    obtain ⟨rest, written⟩ := ih nodup (s.computeSlot m)
    refine ⟨⟨fun k hk => ?_, fun n hn => ?_⟩, fun n hn computed => ?_⟩
    · rw [List.foldl_cons, rest.rd k fun ⟨n, hn, e⟩ => hk ⟨n, List.mem_cons_of_mem m hn, e⟩,
        first.rd k fun ⟨n, hn, e⟩ => hk ⟨n, by simp [List.mem_singleton.mp hn], e⟩]
    · rw [List.mem_cons, not_or] at hn
      rw [List.foldl_cons, rest.slot n hn.2, first.slot n (by simpa using hn.1)]
    · rw [List.foldl_cons]
      rcases List.mem_cons.mp hn with rfl | later
      · rw [rest.slot n out, rest.shadow out]
        exact s.computeSlot_computed n computed
      · have apart : n ∉ [m] := fun e => out (List.mem_singleton.mp e ▸ later)
        obtain ⟨writing, shadow⟩ := written n later ((first.computed apart).mpr computed)
        exact ⟨writing, shadow.trans (first.tableOf apart)⟩

/-- A recomputation in AUTO writes every table that it computes. -/
theorem State.recompute_written (s : State) (idle : s.odNew = []) (auto : s.rd K.stripMode = 0) (n : Slot) (h : Computed s n) :
    (s.recompute.slot n).writing = true ∧ s.recompute.shadow n = s.tableOf n := by
  rw [s.recompute_auto idle auto]
  exact (computeSlots_spec allSlots (List.nodup_finRange 8) s).2 n (List.mem_finRange n) h

/-- Settles O16: both commands are the recomputation of R84. -/
theorem stripTables : Obligations.StripTables := by
  unfold Obligations.StripTables
  refine ⟨fun s idle auto => ⟨settle s.recompute, rfl, fun n none manual stage => ?_⟩,
    fun s idle auto => ⟨settle (s.recompute.reply 0), rfl, rfl, fun n none manual stage => ?_⟩, fun s idle manual => ⟨?_, ?_⟩⟩
  · rw [settle_slot_of, settle_shadow]
    exact s.recompute_written idle auto n ⟨none, manual, stage⟩
  · rw [settle_slot_of, settle_shadow, State.reply_slot, State.reply_shadow]
    exact s.recompute_written idle auto n ⟨none, manual, stage⟩
  · exact congrArg done (s.recompute_manual idle manual)
  · exact congrArg (fun t => done (State.reply t 0)) (s.recompute_manual idle manual)

end Sys2Proof.Machine
end

section
/-! SUPPORT. The shelf (R96 to R104): the members' records, the device's frame and its rounds. Ignored frames are log entry 165, the
share under overcommit log entry 150, members not heard log entry 36. -/

namespace Sys2Proof.Machine

/-! The members' records. -/

/-- A filter that keeps what is looked for changes nothing of the search. -/
theorem find?_filter_of_imp {α : Type} (l : List α) (p q : α → Bool) (h : ∀ a, q a = true → p a = true) :
    (l.filter p).find? q = l.find? q := by
  rw [List.find?_filter]
  congr 1
  funext a
  cases hq : q a with
  | true => simp [h a hq]
  | false => simp

/-- A filter that drops what is looked for leaves nothing to be found. -/
theorem find?_filter_of_drop {α : Type} (l : List α) (p q : α → Bool) (h : ∀ a, q a = true → p a = false) :
    (l.filter p).find? q = none := by
  rw [List.find?_eq_none]
  intro a ha hq
  rw [List.mem_filter, h a hq] at ha
  exact Bool.false_ne_true ha.2

/-- A record put in node order is found under its node, and hides no other. -/
theorem State.setPeer_peer (s : State) (q : Peer) (m : Nat) : (s.setPeer q).peer m = if m = q.node then some q else s.peer m := by
  let rest := s.ledger.peers.filter fun r => decide (r.node ≠ q.node)
  have found : (s.setPeer q).peer m =
      ((rest.filter fun r => decide (r.node < q.node)) ++ q :: rest.filter fun r => decide (q.node < r.node)).find?
        fun r => decide (r.node = m) := rfl
  have others (h : m ≠ q.node) : rest.find? (fun r => decide (r.node = m)) = s.peer m :=
    find?_filter_of_imp _ _ _ fun r hr => by
      rw [decide_eq_true_eq] at hr ⊢
      exact hr ▸ h
  rw [found, List.find?_append, List.find?_cons]
  rcases Nat.lt_trichotomy m q.node with h | h | h
  · rw [find?_filter_of_imp rest _ _ (by simp; omega), find?_filter_of_drop rest (fun r => decide (q.node < r.node)) _ (by simp; omega),
      others (by omega), if_neg (by omega), decide_eq_false (by omega)]
    exact Option.or_none
  · rw [find?_filter_of_drop rest (fun r => decide (r.node < q.node)) _ (by simp; omega), if_pos h, decide_eq_true h.symm]
    rfl
  · rw [find?_filter_of_drop rest (fun r => decide (r.node < q.node)) _ (by simp; omega),
      find?_filter_of_imp rest _ _ (by simp; omega), others (by omega), if_neg (by omega), decide_eq_false (by omega)]
    rfl

/-- The records of a new round: nobody heard. -/
def Peer.unheard (q : Peer) : Peer := { q with heard := false }

/-- A new round changes no sum. -/
theorem unheard_sum (l : List Peer) (m : Nat) :
    (((l.map Peer.unheard).find? fun q => decide (q.node = m)).map (·.sum)) = (l.find? fun q => decide (q.node = m)).map (·.sum) := by
  rw [List.find?_map, Option.map_map]
  rfl

/-! A frame that comes (R98 to R103). -/

/-- Frame `f` is one of member `n` of the shelf, on LEDGER_BUS under the member's identifier, and the device listens. -/
structure FrameOf (f : LedgerFrame) (n : Nat) (s : State) : Prop where
  length : f.raw.length = 56
  magic : f.raw.getD 0 0 = 0x4C
  version : f.raw.getD 1 0 = 1
  node : f.raw.getD 2 0 = n
  member : s.inMask n = true
  other : n ≠ s.node
  bus : (f.bus.val : Int) = s.rd K.ledgerBus
  id : f.id = frameIdOf s n
  awake : s.asleep 2 = false

/-- The record that a frame gives of its member. -/
def peerOf (f : LedgerFrame) (n : Nat) : Peer :=
  { node := n, flags := f.raw.getD 3 0, sum := frameField f.raw 8 4, floor := frameField f.raw 12 4
    demand := frameField f.raw 16 4, limit := frameField f.raw 20 4, cap := frameField f.raw 32 4
    heard := true, silent := 0, lost := false }

/-- The round of a frame opens where none is open or another one is. -/
def State.openedBy (s : State) (round : Nat) : State :=
  if !s.ledger.roundOpen || decide (round ≠ s.ledger.roundNow) then
    { s with ledger := { s.ledger with
      roundOpen := true, roundNow := round, sent := false, peers := s.ledger.peers.map Peer.unheard } }
  else s

/-- The round after the frame of member `n`: the next slot, and a lower opener heard again. -/
def State.slotPassed (s : State) (n : Nat) : State :=
  { s with ledger := { s.ledger with
    slotNode := (memberAfter s n).getD 128
    opener := if s.ledger.opener.any (fun m => decide (n < m)) then none else s.ledger.opener } }

/-- The ledger as a right frame of member `n` leaves it. -/
def State.frameTaken (s : State) (f : LedgerFrame) (n : Nat) : State :=
  ((s.openedBy (leValue ((f.raw.drop 4).take 2))).setPeer (peerOf f n)).slotPassed n

/-- The flags that a frame can change: PEER_LOST, and CONFIG_MISMATCH with another SHELF_CAP. -/
def State.frameFlagged (s : State) (f : LedgerFrame) : State :=
  let s := s.peerLostFlag
  if frameField f.raw 32 4 ≠ s.rd K.shelfCap then s.ledgerFlag 2 true else s

section
variable {f : LedgerFrame} {n : Nat} {s : State}

/-- A frame of a member reaches the ledger. -/
theorem FrameOf.reaches (h : FrameOf f n s) :
    execLedgerFrameRx f s = done (
      if f.tag ≠ s.frameTag f.raw then s.count K.ledgerFrameErr
      else
        let t := (s.frameTaken f n).frameFlagged f
        if t.ledger.turnWait ∧ !lowerBusy t ∧ mayRestore t then t.restoreBegin else t) := by
  obtain ⟨length, magic, version, node, member, other, bus, id, awake⟩ := h
  subst node
  rw [execLedgerFrameRx]
  dsimp only
  rw [if_neg (by simp only [length, magic, version, member, other, bus, id, awake, ne_eq, not_true_eq_false, Bool.not_true,
    Bool.false_eq_true, or_self, not_false_eq_true])]
  rfl

/-- A frame of no member, on another bus or under another identifier. -/
theorem execLedgerFrameRx_ignored (f : LedgerFrame) (s : State)
    (h : s.inMask (f.raw.getD 2 0) = false ∨ (f.bus.val : Int) ≠ s.rd K.ledgerBus ∨ f.id ≠ frameIdOf s (f.raw.getD 2 0)) :
    execLedgerFrameRx f s = .next (settle s) := by
  refine congrArg done (if_pos ?_)
  rcases h with member | bus | id
  · exact .inr (.inr (.inr (.inl (by rw [member, Bool.not_false]))))
  · exact .inr (.inr (.inr (.inr (.inr (.inl bus)))))
  · exact .inr (.inr (.inr (.inr (.inr (.inr (.inl id))))))

theorem State.frameFlagged_moves (s : State) (f : LedgerFrame) : Moves [.od] s (s.frameFlagged f) :=
  .ite ((State.ledgerFlag_moves ..).after (by decide) (State.peerLostFlag_moves s)) (State.peerLostFlag_moves s)

theorem State.openedBy_ledger (s : State) (round : Nat) :
    (s.openedBy round).ledger.roundOpen = true ∧ (s.openedBy round).ledger.roundNow = round ∧
      (s.openedBy round).ledger.turnWait = s.ledger.turnWait ∧
      ∀ m, ((s.openedBy round).peer m).map (·.sum) = (s.peer m).map (·.sum) := by
  unfold State.openedBy
  split
  · exact ⟨rfl, rfl, rfl, fun m => unheard_sum _ m⟩
  · next h =>
    rw [Bool.or_eq_true, not_or, Bool.not_eq_true, Bool.not_eq_false', decide_eq_true_eq, ne_eq, Decidable.not_not] at h
    exact ⟨h.1, h.2.symm, rfl, fun _ => rfl⟩

theorem State.openedBy_moves (s : State) (round : Nat) : Moves [.ledger] s (s.openedBy round) :=
  .ite (Moves.upd_ledger ..) (.refl _ s)

/-- Who the members are does not follow from the ledger's records. -/
theorem State.openedBy_memberAfter (s : State) (round : Nat) : memberAfter (s.openedBy round) n = memberAfter s n := by
  unfold State.openedBy
  split <;> rfl

theorem State.frameTaken_moves (s : State) (f : LedgerFrame) : Moves [.ledger] s (s.frameTaken f n) :=
  (Moves.upd_ledger _ _).after (by decide) <| (State.setPeer_moves ..).after (by decide) (State.openedBy_moves ..)

theorem State.frameTaken_peer (s : State) (f : LedgerFrame) (m : Nat) :
    (s.frameTaken f n).peer m = if m = n then some (peerOf f n) else (s.openedBy (leValue ((f.raw.drop 4).take 2))).peer m :=
  State.setPeer_peer _ (peerOf f n) m

/-- A right frame of a member: its record, the round, the next slot. -/
theorem FrameOf.right_spec (h : FrameOf f n s) (tag : f.tag = s.frameTag f.raw) (turn : s.ledger.turnWait = false) :
    ∃ t, exec (.ledgerFrameRx f) s = .next t ∧
      (t.peer n).any (fun q => decide (q.sum = frameField f.raw 8 4 ∧ q.demand = frameField f.raw 16 4 ∧
        q.limit = frameField f.raw 20 4 ∧ q.heard = true ∧ q.lost = false)) = true ∧
      t.ledger.roundOpen = true ∧ t.ledger.roundNow = leValue ((f.raw.drop 4).take 2) ∧
      t.ledger.slotNode = (memberAfter s n).getD 128 ∧
      (∀ m ∈ List.range 128, m ≠ n → (t.peer m).map (·.sum) = (s.peer m).map (·.sum)) ∧ Only [.od, .ledger, .pins] s t := by
  let u := s.openedBy (leValue ((f.raw.drop 4).take 2))
  let t := (s.frameTaken f n).frameFlagged f
  obtain ⟨opened, now, wait, sums⟩ := s.openedBy_ledger (leValue ((f.raw.drop 4).take 2))
  have ledger : t.ledger = (s.frameTaken f n).ledger := (State.frameFlagged_moves ..).ledger_eq (by decide)
  have peer (m : Nat) : t.peer m = if m = n then some (peerOf f n) else u.peer m := by
    rw [State.peer, ledger, ← State.peer, State.frameTaken_peer]
  have idle : ¬(t.ledger.turnWait ∧ !lowerBusy t ∧ mayRestore t) := by
    rw [ledger, show (s.frameTaken f n).ledger.turnWait = u.ledger.turnWait from rfl, wait, turn]
    exact fun k => Bool.false_ne_true k.1
  have runs : exec (.ledgerFrameRx f) s = .next (settle t) :=
    h.reaches.trans (congrArg done ((if_neg (not_not_intro tag)).trans (if_neg idle)))
  refine ⟨settle t, runs, ?_, ?_, ?_, ?_, fun m _ hm => ?_, ?_⟩
  · rw [show (settle t).peer n = t.peer n from rfl, peer, if_pos rfl]
    exact decide_eq_true ⟨rfl, rfl, rfl, rfl, rfl⟩
  · rw [settle_ledger, ledger]
    exact opened
  · rw [settle_ledger, ledger]
    exact now
  · rw [settle_ledger, ledger]
    exact congrArg (Option.getD · 128) (s.openedBy_memberAfter _)
  · rw [show (settle t).peer m = t.peer m from rfl, peer, if_neg hm]
    exact sums m
  · exact ((settle_moves _).after (by decide) <| (State.frameFlagged_moves ..).after (by decide) <|
      (State.frameTaken_moves ..).mono (by decide)).only

/-- A wrong tag is counted. -/
theorem FrameOf.wrong_spec (h : FrameOf f n s) (tag : f.tag ≠ s.frameTag f.raw) :
    ∃ t, exec (.ledgerFrameRx f) s = .next t ∧ t.rd K.ledgerFrameErr = satInc (s.rd K.ledgerFrameErr) u32Max ∧
      WroteOnly [K.ledgerFrameErr] s t ∧ Only [.od, .pins] s t :=
  ⟨settle (s.count K.ledgerFrameErr), h.reaches.trans (congrArg done (if_pos tag)), (State.rd_wr ..).trans (if_pos rfl),
    (WroteOnly.refl _ s).wr (List.mem_singleton_self _) _,
    ((settle_moves _).after (by decide) ((State.count_moves ..).mono (by decide))).only⟩

end

/-! Rounds (R99 to R102). -/

/-- A command that replaces the ledger's record alone. -/
theorem ledgerOnly (s : State) (l : LedgerHw) : Only [.ledger, .pins] s (settle { s with ledger := l }) :=
  ((settle_moves _).after (by decide) ((Moves.upd_ledger s l).mono (by decide))).only

section
variable (s : State)

theorem State.bit_ledgerFlag (i j : Nat) (b : Bool) :
    bit ((s.ledgerFlag i b).rd K.ledgerFlags) j = if j = i then b else bit (s.rd K.ledgerFlags) j := by
  unfold State.ledgerFlag
  split
  · next h =>
    split
    · next e => rw [e, h]
    · rfl
  · rw [State.alert_eq, State.rd_wr, if_neg (by decide), State.bit_flag]

/-- A flag of the ledger writes LEDGER_FLAGS and ALERT_SRC. -/
theorem State.ledgerFlag_wroteOnly (i : Nat) (b : Bool) : WroteOnly [K.ledgerFlags, K.alertSrc] s (s.ledgerFlag i b) := by
  unfold State.ledgerFlag
  split
  · exact .refl _ s
  · exact ((WroteOnly.refl _ s).wr (by simp) _).wr (by simp) _

theorem State.setBudget_rd (v : Int) (k : Nat) : (s.setBudget v).rd k = if k = K.budget then v else s.rd k := by
  let flagged := (List.range 16).foldl (fun s b => s.ioFlag b 0x4020 12 true) (s.wr K.budget v)
  have flags : Moves [.io] (s.wr K.budget v) flagged := Moves.foldl (fun u _ => u.ioFlag_moves ..) (.refl _ _)
  unfold State.setBudget
  dsimp only
  split
  · next h =>
    split
    · next e => rw [e, h]
    · rfl
  · split
    · rw [(State.budgetFree_moves _).rd_eq (by decide), flags.rd_eq (by decide), State.rd_wr]
    · rw [flags.rd_eq (by decide), State.rd_wr]

/-- Nothing pending, the configuration of the ledger stands (R104). -/
theorem State.applyLedgerConfig_of_idle (idle : s.odNew = []) : s.applyLedgerConfig = s := by
  have none (k : Nat) : s.pendingVal k = none := by rw [State.pendingVal, idle]; rfl
  exact if_neg (by simp [ledgerPends, none])

/-- Allotments lowered under overcommit return to all ports (R101). -/
def State.overReturned : State := allPorts.foldl (fun s p => s.setLport p { s.lport p with overAllot := none }) s

theorem State.overReturned_moves : Moves [.ledgerPorts] s s.overReturned := Moves.foldl (fun u _ => u.setLport_moves ..) (.refl _ s)

/-- The ledger at the end of a round. -/
def State.roundResult : LedgerHw :=
  { s.ledger with
    base := reconBudget s, share := reconShare s, roundOpen := false, overcommit := decide (reconSurplus s < 0)
    peers := s.ledger.peers.map fun q =>
      if q.heard then { q with silent := 0 } else { q with silent := q.silent + 1, lost := q.lost || decide (2 ≤ q.silent) } }

/-- The round shown with its records. -/
def State.roundKept : State := ({ s with ledger := s.roundResult } : State).wr K.round s.ledger.roundNow

/-- OVERCOMMIT and PEER_LOST follow. -/
def State.roundFlagged : State := (s.roundKept.ledgerFlag 0 (decide (reconSurplus s < 0))).peerLostFlag

/-- The end of a round before BUDGET follows it: allotments return where the overcommit is over. -/
def State.roundShown : State :=
  if decide (reconSurplus s < 0) ∨ !s.ledger.overcommit then s.roundFlagged else s.roundFlagged.overReturned

theorem State.roundFlagged_moves : Moves [.od, .ledger] s s.roundFlagged :=
  (State.peerLostFlag_moves _).after (by decide) <| (State.ledgerFlag_moves s.roundKept 0 _).after (by decide) <|
    (State.wr_moves _ K.round s.ledger.roundNow).after (by decide) <| (Moves.upd_ledger s s.roundResult).mono (by decide)

theorem State.roundShown_of_flagged : Moves [.ledgerPorts] s.roundFlagged s.roundShown :=
  .ite (.refl _ _) (State.overReturned_moves _)

theorem State.roundShown_moves : Moves [.od, .ledgerPorts, .ledger] s s.roundShown :=
  s.roundShown_of_flagged.after (by decide) (s.roundFlagged_moves.mono (by decide))

theorem State.roundShown_ledger : s.roundShown.ledger = s.roundResult := by
  rw [s.roundShown_of_flagged.ledger_eq (by decide), State.roundFlagged, (State.peerLostFlag_moves _).ledger_eq (by decide),
    (State.ledgerFlag_moves ..).ledger_eq (by decide)]
  rfl

theorem State.roundShown_round : s.roundShown.rd K.round = s.ledger.roundNow := by
  rw [s.roundShown_of_flagged.rd_eq (by decide), State.roundFlagged, State.peerLostFlag,
    State.ledgerFlag_wroteOnly _ 3 _ _ (by decide), State.ledgerFlag_wroteOnly _ 0 _ _ (by decide)]
  exact (State.rd_wr ..).trans (if_pos rfl)

theorem State.roundShown_overcommit : bit (s.roundShown.rd K.ledgerFlags) 0 = decide (reconSurplus s < 0) := by
  rw [s.roundShown_of_flagged.rd_eq (by decide), State.roundFlagged, State.peerLostFlag, State.bit_ledgerFlag, if_neg (by decide),
    State.bit_ledgerFlag, if_pos rfl]

/-- The end of a round (R99 to R102, R104). -/
theorem reconRoundEnd_spec (opened : s.ledger.roundOpen = true) (last : s.ledger.slotNode = 128) (idle : s.odNew = [])
    (uncapped : s.ledger.cap = none) :
    ∃ t, exec .reconRoundEnd s = .next t ∧ t.rd K.budget = reconBudget s ∧ t.ledger.share = reconShare s ∧
      t.ledger.roundOpen = false ∧ t.ledger.overcommit = decide (reconSurplus s < 0) ∧
      bit (t.rd K.ledgerFlags) 0 = decide (reconSurplus s < 0) ∧ t.rd K.round = s.ledger.roundNow ∧
      Only [.od, .io, .ledgerPorts, .ledger, .pins] s t := by
  let t := s.roundShown.setBudget (budgetOf s.roundShown.ledger)
  have budget : budgetOf s.roundShown.ledger = reconBudget s := by
    rw [s.roundShown_ledger, budgetOf, show s.roundResult.cap = s.ledger.cap from rfl, uncapped]
    rfl
  have moves : Moves [.od, .io, .ledgerPorts, .ledger] s t :=
    (State.setBudget_moves ..).after (by decide) (s.roundShown_moves.mono (by decide))
  have pending : t.odNew = [] := (of_decide_eq_true (moves.same .odNew (by decide))).symm.trans idle
  have kept : t.ledger = s.roundResult := ((State.setBudget_moves ..).ledger_eq (by decide)).trans s.roundShown_ledger
  have runs : exec .reconRoundEnd s = .next (settle t) := by
    rw [← t.applyLedgerConfig_of_idle pending]
    exact congrArg done (if_pos ⟨opened, last⟩)
  refine ⟨settle t, runs, ?_, ?_, ?_, ?_, ?_, ?_, ?_⟩
  · rw [settle_rd_of, State.setBudget_rd, if_pos rfl, budget]
  · rw [settle_ledger, kept]; rfl
  · rw [settle_ledger, kept]; rfl
  · rw [settle_ledger, kept]; rfl
  · rw [settle_rd_of, State.setBudget_rd, if_neg (by decide), s.roundShown_overcommit]
  · rw [settle_rd_of, State.setBudget_rd, if_neg (by decide), s.roundShown_round]
  · exact ((settle_moves _).after (by decide) (moves.mono (by decide))).only

/-! Allotments lowered (R101, R86). -/

/-- One port lowered: what it gives of the excess `a.1`. -/
def lowerPort (a : Int × State) (p : Port) : Int × State :=
  if 0 < a.1 ∧ 0 < a.2.rP p Kp.booking ∧ a.2.sourceRole p then
    (a.1 - min a.1 (a.2.rP p Kp.booking),
      (a.2.setLport p { a.2.lport p with overAllot := some (a.2.rP p Kp.booking - min a.1 (a.2.rP p Kp.booking)) }).shedAdvertise p)
  else a

theorem overcommitLowering_none (h : lowerTo s = none) : exec .overcommitLowering s = .next (settle s) := by
  rw [show exec .overcommitLowering s = execOvercommitLowering s from rfl, execOvercommitLowering, h]
  rfl

theorem overcommitLowering_some (goal : Int) (h : lowerTo s = some goal) :
    exec .overcommitLowering s = .next (settle ((cutOrder s).foldl lowerPort (runningSum s - goal, s)).2) := by
  rw [show exec .overcommitLowering s = execOvercommitLowering s from rfl, execOvercommitLowering, h]
  rfl

/-- With no excess nothing is lowered. -/
theorem lowerPorts_of_within (l : List Port) (a : Int × State) (h : a.1 ≤ 0) : l.foldl lowerPort a = a := by
  refine List.foldlRecOn (motive := (· = a)) l _ rfl fun b hb p _ => ?_
  rw [hb]
  exact if_neg fun k => absurd k.1 (by omega)

/-- A port to which no offer stands is not re-advertised. -/
theorem State.shedAdvertise_of_no_offer (p : Port) (spr : (s.port p).eprMode = false) (offer : (s.port p).offer = []) :
    s.shedAdvertise p = s := by
  rw [State.shedAdvertise, if_neg (by simp [spr]), State.readvertise, if_neg (by simp [offer])]

/-- The port of the lowest class, whose booking covers the whole excess. -/
theorem overcommitLowering_first (p : Port) (goal : Int) (h : lowerTo s = some goal) (first : (cutOrder s).head? = some p)
    (source : s.sourceRole p = true) (excess : goal < runningSum s) (covers : runningSum s - goal ≤ s.rP p Kp.booking)
    (offer : (s.port p).offer = []) (spr : (s.port p).eprMode = false) :
    exec .overcommitLowering s = .next (settle
      (s.setLport p { s.lport p with overAllot := some (s.rP p Kp.booking - (runningSum s - goal)) })) := by
  obtain ⟨rest, order⟩ := List.head?_eq_some_iff.mp first
  have lowered : lowerPort (runningSum s - goal, s) p =
      (0, s.setLport p { s.lport p with overAllot := some (s.rP p Kp.booking - (runningSum s - goal)) }) := by
    rw [lowerPort]
    dsimp only
    rw [if_pos ⟨by omega, by omega, source⟩, Int.min_eq_left covers, Int.sub_self]
    exact congrArg (Prod.mk 0) (State.shedAdvertise_of_no_offer _ p spr offer)
  rw [overcommitLowering_some s goal h, order, List.foldl_cons, lowered, lowerPorts_of_within _ _ (Int.le_refl 0)]

end

/-- Settles O19: frames, rounds and lowering by the lemmas above; a command outside its state by the guard of its meaning. -/
theorem reconciliation : Obligations.Reconciliation := by
  unfold Obligations.Reconciliation
  refine ⟨?wrongTag, ?rightTag, execLedgerFrameRx_ignored, ?sends, ?sentAlready, ?opens, ?alone, ?slotPasses, ?noRound, ?silent,
    reconRoundEnd_spec, ?slotsLeft, ?noEnd, ?within, overcommitLowering_none, ?lowered⟩
  case wrongTag =>
    intro f n s length magic version node member other bus id awake tag
    exact FrameOf.wrong_spec ⟨length, magic, version, node, member, other, bus, id, awake⟩ tag
  case rightTag =>
    intro f n s length magic version node member other bus id awake tag turn
    exact FrameOf.right_spec ⟨length, magic, version, node, member, other, bus, id, awake⟩ tag turn
  case sends =>
    intro s opened slot unsent awake
    exact ⟨_, congrArg done (if_pos ⟨opened, slot, by simp [unsent], by simp [awake]⟩), rfl, ledgerOnly s _⟩
  case sentAlready =>
    intro s h
    refine congrArg done (if_neg fun k => ?_)
    rcases h with h | h <;> simp [h] at k
  case opens =>
    intro s peers opener awake
    exact ⟨_, congrArg done (if_pos ⟨peers, opener, by simp [awake]⟩), rfl, rfl, rfl, rfl, rfl, rfl, ledgerOnly s _⟩
  case alone => exact fun s h => congrArg done (if_neg (by simp [h]))
  case slotPasses => exact fun node s opened slot => ⟨_, congrArg done (if_pos ⟨opened, slot⟩), rfl, ledgerOnly s _⟩
  case noRound => exact fun node s h => congrArg done (if_neg (by simp [h]))
  case silent =>
    intro n s next
    refine ⟨settle { s with ledger := { s.ledger with opener := some n } }, ?_, rfl, ledgerOnly s _⟩
    rw [show exec .openerSilent s = execOpenerSilent s from rfl, execOpenerSilent, next]
    rfl
  case slotsLeft => exact fun s h => congrArg done (if_neg (by omega))
  case noEnd => exact fun s h => congrArg done (if_neg (by simp [h]))
  case within =>
    intro b s goal h
    rw [overcommitLowering_some s b goal, lowerPorts_of_within _ _ (by show runningSum s - b ≤ 0; omega)]
  case lowered =>
    intro p b s goal first source excess covers offer spr
    refine ⟨_, overcommitLowering_first s p b goal first source excess covers offer spr, ?_, fun q hq => ?_, ?_⟩
    · exact (State.setLport_lport ..).trans (if_pos rfl)
    · exact (State.setLport_lport ..).trans (if_neg hq)
    · exact ((settle_moves _).after (by decide) ((State.setLport_moves ..).mono (by decide))).only

end Sys2Proof.Machine
end

section
/-! SUPPORT. Two states in which the statements on sheds and on restoration claim more than R91, R126, R153 and R94, R137 give: a port cut
during its pre-turn-on check, and a cut port whose link is in hold. -/

namespace Sys2Proof.Machine

/-- Comparators outside the listed parts stand. -/
theorem cmp_of_only {xs : List Part} {s t : State} (h : Only xs s t) (hx : Part.cmps ∉ xs) (c : Cmp) : s.cmp c = t.cmp c :=
  congrArg (tget · c) (of_decide_eq_true (h .cmps hx))

/-! A strobe during the check of a path (R126, R153, R163). -/

/-- Port 0 is in its pre-turn-on check, its comparators in MODE, and tile 0 has taken the strobe of FEED_A_LOSS with no slot armed. -/
def stripDuringCheck : State :=
  let s := (State.reset.setPath 0 { PathHw.reset with dir := .source, gate := .pre }).preCheck 0
  s.setTile 0 { s.tile 0 with strobes := [1] }

/-- The check is given up with the gate: WIN_I returns from MODE to IDLE_MODE (R153). -/
theorem tileSliceApply_ends_check :
    (stripDuringCheck.cmp (winI 0)).mode ≠
      ((stateOf stripDuringCheck (exec (.tileSliceApply 0 1) stripDuringCheck)).cmp (winI 0)).mode := by
  decide +kernel

/-- Refutes O17: its clause on the tiles says that a strobe moves no comparator, whatever the gate of a port that it cuts was doing. The
cut of a port in its pre-turn-on check ends that check, and its comparators return to IDLE_MODE (R153). -/
theorem not_sheds : ¬ Obligations.Sheds := by
  unfold Obligations.Sheds
  rintro ⟨-, -, -, strobe, -⟩
  obtain ⟨t, runs, -, -, -, only⟩ := strobe 0 1 stripDuringCheck (by decide +kernel) (by decide +kernel)
  have moved := tileSliceApply_ends_check
  rw [runs] at moved
  exact moved (congrArg CmpHw.mode (cmp_of_only only (by decide) (winI 0)))

/-! A restoration step while the link is in hold (R22, R94, R137). -/

/-- Port 0 is cut in the ledger and on its tile, BUDGET covers its reserve and restoration runs, while link 0 is in hold. -/
def restoreDuringHold : State :=
  ((((State.reset.wr K.ledgerFlags 0x10).wr K.budget 300).wr (keyP 0 Kp.ledgerState) 4).wr (K.lathState + (0 : Tile).val) 2).setPath 0
    { PathHw.reset with cut := true }

/-- The tile keeps its cut until the link is up (log entry 37). -/
theorem restoreStep_leaves_held_cut :
    ((stateOf restoreDuringHold (exec .restoreStep restoreDuringHold)).path 0).cut = true := by
  decide +kernel

/-- Refutes O18: its clause on a step says that the path of the restored port is cut no more, without the premise that its link is up. A
tile in link hold keeps its cut until the link returns (R22, R137). -/
theorem not_restoration : ¬ Obligations.Restoration := by
  unfold Obligations.Restoration
  rintro ⟨-, -, -, -, -, step, -⟩
  obtain ⟨t, runs, -, -, uncut, -⟩ := step 0 restoreDuringHold (by decide +kernel) (by decide +kernel) (by decide +kernel)
    (by decide +kernel)
  have kept := restoreStep_leaves_held_cut
  rw [runs] at kept
  exact Bool.false_ne_true (uncut.symm.trans kept)

end Sys2Proof.Machine
end

section
/-! SUPPORT. The pins FAULT_N and PWRGD after a command (R164, R165): every meaning ends by settling the pins. -/

namespace Sys2Proof.Machine

/-- Every command ends in a next state with its pins settled. -/
theorem exec_eq_done (c : Instr) (s : State) : ∃ u, exec c s = done u := by
  cases c <;> exact ⟨_, rfl⟩

/-- After a command the pins follow the state (log entry 12). -/
theorem pins_of_exec {c : Instr} {s t : State} (h : exec c s = .next t) : t.pins = pinsOf t := by
  obtain ⟨u, hu⟩ := exec_eq_done c s
  cases hu.symm.trans h
  rfl

/-! FAULT_N (R164). -/

theorem land_ne_zero_iff (a b : Nat) : a &&& b ≠ 0 ↔ ∃ i, a.testBit i = true ∧ b.testBit i = true := by
  constructor
  · intro h
    obtain ⟨i, hi⟩ := Nat.exists_testBit_of_ne_zero h
    exact ⟨i, by simpa using hi⟩
  · rintro ⟨i, ha, hb⟩ h
    simpa [ha, hb] using congrArg (Nat.testBit · i) h

/-- FAULT_N is asserted where a selected condition of R164 holds; bit 0 is always selected. -/
theorem pinsOf_fault_iff (s : State) :
    (pinsOf s).fault = true ↔ ∃ i, (faultConditions s).getD i false = true ∧ (s.scrim.faultMask.testBit i = true ∨ i = 0) := by
  simp only [← testBit_bitsOf, ← Nat.testBit_one_eq_true_iff_self_eq_zero, ← Bool.or_eq_true, ← Nat.testBit_or]
  exact decide_eq_true_iff.trans (land_ne_zero_iff ..)

/-- The conditions of a list are taken one by one. -/
theorem exists_getD_cons (b : Bool) (l : List Bool) (p : Nat → Prop) :
    (∃ i, (b :: l).getD i false = true ∧ p i) ↔ (p 0 ∧ b = true) ∨ ∃ i, l.getD i false = true ∧ p (i + 1) := by
  rw [← Nat.or_exists_add_one, and_comm]; rfl

/-- Settles O6: the pin after a command is that of its state, and the nine conditions are read off one by one. -/
theorem faultPin : Obligations.FaultPin := by
  unfold Obligations.FaultPin
  intro c s t h
  rw [pins_of_exec h, pinsOf_fault_iff, faultConditions]
  simp only [exists_getD_cons, decide_eq_true_eq]
  simp [allPorts]

/-! PWRGD (R165). -/

/-- PWRGD is high where the qualified composite is asserted and every rail that PWRGD_KILL selects has WIN_L inside its window and not
under a check. -/
theorem pwrgdOf_iff (s : State) : pwrgdOf s = true ↔ s.rd K.pwrgdState = 1 ∧ ∀ n : Rail, s.scrim.pwrgdKill.testBit n.val = true →
    (s.cmp (winL n)).h = false ∧ (s.cmp (winL n)).checking = false ∧ (s.cmp (winL n)).l = true := by
  have rail (k h c l : Bool) : (!k || (l && !(h || c))) = true ↔ (k = true → h = false ∧ c = false ∧ l = true) := by
    cases k <;> simp [and_comm, and_assoc]
  simp only [pwrgdOf, CmpHw.effH, Bool.and_eq_true, decide_eq_true_eq, List.all_eq_true, List.mem_finRange, forall_const, rail]

/-- Settles O7: the pin after a command is that of its state; an empty PWRGD_KILL selects no rail. -/
theorem pwrgdPin : Obligations.PwrgdPin := by
  unfold Obligations.PwrgdPin
  intro c s t h
  have pin : t.pins.pwrgd = pwrgdOf t := congrArg Pins.pwrgd (pins_of_exec h)
  refine ⟨pin ▸ pwrgdOf_iff t, fun unselected => ?_⟩
  rw [pin, pwrgdOf_iff, unselected]
  simp

end Sys2Proof.Machine
end

section
/-! SUPPORT. A state in which the statement on the comparators claims more than R22 and R154 give: a port in link hold whose comparator
sets a latch. -/

namespace Sys2Proof.Machine

/-- Tiles outside the listed parts stand. -/
theorem tile_of_only {xs : List Part} {s t : State} (h : Only xs s t) (hx : Part.tiles ∉ xs) (n : Tile) : s.tile n = t.tile n :=
  congrArg (tget · n) (of_decide_eq_true (h .tiles hx))

/-- WIN_V of port 0 settles in MODE with no latch set, while link 0 is in hold. -/
def settlingDuringHold : State :=
  (State.reset.wr (K.lathState + (0 : Tile).val) 2).setCmp (winV 0) { CmpHw.reset (winV 0).val with settling := true }

/-- An input above both thresholds sets the latch of H, and its bit of CMP_EVENT waits at the tile for the link (R22, Table 5.5). -/
theorem comparatorSettleEnd_waits_at_tile :
    ((stateOf settlingDuringHold (exec (.comparatorSettleEnd (winV 0) 5000) settlingDuringHold)).tile 0).news =
      [.sets 0 0x2010 (mirrorBit (winV 0) true)] := by
  decide +kernel

/-- Refutes O27: its clause on the end of settling says that nothing but IO registers, comparators and pins changes, without the premise
that the link of the port is up. In link hold what the tile reports to the comparator mirror waits with the tile (R22, R32). -/
theorem not_comparators : ¬ Obligations.Comparators := by
  unfold Obligations.Comparators
  rintro ⟨-, -, settled, -⟩
  obtain ⟨t, runs, -, -, -, -, -, -, -, only⟩ := settled (winV 0) 5000 settlingDuringHold (by decide +kernel) (by decide +kernel)
    (by decide +kernel) (by decide +kernel)
  have waits := comparatorSettleEnd_waits_at_tile
  rw [runs] at waits
  have idle : (settlingDuringHold.tile 0).news = [] := by decide +kernel
  rw [tile_of_only only (by decide) 0] at idle
  exact List.cons_ne_nil _ _ (waits.symm.trans idle)

end Sys2Proof.Machine
end

section
/-! SUPPORT. A state in which the statement on power samples claims more than R215, R222 and R226 give: a quantity before its first sample,
with a CLEAR_ACC that waits for it. -/

namespace Sys2Proof.Machine

/-- Port 0 has no sample yet, energy on its accumulator, a CLEAR_ACC cut that waits, and a current result with its voltage. -/
def clearBeforeFirstSample : State :=
  State.reset.setMet 0 { MetHw.reset with eFwd := 1, vs := [(0, 0)], cs := [(0, 0)], cuts := [{ t := 0, kind := .clear }] }

/-- The cut is taken at the first sample, and it clears the accumulator (R226). -/
theorem powerSample_takes_waiting_clear :
    ((stateOf clearBeforeFirstSample (exec (.powerSample 0) clearBeforeFirstSample)).met 0).eFwd ≠
      (clearBeforeFirstSample.met 0).eFwd := by
  decide +kernel

/-- Refutes O31: its clause on the first power sample says that E_FWD stands, with no premise that no CLEAR_ACC waits for that sample or
that the accumulator is at 0 before it. A CLEAR_ACC given before the first sample is taken with it (R216, R226). The counterexample holds
energy before any sample, which metering from reset does not bring about and the clause does not rule out. -/
theorem not_meteringAndSkims : ¬ Obligations.MeteringAndSkims := by
  unfold Obligations.MeteringAndSkims
  rintro ⟨-, first, -⟩
  obtain ⟨t, runs, -, -, -, stands, -⟩ := first 0 0 { t := 0, v := 0, i := 0, p := 0 } clearBeforeFirstSample rfl (by decide +kernel)
    (by decide +kernel)
  have cleared := powerSample_takes_waiting_clear
  rw [runs] at cleared
  exact cleared stands

end Sys2Proof.Machine
end

section
/-! SUPPORT. Records (R227, R230, R231): what a cut, a publication and the signer's turn to the next record leave, and the interval
boundary. -/

namespace Sys2Proof.Machine

/-! Values that stand where a part of the state does. -/

section
variable {xs : List Part} {s t : State}

theorem Moves.recs_eq (h : Moves xs s t) (hx : Part.recs ∉ xs) : t.recs = s.recs := (of_decide_eq_true (h.same .recs hx)).symm

theorem Moves.recorder_eq (h : Moves xs s t) (hx : Part.recorder ∉ xs) : t.recorder = s.recorder :=
  (of_decide_eq_true (h.same .recorder hx)).symm

theorem Moves.rdB_eq (h : Moves xs s t) (hx : Part.blob ∉ xs) (k : Nat) : t.rdB k = s.rdB k := by
  rw [State.rdB, ← of_decide_eq_true (h.same .blob hx), State.rdB]

theorem Moves.nvGet_eq (h : Moves xs s t) (hx : Part.nv ∉ xs) (k : Nat) : t.nvGet k = s.nvGet k := by
  rw [State.nvGet, ← of_decide_eq_true (h.same .nv hx), State.nvGet]

end

/-! A cut (R227). -/

/-- From `s` to `t` a record of kind `k` has been cut with T_CUT `tCut`: it waits under the next number, which is used up, and the signer
has a record. The dictionary stands. -/
structure CutTaken (k : Fin 3) (tCut : Nat) (s t : State) : Prop where
  waits : (tget t.recs.wait k).any (fun r => decide (r.seq = s.recNumber ∧ r.tCut = tCut)) = true
  others : ∀ j, j ≠ k → tget t.recs.wait j = tget s.recs.wait j
  number : t.nvGet K.recSeq = (s.recNumber : Nat)
  signing : t.recs.signing.isSome = true
  interval : t.recs.interval = s.recs.interval
  moves : Moves [.mets, .recs, .nv] s t

/-- The next number is written where the last one stood. -/
theorem State.useNumber_recSeq (s : State) : s.useNumber.nvGet K.recSeq = (s.recNumber : Nat) :=
  (SMap.get_put (fun _ => (0 : Int)) s.nv K.recSeq K.recSeq (s.recNumber : Nat)).trans (if_pos rfl)

/-- With no entry pending and no record of the kind waiting, the cut is taken. -/
theorem State.cutRecord_taken (s : State) {k : Fin 3} (t tCut : Nat) (idle : s.odNew = []) (free : tget s.recs.wait k = none) :
    CutTaken k tCut s (s.cutRecord k t tCut) := by
  unfold State.cutRecord
  extract_lets applied r u old noted taken
  have nothing : s = applied := (s.applyKeys_nil _ idle).symm
  clear_value applied
  subst nothing
  have cut : Moves [.mets] s.useNumber u := State.cutAll_moves ..
  have moves : Moves [.mets, .nv] s u := cut.after (by decide) (s.useNumber_moves.mono (by decide))
  have number : u.nvGet K.recSeq = (s.recNumber : Nat) := (cut.nvGet_eq (by decide) _).trans s.useNumber_recSeq
  have recs : u.recs = s.recs := moves.recs_eq (by decide)
  clear_value u
  have first : taken = { noted with wait := tset noted.wait k (some r) } := if_neg (by simp [noted, old, recs, free])
  have waiting (j : Fin 3) : tget taken.wait j = if j = k then some r else tget s.recs.wait j := by
    rw [first, tget_tset, ← recs]
  have kept : taken.interval = s.recs.interval := by rw [first, ← recs]
  clear_value taken
  refine ⟨?_, fun j hj => (waiting j).trans (if_neg hj), number, ?_, kept,
    (Moves.upd_recs u _).after (by decide) (moves.mono (by decide))⟩
  · dsimp only
    rw [waiting, if_pos rfl]
    exact decide_eq_true ⟨rfl, rfl⟩
  · dsimp only
    cases h : taken.signing <;> simp

/-! The turn of the signer to the next record (R230, R231). -/

section
variable (s : State) {k : Fin 3}

/-- The record state once the record of kind `k` has left the signer. -/
def RecHw.movedUp (q : RecHw) (k : Fin 3) : RecHw :=
  let q := { q with wait := tset q.wait k (tget q.next k), next := tset q.next k none }
  { q with signing := oldestWait q }

variable (skim : k ≠ 0) (state : s.rd K.skimState = 0)
include skim state

/-- Of another kind than SKIM, and with no skim in progress, SKIM_STATE has no part in it. -/
theorem State.nextRecord_of_no_skim : s.nextRecord k = { s.dropCaps (waitSeq s.recs k) with recs := s.recs.movedUp k } := by
  have unsigned : ¬ s.rd K.skimState = 3 := by omega
  rw [State.nextRecord]
  dsimp only
  rw [if_neg skim]
  exact if_neg fun h => unsigned h.2

theorem State.nextRecord_moves_of_no_skim : Moves [.mets, .recs] s (s.nextRecord k) := by
  rw [s.nextRecord_of_no_skim skim state]
  exact (Moves.upd_recs _ _).after (by decide) ((State.dropCaps_moves ..).mono (by decide))

theorem State.nextRecord_recs : (s.nextRecord k).recs = s.recs.movedUp k := by
  rw [s.nextRecord_of_no_skim skim state]

end

@[simp] theorem RecHw.movedUp_wait (q : RecHw) (k : Fin 3) : tget (q.movedUp k).wait k = tget q.next k :=
  (tget_tset ..).trans (if_pos rfl)

@[simp] theorem RecHw.movedUp_next (q : RecHw) (k : Fin 3) : tget (q.movedUp k).next k = none :=
  (tget_tset ..).trans (if_pos rfl)

@[simp] theorem RecHw.movedUp_tPrev (q : RecHw) (k : Fin 3) : (q.movedUp k).tPrev = q.tPrev := rfl

/-! A publication (R227, R230). -/

section
variable (s : State) (k : Fin 3) (r : RecCut) (seed : List Nat)

/-- The octets published read at the entry of the kind and wait for the journal. -/
theorem State.publish_eq :
    ∃ octets : List Nat, s.publish k r seed =
      ({ (s.wrB (K.recSkim + k.val) octets).wr K.recSeq r.seq with
        recs := { s.recs with tPrev := tset s.recs.tPrev k r.tCut }
        recorder := { s.recorder with signed := s.recorder.signed ++ [octets] } } : State).alert 9 := ⟨_, rfl⟩

theorem State.publish_rd (j : Nat) :
    (s.publish k r seed).rd j =
      if j = K.alertSrc then withBit (s.rd K.alertSrc) 9 true else if j = K.recSeq then (r.seq : Int) else s.rd j := by
  obtain ⟨octets, published⟩ := s.publish_eq k r seed
  have alert : (((s.wrB (K.recSkim + k.val) octets).wr K.recSeq r.seq).flag K.alertSrc 9 true).rd j = _ := State.rd_flag ..
  rw [State.rd_wr, State.rd_wr, if_neg (show K.alertSrc ≠ K.recSeq by decide)] at alert
  rw [published]
  exact alert

theorem State.publish_recs : (s.publish k r seed).recs = { s.recs with tPrev := tset s.recs.tPrev k r.tCut } := by
  obtain ⟨octets, published⟩ := s.publish_eq k r seed
  rw [published]
  rfl

theorem State.publish_signed :
    (s.publish k r seed).recorder.signed = s.recorder.signed ++ [(s.publish k r seed).rdB (K.recSkim + k.val)] := by
  obtain ⟨octets, published⟩ := s.publish_eq k r seed
  have entry : (s.wrB (K.recSkim + k.val) octets).rdB (K.recSkim + k.val) = octets := (blobGet_blobPut ..).trans (if_pos rfl)
  rw [published]
  exact congrArg (s.recorder.signed ++ [·]) entry.symm

end

/-! The commands. -/

section
variable {s : State}

theorem execRecordSigned_of_complete {k : Fin 3} {r : RecCut} {d : List Nat} (signing : s.recs.signing = some k)
    (waits : tget s.recs.wait k = some r) (seed : deviceSeed s = some d) (complete : bankDone s r.seq = true) :
    exec (.recordSigned k) s = .next (settle (((s.settleRecord r.seq).publish k r d).nextRecord k)) := by
  rw [show exec (.recordSigned k) s = execRecordSigned k s from rfl, execRecordSigned, signing, waits, seed]
  exact congrArg done (if_pos ⟨rfl, complete⟩)

theorem execRecordSigned_of_incomplete {k : Fin 3} {r : RecCut} (waits : tget s.recs.wait k = some r)
    (incomplete : bankDone s r.seq = false) : exec (.recordSigned k) s = .next (settle s) := by
  rw [show exec (.recordSigned k) s = execRecordSigned k s from rfl, execRecordSigned, waits]
  cases s.recs.signing with
  | none => rfl
  | some j =>
    cases deviceSeed s with
    | none => rfl
    | some d => exact congrArg done (if_neg fun h => by simp [incomplete] at h)

theorem execRecordSigned_of_no_signing (k : Fin 3) (signing : s.recs.signing = none) :
    exec (.recordSigned k) s = .next (settle s) := by
  rw [show exec (.recordSigned k) s = execRecordSigned k s from rfl, execRecordSigned, signing]
  rfl

/-- A record of another kind than SKIM signed while no skim is in progress (R227, R230). -/
theorem recordSigned_spec {k : Fin 3} {r : RecCut} {d : List Nat} (signing : s.recs.signing = some k)
    (waits : tget s.recs.wait k = some r) (seed : deviceSeed s = some d) (complete : bankDone s r.seq = true) (skim : k ≠ 0)
    (state : s.rd K.skimState = 0) :
    ∃ t, exec (.recordSigned k) s = .next t ∧ t.rd K.recSeq = r.seq ∧ bit (t.rd K.alertSrc) 9 = true ∧
      tget t.recs.wait k = tget s.recs.next k ∧ tget t.recs.tPrev k = r.tCut ∧
      t.recorder.signed = s.recorder.signed ++ [t.rdB (K.recSkim + k.val)] ∧ WroteOnly [K.recSeq, K.alertSrc] s t ∧
      Only [.od, .blob, .mets, .recs, .recorder, .pins] s t := by
  have settled := s.settleRecord_moves r.seq
  have before := settled.rd_eq (by decide)
  let u := (s.settleRecord r.seq).publish k r d
  have published (j : Nat) : u.rd j = _ := State.publish_rd ..
  have recorded : u.recs = _ := State.publish_recs ..
  rw [settled.recs_eq (by decide)] at recorded
  have signed : u.recorder.signed = _ := State.publish_signed ..
  rw [settled.recorder_eq (by decide)] at signed
  have quiet : u.rd K.skimState = 0 := by
    rw [published, if_neg (by decide), if_neg (by decide), before, state]
  have turn := u.nextRecord_moves_of_no_skim skim quiet
  have entries (j : Nat) : (settle (u.nextRecord k)).rd j = u.rd j := turn.rd_eq (by decide) j
  have recs : (settle (u.nextRecord k)).recs = u.recs.movedUp k := u.nextRecord_recs skim quiet
  refine ⟨_, execRecordSigned_of_complete signing waits seed complete, ?_, ?_, ?_, ?_, ?_, fun j hj => ?_, ?_⟩
  · rw [entries, published, if_neg (by decide), if_pos rfl]
  · rw [entries, published, if_pos rfl, bit_withBit, if_pos rfl]
  · rw [recs, RecHw.movedUp_wait, recorded]
  · rw [recs, RecHw.movedUp_tPrev, recorded, tget_tset, if_pos rfl]
  · rw [settle_recorder, settle_rdB_of, turn.recorder_eq (by decide), turn.rdB_eq (by decide), signed]
  · rw [List.mem_cons, List.mem_singleton, not_or] at hj
    rw [entries, published, if_neg hj.2, if_neg hj.1, before]
  · exact ((settle_moves _).after (by decide) <| turn.after (by decide) <| (State.publish_moves ..).after (by decide) <|
      settled.mono (by decide)).only

/-- A signature that fails for a record of another kind than SKIM while no skim is in progress (R230). -/
theorem recordSignFail_spec {k : Fin 3} (signing : s.recs.signing = some k) (skim : k ≠ 0) (state : s.rd K.skimState = 0) :
    ∃ t, exec (.recordSignFail k) s = .next t ∧ t.rd K.recFail = satInc (s.rd K.recFail) u32Max ∧
      tget t.recs.wait k = tget s.recs.next k ∧ tget t.recs.next k = none ∧ WroteOnly [K.recFail] s t ∧
      Only [.od, .mets, .recs, .pins] s t := by
  let u := s.count K.recFail
  have counted (j : Nat) : u.rd j = if j = K.recFail then satInc (s.rd K.recFail) u32Max else s.rd j := State.rd_wr ..
  have quiet : u.rd K.skimState = 0 := by rw [counted, if_neg (by decide), state]
  have turn := u.nextRecord_moves_of_no_skim skim quiet
  have entries (j : Nat) : (settle (u.nextRecord k)).rd j = u.rd j := turn.rd_eq (by decide) j
  have recs : (settle (u.nextRecord k)).recs = u.recs.movedUp k := u.nextRecord_recs skim quiet
  refine ⟨_, congrArg done (if_pos signing), ?_, ?_, ?_, fun j hj => ?_, ?_⟩
  · rw [entries, counted, if_pos rfl]
  · rw [recs, RecHw.movedUp_wait]
    rfl
  · rw [recs, RecHw.movedUp_next]
  · rw [entries, counted, if_neg fun e => hj (List.mem_singleton.mpr e)]
  · exact ((settle_moves _).after (by decide) <| turn.after (by decide) <| (State.count_moves ..).mono (by decide)).only

/-- RECORD_NOW (R227). -/
theorem metCmdRecordNow_spec (noneWaits : recWaits s 2 = false) (free : tget s.recs.wait 2 = none) (idle : s.odNew = []) :
    ∃ t, exec .metCmdRecordNow s = .next t ∧ t.answer = 0 ∧
      (tget t.recs.wait 2).any (fun r => decide (r.seq = s.recNumber ∧ r.tCut = s.tb)) = true ∧
      t.nvGet K.recSeq = (s.recNumber : Nat) ∧ t.recs.signing.isSome = true ∧ tget t.recs.wait 1 = tget s.recs.wait 1 ∧
      WroteOnly [] s t ∧ Only [.od, .mets, .recs, .nv, .answer, .pins] s t := by
  have runs : exec .metCmdRecordNow s = done ((s.cutRecord 2 s.cnvNow s.tb).reply 0) :=
    congrArg (fun u : State => done (u.reply 0)) (if_neg (by simp [noneWaits]))
  have cut := s.cutRecord_taken s.cnvNow s.tb idle free
  generalize s.cutRecord 2 s.cnvNow s.tb = u at runs cut
  refine ⟨_, runs, rfl, cut.waits, cut.number, cut.signing, cut.others 1 (by decide), fun j _ => cut.moves.rd_eq (by decide) j, ?_⟩
  exact ((settle_moves _).after (by decide) <| (State.reply_moves ..).after (by decide) <| cut.moves.mono (by decide)).only

theorem metCmdRecordNow_of_waits (waits : recWaits s 2 = true) :
    exec .metCmdRecordNow s = .next (settle ((s.count K.recSkip).reply 0)) :=
  congrArg (fun u : State => done (u.reply 0)) (if_pos waits)

/-! The interval (R227). -/

/-- REC_PERIOD in ticks. -/
abbrev recTicks (s : State) : Nat := (s.rd K.recPeriod).toNat * 100000000

/-- The latest multiple of the interval that TB has come to. -/
abbrev recBoundary (s : State) : Nat := s.tb / recTicks s * recTicks s

/-- No boundary is past 0 where there is no interval. -/
theorem recTicks_ne_zero (h : s.recs.interval < recBoundary s) : recTicks s ≠ 0 := by
  intro zero
  rw [recBoundary, zero, Nat.mul_zero] at h
  exact absurd h (Nat.not_lt_zero _)

theorem intervalCut_of_no_period (period : s.rd K.recPeriod = 0) (idle : s.odNew = []) :
    exec .intervalCut s = .next (settle s) := by
  have zero : recTicks s = 0 := by rw [recTicks, period]; rfl
  exact congrArg done ((if_pos zero).trans (s.applyKeys_nil _ idle))

theorem intervalCut_of_not_due (period : 0 < s.rd K.recPeriod) (taken : recBoundary s ≤ s.recs.interval) :
    exec .intervalCut s = .next (settle s) := by
  have ticks : recTicks s ≠ 0 := by unfold recTicks; omega
  exact congrArg done ((if_neg ticks).trans (if_neg (Nat.not_lt.mpr taken)))

/-- The boundary `n` noted as the last one cut. -/
abbrev State.atBoundary (s : State) (n : Nat) : State := { s with recs := { s.recs with interval := n } }

section
variable {n : Nat} (boundary : n = recBoundary s) (due : s.recs.interval < n)
include boundary due

/-- At a boundary not yet taken the cut is tried. -/
theorem intervalCut_of_due : exec .intervalCut s = .next (settle ((s.atBoundary n).tryCut 1 (s.cnvAt n) n)) := by
  subst boundary
  exact congrArg done ((if_neg (recTicks_ne_zero due)).trans (if_pos due))

theorem intervalCut_skipped (waits : recWaits s 1 = true) :
    ∃ t, exec .intervalCut s = .next t ∧ t.rd K.recSkip = satInc (s.rd K.recSkip) u32Max ∧
      t.recs = { s.recs with interval := n } ∧ WroteOnly [K.recSkip] s t ∧ Only [.od, .recs, .pins] s t := by
  have skip : (s.atBoundary n).tryCut 1 (s.cnvAt n) n = (s.atBoundary n).count K.recSkip := if_pos waits
  refine ⟨_, skip ▸ intervalCut_of_due boundary due, ?_, rfl, ?_, ?_⟩
  · exact (State.rd_wr ..).trans (if_pos rfl)
  · exact ((WroteOnly.refl _ s).of_od rfl).wr (List.mem_singleton_self _) _
  · exact ((settle_moves _).after (by decide) <| (State.count_moves ..).after (by decide) <| (Moves.upd_recs s _).mono (by decide)).only

theorem intervalCut_taken (noneWaits : recWaits s 1 = false) (free : tget s.recs.wait 1 = none) (idle : s.odNew = []) :
    ∃ t, exec .intervalCut s = .next t ∧
      (tget t.recs.wait 1).any (fun r => decide (r.seq = s.recNumber ∧ r.tCut = n)) = true ∧
      t.recs.interval = n ∧ t.nvGet K.recSeq = (s.recNumber : Nat) ∧ t.recs.signing.isSome = true ∧
      WroteOnly [] s t ∧ Only [.od, .mets, .recs, .nv, .pins] s t := by
  have taken : (s.atBoundary n).tryCut 1 (s.cnvAt n) n = (s.atBoundary n).cutRecord 1 (s.cnvAt n) n :=
    if_neg fun h : recWaits s 1 = true => by simp [noneWaits] at h
  have runs := taken ▸ intervalCut_of_due boundary due
  have cut := (s.atBoundary n).cutRecord_taken (s.cnvAt n) n idle free
  generalize (s.atBoundary n).cutRecord 1 (s.cnvAt n) n = u at runs cut
  have moves : Moves [.mets, .recs, .nv] s u := cut.moves.after (by decide) ((Moves.upd_recs s _).mono (by decide))
  refine ⟨_, runs, cut.waits, cut.interval, cut.number, cut.signing, fun j _ => moves.rd_eq (by decide) j, ?_⟩
  exact ((settle_moves _).after (by decide) <| moves.mono (by decide)).only

end

end

/-- Settles O32: cuts, signatures and the interval by the lemmas above; a command outside its state by the guard of its meaning. -/
theorem records : Obligations.Records := by
  unfold Obligations.Records
  refine ⟨fun s => metCmdRecordNow_spec, fun s => metCmdRecordNow_of_waits, fun s => intervalCut_of_no_period,
    fun s _ => intervalCut_skipped rfl, fun n s => intervalCut_taken, fun s => intervalCut_of_not_due, ?signed,
    fun k r s => execRecordSigned_of_incomplete, fun k s => execRecordSigned_of_no_signing k, ?failed, ?nothingSigned⟩
  case signed =>
    rintro k r d s signing waits seed complete rfl state
    exact recordSigned_spec signing waits seed complete (by decide) state
  case failed =>
    rintro k s signing rfl state
    exact recordSignFail_spec signing (by decide) state
  case nothingSigned => exact fun k s signing => congrArg done (if_neg (by simp [signing]))

end Sys2Proof.Machine
end

section
/-! SUPPORT. A run in which the statement on the recorder's flushes claims more than R266 and R269 give: the second leaf of a power-fail
flush with two chip selects fitted, which goes to the other one (R272). -/

namespace Sys2Proof.Machine

/-! What leaves the head of the histogram ring where it is. -/

section
variable (s : State)

theorem State.programLeaf_histHead (a : Nat) (ok : Bool) (l : List Nat) :
    (s.programLeaf a ok l).recorder.histHead = s.recorder.histHead := by
  unfold State.programLeaf
  split <;> rfl

theorem State.pfSaves_histHead : s.pfSaves.recorder.histHead = s.recorder.histHead := by
  unfold State.pfSaves
  dsimp only
  split <;> rfl

end

/-- A leaf of a flush that has its place on the other chip select leaves the head of the ring where it is (R272, log entry 183). -/
theorem leafWritten_histHead_of_other {s : State} {f : Flush} {a : Nat} (ok : Bool) (uncut : s.recorder.cutLeaf = none)
    (runs : s.recorder.flush = some f) (frozen : f.frozen = true) (more : f.leaf < 17) (other : otherPlace s f = some a) :
    ∃ t, exec (.leafWritten ok) s = .next t ∧ t.recorder.histHead = s.recorder.histHead := by
  have going : ¬ ((!f.frozen) = true ∨ 17 ≤ f.leaf) := by
    rw [frozen]
    simpa using more
  refine ⟨_, rfl, ?_⟩
  rw [settle_recorder, uncut, runs]
  dsimp only
  rw [if_neg going, other, State.pfSaves_histHead]
  exact State.programLeaf_histHead ..

/-- Two chip selects of 64 MiB, fitted and erased, with a histogram ring of 1 MiB that lies half on each. -/
def splitRing : State :=
  let s := (State.reset.wr K.histBase 0x03F80000).wr K.histSize 0x00100000
  { s with recorder := { s.recorder with
      chips := Vector.replicate 2 (some { size := 0x04000000, page := 256, erase := 4096 }), histHead := 0x03F80000 } }

/-- The flush of a power-fail declared there, once its leaf 0 stands. -/
def powerFailFlush : Flush :=
  { cause := 6, seq := 1, stamp := 0, tb := 0, cycles := 0, frozen := true, leaf := 1, alt := none }

/-- Power-fail declared there, the image frozen and leaf 0 written. -/
def afterLeafZero : State :=
  [Instr.powerFailDeclared, .imageFreezeDone, .leafWritten true].foldl (fun s c => stateOf s (exec c s)) splitRing

theorem afterLeafZero_flush : afterLeafZero.recorder.flush = some powerFailFlush := by decide +kernel

/-- Leaf 1 goes to the first place of the ring on the second chip select. -/
theorem otherPlace_afterLeafZero : otherPlace afterLeafZero powerFailFlush = some 0x04000000 := by decide +kernel

/-- Refutes O35: its clause on a leaf that stands on the wall says that the leaf takes the head's place and that the head moves on, with
no premise that the flush is not one of cause POWER_FAIL. In a power-fail flush with two chip selects the leaves alternate between them
(R272, log entry 183): leaf 1 takes a place on the other chip select, and the head stays. -/
theorem not_recorderFlushes : ¬ Obligations.RecorderFlushes := by
  unfold Obligations.RecorderFlushes
  rintro ⟨-, -, -, -, -, -, -, -, -, -, stands, -⟩
  have uncut : afterLeafZero.recorder.cutLeaf = none := by decide +kernel
  obtain ⟨t, runs, -, -, moved, -⟩ := stands true powerFailFlush afterLeafZero uncut afterLeafZero_flush rfl (by decide) rfl
    (by decide +kernel) (by decide +kernel)
  obtain ⟨u, again, stays⟩ := leafWritten_histHead_of_other true uncut afterLeafZero_flush rfl (by decide) otherPlace_afterLeafZero
  obtain rfl : t = u := Host.Outcome.next.inj (runs.symm.trans again)
  have differ : ringAdd (histRing afterLeafZero).1 (histRing afterLeafZero).2 afterLeafZero.recorder.histHead 4096 ≠
      afterLeafZero.recorder.histHead := by decide +kernel
  exact differ (moved.symm.trans stays)

end Sys2Proof.Machine
end
